-- ==== Sys2Proof/Word.lean ====
section
/-!
DEFINITION. The word and byte types: every register of BAR0 is 32 bits wide (R596), memory is addressed in bytes.
-/

namespace Sys2Proof

/-- A register word (R596). -/
abbrev Word := BitVec 32

/-- A byte of memory. -/
abbrev Byte := BitVec 8

end Sys2Proof
end

