-- ==== Sys2Proof/Syntax.lean ====
section
/-!
DEFINITION. The commands: one constructor per row of the table, with the operands its rule gives it. A host command
carries the header of its packet (`Issue`, R133) and its parameters; an event row carries what the outside world decides.
Numbers are plain `Nat` or `Int`; `Sys2Proof/WellFormed.lean` says which widths a packet field or pin has.
-/

namespace Sys2Proof

/-- The header of a command packet and what its parameter block gives (R133, R135, R136): the ring it came from, TAG,
FLAGS, TARGET, bytes 9–15 as a number, the parameter bytes and bits that the opcode's layout keeps zero as a number, the
PARAM_PTR address, length and bytes 28–63 (0 without PARAM_PTR), whether the block could be read, and for a command
forwarded over the fabric its issuer's address (R437). -/
structure Issue where
  ring : Nat
  tag : Nat
  flags : Nat
  target : Nat
  rsvd : Nat
  prsvd : Nat
  ptr : Nat
  ptrLen : Nat
  ptrTail : Nat
  readOk : Bool
  src : Option Nat
  deriving DecidableEq, Repr

/-- Who asks the DRAM controller, as far as R485 needs it: refill of a lane, a burn cell of a quad's cache, the image
pipeline, the LAYER_LOAD pass, a general codec, a DMA channel, BAR2, a conductor working on a command (its opcode),
the fabric, the recording stream, a maintenance access, or a reader through the SRAM aperture (R48). -/
inductive Requester where
  | refill (lane : Nat)
  | burn (quad index : Nat)
  | image
  | load
  | codec (g : Nat)
  | dma (c : Nat)
  | bar2
  | conductor (op : Nat)
  | fabric
  | recording
  | scrub
  | aperture
  deriving DecidableEq, Repr

/-- A request that arrives at a DRAM channel (R478): port, device address, the bytes of a write, and who asks. -/
structure DramAsk where
  port : Nat
  isWrite : Bool
  addr : Nat
  data : List Byte
  who : Requester
  deriving DecidableEq, Repr

/-- A device of the fabric as HELLO reports it (R427, R447): serial, strapped address, root, BUSY, JOB, plate group (0xFF
none) and the neighbours on its ports (0xFF none). -/
structure DevInfo where
  serial : Nat
  strap : Bool
  root : Bool
  busy : Bool
  job : Bool
  group : Nat
  nbrs : List Nat
  deriving DecidableEq, Repr

/-- The burn map settings of a plate-group member (R361): ENABLE, ORIGIN_X and _Y, CELL, GRID_W and GRID_H, and its window
WIN_X0, WIN_Y0, WIN_W and WIN_H. -/
structure BurnWin where
  enable : Bool
  ox : Int
  oy : Int
  cell : Nat
  gw : Nat
  gh : Nat
  x0 : Nat
  y0 : Nat
  w : Nat
  h : Nat
  deriving DecidableEq, Repr

/-- An entry of a BURN_BORDER frame (R440): the cell's position, FACTOR, sums and counts, and STATE. -/
structure BorderCell where
  x : Nat
  y : Nat
  factor : Nat
  pdSum : Nat
  pdCount : Nat
  camSum : Nat
  camCount : Nat
  state : Nat
  deriving DecidableEq, Repr

/-- The samples of a photodiode input in the window of a tick (R297): lane, input, and the 8 codes of the high-gain and of
the low-gain path. -/
structure PdWin where
  lane : Nat
  input : Nat
  high : List Nat
  low : List Nat
  deriving DecidableEq, Repr

/-- What a calibration run measures on an input (R302): the sums of the 512 samples of each path with zero input and with the
reference current, and the largest high-gain code of step 3. -/
structure AfeSums where
  zaH : Nat
  zaL : Nat
  zbH : Nat
  zbL : Nat
  top : Nat
  deriving DecidableEq, Repr

/-- What a plate-group member reports at LAYER_ARM (R31, R152, R289, R361): its address, tick rate code, open job (0 none), plume
ENABLE, flow, length and half-width, and its burn map settings. -/
structure PeerArm where
  addr : Nat
  rate : Nat
  job : Nat
  plume : Bool
  flow : Nat
  length : Nat
  half : Nat
  burn : BurnWin
  deriving DecidableEq, Repr


/-- A claim that a lane may make at a boundary (R276): the lane, the owner's address, the zone, the global number of the entry's home
lane and the entry's estimated duration in µs. -/
structure ClaimAsk where
  lane : Nat
  owner : Nat
  zone : Nat
  home : Nat
  dur : Nat
  deriving DecidableEq, Repr

/-- The commands: one constructor per row of the table of operations and events, the commands
that the packet of a host brings first, each part in the order of the table. -/
inductive Instr where
  /-- BAD_OPCODE (R137). A fetched packet with an opcode outside the table completes with BAD_OPCODE. -/
  | badOpcode (h : Issue) (op : Nat)
  /-- NOP (R147). NOP completes at once, and with FENCE marks that the earlier commands of its ring have finished. -/
  | nop (h : Issue)
  /-- IDENTIFY (R147). IDENTIFY returns the device code, revision, fabric address, plate group and serial. -/
  | identify (h : Issue)
  /-- RESET_DOMAIN (R93). RESET_DOMAIN holds a switchable domain in reset and returns its datapath and registers to reset values. -/
  | resetDomain (h : Issue) (d : Nat)
  /-- COMMIT (R19). COMMIT captures the shadows of the named staging groups and checks them for the next tick boundary. -/
  | commit (h : Issue) (mask : Nat) (flags : Nat)
  /-- READ_STATUS (R147). READ_STATUS returns the boot, thermal and fault status and can write one mirror snapshot. -/
  | readStatus (h : Issue) (addr : Nat)
  /-- SET_STATUS_MIRROR (R147). SET_STATUS_MIRROR sets the mirror address and period, or disables the mirror. -/
  | setStatusMirror (h : Issue) (addr : Nat) (period : Nat)
  /-- FW_INFO (R147). FW_INFO returns the version, rollback version, length and source of the running firmware. -/
  | fwInfo (h : Issue)
  /-- POWER_DOMAIN (R86). POWER_DOMAIN switches a switchable domain on or off when its condition allows. -/
  | powerDomain (h : Issue) (d : Nat) (st : Nat) (flags : Nat)
  /-- DIE_LEDGER_QUERY (R105). DIE_LEDGER_QUERY returns the held die-ledger grants, the budget and the headroom. -/
  | dieLedgerQuery (h : Issue)
  /-- JOB_OPEN (R149). JOB_OPEN opens a job with its host and device areas and clears the recipe and lane-set tables. -/
  | jobOpen (h : Issue) (id_ : Nat) (hb : Nat) (hl : Nat) (db : Nat) (dl : Nat)
  /-- JOB_CLOSE (R150). JOB_CLOSE closes the open job and releases its areas. -/
  | jobClose (h : Issue) (id_ : Nat)
  /-- RECIPE_LOAD (R165). RECIPE_LOAD checks a block of exposure recipes and defines all of them or none. -/
  | recipeLoad (h : Issue) (first : Nat) (cnt : Nat) (source : Nat) (addr : Nat) (block : List Nat)
  /-- LANESET_LOAD (R167). LANESET_LOAD checks lane-set entries and loads all of them or none. -/
  | lanesetLoad (h : Issue) (first : Nat) (cnt : Nat) (source : Nat) (addr : Nat) (inl : List Nat) (block : List Nat)
  /-- LAYER_LOAD (R181). LAYER_LOAD starts the load pass that validates the layer descriptor and expands every stream. -/
  | layerLoad (h : Issue) (addr : Nat) (layer : Nat)
  /-- LAYER_ARM (R182). LAYER_ARM runs its ordered checks, makes the layer ARMED and starts refill. -/
  | layerArm (h : Issue) (layer : Nat) (peers : List PeerArm)
  /-- LAYER_EXPOSE (R183). LAYER_EXPOSE checks its START and sends it to the plate group for a common start. -/
  | layerExpose (h : Issue) (layer : Nat) (start : Nat)
  /-- STOP_BATH (R192). STOP_BATH requests a stop bath on this device or the whole plate group. -/
  | stopBath (h : Issue) (scope : Nat)
  /-- RESUME (R193). RESUME checks the paused layer and schedules its restart at a start fabric time. -/
  | resume (h : Issue) (layer : Nat) (start : Nat)
  /-- LAYER_ABORT (R195). LAYER_ABORT requests that the layer be aborted on this device or the whole plate group. -/
  | layerAbort (h : Issue) (scope : Nat)
  /-- CONTACT_SHEET_READ (R200). CONTACT_SHEET_READ copies a layer's contact sheet to the host or the general pool. -/
  | contactSheetRead (h : Issue) (layer : Nat) (addr : Nat)
  /-- OVERLAP_SET (R294). OVERLAP_SET writes the device, zone or zone-map shadows of group OVL. -/
  | overlapSet (h : Issue) (op : Nat) (margin : Nat) (horizon : Nat) (lookahead : Nat) (estP : Nat) (markOvh : Nat) (jumpOvh : Nat) (zone : Nat) (en : Nat) (lx : Int) (ly : Int) (nx : Int) (ny : Int) (first : Nat) (cnt : Nat) (map_ : List Nat)
  /-- PLUME_SET (R294). PLUME_SET writes the plume corridor shadows of group OVL. -/
  | plumeSet (h : Issue) (enable : Nat) (depth : Nat) (fx : Int) (fy : Int) (length : Nat) (half : Nat) (skip : Nat) (border : Nat)
  /-- STITCH_SET (R294). STITCH_SET writes a zone's stitch overlap and stagger shadows. -/
  | stitchSet (h : Issue) (zone : Nat) (overlap : Nat) (amp : Nat)
  /-- LANE_CONFIG (R233). LANE_CONFIG writes a lane's path limits and deviation window to the SCN shadows. -/
  | laneConfig (h : Issue) (lane_ : Nat) (flags : Nat) (vmark : Nat) (vjump : Nat) (accel : Nat) (jerk : Nat) (zv : Nat) (za : Nat) (zj : Nat) (winXy : Nat) (winZ : Nat) (delay : Nat) (count : Nat) (errs : Nat)
  /-- ENLARGER_MAP_LOAD (R214). ENLARGER_MAP_LOAD checks an enlarger map image and writes it into the engine's slot. -/
  | enlargerMapLoad (h : Issue) (lane_ : Nat) (source : Nat) (addr : Nat) (block : List Nat)
  /-- SCANNER_LINK_SET (R227). SCANNER_LINK_SET sets a lane's link generation and polarities and restarts the link. -/
  | scannerLinkSet (h : Issue) (lane_ : Nat) (gen : Nat) (pol : Nat)
  /-- LANE_JOG (R233). LANE_JOG moves a lane's spot with the laser held off, in plate or raw counts, or retargets a jog in progress. -/
  | laneJog (h : Issue) (lane_ : Nat) (mode : Nat) (x : Int) (y : Int) (z : Int) (speed : Nat)
  /-- DRIFT_TERMS_SET (R221). DRIFT_TERMS_SET stages a set of drift terms to apply together. -/
  | driftTermsSet (h : Issue) (lane_ : Nat) (apply_ : Nat) (mask : Nat) (terms : List Int)
  /-- LASER_PORT_SET (R260). LASER_PORT_SET writes a lane's laser port mode and its LAS shadows. -/
  | laserPortSet (h : Issue) (lane_ : Nat) (mode : Nat) (flags : Nat) (filter : Nat) (pfs : Nat) (pmax : Nat) (lead : Nat)
  /-- LEDGER_SET (R260). LEDGER_SET writes the budget, DPDT and STEP_MAX shadows of the laser power ledger. -/
  | ledgerSet (h : Issue) (budget : Nat) (dpdt : Nat) (stepMax : Nat)
  /-- AFE_SET (R309). AFE_SET writes a lane's photodiode front-end shadows. -/
  | afeSet (h : Issue) (lane_ : Nat) (flags : Nat) (calDelta : Nat) (offSettle : Nat) (satCode : Nat) (darkMin : Nat)
  /-- AFE_CALIBRATE (R309). AFE_CALIBRATE makes calibration runs pending on the named inputs, at the next slot or at once. -/
  | afeCalibrate (h : Issue) (lanes : Nat) (inputs : Nat) (mode : Nat)
  /-- CAL_VALUES_READ (R309). CAL_VALUES_READ writes the calibration records of a range of lanes. -/
  | calValuesRead (h : Issue) (first : Nat) (cnt : Nat) (addr : Nat)
  /-- CAL_VALUES_WRITE (R309). CAL_VALUES_WRITE checks calibration records in two passes and applies all of them together. -/
  | calValuesWrite (h : Issue) (cnt : Nat) (source : Nat) (addr : Nat) (block : List Nat)
  /-- CSI_PORT_SET (R329). CSI_PORT_SET sets a CSI-2 port's lanes, rate and camera bus. -/
  | csiPortSet (h : Issue) (port : Nat) (lanes : Nat) (rate : Nat) (busMode : Nat) (scl : Nat)
  /-- CONTEXT_SET (R324). CONTEXT_SET writes and commits a camera context's settings and sensor writes, advancing its generation. -/
  | contextSet (h : Issue) (c : Nat) (op : Nat) (nwrites : Nat) (fields : List Nat) (items : List Nat)
  /-- STATS_ROUTE (R328). STATS_ROUTE sets where a context's statistics records go and commits the context. -/
  | statsRoute (h : Issue) (c : Nat) (lane_ : Nat) (routes : Nat) (metric : Nat)
  /-- LOOP_CONFIG (R354). LOOP_CONFIG writes the selected limit, structure and lane fields of a loop. -/
  | loopConfig (h : Issue) (lanes : Nat) (lp : Nat) (mask : Nat) (limLo : Nat) (limHi : Nat) (slew : Nat) (flags : Nat) (start : Nat) (hold : Nat) (pdmin : Int)
  /-- LOOP_COEF_WRITE (R349). LOOP_COEF_WRITE schedules new loop coefficients for the named lanes, one per boundary. -/
  | loopCoefWrite (h : Issue) (lanes : Nat) (lp : Nat) (mask : Nat) (order : Nat) (kp : Int) (ki : Int) (kd : Int) (kf : Nat)
  /-- LOOP_MODE (R345). LOOP_MODE changes a loop between OFF, AUTO and MANUAL with a bumpless transfer. -/
  | loopMode (h : Issue) (lanes : Nat) (lp : Nat) (mode : Nat) (man : Nat) (flags : Nat)
  /-- LOOP_SETPOINT (R347). LOOP_SETPOINT sets or clears a loop's set-point override. -/
  | loopSetpoint (h : Issue) (lanes : Nat) (lp : Nat) (op : Nat) (value : Int)
  /-- LOOP_READ (R354). LOOP_READ returns a one-boundary snapshot of a loop. -/
  | loopRead (h : Issue) (lane_ : Nat) (lp : Nat)
  /-- BURN_CONFIG (R376). BURN_CONFIG writes the burn map shadows. -/
  | burnConfig (h : Issue) (flags : Nat) (gain : Nat) (weight : Nat) (nMin : Nat) (ox : Int) (oy : Int) (cell : Nat) (gw : Nat) (gh : Nat) (x0 : Nat) (y0 : Nat) (w : Nat) (wh : Nat)
  /-- BURN_MAP_LOAD (R375). BURN_MAP_LOAD checks a burn map image and places its cells into the committed window. -/
  | burnMapLoad (h : Issue) (source : Nat) (content : Nat) (addr : Nat)
  /-- BURN_MAP_SAVE (R376). BURN_MAP_SAVE copies the window as a burn map image to host memory or device DRAM. -/
  | burnMapSave (h : Issue) (dest : Nat) (addr : Nat)
  /-- BURN_FREEZE (R374). BURN_FREEZE freezes or thaws burn map learning on this device or the plate group. -/
  | burnFreeze (h : Issue) (op : Nat) (scope : Nat)
  /-- AXIS_CONFIG (R408). AXIS_CONFIG writes one section of an axis's AX shadows. -/
  | axisConfig (h : Issue) (axis : Nat) (sect : Nat) (vals : List Nat)
  /-- AXIS_MOVE (R386). AXIS_MOVE starts a move at the next boundary, or plans it in ARMED with GROUP. -/
  | axisMove (h : Issue) (axis : Nat) (flags : Nat) (target : Int) (vmax : Nat)
  /-- AXIS_HOME (R401). AXIS_HOME runs the homing search, sets the position, or adopts the encoder position. -/
  | axisHome (h : Issue) (axis : Nat) (mode : Nat) (value : Int)
  /-- AXIS_STOP (R396). AXIS_STOP stops the named axes, with controlled deceleration on axes 0–1 and at once on 2–7. -/
  | axisStop (h : Issue) (mask : Nat)
  /-- AXIS_RESUME (R397). AXIS_RESUME restarts axis 0 or 1 towards its original target from the kept remainder. -/
  | axisResume (h : Issue) (mask : Nat) (flags : Nat) (time : Nat)
  /-- AXIS_GROUP_START (R386). AXIS_GROUP_START schedules all ARMED axes of its mask to start at one boundary. -/
  | axisGroupStart (h : Issue) (mask : Nat) (flags : Nat) (time : Nat)
  /-- AXIS_RETARGET (R388). AXIS_RETARGET gives a moving axis a new target and limits, replanned at the next boundary. -/
  | axisRetarget (h : Issue) (axis : Nat) (flags : Nat) (target : Int) (vmax : Nat) (accel : Nat) (decel : Nat)
  /-- FABRIC_PORT_SET (R447). FABRIC_PORT_SET sets a Brodris port's mode, FEC, lanes and polarities and starts or stops it. -/
  | fabricPortSet (h : Issue) (port : Nat) (mode : Nat) (flags : Nat) (polarity : Nat)
  /-- FABRIC_DISCOVER (R447). FABRIC_DISCOVER reports the fabric's devices or rescans them. -/
  | fabricDiscover (h : Issue) (op : Nat) (addr : Nat)
  /-- FABRIC_ROUTE_READ (R447). FABRIC_ROUTE_READ returns one route entry or the whole table. -/
  | fabricRouteRead (h : Issue) (dest : Nat) (addr : Nat)
  /-- PLATE_GROUP_SET (R445). PLATE_GROUP_SET changes the device's plate group when no job is open. -/
  | plateGroupSet (h : Issue) (group : Nat)
  /-- REMOTE_COMMAND (R447). REMOTE_COMMAND reads or writes a remote register, or fans a packet out to the plate group. -/
  | remoteCommand (h : Issue) (op : Nat) (target : Nat) (count : Nat) (off : Nat) (data : List Nat) (inner : List Byte)
  /-- TIME_CONFIG (R468). TIME_CONFIG writes the fabric time and servo shadows of group FTM. -/
  | timeConfig (h : Issue) (quality : Nat) (domain : Nat) (ann : Nat) (sync : Nat) (pdelay : Nat) (kp : Nat) (ki : Nat) (rateLim : Nat) (stepThresh : Nat) (lockThresh : Nat) (lockCount : Nat) (limit : Nat) (holdRate : Nat) (invert : Nat)
  /-- TRIGGER_SET (R466). TRIGGER_SET arms or disarms a trigger output's pulse schedule. -/
  | triggerSet (h : Issue) (trig : Nat) (op : Nat) (start : Nat) (period : Nat) (width : Nat) (count : Nat)
  /-- DDR_TRAIN (R474). DDR_TRAIN trains a DRAM channel under a die-ledger grant. -/
  | ddrTrain (h : Issue) (channel : Nat)
  /-- DDR_CONFIG (R475). DDR_CONFIG writes a channel's or the device-wide DRAM and SRAM shadows. -/
  | ddrConfig (h : Issue) (channel : Nat) (type : Nat) (rate : Nat) (ranks : Nat) (module_ : Nat) (width : Nat) (density : Nat) (map : Nat) (scrubHours : Nat) (ageNs : Nat) (actLimit : Nat) (thresh : Nat) (scrubMs : Nat)
  /-- DMA_CHANNEL_SET (R515). DMA_CHANNEL_SET sets a channel's priority and rate. -/
  | dmaChannelSet (h : Issue) (channel : Nat) (priority : Nat) (rate : Nat)
  /-- DMA_START (R502). DMA_START starts a channel's descriptor chain. -/
  | dmaStart (h : Issue) (channel : Nat) (space : Nat) (addr : Nat)
  /-- DMA_STOP (R515). DMA_STOP stops the named channels after the burst in progress. -/
  | dmaStop (h : Issue) (mask : Nat)
  /-- COMPRESS_JOB (R504). COMPRESS_JOB compresses data into one raw DEFLATE, zlib or gzip instance. -/
  | compressJob (h : Issue) (codec : Nat) (format : Nat) (level : Nat) (rate : Nat) (inSpace : Nat) (outSpace : Nat) (inAddr : Nat) (outAddr : Nat) (inLen : Nat) (outLen : Nat)
  /-- DECOMPRESS_JOB (R505). DECOMPRESS_JOB expands one framed stream under the expansion limit. -/
  | decompressJob (h : Issue) (codec : Nat) (format : Nat) (rate : Nat) (inSpace : Nat) (outSpace : Nat) (inAddr : Nat) (outAddr : Nat) (inLen : Nat) (outLen : Nat) (ratio : Nat) (cap : Nat)
  /-- CODEC_FLUSH (R509). CODEC_FLUSH ends the current block and writes a sync marker. -/
  | codecFlush (h : Issue) (codec : Nat) (used : Nat)
  /-- CODEC_RESUME (R508). CODEC_RESUME continues a suspended job into new output, or discards it. -/
  | codecResume (h : Issue) (codec : Nat) (op : Nat) (rate : Nat) (outSpace : Nat) (outAddr : Nat) (outLen : Nat)
  /-- MBX_BIND (R529). MBX_BIND binds or unbinds a mailbox channel. -/
  | mbxBind (h : Issue) (channel : Nat) (op : Nat) (sender : Nat) (receiver : Nat) (peer : Nat) (timeout : Nat)
  /-- MBX_LOCK (R529). MBX_LOCK locks the named mailbox channels until POR_N. -/
  | mbxLock (h : Issue) (mask : Nat)
  /-- PANEL_SET (R549). PANEL_SET writes the panel input, LED global or channel shadows. -/
  | panelSet (h : Issue) (op : Nat) (channel : Nat) (v0 : Nat) (v1 : Nat) (v2 : Nat) (v3 : Nat)
  /-- LED_PATTERN_LOAD (R542). LED_PATTERN_LOAD loads a pattern engine, which restarts at the next 1 ms tick. -/
  | ledPatternLoad (h : Issue) (engine_ : Nat) (mode : Nat) (flags : Nat) (nchan : Nat) (list : List Nat) (hi : Nat) (lo : Nat) (timeA : Nat) (timeB : Nat) (nsteps : Nat) (steps : List (Nat × Nat))
  /-- LED_COLOUR_TARGET (R544). LED_COLOUR_TARGET switches the colour loop on with a target, or off. -/
  | ledColourTarget (h : Issue) (op : Nat) (red : Nat) (green : Nat) (blue : Nat) (x : Nat) (y : Nat) (luma : Nat) (m : List Int) (gain : Nat)
  /-- LED_DIAG (R549). LED_DIAG clears lamp flags, sets STRETCH, or runs a neighbour round. -/
  | ledDiag (h : Issue) (op : Nat) (mask : Nat) (shorts : Nat)
  /-- FAULT_READ (R560). FAULT_READ copies the 64 fault table entries. -/
  | faultRead (h : Issue) (addr : Nat)
  /-- FAULT_CLEAR (R560). FAULT_CLEAR frees the named GONE entries, leaving the safe state when none remains. -/
  | faultClear (h : Issue) (op : Nat) (code : Nat) (source : Nat) (mask : Nat)
  /-- RECORDER_FREEZE (R568). RECORDER_FREEZE stops writes into the main ring. -/
  | recorderFreeze (h : Issue)
  /-- RECORDER_THAW (R568). RECORDER_THAW resumes writing the main ring, starting with EVENTS_LOST. -/
  | recorderThaw (h : Issue)
  /-- BLACKBOX_READ (R572). BLACKBOX_READ copies black-box records, tick traces or the header, or rearms the trace. -/
  | blackboxRead (h : Issue) (op : Nat) (count : Nat) (lanes : Nat) (addr : Nat)
  /-- LANE_ENGINE_MAP (R575). LANE_ENGINE_MAP assigns a lane to an engine, sets AUTO, or clears an engine's FAILED mark. -/
  | laneEngineMap (h : Issue) (op : Nat) (lane_ : Nat) (engine : Nat) (value : Nat)
  /-- REPAIR_SCAN (R578). REPAIR_SCAN tests the named SRAM bank groups and self-tests the named engines. -/
  | repairScan (h : Issue) (banks : Nat) (engines : Nat) (fails : List (Nat × Bool × Nat)) (tests : Nat) (stop : Option Nat)
  /-- REPAIR_FIX (R578). REPAIR_FIX programs the unfused soft repairs into fuse entries, or only reports them. -/
  | repairFix (h : Issue) (op : Nat) (stop : Option Nat)
  /-- VDD_AON_FIRST_RISE (R90). The first rise of VDD_AON resets everything and marks the retained SRAM invalid. -/
  | vddAonFirstRise
  /-- POR_N_LOW (R90). POR_N low resets all logic, including the AON registers, mailboxes and locks, and places the device in the safe state. -/
  | porNLow
  /-- POR_N_RISE (R98). The rising edge of POR_N samples the straps and starts the boot ROM sequence from the BOOT_SEL source. -/
  | porNRise (bootSel : Nat) (fabAddr : Nat) (refclk : Bool) (fails : List (Nat × Bool × Nat)) (flash : Option (List Byte × List Byte))
  /-- SYS_RST_N_LOW (R90). SYS_RST_N low resets all logic except the AON domain and the PCIe link core, after entering the safe state. -/
  | sysRstNLow
  /-- SYS_RST_N_RELEASE (R95). The release of SYS_RST_N starts the boot ROM on conductor 0 without resampling the straps. -/
  | sysRstNRelease (fails : List (Nat × Bool × Nat)) (flash : Option (List Byte × List Byte))
  /-- BROWNOUT (R84). VDD_CORE stays below 0.80 V for 1 µs, which causes the safe state, then a reset of everything except AON, and sets BROWNOUT. -/
  | brownout (fails : List (Nat × Bool × Nat)) (flash : Option (List Byte × List Byte))
  /-- VDD_AON_UNDERVOLTAGE (R84). VDD_AON stays below 0.80 V for 1 µs, which resets the whole device and marks the retained SRAM invalid. -/
  | vddAonUndervoltage
  /-- SUPPLY_UV (R84). Another monitored rail stays below its threshold for 1 µs, which causes the safe state and the DEVICE fault SUPPLY_UV. -/
  | supplyUv (rail : Nat)
  /-- RAIL_SEQUENCE_VIOLATION (R83). A rail rises out of order and the first violation is recorded in PWR_SEQ_STS. -/
  | railSequenceViolation (group : Nat)
  /-- VDD_CORE_REMOVAL (R115). VDD_CORE falls below 0.5 V, which is the only event that clears a latched thermal shutdown. -/
  | vddCoreRemoval
  /-- PERST_N (R92). PERST_N low resets the PCIe link core, rings 0–14 and the mirror setting, and counts as a reset of master 0x00. -/
  | perstN
  /-- BUS_MASTER_ENABLE (R121). Bus Master Enable becomes 1 or D3hot is left, and the held ring fetches, completion writes and DMA bursts resume in order. -/
  | busMasterEnable (bme : Bool) (d3hot : Bool) (intxDis : Bool) (line : Nat) (bar0 : Nat) (bar2 : Nat)
  /-- BOOT_CHUNK (R100). A write to PWR_BOOT_CHUNK hands a downloaded image chunk to the ROM, which copies it onward, verifies the image after LAST and sets CHUNK_READY. -/
  | bootChunk (v : Nat)
  /-- BOOT_FLASH_TIMEOUT (R99). The flash does not answer within 10 ms, so the ROM records the failure and enters WAIT_IMAGE. -/
  | bootFlashTimeout
  /-- THM_SAMPLE (R110). All sixteen temperature sensors are sampled together on the 1 ms or 62.5 µs timer and compared with their neighbours and the thresholds. -/
  | thmSample (temps : List Int)
  /-- DOMAIN_SWITCH_DONE (R88). A power domain finishes switching on or off, and POWER_DOMAIN completes. -/
  | domainSwitchDone (d : Nat)
  /-- DOMAIN_RESET_RELEASE (R93). A domain held by RESET_DOMAIN is released after its power-on time with its registers at reset values, and the command completes. -/
  | domainResetRelease (d : Nat)
  /-- DIE_LEDGER_RETRY (R103). Firmware retries a refused internal operation at the next layer boundary. -/
  | dieLedgerRetry (fails : List (Nat × Bool × Nat))
  /-- REGISTER_WRITE (R14). A BAR0 write to a register without behaviour of its own sets its fields under their access codes and classes, discarding class S writes while the block runs. -/
  | registerWrite (off : Nat) (v : Nat) (full : Bool)
  /-- LIVE_FIELD_APPLY (R18). A written class L field takes effect at the first tick boundary after the write. -/
  | liveFieldApply
  /-- OFF_DOMAIN_ACCESS (R89). An access to a block whose domain is off returns 0xFFFF_FFFF or is discarded, and sets PWR_STS.OFF_ACCESS. -/
  | offDomainAccess (off : Nat) (write : Bool)
  /-- LATCHING_READ (R596). A read of the LO word of a latching LO/HI pair latches the HI word, and the FRAC word for fabric time. -/
  | latchingRead (off : Nat) (ecc : Nat)
  /-- APERTURE_WRITE (R47). A write through the SRAM aperture lands only in the host-visible general pool and is discarded elsewhere. -/
  | apertureWrite (off : Nat) (data : List Byte)
  /-- BAR2_ACCESS (R120). A BAR2 access reaches device DRAM through port P4, or returns all ones or is discarded outside populated READY DRAM. -/
  | bar2Access (addr : Nat) (write : Bool) (len : Nat) (data : List Byte) (ecc : Nat)
  /-- HIF_SQ_TAIL (R124). A doorbell write of a new submission ring tail is checked and makes the entries pending. -/
  | hifSqTail (n : Nat) (v : Nat)
  /-- HIF_CQ_HEAD (R126). A doorbell write of a completion ring head returns consumed slots to the device. -/
  | hifCqHead (n : Nat) (v : Nat)
  /-- RING_BASE_WRITE (R127). A write of a ring's BASE or SIZE_LOG2 resets its head and tail to 0 and its phase to 1. -/
  | ringBaseWrite (n : Nat) (reg : Nat) (v : Nat)
  /-- SQ_ENABLE (R132). A write of HIF_SQn_CFG.ENABLE starts or stops fetching on the ring. -/
  | sqEnable (n : Nat) (on : Bool)
  /-- COMMAND_FETCH (R130). The device fetches a pending command by weighted round robin once its completion ring has room. -/
  | commandFetch
  /-- STATUS_MIRROR_SNAPSHOT (R142). At the first tick boundary after each mirror period, a snapshot is written to host memory with the SEQ protocol, or skipped while requests are held. -/
  | statusMirrorSnapshot
  /-- COMMIT_TAKE_EFFECT (R19). At the tick boundary after capture, the checked values take effect together, or nothing does and REJECT sets. -/
  | commitTakeEffect
  /-- LOAD_PASS_END (R172). The quad decompressors finish the load pass, the layer becomes LOADED or returns to IDLE, and LAYER_LOAD completes. -/
  | loadPassEnd (badLane : Nat) (badIdx : Nat)
  /-- REFILL_CHUNK (R176). A quad decompressor writes a chunk of 64 records into the buffer of the emptiest lane that has room, checking each record. -/
  | refillChunk (q : Nat) (bad : Option Nat)
  /-- LAYER_START (R183). At the first tick boundary at or after START, exposure begins on every lane and the layer becomes EXPOSING. -/
  | layerStart
  /-- STOP_BATH_EFFECT (R190). At the first boundary after the request, each lane finishes, splits or stops its current work, and the layer enters STOP_BATH. -/
  | stopBathEffect
  /-- STOP_BATH_END (R191). At the boundary after the last lane parks or halts, the layer becomes PAUSED and STOP_BATH completes. -/
  | stopBathEnd
  /-- STOP_TIMEOUT (R191). A lane not parked within SEQ_STOP_CFG.TIMEOUT halts with the LANE fault STOP_TIMEOUT. -/
  | stopTimeout
  /-- RESUME_START (R193). At the RESUME start boundary, the lanes re-mark their kept remainders and the layer becomes EXPOSING. -/
  | resumeStart
  /-- ABORT_EFFECT (R195). At the boundary after acceptance, every lane closes GATE, all remainders, pools and claims are discarded, and the layer becomes ABORTED. -/
  | abortEffect
  /-- LAYER_DONE (R182). All of the layer's work is resolved and the layer becomes DONE. -/
  | layerDone
  /-- TICK_BOUNDARY (R34). A tick boundary falls on fabric time and starts the per-tick hardware work of every engine, loop and unit. -/
  | tickBoundary (pds : List PdWin) (encs : List (Nat × Int)) (late : Nat) (overrun : Nat) (rdy : Nat) (asks : List ClaimAsk)
  /-- UNDERRUN_REPEAT (R189). The underrun that exceeds UNDERRUN_LIMIT in one layer raises the LANE fault UNDERRUN_REPEAT. -/
  | underrunRepeat (lane_ : Nat)
  /-- REMARK_START (R193). An underrun lane whose buffer again holds 64 records or the rest of its stream re-marks from its split point. -/
  | remarkStart (lane_ : Nat)
  /-- LEDGER_GRANT (R254). At a tick boundary the ledger applies releases, updates its ceiling and grants waiting requests in age order while they fit. -/
  | ledgerGrant
  /-- ESTIMATE_SEND (R271). Every EST_PERIOD a device sends ESTIMATE tokens for its lanes that are candidates of other devices. -/
  | estimateSend (lanes : Nat)
  /-- ESTIMATE (R271). A received ESTIMATE token updates the owner's aged view of remote lanes. -/
  | estimateToken (via : Nat) (src : Nat) (flags : Nat) (entries : List Nat)
  /-- EST_STALE (R271). A remote lane's estimate older than 4 × EST_PERIOD makes it count as not open and sets EST_STALE. -/
  | estStale
  /-- CLAIM (R276). A received CLAIM joins the owner's arbitration at the next boundary. -/
  | claimToken (via : Nat) (src : Nat) (zone : Nat) (lane_ : Nat) (e : Nat) (q : Nat) (req : Nat)
  /-- GRANT (R276). A received GRANT gives the claimant a pool entry or segment, which it checks by CRC and starts no sooner than START_NOT_BEFORE. -/
  | grantToken (via : Nat) (src : Nat) (zone : Nat) (seg : Nat) (lane_ : Nat) (req : Nat) (notBefore : Nat) (lo : Nat) (hi : Nat) (split : Nat) (rec_ : Nat)
  /-- DENY (R273). A received DENY ends the claimant's outstanding CLAIM. -/
  | denyToken (via : Nat) (src : Nat) (zone : Nat) (lane_ : Nat) (req : Nat)
  /-- CLAIM_TIMEOUT (R276). No GRANT or DENY 20 µs after a CLAIM counts a timeout and allows a new claim. -/
  | claimTimeout (lane_ : Nat)
  /-- RETURN (R278). A received RETURN puts claimed work back into its pool as OPEN. -/
  | returnToken (via : Nat) (src : Nat) (seg : Nat) (lane_ : Nat) (vid : Nat) (resumeAt : Nat)
  /-- DONE (R277). A received DONE resolves the owner's pool entry. -/
  | doneToken (via : Nat) (src : Nat) (seg : Nat) (lane_ : Nat) (vid : Nat) (endTime : Nat)
  /-- POSITION (R291). A received POSITION frame replaces the peer's border-lane corridor positions. -/
  | positionToken (via : Nat) (src : Nat) (recs : List Int)
  /-- PEER_STALE (R291). No POSITION from a peer's border lane for 20 µs keeps its last corridor and sets PEER_STALE. -/
  | peerStale (peer : Nat)
  /-- WITHDRAWAL_END (R292). After every member has reported no holdover excess for 1 ms, withdrawal of cross-device features ends. -/
  | withdrawalEnd
  /-- SCANNER_LINK_TIMEOUT (R233). A link not UP within 10 ms completes SCANNER_LINK_SET with TIMEOUT while training goes on. -/
  | scannerLinkTimeout (lane_ : Nat)
  /-- JOG_TARGET_REACHED (R233). A jog reaches its target and its LANE_JOG completes with the reported position. -/
  | jogTargetReached (lane_ : Nat)
  /-- JUMP_RETARGET (R211). At the next boundary a jump is replanned to a new target, or the retarget is refused. -/
  | jumpRetarget (lane_ : Nat)
  /-- DRIFT_APPLY (R221). The staged drift terms take effect together at the next boundary, or at the next non-marking boundary. -/
  | driftApply (lane_ : Nat)
  /-- DRIFT_TIMEOUT (R233). No non-marking boundary within 1 s completes DRIFT_TERMS_SET with TIMEOUT and applies nothing. -/
  | driftTimeout (lane_ : Nat)
  /-- RETURN_FRAME (R227). A BSL3 or BSL2 return frame is checked, counts towards the link state and supplies the position and status. -/
  | returnFrame (lane_ : Nat) (line : Nat)
  /-- RETURN_FRAME_TIMEOUT (R227). No return frame within two outbound periods counts as a link error. -/
  | returnFrameTimeout (lane_ : Nat)
  /-- LINK_LOST (R227). ERR_LIMIT consecutive link errors make an UP link LOST, which is the LANE fault SCAN_LINK within a layer. -/
  | linkLost (lane_ : Nat)
  /-- SCAN_DEVIATION (R229). The count of frames outside the deviation window exceeds COUNT and raises the LANE fault SCAN_DEVIATION. -/
  | scanDeviation (lane_ : Nat)
  /-- INTERLOCK_N_FALL (R249). INTERLOCK_N falling forces every GATE and EMIT low within 100 ns and sets LATCHED. -/
  | interlockNFall
  /-- INTERLOCK_N_RISE (R250). INTERLOCK_N rises, which allows LATCHED to be cleared. -/
  | interlockNRise
  /-- SHUTTER_LATCH_CLEAR (R250). Writing 1 to LEDG_SHUTTER.LATCHED while INTERLOCK_N is high releases the shutter path. -/
  | shutterLatchClear
  /-- ALM_N_CHANGE (R247). A filtered change of ALM_N to low raises LASER_ALARM in a layer, or records an INFO event otherwise. -/
  | almNChange (lane_ : Nat) (low : Bool)
  /-- RDY_FALL (R247). RDY falling while EMIT is high raises the LANE fault LASER_NOT_READY. -/
  | rdyFall (lane_ : Nat)
  /-- CALIBRATION_RUN_START (R305). A pending calibration run starts at a qualifying boundary, and the input is disconnected and becomes STALE. -/
  | calibrationRunStart (lane_ : Nat)
  /-- CAL_DEADLINE (R305). A run pending for 50 ms starts at the deadline, counted as forced on a marking lane. -/
  | calDeadline (lane_ : Nat) (input : Nat)
  /-- CALIBRATION_RUN_END (R302). After 64 µs the run computes new offsets and ratio, which take effect at the next boundary. -/
  | calibrationRunEnd (lane_ : Nat) (pd0 : AfeSums) (pd1 : AfeSums)
  /-- FRAME_START (R324). A Frame Start begins a context's frame, applying a pending commit and clearing LATE. -/
  | frameStart (port : Nat) (vc : Nat) (csi : Nat) (corrected : Bool) (phy : Nat) (ns : Nat)
  /-- LONG_PACKET (R316). A CSI-2 long packet is checked, and its aperture pixels enter the context buffer or the frame is truncated. -/
  | longPacket (port : Nat) (vc : Nat) (dt : Nat) (hdr : Nat) (crcOk : Bool) (data : List Nat) (phy : Nat)
  /-- FRAME_END (R323). A Frame End closes the context's frame for its statistics record. -/
  | frameEnd (port : Nat) (vc : Nat) (corrected : Bool) (phy : Nat) (ns : Nat)
  /-- PIPELINE_LINE (R317). An image pipeline takes one buffered aperture line from a context by deficit round robin. -/
  | pipelineLine (p : Nat)
  /-- FRAME_TIMEOUT (R322). The frame-start watchdog expires, sends LATE to the routes and re-arms. -/
  | frameTimeout (c : Nat)
  /-- STATS_RECORD_READY (R323). A frame's statistics record is written to the context's SRAM slots. -/
  | statsRecordReady (c : Nat)
  /-- STATS_DELIVERY (R328). At the first boundary after it is ready, a routed record is delivered to L1, the burn accumulator and recording. -/
  | statsDelivery (c : Nat)
  /-- SENSOR_WRITES (R325). A commit's sensor writes are sent on the camera bus in the blanking after a Frame End. -/
  | sensorWrites (c : Nat) (acked : Nat)
  /-- CONTEXT_WRITE_TIMEOUT (R329). Sensor writes not sent within 100 ms complete the commit with TIMEOUT. -/
  | contextWriteTimeout (c : Nat)
  /-- LOOP_COEF_APPLY (R349). At each consecutive boundary, the next coefficient in the chosen order is applied. -/
  | loopCoefApply
  /-- LOOP_HOLD_LONG (R352). A loop in HOLD for more than HOLD_LIMIT within one window records an INFO event. -/
  | loopHoldLong (lane_ : Nat) (lp : Nat)
  /-- BURN_FILL (R362). The window is filled with unit factors and zero sums, and VALID sets at its end. -/
  | burnFill
  /-- BURN_UPDATE (R370). After a layer is DONE, each window cell's factor is updated from its gathered statistics, with the border cells exchanged. -/
  | burnUpdate
  /-- BURN_BORDER_TIMEOUT (R373). A holder's border data missing 50 ms after the layer ended leaves those border cells unchanged. -/
  | burnBorderTimeout (peer : Nat)
  /-- GROUP_START_BOUNDARY (R386). At the group start boundary all axes of the mask start together, or none does. -/
  | groupStartBoundary
  /-- AXIS_TARGET_REACHED (R383). A moving axis reaches its target and becomes IDLE, and its AXIS_MOVE completes. -/
  | axisTargetReached (k : Nat)
  /-- AXIS_AT_REST (R396). A stopping axis comes to rest, keeps its remainder and sets RESUMABLE. -/
  | axisAtRest (k : Nat)
  /-- HOMING_COMPLETE (R401). Homing comes to rest after the capture, and the position is assigned and HOMED sets. -/
  | homingComplete (k : Nat)
  /-- HOME_FAIL (R401). A homing step that travels its limit without success raises the axis fault HOME_FAIL. -/
  | homeFail (k : Nat)
  /-- SWITCH_TRANSITION (R399). A raw transition of a limit or home input is timed and recorded with the position and encoder count. -/
  | switchTransition (k : Nat) (inp : Nat) (level : Bool) (ns : Nat) (raw : Int)
  /-- SWITCH_DEBOUNCE (R399). A switch input held for DEBOUNCE changes its filtered state. -/
  | switchDebounce (k : Nat) (inp : Nat)
  /-- SWITCH_CHATTER (R400). More than CHATTER_MAX transitions within the window raise the axis fault SWITCH_CHATTER. -/
  | switchChatter (k : Nat) (inp : Nat)
  /-- STALL (R394). An axis deviation above WIN for more than TIME stops the axis with the fault STALL. -/
  | stall (k : Nat)
  /-- ENC_ERR (R395). An illegal quadrature transition or a bad SSI frame counts an encoder error and, with DEV_EN, raises the fault ENC_ERR. -/
  | encErr (k : Nat)
  /-- SSI_FRAME (R392). Every PERIOD the device reads an SSI absolute encoder frame. -/
  | ssiFrame (k : Nat) (frame : Nat) (ns : Nat)
  /-- PORT_SET_TIMEOUT (R447). A port not UP, ISOLATED or LOOPBACK within 10 ms completes FABRIC_PORT_SET with TIMEOUT. -/
  | portSetTimeout (p : Nat)
  /-- BLOCK_LOCK_LOSS (R424). The active SerDes lane loses block lock, and the port moves to its spare or goes DOWN. -/
  | blockLockLoss (p : Nat) (spare : Bool)
  /-- LANE_FAILED (R423). More than ERR_LIMIT error events within ERR_WINDOW mark a SerDes lane FAILED and trigger a swap. -/
  | laneFailed (p : Nat) (lane : Nat) (errs : Nat) (spare : Bool)
  /-- SWAP (R424). A received SWAP is answered with SWAP_ACK and both ends move to the spare lane. -/
  | swapRx (p : Nat)
  /-- SWAP_ACK (R424). A received SWAP_ACK moves the initiating side to the spare lane. -/
  | swapAckRx (p : Nat)
  /-- HELLO_SEND (R427). Every HELLO period a HELLO is sent on each training, UP or ISOLATED port. -/
  | helloSend (p : Nat)
  /-- HELLO (R427). A received HELLO brings a training port UP, isolates it, detects loopback, or re-examines a blocked join. -/
  | helloRx (p : Nat) (addr : Nat) (info : DevInfo) (rootSerial : Nat) (rootHops : Nat) (size : Nat) (dir : List (Nat × DevInfo))
  /-- HELLO_MISS (R414). HELLO_MISS periods without a HELLO take the link DOWN. -/
  | helloMiss (p : Nat)
  /-- PORT_RETRAIN (R414). A DOWN port retrains every 10 ms. -/
  | portRetrain (p : Nat)
  /-- ACK (R419). A received ACK frame, or the ACK field of any frame, releases acknowledged frames and returns credits. -/
  | ackFrame (p : Nat) (ack : Nat) (cls : Nat) (credits : Nat)
  /-- STANDALONE_ACK (R419). With no frame sent within 1 µs of an acceptance, a standalone ACK frame is sent. -/
  | standaloneAck (p : Nat)
  /-- NAK (R420). A received NAK makes the sender go back and retransmit every unacknowledged frame. -/
  | nakFrame (p : Nat) (expected : Nat)
  /-- RETRY_TIMEOUT (R420). The oldest frame unacknowledged for RETRY_TO triggers a go-back retransmission. -/
  | retryTimeout (p : Nat)
  /-- LINK_DOWN (R420). RETRY_MAX consecutive go-back events without progress take the link DOWN and withdraw its routes. -/
  | linkDown (p : Nat)
  /-- FRAME_DISCARDED (R416). A frame failing FCS or HCRC, misaddressed, of undefined type or out of hops is discarded and counted. -/
  | frameDiscarded (p : Nat) (reason : Nat) (cls : Nat) (src : Nat)
  /-- FRAME_FORWARD (R422). A frame for another device is forwarded to its next hop, cut-through for HANDOFF. -/
  | frameForward (p : Nat) (cls : Nat) (ty : Nat) (dst : Nat) (src : Nat) (hops : Nat) (e2e : Option Nat) (body : List Nat)
  /-- ADDR_REQ (R427). A received ADDR_REQ is passed towards the root, which assigns an address. -/
  | addrReq (p : Nat) (serial : Nat) (addr : Nat)
  /-- ADDR_ASSIGN (R428). A received ADDR_ASSIGN gives a device its fabric address. -/
  | addrAssign (p : Nat) (serial : Nat) (addr : Nat)
  /-- ROUTE_UPDATE (R430). Every UPDATE period a device sends ROUTE with its metric to every address. -/
  | routeUpdate
  /-- ROUTE (R430). A received ROUTE updates the route entries, moving to alternates where needed. -/
  | routeUpdateRx (p : Nat) (metrics : List Nat)
  /-- ROUTE_HOLD_EXPIRY (R432). An address still unreachable 200 µs after a link event is lost, its held frames are discarded and PEER_LOST is raised. -/
  | routeHoldExpiry (a : Nat)
  /-- E2E_ACK (R434). A received E2E_ACK releases the end-to-end frames it passes. -/
  | e2eAck (via : Nat) (src : Nat) (cls : Nat) (next : Nat)
  /-- E2E_RESEND (R434). The oldest end-to-end frame unacknowledged for E2E_RESEND is resent with every later one. -/
  | e2eResend (dst : Nat) (cls : Nat)
  /-- NOTICE (R436). A received NOTICE carries a layer start report, stop bath or abort request, PEER_LOST cause, withdrawal or burn freeze. -/
  | noticeRx (via : Nat) (src : Nat) (kind : Nat) (layer : Nat) (time : Nat) (arg : Nat)
  /-- CMD_FWD (R437). A received forwarded command runs locally as master 0x80 plus the issuer's address. -/
  | cmdFwd (via : Nat) (src : Nat) (ring : Nat) (packet : List Byte) (block : List Byte)
  /-- CMD_DONE (R437). A received CMD_DONE writes the remote completion to the issuing ring with REMOTE_ORIGIN. -/
  | cmdDone (via : Nat) (src : Nat) (ring : Nat) (tag : Nat) (op : Nat) (status : Nat) (r0 : Nat) (r1 : Nat) (r2 : Nat) (ex : Nat) (time : Nat)
  /-- CMD_FWD_TIMEOUT (R437). No E2E_ACK for a CMD_FWD within 1 ms completes the command with FABRIC_UNREACHABLE. -/
  | cmdFwdTimeout (dst : Nat) (ring : Nat) (tag : Nat)
  /-- REG_READ (R438). A received REG_READ is performed and answered with REG_DATA. -/
  | regRead (via : Nat) (src : Nat) (off : Nat) (count : Nat)
  /-- REG_WRITE (R438). A received REG_WRITE is performed and answered with REG_ACK. -/
  | regWrite (via : Nat) (src : Nat) (off : Nat) (vals : List Nat)
  /-- REG_DATA (R438). A received REG_DATA completes a remote register read. -/
  | regData (via : Nat) (src : Nat) (vals : List Nat)
  /-- REG_ACK (R438). A received REG_ACK completes a remote register write. -/
  | regAck (via : Nat) (src : Nat)
  /-- REG_TIMEOUT (R438). No answer to a remote register transaction within 100 µs completes it with TIMEOUT. -/
  | regTimeout (dst : Nat)
  /-- MBX_POST (R521). A received MBX_POST stores the message in a correctly bound channel and sets GO, or sets VIOLATION. -/
  | mbxPost (via : Nat) (src : Nat) (n : Nat) (msg : List Nat)
  /-- MBX_GO_CLEAR (R522). A received acknowledgement or withdrawal clears GO of the named channel. -/
  | mbxGoClear (via : Nat) (src : Nat) (n : Nat) (kind : Nat)
  /-- BURN_BORDER (R440). A received BURN_BORDER adds a peer's border cell statistics and states for the update. -/
  | burnBorder (via : Nat) (src : Nat) (layer : Nat) (last : Bool) (cells : List BorderCell)
  /-- BULK_REC (R441). A received BULK_REC frame is written into the collector slice of its source. -/
  | bulkRec (via : Nat) (src : Nat) (offset : Nat) (data : List Byte)
  /-- TRIGGER_EDGE (R466). A scheduled trigger pulse starts or ends at its fabric time. -/
  | triggerEdge (t : Nat) (rise : Bool)
  /-- SYNC_SEND (R460). Every Sync interval a one-step Sync is sent on each master port. -/
  | syncSend (p : Nat)
  /-- SYNC (R462). A Sync accepted on the slave port computes the offset and steps or slews the fabric time counter. -/
  | syncMsg (p : Nat) (domain : Nat) (twoStep : Bool) (origin : Nat) (corr : Int) (upE : Nat) (rx : Nat)
  /-- LOCKED (R461). LOCK_COUNT consecutive Syncs below LOCK_THRESH make the servo LOCKED. -/
  | ftmLocked
  /-- ANNOUNCE_SEND (R456). Every Announce interval, or at a grandmaster change, an Announce is sent on master ports. -/
  | announceSend (p : Nat)
  /-- ANNOUNCE (R459). A received Announce takes part in grandmaster selection and the choice of slave port. -/
  | announceRx (p : Nat) (domain : Nat) (prio : Nat) (serial : Nat) (steps : Nat)
  /-- ANNOUNCE_TIMEOUT (R461). The slave port's Announce times out, and the device enters HOLDOVER. -/
  | announceTimeout
  /-- SYNC_LOSS (R461). No Sync on the slave port for 4 intervals freezes INCR and enters HOLDOVER. -/
  | syncLoss
  /-- HOLD_DOWN_EXPIRY (R461). The hold-down of a lost grandmaster ends and selection runs again. -/
  | holdDownExpiry (serial : Nat)
  /-- PDELAY_SEND (R458). Every Pdelay interval an UP port sends Pdelay_Req. -/
  | pdelaySend (p : Nat)
  /-- PDELAY_REQ (R456). A received Pdelay_Req is answered with a one-step Pdelay_Resp. -/
  | pdelayReq (p : Nat) (domain : Nat) (turn : Nat)
  /-- PDELAY_RESP (R458). A received Pdelay_Resp gives a path delay sample for the mean path delay. -/
  | pdelayResp (p : Nat) (domain : Nat) (t4 : Nat) (turn : Int)
  /-- PDELAY_TIMEOUT (R458). A response not received within 1 ms makes the exchange invalid. -/
  | pdelayTimeout (p : Nat)
  /-- HOLDOVER_EXCESS (R463). The error estimate exceeds HOLDOVER_LIMIT, which sets EXCESS and withdraws cross-device features. -/
  | holdoverExcess
  /-- TRAINING_END (R473). Training passes into the shadow or fails, and DDR_TRAIN completes. -/
  | trainingEnd (c : Nat) (result : Nat) (us : Nat) (step : Nat) (lanes : Nat)
  /-- DRAM_REQUEST (R479). A channel issues a request chosen by age, class and row hits, and corrects or reports ECC errors. -/
  | dramRequest (c : Nat) (asks : List DramAsk) (blocked : List Nat) (ecc : Nat)
  /-- THROTTLE_EXPIRY (R482). A row throttle ends after 1 ms. -/
  | throttleExpiry (c : Nat)
  /-- DISTURB_WINDOW (R481). A new 32 ms row-disturbance window starts and the activation counts clear. -/
  | disturbWindow (c : Nat)
  /-- REFRESH (R480). A refresh is issued at the average interval, postponed within limits for class 0. -/
  | refresh (c : Nat) (bank : Nat)
  /-- DRAM_TEMP_READ (R480). Every 16 ms each rank's temperature is read and the refresh rate doubled or restored. -/
  | dramTempRead (c : Nat) (hot : Nat)
  /-- ZQ_CALIBRATION (R474). Every 128 ms periodic ZQ calibration runs in READY. -/
  | zqCalibration (c : Nat)
  /-- PATROL_SCRUB (R484). Patrol scrub reads and corrects DRAM bursts at the lowest class. -/
  | patrolScrub (c : Nat) (ecc : Nat)
  /-- SRAM_SCRUB (R490). Scrub reads SRAM words in idle cycles, corrects them and counts errors per macro. -/
  | sramScrub (a : Nat) (ecc : Nat) (word : List Byte) (who : Requester)
  /-- SRAM_REPAIR (R490). At a quiet layer boundary, firmware repairs a macro whose correctable count reached SRAM_THRESH. -/
  | sramRepair (m : Nat) (fails : List (Nat × Bool × Nat))
  /-- DESCRIPTOR_FETCH (R495). A channel fetches and checks its next descriptor. -/
  | descriptorFetch (c : Nat)
  /-- DMA_BURST (R497). The engine issues one burst from the highest ready channel, ending its chain after the last burst. -/
  | dmaBurst (landed : List Nat)
  /-- BUS_ERR (R499). A failed engine read stops every active channel with ending 2 and sets BUS_ERR. -/
  | busErr (kind : Nat) (space : Nat) (addr : Nat) (landed : List Nat)
  /-- CODEC_JOB_END (R508). A general codec job ends, finished, failed, or suspended with OUTPUT_FULL. -/
  | codecJobEnd (g : Nat) (cause : Nat) (used : Nat)
  /-- RECORDING_FLUSH (R511). Every FLUSH_US codec 1 flushes the DEFLATE recording stream and advances CMP_REC_WRITE. -/
  | recordingFlush
  /-- CMP_REC_READ_HI (R513). A write of CMP_REC_READ_HI sets the recording read offset. -/
  | cmpRecReadHi (hi : Nat)
  /-- MBX_MSG_WRITE (R523). A write of a message register by the sender while GO is clear stores the data. -/
  | mbxMsgWrite (id : Nat) (n : Nat) (r : Nat) (v : Nat)
  /-- MBX_GO_WRITE (R523). The sender's GO write posts the message, starts the timer, and forwards it as MBX_POST for a forwarding channel. -/
  | mbxGoWrite (id : Nat) (n : Nat) (v : Nat)
  /-- MBX_LAST_READ (R524). The receiver's read of the last message register clears GO as the acknowledgement. -/
  | mbxLastRead (id : Nat) (n : Nat) (r : Nat)
  /-- MBX_TIMEOUT (R525). GO still set after TIMEOUT sets the TIMEOUT flag and records an event. -/
  | mbxTimeout (n : Nat)
  /-- BULK_OUT (R532). A USB bulk OUT transfer enters command packets into ring 15, or the boot image stream in WAIT_IMAGE. -/
  | bulkOut (data : List Byte)
  /-- POOL_READ (R534). A POOL_READ vendor request reads the general pool over USB. -/
  | poolRead (off : Nat) (len : Nat)
  /-- POOL_WRITE (R534). A POOL_WRITE vendor request writes the general pool over USB. -/
  | poolWrite (off : Nat) (data : List Byte)
  /-- USB_BUS_RESET (R526). A USB bus reset or removal of VBUS counts as a reset of master 0x01. -/
  | usbBusReset (removed : Bool) (speed : Nat)
  /-- PANEL_SAMPLE (R536). Every 1 ms keys, touch pads and plug inputs are sampled, debounced and turned into numbered events. -/
  | panelSample (keys : Nat) (plugs : Nat) (counts : List Nat)
  /-- PATTERN_TICK (R542). Every 1 ms each pattern engine advances its output level. -/
  | patternTick
  /-- COLOUR_READING (R545). Every 20 ms the light sensor is read and the colour scales adjusted. -/
  | colourReading (ok : Bool) (m : List Nat)
  /-- LED_ON_TIME (R540). A channel's PWM on-time starts with the latest duty, current and source, and is checked for open and short. -/
  | ledOnTime (c : Nat) (mv : Nat)
  /-- NEIGHBOUR_ROUND (R547). Every DIAG_S seconds each adjacent pair of LED sinks is tested for a short between them. -/
  | neighbourRound (shorts : Nat)
  /-- FAULT_CONDITION_GONE (R555). A fault's condition goes and its entry passes from ACTIVE to GONE. -/
  | faultConditionGone (code : Nat) (source : Nat)
  /-- RECOVERY_TIMER (R552). A fault recovery timer expires unmet and raises the fault of the next class. -/
  | recoveryTimer (cls : Nat) (source : Nat)
  /-- CONDUCTOR_WATCHDOG (R558). A conductor's watchdog expires, and that conductor alone is reset and restarted. -/
  | conductorWatchdog (c : Nat) (cmds : List (Nat × Nat))
  /-- EVENT_DRAIN (R566). The intake FIFO drains one event record into the main ring and the black box. -/
  | eventDrain
  /-- EVR_WINDOW_READ (R567). A read of the last word of window record 63 with AUTO_INC advances the cursor by 64. -/
  | evrWindowRead (w : Nat)
  /-- ENGINE_REMAP (R574). With AUTO set, at the first quiet layer state each lane on a FAILED engine moves to a free spare. -/
  | engineRemap
  /-- PERST_N_RELEASE (R95). PERST_N deasserts, and the PCIe link core trains and begins answering configuration requests from ROM. -/
  | perstNRelease
  /-- FAILED_ENTRY_FETCH (R129). A read of a submission ring entry fails with a completion error, a poisoned completion or a completion timeout, and the ring stops fetching with FETCH_ERR set. -/
  | failedEntryFetch (n : Nat)
  /-- LANE0_LOCK_TIMEOUT (R413). At port start-up, lane 0 has not reached block lock within 5 ms, so lane 1 is made the active lane. -/
  | lane0LockTimeout (p : Nat)
  /-- ENCZ_INDEX (R401). During homing with INDEX, the next raw rising edge of ENCZ replaces the capture and homing goes on to decelerate. -/
  | enczIndex (k : Nat) (ns : Nat) (raw : Int)
  /-- AXIS_RESUME_START (R397). At the first boundary at or after the TIME of an AXIS_RESUME with AT_TIME, the named axes restart their kept remainders together. -/
  | axisResumeStart
  deriving DecidableEq, Repr

end Sys2Proof
end

