-- ==== Sys2Proof/Config.lean ====
section
/-!
DEFINITION. The free values: constants without a body, so that nothing in Lean can evaluate one or prove a value of it.
A meaning applies one to the model's counter of free values taken (`State.freeCtr`) or to the operands it depends on.
Each stands for a value that the spec leaves open (assumption 1 and the entries that name them).
-/

namespace Sys2Proof.Config

/-- A word the spec does not state. -/
opaque freeWord : Nat → Word

/-- A number the spec does not state. -/
opaque freeNat : Nat → Nat

/-- A signed number the spec does not state. -/
opaque freeInt : Nat → Int

/-- A choice the spec does not state. -/
opaque freeBit : Nat → Bool

/-- A byte the spec does not state. -/
opaque freeByte : Nat → Byte

/-- The raw DEFLATE bits of one segment of a compressed stream, as bytes: LEVEL, the input from the start of the stream to
the end of the segment, the offsets of the flushes before it, and whether the stream ends with it (R504: the output is a
function of these, and the encoder's choices are not stated). -/
opaque deflated : Nat → List Byte → List Nat → Bool → List Byte

end Sys2Proof.Config
end

