-- ==== Sys2Proof/Machine/Bits.lean ====
section
/-!
DEFINITION. Bit fields, sign extension, rounding, little-endian bytes and the keyed lists the state is built from.
Fields are written `hi lo` with bit 0 least significant (R12); multi-byte values are little-endian (R12).
-/

namespace Sys2Proof.Machine

/-! ### Bit fields -/

/-- Bits `hi..lo` of a number. -/
def natBits (n hi lo : Nat) : Nat := (n >>> lo) % 2 ^ (hi - lo + 1)

/-- Bits `hi..lo` of a register word. -/
def bitsOf (w : Word) (hi lo : Nat) : Nat := natBits w.toNat hi lo

/-- `w` with bits `hi..lo` replaced by the low bits of `v`. -/
def setBits (w : Word) (hi lo v : Nat) : Word :=
  let m : Word := BitVec.ofNat 32 ((2 ^ (hi - lo + 1) - 1) <<< lo)
  (w &&& ~~~m) ||| (BitVec.ofNat 32 (v <<< lo) &&& m)

/-- Bit `i` of a number. -/
def natBit (n i : Nat) : Bool := n.testBit i

/-- The number `n` with bit `i` set. -/
def natSet (n i : Nat) : Nat := n ||| (1 <<< i)

/-- The number `n` with bit `i` clear. -/
def natClr (n i : Nat) : Nat := if n.testBit i then n - (1 <<< i) else n

/-- The indices below `k` whose bit of `n` is set, lowest first. -/
def bitList (n k : Nat) : List Nat := (List.range k).filter (fun i => n.testBit i)

/-- 1 for `true`, 0 for `false`. -/
def b2n (b : Bool) : Nat := if b then 1 else 0

/-! ### Signed numbers and rounding -/

/-- The `w`-bit two's complement value of `n`. -/
def sgn (w n : Nat) : Int :=
  let m := n % 2 ^ w
  if m < 2 ^ (w - 1) then (m : Int) else (m : Int) - (2 : Int) ^ w

/-- The `w`-bit two's complement encoding of `i`, wrapped. -/
def unsgn (w : Nat) (i : Int) : Nat := (i % (2 : Int) ^ w).toNat

/-- `i` limited to the range `lo` to `hi`. -/
def clampI (lo hi i : Int) : Int := if i < lo then lo else if hi < i then hi else i

/-- `n` limited to at most `hi`. -/
def satN (hi n : Nat) : Nat := if n < hi then n else hi

/-- `i` saturated to a signed `w`-bit value. -/
def satI (w : Nat) (i : Int) : Int := clampI (-(2 : Int) ^ (w - 1)) ((2 : Int) ^ (w - 1) - 1) i

/-- `a / b` to the nearest integer, halves away from zero (the `round` of R8); `b` above 0. -/
def rdiv (a : Int) (b : Nat) : Int :=
  if 0 ≤ a then (2 * a + b) / (2 * b) else -((-2 * a + b) / (2 * b))

/-- `a / b` rounded down (towards minus infinity). -/
def fdiv (a : Int) (b : Nat) : Int := a / (b : Int)

/-- `a / b` rounded towards zero. -/
def tdiv (a : Int) (b : Nat) : Int := Int.tdiv a b

/-- `a / b` rounded up, for natural numbers. -/
def cdiv (a b : Nat) : Nat := (a + b - 1) / b

/-- The integer square root, rounded down, by `fuel` Newton steps from above. -/
def isqrtFrom (n : Nat) : Nat → Nat → Nat
  | 0, x => x
  | fuel + 1, x =>
    let y := (x + n / x) / 2
    if y < x then isqrtFrom n fuel y else x

/-- The integer square root, rounded down. -/
def isqrt (n : Nat) : Nat :=
  if n = 0 then 0 else isqrtFrom n (n.log2 + 8) (2 ^ (n.log2 / 2 + 1))

/-! ### Little-endian bytes -/

/-- The `k` bytes of `n`, lowest first. -/
def leBytes : Nat → Nat → List Byte
  | 0, _ => []
  | k + 1, n => BitVec.ofNat 8 n :: leBytes k (n / 256)

/-- The number whose bytes, lowest first, are `bs`. -/
def leNat : List Byte → Nat
  | [] => 0
  | b :: bs => b.toNat + 256 * leNat bs

/-- The `k` bytes of `bs` from `off`, as a number; bytes beyond the end count as 0. -/
def leAt (bs : List Byte) (off k : Nat) : Nat := leNat ((bs.drop off).take k)

/-- `k` zero bytes. -/
def zeros (k : Nat) : List Byte := List.replicate k 0

/-! ### Keyed lists: sparse arrays in which an unlisted index holds a default -/

/-- The entry of `m` at `k`, `d` where none is listed. -/
def mget {α : Type} (d : α) : List (Nat × α) → Nat → α
  | [], _ => d
  | (i, v) :: m, k => if i = k then v else mget d m k

/-- `m` with `v` at `k`; the list stays in rising order of its keys. -/
def mset {α : Type} : List (Nat × α) → Nat → α → List (Nat × α)
  | [], k, v => [(k, v)]
  | (i, w) :: m, k, v =>
    if k < i then (k, v) :: (i, w) :: m
    else if k = i then (k, v) :: m
    else (i, w) :: mset m k v

/-- `m` without an entry at `k`. -/
def mdel {α : Type} : List (Nat × α) → Nat → List (Nat × α)
  | [], _ => []
  | (i, w) :: m, k => if i = k then m else (i, w) :: mdel m k

/-- `m` with `f` applied to the entry at `k`. -/
def mupd {α : Type} (d : α) (m : List (Nat × α)) (k : Nat) (f : α → α) : List (Nat × α) :=
  mset m k (f (mget d m k))

/-- The first element of a list that satisfies `p`, and the list without it. -/
def takeFirst {α : Type} (p : α → Bool) : List α → Option (α × List α)
  | [] => none
  | x :: xs =>
    if p x then some (x, xs)
    else
      match takeFirst p xs with
      | none => none
      | some (y, ys) => some (y, x :: ys)

/-- Sum of a list of numbers. -/
def sumN : List Nat → Nat
  | [] => 0
  | x :: xs => x + sumN xs

/-- Insertion into a list kept in rising order of a key. -/
def insertBy {α : Type} (key : α → Nat) (x : α) : List α → List α
  | [] => [x]
  | y :: ys => if key x ≤ key y then x :: y :: ys else y :: insertBy key x ys

/-- The list in rising order of a key; equal keys keep their order. -/
def sortBy {α : Type} (key : α → Nat) : List α → List α
  | [] => []
  | x :: xs => insertBy key x (sortBy key xs)

end Sys2Proof.Machine
end

