-- ==== Sys2Proof/Machine/Crc.lean ====
section
/-!
DEFINITION. The check codes of the spec, computed bit by bit: CRC-32C (R155), CRC-32 and Adler-32 of the gzip and zlib
framings (R170), CRC-16/CCITT-FALSE (R363, R561), CRC-12 and CRC-8 of the beam-steering links (R223).
-/

namespace Sys2Proof.Machine

/-- `k` steps of a reflected CRC of polynomial `p` on register `c`. -/
def crcReflStep (p : Nat) : Nat → Nat → Nat
  | 0, c => c
  | k + 1, c => crcReflStep p k (if c % 2 = 1 then (c / 2) ^^^ p else c / 2)

/-- A reflected CRC of polynomial `p` over bytes, from register `c`. -/
def crcRefl (p : Nat) : List Byte → Nat → Nat
  | [], c => c
  | b :: bs, c => crcRefl p bs (crcReflStep p 8 (c ^^^ b.toNat))

/-- CRC-32C (Castagnoli) of R155. DEDUCED: the rule prints the reflected polynomial as 0x82F6_3B41, but names
Castagnoli and gives the check value 0xE306_9283, which only 0x82F6_3B78 yields (assumption 2). -/
def crc32c (bs : List Byte) : Nat := crcRefl 0x82F63B78 bs 0xFFFFFFFF ^^^ 0xFFFFFFFF

/-- The CRC-32 of gzip (RFC 1952), named by R170. -/
def crc32 (bs : List Byte) : Nat := crcRefl 0xEDB88320 bs 0xFFFFFFFF ^^^ 0xFFFFFFFF

/-- Sums of Adler-32 over bytes from the pair `(a, b)`. -/
def adlerSums : List Byte → Nat → Nat → Nat
  | [], a, b => b * 65536 + a
  | x :: xs, a, b =>
    let a' := (a + x.toNat) % 65521
    adlerSums xs a' ((b + a') % 65521)

/-- The Adler-32 of zlib (RFC 1950), named by R170. -/
def adler32 (bs : List Byte) : Nat := adlerSums bs 1 0

/-- One bit into an unreflected CRC register of width `w` and polynomial `p`. -/
def crcBit (w p : Nat) (c : Nat) (b : Bool) : Nat :=
  let top := c.testBit (w - 1)
  let c' := (c * 2) % 2 ^ w
  if top != b then c' ^^^ p else c'

/-- An unreflected CRC over bits in transmission order. -/
def crcBits (w p : Nat) : List Bool → Nat → Nat
  | [], c => c
  | b :: bs, c => crcBits w p bs (crcBit w p c b)

/-- The `k` low bits of `n`, most significant first. -/
def msbBits : Nat → Nat → List Bool
  | 0, _ => []
  | k + 1, n => n.testBit k :: msbBits k n

/-- CRC-16/CCITT-FALSE over bytes (R363, R561): polynomial 0x1021, initial value 0xFFFF, not reflected, no final XOR. -/
def crc16 (bs : List Byte) : Nat := crcBits 16 0x1021 (bs.flatMap (fun b => msbBits 8 b.toNat)) 0xFFFF

/-- CRC-12 of a BSL3 frame (R223). -/
def crc12 (bits : List Bool) : Nat := crcBits 12 0x80F bits 0xFFF

/-- CRC-8 of a BSL2 frame (R223) and of a serial power frame (R240). -/
def crc8 (bits : List Bool) : Nat := crcBits 8 0x07 bits 0xFF

end Sys2Proof.Machine
end

