-- ==== Sys2Proof/Machine/Packets.lean ====
section
/-!
DEFINITION. The parameters of every host command: which bytes of its packet or parameter block hold which operand (R133,
R135, and the tables of parameters R146, R147, R149, R150, R164, R167, R180, R200, R232, R260, R294, R309, R329, R353, R376,
R406, R446, R468, R475, R514, R528, R549, R560, R572, R575 and R578).
-/

namespace Sys2Proof.Machine

/-- A parameter: the offset of its first byte, how many bytes the layout gives it, and the bytes its operand has. Offsets are those
of the packet; byte `i` of a parameter block is at offset `16 + i`, since the block takes the place of bytes 16 onward (R135). -/
abbrev Par := Nat × Nat × List Byte

/-- `k` bytes at `off` that hold the number `v`; a number too large has one byte more than the field. -/
def num (off k v : Nat) : Par := (off, k, leBytes k v ++ (if v < 256 ^ k then [] else [0]))

/-- `k` bytes at `off` that hold the signed number `i`. -/
def int (off k : Nat) (i : Int) : Par :=
  num off k (if -(128 * 256 ^ (k - 1) : Int) ≤ i ∧ i < 128 * 256 ^ (k - 1) then unsgn (8 * k) i else 256 ^ k)

/-- Bytes at `off`, each operand one byte. -/
def raw (off k : Nat) (bs : List Nat) : Par := (off, k, bs.map (BitVec.ofNat 8) ++ (if bs.all (· < 256) then [] else [0]))

/-- Words of `w` bytes at `off`. -/
def words (off k w : Nat) (ns : List Nat) : Par :=
  (off, k, ns.flatMap (leBytes w) ++ (if ns.all (· < 256 ^ w) then [] else [0]))

/-- Signed words of `w` bytes at `off`. -/
def ints (off k w : Nat) (is : List Int) : Par :=
  words off k w (is.map (fun i => if -(128 * 256 ^ (w - 1) : Int) ≤ i ∧ i < 128 * 256 ^ (w - 1) then unsgn (8 * w) i else 256 ^ w))

/-- An operand that the layout in use gives no byte: it is 0. -/
def unused (v : Nat) : Par := (0, 0, if v = 0 then [] else [0])

/-- The parameters of a host command, in the order of its table. A row that no packet spells has none. -/
def paramsOf : Instr → List Par
  -- R146, R147
  | .resetDomain _ d => [num 16 1 d]
  | .commit _ mask flags => [num 16 2 mask, num 18 1 flags]
  | .readStatus _ addr => [num 16 8 addr]
  | .setStatusMirror _ addr period => [num 16 8 addr, num 24 4 period]
  | .powerDomain _ d st flags => [num 16 1 d, num 17 1 st, num 18 1 flags]
  -- R149, R150, R164, R167
  | .jobOpen _ id hb hl db dl => [num 16 4 id, num 24 8 hb, num 32 8 hl, num 40 8 db, num 48 8 dl]
  | .jobClose _ id => [num 16 4 id]
  | .recipeLoad _ first cnt source addr block =>
    [num 16 2 first, num 18 2 cnt, num 20 1 source, num 24 8 addr, raw 64 (if source = 0 then 64 * cnt else 0) block]
  | .lanesetLoad _ first cnt source addr inl block =>
    [num 16 1 first, num 17 1 cnt, num 18 1 source, num 24 8 addr, raw 32 32 inl, raw 64 (if source = 0 then 8 * cnt else 0) block]
  -- R180, R200
  | .layerLoad _ addr layer => [num 16 8 addr, num 24 4 layer]
  | .layerArm _ layer _ => [num 16 4 layer]
  | .layerExpose _ layer start => [num 16 4 layer, num 24 8 start]
  | .stopBath _ scope => [num 16 1 scope]
  | .resume _ layer start => [num 16 4 layer, num 24 8 start]
  | .layerAbort _ scope => [num 16 1 scope]
  | .contactSheetRead _ layer addr => [num 16 4 layer, num 24 8 addr]
  -- R294
  | .overlapSet _ op margin horizon lookahead estP markOvh jumpOvh zone en lx ly nx ny first cnt map =>
    let zero0 := [unused margin, unused horizon, unused lookahead, unused estP, unused markOvh, unused jumpOvh]
    let zero1 := [unused zone, unused en, unused lx.natAbs, unused ly.natAbs, unused nx.natAbs, unused ny.natAbs]
    let zero2 := [unused first, unused cnt, unused (sumN map)]
    num 16 1 op ::
    (if op = 0 then
      [num 20 2 margin, num 22 2 horizon, num 24 2 lookahead, num 26 1 estP, num 28 4 markOvh, num 32 4 jumpOvh] ++ zero1 ++ zero2
     else if op = 1 then
      [num 17 1 zone, num 18 1 en, int 20 4 lx, int 24 4 ly, int 28 2 nx, int 30 2 ny] ++ zero0 ++ zero2
     else if op = 2 then [num 17 1 first, num 18 1 cnt, raw 20 28 map] ++ zero0 ++ zero1
     else zero0 ++ zero1 ++ zero2)
  | .plumeSet _ enable depth fx fy length half skip border =>
    [num 16 1 enable, num 17 1 depth, int 18 2 fx, int 20 2 fy, num 24 4 length, num 28 4 half, num 32 4 skip, num 36 4 border]
  | .stitchSet _ zone overlap amp => [num 16 1 zone, num 18 1 overlap, num 20 2 amp]
  -- R232
  | .laneConfig _ n flags vmark vjump accel jerk zv za zj winXy winZ delay count errs =>
    [num 16 1 n, num 17 1 flags, num 20 4 vmark, num 24 4 vjump, num 28 4 accel, num 32 4 jerk, num 36 4 zv, num 40 4 za, num 44 4 zj,
     num 48 2 winXy, num 50 2 winZ, num 52 2 delay, num 54 1 count, num 55 1 errs]
  | .enlargerMapLoad _ n source addr block =>
    [num 16 1 n, num 17 1 source, num 24 8 addr, raw 64 (if source = 0 then 50768 else 0) block]
  | .scannerLinkSet _ n gen pol => [num 16 1 n, num 17 1 gen, num 18 1 pol]
  | .laneJog _ n mode x y z speed => [num 16 1 n, num 17 1 mode, int 20 4 x, int 24 4 y, int 28 4 z, num 32 4 speed]
  | .driftTermsSet _ n apply mask terms => [num 16 1 n, num 17 1 apply, num 18 1 mask, ints 20 32 4 terms]
  -- R260
  | .laserPortSet _ n mode flags filter pfs pmax lead =>
    [num 16 1 n, num 17 1 mode, num 18 1 flags, num 19 1 filter, num 20 2 pfs, num 24 4 pmax, num 28 2 lead]
  | .ledgerSet _ budget dpdt stepMax => [num 16 4 budget, num 20 4 dpdt, num 24 4 stepMax]
  -- R309
  | .afeSet _ n flags calDelta offSettle satCode darkMin =>
    [num 16 1 n, num 17 1 flags, num 18 1 calDelta, num 19 1 offSettle, num 20 2 satCode, num 22 2 darkMin]
  | .afeCalibrate _ lanes inputs mode => [num 16 4 lanes, num 20 1 inputs, num 21 1 mode]
  | .calValuesRead _ first cnt addr => [num 16 1 first, num 17 1 cnt, num 24 8 addr]
  | .calValuesWrite _ cnt source addr block =>
    [num 16 1 cnt, num 17 1 source, num 24 8 addr, raw 64 (if source = 0 then 32 * cnt else 0) block]
  -- R329
  | .csiPortSet _ port lanes rate busMode scl => [num 16 1 port, num 17 1 lanes, num 18 2 rate, num 20 1 busMode, num 22 2 scl]
  | .contextSet _ c op nwrites fields items =>
    [num 16 1 c, num 17 1 op, num 18 1 nwrites, words 20 28 4 fields, raw 64 (8 * nwrites) items]
  | .statsRoute _ c n routes metric => [num 16 1 c, num 17 1 n, num 18 1 routes, num 19 1 metric]
  -- R353
  | .loopConfig _ lanes lp mask limLo limHi slew flags start hold pdmin =>
    [num 16 4 lanes, num 20 1 lp, num 21 1 mask, num 22 2 limLo, num 24 2 limHi, num 28 4 slew, num 32 1 flags, num 33 1 start,
     num 34 2 hold, int 36 4 pdmin]
  | .loopCoefWrite _ lanes lp mask order kp ki kd kf =>
    [num 16 4 lanes, num 20 1 lp, num 21 1 mask, num 22 1 order, int 24 4 kp, int 28 4 ki, int 32 4 kd, num 36 2 kf]
  | .loopMode _ lanes lp mode man flags => [num 16 4 lanes, num 20 1 lp, num 21 1 mode, num 22 2 man, num 24 1 flags]
  | .loopSetpoint _ lanes lp op value => [num 16 4 lanes, num 20 1 lp, num 21 1 op, int 24 4 value]
  | .loopRead _ n lp => [num 16 1 n, num 17 1 lp]
  -- R376
  | .burnConfig _ flags gain weight nMin ox oy cell gw gh x0 y0 w wh =>
    [num 16 1 flags, num 18 2 gain, num 20 2 weight, num 22 2 nMin, int 24 4 ox, int 28 4 oy, num 32 2 cell, num 34 2 gw, num 36 2 gh,
     num 38 2 x0, num 40 2 y0, num 42 2 w, num 44 2 wh]
  | .burnMapLoad _ source content addr => [num 16 1 source, num 17 1 content, num 24 8 addr]
  | .burnMapSave _ dest addr => [num 16 1 dest, num 24 8 addr]
  | .burnFreeze _ op scope => [num 16 1 op, num 17 1 scope]
  -- R406
  | .axisConfig _ axis sect vals => [num 16 1 axis, num 17 1 sect, words 20 28 4 vals]
  | .axisMove _ axis flags target vmax => [num 16 1 axis, num 17 1 flags, int 20 4 target, num 24 4 vmax]
  | .axisHome _ axis mode value => [num 16 1 axis, num 17 1 mode, int 20 4 value]
  | .axisStop _ mask => [num 16 1 mask]
  | .axisResume _ mask flags time => [num 16 1 mask, num 17 1 flags, num 24 8 time]
  | .axisGroupStart _ mask flags time => [num 16 1 mask, num 17 1 flags, num 24 8 time]
  | .axisRetarget _ axis flags target vmax accel decel =>
    [num 16 1 axis, num 17 1 flags, int 20 4 target, num 24 4 vmax, num 28 4 accel, num 32 4 decel]
  -- R446: the packet of a fan-out stands at byte 48 of the parameter block
  | .fabricPortSet _ port mode flags polarity => [num 16 1 port, num 17 1 mode, num 18 1 flags, num 19 1 polarity]
  | .fabricDiscover _ op addr => [num 16 1 op, num 24 8 addr]
  | .fabricRouteRead _ dest addr => [num 16 1 dest, num 24 8 addr]
  | .plateGroupSet _ group => [num 16 1 group]
  | .remoteCommand _ op target count off data inner =>
    num 16 1 op ::
    (if op = 2 then [unused target, unused count, unused off, unused data.length, raw 64 64 (inner.map (·.toNat))]
     else [num 17 1 target, num 18 1 count, num 20 4 off, words 24 (if op = 1 then 4 * satN 8 count else 0) 4 data, unused inner.length])
  -- R468
  | .timeConfig _ quality domain ann sync pdelay kp ki rateLim stepThresh lockThresh lockCount limit holdRate invert =>
    [num 16 1 quality, num 17 1 domain, num 18 1 ann, num 19 1 sync, num 20 1 pdelay, num 22 2 kp, num 24 2 ki, num 28 4 rateLim,
     num 32 4 stepThresh, num 36 1 lockThresh, num 37 1 lockCount, num 38 2 limit, num 40 2 holdRate, num 42 1 invert]
  | .triggerSet _ trig op start period width count =>
    [num 16 1 trig, num 17 1 op, num 24 8 start, num 32 4 period, num 36 4 width, num 40 4 count]
  -- R475
  | .ddrTrain _ channel => [num 16 1 channel]
  | .ddrConfig _ channel type rate ranks module width density map scrubHours ageNs actLimit thresh scrubMs =>
    [num 16 1 channel, num 17 1 type, num 18 2 rate, num 20 1 ranks, num 21 1 module, num 22 1 width, num 23 1 density, num 24 1 map,
     num 25 1 scrubHours, num 26 2 ageNs, num 28 2 actLimit, num 30 1 thresh, num 32 2 scrubMs]
  -- R514
  | .dmaChannelSet _ channel priority rate => [num 16 1 channel, num 17 1 priority, num 18 1 rate]
  | .dmaStart _ channel space addr => [num 16 1 channel, num 17 1 space, num 24 8 addr]
  | .dmaStop _ mask => [num 16 4 mask]
  | .compressJob _ codec format level rate inSpace outSpace inAddr outAddr inLen outLen =>
    [num 16 1 codec, num 17 1 format, num 18 1 level, num 19 1 rate, num 20 1 (inSpace % 2 + 2 * outSpace), unused (inSpace / 2),
     num 24 8 inAddr, num 32 8 outAddr, num 40 4 inLen, num 44 4 outLen]
  | .decompressJob _ codec format rate inSpace outSpace inAddr outAddr inLen outLen ratio cap =>
    [num 16 1 codec, num 17 1 format, num 19 1 rate, num 20 1 (inSpace % 2 + 2 * outSpace), unused (inSpace / 2),
     num 24 8 inAddr, num 32 8 outAddr, num 40 4 inLen, num 44 4 outLen, num 48 2 ratio, num 52 4 cap]
  | .codecFlush _ codec _ => [num 16 1 codec]
  | .codecResume _ codec op rate outSpace outAddr outLen =>
    [num 16 1 codec, num 17 1 op, num 18 1 rate, num 20 1 outSpace, num 24 8 outAddr, num 32 4 outLen]
  -- R528
  | .mbxBind _ channel op sender receiver peer timeout =>
    [num 16 1 channel, num 17 1 op, num 18 1 sender, num 19 1 receiver, num 20 1 peer, num 24 4 timeout]
  | .mbxLock _ mask => [num 16 2 mask]
  -- R549
  | .panelSet _ op channel v0 v1 v2 v3 =>
    num 16 1 op ::
    (if op = 0 then [num 20 4 v0, num 24 4 v1, num 28 4 v2, num 32 4 v3, unused channel]
     else if op = 1 then [num 20 4 v0, num 24 4 v1, unused v2, unused v3, unused channel]
     else if op = 2 then [num 17 1 channel, num 20 4 v0, num 24 2 v1, unused v2, unused v3]
     else [unused channel, unused v0, unused v1, unused v2, unused v3])
  | .ledPatternLoad _ engine mode flags nchan list hi lo timeA timeB nsteps steps =>
    [num 16 1 engine, num 17 1 mode, num 18 1 flags, num 19 1 nchan, raw 20 8 list, num 28 2 hi, num 30 2 lo, num 32 2 timeA, num 34 2 timeB,
     num 36 1 nsteps, words 64 (if mode = 4 then 4 * nsteps else 0) 2 (steps.flatMap (fun p => [p.1, p.2]))]
  | .ledColourTarget _ op red green blue x y luma m gain =>
    [num 16 1 op, num 17 1 red, num 18 1 green, num 19 1 blue, num 20 2 x, num 22 2 y, num 24 2 luma, ints 26 18 2 m, num 44 1 gain]
  | .ledDiag _ op mask _ => [num 16 1 op, num 20 4 mask]
  -- R560, R572, R575, R578
  | .faultRead _ addr => [num 24 8 addr]
  | .faultClear _ op code source mask => [num 16 1 op, num 18 2 code, num 20 2 source, num 24 8 mask]
  | .blackboxRead _ op count lanes addr => [num 16 1 op, num 18 2 count, num 20 4 lanes, num 24 8 addr]
  | .laneEngineMap _ op n engine value => [num 16 1 op, num 17 1 n, num 18 1 engine, num 19 1 value]
  | .repairScan _ banks engines _ _ _ => [num 16 4 banks, num 20 4 engines]
  | .repairFix _ op _ => [num 16 1 op]
  | _ => []

/-- The bytes of a packet or parameter block, numbered as the packet's, hold a parameter. -/
def holds (img : List Byte) (p : Par) : Bool := (img.drop p.1).take p.2.1 == p.2.2

/-- A byte of the first 48 parameter bytes that the layout in use gives no meaning is not zero. -/
def strayBytes (img : List Byte) (ps : List Par) : Bool :=
  (List.range 48).any (fun i => img.getD (16 + i) 0 != 0 && !ps.any (fun p => decide (p.1 ≤ 16 + i) && decide (16 + i < p.1 + p.2.1)))

end Sys2Proof.Machine
end

