-- ==== Sys2Proof/Machine/RegMap.lean ====
section
/-!
DEFINITION. The register map of BAR0: one name per register (its BAR0 offset) and one row per register with its
fields, as the register tables of the spec's chapters give them (R599, R601, R602; R598: the chapter's table governs).
A field that the tables mark reserved has no entry: it reads as 0 (R15).
A reset value that the spec gives as Fuse or Strap stands here as 0, the value of unprogrammed fuses and of straps
at their pull-downs (assumption 3); `POR_N_RISE` loads the sampled values.
-/

namespace Sys2Proof.Machine

/-- Access codes of R14. -/
inductive Access where
  | ro | rw | wo | w1c | w1s | rwl
  deriving DecidableEq, Repr

/-- Configuration classes of R17 to R21: none ("—"), static, live, committed in a staging group of R141,
or committed per camera context (R21). -/
inductive Cls where
  | none | s | l | c (group : Nat) | ctx
  deriving DecidableEq, Repr

/-- One field of a register: its bits, access code, class and reset value; `perIndex` adds the register's first
index to the reset value (the engine fields of R202 and R581 reset to the lane number). -/
structure Field where
  hi : Nat
  lo : Nat
  acc : Access
  cls : Cls
  reset : Nat
  perIndex : Bool
  deriving DecidableEq, Repr

/-- One register of the map, or an array of them: `n1` by `n2` copies with strides `s1` and `s2`. -/
structure RegRow where
  base : Nat
  n1 : Nat
  s1 : Nat
  n2 : Nat
  s2 : Nat
  fields : List Field
  deriving DecidableEq, Repr

/-- A read-only field. -/
def fRO (hi lo reset : Nat) : Field := ⟨hi, lo, .ro, .none, reset, false⟩
/-- A write-one-to-clear field, cleared at reset. -/
def fW1C (hi lo : Nat) : Field := ⟨hi, lo, .w1c, .none, 0, false⟩
/-- A write-only field. -/
def fWO (hi lo : Nat) : Field := ⟨hi, lo, .wo, .none, 0, false⟩
/-- A read-write field of class `c`. -/
def fRW (c : Cls) (hi lo reset : Nat) : Field := ⟨hi, lo, .rw, c, reset, false⟩
/-- A read-only field whose reset value is the register's index. -/
def fIX (hi lo : Nat) : Field := ⟨hi, lo, .ro, .none, 0, true⟩

/-! ### TOP -/

/-- `TOP_ID` (R600): DEVICE 31:16, REVISION 15:8. -/
def TOP_ID : Nat := 0x0
/-- `TOP_SERIAL_LO` (R600): SERIAL 31:0. -/
def TOP_SERIAL_LO : Nat := 0x8
/-- `TOP_SERIAL_HI` (R600): SERIAL 31:0. -/
def TOP_SERIAL_HI : Nat := 0xC
/-- `TOP_STRAP_STS` (R70): FAB_ADDR 7:3, BOOT_SEL 1:0. -/
def TOP_STRAP_STS : Nat := 0x20
/-- `TOP_COMMIT_STS` (R600): REJECT 31, PENDING 30, LAST_GROUPS 15:0. -/
def TOP_COMMIT_STS : Nat := 0x30
/-- `TOP_SRAM_APERTURE` (R600): BASE 4:0. -/
def TOP_SRAM_APERTURE : Nat := 0x40
/-- `TOP_ENGINE_MAP` (R581): ENGINE 4:0. -/
def TOP_ENGINE_MAP (n : Nat) : Nat := 0x100 + 0x4 * n
/-- `TOP_ENGINE_STS` (R581): FAILED 25:0. -/
def TOP_ENGINE_STS : Nat := 0x180
/-- `TOP_ENGINE_CFG` (R581): AUTO 31, HARD 25:0. -/
def TOP_ENGINE_CFG : Nat := 0x184

/-- Registers of block TOP. -/
def topRows : List RegRow := [
  ⟨TOP_ID, 1, 0x0, 1, 0x0, [fRO 31 16 36, fRO 15 8 176]⟩,
  ⟨TOP_SERIAL_LO, 1, 0x0, 1, 0x0, [fRO 31 0 0]⟩,
  ⟨TOP_SERIAL_HI, 1, 0x0, 1, 0x0, [fRO 31 0 0]⟩,
  ⟨TOP_STRAP_STS, 1, 0x0, 1, 0x0, [fRO 7 3 0, fRO 1 0 0]⟩,
  ⟨TOP_COMMIT_STS, 1, 0x0, 1, 0x0, [fW1C 31 31, fRO 30 30 0, fRO 15 0 0]⟩,
  ⟨TOP_SRAM_APERTURE, 1, 0x0, 1, 0x0, [fRW .l 4 0 16]⟩,
  ⟨TOP_ENGINE_MAP 0, 24, 0x4, 1, 0x0, [fIX 4 0]⟩,
  ⟨TOP_ENGINE_STS, 1, 0x0, 1, 0x0, [fRO 25 0 0]⟩,
  ⟨TOP_ENGINE_CFG, 1, 0x0, 1, 0x0, [fRO 31 31 0, fRO 25 0 0]⟩]

/-! ### PWR -/

/-- `PWR_STS` (R601): OFF_ACCESS 31, DOMAINS 19:0. -/
def PWR_STS : Nat := 0x10000
/-- `PWR_RESET_CAUSE` (R94): THERM_PRIOR 6, BROWNOUT 5, PERST 4, SYS_RST 3, POR_PIN 2, AON_POWER 1, RETAINED_VALID 0. -/
def PWR_RESET_CAUSE : Nat := 0x10004
/-- `PWR_SEQ_STS` (R601): VALID 31, GROUP 3:0. -/
def PWR_SEQ_STS : Nat := 0x10008
/-- `PWR_BOOT_STS` (R101): ROLLBACK_FUSE 31:24, FAIL_CODE 23:16, CHUNK_READY 11, SLOT 10, SOURCE 9:8, STATE 3:0. -/
def PWR_BOOT_STS : Nat := 0x10020
/-- `PWR_BOOT_CHUNK` (R101): LAST 31, LENGTH 20:0. -/
def PWR_BOOT_CHUNK : Nat := 0x10024
/-- `PWR_DIE_BUDGET` (R105): BUDGET 7:0. -/
def PWR_DIE_BUDGET : Nat := 0x10030
/-- `PWR_DIE_STS` (R105): HELD 31:16, GRANTS 15:8, REFUSED 7:0. -/
def PWR_DIE_STS : Nat := 0x10034

/-- Registers of block PWR. -/
def pwrRows : List RegRow := [
  ⟨PWR_STS, 1, 0x0, 1, 0x0, [fW1C 31 31, fRO 19 0 1048575]⟩,
  ⟨PWR_RESET_CAUSE, 1, 0x0, 1, 0x0, [fW1C 6 6, fW1C 5 5, fW1C 4 4, fW1C 3 3, fW1C 2 2, fW1C 1 1, fRO 0 0 0]⟩,
  ⟨PWR_SEQ_STS, 1, 0x0, 1, 0x0, [fRO 31 31 0, fRO 3 0 0]⟩,
  ⟨PWR_BOOT_STS, 1, 0x0, 1, 0x0, [fRO 31 24 0, fRO 23 16 0, fRO 11 11 0, fRO 10 10 0, fRO 9 8 0, fRO 3 0 0]⟩,
  ⟨PWR_BOOT_CHUNK, 1, 0x0, 1, 0x0, [fWO 31 31, fWO 20 0]⟩,
  ⟨PWR_DIE_BUDGET, 1, 0x0, 1, 0x0, [fRW .l 7 0 50]⟩,
  ⟨PWR_DIE_STS, 1, 0x0, 1, 0x0, [fRO 31 16 0, fRO 15 8 0, fRO 7 0 0]⟩]

/-! ### THM -/

/-- `THM_STS` (R113): FAILED_MASK 31:16, HOT_SENSOR 15:12, FAST 7, PAUSE_ACTIVE 6, THROTTLE_LEVEL 5:4, WRITE_WINDOW 3. -/
def THM_STS : Nat := 0x20000
/-- `THM_CFG` (R112): PAUSE 15:8, THROTTLE 7:0. -/
def THM_CFG : Nat := 0x20004
/-- `THM_TEMP` (R113): FAILED 31, ESTIMATE 30, TEMP 15:0. -/
def THM_TEMP (t : Nat) : Nat := 0x20040 + 0x4 * t
/-- `THM_SHUTDOWN_CAUSE` (R601): SENSOR 31:28, READING 15:0. -/
def THM_SHUTDOWN_CAUSE : Nat := 0x20080
/-- `THM_SHUTDOWN_TIME_LO` (R601): TIME 31:0. -/
def THM_SHUTDOWN_TIME_LO : Nat := 0x20088
/-- `THM_SHUTDOWN_TIME_HI` (R601): TIME 31:0. -/
def THM_SHUTDOWN_TIME_HI : Nat := 0x2008C

/-- Registers of block THM. -/
def thmRows : List RegRow := [
  ⟨THM_STS, 1, 0x0, 1, 0x0, [fRO 31 16 0, fRO 15 12 0, fRO 7 7 0, fRO 6 6 0, fRO 5 4 0, fRO 3 3 0]⟩,
  ⟨THM_CFG, 1, 0x0, 1, 0x0, [fRW (.c 15) 15 8 108, fRW (.c 15) 7 0 100]⟩,
  ⟨THM_TEMP 0, 16, 0x4, 1, 0x0, [fRO 31 31 0, fRO 30 30 0, fRO 15 0 0]⟩,
  ⟨THM_SHUTDOWN_CAUSE, 1, 0x0, 1, 0x0, [fRO 31 28 0, fRO 15 0 0]⟩,
  ⟨THM_SHUTDOWN_TIME_LO, 1, 0x0, 1, 0x0, [fRO 31 0 0]⟩,
  ⟨THM_SHUTDOWN_TIME_HI, 1, 0x0, 1, 0x0, [fRO 31 0 0]⟩]

/-! ### HIF -/

/-- `HIF_SQ_BASE_LO` (R132): ADDR 31:12. -/
def HIF_SQ_BASE_LO (n : Nat) : Nat := 0x30100 + 0x40 * n
/-- `HIF_SQ_BASE_HI` (R132): ADDR 31:0. -/
def HIF_SQ_BASE_HI (n : Nat) : Nat := 0x30104 + 0x40 * n
/-- `HIF_SQ_CFG` (R132): ENABLE 15, WEIGHT 10:8, SIZE_LOG2 3:0. -/
def HIF_SQ_CFG (n : Nat) : Nat := 0x30108 + 0x40 * n
/-- `HIF_SQ_TAIL` (R132): TAIL 11:0. -/
def HIF_SQ_TAIL (n : Nat) : Nat := 0x3010C + 0x40 * n
/-- `HIF_SQ_HEAD` (R132): HEAD 11:0. -/
def HIF_SQ_HEAD (n : Nat) : Nat := 0x30110 + 0x40 * n
/-- `HIF_SQ_STS` (R132): OUTSTANDING 24:16, CFG_IGNORED 3, FETCH_ERR 2, DOORBELL_ERR 1, ACTIVE 0. -/
def HIF_SQ_STS (n : Nat) : Nat := 0x30114 + 0x40 * n
/-- `HIF_CQ_BASE_LO` (R132): ADDR 31:12. -/
def HIF_CQ_BASE_LO (n : Nat) : Nat := 0x30120 + 0x40 * n
/-- `HIF_CQ_BASE_HI` (R132): ADDR 31:0. -/
def HIF_CQ_BASE_HI (n : Nat) : Nat := 0x30124 + 0x40 * n
/-- `HIF_CQ_CFG` (R132): SIZE_LOG2 3:0. -/
def HIF_CQ_CFG (n : Nat) : Nat := 0x30128 + 0x40 * n
/-- `HIF_CQ_HEAD` (R132): HEAD 11:0. -/
def HIF_CQ_HEAD (n : Nat) : Nat := 0x3012C + 0x40 * n
/-- `HIF_CQ_TAIL` (R132): PHASE 12, TAIL 11:0. -/
def HIF_CQ_TAIL (n : Nat) : Nat := 0x30130 + 0x40 * n

/-- Registers of block HIF. -/
def hifRows : List RegRow := [
  ⟨HIF_SQ_BASE_LO 0, 16, 0x40, 1, 0x0, [fRW .s 31 12 0]⟩,
  ⟨HIF_SQ_BASE_HI 0, 16, 0x40, 1, 0x0, [fRW .s 31 0 0]⟩,
  ⟨HIF_SQ_CFG 0, 16, 0x40, 1, 0x0, [fRW .l 15 15 0, fRW .s 10 8 0, fRW .s 3 0 4]⟩,
  ⟨HIF_SQ_TAIL 0, 16, 0x40, 1, 0x0, [fWO 11 0]⟩,
  ⟨HIF_SQ_HEAD 0, 16, 0x40, 1, 0x0, [fRO 11 0 0]⟩,
  ⟨HIF_SQ_STS 0, 16, 0x40, 1, 0x0, [fRO 24 16 0, fW1C 3 3, fW1C 2 2, fW1C 1 1, fRO 0 0 0]⟩,
  ⟨HIF_CQ_BASE_LO 0, 16, 0x40, 1, 0x0, [fRW .s 31 12 0]⟩,
  ⟨HIF_CQ_BASE_HI 0, 16, 0x40, 1, 0x0, [fRW .s 31 0 0]⟩,
  ⟨HIF_CQ_CFG 0, 16, 0x40, 1, 0x0, [fRW .s 3 0 4]⟩,
  ⟨HIF_CQ_HEAD 0, 16, 0x40, 1, 0x0, [fWO 11 0]⟩,
  ⟨HIF_CQ_TAIL 0, 16, 0x40, 1, 0x0, [fRO 12 12 1, fRO 11 0 0]⟩]

/-! ### SEQ -/

/-- `SEQ_STS` (R201): CFG_IGNORED 8, START_PENDING 5, BURN_BUSY 4, STATE 3:0. -/
def SEQ_STS : Nat := 0x40000
/-- `SEQ_CFG` (R201): LANE_FAULT_ACTION 16, UNDERRUN_LIMIT 15:8, TICK_RATE 1:0. -/
def SEQ_CFG : Nat := 0x40004
/-- `SEQ_STOP_CFG` (R201): TIMEOUT 19:16, FINISH 8:0. -/
def SEQ_STOP_CFG : Nat := 0x40008
/-- `SEQ_LAYER` (R201): LAYER 31:0. -/
def SEQ_LAYER : Nat := 0x40010
/-- `SEQ_START_LO` (R201): START 31:0. -/
def SEQ_START_LO : Nat := 0x40018
/-- `SEQ_START_HI` (R201): START 31:0. -/
def SEQ_START_HI : Nat := 0x4001C
/-- `SEQ_TICK_LO` (R201): TICK 31:0. -/
def SEQ_TICK_LO : Nat := 0x40020
/-- `SEQ_TICK_HI` (R201): TICK 31:0. -/
def SEQ_TICK_HI : Nat := 0x40024
/-- `SEQ_LOAD_RESULT` (R201): CHECK 31:16, LANE 15:8. -/
def SEQ_LOAD_RESULT : Nat := 0x40028
/-- `SEQ_LOAD_RECORD` (R201): INDEX 31:0. -/
def SEQ_LOAD_RECORD : Nat := 0x4002C

/-- Registers of block SEQ. -/
def seqRows : List RegRow := [
  ⟨SEQ_STS, 1, 0x0, 1, 0x0, [fW1C 8 8, fRO 5 5 0, fRO 4 4 0, fRO 3 0 0]⟩,
  ⟨SEQ_CFG, 1, 0x0, 1, 0x0, [fRW (.c 0) 16 16 1, fRW (.c 0) 15 8 16, fRW .s 1 0 0]⟩,
  ⟨SEQ_STOP_CFG, 1, 0x0, 1, 0x0, [fRW (.c 0) 19 16 5, fRW (.c 0) 8 0 100]⟩,
  ⟨SEQ_LAYER, 1, 0x0, 1, 0x0, [fRO 31 0 0]⟩,
  ⟨SEQ_START_LO, 1, 0x0, 1, 0x0, [fRO 31 0 0]⟩,
  ⟨SEQ_START_HI, 1, 0x0, 1, 0x0, [fRO 31 0 0]⟩,
  ⟨SEQ_TICK_LO, 1, 0x0, 1, 0x0, [fRO 31 0 0]⟩,
  ⟨SEQ_TICK_HI, 1, 0x0, 1, 0x0, [fRO 31 0 0]⟩,
  ⟨SEQ_LOAD_RESULT, 1, 0x0, 1, 0x0, [fRO 31 16 0, fRO 15 8 0]⟩,
  ⟨SEQ_LOAD_RECORD, 1, 0x0, 1, 0x0, [fRO 31 0 0]⟩]

/-! ### LEDG -/

/-- `LEDG_STS` (R262): WAITING 31:16, OVER_BUDGET 1, RAMP_ACTIVE 0. -/
def LEDG_STS : Nat := 0x50000
/-- `LEDG_BUDGET` (R262): BUDGET 31:0. -/
def LEDG_BUDGET : Nat := 0x50004
/-- `LEDG_DPDT` (R262): DPDT 31:0. -/
def LEDG_DPDT : Nat := 0x50008
/-- `LEDG_STEP_MAX` (R262): STEP_MAX 31:0. -/
def LEDG_STEP_MAX : Nat := 0x5000C
/-- `LEDG_GRANTED` (R262): G 31:0. -/
def LEDG_GRANTED : Nat := 0x50010
/-- `LEDG_CEILING` (R262): C 31:0. -/
def LEDG_CEILING : Nat := 0x50014
/-- `LEDG_PEAK` (R262): PEAK 31:0. -/
def LEDG_PEAK : Nat := 0x50018
/-- `LEDG_SHUTTER` (R262): LATCHED 31, INTERLOCK 30, COUNT 15:0. -/
def LEDG_SHUTTER : Nat := 0x50020

/-- Registers of block LEDG. -/
def ledgRows : List RegRow := [
  ⟨LEDG_STS, 1, 0x0, 1, 0x0, [fRO 31 16 0, fRO 1 1 0, fRO 0 0 0]⟩,
  ⟨LEDG_BUDGET, 1, 0x0, 1, 0x0, [fRW (.c 4) 31 0 0]⟩,
  ⟨LEDG_DPDT, 1, 0x0, 1, 0x0, [fRW (.c 4) 31 0 0]⟩,
  ⟨LEDG_STEP_MAX, 1, 0x0, 1, 0x0, [fRW (.c 4) 31 0 4294967295]⟩,
  ⟨LEDG_GRANTED, 1, 0x0, 1, 0x0, [fRO 31 0 0]⟩,
  ⟨LEDG_CEILING, 1, 0x0, 1, 0x0, [fRO 31 0 0]⟩,
  ⟨LEDG_PEAK, 1, 0x0, 1, 0x0, [fRO 31 0 0]⟩,
  ⟨LEDG_SHUTTER, 1, 0x0, 1, 0x0, [fW1C 31 31, fRO 30 30 0, fRO 15 0 0]⟩]

/-! ### OVL -/

/-- `OVL_STS` (R295): ENTRIES 31:16, PEER_STALE 2, EST_STALE 1, WITHDRAWN 0. -/
def OVL_STS : Nat := 0x60000
/-- `OVL_CFG` (R295): MARGIN 31:16, HORIZON 15:0. -/
def OVL_CFG : Nat := 0x60004
/-- `OVL_CFG2` (R295): LOOKAHEAD 31:16, EST_PERIOD 7:0. -/
def OVL_CFG2 : Nat := 0x60008
/-- `OVL_MARK_OVH` (R295): OVH 31:0. -/
def OVL_MARK_OVH : Nat := 0x6000C
/-- `OVL_JUMP_OVH` (R295): OVH 31:0. -/
def OVL_JUMP_OVH : Nat := 0x60010
/-- `OVL_CLAIMS_LOCAL` (R295): COUNT 31:0. -/
def OVL_CLAIMS_LOCAL : Nat := 0x60020
/-- `OVL_GRANTS_REMOTE` (R295): COUNT 31:0. -/
def OVL_GRANTS_REMOTE : Nat := 0x60024
/-- `OVL_TAKEN_REMOTE` (R295): COUNT 31:0. -/
def OVL_TAKEN_REMOTE : Nat := 0x60028
/-- `OVL_RETURNS` (R295): COUNT 31:0. -/
def OVL_RETURNS : Nat := 0x6002C
/-- `OVL_CLAIM_TIMEOUTS` (R295): COUNT 31:0. -/
def OVL_CLAIM_TIMEOUTS : Nat := 0x60030
/-- `OVL_SPLITS` (R295): COUNT 31:0. -/
def OVL_SPLITS : Nat := 0x60034
/-- `PLM_CFG` (R295): ENABLE 31, SKIP_DEPTH 6:0. -/
def PLM_CFG : Nat := 0x60040
/-- `PLM_FLOW` (R295): FY 31:16, FX 15:0. -/
def PLM_FLOW : Nat := 0x60044
/-- `PLM_LENGTH` (R295): LENGTH 31:0. -/
def PLM_LENGTH : Nat := 0x60048
/-- `PLM_HALF_WIDTH` (R295): HALF_WIDTH 31:0. -/
def PLM_HALF_WIDTH : Nat := 0x6004C
/-- `PLM_SKIP_MASK` (R295): MASK 23:0. -/
def PLM_SKIP_MASK : Nat := 0x60050
/-- `PLM_BORDER_MASK` (R295): MASK 23:0. -/
def PLM_BORDER_MASK : Nat := 0x60054
/-- `OVL_ZMAP` (R295): MAP 31:0. -/
def OVL_ZMAP (m : Nat) : Nat := 0x60100 + 0x4 * m
/-- `OVL_EST` (R295): E 31:0. -/
def OVL_EST (n : Nat) : Nat := 0x60200 + 0x4 * n
/-- `ZONE_CFG` (R295): EN 31, STAGGER_AMP 25:16, OVERLAP 7:0. -/
def ZONE_CFG (z : Nat) : Nat := 0x60400 + 0x20 * z
/-- `ZONE_LINE_X` (R295): POS 31:0. -/
def ZONE_LINE_X (z : Nat) : Nat := 0x60404 + 0x20 * z
/-- `ZONE_LINE_Y` (R295): POS 31:0. -/
def ZONE_LINE_Y (z : Nat) : Nat := 0x60408 + 0x20 * z
/-- `ZONE_NORMAL` (R295): NY 31:16, NX 15:0. -/
def ZONE_NORMAL (z : Nat) : Nat := 0x6040C + 0x20 * z
/-- `ZONE_STS` (R295): OPEN 31:16, CLAIMED 15:0. -/
def ZONE_STS (z : Nat) : Nat := 0x60410 + 0x20 * z

/-- Registers of block OVL, part 1. -/
def ovlRows1 : List RegRow := [
  ⟨OVL_STS, 1, 0x0, 1, 0x0, [fRO 31 16 0, fRO 2 2 0, fRO 1 1 0, fRO 0 0 0]⟩,
  ⟨OVL_CFG, 1, 0x0, 1, 0x0, [fRW (.c 5) 31 16 50, fRW (.c 5) 15 0 400]⟩,
  ⟨OVL_CFG2, 1, 0x0, 1, 0x0, [fRW (.c 5) 31 16 200, fRW (.c 5) 7 0 10]⟩,
  ⟨OVL_MARK_OVH, 1, 0x0, 1, 0x0, [fRW (.c 5) 31 0 40000]⟩,
  ⟨OVL_JUMP_OVH, 1, 0x0, 1, 0x0, [fRW (.c 5) 31 0 20000]⟩,
  ⟨OVL_CLAIMS_LOCAL, 1, 0x0, 1, 0x0, [fRO 31 0 0]⟩,
  ⟨OVL_GRANTS_REMOTE, 1, 0x0, 1, 0x0, [fRO 31 0 0]⟩,
  ⟨OVL_TAKEN_REMOTE, 1, 0x0, 1, 0x0, [fRO 31 0 0]⟩,
  ⟨OVL_RETURNS, 1, 0x0, 1, 0x0, [fRO 31 0 0]⟩,
  ⟨OVL_CLAIM_TIMEOUTS, 1, 0x0, 1, 0x0, [fRO 31 0 0]⟩,
  ⟨OVL_SPLITS, 1, 0x0, 1, 0x0, [fRO 31 0 0]⟩,
  ⟨PLM_CFG, 1, 0x0, 1, 0x0, [fRW (.c 5) 31 31 0, fRW (.c 5) 6 0 16]⟩,
  ⟨PLM_FLOW, 1, 0x0, 1, 0x0, [fRW (.c 5) 31 16 0, fRW (.c 5) 15 0 32767]⟩,
  ⟨PLM_LENGTH, 1, 0x0, 1, 0x0, [fRW (.c 5) 31 0 80000]⟩,
  ⟨PLM_HALF_WIDTH, 1, 0x0, 1, 0x0, [fRW (.c 5) 31 0 8000]⟩,
  ⟨PLM_SKIP_MASK, 1, 0x0, 1, 0x0, [fRW (.c 5) 23 0 0]⟩,
  ⟨PLM_BORDER_MASK, 1, 0x0, 1, 0x0, [fRW (.c 5) 23 0 0]⟩,
  ⟨OVL_ZMAP 0, 64, 0x4, 1, 0x0, [fRW (.c 5) 31 0 0]⟩,
  ⟨OVL_EST 0, 24, 0x4, 1, 0x0, [fRO 31 0 0]⟩,
  ⟨ZONE_CFG 0, 64, 0x20, 1, 0x0, [fRW (.c 5) 31 31 0, fRW (.c 5) 25 16 0, fRW (.c 5) 7 0 10]⟩]

/-- Registers of block OVL, part 2. -/
def ovlRows2 : List RegRow := [
  ⟨ZONE_LINE_X 0, 64, 0x20, 1, 0x0, [fRW (.c 5) 31 0 0]⟩,
  ⟨ZONE_LINE_Y 0, 64, 0x20, 1, 0x0, [fRW (.c 5) 31 0 0]⟩,
  ⟨ZONE_NORMAL 0, 64, 0x20, 1, 0x0, [fRW (.c 5) 31 16 0, fRW (.c 5) 15 0 32767]⟩,
  ⟨ZONE_STS 0, 64, 0x20, 1, 0x0, [fRO 31 16 0, fRO 15 0 0]⟩]

/-- Registers of block OVL. -/
def ovlRows : List RegRow := ovlRows1 ++ ovlRows2

/-! ### BURN -/

/-- `BURN_STS` (R377): FROZEN 2, BUSY 1, VALID 0. -/
def BURN_STS : Nat := 0x80000
/-- `BURN_CFG` (R377): ENABLE 31, INTERP 30, WEIGHT_PD 24:16, GAIN 8:0. -/
def BURN_CFG : Nat := 0x80004
/-- `BURN_NMIN` (R377): N_MIN 15:0. -/
def BURN_NMIN : Nat := 0x80008
/-- `BURN_ORIGIN_X` (R377): ORIGIN 31:0. -/
def BURN_ORIGIN_X : Nat := 0x80010
/-- `BURN_ORIGIN_Y` (R377): ORIGIN 31:0. -/
def BURN_ORIGIN_Y : Nat := 0x80014
/-- `BURN_CELL` (R377): CELL 15:0. -/
def BURN_CELL : Nat := 0x80018
/-- `BURN_GRID` (R377): GRID_H 27:16, GRID_W 11:0. -/
def BURN_GRID : Nat := 0x8001C
/-- `BURN_WIN0` (R377): WIN_Y0 27:16, WIN_X0 11:0. -/
def BURN_WIN0 : Nat := 0x80020
/-- `BURN_WIN1` (R377): WIN_H 27:16, WIN_W 11:0. -/
def BURN_WIN1 : Nat := 0x80024
/-- `BURN_LAST_LAYER` (R377): LAYER 31:0. -/
def BURN_LAST_LAYER : Nat := 0x80030
/-- `BURN_UPDATED` (R377): COUNT 31:0. -/
def BURN_UPDATED : Nat := 0x80034
/-- `BURN_HELD` (R377): COUNT 31:0. -/
def BURN_HELD : Nat := 0x80038
/-- `BURN_CLAMPED` (R377): COUNT 31:0. -/
def BURN_CLAMPED : Nat := 0x8003C
/-- `BURN_BORDER_SKIPPED` (R377): COUNT 31:0. -/
def BURN_BORDER_SKIPPED : Nat := 0x80040
/-- `BURN_MISSES` (R377): COUNT 31:0. -/
def BURN_MISSES : Nat := 0x80044

/-- Registers of block BURN. -/
def burnRows : List RegRow := [
  ⟨BURN_STS, 1, 0x0, 1, 0x0, [fRO 2 2 0, fRO 1 1 0, fRO 0 0 0]⟩,
  ⟨BURN_CFG, 1, 0x0, 1, 0x0, [fRW (.c 8) 31 31 0, fRW (.c 8) 30 30 1, fRW (.c 8) 24 16 128, fRW (.c 8) 8 0 64]⟩,
  ⟨BURN_NMIN, 1, 0x0, 1, 0x0, [fRW (.c 8) 15 0 64]⟩,
  ⟨BURN_ORIGIN_X, 1, 0x0, 1, 0x0, [fRW (.c 8) 31 0 0]⟩,
  ⟨BURN_ORIGIN_Y, 1, 0x0, 1, 0x0, [fRW (.c 8) 31 0 0]⟩,
  ⟨BURN_CELL, 1, 0x0, 1, 0x0, [fRW (.c 8) 15 0 8000]⟩,
  ⟨BURN_GRID, 1, 0x0, 1, 0x0, [fRW (.c 8) 27 16 2048, fRW (.c 8) 11 0 2048]⟩,
  ⟨BURN_WIN0, 1, 0x0, 1, 0x0, [fRW (.c 8) 27 16 0, fRW (.c 8) 11 0 0]⟩,
  ⟨BURN_WIN1, 1, 0x0, 1, 0x0, [fRW (.c 8) 27 16 2048, fRW (.c 8) 11 0 2048]⟩,
  ⟨BURN_LAST_LAYER, 1, 0x0, 1, 0x0, [fRO 31 0 0]⟩,
  ⟨BURN_UPDATED, 1, 0x0, 1, 0x0, [fRO 31 0 0]⟩,
  ⟨BURN_HELD, 1, 0x0, 1, 0x0, [fRO 31 0 0]⟩,
  ⟨BURN_CLAMPED, 1, 0x0, 1, 0x0, [fRO 31 0 0]⟩,
  ⟨BURN_BORDER_SKIPPED, 1, 0x0, 1, 0x0, [fRO 31 0 0]⟩,
  ⟨BURN_MISSES, 1, 0x0, 1, 0x0, [fRO 31 0 0]⟩]

/-! ### LANE -/

/-- `SCN_STS` (R234): CFG_IGNORED 12, JOGGING 11, MAP_VALID 10, DEV_ACTIVE 9, POS_INVALID 8, OVER_TEMP 7, SERVO_FAULT 6, READY 5, LINK_STATE 1:0. -/
def SCN_STS (n : Nat) : Nat := 0x100000 + 0x4000 * n
/-- `SCN_LINK_CFG` (R234): SERVO_ON 8, RX_INVERT 3, TX_INVERT 2, GEN 1:0. -/
def SCN_LINK_CFG (n : Nat) : Nat := 0x100004 + 0x4000 * n
/-- `SCN_VMAX_MARK` (R234): VMAX_MARK 31:0. -/
def SCN_VMAX_MARK (n : Nat) : Nat := 0x100010 + 0x4000 * n
/-- `SCN_VMAX_JUMP` (R234): VMAX_JUMP 31:0. -/
def SCN_VMAX_JUMP (n : Nat) : Nat := 0x100014 + 0x4000 * n
/-- `SCN_ACCEL` (R234): ACCEL 31:0. -/
def SCN_ACCEL (n : Nat) : Nat := 0x100018 + 0x4000 * n
/-- `SCN_JERK` (R234): JERK 31:0. -/
def SCN_JERK (n : Nat) : Nat := 0x10001C + 0x4000 * n
/-- `SCN_ZVMAX` (R234): ZVMAX 31:0. -/
def SCN_ZVMAX (n : Nat) : Nat := 0x100020 + 0x4000 * n
/-- `SCN_ZACCEL` (R234): ZACCEL 31:0. -/
def SCN_ZACCEL (n : Nat) : Nat := 0x100024 + 0x4000 * n
/-- `SCN_ZJERK` (R234): ZJERK 31:0. -/
def SCN_ZJERK (n : Nat) : Nat := 0x100028 + 0x4000 * n
/-- `SCN_DEV_CFG` (R234): EN 31, TRACK_DELAY 25:16, ERR_LIMIT 15:8, COUNT 7:0. -/
def SCN_DEV_CFG (n : Nat) : Nat := 0x100030 + 0x4000 * n
/-- `SCN_DEV_WIN` (R234): WIN_Z 31:16, WIN_XY 15:0. -/
def SCN_DEV_WIN (n : Nat) : Nat := 0x100034 + 0x4000 * n
/-- `SCN_DRIFT_OFF_X` (R234): OFF 31:0. -/
def SCN_DRIFT_OFF_X (n : Nat) : Nat := 0x100040 + 0x4000 * n
/-- `SCN_DRIFT_OFF_Y` (R234): OFF 31:0. -/
def SCN_DRIFT_OFF_Y (n : Nat) : Nat := 0x100044 + 0x4000 * n
/-- `SCN_DRIFT_OFF_Z` (R234): OFF 31:0. -/
def SCN_DRIFT_OFF_Z (n : Nat) : Nat := 0x100048 + 0x4000 * n
/-- `SCN_DRIFT_GAIN_X` (R234): GAIN 31:0. -/
def SCN_DRIFT_GAIN_X (n : Nat) : Nat := 0x10004C + 0x4000 * n
/-- `SCN_DRIFT_GAIN_Y` (R234): GAIN 31:0. -/
def SCN_DRIFT_GAIN_Y (n : Nat) : Nat := 0x100050 + 0x4000 * n
/-- `SCN_DRIFT_GAIN_Z` (R234): GAIN 31:0. -/
def SCN_DRIFT_GAIN_Z (n : Nat) : Nat := 0x100054 + 0x4000 * n
/-- `SCN_DRIFT_ROT_X` (R234): ROT 31:0. -/
def SCN_DRIFT_ROT_X (n : Nat) : Nat := 0x100058 + 0x4000 * n
/-- `SCN_DRIFT_ROT_Y` (R234): ROT 31:0. -/
def SCN_DRIFT_ROT_Y (n : Nat) : Nat := 0x10005C + 0x4000 * n
/-- `SCN_CMD_X` (R234): POS 31:0. -/
def SCN_CMD_X (n : Nat) : Nat := 0x100080 + 0x4000 * n
/-- `SCN_CMD_Y` (R234): POS 31:0. -/
def SCN_CMD_Y (n : Nat) : Nat := 0x100084 + 0x4000 * n
/-- `SCN_CMD_Z` (R234): POS 31:0. -/
def SCN_CMD_Z (n : Nat) : Nat := 0x100088 + 0x4000 * n
/-- `SCN_RPT_X` (R234): POS 31:0. -/
def SCN_RPT_X (n : Nat) : Nat := 0x10008C + 0x4000 * n
/-- `SCN_RPT_Y` (R234): POS 31:0. -/
def SCN_RPT_Y (n : Nat) : Nat := 0x100090 + 0x4000 * n
/-- `SCN_RPT_Z` (R234): POS 31:0. -/
def SCN_RPT_Z (n : Nat) : Nat := 0x100094 + 0x4000 * n
/-- `SCN_DEV_MAX` (R234): MAX 31:0. -/
def SCN_DEV_MAX (n : Nat) : Nat := 0x100098 + 0x4000 * n
/-- `SCN_LINK_ERRS` (R234): COUNT 31:0. -/
def SCN_LINK_ERRS (n : Nat) : Nat := 0x10009C + 0x4000 * n
/-- `SCN_DIAG` (R234): DIAG 31:0. -/
def SCN_DIAG (n : Nat) : Nat := 0x1000A0 + 0x4000 * n
/-- `SCN_DIAG_ID` (R234): ID 7:0. -/
def SCN_DIAG_ID (n : Nat) : Nat := 0x1000A4 + 0x4000 * n
/-- `SCN_MAP_ID` (R234): MAP_ID 31:0. -/
def SCN_MAP_ID (n : Nat) : Nat := 0x1000A8 + 0x4000 * n
/-- `LAS_STS` (R261): CFG_IGNORED 9, SHUTTER 8, GRANT_HELD 7, WAIT_GRANT 6, EMIT 5, GATE 4, RDY 3, ALARM 2. -/
def LAS_STS (n : Nat) : Nat := 0x100800 + 0x4000 * n
/-- `LAS_CFG` (R261): ALM_FILTER 31:24, EMIT_MODE 8, LP_INVERT 4, MODE 1:0. -/
def LAS_CFG (n : Nat) : Nat := 0x100804 + 0x4000 * n
/-- `LAS_PFS` (R261): PFS 15:0. -/
def LAS_PFS (n : Nat) : Nat := 0x100808 + 0x4000 * n
/-- `LAS_PMAX` (R261): PMAX 31:0. -/
def LAS_PMAX (n : Nat) : Nat := 0x10080C + 0x4000 * n
/-- `LAS_EMIT_LEAD` (R261): LEAD 15:0. -/
def LAS_EMIT_LEAD (n : Nat) : Nat := 0x100810 + 0x4000 * n
/-- `LAS_GRANT` (R261): GRANT 31:0. -/
def LAS_GRANT (n : Nat) : Nat := 0x100820 + 0x4000 * n
/-- `LAS_APPLIED` (R261): PA 31:0. -/
def LAS_APPLIED (n : Nat) : Nat := 0x100824 + 0x4000 * n
/-- `LAS_WORD` (R261): CLAMP 17:16, WORD 15:0. -/
def LAS_WORD (n : Nat) : Nat := 0x100828 + 0x4000 * n
/-- `AFE_STS` (R310): RATIO_REJECT1 15, RATIO_REJECT0 7, DARK_SHORT1 14, DARK_SHORT0 6, OVERRANGE1 13, OVERRANGE0 5, RANGE1 12, RANGE0 4, RUNNING1 11, RUNNING0 3, PENDING1 10, PENDING0 2, STALE1 9, STALE0 1, VALID1 8, VALID0 0. -/
def AFE_STS (n : Nat) : Nat := 0x101000 + 0x4000 * n
/-- `AFE_CFG` (R310): CAL_DELTA 31:24, OFF_SETTLE 23:16, AUTO_EN 2, EN1 1, EN0 0. -/
def AFE_CFG (n : Nat) : Nat := 0x101004 + 0x4000 * n
/-- `AFE_LIMITS` (R310): DARK_MIN 31:16, SAT_CODE 15:0. -/
def AFE_LIMITS (n : Nat) : Nat := 0x101008 + 0x4000 * n
/-- `AFE_PD_VALUE` (R310): VALUE 31:0. -/
def AFE_PD_VALUE (n : Nat) (i : Nat) : Nat := 0x101010 + 0x4000 * n + 0x4 * i
/-- `AFE_PD_RAW` (R310): LOW 31:16, HIGH 15:0. -/
def AFE_PD_RAW (n : Nat) (i : Nat) : Nat := 0x101018 + 0x4000 * n + 0x4 * i
/-- `AFE_PD_OFF_H` (R310): OFF 23:0. -/
def AFE_PD_OFF_H (n : Nat) (i : Nat) : Nat := 0x101040 + 0x4000 * n + 0x20 * i
/-- `AFE_PD_OFF_L` (R310): OFF 23:0. -/
def AFE_PD_OFF_L (n : Nat) (i : Nat) : Nat := 0x101044 + 0x4000 * n + 0x20 * i
/-- `AFE_PD_RATIO` (R310): RATIO 23:0. -/
def AFE_PD_RATIO (n : Nat) (i : Nat) : Nat := 0x101048 + 0x4000 * n + 0x20 * i
/-- `AFE_PD_CAL_TEMP` (R310): TEMP 15:0. -/
def AFE_PD_CAL_TEMP (n : Nat) (i : Nat) : Nat := 0x10104C + 0x4000 * n + 0x20 * i
/-- `AFE_PD_ZERO` (R310): LOW 31:16, HIGH 15:0. -/
def AFE_PD_ZERO (n : Nat) (i : Nat) : Nat := 0x101050 + 0x4000 * n + 0x20 * i
/-- `AFE_PD_DARK_COUNT` (R310): COUNT 31:0. -/
def AFE_PD_DARK_COUNT (n : Nat) (i : Nat) : Nat := 0x101054 + 0x4000 * n + 0x20 * i
/-- `AFE_PD_CAL_TIME_LO` (R310): TIME 31:0. -/
def AFE_PD_CAL_TIME_LO (n : Nat) (i : Nat) : Nat := 0x101058 + 0x4000 * n + 0x20 * i
/-- `AFE_PD_CAL_TIME_HI` (R310): TIME 31:0. -/
def AFE_PD_CAL_TIME_HI (n : Nat) (i : Nat) : Nat := 0x10105C + 0x4000 * n + 0x20 * i
/-- `AFE_CAL_RUNS` (R310): FORCED 31:16, RUNS 15:0. -/
def AFE_CAL_RUNS (n : Nat) : Nat := 0x101080 + 0x4000 * n
/-- `LOOP_STS` (R355): QUAD_LOOPS 31:24, SEL_VALID 20, SEL 19:18, CFG_IGNORED 17, STATE3 15:12, STATE2 11:8, STATE1 7:4, STATE0 3:0. -/
def LOOP_STS (n : Nat) : Nat := 0x101800 + 0x4000 * n
/-- `LOOP_CFG` (R355): HOLD_LIMIT 31:16, L1_PDCHK 8, START_TICKS 7:0. -/
def LOOP_CFG (n : Nat) : Nat := 0x101804 + 0x4000 * n
/-- `LOOP_L1_PDMIN` (R355): PDMIN 31:0. -/
def LOOP_L1_PDMIN (n : Nat) : Nat := 0x101808 + 0x4000 * n
/-- `LOOP_PREQ` (R355): PREQ 31:0. -/
def LOOP_PREQ (n : Nat) : Nat := 0x10180C + 0x4000 * n
/-- `LOOP_SAT` (R355): SAT 3:0. -/
def LOOP_SAT (n : Nat) : Nat := 0x101810 + 0x4000 * n
/-- `LOOPK_CFG` (R355): SIGN 31, SRC 9:8, MODE 1:0. -/
def LOOPK_CFG (n : Nat) (k : Nat) : Nat := 0x101840 + 0x4000 * n + 0x40 * k
/-- `LOOP_LIM` (R355): LIM_HI 25:16, LIM_LO 8:0. -/
def LOOP_LIM (n : Nat) (k : Nat) : Nat := 0x101844 + 0x4000 * n + 0x40 * k
/-- `LOOP_SLEW` (R355): SLEW 31:0. -/
def LOOP_SLEW (n : Nat) (k : Nat) : Nat := 0x101848 + 0x4000 * n + 0x40 * k
/-- `LOOP_MAN` (R355): MAN 9:0. -/
def LOOP_MAN (n : Nat) (k : Nat) : Nat := 0x10184C + 0x4000 * n + 0x40 * k
/-- `LOOP_KP` (R355): KP 31:0. -/
def LOOP_KP (n : Nat) (k : Nat) : Nat := 0x101850 + 0x4000 * n + 0x40 * k
/-- `LOOP_KI` (R355): KI 31:0. -/
def LOOP_KI (n : Nat) (k : Nat) : Nat := 0x101854 + 0x4000 * n + 0x40 * k
/-- `LOOP_KD` (R355): KD 31:0. -/
def LOOP_KD (n : Nat) (k : Nat) : Nat := 0x101858 + 0x4000 * n + 0x40 * k
/-- `LOOP_KF` (R355): KF 15:0. -/
def LOOP_KF (n : Nat) (k : Nat) : Nat := 0x10185C + 0x4000 * n + 0x40 * k
/-- `LOOP_SP_OVR` (R355): VALUE 31:0. -/
def LOOP_SP_OVR (n : Nat) (k : Nat) : Nat := 0x101860 + 0x4000 * n + 0x40 * k
/-- `LOOP_SP_CTL` (R355): OVR_EN 0. -/
def LOOP_SP_CTL (n : Nat) (k : Nat) : Nat := 0x101864 + 0x4000 * n + 0x40 * k
/-- `LOOP_INPUT` (R355): Y 31:0. -/
def LOOP_INPUT (n : Nat) (k : Nat) : Nat := 0x101868 + 0x4000 * n + 0x40 * k
/-- `LOOP_SETPT` (R355): R 31:0. -/
def LOOP_SETPT (n : Nat) (k : Nat) : Nat := 0x10186C + 0x4000 * n + 0x40 * k
/-- `LOOP_INTEG` (R355): I 31:0. -/
def LOOP_INTEG (n : Nat) (k : Nat) : Nat := 0x101870 + 0x4000 * n + 0x40 * k
/-- `LOOP_OUT` (R355): OUT 31:0. -/
def LOOP_OUT (n : Nat) (k : Nat) : Nat := 0x101874 + 0x4000 * n + 0x40 * k
/-- `LN_CFG` (R202): REMARK_OVERLAP 15:8, ENABLE 0. -/
def LN_CFG (n : Nat) : Nat := 0x102000 + 0x4000 * n
/-- `LN_STS` (R202): ENGINE 31:27, LSTATE 23:20, FILL 14:0. -/
def LN_STS (n : Nat) : Nat := 0x102004 + 0x4000 * n
/-- `LN_SPLIT_ID` (R202): ID 31:0. -/
def LN_SPLIT_ID (n : Nat) : Nat := 0x102010 + 0x4000 * n
/-- `LN_SPLIT_X` (R202): POS 31:0. -/
def LN_SPLIT_X (n : Nat) : Nat := 0x102014 + 0x4000 * n
/-- `LN_SPLIT_Y` (R202): POS 31:0. -/
def LN_SPLIT_Y (n : Nat) : Nat := 0x102018 + 0x4000 * n
/-- `LN_UNDERRUNS` (R202): COUNT 31:0. -/
def LN_UNDERRUNS (n : Nat) : Nat := 0x10201C + 0x4000 * n

/-- Registers of block LANE, part 1. -/
def laneRows1 : List RegRow := [
  ⟨SCN_STS 0, 24, 0x4000, 1, 0x0, [fW1C 12 12, fRO 11 11 0, fRO 10 10 0, fRO 9 9 0, fRO 8 8 0, fRO 7 7 0, fRO 6 6 0, fRO 5 5 0, fRO 1 0 0]⟩,
  ⟨SCN_LINK_CFG 0, 24, 0x4000, 1, 0x0, [fRW .l 8 8 0, fRW .s 3 3 0, fRW .s 2 2 0, fRW .s 1 0 0]⟩,
  ⟨SCN_VMAX_MARK 0, 24, 0x4000, 1, 0x0, [fRW (.c 2) 31 0 20000000]⟩,
  ⟨SCN_VMAX_JUMP 0, 24, 0x4000, 1, 0x0, [fRW (.c 2) 31 0 40000000]⟩,
  ⟨SCN_ACCEL 0, 24, 0x4000, 1, 0x0, [fRW (.c 2) 31 0 40000]⟩,
  ⟨SCN_JERK 0, 24, 0x4000, 1, 0x0, [fRW (.c 2) 31 0 400000]⟩,
  ⟨SCN_ZVMAX 0, 24, 0x4000, 1, 0x0, [fRW (.c 2) 31 0 1000000]⟩,
  ⟨SCN_ZACCEL 0, 24, 0x4000, 1, 0x0, [fRW (.c 2) 31 0 20000]⟩,
  ⟨SCN_ZJERK 0, 24, 0x4000, 1, 0x0, [fRW (.c 2) 31 0 400000]⟩,
  ⟨SCN_DEV_CFG 0, 24, 0x4000, 1, 0x0, [fRW (.c 2) 31 31 0, fRW (.c 2) 25 16 0, fRW (.c 2) 15 8 8, fRW (.c 2) 7 0 4]⟩,
  ⟨SCN_DEV_WIN 0, 24, 0x4000, 1, 0x0, [fRW (.c 2) 31 16 4096, fRW (.c 2) 15 0 4096]⟩,
  ⟨SCN_DRIFT_OFF_X 0, 24, 0x4000, 1, 0x0, [fRW .l 31 0 0]⟩,
  ⟨SCN_DRIFT_OFF_Y 0, 24, 0x4000, 1, 0x0, [fRW .l 31 0 0]⟩,
  ⟨SCN_DRIFT_OFF_Z 0, 24, 0x4000, 1, 0x0, [fRW .l 31 0 0]⟩,
  ⟨SCN_DRIFT_GAIN_X 0, 24, 0x4000, 1, 0x0, [fRW .l 31 0 0]⟩,
  ⟨SCN_DRIFT_GAIN_Y 0, 24, 0x4000, 1, 0x0, [fRW .l 31 0 0]⟩,
  ⟨SCN_DRIFT_GAIN_Z 0, 24, 0x4000, 1, 0x0, [fRW .l 31 0 0]⟩,
  ⟨SCN_DRIFT_ROT_X 0, 24, 0x4000, 1, 0x0, [fRW .l 31 0 0]⟩,
  ⟨SCN_DRIFT_ROT_Y 0, 24, 0x4000, 1, 0x0, [fRW .l 31 0 0]⟩,
  ⟨SCN_CMD_X 0, 24, 0x4000, 1, 0x0, [fRO 31 0 0]⟩]

/-- Registers of block LANE, part 2. -/
def laneRows2 : List RegRow := [
  ⟨SCN_CMD_Y 0, 24, 0x4000, 1, 0x0, [fRO 31 0 0]⟩,
  ⟨SCN_CMD_Z 0, 24, 0x4000, 1, 0x0, [fRO 31 0 0]⟩,
  ⟨SCN_RPT_X 0, 24, 0x4000, 1, 0x0, [fRO 31 0 0]⟩,
  ⟨SCN_RPT_Y 0, 24, 0x4000, 1, 0x0, [fRO 31 0 0]⟩,
  ⟨SCN_RPT_Z 0, 24, 0x4000, 1, 0x0, [fRO 31 0 0]⟩,
  ⟨SCN_DEV_MAX 0, 24, 0x4000, 1, 0x0, [fRO 31 0 0]⟩,
  ⟨SCN_LINK_ERRS 0, 24, 0x4000, 1, 0x0, [fRO 31 0 0]⟩,
  ⟨SCN_DIAG 0, 24, 0x4000, 1, 0x0, [fRO 31 0 0]⟩,
  ⟨SCN_DIAG_ID 0, 24, 0x4000, 1, 0x0, [fRO 7 0 0]⟩,
  ⟨SCN_MAP_ID 0, 24, 0x4000, 1, 0x0, [fRO 31 0 0]⟩,
  ⟨LAS_STS 0, 24, 0x4000, 1, 0x0, [fW1C 9 9, fRO 8 8 0, fRO 7 7 0, fRO 6 6 0, fRO 5 5 0, fRO 4 4 0, fRO 3 3 0, fRO 2 2 0]⟩,
  ⟨LAS_CFG 0, 24, 0x4000, 1, 0x0, [fRW (.c 3) 31 24 4, fRW (.c 3) 8 8 0, fRW .s 4 4 0, fRW .s 1 0 0]⟩,
  ⟨LAS_PFS 0, 24, 0x4000, 1, 0x0, [fRW (.c 3) 15 0 1]⟩,
  ⟨LAS_PMAX 0, 24, 0x4000, 1, 0x0, [fRW (.c 3) 31 0 0]⟩,
  ⟨LAS_EMIT_LEAD 0, 24, 0x4000, 1, 0x0, [fRW (.c 3) 15 0 0]⟩,
  ⟨LAS_GRANT 0, 24, 0x4000, 1, 0x0, [fRO 31 0 0]⟩,
  ⟨LAS_APPLIED 0, 24, 0x4000, 1, 0x0, [fRO 31 0 0]⟩,
  ⟨LAS_WORD 0, 24, 0x4000, 1, 0x0, [fRO 17 16 0, fRO 15 0 0]⟩,
  ⟨AFE_STS 0, 24, 0x4000, 1, 0x0, [fW1C 15 15, fW1C 7 7, fW1C 14 14, fW1C 6 6, fW1C 13 13, fW1C 5 5, fRO 12 12 0, fRO 4 4 0, fRO 11 11 0, fRO 3 3 0, fRO 10 10 0, fRO 2 2 0, fRO 9 9 1, fRO 1 1 1, fRO 8 8 0, fRO 0 0 0]⟩,
  ⟨AFE_CFG 0, 24, 0x4000, 1, 0x0, [fRW (.c 6) 31 24 4, fRW (.c 6) 23 16 20, fRW (.c 6) 2 2 1, fRW (.c 6) 1 1 1, fRW (.c 6) 0 0 1]⟩]

/-- Registers of block LANE, part 3. -/
def laneRows3 : List RegRow := [
  ⟨AFE_LIMITS 0, 24, 0x4000, 1, 0x0, [fRW (.c 6) 31 16 256, fRW (.c 6) 15 0 64512]⟩,
  ⟨AFE_PD_VALUE 0 0, 24, 0x4000, 2, 0x4, [fRO 31 0 0]⟩,
  ⟨AFE_PD_RAW 0 0, 24, 0x4000, 2, 0x4, [fRO 31 16 0, fRO 15 0 0]⟩,
  ⟨AFE_PD_OFF_H 0 0, 24, 0x4000, 2, 0x20, [fRO 23 0 0]⟩,
  ⟨AFE_PD_OFF_L 0 0, 24, 0x4000, 2, 0x20, [fRO 23 0 0]⟩,
  ⟨AFE_PD_RATIO 0 0, 24, 0x4000, 2, 0x20, [fRO 23 0 1048576]⟩,
  ⟨AFE_PD_CAL_TEMP 0 0, 24, 0x4000, 2, 0x20, [fRO 15 0 0]⟩,
  ⟨AFE_PD_ZERO 0 0, 24, 0x4000, 2, 0x20, [fRO 31 16 0, fRO 15 0 0]⟩,
  ⟨AFE_PD_DARK_COUNT 0 0, 24, 0x4000, 2, 0x20, [fRO 31 0 0]⟩,
  ⟨AFE_PD_CAL_TIME_LO 0 0, 24, 0x4000, 2, 0x20, [fRO 31 0 0]⟩,
  ⟨AFE_PD_CAL_TIME_HI 0 0, 24, 0x4000, 2, 0x20, [fRO 31 0 0]⟩,
  ⟨AFE_CAL_RUNS 0, 24, 0x4000, 1, 0x0, [fRO 31 16 0, fRO 15 0 0]⟩,
  ⟨LOOP_STS 0, 24, 0x4000, 1, 0x0, [fRO 31 24 0, fRO 20 20 0, fRO 19 18 0, fW1C 17 17, fRO 15 12 1, fRO 11 8 1, fRO 7 4 1, fRO 3 0 1]⟩,
  ⟨LOOP_CFG 0, 24, 0x4000, 1, 0x0, [fRW .s 31 16 0, fRW .s 8 8 0, fRW .s 7 0 8]⟩,
  ⟨LOOP_L1_PDMIN 0, 24, 0x4000, 1, 0x0, [fRW .s 31 0 0]⟩,
  ⟨LOOP_PREQ 0, 24, 0x4000, 1, 0x0, [fRO 31 0 0]⟩,
  ⟨LOOP_SAT 0, 24, 0x4000, 1, 0x0, [fRO 3 0 0]⟩,
  ⟨LOOPK_CFG 0 0, 24, 0x4000, 3, 0x40, [fRW .s 31 31 0, fRW .l 1 0 1]⟩,
  ⟨LOOPK_CFG 0 3, 24, 0x4000, 1, 0x0, [fRW .s 31 31 0, fRW .s 9 8 0, fRW .l 1 0 1]⟩,
  ⟨LOOP_LIM 0 0, 24, 0x4000, 4, 0x40, [fRW (.c 7) 25 16 320, fRW (.c 7) 8 0 128]⟩,
  ⟨LOOP_SLEW 0 0, 24, 0x4000, 4, 0x40, [fRW (.c 7) 31 0 0]⟩]

/-- Registers of block LANE, part 4. -/
def laneRows4 : List RegRow := [
  ⟨LOOP_MAN 0 0, 24, 0x4000, 4, 0x40, [fRW .l 9 0 256]⟩,
  ⟨LOOP_KP 0 0, 24, 0x4000, 4, 0x40, [fRW .l 31 0 0]⟩,
  ⟨LOOP_KI 0 0, 24, 0x4000, 4, 0x40, [fRW .l 31 0 0]⟩,
  ⟨LOOP_KD 0 0, 24, 0x4000, 4, 0x40, [fRW .l 31 0 0]⟩,
  ⟨LOOP_KF 0 0, 24, 0x4000, 4, 0x40, [fRW .l 15 0 0]⟩,
  ⟨LOOP_SP_OVR 0 0, 24, 0x4000, 4, 0x40, [fRW .l 31 0 0]⟩,
  ⟨LOOP_SP_CTL 0 0, 24, 0x4000, 4, 0x40, [fRW .l 0 0 0]⟩,
  ⟨LOOP_INPUT 0 0, 24, 0x4000, 4, 0x40, [fRO 31 0 0]⟩,
  ⟨LOOP_SETPT 0 0, 24, 0x4000, 4, 0x40, [fRO 31 0 0]⟩,
  ⟨LOOP_INTEG 0 0, 24, 0x4000, 4, 0x40, [fRO 31 0 0]⟩,
  ⟨LOOP_OUT 0 0, 24, 0x4000, 4, 0x40, [fRO 31 0 0]⟩,
  ⟨LN_CFG 0, 24, 0x4000, 1, 0x0, [fRW (.c 1) 15 8 5, fRW (.c 1) 0 0 0]⟩,
  ⟨LN_STS 0, 24, 0x4000, 1, 0x0, [fIX 31 27, fRO 23 20 0, fRO 14 0 0]⟩,
  ⟨LN_SPLIT_ID 0, 24, 0x4000, 1, 0x0, [fRO 31 0 0]⟩,
  ⟨LN_SPLIT_X 0, 24, 0x4000, 1, 0x0, [fRO 31 0 0]⟩,
  ⟨LN_SPLIT_Y 0, 24, 0x4000, 1, 0x0, [fRO 31 0 0]⟩,
  ⟨LN_UNDERRUNS 0, 24, 0x4000, 1, 0x0, [fRO 31 0 0]⟩]

/-- Registers of block LANE. -/
def laneRows : List RegRow := laneRows1 ++ laneRows2 ++ laneRows3 ++ laneRows4

/-! ### CAM -/

/-- `CAM_STS` (R330): CFG_IGNORED 8, LANE_SYNC 7:4, CLK_HS 0. -/
def CAM_STS (q : Nat) : Nat := 0x180000 + 0x1000 * q
/-- `CAM_CFG` (R330): RATE 27:16, LANES 1:0. -/
def CAM_CFG (q : Nat) : Nat := 0x180004 + 0x1000 * q
/-- `CAM_BUS_CFG` (R330): BUS_MODE 31, SCL 15:0. -/
def CAM_BUS_CFG (q : Nat) : Nat := 0x180008 + 0x1000 * q
/-- `CAM_HDR_CORR` (R330): COUNT 31:0. -/
def CAM_HDR_CORR (q : Nat) : Nat := 0x180010 + 0x1000 * q
/-- `CAM_HDR_UNCORR` (R330): COUNT 31:0. -/
def CAM_HDR_UNCORR (q : Nat) : Nat := 0x180014 + 0x1000 * q
/-- `CAM_CRC_ERR` (R330): COUNT 31:0. -/
def CAM_CRC_ERR (q : Nat) : Nat := 0x180018 + 0x1000 * q
/-- `CAM_IGNORED` (R330): COUNT 31:0. -/
def CAM_IGNORED (q : Nat) : Nat := 0x18001C + 0x1000 * q

/-- Registers of block CAM. -/
def camRows : List RegRow := [
  ⟨CAM_STS 0, 6, 0x1000, 1, 0x0, [fW1C 8 8, fRO 7 4 0, fRO 0 0 0]⟩,
  ⟨CAM_CFG 0, 6, 0x1000, 1, 0x0, [fRW .s 27 16 1500, fRW .s 1 0 3]⟩,
  ⟨CAM_BUS_CFG 0, 6, 0x1000, 1, 0x0, [fRW .s 31 31 0, fRW .s 15 0 400]⟩,
  ⟨CAM_HDR_CORR 0, 6, 0x1000, 1, 0x0, [fRO 31 0 0]⟩,
  ⟨CAM_HDR_UNCORR 0, 6, 0x1000, 1, 0x0, [fRO 31 0 0]⟩,
  ⟨CAM_CRC_ERR 0, 6, 0x1000, 1, 0x0, [fRO 31 0 0]⟩,
  ⟨CAM_IGNORED 0, 6, 0x1000, 1, 0x0, [fRO 31 0 0]⟩]

/-! ### ISP -/

/-- `ISP_PIPE_STS` (R331): CONTEXTS 31:16, LOAD 7:0. -/
def ISP_PIPE_STS (p : Nat) : Nat := 0x190000 + 0x100 * p
/-- `ISP_PIPE_CTX_HI` (R331): CONTEXTS 15:0. -/
def ISP_PIPE_CTX_HI (p : Nat) : Nat := 0x190004 + 0x100 * p
/-- `ISP_POOL_USED` (R331): KIB 12:0. -/
def ISP_POOL_USED : Nat := 0x190200
/-- `ISP_CTX_CFG` (R331): EN 31, PIPE 30, BACKGROUND 29, PRIORITY 28:26, PORT 25:23, VC 22:19, DT 15:8, BITS 4:0. -/
def ISP_CTX_CFG (c : Nat) : Nat := 0x198000 + 0x400 * c
/-- `ISP_CTX_GEOM` (R331): HEIGHT 31:16, WIDTH 15:0. -/
def ISP_CTX_GEOM (c : Nat) : Nat := 0x198004 + 0x400 * c
/-- `ISP_CTX_APER0` (R331): Y0 31:16, X0 15:0. -/
def ISP_CTX_APER0 (c : Nat) : Nat := 0x198008 + 0x400 * c
/-- `ISP_CTX_APER1` (R331): AH 31:16, AW 15:0. -/
def ISP_CTX_APER1 (c : Nat) : Nat := 0x19800C + 0x400 * c
/-- `ISP_CTX_ZONES` (R331): ZY 31:28, ZX 27:24, THRESH 15:0. -/
def ISP_CTX_ZONES (c : Nat) : Nat := 0x198010 + 0x400 * c
/-- `ISP_CTX_TIMING` (R331): K_LAT 31:30, POS_OFFSET 29:23, FRAME_TIMEOUT 19:0. -/
def ISP_CTX_TIMING (c : Nat) : Nat := 0x198014 + 0x400 * c
/-- `ISP_CTX_BUF` (R331): INBUF 12:0. -/
def ISP_CTX_BUF (c : Nat) : Nat := 0x198018 + 0x400 * c
/-- `ISP_CTX_ROUTE` (R331): LANE 15:8, L1_METRIC 7:6, ROUTES 2:0. -/
def ISP_CTX_ROUTE (c : Nat) : Nat := 0x19801C + 0x400 * c
/-- `ISP_CTX_STS` (R331): SENSOR_GEN 31:16, GEN 15:0. -/
def ISP_CTX_STS (c : Nat) : Nat := 0x198020 + 0x400 * c
/-- `ISP_CTX_STS2` (R331): PIPE_IN_USE 4, PENDING 3, SENSOR_UNSURE 2, TRANSITION 1, LATE 0. -/
def ISP_CTX_STS2 (c : Nat) : Nat := 0x198024 + 0x400 * c
/-- `ISP_CTX_FRAME` (R331): FRAME 31:0. -/
def ISP_CTX_FRAME (c : Nat) : Nat := 0x198028 + 0x400 * c
/-- `ISP_CTX_COUNTS` (R331): WRITE_LATE 31:24, LATE 23:12, TRUNC 11:0. -/
def ISP_CTX_COUNTS (c : Nat) : Nat := 0x19802C + 0x400 * c

/-- Registers of block ISP. -/
def ispRows : List RegRow := [
  ⟨ISP_PIPE_STS 0, 2, 0x100, 1, 0x0, [fRO 31 16 0, fRO 7 0 0]⟩,
  ⟨ISP_PIPE_CTX_HI 0, 2, 0x100, 1, 0x0, [fRO 15 0 0]⟩,
  ⟨ISP_POOL_USED, 1, 0x0, 1, 0x0, [fRO 12 0 0]⟩,
  ⟨ISP_CTX_CFG 0, 32, 0x400, 1, 0x0, [fRW .ctx 31 31 0, fRW .ctx 30 30 0, fRW .ctx 29 29 0, fRW .ctx 28 26 0, fRW .ctx 25 23 0, fRW .ctx 22 19 0, fRW .ctx 15 8 44, fRW .ctx 4 0 12]⟩,
  ⟨ISP_CTX_GEOM 0, 32, 0x400, 1, 0x0, [fRW .ctx 31 16 64, fRW .ctx 15 0 64]⟩,
  ⟨ISP_CTX_APER0 0, 32, 0x400, 1, 0x0, [fRW .ctx 31 16 0, fRW .ctx 15 0 0]⟩,
  ⟨ISP_CTX_APER1 0, 32, 0x400, 1, 0x0, [fRW .ctx 31 16 64, fRW .ctx 15 0 64]⟩,
  ⟨ISP_CTX_ZONES 0, 32, 0x400, 1, 0x0, [fRW .ctx 31 28 0, fRW .ctx 27 24 0, fRW .ctx 15 0 65535]⟩,
  ⟨ISP_CTX_TIMING 0, 32, 0x400, 1, 0x0, [fRW .ctx 31 30 1, fRW .ctx 29 23 0, fRW .ctx 19 0 1000]⟩,
  ⟨ISP_CTX_BUF 0, 32, 0x400, 1, 0x0, [fRW .ctx 12 0 4]⟩,
  ⟨ISP_CTX_ROUTE 0, 32, 0x400, 1, 0x0, [fRW .ctx 15 8 255, fRW .ctx 7 6 0, fRW .ctx 2 0 0]⟩,
  ⟨ISP_CTX_STS 0, 32, 0x400, 1, 0x0, [fRO 31 16 0, fRO 15 0 0]⟩,
  ⟨ISP_CTX_STS2 0, 32, 0x400, 1, 0x0, [fRO 4 4 0, fRO 3 3 0, fRO 2 2 0, fRO 1 1 0, fRO 0 0 0]⟩,
  ⟨ISP_CTX_FRAME 0, 32, 0x400, 1, 0x0, [fRO 31 0 0]⟩,
  ⟨ISP_CTX_COUNTS 0, 32, 0x400, 1, 0x0, [fRO 31 24 0, fRO 23 12 0, fRO 11 0 0]⟩]

/-! ### AX -/

/-- `AX_STS` (R409): STATE 31:28, FAULT 27:24, POS_VALID 23, HOMED 22, RESUMABLE 21, LOCK_P 20, LOCK_N 19, ACCEL_OVERRIDE 18, SYNC_SHORT 17, DEV_ACTIVE 16, EN 15, DIR 14, LIMP 13, LIMN 12, HOME 11. -/
def AX_STS (k : Nat) : Nat := 0x1C0000 + 0x400 * k
/-- `AX_CFG` (R409): LAYER_LOCK 9, FAULT_CLASS 8, SOFT_EN 7, DEV_EN 6, ENC_MODE 5:4, ENC_INVERT 3, STEP_INVERT 2, DIR_INVERT 1, ENABLE 0. -/
def AX_CFG (k : Nat) : Nat := 0x1C0004 + 0x400 * k
/-- `AX_STEP_TIMING` (R409): DIR_SETUP 31:16, STEP_HIGH 15:0. -/
def AX_STEP_TIMING (k : Nat) : Nat := 0x1C0008 + 0x400 * k
/-- `AX_ENC_RATIO` (R409): RATIO 31:0. -/
def AX_ENC_RATIO (k : Nat) : Nat := 0x1C000C + 0x400 * k
/-- `AX_VMAX` (R409): VMAX 31:0. -/
def AX_VMAX (k : Nat) : Nat := 0x1C0010 + 0x400 * k
/-- `AX_VSTART` (R409): VSTART 31:0. -/
def AX_VSTART (k : Nat) : Nat := 0x1C0014 + 0x400 * k
/-- `AX_VSTOP` (R409): VSTOP 31:0. -/
def AX_VSTOP (k : Nat) : Nat := 0x1C0018 + 0x400 * k
/-- `AX_ACCEL` (R409): ACCEL 31:0. -/
def AX_ACCEL (k : Nat) : Nat := 0x1C001C + 0x400 * k
/-- `AX_DECEL` (R409): DECEL 31:0. -/
def AX_DECEL (k : Nat) : Nat := 0x1C0020 + 0x400 * k
/-- `AX_JERK` (R409): JERK 31:0. -/
def AX_JERK (k : Nat) : Nat := 0x1C0024 + 0x400 * k
/-- `AX_SOFT_MIN` (R409): MIN 31:0. -/
def AX_SOFT_MIN (k : Nat) : Nat := 0x1C0028 + 0x400 * k
/-- `AX_SOFT_MAX` (R409): MAX 31:0. -/
def AX_SOFT_MAX (k : Nat) : Nat := 0x1C002C + 0x400 * k
/-- `AX_DEV_WIN` (R409): TIME 23:16, WIN 15:0. -/
def AX_DEV_WIN (k : Nat) : Nat := 0x1C0030 + 0x400 * k
/-- `AX_SW_CFG` (R409): CHATTER_WIN 31:24, CHATTER_MAX 23:16, DEBOUNCE 15:8, HOME_EN 5, LIMN_EN 4, LIMP_EN 3, HOME_LOW 2, LIMN_LOW 1, LIMP_LOW 0. -/
def AX_SW_CFG (k : Nat) : Nat := 0x1C0034 + 0x400 * k
/-- `AX_SSI_CFG` (R409): GRAY 31, BITS 29:24, CLK 23:16, PERIOD 15:0. -/
def AX_SSI_CFG (k : Nat) : Nat := 0x1C0038 + 0x400 * k
/-- `AX_HOME_CFG` (R409): REF 31:30, DIR 29, INDEX 28. -/
def AX_HOME_CFG (k : Nat) : Nat := 0x1C0040 + 0x400 * k
/-- `AX_HOME_FAST` (R409): SPEED 31:0. -/
def AX_HOME_FAST (k : Nat) : Nat := 0x1C0044 + 0x400 * k
/-- `AX_HOME_SLOW` (R409): SPEED 31:0. -/
def AX_HOME_SLOW (k : Nat) : Nat := 0x1C0048 + 0x400 * k
/-- `AX_HOME_BACKOFF` (R409): STEPS 31:0. -/
def AX_HOME_BACKOFF (k : Nat) : Nat := 0x1C004C + 0x400 * k
/-- `AX_HOME_TRAVEL` (R409): STEPS 31:0. -/
def AX_HOME_TRAVEL (k : Nat) : Nat := 0x1C0050 + 0x400 * k
/-- `AX_HOME_POS` (R409): POS 31:0. -/
def AX_HOME_POS (k : Nat) : Nat := 0x1C0054 + 0x400 * k
/-- `AX_POS` (R409): POS 31:0. -/
def AX_POS (k : Nat) : Nat := 0x1C0080 + 0x400 * k
/-- `AX_TARGET` (R409): POS 31:0. -/
def AX_TARGET (k : Nat) : Nat := 0x1C0084 + 0x400 * k
/-- `AX_REMAIN` (R409): STEPS 31:0. -/
def AX_REMAIN (k : Nat) : Nat := 0x1C0088 + 0x400 * k
/-- `AX_VEL` (R409): VEL 31:0. -/
def AX_VEL (k : Nat) : Nat := 0x1C008C + 0x400 * k
/-- `AX_ENC_POS` (R409): POS 31:0. -/
def AX_ENC_POS (k : Nat) : Nat := 0x1C0090 + 0x400 * k
/-- `AX_ENC_RAW` (R409): COUNT 31:0. -/
def AX_ENC_RAW (k : Nat) : Nat := 0x1C0094 + 0x400 * k
/-- `AX_DEV` (R409): DEV 31:0. -/
def AX_DEV (k : Nat) : Nat := 0x1C0098 + 0x400 * k
/-- `AX_DEV_MAX` (R409): MAX 31:0. -/
def AX_DEV_MAX (k : Nat) : Nat := 0x1C009C + 0x400 * k
/-- `AX_CAPTURE` (R409): POS 31:0. -/
def AX_CAPTURE (k : Nat) : Nat := 0x1C00A0 + 0x400 * k
/-- `AX_CAPTURE_ENC` (R409): COUNT 31:0. -/
def AX_CAPTURE_ENC (k : Nat) : Nat := 0x1C00A4 + 0x400 * k
/-- `AX_SW_STS` (R409): CHATTER 23:16, CHATTER_INPUT 7:6, HOME_RAW 5, LIMN_RAW 4, LIMP_RAW 3, HOME 2, LIMN 1, LIMP 0. -/
def AX_SW_STS (k : Nat) : Nat := 0x1C00A8 + 0x400 * k
/-- `AX_ENC_ERRS` (R409): COUNT 31:0. -/
def AX_ENC_ERRS (k : Nat) : Nat := 0x1C00AC + 0x400 * k
/-- `AX_GROUP_STS` (R410): START_PENDING 16, ARMED 7:0. -/
def AX_GROUP_STS : Nat := 0x1C2000
/-- `AX_GROUP_TIME_LO` (R410): TIME 31:0. -/
def AX_GROUP_TIME_LO : Nat := 0x1C2008
/-- `AX_GROUP_TIME_HI` (R410): TIME 31:0. -/
def AX_GROUP_TIME_HI : Nat := 0x1C200C

/-- Registers of block AX, part 1. -/
def axRows1 : List RegRow := [
  ⟨AX_STS 0, 8, 0x400, 1, 0x0, [fRO 31 28 0, fRO 27 24 0, fRO 23 23 0, fRO 22 22 0, fRO 21 21 0, fRO 20 20 0, fRO 19 19 0, fW1C 18 18, fW1C 17 17, fRO 16 16 0, fRO 15 15 0, fRO 14 14 0, fRO 13 13 0, fRO 12 12 0, fRO 11 11 0]⟩,
  ⟨AX_CFG 0, 8, 0x400, 1, 0x0, [fRW (.c 9) 9 9 0, fRW (.c 9) 8 8 0, fRW (.c 9) 7 7 0, fRW (.c 9) 6 6 0, fRW (.c 9) 5 4 0, fRW (.c 9) 3 3 0, fRW (.c 9) 2 2 0, fRW (.c 9) 1 1 0, fRW (.c 9) 0 0 0]⟩,
  ⟨AX_STEP_TIMING 0, 8, 0x400, 1, 0x0, [fRW (.c 9) 31 16 200, fRW (.c 9) 15 0 1000]⟩,
  ⟨AX_ENC_RATIO 0, 8, 0x400, 1, 0x0, [fRW (.c 9) 31 0 65536]⟩,
  ⟨AX_VMAX 0, 8, 0x400, 1, 0x0, [fRW (.c 9) 31 0 10000]⟩,
  ⟨AX_VSTART 0, 8, 0x400, 1, 0x0, [fRW (.c 9) 31 0 1000]⟩,
  ⟨AX_VSTOP 0, 8, 0x400, 1, 0x0, [fRW (.c 9) 31 0 1000]⟩,
  ⟨AX_ACCEL 0, 8, 0x400, 1, 0x0, [fRW (.c 9) 31 0 100000]⟩,
  ⟨AX_DECEL 0, 8, 0x400, 1, 0x0, [fRW (.c 9) 31 0 100000]⟩,
  ⟨AX_JERK 0, 8, 0x400, 1, 0x0, [fRW (.c 9) 31 0 10000]⟩,
  ⟨AX_SOFT_MIN 0, 8, 0x400, 1, 0x0, [fRW (.c 9) 31 0 2147483648]⟩,
  ⟨AX_SOFT_MAX 0, 8, 0x400, 1, 0x0, [fRW (.c 9) 31 0 2147483647]⟩,
  ⟨AX_DEV_WIN 0, 8, 0x400, 1, 0x0, [fRW (.c 9) 23 16 10, fRW (.c 9) 15 0 200]⟩,
  ⟨AX_SW_CFG 0, 8, 0x400, 1, 0x0, [fRW (.c 9) 31 24 100, fRW (.c 9) 23 16 20, fRW (.c 9) 15 8 50, fRW (.c 9) 5 5 0, fRW (.c 9) 4 4 0, fRW (.c 9) 3 3 0, fRW (.c 9) 2 2 0, fRW (.c 9) 1 1 0, fRW (.c 9) 0 0 0]⟩,
  ⟨AX_SSI_CFG 0, 8, 0x400, 1, 0x0, [fRW (.c 9) 31 31 0, fRW (.c 9) 29 24 25, fRW (.c 9) 23 16 10, fRW (.c 9) 15 0 50]⟩,
  ⟨AX_HOME_CFG 0, 8, 0x400, 1, 0x0, [fRW (.c 9) 31 30 0, fRW (.c 9) 29 29 0, fRW (.c 9) 28 28 0]⟩,
  ⟨AX_HOME_FAST 0, 8, 0x400, 1, 0x0, [fRW (.c 9) 31 0 5000]⟩,
  ⟨AX_HOME_SLOW 0, 8, 0x400, 1, 0x0, [fRW (.c 9) 31 0 500]⟩,
  ⟨AX_HOME_BACKOFF 0, 8, 0x400, 1, 0x0, [fRW (.c 9) 31 0 200]⟩,
  ⟨AX_HOME_TRAVEL 0, 8, 0x400, 1, 0x0, [fRW (.c 9) 31 0 1000000]⟩]

/-- Registers of block AX, part 2. -/
def axRows2 : List RegRow := [
  ⟨AX_HOME_POS 0, 8, 0x400, 1, 0x0, [fRW (.c 9) 31 0 0]⟩,
  ⟨AX_POS 0, 8, 0x400, 1, 0x0, [fRO 31 0 0]⟩,
  ⟨AX_TARGET 0, 8, 0x400, 1, 0x0, [fRO 31 0 0]⟩,
  ⟨AX_REMAIN 0, 8, 0x400, 1, 0x0, [fRO 31 0 0]⟩,
  ⟨AX_VEL 0, 8, 0x400, 1, 0x0, [fRO 31 0 0]⟩,
  ⟨AX_ENC_POS 0, 8, 0x400, 1, 0x0, [fRO 31 0 0]⟩,
  ⟨AX_ENC_RAW 0, 8, 0x400, 1, 0x0, [fRO 31 0 0]⟩,
  ⟨AX_DEV 0, 8, 0x400, 1, 0x0, [fRO 31 0 0]⟩,
  ⟨AX_DEV_MAX 0, 8, 0x400, 1, 0x0, [fRO 31 0 0]⟩,
  ⟨AX_CAPTURE 0, 8, 0x400, 1, 0x0, [fRO 31 0 0]⟩,
  ⟨AX_CAPTURE_ENC 0, 8, 0x400, 1, 0x0, [fRO 31 0 0]⟩,
  ⟨AX_SW_STS 0, 8, 0x400, 1, 0x0, [fRO 23 16 0, fRO 7 6 0, fRO 5 5 0, fRO 4 4 0, fRO 3 3 0, fRO 2 2 0, fRO 1 1 0, fRO 0 0 0]⟩,
  ⟨AX_ENC_ERRS 0, 8, 0x400, 1, 0x0, [fRO 31 0 0]⟩,
  ⟨AX_GROUP_STS, 1, 0x0, 1, 0x0, [fRO 16 16 0, fRO 7 0 0]⟩,
  ⟨AX_GROUP_TIME_LO, 1, 0x0, 1, 0x0, [fRO 31 0 0]⟩,
  ⟨AX_GROUP_TIME_HI, 1, 0x0, 1, 0x0, [fRO 31 0 0]⟩]

/-- Registers of block AX. -/
def axRows : List RegRow := axRows1 ++ axRows2

/-! ### FAB -/

/-- `FAB_STS` (R448): DEVICES 25:20, GROUP_VALID 18, GROUP 17:16, ROOT 8, FROM_STRAP 7, ADDR 4:0. -/
def FAB_STS : Nat := 0x200000
/-- `FAB_SERIAL_LO` (R448): SERIAL 31:0. -/
def FAB_SERIAL_LO : Nat := 0x200008
/-- `FAB_SERIAL_HI` (R448): SERIAL 31:0. -/
def FAB_SERIAL_HI : Nat := 0x20000C
/-- `FAB_ROOT_SERIAL_LO` (R448): SERIAL 31:0. -/
def FAB_ROOT_SERIAL_LO : Nat := 0x200010
/-- `FAB_ROOT_SERIAL_HI` (R448): SERIAL 31:0. -/
def FAB_ROOT_SERIAL_HI : Nat := 0x200014
/-- `FAB_MEMBERS` (R448): MASK 31:0. -/
def FAB_MEMBERS : Nat := 0x200020
/-- `FAB_GROUP` (R448): MASK 31:0. -/
def FAB_GROUP (g : Nat) : Nat := 0x200030 + 0x4 * g
/-- `FAB_LINK_CFG` (R448): HELLO 31:24, HELLO_MISS 23:16, RETRY_TO 15:8, RETRY_MAX 7:0. -/
def FAB_LINK_CFG : Nat := 0x200040
/-- `FAB_ERR_CFG` (R448): ERR_WINDOW 31:16, ERR_LIMIT 15:0. -/
def FAB_ERR_CFG : Nat := 0x200044
/-- `FAB_ROUTE_CFG` (R448): E2E_RESEND 31:24, UPDATE 15:8. -/
def FAB_ROUTE_CFG : Nat := 0x200048
/-- `FAB_BULK_CFG` (R448): TX_EN 31, RX_EN 30, COLLECTOR 28:24, SLICE_LOG2 4:0. -/
def FAB_BULK_CFG : Nat := 0x200050
/-- `FAB_BULK_BASE_LO` (R448): BASE 31:0. -/
def FAB_BULK_BASE_LO : Nat := 0x200054
/-- `FAB_BULK_BASE_HI` (R448): BASE 31:0. -/
def FAB_BULK_BASE_HI : Nat := 0x200058
/-- `FAB_E2E_DROPS` (R448): COUNT 31:0. -/
def FAB_E2E_DROPS : Nat := 0x200060
/-- `FAB_E2E_RESENDS` (R448): COUNT 31:0. -/
def FAB_E2E_RESENDS : Nat := 0x200064
/-- `FAB_HOP_DROPS` (R448): COUNT 31:0. -/
def FAB_HOP_DROPS : Nat := 0x200068
/-- `FAB_P_CFG` (R449): FEC 8, LANE_SEL 7:6, TX_INVERT1 5, RX_INVERT1 4, TX_INVERT0 3, RX_INVERT0 2, MODE 1:0. -/
def FAB_P_CFG (p : Nat) : Nat := 0x200100 + 0x40 * p
/-- `FAB_P_STS` (R449): PEER 28:24, PEER_VALID 23, LANE1_FAILED 17, LANE0_FAILED 16, ACTIVE_LANE 8, CFG_IGNORED 7, STATE 3:0. -/
def FAB_P_STS (p : Nat) : Nat := 0x200104 + 0x40 * p
/-- `FAB_P_PEER_SERIAL_LO` (R449): SERIAL 31:0. -/
def FAB_P_PEER_SERIAL_LO (p : Nat) : Nat := 0x200108 + 0x40 * p
/-- `FAB_P_PEER_SERIAL_HI` (R449): SERIAL 31:0. -/
def FAB_P_PEER_SERIAL_HI (p : Nat) : Nat := 0x20010C + 0x40 * p
/-- `FAB_P_TX_FRAMES` (R449): COUNT 31:0. -/
def FAB_P_TX_FRAMES (p : Nat) : Nat := 0x200110 + 0x40 * p
/-- `FAB_P_RX_FRAMES` (R449): COUNT 31:0. -/
def FAB_P_RX_FRAMES (p : Nat) : Nat := 0x200114 + 0x40 * p
/-- `FAB_P_RETRIES` (R449): COUNT 31:0. -/
def FAB_P_RETRIES (p : Nat) : Nat := 0x200118 + 0x40 * p
/-- `FAB_P_FCS_ERRS` (R449): COUNT 31:0. -/
def FAB_P_FCS_ERRS (p : Nat) : Nat := 0x20011C + 0x40 * p
/-- `FAB_P_LANE0_ERRS` (R449): COUNT 31:0. -/
def FAB_P_LANE0_ERRS (p : Nat) : Nat := 0x200120 + 0x40 * p
/-- `FAB_P_LANE1_ERRS` (R449): COUNT 31:0. -/
def FAB_P_LANE1_ERRS (p : Nat) : Nat := 0x200124 + 0x40 * p
/-- `FAB_P_SWAPS` (R449): COUNT 15:0. -/
def FAB_P_SWAPS (p : Nat) : Nat := 0x200128 + 0x40 * p
/-- `FAB_ROUTE` (R450): VALID 31, ALT_VALID 30, NEXT 27:26, ALT 25:24, METRIC 21:16. -/
def FAB_ROUTE (d : Nat) : Nat := 0x200400 + 0x4 * d
/-- `FAB_BULK_OFF_LO` (R450): OFF 31:0. -/
def FAB_BULK_OFF_LO (d : Nat) : Nat := 0x200600 + 0x8 * d
/-- `FAB_BULK_OFF_HI` (R450): OFF 31:0. -/
def FAB_BULK_OFF_HI (d : Nat) : Nat := 0x200604 + 0x8 * d

/-- Registers of block FAB, part 1. -/
def fabRows1 : List RegRow := [
  ⟨FAB_STS, 1, 0x0, 1, 0x0, [fRO 25 20 1, fRO 18 18 0, fRO 17 16 0, fRO 8 8 1, fRO 7 7 0, fRO 4 0 0]⟩,
  ⟨FAB_SERIAL_LO, 1, 0x0, 1, 0x0, [fRO 31 0 0]⟩,
  ⟨FAB_SERIAL_HI, 1, 0x0, 1, 0x0, [fRO 31 0 0]⟩,
  ⟨FAB_ROOT_SERIAL_LO, 1, 0x0, 1, 0x0, [fRO 31 0 0]⟩,
  ⟨FAB_ROOT_SERIAL_HI, 1, 0x0, 1, 0x0, [fRO 31 0 0]⟩,
  ⟨FAB_MEMBERS, 1, 0x0, 1, 0x0, [fRO 31 0 1]⟩,
  ⟨FAB_GROUP 0, 4, 0x4, 1, 0x0, [fRO 31 0 0]⟩,
  ⟨FAB_LINK_CFG, 1, 0x0, 1, 0x0, [fRW (.c 10) 31 24 20, fRW (.c 10) 23 16 3, fRW (.c 10) 15 8 8, fRW (.c 10) 7 0 6]⟩,
  ⟨FAB_ERR_CFG, 1, 0x0, 1, 0x0, [fRW (.c 10) 31 16 100, fRW (.c 10) 15 0 16]⟩,
  ⟨FAB_ROUTE_CFG, 1, 0x0, 1, 0x0, [fRW (.c 10) 31 24 50, fRW (.c 10) 15 8 50]⟩,
  ⟨FAB_BULK_CFG, 1, 0x0, 1, 0x0, [fRW (.c 10) 31 31 0, fRW (.c 10) 30 30 0, fRW (.c 10) 28 24 0, fRW (.c 10) 4 0 24]⟩,
  ⟨FAB_BULK_BASE_LO, 1, 0x0, 1, 0x0, [fRW (.c 10) 31 0 0]⟩,
  ⟨FAB_BULK_BASE_HI, 1, 0x0, 1, 0x0, [fRW (.c 10) 31 0 0]⟩,
  ⟨FAB_E2E_DROPS, 1, 0x0, 1, 0x0, [fRO 31 0 0]⟩,
  ⟨FAB_E2E_RESENDS, 1, 0x0, 1, 0x0, [fRO 31 0 0]⟩,
  ⟨FAB_HOP_DROPS, 1, 0x0, 1, 0x0, [fRO 31 0 0]⟩,
  ⟨FAB_P_CFG 0, 4, 0x40, 1, 0x0, [fRW .s 8 8 0, fRW .s 7 6 0, fRW .s 5 5 0, fRW .s 4 4 0, fRW .s 3 3 0, fRW .s 2 2 0, fRW .s 1 0 0]⟩,
  ⟨FAB_P_STS 0, 4, 0x40, 1, 0x0, [fRO 28 24 0, fRO 23 23 0, fRO 17 17 0, fRO 16 16 0, fRO 8 8 0, fW1C 7 7, fRO 3 0 0]⟩,
  ⟨FAB_P_PEER_SERIAL_LO 0, 4, 0x40, 1, 0x0, [fRO 31 0 0]⟩,
  ⟨FAB_P_PEER_SERIAL_HI 0, 4, 0x40, 1, 0x0, [fRO 31 0 0]⟩]

/-- Registers of block FAB, part 2. -/
def fabRows2 : List RegRow := [
  ⟨FAB_P_TX_FRAMES 0, 4, 0x40, 1, 0x0, [fRO 31 0 0]⟩,
  ⟨FAB_P_RX_FRAMES 0, 4, 0x40, 1, 0x0, [fRO 31 0 0]⟩,
  ⟨FAB_P_RETRIES 0, 4, 0x40, 1, 0x0, [fRO 31 0 0]⟩,
  ⟨FAB_P_FCS_ERRS 0, 4, 0x40, 1, 0x0, [fRO 31 0 0]⟩,
  ⟨FAB_P_LANE0_ERRS 0, 4, 0x40, 1, 0x0, [fRO 31 0 0]⟩,
  ⟨FAB_P_LANE1_ERRS 0, 4, 0x40, 1, 0x0, [fRO 31 0 0]⟩,
  ⟨FAB_P_SWAPS 0, 4, 0x40, 1, 0x0, [fRO 15 0 0]⟩,
  ⟨FAB_ROUTE 0, 32, 0x4, 1, 0x0, [fRO 31 31 0, fRO 30 30 0, fRO 27 26 0, fRO 25 24 0, fRO 21 16 32]⟩,
  ⟨FAB_BULK_OFF_LO 0, 32, 0x8, 1, 0x0, [fRO 31 0 0]⟩,
  ⟨FAB_BULK_OFF_HI 0, 32, 0x8, 1, 0x0, [fRO 31 0 0]⟩]

/-- Registers of block FAB. -/
def fabRows : List RegRow := fabRows1 ++ fabRows2

/-! ### FTM -/

/-- `FTM_STS` (R469): HOPS 28:24, EXCESS 15, GM 14, REFCLK_ALT 13, SLAVE_PORT 9:8, STATE 1:0. -/
def FTM_STS : Nat := 0x210000
/-- `FTM_TIME_LO` (R469): TIME 31:0. -/
def FTM_TIME_LO : Nat := 0x210008
/-- `FTM_TIME_HI` (R469): TIME 31:0. -/
def FTM_TIME_HI : Nat := 0x21000C
/-- `FTM_FRAC` (R469): FRAC 31:0. -/
def FTM_FRAC : Nat := 0x210010
/-- `FTM_INCR_LO` (R469): INCR 31:0. -/
def FTM_INCR_LO : Nat := 0x210014
/-- `FTM_INCR_HI` (R469): INCR 3:0. -/
def FTM_INCR_HI : Nat := 0x210018
/-- `FTM_OFFSET` (R469): OFFSET 31:0. -/
def FTM_OFFSET : Nat := 0x21001C
/-- `FTM_ERR` (R469): E 31:0. -/
def FTM_ERR : Nat := 0x210020
/-- `FTM_GM_SERIAL_LO` (R469): SERIAL 31:0. -/
def FTM_GM_SERIAL_LO : Nat := 0x210028
/-- `FTM_GM_SERIAL_HI` (R469): SERIAL 31:0. -/
def FTM_GM_SERIAL_HI : Nat := 0x21002C
/-- `FTM_STEPS` (R469): COUNT 31:0. -/
def FTM_STEPS : Nat := 0x210030
/-- `FTM_CFG` (R469): QUALITY 31:24, DOMAIN 23:16, ANN_EXP 11:8, SYNC_EXP 7:4, PDELAY_EXP 3:0. -/
def FTM_CFG : Nat := 0x210040
/-- `FTM_SERVO` (R469): KP 31:16, KI 15:0. -/
def FTM_SERVO : Nat := 0x210044
/-- `FTM_RATE_LIM` (R469): RATE_LIM 31:0. -/
def FTM_RATE_LIM : Nat := 0x210048
/-- `FTM_STEP_THRESH` (R469): THRESH 31:0. -/
def FTM_STEP_THRESH : Nat := 0x21004C
/-- `FTM_LOCK` (R469): LOCK_COUNT 15:8, LOCK_THRESH 7:0. -/
def FTM_LOCK : Nat := 0x210050
/-- `FTM_HOLD` (R469): HOLDOVER_LIMIT 31:16, HOLD_RATE 15:0. -/
def FTM_HOLD : Nat := 0x210054
/-- `FTM_TRIG_CFG` (R469): INVERT 3:0. -/
def FTM_TRIG_CFG : Nat := 0x210058
/-- `FTM_P_ASYM` (R469): ASYM 31:0. -/
def FTM_P_ASYM (p : Nat) : Nat := 0x210100 + 0x20 * p
/-- `FTM_P_DELAY` (R469): DELAY 31:0. -/
def FTM_P_DELAY (p : Nat) : Nat := 0x210104 + 0x20 * p
/-- `FTM_P_STS` (R469): DELAY_VALID 2, ROLE 1:0. -/
def FTM_P_STS (p : Nat) : Nat := 0x210108 + 0x20 * p
/-- `FTM_P_SYNCS` (R469): COUNT 31:0. -/
def FTM_P_SYNCS (p : Nat) : Nat := 0x21010C + 0x20 * p
/-- `FTM_TRIG_START_LO` (R469): START 31:0. -/
def FTM_TRIG_START_LO (t : Nat) : Nat := 0x210200 + 0x20 * t
/-- `FTM_TRIG_START_HI` (R469): START 31:0. -/
def FTM_TRIG_START_HI (t : Nat) : Nat := 0x210204 + 0x20 * t
/-- `FTM_TRIG_PERIOD` (R469): PERIOD 31:0. -/
def FTM_TRIG_PERIOD (t : Nat) : Nat := 0x210208 + 0x20 * t
/-- `FTM_TRIG_WIDTH` (R469): WIDTH 31:0. -/
def FTM_TRIG_WIDTH (t : Nat) : Nat := 0x21020C + 0x20 * t
/-- `FTM_TRIG_STS` (R469): ARMED 31. -/
def FTM_TRIG_STS (t : Nat) : Nat := 0x210210 + 0x20 * t
/-- `FTM_TRIG_COUNT` (R469): LEFT 31:0. -/
def FTM_TRIG_COUNT (t : Nat) : Nat := 0x210214 + 0x20 * t
/-- `FTM_TRIG_FIRED` (R469): FIRED 31:0. -/
def FTM_TRIG_FIRED (t : Nat) : Nat := 0x210218 + 0x20 * t

/-- Registers of block FTM, part 1. -/
def ftmRows1 : List RegRow := [
  ⟨FTM_STS, 1, 0x0, 1, 0x0, [fRO 28 24 0, fRO 15 15 0, fRO 14 14 1, fRO 13 13 0, fRO 9 8 0, fRO 1 0 0]⟩,
  ⟨FTM_TIME_LO, 1, 0x0, 1, 0x0, [fRO 31 0 0]⟩,
  ⟨FTM_TIME_HI, 1, 0x0, 1, 0x0, [fRO 31 0 0]⟩,
  ⟨FTM_FRAC, 1, 0x0, 1, 0x0, [fRO 31 0 0]⟩,
  ⟨FTM_INCR_LO, 1, 0x0, 1, 0x0, [fRO 31 0 0]⟩,
  ⟨FTM_INCR_HI, 1, 0x0, 1, 0x0, [fRO 3 0 2]⟩,
  ⟨FTM_OFFSET, 1, 0x0, 1, 0x0, [fRO 31 0 0]⟩,
  ⟨FTM_ERR, 1, 0x0, 1, 0x0, [fRO 31 0 0]⟩,
  ⟨FTM_GM_SERIAL_LO, 1, 0x0, 1, 0x0, [fRO 31 0 0]⟩,
  ⟨FTM_GM_SERIAL_HI, 1, 0x0, 1, 0x0, [fRO 31 0 0]⟩,
  ⟨FTM_STEPS, 1, 0x0, 1, 0x0, [fRO 31 0 0]⟩,
  ⟨FTM_CFG, 1, 0x0, 1, 0x0, [fRW (.c 11) 31 24 128, fRW (.c 11) 23 16 0, fRW (.c 11) 11 8 6, fRW (.c 11) 7 4 7, fRW (.c 11) 3 0 3]⟩,
  ⟨FTM_SERVO, 1, 0x0, 1, 0x0, [fRW (.c 11) 31 16 256, fRW (.c 11) 15 0 16]⟩,
  ⟨FTM_RATE_LIM, 1, 0x0, 1, 0x0, [fRW (.c 11) 31 0 250000]⟩,
  ⟨FTM_STEP_THRESH, 1, 0x0, 1, 0x0, [fRW (.c 11) 31 0 1000]⟩,
  ⟨FTM_LOCK, 1, 0x0, 1, 0x0, [fRW (.c 11) 15 8 8, fRW (.c 11) 7 0 20]⟩,
  ⟨FTM_HOLD, 1, 0x0, 1, 0x0, [fRW (.c 11) 31 16 100, fRW (.c 11) 15 0 2000]⟩,
  ⟨FTM_TRIG_CFG, 1, 0x0, 1, 0x0, [fRW (.c 11) 3 0 0]⟩,
  ⟨FTM_P_ASYM 0, 4, 0x20, 1, 0x0, [fRW (.c 11) 31 0 0]⟩,
  ⟨FTM_P_DELAY 0, 4, 0x20, 1, 0x0, [fRO 31 0 0]⟩]

/-- Registers of block FTM, part 2. -/
def ftmRows2 : List RegRow := [
  ⟨FTM_P_STS 0, 4, 0x20, 1, 0x0, [fRO 2 2 0, fRO 1 0 0]⟩,
  ⟨FTM_P_SYNCS 0, 4, 0x20, 1, 0x0, [fRO 31 0 0]⟩,
  ⟨FTM_TRIG_START_LO 0, 4, 0x20, 1, 0x0, [fRO 31 0 0]⟩,
  ⟨FTM_TRIG_START_HI 0, 4, 0x20, 1, 0x0, [fRO 31 0 0]⟩,
  ⟨FTM_TRIG_PERIOD 0, 4, 0x20, 1, 0x0, [fRO 31 0 0]⟩,
  ⟨FTM_TRIG_WIDTH 0, 4, 0x20, 1, 0x0, [fRO 31 0 0]⟩,
  ⟨FTM_TRIG_STS 0, 4, 0x20, 1, 0x0, [fRO 31 31 0]⟩,
  ⟨FTM_TRIG_COUNT 0, 4, 0x20, 1, 0x0, [fRO 31 0 0]⟩,
  ⟨FTM_TRIG_FIRED 0, 4, 0x20, 1, 0x0, [fRO 31 0 0]⟩]

/-- Registers of block FTM. -/
def ftmRows : List RegRow := ftmRows1 ++ ftmRows2

/-! ### DDR -/

/-- `DDR_STS` (R486): CH1_STATE 19:16, CH0_STATE 15:12, CH1_2X 9, CH0_2X 8, INTERLEAVED 0. -/
def DDR_STS : Nat := 0x220000
/-- `DDR_CFG` (R486): SCRUB_HOURS 31:24, MAP 16, AGE_NS 15:0. -/
def DDR_CFG : Nat := 0x220004
/-- `DDR_RD_CFG` (R486): ACT_LIMIT 15:0. -/
def DDR_RD_CFG : Nat := 0x220008
/-- `DDR_THROTTLES` (R486): COUNT 31:0. -/
def DDR_THROTTLES : Nat := 0x220010
/-- `DDR_THROTTLE_ACT` (R486): CH1 15:8, CH0 7:0. -/
def DDR_THROTTLE_ACT : Nat := 0x220014
/-- `DDR_CH_CFG` (R486): RATE 31:16, TYPE 13:12, RDIMM 9, TWO_RANKS 8, WIDTH 7:6, DENSITY 5:0. -/
def DDR_CH_CFG (c : Nat) : Nat := 0x220100 + 0x80 * c
/-- `DDR_CH_CAP` (R486): MIB 31:0. -/
def DDR_CH_CAP (c : Nat) : Nat := 0x220104 + 0x80 * c
/-- `DDR_CH_TRAIN` (R486): PENDING 31, FAIL_STEP 23:16, FAIL_LANES 8:0. -/
def DDR_CH_TRAIN (c : Nat) : Nat := 0x220108 + 0x80 * c
/-- `DDR_CH_TEMP` (R486): RANK1 3:2, RANK0 1:0. -/
def DDR_CH_TEMP (c : Nat) : Nat := 0x22010C + 0x80 * c
/-- `DDR_CH_ECC_CORR` (R486): COUNT 31:0. -/
def DDR_CH_ECC_CORR (c : Nat) : Nat := 0x220110 + 0x80 * c
/-- `DDR_CH_ECC_UNCORR` (R486): COUNT 31:0. -/
def DDR_CH_ECC_UNCORR (c : Nat) : Nat := 0x220114 + 0x80 * c
/-- `DDR_CH_UE_ADDR_LO` (R486): ADDR 31:0. -/
def DDR_CH_UE_ADDR_LO (c : Nat) : Nat := 0x220118 + 0x80 * c
/-- `DDR_CH_UE_ADDR_HI` (R486): VALID 31, ADDR 3:0. -/
def DDR_CH_UE_ADDR_HI (c : Nat) : Nat := 0x22011C + 0x80 * c
/-- `DDR_CH_CE_ADDR_LO` (R486): ADDR 31:0. -/
def DDR_CH_CE_ADDR_LO (c : Nat) : Nat := 0x220120 + 0x80 * c
/-- `DDR_CH_CE_ADDR_HI` (R486): ADDR 31:0. -/
def DDR_CH_CE_ADDR_HI (c : Nat) : Nat := 0x220124 + 0x80 * c

/-- Registers of block DDR. -/
def ddrRows : List RegRow := [
  ⟨DDR_STS, 1, 0x0, 1, 0x0, [fRO 19 16 0, fRO 15 12 0, fRO 9 9 0, fRO 8 8 0, fRO 0 0 0]⟩,
  ⟨DDR_CFG, 1, 0x0, 1, 0x0, [fRW (.c 12) 31 24 24, fRW (.c 12) 16 16 0, fRW (.c 12) 15 0 2000]⟩,
  ⟨DDR_RD_CFG, 1, 0x0, 1, 0x0, [fRW (.c 12) 15 0 8192]⟩,
  ⟨DDR_THROTTLES, 1, 0x0, 1, 0x0, [fRO 31 0 0]⟩,
  ⟨DDR_THROTTLE_ACT, 1, 0x0, 1, 0x0, [fRO 15 8 0, fRO 7 0 0]⟩,
  ⟨DDR_CH_CFG 0, 2, 0x80, 1, 0x0, [fRW (.c 12) 31 16 0, fRW (.c 12) 13 12 0, fRW (.c 12) 9 9 0, fRW (.c 12) 8 8 0, fRW (.c 12) 7 6 1, fRW (.c 12) 5 0 16]⟩,
  ⟨DDR_CH_CAP 0, 2, 0x80, 1, 0x0, [fRO 31 0 0]⟩,
  ⟨DDR_CH_TRAIN 0, 2, 0x80, 1, 0x0, [fRO 31 31 0, fRO 23 16 0, fRO 8 0 0]⟩,
  ⟨DDR_CH_TEMP 0, 2, 0x80, 1, 0x0, [fRO 3 2 2, fRO 1 0 2]⟩,
  ⟨DDR_CH_ECC_CORR 0, 2, 0x80, 1, 0x0, [fRO 31 0 0]⟩,
  ⟨DDR_CH_ECC_UNCORR 0, 2, 0x80, 1, 0x0, [fRO 31 0 0]⟩,
  ⟨DDR_CH_UE_ADDR_LO 0, 2, 0x80, 1, 0x0, [fRO 31 0 0]⟩,
  ⟨DDR_CH_UE_ADDR_HI 0, 2, 0x80, 1, 0x0, [fW1C 31 31, fRO 3 0 0]⟩,
  ⟨DDR_CH_CE_ADDR_LO 0, 2, 0x80, 1, 0x0, [fRO 31 0 0]⟩,
  ⟨DDR_CH_CE_ADDR_HI 0, 2, 0x80, 1, 0x0, [fRO 31 0 0]⟩]

/-! ### SRAM -/

/-- `SRAM_STS` (R492): SPARES_OUT 31:16, REPAIR_RUNNING 1, UNCORR_SEEN 0. -/
def SRAM_STS : Nat := 0x230000
/-- `SRAM_CFG` (R492): THRESH 23:16, SCRUB_MS 15:0. -/
def SRAM_CFG : Nat := 0x230004
/-- `SRAM_UE_ADDR` (R492): VALID 31, OFFSET 24:0. -/
def SRAM_UE_ADDR : Nat := 0x230008
/-- `SRAM_CE_ADDR` (R492): OFFSET 24:0. -/
def SRAM_CE_ADDR : Nat := 0x23000C
/-- `SRAM_MACRO` (R492): HARD 31, PENDING 30, COL_USED 27:26, ROW_USED 25:23, UNCORR 15:8, CORR 7:0. -/
def SRAM_MACRO (m : Nat) : Nat := 0x230400 + 0x4 * m

/-- Registers of block SRAM. -/
def sramRows : List RegRow := [
  ⟨SRAM_STS, 1, 0x0, 1, 0x0, [fRO 31 16 0, fRO 1 1 0, fW1C 0 0]⟩,
  ⟨SRAM_CFG, 1, 0x0, 1, 0x0, [fRW (.c 12) 23 16 16, fRW (.c 12) 15 0 1000]⟩,
  ⟨SRAM_UE_ADDR, 1, 0x0, 1, 0x0, [fW1C 31 31, fRO 24 0 0]⟩,
  ⟨SRAM_CE_ADDR, 1, 0x0, 1, 0x0, [fRO 24 0 0]⟩,
  ⟨SRAM_MACRO 0, 512, 0x4, 1, 0x0, [fRO 31 31 0, fRO 30 30 0, fRO 27 26 0, fRO 25 23 0, fRO 15 8 0, fRO 7 0 0]⟩]

/-! ### DMA -/

/-- `DMA_STS` (R516): ACTIVE 21:16, ERR_KIND 7:4, ERR_SPACE 3:2, BUS_ERR 0. -/
def DMA_STS : Nat := 0x240000
/-- `DMA_ERR_ADDR_LO` (R516): ADDR 31:0. -/
def DMA_ERR_ADDR_LO : Nat := 0x240008
/-- `DMA_ERR_ADDR_HI` (R516): ADDR 31:0. -/
def DMA_ERR_ADDR_HI : Nat := 0x24000C
/-- `DMA_ACTIVE` (R516): MASK 31:0. -/
def DMA_ACTIVE : Nat := 0x240010
/-- `DMA_CH_CFG` (R516): RATE 15:8, PRIORITY 1:0. -/
def DMA_CH_CFG (c : Nat) : Nat := 0x240100 + 0x40 * c
/-- `DMA_CH_STS` (R516): STATE 31:28, ENDING 27:24, LAST_BEAT 23, DESC_DONE 15:0. -/
def DMA_CH_STS (c : Nat) : Nat := 0x240104 + 0x40 * c
/-- `DMA_CH_DESC_LO` (R516): ADDR 31:0. -/
def DMA_CH_DESC_LO (c : Nat) : Nat := 0x240108 + 0x40 * c
/-- `DMA_CH_DESC_HI` (R516): ADDR 31:0. -/
def DMA_CH_DESC_HI (c : Nat) : Nat := 0x24010C + 0x40 * c
/-- `DMA_CH_REMAIN` (R516): REMAIN 31:0. -/
def DMA_CH_REMAIN (c : Nat) : Nat := 0x240110 + 0x40 * c
/-- `DMA_CH_DONE_LO` (R516): DONE 31:0. -/
def DMA_CH_DONE_LO (c : Nat) : Nat := 0x240114 + 0x40 * c
/-- `DMA_CH_DONE_HI` (R516): DONE 31:0. -/
def DMA_CH_DONE_HI (c : Nat) : Nat := 0x240118 + 0x40 * c
/-- `DMA_CH_BURSTS` (R516): COUNT 31:0. -/
def DMA_CH_BURSTS (c : Nat) : Nat := 0x24011C + 0x40 * c

/-- Registers of block DMA. -/
def dmaRows : List RegRow := [
  ⟨DMA_STS, 1, 0x0, 1, 0x0, [fRO 21 16 0, fRO 7 4 0, fRO 3 2 0, fW1C 0 0]⟩,
  ⟨DMA_ERR_ADDR_LO, 1, 0x0, 1, 0x0, [fRO 31 0 0]⟩,
  ⟨DMA_ERR_ADDR_HI, 1, 0x0, 1, 0x0, [fRO 31 0 0]⟩,
  ⟨DMA_ACTIVE, 1, 0x0, 1, 0x0, [fRO 31 0 0]⟩,
  ⟨DMA_CH_CFG 0, 32, 0x40, 1, 0x0, [fRW .l 15 8 0, fRW .l 1 0 3]⟩,
  ⟨DMA_CH_STS 0, 32, 0x40, 1, 0x0, [fRO 31 28 0, fRO 27 24 0, fRO 23 23 0, fRO 15 0 0]⟩,
  ⟨DMA_CH_DESC_LO 0, 32, 0x40, 1, 0x0, [fRO 31 0 0]⟩,
  ⟨DMA_CH_DESC_HI 0, 32, 0x40, 1, 0x0, [fRO 31 0 0]⟩,
  ⟨DMA_CH_REMAIN 0, 32, 0x40, 1, 0x0, [fRO 31 0 0]⟩,
  ⟨DMA_CH_DONE_LO 0, 32, 0x40, 1, 0x0, [fRO 31 0 0]⟩,
  ⟨DMA_CH_DONE_HI 0, 32, 0x40, 1, 0x0, [fRO 31 0 0]⟩,
  ⟨DMA_CH_BURSTS 0, 32, 0x40, 1, 0x0, [fRO 31 0 0]⟩]

/-! ### CMP -/

/-- `CMP_STS` (R517): GRANT 9:8, CODEC1 7:4, CODEC0 3:0. -/
def CMP_STS : Nat := 0x250000
/-- `CMP_LIMIT` (R517): CAP 31:16, RATIO 7:0. -/
def CMP_LIMIT : Nat := 0x250004
/-- `CMP_REC_CFG` (R517): EN 31, FORMAT 30, LANES 23:0. -/
def CMP_REC_CFG : Nat := 0x250010
/-- `CMP_REC_FLUSH` (R517): FLUSH_US 15:0. -/
def CMP_REC_FLUSH : Nat := 0x250014
/-- `CMP_REC_BASE_LO` (R517): BASE 31:0. -/
def CMP_REC_BASE_LO : Nat := 0x250018
/-- `CMP_REC_BASE_HI` (R517): BASE 31:0. -/
def CMP_REC_BASE_HI : Nat := 0x25001C
/-- `CMP_REC_SIZE` (R517): SIZE_LOG2 5:0. -/
def CMP_REC_SIZE : Nat := 0x250020
/-- `CMP_REC_WRITE_LO` (R517): OFFSET 31:0. -/
def CMP_REC_WRITE_LO : Nat := 0x250028
/-- `CMP_REC_WRITE_HI` (R517): OFFSET 31:0. -/
def CMP_REC_WRITE_HI : Nat := 0x25002C
/-- `CMP_REC_READ_LO` (R517): OFFSET 31:0. -/
def CMP_REC_READ_LO : Nat := 0x250030
/-- `CMP_REC_READ_HI` (R517): OFFSET 31:0. -/
def CMP_REC_READ_HI : Nat := 0x250034
/-- `CMP_REC_DROPPED` (R517): COUNT 31:0. -/
def CMP_REC_DROPPED : Nat := 0x250038
/-- `CMP_G_IN_LO` (R517): IN 31:0. -/
def CMP_G_IN_LO (g : Nat) : Nat := 0x250100 + 0x40 * g
/-- `CMP_G_IN_HI` (R517): IN 31:0. -/
def CMP_G_IN_HI (g : Nat) : Nat := 0x250104 + 0x40 * g
/-- `CMP_G_OUT_LO` (R517): OUT 31:0. -/
def CMP_G_OUT_LO (g : Nat) : Nat := 0x250108 + 0x40 * g
/-- `CMP_G_OUT_HI` (R517): OUT 31:0. -/
def CMP_G_OUT_HI (g : Nat) : Nat := 0x25010C + 0x40 * g
/-- `CMP_G_STS` (R517): STATUS 31:24, CHECK 15:0. -/
def CMP_G_STS (g : Nat) : Nat := 0x250110 + 0x40 * g
/-- `CMP_Q_OUT` (R517): BYTES 31:0. -/
def CMP_Q_OUT (q : Nat) : Nat := 0x250200 + 0x10 * q
/-- `CMP_Q_STS` (R517): LOAD_PASS 8, LANE 7:0. -/
def CMP_Q_STS (q : Nat) : Nat := 0x250204 + 0x10 * q

/-- Registers of block CMP. -/
def cmpRows : List RegRow := [
  ⟨CMP_STS, 1, 0x0, 1, 0x0, [fRO 9 8 0, fRO 7 4 0, fRO 3 0 0]⟩,
  ⟨CMP_LIMIT, 1, 0x0, 1, 0x0, [fRW (.c 13) 31 16 4096, fRW (.c 13) 7 0 64]⟩,
  ⟨CMP_REC_CFG, 1, 0x0, 1, 0x0, [fRW (.c 13) 31 31 0, fRW (.c 13) 30 30 0, fRW (.c 13) 23 0 0]⟩,
  ⟨CMP_REC_FLUSH, 1, 0x0, 1, 0x0, [fRW (.c 13) 15 0 1000]⟩,
  ⟨CMP_REC_BASE_LO, 1, 0x0, 1, 0x0, [fRW (.c 13) 31 0 0]⟩,
  ⟨CMP_REC_BASE_HI, 1, 0x0, 1, 0x0, [fRW (.c 13) 31 0 0]⟩,
  ⟨CMP_REC_SIZE, 1, 0x0, 1, 0x0, [fRW (.c 13) 5 0 24]⟩,
  ⟨CMP_REC_WRITE_LO, 1, 0x0, 1, 0x0, [fRO 31 0 0]⟩,
  ⟨CMP_REC_WRITE_HI, 1, 0x0, 1, 0x0, [fRO 31 0 0]⟩,
  ⟨CMP_REC_READ_LO, 1, 0x0, 1, 0x0, [fRW .none 31 0 0]⟩,
  ⟨CMP_REC_READ_HI, 1, 0x0, 1, 0x0, [fRW .none 31 0 0]⟩,
  ⟨CMP_REC_DROPPED, 1, 0x0, 1, 0x0, [fRO 31 0 0]⟩,
  ⟨CMP_G_IN_LO 0, 2, 0x40, 1, 0x0, [fRO 31 0 0]⟩,
  ⟨CMP_G_IN_HI 0, 2, 0x40, 1, 0x0, [fRO 31 0 0]⟩,
  ⟨CMP_G_OUT_LO 0, 2, 0x40, 1, 0x0, [fRO 31 0 0]⟩,
  ⟨CMP_G_OUT_HI 0, 2, 0x40, 1, 0x0, [fRO 31 0 0]⟩,
  ⟨CMP_G_STS 0, 2, 0x40, 1, 0x0, [fRO 31 24 0, fRO 15 0 0]⟩,
  ⟨CMP_Q_OUT 0, 6, 0x10, 1, 0x0, [fRO 31 0 0]⟩,
  ⟨CMP_Q_STS 0, 6, 0x10, 1, 0x0, [fRO 8 8 0, fRO 7 0 255]⟩]

/-! ### MBX -/

/-- `MBX_CH_MSG` (R530): DATA 31:0. -/
def MBX_CH_MSG (n : Nat) (r : Nat) : Nat := 0x260000 + 0x80 * n + 0x4 * r
/-- `MBX_CH_GO` (R530): GO 31, LENGTH 4:0. -/
def MBX_CH_GO (n : Nat) : Nat := 0x260040 + 0x80 * n
/-- `MBX_CH_STS` (R530): VIOLATION 5, SENDER_RESET 4, UNREACHABLE 3, WRITE_BUSY 2, TIMEOUT 1, GO 0. -/
def MBX_CH_STS (n : Nat) : Nat := 0x260044 + 0x80 * n
/-- `MBX_CH_BIND` (R530): BOUND 31, LOCKED 30, SENDER 23:16, RECEIVER 15:8, PEER_CH 3:0. -/
def MBX_CH_BIND (n : Nat) : Nat := 0x260048 + 0x80 * n
/-- `MBX_CH_TIMEOUT` (R530): TIMEOUT 19:0. -/
def MBX_CH_TIMEOUT (n : Nat) : Nat := 0x26004C + 0x80 * n
/-- `MBX_LOCKED` (R530): MASK 15:0. -/
def MBX_LOCKED : Nat := 0x260800

/-- Registers of block MBX. -/
def mbxRows : List RegRow := [
  ⟨MBX_CH_MSG 0 0, 16, 0x80, 16, 0x4, [fRW .none 31 0 0]⟩,
  ⟨MBX_CH_GO 0, 16, 0x80, 1, 0x0, [fRW .none 31 31 0, fRW .none 4 0 0]⟩,
  ⟨MBX_CH_STS 0, 16, 0x80, 1, 0x0, [fW1C 5 5, fW1C 4 4, fW1C 3 3, fW1C 2 2, fW1C 1 1, fRO 0 0 0]⟩,
  ⟨MBX_CH_BIND 0, 16, 0x80, 1, 0x0, [fRO 31 31 0, fRO 30 30 0, fRO 23 16 0, fRO 15 8 0, fRO 3 0 0]⟩,
  ⟨MBX_CH_TIMEOUT 0, 16, 0x80, 1, 0x0, [fRO 19 0 1000]⟩,
  ⟨MBX_LOCKED, 1, 0x0, 1, 0x0, [fRO 15 0 0]⟩]

/-! ### SVC -/

/-- `SVC_STS` (R535): BUS_RESETS 31:16, FRAMING_ERR 8, VBUS 3, CONFIGURED 2, SPEED 1:0. -/
def SVC_STS : Nat := 0x270000
/-- `SVC_CMDS` (R535): COUNT 31:0. -/
def SVC_CMDS : Nat := 0x270004

/-- Registers of block SVC. -/
def svcRows : List RegRow := [
  ⟨SVC_STS, 1, 0x0, 1, 0x0, [fRO 31 16 0, fW1C 8 8, fRO 3 3 0, fRO 2 2 0, fRO 1 0 0]⟩,
  ⟨SVC_CMDS, 1, 0x0, 1, 0x0, [fRO 31 0 0]⟩]

/-! ### PNL -/

/-- `PNL_STS` (R550): COLOUR_ON 2, COLOUR_LIMIT 1, SENSOR_FAIL 0. -/
def PNL_STS : Nat := 0x280000
/-- `PNL_IN_STS` (R550): PLUG 31:24, TOUCH 23:16, KEY 15:0. -/
def PNL_IN_STS : Nat := 0x280004
/-- `PNL_EVT_COUNT` (R550): COUNT 31:0. -/
def PNL_EVT_COUNT : Nat := 0x280008
/-- `PNL_KEY_CFG` (R550): EN 31:16, LOW 15:0. -/
def PNL_KEY_CFG : Nat := 0x280010
/-- `PNL_TIMING` (R550): REPEAT_MS 31:24, HOLD_MS 23:16, DEBOUNCE 7:0. -/
def PNL_TIMING : Nat := 0x280014
/-- `PNL_PLUG_CFG` (R550): EN 15:8, LOW 7:0. -/
def PNL_PLUG_CFG : Nat := 0x280018
/-- `PNL_TOUCH_CFG` (R550): EN 31:24, RECAL_S 23:16, HYST 15:8, THRESH 7:0. -/
def PNL_TOUCH_CFG : Nat := 0x28001C
/-- `PNL_TOUCH` (R550): BASELINE 31:16, COUNT 15:0. -/
def PNL_TOUCH (p : Nat) : Nat := 0x280040 + 0x4 * p
/-- `PNL_EVT` (R550): ENTRY 31:0. -/
def PNL_EVT (e : Nat) : Nat := 0x280100 + 0x4 * e
/-- `PNL_LED_CFG` (R550): DIAG_S 31:24, SHORT_V 23:16, PRESCALE 3:0. -/
def PNL_LED_CFG : Nat := 0x280200
/-- `PNL_SENSOR_CFG` (R550): SENS_ADDR 14:8, SENS_REG 7:0. -/
def PNL_SENSOR_CFG : Nat := 0x280204
/-- `PNL_COLOUR` (R550): SCALE 31:16, READING 15:0. -/
def PNL_COLOUR (i : Nat) : Nat := 0x280210 + 0x4 * i
/-- `PNL_ENG_STS` (R550): MODE 31:24, POSITION 23:16, LEVEL 15:0. -/
def PNL_ENG_STS (g : Nat) : Nat := 0x280240 + 0x4 * g
/-- `PNL_LEDC_CFG` (R550): EN 31, SRC 30:28, SAFE_SRC 27:26, CURRENT 7:0. -/
def PNL_LEDC_CFG (c : Nat) : Nat := 0x280400 + 0x10 * c
/-- `PNL_LED_DUTY` (R550): SAFE_DUTY 31:16, DUTY 15:0. -/
def PNL_LED_DUTY (c : Nat) : Nat := 0x280404 + 0x10 * c
/-- `PNL_LED_STS` (R550): STRETCH 20, DIAG_SKIPPED 19, NEIGHBOUR 18, SHORT 17, OPEN 16, APPLIED 15:0. -/
def PNL_LED_STS (c : Nat) : Nat := 0x280408 + 0x10 * c

/-- Registers of block PNL. -/
def pnlRows : List RegRow := [
  ⟨PNL_STS, 1, 0x0, 1, 0x0, [fRO 2 2 0, fW1C 1 1, fRO 0 0 0]⟩,
  ⟨PNL_IN_STS, 1, 0x0, 1, 0x0, [fRO 31 24 0, fRO 23 16 0, fRO 15 0 0]⟩,
  ⟨PNL_EVT_COUNT, 1, 0x0, 1, 0x0, [fRO 31 0 0]⟩,
  ⟨PNL_KEY_CFG, 1, 0x0, 1, 0x0, [fRW (.c 14) 31 16 0, fRW (.c 14) 15 0 65535]⟩,
  ⟨PNL_TIMING, 1, 0x0, 1, 0x0, [fRW (.c 14) 31 24 15, fRW (.c 14) 23 16 80, fRW (.c 14) 7 0 20]⟩,
  ⟨PNL_PLUG_CFG, 1, 0x0, 1, 0x0, [fRW (.c 14) 15 8 0, fRW (.c 14) 7 0 255]⟩,
  ⟨PNL_TOUCH_CFG, 1, 0x0, 1, 0x0, [fRW (.c 14) 31 24 0, fRW (.c 14) 23 16 30, fRW (.c 14) 15 8 16, fRW (.c 14) 7 0 64]⟩,
  ⟨PNL_TOUCH 0, 8, 0x4, 1, 0x0, [fRO 31 16 0, fRO 15 0 0]⟩,
  ⟨PNL_EVT 0, 64, 0x4, 1, 0x0, [fRO 31 0 0]⟩,
  ⟨PNL_LED_CFG, 1, 0x0, 1, 0x0, [fRW (.c 14) 31 24 10, fRW (.c 14) 23 16 35, fRW (.c 14) 3 0 0]⟩,
  ⟨PNL_SENSOR_CFG, 1, 0x0, 1, 0x0, [fRW (.c 14) 14 8 41, fRW (.c 14) 7 0 20]⟩,
  ⟨PNL_COLOUR 0, 3, 0x4, 1, 0x0, [fRO 31 16 32768, fRO 15 0 0]⟩,
  ⟨PNL_ENG_STS 0, 4, 0x4, 1, 0x0, [fRO 31 24 0, fRO 23 16 0, fRO 15 0 0]⟩,
  ⟨PNL_LEDC_CFG 0, 32, 0x10, 1, 0x0, [fRW (.c 14) 31 31 0, fRW (.c 14) 30 28 0, fRW (.c 14) 27 26 0, fRW (.c 14) 7 0 0]⟩,
  ⟨PNL_LED_DUTY 0, 32, 0x10, 1, 0x0, [fRW (.c 14) 31 16 0, fRW .l 15 0 0]⟩,
  ⟨PNL_LED_STS 0, 32, 0x10, 1, 0x0, [fRO 20 20 0, fRO 19 19 0, fRO 18 18 0, fRO 17 17 0, fRO 16 16 0, fRO 15 0 0]⟩]

/-! ### EVR -/

/-- `EVR_STS` (R580): FIFO 23:16, TRACE_FROZEN 1, FROZEN 0. -/
def EVR_STS : Nat := 0x290000
/-- `EVR_NEXT` (R580): INDEX 15:0. -/
def EVR_NEXT : Nat := 0x290004
/-- `EVR_SEQ` (R580): SEQ 31:0. -/
def EVR_SEQ : Nat := 0x290008
/-- `EVR_LOST` (R580): COUNT 31:0. -/
def EVR_LOST : Nat := 0x29000C
/-- `EVR_CURSOR` (R580): AUTO_INC 31, INDEX 15:0. -/
def EVR_CURSOR : Nat := 0x290010
/-- `EVR_WIN` (R580): DATA 31:0. -/
def EVR_WIN (w : Nat) : Nat := 0x291000 + 0x4 * w

/-- Registers of block EVR. -/
def evrRows : List RegRow := [
  ⟨EVR_STS, 1, 0x0, 1, 0x0, [fRO 23 16 0, fRO 1 1 0, fRO 0 0 0]⟩,
  ⟨EVR_NEXT, 1, 0x0, 1, 0x0, [fRO 15 0 0]⟩,
  ⟨EVR_SEQ, 1, 0x0, 1, 0x0, [fRO 31 0 0]⟩,
  ⟨EVR_LOST, 1, 0x0, 1, 0x0, [fRO 31 0 0]⟩,
  ⟨EVR_CURSOR, 1, 0x0, 1, 0x0, [fRW .none 31 31 0, fRW .none 15 0 0]⟩,
  ⟨EVR_WIN 0, 512, 0x4, 1, 0x0, [fRO 31 0 0]⟩]

/-! ### FLT -/

/-- `FLT_STS` (R579): ACTIVE 31:16, GOVERN 15:13, RECOVERING 12, FULL 5, CLASSES 4:0. -/
def FLT_STS : Nat := 0x2A0000
/-- `FLT_ENTRY_W0` (R579): STATE 31:30, CLASS 29:27, CODE 15:0. -/
def FLT_ENTRY_W0 (i : Nat) : Nat := 0x2A0100 + 0x10 * i
/-- `FLT_ENTRY_W1` (R579): REPEAT 31:16, SOURCE 15:0. -/
def FLT_ENTRY_W1 (i : Nat) : Nat := 0x2A0104 + 0x10 * i
/-- `FLT_ENTRY_TIME_LO` (R579): TIME 31:0. -/
def FLT_ENTRY_TIME_LO (i : Nat) : Nat := 0x2A0108 + 0x10 * i
/-- `FLT_ENTRY_TIME_HI` (R579): TIME 31:0. -/
def FLT_ENTRY_TIME_HI (i : Nat) : Nat := 0x2A010C + 0x10 * i

/-- Registers of block FLT. -/
def fltRows : List RegRow := [
  ⟨FLT_STS, 1, 0x0, 1, 0x0, [fRO 31 16 0, fRO 15 13 7, fRO 12 12 0, fW1C 5 5, fRO 4 0 0]⟩,
  ⟨FLT_ENTRY_W0 0, 64, 0x10, 1, 0x0, [fRO 31 30 0, fRO 29 27 0, fRO 15 0 0]⟩,
  ⟨FLT_ENTRY_W1 0, 64, 0x10, 1, 0x0, [fRO 31 16 0, fRO 15 0 0]⟩,
  ⟨FLT_ENTRY_TIME_LO 0, 64, 0x10, 1, 0x0, [fRO 31 0 0]⟩,
  ⟨FLT_ENTRY_TIME_HI 0, 64, 0x10, 1, 0x0, [fRO 31 0 0]⟩]

/-- The rows of the block that an offset lies in (R599). -/
def blockRows (a : Nat) : List RegRow :=
  if a < 0x10000 then topRows else
  if a < 0x20000 then pwrRows else
  if a < 0x30000 then thmRows else
  if a < 0x40000 then hifRows else
  if a < 0x50000 then seqRows else
  if a < 0x60000 then ledgRows else
  if a < 0x80000 then ovlRows else
  if a < 0x100000 then burnRows else
  if a < 0x180000 then laneRows else
  if a < 0x190000 then camRows else
  if a < 0x1C0000 then ispRows else
  if a < 0x200000 then axRows else
  if a < 0x210000 then fabRows else
  if a < 0x220000 then ftmRows else
  if a < 0x230000 then ddrRows else
  if a < 0x240000 then sramRows else
  if a < 0x250000 then dmaRows else
  if a < 0x260000 then cmpRows else
  if a < 0x270000 then mbxRows else
  if a < 0x280000 then svcRows else
  if a < 0x290000 then pnlRows else
  if a < 0x2A0000 then evrRows else
  if a < 0x2B0000 then fltRows else
  []

/-- The indices at which row `r` holds offset `a`, if it does. -/
def rowIndex (r : RegRow) (a : Nat) : Option (Nat × Nat) :=
  if a < r.base then none
  else
    let d := a - r.base
    let i := if r.s1 = 0 then 0 else d / r.s1
    let e := if r.s1 = 0 then d else d % r.s1
    let j := if r.s2 = 0 then 0 else e / r.s2
    let f := if r.s2 = 0 then e else e % r.s2
    if i < r.n1 && j < r.n2 && f == 0 then some (i, j) else none

/-- The row and indices of offset `a` among `rs`. -/
def findRow : List RegRow → Nat → Option (RegRow × Nat × Nat)
  | [], _ => none
  | r :: rs, a =>
    match rowIndex r a with
    | some (i, j) => some (r, i, j)
    | none => findRow rs a

/-- The register at BAR0 offset `a`; `none` for an offset that the map does not list (R597). -/
def regAt (a : Nat) : Option (RegRow × Nat × Nat) := findRow (blockRows a) a

/-- The reset word of a register from its fields' reset values; reserved bits are 0 (R15). -/
def fieldsReset (i : Nat) : List Field → Nat
  | [] => 0
  | f :: fs => ((f.reset + if f.perIndex then i else 0) <<< f.lo) + fieldsReset i fs

/-- The reset value of the register at offset `a`, 0 where the map lists none (R597). -/
def regReset (a : Nat) : Word :=
  match regAt a with
  | some (r, i, _) => BitVec.ofNat 32 (fieldsReset i r.fields)
  | none => 0

/-- Whether the map lists a register at offset `a`. -/
def regListed (a : Nat) : Bool := (regAt a).isSome

/-- The power domain of the block that BAR0 offset `a` lies in (R599, R602, R89): the AFE window of a lane belongs to
its AFE group and the rest of the lane block to its quad; DDR channels to their domains, the block-wide DDR registers
to DDR0; the quad decompressor registers to their quads. -/
def domainOf (a : Nat) : Nat :=
  if a < 0x10000 then 1
  else if a < 0x30000 then 0
  else if a < 0x100000 then 1
  else if a < 0x160000 then
    let n := (a - 0x100000) / 0x4000
    let o := (a - 0x100000) % 0x4000
    if 0x1000 ≤ o && o < 0x1800 then 14 + n / 4 else 2 + n / 4
  else if a < 0x180000 then 1
  else if a < 0x186000 then 2 + (a - 0x180000) / 0x1000
  else if a < 0x190000 then 1
  else if a < 0x190200 then 8 + (a - 0x190000) / 0x100
  else if a < 0x1C0000 then 8
  else if a < 0x200000 then 1
  else if a < 0x220000 then 13
  else if a < 0x220100 then 11
  else if a < 0x220200 then 11 + (a - 0x220100) / 0x80
  else if a < 0x250000 then 1
  else if a < 0x250200 then 10
  else if a < 0x250260 then 2 + (a - 0x250200) / 0x10
  else if a < 0x260000 then 10
  else if a < 0x270000 then 0
  else 1

end Sys2Proof.Machine
end

