-- ==== Sys2Proof/Machine/Profile.lean ====
section
/-!
DEFINITION. Jerk-limited profiles of one coordinate (R206 to R212, R382): the durations and distances the spec's formulas
give, and the position at a time. A profile is a list of segments of constant jerk; times are in femtoseconds, so that a
sample differs from the ideal one by far less than the 2^−16 unit the path carries (R204). Which of the two neighbouring
samples the device takes is not stated: it is a free value (assumption 6).
-/

namespace Sys2Proof.Machine

/-- A segment of constant jerk: its duration in fs and its jerk in units per s³. -/
structure Seg where
  dur : Nat
  jerk : Int
  deriving DecidableEq, Repr

/-- A profile of one coordinate from 0: speed in units per s and acceleration in units per s² at its start, then its
segments in order. -/
structure Prof where
  v0 : Int
  a0 : Int
  segs : List Seg
  deriving DecidableEq, Repr

/-- Exact scaled motion: `s` in units of 1/(6·10^45), `v` of 1/(2·10^30), `a` of 10^−15. -/
structure Kin where
  s : Int
  v : Int
  a : Int
  deriving DecidableEq, Repr

/-- `k` after `t` fs of jerk `j`. -/
def Kin.advance (k : Kin) (t : Nat) (j : Int) : Kin :=
  { s := k.s + 3 * k.v * t + 3 * k.a * t * t + j * t * t * t
    v := k.v + 2 * k.a * t + j * t * t
    a := k.a + j * t }

/-- Motion after `t` fs along segments; it holds its speed after the last one. -/
def kinAt : List Seg → Nat → Kin → Kin
  | [], t, k => k.advance t 0
  | g :: gs, t, k => if t ≤ g.dur then k.advance t g.jerk else kinAt gs (t - g.dur) (k.advance g.dur g.jerk)

/-- The motion of a profile `t` fs after its start. -/
def Prof.at (p : Prof) (t : Nat) : Kin :=
  kinAt p.segs t ⟨0, p.v0 * 2 * 10 ^ 30, p.a0 * 10 ^ 15⟩

/-- The duration of a profile in fs. -/
def Prof.dur (p : Prof) : Nat := sumN (p.segs.map (·.dur))

/-- Distance of a motion in 2^−16 units, rounded down. -/
def Kin.dist16 (k : Kin) : Int := k.s * 65536 / (6 * (10 : Int) ^ 45)

/-- Speed of a motion in units per s, rounded down. -/
def Kin.speed (k : Kin) : Int := k.v / (2 * (10 : Int) ^ 30)

/-- Acceleration of a motion in units per s², rounded down. -/
def Kin.accel (k : Kin) : Int := k.a / (10 : Int) ^ 15

/-- fs per second. -/
def fsPerS : Nat := 10 ^ 15

/-- The time of a change of speed by `dv` between steady speeds under acceleration `a` and jerk `j` (the formula of
R206), in fs. -/
def changeTime (dv a j : Nat) : Nat :=
  if a = 0 || j = 0 then 0
  else if a * a ≤ dv * j then dv * fsPerS / a + a * fsPerS / j
  else 2 * isqrt (dv * fsPerS * fsPerS / j)

/-- The segments of that change, `up` for rising speed. -/
def changeSegs (up : Bool) (dv a j : Nat) : List Seg :=
  let sg : Int := if up then j else -(j : Int)
  if dv = 0 || a = 0 || j = 0 then []
  else if a * a ≤ dv * j then
    let t1 := a * fsPerS / j
    [⟨t1, sg⟩, ⟨dv * fsPerS / a - t1, 0⟩, ⟨t1, -sg⟩]
  else
    let t1 := isqrt (dv * fsPerS * fsPerS / j)
    [⟨t1, sg⟩, ⟨t1, -sg⟩]

/-- The distance of a change between steady speeds `v1` and `v2`, in 2^−16 units: mean speed times its time. -/
def changeDist16 (v1 v2 a j : Nat) : Nat :=
  (v1 + v2) * changeTime (if v1 ≤ v2 then v2 - v1 else v1 - v2) a j * 32768 / fsPerS

/-- The highest peak speed in `[lo, hi]` whose changes from `v0` and to `v1` fit in `len16`, by bisection. -/
def peakSpeed (v0 v1 a j len16 : Nat) : Nat → Nat → Nat → Nat
  | 0, lo, _ => lo
  | k + 1, lo, hi =>
    if hi ≤ lo then lo
    else
      let m := (lo + hi + 1) / 2
      if changeDist16 v0 m a j + changeDist16 m v1 a j ≤ len16 then peakSpeed v0 v1 a j len16 k m hi
      else peakSpeed v0 v1 a j len16 k lo (m - 1)

/-- The time-optimal profile over `len16` (2^−16 units) from speed `v0` to speed `v1` at most at `vmax` (R206): a change
to the peak speed, a steady part and a change to the exit speed. A length too short for `vmax` peaks lower. -/
def planProf (v0 v1 vmax a j len16 : Nat) : Prof :=
  let lo := if v0 < v1 then v1 else v0
  let hi := if vmax < lo then lo else vmax
  let vp := peakSpeed v0 v1 a j len16 64 lo hi
  let rest := len16 - (changeDist16 v0 vp a j + changeDist16 vp v1 a j)
  let hold := if vp = 0 then 0 else rest * fsPerS / (65536 * vp)
  { v0 := v0, a0 := 0
    segs := changeSegs true (vp - v0) a j ++ [⟨hold, 0⟩] ++ changeSegs false (vp - v1) a j }

/-- The change of least time from speed `v` and acceleration `acc` to the steady speed `ve` (R206, R212, R237): the
acceleration goes to a peak towards it and back to 0. An acceleration above the limit first falls to it. -/
def changeProf (v acc ve : Int) (a j : Nat) : Prof :=
  if j = 0 || a = 0 then ⟨v, acc, []⟩
  else
    let up := decide (2 * v * j + acc * acc.natAbs ≤ 2 * ve * j)
    let sg : Int := if up then 1 else -1
    let toward := sg * acc
    let e : Int := sg * (ve - v) * j + acc * acc / 2
    let ap0 := isqrt e.toNat
    let ap := if ap0 < a then ap0 else a
    let rises := decide (toward ≤ ap)
    let t1 := ((ap : Int) - toward).natAbs * fsPerS / j
    let rest : Int := if rises then e - (ap : Int) * ap else e - acc * acc
    let t2 := if ap = 0 then 0 else (rest * fsPerS / ((ap : Int) * j)).toNat
    let t3 := ap * fsPerS / j
    ⟨v, acc, [⟨t1, if rises then sg * j else -sg * j⟩, ⟨t2, 0⟩, ⟨t3, -sg * j⟩]⟩

/-- The stop profile of least travel from speed `v` and acceleration `acc` (R212): the change to rest. -/
def stopProf (v acc : Int) (a j : Nat) : Prof := changeProf v acc 0 a j

/-- Distance of a whole profile in 2^−16 units. -/
def Prof.way (p : Prof) : Int := Kin.dist16 (Prof.at p (Prof.dur p))

/-- The profile run in the other direction. -/
def Prof.neg (p : Prof) : Prof := ⟨-p.v0, -p.a0, p.segs.map (fun g => ⟨g.dur, -g.jerk⟩)⟩

/-- Segments from `t` fs on. -/
def dropSegs : List Seg → Nat → List Seg
  | [], _ => []
  | g :: gs, t => if t ≤ g.dur then ⟨g.dur - t, g.jerk⟩ :: gs else dropSegs gs (t - g.dur)

/-- The profile from `t` fs after its start on. -/
def Prof.drop (p : Prof) (t : Nat) : Prof :=
  let k := Prof.at p t
  ⟨Kin.speed k, Kin.accel k, dropSegs p.segs t⟩

/-- The speed `ve` can be reached from speed `v` and acceleration `acc` within `len16` (R237). -/
def canReach (v acc ve : Int) (a j : Nat) (len16 : Int) : Bool := decide (Prof.way (changeProf v acc ve a j) ≤ len16)

/-- The highest of `lo` to `hi` at which `ok` holds, by bisection; `lo` where none does. -/
def highest (ok : Int → Bool) : Nat → Int → Int → Int
  | 0, lo, _ => lo
  | k + 1, lo, hi =>
    if hi ≤ lo then lo
    else
      let m := (lo + hi + 1) / 2
      if ok m then highest ok k m hi else highest ok k lo (m - 1)

/-- A change to speed `vp`, `hold` fs at it, and a change to speed `ve`. -/
def cruiseProf (v acc vp ve : Int) (hold a j : Nat) : Prof :=
  ⟨v, acc, (changeProf v acc vp a j).segs ++ [⟨hold, 0⟩] ++ (changeProf vp 0 ve a j).segs⟩

/-- Acceleration eased from `acc` below 0 to `x` above it, then the change to `ve`. -/
def easeProf (v acc x ve : Int) (a j : Nat) : Prof :=
  let p : Prof := ⟨v, acc, [⟨((x - acc) * fsPerS / j).toNat, j⟩]⟩
  let k := Prof.at p (Prof.dur p)
  ⟨v, acc, p.segs ++ (changeProf (Kin.speed k) x ve a j).segs⟩

/-- The fastest profile over `way16`, not shorter than the direct change, from speed `v` and acceleration `acc` to speed `ve`:
one peak of speed, at most `vmax` (R206, R207, R237). Where bringing the acceleration to 0 alone leads above `vmax`, the peak is
sought between `ve` and `vmax` (assumption 22). -/
def forwardProf (v acc ve : Int) (vmax a j : Nat) (way16 : Int) : Prof :=
  let vz := if j = 0 then v else v + acc * acc.natAbs / (2 * (j : Int))
  if acc < 0 && decide (ve < vz) && decide (way16 < Prof.way (easeProf v acc 0 ve a j)) then
    easeProf v acc (highest (fun x => decide (Prof.way (easeProf v acc x ve a j) ≤ way16)) 64 acc 0) ve a j
  else
    let lo := if vz ≤ vmax && decide (ve < vz) then vz else ve
    let hi : Int := if (vmax : Int) < lo then lo else vmax
    let vp := highest (fun x => decide (Prof.way (cruiseProf v acc x ve 0 a j) ≤ way16)) 64 lo hi
    let rest := way16 - Prof.way (cruiseProf v acc vp ve 0 a j)
    cruiseProf v acc vp ve (if vp ≤ 0 then 0 else (rest * fsPerS / (65536 * vp)).toNat) a j

/-- The fastest profile over `way16`, which may be negative, from speed `v` and acceleration `acc` to speed `ve`. -/
def pointProf (v acc ve : Int) (vmax a j : Nat) (way16 : Int) : Prof :=
  if canReach v acc ve a j way16 then forwardProf v acc ve vmax a j way16
  else (forwardProf (-v) (-acc) (-ve) vmax a j (-way16)).neg

/-- The profile to rest at `way16` that arrives `dur` fs after its start with the lowest peak speed (R207); the fastest one
where that takes as long. -/
def lateProf (v acc : Int) (vmax a j : Nat) (way16 : Int) (dur : Nat) : Prof :=
  let fast := pointProf v acc 0 vmax a j way16
  if dur ≤ Prof.dur fast || way16 = 0 && v = 0 && acc = 0 then fast
  else
    let fwd := canReach v acc 0 a j way16
    let (v1, a1, w) := if fwd then (v, acc, way16) else (-v, -acc, -way16)
    let run (x : Int) : Prof :=
      let p := cruiseProf v1 a1 x 0 0 a j
      cruiseProf v1 a1 x 0 (if x ≤ 0 then 0 else ((w - Prof.way p) * fsPerS / (65536 * x)).toNat) a j
    let p := run (highest (fun x => decide (dur ≤ Prof.dur (run x))) 64 1 vmax)
    if fwd then p else p.neg

/-- The times in a segment of constant jerk at which its speed is 0, from the motion `k` at its start. -/
def turnTimes (k : Kin) (g : Seg) : List Nat :=
  let ts : List Int :=
    if g.jerk = 0 then (if k.a = 0 then [] else [-k.v / (2 * k.a)])
    else
      let q := k.a * k.a - g.jerk * k.v
      if q < 0 then []
      else
        let r : Int := isqrt q.toNat
        [(-k.a - r) / g.jerk, (-k.a + r) / g.jerk]
  ((ts.filter (fun (t : Int) => decide (0 < t) && decide (t < (g.dur : Int)))).map Int.toNat)

/-- Lowest and highest distance along segments, in 2^−16 units. -/
def segsRange : List Seg → Kin → Int × Int → Int × Int
  | [], k, r => (if Kin.dist16 k < r.1 then Kin.dist16 k else r.1, if r.2 < Kin.dist16 k then Kin.dist16 k else r.2)
  | g :: gs, k, r =>
    let ds := Kin.dist16 k :: (turnTimes k g).map (fun t => Kin.dist16 (k.advance t g.jerk))
    segsRange gs (k.advance g.dur g.jerk)
      (ds.foldl (fun r d => (if d < r.1 then d else r.1, if r.2 < d then d else r.2)) r)

/-- The range of distances that a profile covers. -/
def Prof.range (p : Prof) : Int × Int := segsRange p.segs ⟨0, p.v0 * 2 * 10 ^ 30, p.a0 * 10 ^ 15⟩ (0, 0)

/-- The trapezoidal profile over `len16` from speed `v0` to speed `v1` at most at `vmax`, with acceleration `a` and
deceleration `d` and no jerk limit: the acceleration steps, so that each part is one segment of its own profile. -/
structure Trap where
  v0 : Nat
  vp : Nat
  v1 : Nat
  a : Nat
  d : Nat
  hold : Nat
  deriving DecidableEq, Repr

/-- The peak speed of a trapezoid over `len16`: v² = (2·a·d·L + d·v0² + a·v1²)/(a + d), at most `vmax`. -/
def planTrap (v0 v1 vmax a d len16 : Nat) : Trap :=
  let vp0 := if a + d = 0 then vmax else isqrt ((2 * a * d * len16 / 65536 + d * v0 * v0 + a * v1 * v1) / (a + d))
  let vp := if vmax < vp0 then vmax else vp0
  let vp := if vp < v0 then v0 else vp
  let up := if a = 0 then 0 else (vp * vp - v0 * v0) * 32768 / a
  let dn := if d = 0 then 0 else (vp * vp - v1 * v1) * 32768 / d
  let hold := if vp = 0 then 0 else (len16 - (up + dn)) * fsPerS / (65536 * vp)
  ⟨v0, vp, v1, a, d, hold⟩

/-- The duration of a trapezoid in fs. -/
def Trap.dur (p : Trap) : Nat :=
  (if p.a = 0 then 0 else (p.vp - p.v0) * fsPerS / p.a) + p.hold + (if p.d = 0 then 0 else (p.vp - p.v1) * fsPerS / p.d)

/-- Distance in 2^−16 units and speed of a trapezoid `t` fs after its start. -/
def Trap.at (p : Trap) (t : Nat) : Nat × Nat :=
  let ta := if p.a = 0 then 0 else (p.vp - p.v0) * fsPerS / p.a
  let td := if p.d = 0 then 0 else (p.vp - p.v1) * fsPerS / p.d
  let dist (v : Nat) (a : Int) (t : Nat) : Nat :=
    ((2 * (v : Int) * t * fsPerS + a * t * t) * 32768 / ((fsPerS : Int) * fsPerS)).toNat
  if t ≤ ta then (dist p.v0 p.a t, p.v0 + p.a * t / fsPerS)
  else
    let d1 := dist p.v0 p.a ta
    let t := t - ta
    if t ≤ p.hold then (d1 + dist p.vp 0 t, p.vp)
    else
      let d2 := d1 + dist p.vp 0 p.hold
      let t := t - p.hold
      let t := if t < td then t else td
      (d2 + dist p.vp (-(p.d : Int)) t, p.vp - p.d * t / fsPerS)

end Sys2Proof.Machine
end

