-- ==== Sys2Proof/Machine/State.lean ====
section
/-!
DEFINITION. The state of the block, as plain data. The registers of BAR0 stand in `regs` (and their shadows, captures and
latches beside it), keyed by BAR0 offset: `Sys2Proof/Machine/RegMap.lean` lists every one. What the spec gives the device
beyond its registers stands in one structure per subsystem below.
A keyed list `List (Nat × α)` is a sparse array: an index it does not list holds the reset value of `α`.
-/

namespace Sys2Proof.Machine

/-- The status codes of R138. -/
inductive Status where
  | ok | badOpcode | badParam | wrongState | busy | noGrant | tempForbidden | locked | cfgRejected
  | dmaError | dataCrc | outputFull | expansionLimit | domainOff
  | fabricUnreachable | timeout | faultActive | internal
  deriving DecidableEq, Repr

/-! ### Commands in progress (R134, R136) -/

/-- Who issued a command: its ring and TAG, and for a command forwarded over the fabric the issuer's address (R437). -/
structure Issuer where
  ring : Nat
  tag : Nat
  src : Option Nat
  deriving DecidableEq, Repr

/-- A command whose work lasts beyond the fetch: its opcode, issuer, the object it works on, whether its completion is to
be discarded because its ring was reset (R92, R134), figures its completion needs, and the time in ns at which it began. -/
structure Running where
  op : Nat
  from_ : Issuer
  key : Nat
  dropped : Bool
  aux : List Nat
  since : Nat
  deriving DecidableEq, Repr

/-- A command fetched from a ring and not yet started: ring, TAG, opcode and the 64 packet bytes (R130, R133), and whether
its ring was reset since (R134). -/
structure Fetched where
  ring : Nat
  tag : Nat
  op : Nat
  bytes : List Byte
  dropped : Bool
  deriving DecidableEq, Repr

/-- A completion before it takes its slot (R133). -/
structure Completion where
  ring : Nat
  tag : Nat
  op : Nat
  status : Status
  remote : Bool
  r0 : Nat
  r1 : Nat
  r2 : Nat
  extra : Nat
  time : Nat
  deriving DecidableEq, Repr

/-- A write to host memory that waits while requests are held (R121). -/
inductive HostOp where
  | write (addr : Nat) (bytes : List Byte)
  | complete (c : Completion)
  deriving DecidableEq, Repr

/-- The host interface beyond its registers: what the host can write in the configuration space, namely Bus Master Enable and D3hot (R121),
INTx Disable and Interrupt Line (R118) and the bases of BAR0 and BAR2 (R119); whether the PCIe link core is held in
reset, the submission tails and completion heads that the write-only doorbells set (R124, R126), the round-robin turn
(R130), the fetched commands, the writes held back, and the status mirror setting (R144). -/
structure Hif where
  bme : Bool
  d3hot : Bool
  intxDis : Bool
  intLine : Nat
  bar0 : Nat
  bar2 : Nat
  perst : Bool
  linkUp : Bool
  sqTail : List (Nat × Nat)
  cqHead : List (Nat × Nat)
  turnRing : Nat
  turnTaken : Nat
  fetched : List Fetched
  /-- Ring and TAG of started commands whose ring was reset before they started: their completions are discarded. -/
  voided : List (Nat × Nat)
  held : List HostOp
  mirrorAddr : Nat
  mirrorPeriod : Nat
  mirrorSeq : Nat
  /-- Fabric time in ns at which the present mirror period has elapsed (R142). -/
  mirrorDue : Nat
  deriving DecidableEq, Repr

/-! ### Power, boot and temperature -/

/-- The fuses: serial number, public-key hash, rollback counter (R97) and the programmed repair entries (R577). -/
structure Fuses where
  serial : Nat
  keyHash : Nat
  rollback : Nat
  entries : List Nat
  deriving DecidableEq, Repr

/-- The pins that the device samples or drives outside the lanes, axes and panel: the straps (R69), SAFE_N, THERM_TRIP_N,
INTERLOCK_N and the four TRIG outputs. -/
structure Pins where
  bootSel : Nat
  fabAddr : Nat
  fabRefclk : Bool
  safeN : Bool
  thermTripN : Bool
  interlockN : Bool
  trig : Nat
  deriving DecidableEq, Repr

/-- A held die-ledger grant: the operation of R102 in table order, the unit it is held for and its cost in 0.1 W. -/
structure DieGrant where
  op : Nat
  unit : Nat
  cost : Nat
  deriving DecidableEq, Repr

/-- The running firmware: version, rollback version, body length, boot source and flash slot (R147), and whether its
ADVANCE flag waits to be programmed (R98). -/
structure Firmware where
  version : Nat
  rollback : Nat
  length : Nat
  source : Nat
  slot : Nat
  advance : Bool
  deriving DecidableEq, Repr

/-- Power, reset and boot beyond the PWR registers. -/
structure Pwr where
  /-- The device is in the safe state (R106). -/
  safe : Bool
  /-- A thermal shutdown is latched (R115): its outputs stay safe and every clock but AON and the PCIe link core stands. -/
  thermLatch : Bool
  /-- The latch held when VDD_CORE was removed while VDD_AON stayed, so that the next boot sets THERM_PRIOR (R115). -/
  thermPrior : Bool
  /-- The device stands in a reset that has not ended (R90, R95): 0 none, 1 all but the AON domain, 2 all of it. -/
  held : Nat
  /-- Rails held below their thresholds, one bit per row of R84. -/
  uvRails : Nat
  /-- Switchings in progress: domain, and whether it goes on (R88). -/
  switching : List (Nat × Bool)
  /-- Domains held in reset by RESET_DOMAIN, as a mask (R93). -/
  inReset : Nat
  /-- Die-ledger grants held (R102). -/
  die : List DieGrant
  /-- Refused internal operations that firmware retries (R103). -/
  dieRetry : List DieGrant
  /-- The boot image received so far in chunks over PCIe, and over the service port (R99, R100). -/
  image : List Byte
  imageUsb : List Byte
  /-- Which source delivers the image in WAIT_IMAGE: 0 none has delivered a header yet, 1 PCIe, 2 service port (R99). -/
  imageFrom : Nat
  fw : Firmware
  /-- AON power-on count, kept in the retained header (R571). -/
  aonCount : Nat
  deriving DecidableEq, Repr

/-- The temperature sensors beyond the THM registers: consecutive samples that differed (R109), and consecutive 62.5 µs
samples with no sensor in any band (R110). -/
structure Thm where
  streak : List (Nat × Nat)
  calm : Nat
  /-- The pause level's fault is in force (R111). -/
  paused : Bool
  deriving DecidableEq, Repr

/-! ### Faults and the event recorder -/

/-- An event record before its CRC (R561). -/
structure EvRec where
  time : Nat
  source : Nat
  code : Nat
  seq : Nat
  payload : List Byte
  deriving DecidableEq, Repr

/-- A recovery timer: the class and lane mask of the fault that started it, its source, and when it expires in ns (R553). -/
structure RTimer where
  cls : Nat
  lanes : Nat
  source : Nat
  due : Nat
  deriving DecidableEq, Repr

/-- A recovery in progress: its governing class, the lanes in its scope and its running timers (R553). -/
structure Recovery where
  cls : Nat
  lanes : Nat
  timers : List RTimer
  deriving DecidableEq, Repr

/-- A fault taken without a table entry (R579). -/
structure LooseFault where
  code : Nat
  source : Nat
  cls : Nat
  gone : Bool
  deriving DecidableEq, Repr

/-- The recorder and fault logic beyond their registers. -/
structure Evr where
  fifo : List EvRec
  /-- An EVENTS_LOST record is to start the main ring after a thaw (R568). -/
  thawLost : Bool
  recov : List Recovery
  loose : List LooseFault
  /-- The trace freezes at the end of this tick, with this fault code (R570). -/
  freezeNow : Option Nat
  /-- Last watchdog expiry of each conductor, in ns (R559). -/
  wdLast : List (Nat × Nat)
  /-- Soft SRAM repairs not yet fused, as fuse words (R577, R578). -/
  soft : List Nat
  /-- Words of the always-on retained region stored with an uncorrectable error, by SRAM offset (R491). -/
  bad : List Nat
  deriving DecidableEq, Repr
/-! ### Cameras -/

/-- What a lane was doing at a past boundary (R327, R369): its time in ns, the plate position in PLU, the record in execution, GATE,
Pb and Pa of the tick, whether the tick met R367, and the recipe of the mark. -/
structure PastTick where
  time : Nat
  x : Int
  y : Int
  vid : Nat
  gate : Bool
  pb : Nat
  pa : Nat
  ok : Bool
  recipe : Nat
  deriving DecidableEq, Repr

/-- A frame of a context (R320, R324): its number, GEN and SENSOR_GEN, TRANSITION, LATE and SENSOR_UNSURE, the frame number field
of its Frame Start, the times of Frame Start and Frame End in ns, the cause of its truncation (0 none), the lines received, the
pipeline that serves it, the settings in force (the eight configuration words, ISP_CTX_CFG to ISP_CTX_ROUTE), the aperture lines
buffered and those processed, each a list of pixels (band A, band B). -/
structure CamFrame where
  frame : Nat
  gen : Nat
  senGen : Nat
  trans : Bool
  late : Bool
  unsure : Bool
  csi : Nat
  fsTime : Nat
  feTime : Option Nat
  cause : Nat
  lines : Nat
  pipe : Nat
  set : List Word
  buf : List (List (Nat × Nat))
  rows : List (List (Nat × Nat))
  deriving DecidableEq, Repr

/-- The sensor writes of a commit (R325): its generation, the 8-byte items not yet sent, whether its settings are in effect, once they
may be sent the last frame that ended before them, and once they are sent the first frame exposed with them. -/
structure SensorBatch where
  gen : Nat
  items : List (List Nat)
  applied : Bool
  base : Option Nat
  first : Option Nat
  deriving DecidableEq, Repr

/-- A write on a camera's bus (R325): the target's address and the bytes that follow it, in the order sent. -/
structure BusWrite where
  target : Nat
  bytes : List Byte
  deriving DecidableEq, Repr

/-- An image pipeline (R317, R318): the context whose turn it is, the times in fs at which its lines taken so far end and at which one of a
background context may begin again, and the clock cycles spent, with the boundary in ns that each line followed. -/
structure Pipe where
  turn : Nat
  busyTo : Nat
  backTo : Nat
  spent : List (Nat × Nat)
  deriving DecidableEq, Repr

/-- A statistics record that awaits delivery (R328): STATUS, the routed lane, ROUTES, the metric of L1_METRIC, FRAME, AREA, RATIO, GEN,
the plate position, the boundary it was sampled at, and the boundary in ns after which it was ready. -/
structure CamRec where
  status : Nat
  lane : Nat
  routes : Nat
  metric : Nat
  frame : Nat
  area : Nat
  ratio : Nat
  gen : Nat
  x : Int
  y : Int
  past : Option PastTick
  ready : Nat
  deriving DecidableEq, Repr

/-- A camera context beyond its registers: its frames not yet recorded, oldest first, its credit in pixels (R317), the captured
commit (generation and the eight words) with its time in ns, whether its writes were not sent in time, its sensor writes, the records
that await delivery, whether POS_OFFSET_CLIPPED was recorded in this layer, the time in ns from which the frame-start watchdog counts
(none while the context is suspended, R313, R322), and the last frame whose Frame End came. -/
structure Ctx where
  frames : List CamFrame
  credit : Nat
  commit : Option (Nat × List Word)
  commitAt : Nat
  overdue : Bool
  writes : List SensorBatch
  out : List CamRec
  clipped : Bool
  watch : Option Nat
  lastEnd : Nat
  deriving DecidableEq, Repr


/-! ### Jobs, layers and lanes -/

/-- An exposure recipe (R161). -/
structure Recipe where
  flags : Nat
  power : Nat
  markSpeed : Nat
  jumpSpeed : Nat
  focus : Int
  headroom : Nat
  loopEn : Nat
  onDelay : Int
  offDelay : Int
  settle : Nat
  setpoints : List Nat
  corners : List Nat
  deriving DecidableEq, Repr

/-- A vector record, decoded (R154). -/
structure VRec where
  ty : Nat
  recipe : Nat
  laneset : Nat
  flags : Nat
  sx : Int
  sy : Int
  ex : Int
  ey : Int
  focus : Int
  arg : Nat
  vid : Nat
  deriving DecidableEq, Repr

/-- One lane entry of a layer descriptor (R169). -/
structure StreamEntry where
  addr : Nat
  len : Nat
  count : Nat
  firstId : Nat
  lastId : Nat
  deriving DecidableEq, Repr

/-- The layer held: its descriptor's fields (R169), and the lane sets that its records name (R168). -/
structure Layer where
  layer : Nat
  laneMask : Nat
  seed : Nat
  framing : Nat
  entries : List (Nat × StreamEntry)
  sets : List Nat
  total : Nat
  deriving DecidableEq, Repr

/-- Why a layer ends (R185, R198): 0 work resolved, 1 LAYER_ABORT, 2 a fault, with its code. -/
structure EndCause where
  cause : Nat
  fault : Nat
  deriving DecidableEq, Repr

/-- The layer sequencer beyond the SEQ registers: the open job (R148), the tables (R161, R166), the layer held, the
pending start, the stop bath and abort requests and the figures of the contact sheet. -/
structure Seq where
  job : Option Nat
  hostBase : Nat
  hostLen : Nat
  devBase : Nat
  devLen : Nat
  /-- DEV_BASE of the last job opened since reset (R200). -/
  lastDev : Option Nat
  recipes : List (Nat × Recipe)
  laneSets : List (Nat × List Nat)
  held : Option Layer
  /-- Number of the current or last layer (R143). -/
  lastLayer : Nat
  /-- The descriptor that the running load pass expands (R172). -/
  loading : Option Nat
  /-- The load pass met uncorrectable memory data (R485). -/
  loadBad : Bool
  /-- The start that awaits its boundary: fabric time, and whether it is a RESUME (R183, R193). -/
  start : Option (Nat × Bool)
  /-- Layer and START reported by plate-group peers, by fabric address (R184). -/
  peerStart : List (Nat × Nat × Nat)
  /-- Exposure of the layer has started. -/
  started : Bool
  startTick : Nat
  /-- A stop bath is requested (R190). -/
  stopReq : Bool
  /-- An abort is requested and why (R195, R178). -/
  abortReq : Option EndCause
  /-- Effective time of the stop bath in progress, time of the last park, and the masks of R191. -/
  stopAt : Nat
  lastPark : Nat
  splitMask : Nat
  finishMask : Nat
  stopBaths : Nat
  pausedNs : Nat
  holdoverTicks : Nat
  maxTemp : Int
  maxSensor : Nat
  /-- Layer faults recorded once per layer: lane sets without a zone (R265) and lanes reported BORDER_NOT_SENT (R290). -/
  unmapped : List Nat
  borderSeen : Nat
  deriving DecidableEq, Repr

/-- A piece of work of a lane: a record, the part of it to be marked as distances in PLU from its start (R283), the split
distance and the segment code of R279, where it comes from (its own stream, the pool entry of a home lane, or a remote
owner), and for a remainder the split point as a distance (R193). -/
structure Work where
  rcd : VRec
  lo : Int
  hi : Int
  split : Int
  seg : Nat
  /-- 0 own stream; 1 own pool entry; 2 entry of another local lane; 3 entry of a remote owner. -/
  src : Nat
  home : Nat
  zone : Nat
  resume : Option Int
  notBefore : Nat
  /-- Estimated duration in ns, computed when the record was decompressed or the part cut off (R268). -/
  tr : Nat
  /-- Index of the record in the own stream, or in the home lane's for a pool entry of this device (R174, R175). -/
  idx : Nat
  /-- Stitch overlap of the split in PLU (R281, R283). -/
  ov : Nat
  deriving DecidableEq, Repr

/-- What a lane is doing. -/
inductive Phase where
  | idle | priming | ready | free | jump | settle | waitGrant | waitPlume | waitEmit | runup | marking | runout
  | dwell | switching | hold | underrun | stopping | parked | ended | halted
  deriving DecidableEq, Repr

/-- A planned motion (R206, R207): the line from `(x0, y0)` to `(x1, y1)` and the focus move from `f0` to `f1`, in 2^−16
units; `t` is the time since its start in fs. A jump from rest has both profiles stretched to the common duration `dur`. With
`apart` each profile runs on its own time (R212, R237), and `axes` are the profiles of X, Y and F of a motion planned per axis
(R207, R211). `vlim` is the speed limit of a jump in PLU/s, the lane's own apart. -/
structure Motion where
  x0 : Int
  y0 : Int
  x1 : Int
  y1 : Int
  len : Nat
  prof : Prof
  f0 : Int
  f1 : Int
  fprof : Prof
  dur : Nat
  t : Nat
  apart : Bool
  axes : Option (Prof × Prof × Prof)
  vlim : Nat
  deriving DecidableEq, Repr

/-- An on-window of GATE: rise and fall in fs of fabric time, the mark it belongs to, at a chain the one in progress, when that mark's
motion ended, and whether the mark has been settled with its pool (R243, R244, R267). -/
structure GateWin where
  rise : Nat
  fall : Option Nat
  work : Work
  ended : Option Nat
  settled : Bool
  deriving DecidableEq, Repr

/-- Drift terms staged by DRIFT_TERMS_SET (R221): APPLY, MASK and the eight terms. -/
structure DriftStage where
  apply : Nat
  mask : Nat
  terms : List Int
  deriving DecidableEq, Repr

/-- A jog in progress (R233): whether in raw mode, and its target, in counts or in PLU and µm. -/
structure Jog where
  raw : Bool
  tx : Int
  ty : Int
  tz : Int
  deriving DecidableEq, Repr

/-- The course of a raw jog (R233): on each axis the counts and the counts per tick at its start, both in 2^−16, its target in
counts, SPEED, the ticks since its start, and whether it is a stop (R212). -/
structure RawRun where
  px : Int
  py : Int
  pz : Int
  vx : Int
  vy : Int
  vz : Int
  tx : Int
  ty : Int
  tz : Int
  speed : Nat
  ticks : Nat
  stop : Bool
  deriving DecidableEq, Repr

/-- A retarget that awaits its boundary (R211): for a raw jog the target in counts, else the point in 2^−16 units; the speed of
the jog in its own units, or the limit of the jump in PLU/s; whether it is a jog's. -/
structure Retarget where
  raw : Bool
  jog : Bool
  x : Int
  y : Int
  f : Int
  v : Nat
  deriving DecidableEq, Repr

/-- A closed loop beyond its registers (R340 to R346, R352): the filtered derivative, y_prev and whether it is set in this
start, p and d, the last error and whether an update of the input came, the start count, the held output, the time in HOLD
within the window in ns and whether it was reported in this layer, a TAKE that awaits its boundary, and the coefficient
writes of a LOOP_COEF_WRITE still to be applied (0 KP, 1 KI, 2 KD, 3 KF). -/
structure Loop where
  fd : Int
  yPrev : Int
  ySet : Bool
  p : Int
  d : Int
  e : Int
  upd : Bool
  count : Nat
  held : Int
  holdNs : Nat
  said : Bool
  take : Bool
  coefs : List (Nat × Nat)
  deriving DecidableEq, Repr

/-- What a calibration run has computed (R303): offsets, ratio, whether the ratio was accepted and whether dark ticks were short. -/
structure AfeRes where
  offH : Nat
  offL : Nat
  ratio : Nat
  acc : Bool
  short : Bool
  deriving DecidableEq, Repr

/-- A photodiode input beyond its registers: the sums of its dark means in 1/256 code (R301), a pending run (since when in ns,
from power-on, from AFE_CALIBRATE with MODE 1; R304, R305), the start of a run in progress in ns, the last boundary in ns that a
run makes STALE (R306), whether no run has ended since power-on or enabling, whether an offset has been valid since power-on,
values written while it runs (R307: OFF_H, OFF_L, RATIO, CAL_TEMP), and the results that await the next boundary. -/
structure AfeIn where
  darkH : Nat
  darkL : Nat
  pend : Option Nat
  power : Bool
  now1 : Bool
  run : Option Nat
  staleTo : Nat
  fresh : Bool
  offValid : Bool
  written : Option (Nat × Nat × Nat × Nat)
  result : Option AfeRes
  deriving DecidableEq, Repr

/-- One lane beyond its registers. -/
structure Lane where
  phase : Phase
  /-- Records written to the latent image buffer and records taken from it, since LAYER_ARM (R173). -/
  written : Nat
  head : Nat
  /-- The refill check that failed: code, VECTOR_ID stored and expected (R176). -/
  refillErr : Option (Nat × Nat × Nat)
  /-- A DRAM read of the lane's refill met uncorrectable data (R485). -/
  refillBad : Bool
  /-- End-of-stream taken (R157). -/
  atEnd : Bool
  cur : Option Work
  succ : Option Work
  motion : Motion
  px : Int
  py : Int
  pf : Int
  recipe : Option Nat
  kept : List Work
  /-- Time left of a dwell, a settle hold or a recipe switch, in fs (R157, R161, R163). -/
  holdFs : Nat
  claimed : List Work
  /-- Sum and number of t_r of own records decompressed (R269). -/
  trSum : Nat
  trCount : Nat
  gates : List GateWin
  /-- Fabric time in fs since which EMIT is high (R246). -/
  emitAt : Nat
  /-- Speed planned at the end of the current mark, in PLU/s: above 0 at a corner and into a run-out (R208, R209). -/
  exitSpeed : Nat
  /-- The next mark continues the path at the vertex, at speed or from rest (R208). -/
  corner : Bool
  /-- Fabric time in fs at which the motion of the current mark begins, once it is fixed (R245). -/
  startAt : Option Nat
  /-- The mark whose on-window is open or was last open; last rise and fall of GATE, and before them the pulses that ended within 125 ns of
  that rise with one older, newest first, all in fs (R243, R301). -/
  gateWork : Option Work
  gateRose : Nat
  gateFell : Nat
  gatePrev : List (Nat × Nat)
  /-- VECTOR_ID of the last mark counted in LEDGER_WAITS (R255). -/
  waited : Option Nat
  /-- The marker value last executed and the fabric time at which the lane passed it (R157). -/
  marker : Option (Nat × Nat)
  /-- Energy applied in the layer, in 1/256 mW ns (R199). -/
  energy : Nat
  /-- The re-mark in progress: its start and its split point, as distances in PLU (R193). -/
  remark : Option (Int × Int)
  drift : Option DriftStage
  jog : Option Jog
  raw : Option RawRun
  /-- Where the scanner stands while no plate position gives it, as the map would give it before drift, in 1/256 count: after reset,
  a raw jog, a tick overrun or a new map (R37, R227, R233; assumption 19). -/
  held : Option (Int × Int × Int)
  retarget : Option Retarget
  /-- Layer markers and the end of the stream that the lane has taken and will pass at the end of its current record (R157). -/
  passed : List VRec
  /-- The plate point and focus of the last frame transmitted (R37). -/
  sentPt : Int × Int × Int
  /-- Fabric time in fs at which the scanner came to rest in a stop bath (R190). -/
  restAt : Nat
  /-- The speed planned during a run-up for the end of its mark, in PLU/s (R209). -/
  endSpeed : Option Nat
  /-- Link: outbound sequence, valid return frames in a row, link errors in a row, frames outside the deviation window in
  a row, SCAN_DEVIATION raised for this excursion, transmitted positions (newest first). -/
  frameSeq : Nat
  /-- The outbound frame whose answer is expected (R224). -/
  expFrame : Nat
  goodRun : Nat
  errRun : Nat
  devRun : Nat
  devRaised : Bool
  sent : List (Int × Int × Int)
  /-- Counts out of range at the last tick (R220). -/
  rangeOut : Bool
  /-- Largest deviation of the last return frame (R570). -/
  lastDev : Nat
  /-- Serial frame count (R240). -/
  lpSeq : Nat
  /-- The shutter path acted since the last boundary (R251). -/
  shut : Bool
  /-- Contact-sheet counters by their byte offset in the lane record (R199). -/
  sheet : List (Nat × Nat)
  /-- Claims outstanding at a remote owner: owner, zone and REQ_TIME (R276). -/
  claimOut : Option (Nat × Nat × Nat)
  /-- The loops by number, whether the last tick lay inside the on-window, Pb and Pa of the last tick in LPU, whether the
  set-points go to their targets at once (R346), what L1 was given since the last tick (usable and value, R335), and the
  inputs whose last window overranged (R337). -/
  loops : List (Nat × Loop)
  window : Bool
  pb : Int
  pa : Int
  spNow : Bool
  l1In : Option (Bool × Int)
  pdOver : Nat
  /-- The photodiode inputs. -/
  afe : List (Nat × AfeIn)
  /-- What goes to the scanner in the present frame period (R222, R223, R226): on BSL3 and BSL2 the bits of its code groups, IDLE
  groups after the frame included, on BSL1 the half-cells that begin with a transition; what goes out on LP in the tick: the 33
  levels of a frame or the pulse width in 250 ps units (R240, R241); and the level at which LP rests between (R240 to R242, R261). -/
  bslOut : Nat
  lpOut : Nat
  lpRest : Bool
  /-- Estimated durations in ns of the records in the buffer not yet executed, oldest first, 0 for pool entries (R268). -/
  trs : List Nat
  /-- The successor was due and no record was there: the lane underran (R188). -/
  under : Bool
  /-- The boundaries held for camera records, newest first, at most 256 (R327). -/
  past : List PastTick
  /-- The burn factor of the last tick; none while the lane looks none up (R366). -/
  burnF : Option Nat
  deriving DecidableEq, Repr

/-- A ledger request or grant: lane, slot, mW, the tick of the request and for a grant that of the grant, VECTOR_ID. Slots: 0
the current mark, 1 the successor, 2 a mark that has ended and whose GATE has yet to fall, 3 released at the next boundary
(R253, R257). -/
structure GrantReq where
  lane : Nat
  slot : Nat
  mw : Nat
  tick : Nat
  vid : Nat
  deriving DecidableEq, Repr

/-- The laser power ledger beyond the LEDG registers (R253): requests waiting, oldest first, grants held, and the tick of a
start boundary, at which the ceiling does not rise (R256). -/
structure Ledger where
  waiting : List GrantReq
  grants : List GrantReq
  still : Option Nat
  deriving DecidableEq, Repr

/-- State of a pool entry (R267); `done` and `lost` entries have left the pool. -/
inductive PoolState where
  | opened | homePending | homeOnly | claimed | started
  deriving DecidableEq, Repr

/-- An entry of a shared pool (R267): its zone, home lane, work, state, the global lane that holds it and whether home may
be overtaken while it is pending. -/
structure PoolEntry where
  /-- Index of the record in the home lane's stream: its slot is free only when the entry is resolved (R175). -/
  idx : Nat
  zone : Nat
  home : Nat
  work : Work
  state : PoolState
  holder : Nat
  grantable : Bool
  deriving DecidableEq, Repr

/-- A remote lane's estimate (R271): E and Q in µs, when it was sent, whether the lane is open, and whether its device
exposes. -/
structure RemoteEst where
  e : Nat
  q : Nat
  sent : Nat
  open_ : Bool
  halted : Bool
  exposing : Bool
  deriving DecidableEq, Repr

/-- A border-lane position from a peer (R291). -/
structure BorderPos where
  lane : Nat
  gate : Bool
  tick : Nat
  x : Int
  y : Int
  deriving DecidableEq, Repr

/-- A CLAIM that waits for the next boundary (R273). -/
structure ClaimIn where
  dev : Nat
  zone : Nat
  lane : Nat
  e : Nat
  q : Nat
  req : Nat
  deriving DecidableEq, Repr

/-- The overlap unit beyond the OVL registers. -/
structure Ovl where
  pool : List PoolEntry
  ests : List (Nat × RemoteEst)
  border : List (Nat × List BorderPos)
  claims : List ClaimIn
  /-- The spots that cast corridors at the present boundary, by the plans before any lane was blocked there: lane, 24 and up for a
  remote one, and position (R286). -/
  casters : List (Nat × Int × Int)
  /-- Members that report a holdover excess (R292). -/
  excess : Nat
  /-- The last boundary in ns at which a member reported an excess (R292). -/
  excessAt : Nat
  /-- Peers whose POSITION records have stopped, and the time in ns of each peer's last one (R291). -/
  stale : Nat
  heard : List (Nat × Nat)
  deriving DecidableEq, Repr

/-! ### The fabric, fabric time and the service port -/

/-- A Brodris frame (R416) without its link sequence number: class (0 LINK, 1 HANDOFF, 2 CONTROL, 3 BULK; 4 for a TIME
frame), type, destination and source address, HOPS, E2E_SEQ when it carries one, and the fields of its payload. -/
structure Frame where
  cls : Nat
  ty : Nat
  dst : Nat
  src : Nat
  hops : Nat
  e2e : Option Nat
  body : List Nat
  deriving DecidableEq, Repr

/-- A HELLO as it was received (R427): the peer's address and conditions, the root it names with its distance, the size of its
fabric, and the devices of it. -/
structure HelloIn where
  addr : Nat
  info : DevInfo
  root : Nat
  rootHops : Nat
  size : Nat
  dir : List (Nat × DevInfo)
  deriving DecidableEq, Repr

/-- A fabric port beyond its registers: next SEQ to send and next expected (R418, R419), the retry buffer and when each of its frames
was last sent (R420), whether a NAK was sent for the expected number and an acceptance awaits its ACK, go-back events in a row
(R420), credits in use by class 0 TIME to 3 BULK and credits to be returned (R421), when its STATE began, when a HELLO last came
and was last sent (R414, R427), the error events of its lanes within the window (lane, time and number, R423), the root's serial
and hops heard (R427), the HELLO that a held join waits with (R428), and the neighbour's advertised metrics (R430). Times are in ns. -/
structure FabPort where
  seqTx : Nat
  seqRx : Nat
  retry : List (Nat × Frame)
  retryAt : List Nat
  nakSent : Bool
  ackDue : Bool
  goBacks : Nat
  used : List (Nat × Nat)
  owed : List (Nat × Nat)
  since : Nat
  heard : Nat
  helloAt : Option Nat
  errs : List (Nat × Nat × Nat)
  root : Nat
  rootHops : Nat
  hello : Option HelloIn
  adv : List Nat
  deriving DecidableEq, Repr

/-- A frame on the wire: its port, its SEQ when it is sequenced, the ACK and CREDIT fields (class and credits) it carries
(R416, R419, R421), and the serials from which its Ethernet addresses come: the peer's, none for the broadcast and multicast
addresses, and the device's own (R415, R456). -/
structure Sent where
  port : Nat
  seq : Option Nat
  ack : Nat
  credit : Nat × Nat
  peer : Option Nat
  own : Nat
  frame : Frame
  deriving DecidableEq, Repr

/-- A command accepted from another device and not yet answered (R437): the issuer's address and ring, the packet with REMOTE cleared,
the parameter block that came with it, and whether the command has started. -/
structure FwdCmd where
  src : Nat
  ring : Nat
  packet : List Byte
  block : List Byte
  started : Bool
  deriving DecidableEq, Repr

/-- The fabric beyond its registers: frames queued (own and forwarded) that no port has sent yet, the frames sent, in
order (the record of the wires), the ports, the end-to-end numbers by destination and class with frames unacknowledged,
and by source and class the next expected (R434), the devices known, the ports by which address requests arrived, the
address kept for a rejoin (R429), forwarded commands accepted and not yet answered (R437), the time of
the last link event and of the last periodic ROUTE in ns (R430, R432), and by source the ranges of bulk data received beyond the contiguous end (R441). -/
structure Fab where
  out : List Frame
  wire : List Sent
  ports : List (Nat × FabPort)
  e2eTx : List (Nat × (Nat × List Frame))
  e2eAt : List (Nat × List Nat)
  e2eRx : List (Nat × Nat)
  devs : List (Nat × DevInfo)
  reqPorts : List (Nat × Nat)
  keptAddr : Option Nat
  fwd : List FwdCmd
  linkEvent : Nat
  routeAt : Option Nat
  bulkAhead : List (Nat × List (Nat × Nat))
  deriving DecidableEq, Repr

/-- The latest Announce of a port (R459): grandmaster priority and serial, stepsRemoved and its arrival in ns. -/
structure AnnIn where
  prio : Nat
  serial : Nat
  steps : Nat
  at_ : Nat
  deriving DecidableEq, Repr

/-- Time on a port: the last valid delays d in 2^−16 ns, newest first, valid exchanges since it came UP (up to 8), t1 of an
outstanding Pdelay_Req in 2^−16 ns (R458), the latest Announce, and by message type when its periodic message was last sent, in
ns (R456, R458, R460). -/
structure FtmPort where
  delays : List Int
  valid : Nat
  req : Option Nat
  ann : Option AnnIn
  sentAt : List (Nat × Nat)
  deriving DecidableEq, Repr

/-- Fabric time beyond its registers: the servo's integrator, E of the upstream Sync, |offset| of the last Syncs in 2^−16
ns, newest first, consecutive Syncs below LOCK_THRESH, E and time at entry into HOLDOVER, serials under hold-down with their
end in ns (R461), the slave port, when its last Sync came (R461), whether the first Sync of a joined fabric is still to come (R464),
the last tick boundary in ns (R465), the ports, the triggers within a pulse, when each such pulse ends, and those with a counted
schedule. -/
structure Ftm where
  integ : Int
  upE : Nat
  offsets : List Nat
  run : Nat
  entryE : Nat
  entryAt : Nat
  holdDown : List (Nat × Nat)
  slave : Option Nat
  syncAt : Nat
  joined : Bool
  boundary : Nat
  ports : List (Nat × FtmPort)
  pulse : Nat
  pulseEnd : List (Nat × Nat)
  finite : Nat
  deriving DecidableEq, Repr

/-- The service port beyond its registers: the packets waiting in submission ring 15 (R532), bytes waiting on bulk IN, and
the answer of the last vendor request: its data, or a stall (R534). -/
structure Svc where
  sq : List (List Byte)
  bulkIn : List Byte
  ctrlIn : List Byte
  stalled : Bool
  deriving DecidableEq, Repr

/-! ### Axes -/

/-- A stretch of a stepped move at constant acceleration: its duration in fs, signed speed in steps/s at its start and signed
acceleration in steps/s² (R385, R388). -/
structure Leg where
  dur : Nat
  v : Int
  a : Int
  deriving DecidableEq, Repr

/-- A planned motion of an axis: the position in 2^−16 steps at its start, its target, the direction from the one to the
other, and its profile in that direction: jerk-limited segments on axes 0–1 (R384), legs on axes 2–7 (R385). `own` is the
profile's own duration and `dur` the one to which SYNC stretches it (R387); `t` is the time since its start, both in fs. It
runs from its start boundary on (`begun`). `reverses` says that it comes to rest and turns back. -/
structure AxisPlan where
  from16 : Int
  target : Int
  neg : Bool
  scurve : Bool
  prof : Prof
  legs : List Leg
  own : Nat
  dur : Nat
  t : Nat
  begun : Bool
  reverses : Bool
  deriving DecidableEq, Repr

/-- A raw transition of a switch input (R399): its time in ns, the position and the raw encoder count at it. -/
structure SwEdge where
  time : Nat
  pos : Int
  raw : Nat
  deriving DecidableEq, Repr

/-- One axis beyond its registers. -/
structure Axis where
  /-- The plan that moves it, and the plan that waits in ARMED (R386). -/
  plan : Option AxisPlan
  armed : Option AxisPlan
  /-- Limits of the move in progress: VMAX, ACCEL, DECEL (R388), 0 for the registers' values. -/
  vmax : Nat
  accel : Nat
  decel : Nat
  /-- A retarget that awaits its boundary: target and limits (R388). -/
  retarget : Option (Int × Nat × Nat × Nat)
  /-- A stop that awaits its boundary (R396). -/
  stopReq : Bool
  /-- The plan in progress brings the axis to rest after AXIS_STOP, with the target it was moving to (R396). -/
  stopping : Option Int
  /-- Phase of the homing sequence, 0 when not homing (R401): 1 step 1; 2 step 2, 3 its deceleration; 4 step 3, 5 its BACKOFF;
  6 step 4; 7 step 5; 8 step 6; 9 abandoned, coming to rest (R403). The position at which the step began. -/
  homing : Nat
  homeFrom : Int
  /-- AXIS_HOME mode 1 or 2 and its VALUE, which take effect at the next boundary (R404). -/
  setPos : Option (Nat × Int)
  /-- Fault from the safe state alone (R383). -/
  safeOnly : Bool
  /-- Encoder count and offset (R392, R393). -/
  encCount : Int
  encOffset : Int
  /-- Since when the deviation has exceeded WIN, in ns (R394). -/
  devSince : Option Nat
  /-- Pin levels of LIMP, LIMN and HOME (bits 0 to 2), and the raw transitions of each within the chatter window, newest
  first (R399, R400). -/
  pins : Nat
  edges : List (Nat × List SwEdge)
  deriving DecidableEq, Repr

/-- A start that awaits its boundary: an AXIS_GROUP_START (R386) or an AXIS_RESUME (R397): mask, SYNC, whether it names a TIME,
and the TIME in ns. -/
structure GroupStart where
  mask : Nat
  sync : Bool
  atTime : Bool
  time : Nat
  deriving DecidableEq, Repr

/-! ### The burn map -/

/-- Sums gathered for a cell (R363): photodiode sum and count, camera sum and count. -/
structure BurnSums where
  pdSum : Nat
  pdCount : Nat
  camSum : Nat
  camCount : Nat
  deriving DecidableEq, Repr

/-- A tile of a cell cache (R365, R366): its position in tiles, the order of its last use, its factors as they were fetched, and the
sums gathered since, by cell within the tile. -/
structure BurnTile where
  tx : Nat
  ty : Nat
  used : Nat
  factors : List Nat
  sums : List (Nat × BurnSums)
  deriving DecidableEq, Repr

/-- A shared cell received from a peer, with the layer it is of (R373, R440). -/
structure BurnIn where
  src : Nat
  layer : Nat
  x : Nat
  y : Nat
  factor : Nat
  sums : BurnSums
  state : Nat
  deriving DecidableEq, Repr

/-- The burn map beyond its registers: the cell caches by engine and their use counter; a fill in progress (R362); the layer
whose update or clearing is running, with whether it clears only, the time in ns at which it ended, the freeze state it began with,
and once the cells that nobody shares are done the counts of R372 (R370 to R374); the windows of the plate-group members as they stood
at LAYER_ARM; border data received, the peers whose data of a layer is complete and those whose data did not arrive. -/
structure Burn where
  caches : List (Nat × List BurnTile)
  clock : Nat
  fill : Bool
  ended : Option (Nat × Bool)
  endedAt : Nat
  frozen : Bool
  inner : Option (Nat × Nat × Nat × Nat)
  peers : List (Nat × BurnWin)
  inbox : List BurnIn
  whole : List (Nat × Nat)
  missing : List Nat
  deriving DecidableEq, Repr
/-! ### DMA, codecs and DRAM -/

/-- A DMA descriptor (R494). -/
structure DmaDesc where
  src : Nat
  dst : Nat
  len : Nat
  srcSpace : Nat
  dstSpace : Nat
  last : Bool
  next : Nat
  deriving DecidableEq, Repr

/-- A burst whose read has been issued and whose write has not landed: the space it reads, its destination and data. -/
structure DmaBurst where
  src : Nat
  space : Nat
  addr : Nat
  data : List Byte
  deriving DecidableEq, Repr

/-- A DMA channel beyond its registers: the chain's space and whether it came from ring 15, the current descriptor, the
fetched next one (its address, and `none` when it failed its checks), bursts in flight, oldest first, descriptors finished,
and the start of the last burst in ns (R498). -/
structure DmaCh where
  space : Nat
  ring15 : Bool
  cur : Option DmaDesc
  pre : Option (Nat × Option DmaDesc)
  flight : List DmaBurst
  finished : Nat
  lastStart : Option Nat
  deriving DecidableEq, Repr

/-- A general codec's job (R504, R505), kept while SUSPENDED: whether it compresses, its packet fields, the flush points
taken, the output of the segments already ended by a flush, and the output written so far. -/
structure Job where
  comp : Bool
  format : Nat
  level : Nat
  rate : Nat
  inSpace : Nat
  outSpace : Nat
  inAddr : Nat
  outAddr : Nat
  inLen : Nat
  outLen : Nat
  ratio : Nat
  cap : Nat
  flushes : List Nat
  segs : List Byte
  /-- Output written in earlier output spaces. -/
  written : Nat
  deriving DecidableEq, Repr

/-- The recording stream (R511, R513): whether it runs, the staged record bytes, the input of the present DEFLATE stream and
its flush points, compressed bytes that wait for room, records dropped since the last kind-3 record, the read offset in
effect, the offset sent by the fabric transmitter, and whether a layer's first sync record is due, and the time of the stream's beginning
or last periodic flush. `stream` says that a DEFLATE stream is open. -/
structure Rec where
  on : Bool
  stream : Bool
  staged : List Byte
  input : List Byte
  flushes : List Nat
  out : List Byte
  lost : Nat
  readOff : Nat
  sent : Nat
  syncDue : Bool
  flushAt : Nat
  deriving DecidableEq, Repr

/-- Contents set as a whole: the bytes from `lo` to below `hi` whose address bits 12 and 21 have parity `par` (2: any). They
are undefined (R473, R474, R489) and read as free values until they are written, `epoch` telling one loss from another; or,
with `unit`, they hold the unit cells of a burn map fill (R362). From `par` 3 on it is instead a change of the address map
(R476): from MAP `(par - 3) / 2` with `lo` bytes in channel 0 to MAP `(par - 3) % 2` with `hi` bytes there. -/
structure Lost where
  lo : Nat
  hi : Nat
  par : Nat
  epoch : Nat
  unit : Bool
  deriving DecidableEq, Repr

/-- A request in a DRAM channel (R479): port, whether it writes, device address, when it entered the controller in ns,
how many row hits have passed it, and who asked. -/
structure DramReq where
  port : Nat
  isWrite : Bool
  addr : Nat
  entered : Nat
  passed : Nat
  who : Requester
  deriving DecidableEq, Repr

/-- Activations of a row in the window, by port (R481). -/
structure RowCount where
  bank : Nat
  row : Nat
  ports : List (Nat × Nat)
  flagged : Option Nat
  deriving DecidableEq, Repr

/-- A throttle of a port on a bank (R482): its row, its end and the last activation it issued, in ns. -/
structure Throttle where
  bank : Nat
  row : Nat
  port : Nat
  until_ : Nat
  lastAct : Option Nat
  deriving DecidableEq, Repr

/-- A DRAM channel beyond its registers: requests in flight, the open row of each bank, the row counts, the throttles,
whether a batch of writes is being drained, refreshes owed, the window's number and its start in ns, and the
address that patrol scrub reads next. -/
structure DramCh where
  reqs : List DramReq
  openRows : List (Nat × Nat)
  counts : List RowCount
  throttles : List Throttle
  draining : Bool
  owed : Nat
  window : Nat
  winAt : Nat
  scrubAt : Nat
  deriving DecidableEq, Repr

/-! ### The operator panel -/

/-- One panel input (keys 0–15, touch pads 16–23, plug inputs 24–31): consecutive samples that differed from the filtered
state, ms for which it has been active, and for a pad its touch decision and whether its baseline is set (R536 to R538). -/
structure PnlIn where
  run : Nat
  active : Nat
  touched : Bool
  based : Bool
  deriving DecidableEq, Repr

/-- A pattern (R542): mode, ONCE, chase list, HI, LO, TIME_A, TIME_B and steps as (level, hold in ms). -/
structure Pattern where
  mode : Nat
  once : Bool
  list : List Nat
  hi : Nat
  lo : Nat
  timeA : Nat
  timeB : Nat
  steps : List (Nat × Nat)
  deriving DecidableEq, Repr

/-- A pattern engine: its pattern, the pattern that waits for the next 1 ms tick, the ms since its start, and for mode 4 the
step and the ms within it. -/
structure Engine where
  pat : Pattern
  next : Option Pattern
  t : Nat
  step : Nat
  stepT : Nat
  deriving DecidableEq, Repr

/-- One LED channel beyond its registers: good checks in a row, the last test pulse in ns, and off after a short (R547,
R548). -/
structure Led where
  good : Nat
  lastTest : Option Nat
  off : Bool
  deriving DecidableEq, Repr

/-- The panel beyond its registers: inputs, ms since the last event, engines, LED channels, and the colour loop's channels,
target counts and gain, with whether its limit was recorded (R544, R545); when its recurring work was last done, in ns, and
the address and register of the last light sensor read (R543). -/
structure Panel where
  inputs : List (Nat × PnlIn)
  sinceEvt : Nat
  engines : List (Nat × Engine)
  leds : List (Nat × Led)
  chans : List Nat
  target : List Int
  gain : Nat
  limited : Bool
  times : List (Nat × Nat)
  sensor : Option (Nat × Nat)
  deriving DecidableEq, Repr


/-! ### The state -/

/-- Faults that would stop the model. The spec gives every command of the table an effect or a completion, so no meaning
raises one; the type has this one constructor so that it is a closed inductive, and it would be safe. -/
inductive Fault where
  /-- Raised by no command (safe). -/
  | unreachable
  deriving DecidableEq, Repr

/-- Refusals. -/
inductive Refusal where
  /-- The command has no meaning in the model yet (safe). Raised by the dispatch alone. -/
  | notModelled (mnemonic : String)
  deriving DecidableEq, Repr

/-- The state of the block. -/
structure State where
  /-- BAR0 registers that differ from, or were written since, reset, by offset. -/
  regs : List (Nat × Word)
  /-- Shadows of class C registers, by offset (R19). -/
  shadow : List (Nat × Word)
  /-- Staging groups whose shadow is pending, as a mask (R20). -/
  dirty : Nat
  /-- The captured commit: its issuer, named groups, CHECK_ONLY and captured shadows (R19, R146). -/
  capture : Option (Issuer × Nat × Bool × List (Nat × Word))
  /-- Class L writes that await the next tick boundary, oldest first: offset, mask and value (R18). -/
  live : List (Nat × Word × Word)
  /-- HI and FRAC words latched by a read of their LO word (R596). -/
  latched : List (Nat × Word)
  /-- The value the last BAR0 or BAR2 read returned. -/
  readData : Nat
  fuses : Fuses
  pins : Pins
  pwr : Pwr
  thm : Thm
  hif : Hif
  evr : Evr
  seq : Seq
  lanes : List (Nat × Lane)
  ledger : Ledger
  ovl : Ovl
  fab : Fab
  ftm : Ftm
  svc : Svc
  /-- When the timer of each mailbox channel whose GO is set ends, in ns (R525). -/
  mbxDue : List (Nat × Nat)
  axes : List (Nat × Axis)
  groupStart : Option GroupStart
  resumeStart : Option GroupStart
  dma : List (Nat × DmaCh)
  /-- The DMA channel last served, by priority (R497). -/
  dmaTurn : List (Nat × Nat)
  /-- The time in ns from which the DMA engine has a free slot (R493, R497). -/
  dmaNext : Nat
  jobs : List (Nat × Job)
  recording : Rec
  dramCh : List (Nat × DramCh)
  /-- Undefined contents of the two memories, newest first. -/
  sramLost : List Lost
  dramLost : List Lost
  /-- Burn cells of a quad's cache met as uncorrectable data: they count as failing their CRC (R363, R485). -/
  burnBad : List (Nat × Nat)
  burn : Burn
  /-- Camera contexts, the image pipelines, and the sensor writes last sent on the bus of each port (R317, R325). -/
  cams : List (Nat × Ctx)
  pipes : List (Nat × Pipe)
  camBus : List (Nat × List BusWrite)
  panel : Panel
  /-- On-chip SRAM, device DRAM and host memory (R46, R119, R121): bytes that differ from 0. -/
  sram : List Host.Cell
  dram : List Host.Cell
  host : List Host.Cell
  /-- Commands that last beyond their fetch (R134). -/
  running : List Running
  /-- The model's own counter of free values taken. -/
  freeCtr : Nat
  /-- The commands that wait, first in first out. -/
  pending : List Instr
  deriving DecidableEq, Repr

/-! ### Reset values -/

/-- The host interface after reset: Bus Master Enable 0, the function in D0, the host-written configuration registers 0 (assumption 7), no
mirror, and its SEQ 0 (assumption 34). -/
def Hif.reset : Hif :=
  { bme := false, d3hot := false, intxDis := false, intLine := 0, bar0 := 0, bar2 := 0, perst := false, linkUp := false, sqTail := [], cqHead := []
    turnRing := 0, turnTaken := 0, fetched := [], voided := [], held := [], mirrorAddr := 0, mirrorPeriod := 0, mirrorSeq := 0, mirrorDue := 0 }

/-- Unprogrammed fuses (assumption 3). -/
def Fuses.reset : Fuses := ⟨0, 0, 0, []⟩

/-- Straps at their pull-downs; SAFE_N low until RUNNING (R107); INTERLOCK_N high (assumption 3). -/
def Pins.reset : Pins := ⟨0, 0, true, false, true, true, 0⟩

/-- No firmware runs after reset. -/
def Firmware.reset : Firmware := ⟨0, 0, 0, 0, 0, false⟩

/-- After reset the device is in the safe state (R91), its reset has ended, and nothing is held. -/
def Pwr.reset : Pwr :=
  { safe := true, thermLatch := false, thermPrior := false, held := 0, uvRails := 0, switching := [], inReset := 0, die := [], dieRetry := []
    image := [], imageUsb := [], imageFrom := 0, fw := Firmware.reset, aonCount := 0 }

/-- No sensor has differed. -/
def Thm.reset : Thm := ⟨[], 0, false⟩

/-- An empty recorder and fault logic. -/
def Evr.reset : Evr := ⟨[], false, [], [], none, [], [], []⟩

/-- No job, no layer. -/
def Seq.reset : Seq :=
  { job := none, hostBase := 0, hostLen := 0, devBase := 0, devLen := 0, lastDev := none, recipes := [], laneSets := []
    held := none, lastLayer := 0, loading := none, loadBad := false, start := none, peerStart := [], started := false, startTick := 0, stopReq := false
    abortReq := none, stopAt := 0, lastPark := 0, splitMask := 0, finishMask := 0, stopBaths := 0, pausedNs := 0
    holdoverTicks := 0, maxTemp := 0, maxSensor := 0, unmapped := [], borderSeen := 0 }

/-- A lane at rest at plate (0, 0), which R227 gives as 0 counts after reset. -/
def Motion.reset : Motion := ⟨0, 0, 0, 0, 0, ⟨0, 0, []⟩, 0, 0, ⟨0, 0, []⟩, 0, 0, false, none, 0⟩

/-- A lane in no layer. -/
def Lane.reset : Lane :=
  { phase := .idle, written := 0, head := 0, refillErr := none, refillBad := false, atEnd := false, cur := none, succ := none
    motion := Motion.reset, px := 0, py := 0, pf := 0, recipe := none, kept := [], holdFs := 0, claimed := []
    trSum := 0, trCount := 0, gates := [], emitAt := 0, exitSpeed := 0, corner := false, startAt := none, gateWork := none
    gateRose := 0, gateFell := 0, gatePrev := [], waited := none, marker := none, energy := 0, remark := none, drift := none
    jog := none, raw := none, held := some (0, 0, 0), retarget := none, passed := [], sentPt := (0, 0, 0), restAt := 0, endSpeed := none, frameSeq := 0, expFrame := 0, goodRun := 0, errRun := 0, devRun := 0, devRaised := false, sent := []
    rangeOut := false, lastDev := 0, lpSeq := 0, shut := false, sheet := [], claimOut := none
    loops := [], window := false, pb := 0, pa := 0, spNow := false, l1In := none, pdOver := 0, afe := []
    bslOut := 0, lpOut := 0, lpRest := false, trs := [], under := false, past := [], burnF := none }

/-- A loop at rest. -/
def Loop.reset : Loop := ⟨0, 0, false, 0, 0, 0, false, 0, 0, 0, false, false, []⟩

/-- An input just powered on (R306). -/
def AfeIn.reset : AfeIn := ⟨0, 0, none, false, false, none, 0, true, false, none, none⟩

/-- No request and no grant. -/
def Ledger.reset : Ledger := ⟨[], [], none⟩

/-- Empty pools. -/
def Ovl.reset : Ovl := ⟨[], [], [], [], [], 0, 0, 0, []⟩

/-- A fabric port at link start. -/
def FabPort.reset : FabPort :=
  { seqTx := 0, seqRx := 0, retry := [], retryAt := [], nakSent := false, ackDue := false, goBacks := 0, used := [], owed := [], since := 0
    heard := 0, helloAt := none, errs := [], root := 0, rootHops := 0, hello := none, adv := [] }

/-- A fabric of one (R426). -/
def Fab.reset : Fab :=
  { out := [], wire := [], ports := [], e2eTx := [], e2eAt := [], e2eRx := [], devs := [], reqPorts := [], keptAddr := none, fwd := []
    linkEvent := 0, routeAt := none, bulkAhead := [] }

/-- A port without a delay or an Announce. -/
def FtmPort.reset : FtmPort := ⟨[], 0, none, none, []⟩

/-- The servo of a device that is its own grandmaster. -/
def Ftm.reset : Ftm :=
  { integ := 0, upE := 0, offsets := [], run := 0, entryE := 0, entryAt := 0, holdDown := [], slave := none, syncAt := 0, joined := false
    boundary := 0, ports := [], pulse := 0, pulseEnd := [], finite := 0 }

/-- An idle service port. -/
def Svc.reset : Svc := ⟨[], [], [], false⟩

/-- An axis at rest without a plan. -/
def Axis.reset : Axis :=
  { plan := none, armed := none, vmax := 0, accel := 0, decel := 0, retarget := none, stopReq := false, stopping := none
    homing := 0, homeFrom := 0, setPos := none, safeOnly := false, encCount := 0, encOffset := 0, devSince := none, pins := 0, edges := [] }

/-- An idle DMA channel. -/
def DmaCh.reset : DmaCh := ⟨0, false, none, none, [], 0, none⟩

/-- No recording. -/
def Rec.reset : Rec := ⟨false, false, [], [], [], [], 0, 0, 0, false, 0⟩

/-- A DRAM channel without requests. -/
def DramCh.reset : DramCh := ⟨[], [], [], [], false, 0, 0, 0, 0⟩

/-- A context without frames. -/
def Ctx.reset : Ctx :=
  { frames := [], credit := 0, commit := none, commitAt := 0, overdue := false, writes := [], out := [], clipped := false, watch := none, lastEnd := 0 }

/-- An idle pipeline: the first turn is that of context 0. -/
def Pipe.reset : Pipe := ⟨31, 0, 0, []⟩

/-- No burn map in use. -/
def Burn.reset : Burn := ⟨[], 0, false, none, 0, false, none, [], [], [], []⟩

/-- A panel input at rest. -/
def PnlIn.reset : PnlIn := ⟨0, 0, false, false⟩

/-- A pattern engine that is off. -/
def Engine.reset : Engine := ⟨⟨0, false, [], 0, 0, 0, 0, []⟩, none, 0, 0, 0⟩

/-- A LED channel that was never checked. -/
def Led.reset : Led := ⟨0, none, false⟩

/-- A panel at rest, its colour loop off. -/
def Panel.reset : Panel := ⟨[], 0, [], [], [], [], 0, false, [], none⟩
/-- The device right after reset: every register at its reset value (R599 and the register tables), memories with nothing
listed, and every subsystem at rest. -/
def State.reset : State :=
  { regs := [], shadow := [], dirty := 0, capture := none, live := [], latched := [], readData := 0
    fuses := Fuses.reset, pins := Pins.reset, pwr := Pwr.reset, thm := Thm.reset, hif := Hif.reset, evr := Evr.reset
    seq := Seq.reset, lanes := [], ledger := Ledger.reset, ovl := Ovl.reset
    fab := Fab.reset, ftm := Ftm.reset, svc := Svc.reset, mbxDue := []
    axes := [], groupStart := none, resumeStart := none
    dma := [], dmaTurn := [], dmaNext := 0, jobs := [], recording := Rec.reset, dramCh := []
    sramLost := [], dramLost := []
    burnBad := []
    burn := Burn.reset, cams := [], pipes := [], camBus := []
    panel := Panel.reset
    sram := [], dram := [], host := [], running := [], freeCtr := 0, pending := [] }

end Sys2Proof.Machine
end

