-- ==== Sys2Proof/Machine/Ops.lean ====
section
/-!
DEFINITION. The named operations that every family uses: register and field access, memory, free values, time, events
(R561 to R565), host-memory writes and completions (R121, R126, R133), the order of a command's checks (R137) and the die
ledger (R102 to R104).
-/

namespace Sys2Proof.Machine

/-! ### Registers -/

/-- The live word of the register at BAR0 offset `a`. -/
def rd (s : State) (a : Nat) : Word := mget (regReset a) s.regs a

/-- `s` with the live word at `a` set. -/
def wr (s : State) (a : Nat) (w : Word) : State := { s with regs := mset s.regs a w }

/-- The live word as a number. -/
def rdN (s : State) (a : Nat) : Nat := (rd s a).toNat

/-- The live word as a signed number. -/
def rdI (s : State) (a : Nat) : Int := (rd s a).toInt

/-- `s` with the live word at `a` set from a number, wrapped to 32 bits. -/
def wrN (s : State) (a n : Nat) : State := wr s a (BitVec.ofNat 32 n)

/-- `s` with the live word at `a` set from a signed number, wrapped to 32 bits. -/
def wrI (s : State) (a : Nat) (i : Int) : State := wr s a (BitVec.ofInt 32 i)

/-- Bits `hi..lo` of the live word at `a`. -/
def fld (s : State) (a hi lo : Nat) : Nat := bitsOf (rd s a) hi lo

/-- `s` with bits `hi..lo` of the live word at `a` set. -/
def setFld (s : State) (a hi lo v : Nat) : State := wr s a (setBits (rd s a) hi lo v)

/-- Bit `i` of the live word at `a`. -/
def flag (s : State) (a i : Nat) : Bool := fld s a i i == 1

/-- `s` with bit `i` of the live word at `a` set to `b`. -/
def setFlag (s : State) (a i : Nat) (b : Bool) : State := setFld s a i i (b2n b)

/-- A 64-bit value held as a LO and a HI word. -/
def rd64 (s : State) (lo hi : Nat) : Nat := rdN s lo + 2 ^ 32 * rdN s hi

/-- `s` with a 64-bit LO and HI pair set. -/
def wr64 (s : State) (lo hi n : Nat) : State := wrN (wrN s lo n) hi (n / 2 ^ 32)

/-- The signed value of bits `hi..lo` of the word at `a`. -/
def fldI (s : State) (a hi lo : Nat) : Int := sgn (hi - lo + 1) (fld s a hi lo)

/-- Shadow word of a class C register: the live word until it is first written (R19). -/
def shadowOf (s : State) (a : Nat) : Word := mget (rd s a) s.shadow a

/-- `s` with bits `hi..lo` of the shadow of `a` set and its group pending (R19, R20). -/
def setShadow (s : State) (g a hi lo v : Nat) : State :=
  { s with shadow := mset s.shadow a (setBits (shadowOf s a) hi lo v), dirty := natSet s.dirty g }

/-- `s` with a class L write queued for the next tick boundary; an earlier one to the same bits is replaced (R18). -/
def setLive (s : State) (a hi lo v : Nat) : State :=
  let m := setBits 0 hi lo (2 ^ (hi - lo + 1) - 1)
  { s with live := s.live.filter (fun e => !(e.1 == a && e.2.1 == m)) ++ [(a, m, setBits 0 hi lo v)] }

/-! ### Free values -/

/-- `s` after one free value is taken. -/
def tick1 (s : State) : State := { s with freeCtr := s.freeCtr + 1 }

/-- A counter register advanced by one, saturating at all ones. -/
def satInc (s : State) (a : Nat) : State :=
  if rdN s a = 2 ^ 32 - 1 then s else wrN s a (rdN s a + 1)

/-- A counter field advanced by one, saturating at all ones. -/
def satIncF (s : State) (a hi lo : Nat) : State :=
  let v := fld s a hi lo
  if v = 2 ^ (hi - lo + 1) - 1 then s else setFld s a hi lo (v + 1)

/-- A counter register advanced by `k`. The spec states no saturation for it, so that past all ones it holds a free value
(assumption 1). -/
def bumpBy (s : State) (a k : Nat) : State :=
  if rdN s a + k < 2 ^ 32 then wrN s a (rdN s a + k) else tick1 (wr s a (Config.freeWord s.freeCtr))

/-- A counter register advanced by one, as `bumpBy`. -/
def bump (s : State) (a : Nat) : State := bumpBy s a 1

/-! ### Memory -/

/-- A region whose contents a loss covers. -/
def Lost.covers (l : Lost) (a : Nat) : Bool :=
  decide (l.lo ≤ a) && decide (a < l.hi) && (l.par == 2 || l.par == b2n (a.testBit 12 != a.testBit 21))

/-- The channel and channel address of a device DRAM address under a MAP with `c0` bytes in channel 0 (R476). -/
def mapPos (map c0 a : Nat) : Nat × Nat :=
  if map = 1 then (b2n (a.testBit 12 != a.testBit 21), a / 8192 * 4096 + a % 4096)
  else if a < c0 then (0, a) else (1, a - c0)

/-- The device DRAM address of a channel address under a MAP (R476). -/
def mapAddr (map c0 : Nat) (p : Nat × Nat) : Nat :=
  if map = 1 then
    let b := 2 * (p.2 / 4096)
    (if b2n ((b * 4096).testBit 21) = p.1 then b else b + 1) * 4096 + p.2 % 4096
  else if p.1 = 0 then p.2 else c0 + p.2

/-- Where the byte now at `a` stood before a change of the address map. -/
def Lost.before (l : Lost) (a : Nat) : Nat := mapAddr ((l.par - 3) / 2) l.lo (mapPos ((l.par - 3) % 2) l.hi a)

/-- The bytes of a unit burn cell (R362, R363): FACTOR 65,536, zero sums, and its CRC. -/
def unitCell : List Byte :=
  let b := leBytes 4 65536 ++ zeros 26
  b ++ leBytes 2 (crc16 b)

/-- What a byte that nothing has written since its contents were lost reads as: a free value (assumption 1), or the unit burn
cells of a fill; a byte that was never lost reads as 0 (assumption 8). -/
def unwritten : List Lost → Nat → Byte
  | [], _ => 0
  | l :: ls, a =>
    if 3 ≤ l.par then unwritten ls (l.before a)
    else if l.covers a then (if l.unit then unitCell.getD ((a - l.lo) % 32) 0 else Config.freeByte (l.epoch * 2 ^ 40 + a))
    else unwritten ls a

/-- The byte of a memory at `a`; a byte it does not list reads as `d a`. -/
def byteAt (d : Nat → Byte) : List Host.Cell → Nat → Byte
  | [], a => d a
  | (i, b) :: m, a => if i = a then b else byteAt d m a

/-- A cell put in its place by address. -/
def insertCell : List Host.Cell → Nat → Byte → List Host.Cell
  | [], a, b => [(a, b)]
  | (i, c) :: m, a, b => if a < i then (a, b) :: (i, c) :: m else (i, c) :: insertCell m a b

/-- A memory with byte `b` at `a`, in canonical form: addresses rise and no listed byte is what it would read as
unlisted. -/
def putByte (d : Nat → Byte) (m : List Host.Cell) (a : Nat) (b : Byte) : List Host.Cell :=
  let m := m.filter (fun c => c.1 != a)
  if b = d a then m else insertCell m a b

/-- The `k` bytes from `a`. -/
def bytesAt (d : Nat → Byte) (m : List Host.Cell) (a : Nat) : Nat → List Byte
  | 0 => []
  | k + 1 => byteAt d m a :: bytesAt d m (a + 1) k

/-- A memory with bytes `bs` from `a`. -/
def putBytes (d : Nat → Byte) : List Host.Cell → Nat → List Byte → List Host.Cell
  | m, _, [] => m
  | m, a, b :: bs => putBytes d (putByte d m a b) (a + 1) bs

/-- The canonical form of a memory: addresses strictly rising from `lo`, no listed byte equal to its unlisted reading. -/
def memWfFrom (d : Nat → Byte) : Nat → List Host.Cell → Bool
  | _, [] => true
  | lo, (i, b) :: m => decide (lo ≤ i) && decide (b ≠ d i) && memWfFrom d (i + 1) m

/-- The canonical form of a memory. -/
def Memory.wf (d : Nat → Byte) (m : List Host.Cell) : Bool := memWfFrom d 0 m

/-- Bytes from SRAM. -/
def sramBytes (s : State) (a k : Nat) : List Byte := bytesAt (unwritten s.sramLost) s.sram a k
/-- `s` with bytes written to SRAM. -/
def putSram (s : State) (a : Nat) (bs : List Byte) : State :=
  { s with sram := putBytes (unwritten s.sramLost) s.sram a bs }
/-- Bytes from device DRAM. -/
def dramBytes (s : State) (a k : Nat) : List Byte := bytesAt (unwritten s.dramLost) s.dram a k
/-- `s` with bytes written to device DRAM. -/
def putDram (s : State) (a : Nat) (bs : List Byte) : State :=
  { s with dram := putBytes (unwritten s.dramLost) s.dram a bs }
/-- Bytes from host memory. -/
def hostBytes (s : State) (a k : Nat) : List Byte := bytesAt (unwritten []) s.host a k
/-- `s` with bytes written to host memory. -/
def putHost (s : State) (a : Nat) (bs : List Byte) : State := { s with host := putBytes (unwritten []) s.host a bs }

/-- SRAM contents from `lo` to below `hi` become undefined. -/
def loseSram (s : State) (lo hi : Nat) : State :=
  let l : Lost := ⟨lo, hi, 2, s.freeCtr, false⟩
  tick1 { s with sramLost := l :: s.sramLost, sram := s.sram.filter (fun c => !l.covers c.1) }

/-- Contents of a region of device DRAM become undefined. -/
def loseDram (s : State) (lo hi par : Nat) : State :=
  let l : Lost := ⟨lo, hi, satN 2 par, s.freeCtr, false⟩
  tick1 { s with dramLost := l :: s.dramLost, dram := s.dram.filter (fun c => !l.covers c.1) }

/-- The address map of device DRAM changes from MAP `m0` with `c0` bytes in channel 0 to MAP `m1` with `c1` (R476): every byte
keeps its place in its channel. What channel 0 held above its new capacity has no address. -/
def moveDram (s : State) (m0 c0 m1 c1 : Nat) : State :=
  if m0 = m1 && (m0 == 1 || c0 == c1) then s
  else
    let l : Lost := ⟨c0, c1, 3 + 2 * (m0 % 2) + m1 % 2, 0, false⟩
    let kept := s.dram.filter (fun c => m1 == 1 || !((mapPos m0 c0 c.1).1 == 0 && decide (c1 ≤ (mapPos m0 c0 c.1).2)))
    { s with dramLost := l :: s.dramLost
             dram := kept.foldl (fun m c => putByte (unwritten (l :: s.dramLost)) m (mapAddr m1 c1 (mapPos m0 c0 c.1)) c.2) [] }

/-- Unit burn cells from `lo` to below `hi` of device DRAM (R362). -/
def fillUnit (s : State) (lo hi : Nat) : State :=
  let l : Lost := ⟨lo, hi, 2, 0, true⟩
  { s with dramLost := l :: s.dramLost, dram := s.dram.filter (fun c => !l.covers c.1) }

/-- SRAM offset of the host-visible general pool (R46). -/
def poolBase : Nat := 0x1B00000

/-- State of DRAM channel `c`, as `DDR_STS` encodes it (R473). -/
def chState (s : State) (c : Nat) : Nat := fld s DDR_STS (15 + 4 * c) (12 + 4 * c)

/-- The channel serves requests (R473): READY is 4. -/
def chReady (s : State) (c : Nat) : Bool := chState s c == 4

/-- Capacity of channel `c` in bytes, 0 while UNCONFIGURED (R476). -/
def chCap (s : State) (c : Nat) : Nat := rdN s (DDR_CH_CAP c) * 2 ^ 20

/-- Device DRAM in bytes (R476). -/
def dramSize (s : State) : Nat := chCap s 0 + chCap s 1

/-- The address map of `old` has become that of `s`: what device DRAM holds moves with it. -/
def followMap (old s : State) : State := moveDram s (fld old DDR_STS 0 0) (chCap old 0) (fld s DDR_STS 0 0) (chCap s 0)

/-- The channel of a device DRAM address (R476). -/
def chanOf (s : State) (a : Nat) : Nat :=
  if flag s DDR_STS 0 then (if a.testBit 12 == a.testBit 21 then 0 else 1)
  else if a < chCap s 0 then 0 else 1

/-- The range lies within device DRAM and every channel it reaches is READY (R604). Interleaved ranges of more than two
4 KiB blocks reach both channels. -/
def dramOk (s : State) (a len : Nat) : Bool :=
  decide (a + len ≤ dramSize s) &&
  (len == 0 ||
    (if flag s DDR_STS 0 && decide (2 < (a + len - 1) / 4096 - a / 4096 + 1) then chReady s 0 && chReady s 1
     else chReady s (chanOf s a) && chReady s (chanOf s (a + len - 1))))

/-- The range lies within the open job's host area (R148). -/
def inHostArea (s : State) (a len : Nat) : Bool :=
  s.seq.job.isSome && decide (s.seq.hostBase ≤ a) && decide (a + len ≤ s.seq.hostBase + s.seq.hostLen)

/-! ### Time, domains and layer state -/

/-- Fabric time in ns (R455, R469). -/
def now (s : State) : Nat := rd64 s FTM_TIME_LO FTM_TIME_HI

/-- The tick period T in ns (R30, R201: 3 is taken as 0). -/
def tickNs (s : State) : Nat :=
  match fld s SEQ_CFG 1 0 with
  | 1 => 1000
  | 2 => 2000
  | _ => 500

/-- The tick number: fabric time divided by T, rounded down (R38, R185). -/
def tickNo (s : State) : Nat := now s / tickNs s

/-- Whether power domain `d` is on (R86, R601); AON and CORE cannot be switched off. -/
def domOn (s : State) (d : Nat) : Bool := decide (d < 2) || (fld s PWR_STS 19 0).testBit d

/-- The quad of a lane (R3). -/
def quadOf (n : Nat) : Nat := n / 4

/-- The lanes of the device. -/
def lanes24 : List Nat := List.range 24

/-- The layer state, as `SEQ_STS.STATE` encodes it (R143, R178). -/
def layerSt (s : State) : Nat := fld s SEQ_STS 3 0

/-- Layer states of R143. -/
def stIdle : Nat := 0
def stLoading : Nat := 1
def stLoaded : Nat := 2
def stArmed : Nat := 3
def stExposing : Nat := 4
def stStopBath : Nat := 5
def stPaused : Nat := 6
def stDone : Nat := 7
def stAborted : Nat := 8

/-- `s` with the layer state set. -/
def setLayerSt (s : State) (v : Nat) : State := setFld s SEQ_STS 3 0 v

/-- The layer is ARMED, EXPOSING, STOP_BATH or PAUSED. -/
def inLayer (s : State) : Bool := decide (stArmed ≤ layerSt s) && decide (layerSt s ≤ stPaused)

/-- The layer state is IDLE, LOADED, DONE or ABORTED: the quiet states of R490 and R574. -/
def quietLayer (s : State) : Bool :=
  layerSt s == stIdle || layerSt s == stLoaded || layerSt s == stDone || layerSt s == stAborted

/-- Lanes of the held layer's LANE_MASK (R169). -/
def laneMask (s : State) : Nat :=
  match s.seq.held with
  | some l => l.laneMask
  | none => 0

/-- The lane takes part in the layer: it is enabled and the layer is ARMED to PAUSED. -/
def laneInLayer (s : State) (n : Nat) : Bool := inLayer s && flag s (LN_CFG n) 0

/-- The state of lane `n` beyond its registers. -/
def lane (s : State) (n : Nat) : Lane := mget Lane.reset s.lanes n

/-- `s` with lane `n` set. -/
def setLane (s : State) (n : Nat) (l : Lane) : State := { s with lanes := mset s.lanes n l }

/-- `s` with `f` applied to lane `n`. -/
def updLane (s : State) (n : Nat) (f : Lane → Lane) : State := setLane s n (f (lane s n))

/-- The fabric address of the device (R448). -/
def ownAddr (s : State) : Nat := fld s FAB_STS 4 0

/-- Members of the device's plate group, as a mask of addresses; the device alone when it has no group (R443, R444). -/
def groupMask (s : State) : Nat :=
  if flag s FAB_STS 18 then natSet (rdN s (FAB_GROUP (fld s FAB_STS 17 16))) (ownAddr s)
  else 1 <<< ownAddr s

/-- Other members of the plate group. -/
def groupPeers (s : State) : List Nat := (bitList (groupMask s) 32).filter (· != ownAddr s)

/-- `t` with what only THM_SAMPLE and the supplies change as it is in `s`: the thermal-shutdown latch and its pin (R114,
R115), and the identity fuses (R97). The queue is the step's. -/
def holding (s t : State) : State :=
  { t with pending := s.pending, pwr := { t.pwr with thermLatch := s.pwr.thermLatch }
           pins := { t.pins with thermTripN := s.pins.thermTripN }
           fuses := { t.fuses with serial := s.fuses.serial, keyHash := s.fuses.keyHash } }

/-- A command that takes effect whatever the state of the device. -/
def always (s : State) (f : State → State) : Host.Outcome State Fault Refusal := .next (holding s (f s))

/-- The clocked logic stands: after a thermal shutdown every clock but those of AON and the PCIe link core is stopped (R114), and in a
reset that has not ended the logic is held and fabric time stands (R90). -/
def clocksOff (s : State) : Bool := s.pwr.thermLatch || s.pwr.held != 0

/-- A command of the clocked logic: while that stands the command has no effect. -/
def whileClocked (s : State) (f : State → State) : Host.Outcome State Fault Refusal :=
  .next (if clocksOff s then s else holding s (f s))

/-! ### Events (R561 to R566) -/

/-- Source codes of R562. -/
def srcDevice : Nat := 0
def srcLane (n : Nat) : Nat := 0x1000 + n
def srcAxis (n : Nat) : Nat := 0x2000 + n
def srcPort (n : Nat) : Nat := 0x3000 + n
def srcCtx (n : Nat) : Nat := 0x4000 + n
def srcDma (n : Nat) : Nat := 0x5000 + n
def srcCodec (n : Nat) : Nat := 0x6000 + n
def srcSensor (n : Nat) : Nat := 0x7000 + n
def srcMbx (n : Nat) : Nat := 0x8000 + n
def srcDdr (n : Nat) : Nat := 0x9000 + n
def srcMacro (n : Nat) : Nat := 0xA000 + n
def srcLed (n : Nat) : Nat := 0xB000 + n
def srcMaster (n : Nat) : Nat := 0xC000 + n
def srcEngine (n : Nat) : Nat := 0xD000 + n

/-- The conductor whose duty a command is (R41): 0 the host rings' COMMIT, mirror and status; 1 layers and the burn map's borders; 2 faults, the
recorder, repair and the die ledger; 3 axes, the fabric and the panel. The rule names no other command: any conductor may run it
(assumption 111). -/
def dutyOf (op : Nat) : Option Nat :=
  let within (lo hi : Nat) : Bool := decide (lo ≤ op) && decide (op ≤ hi)
  if within 0x0004 0x0006 then some 0
  else if within 0x0105 0x010B || op = 0x0206 then some 1
  else if within 0x0B01 0x0B07 || op = 0x0009 then some 2
  else if within 0x0701 0x0707 || within 0x0801 0x0807 || within 0x0A03 0x0A06 then some 3
  else none

/-- `bs` cut or zero-filled to `k` bytes. -/
def padTo (k : Nat) (bs : List Byte) : List Byte := (bs ++ zeros k).take k

/-- The 32 bytes of an event record, with its CRC (R561). -/
def EvRec.bytes (e : EvRec) : List Byte :=
  let b := leBytes 8 e.time ++ leBytes 2 e.source ++ leBytes 2 e.code ++ leBytes 4 e.seq ++ padTo 14 e.payload
  b ++ leBytes 2 (crc16 b)

/-- An event offered to the intake FIFO: it takes the next SEQ, and enters if the FIFO has room (R565). -/
def event (s : State) (source code : Nat) (payload : List Byte) : State :=
  let e : EvRec := ⟨now s, source, code, rdN s EVR_SEQ, padTo 14 payload⟩
  let s := bump s EVR_SEQ
  if s.evr.fifo.length < 128 then
    setFld { s with evr := { s.evr with fifo := s.evr.fifo ++ [e] } } EVR_STS 23 16 (s.evr.fifo.length + 1)
  else bump s EVR_LOST

/-- VECTOR_ID in execution on a lane, 0 if none (R564). -/
def laneVid (s : State) (n : Nat) : Nat :=
  match (lane s n).cur with
  | some w => w.rcd.vid
  | none => 0

/-- A lane event: its payload begins with the VECTOR_ID in execution (R564). -/
def laneEvent (s : State) (n code : Nat) (payload : List Byte) : State :=
  event s (srcLane n) code (leBytes 4 (laneVid s n) ++ payload)

/-! ### Frames to the fabric (R416 to R434) -/

/-- Classes of R416 and R417. -/
def clLink : Nat := 0
def clHandoff : Nat := 1
def clControl : Nat := 2
def clBulk : Nat := 3
def clTime : Nat := 4

/-- The class of a transaction type (R436). -/
def classOf (ty : Nat) : Nat :=
  if ty < 0x10 then clLink else if ty < 0x20 then clHandoff else if ty < 0x30 then clControl else clBulk

/-- A POSITION frame is unsequenced and never forwarded (R418, R436). -/
def tyPosition : Nat := 0x16

/-- End-to-end acknowledgements of the two classes (R436). -/
def tyE2eAck (cls : Nat) : Nat := if cls = clHandoff then 0x1F else 0x2F

/-- The frame is sequenced (R418). -/
def Frame.sequenced (f : Frame) : Bool := f.cls != clLink && f.cls != clTime && f.ty != tyPosition

/-- The frame carries E2E (R433). DEDUCED: an E2E_ACK does not. -/
def Frame.wantsE2e (f : Frame) : Bool :=
  (f.cls == clHandoff || f.cls == clControl) && f.ty != tyPosition && f.ty != 0x1F && f.ty != 0x2F

/-- Payload bytes of a frame (R279, R291, R436 to R441). The spec gives no layout for the register transactions and
MBX_GO_CLEAR: they count four bytes a field (assumption 16). -/
def Frame.payload (f : Frame) : Nat :=
  let n := f.body.length
  match f.ty with
  | 0x02 => 32
  | 0x07 => 9
  | 0x08 => 9
  | 0x10 => 2 + (n - 2) / 4 * 12
  | 0x11 => 20
  | 0x12 => 64
  | 0x13 => 12
  | 0x14 => 12
  | 0x15 => 16
  | 0x16 => n / 5 * 16
  | 0x1F => 2
  | 0x20 => 20
  | 0x22 => 68 + f.body.getD 2 0
  | 0x23 => 32
  | 0x28 => 4 + 4 * (n - 2)
  | 0x2A => 8 + (n - 3) / 4 * 32
  | 0x2F => 2
  | 0x30 => 16 + f.body.getD 1 0
  | _ => 4 * n

/-- Credits the frame takes, in 64-byte units (R412, R421): header, Brodris header, payload and FCS, at least 64 bytes. -/
def Frame.credits (f : Frame) : Nat :=
  let n := 34 + f.payload
  cdiv (if n < 64 then 64 else n) 64

/-- Credits of a class at link start (R421), by class code of R416. -/
def classCredits (cls : Nat) : Nat :=
  match cls with
  | 1 => 512
  | 2 => 512
  | 3 => 2816
  | _ => 64

/-- States of a port (R449). -/
def pOff : Nat := 0
def pTraining : Nat := 1
def pUp : Nat := 2
def pIsolated : Nat := 3
def pSwapping : Nat := 4
def pDown : Nat := 5
def pLoopback : Nat := 6

/-- `FAB_Pp_STS.STATE`. -/
def portSt (s : State) (p : Nat) : Nat := fld s (FAB_P_STS p) 3 0

/-- Port `p` is UP; there are four ports (R412). -/
def portUp (s : State) (p : Nat) : Bool := decide (p < 4) && portSt s p == pUp

/-- The ports. -/
def ports4 : List Nat := List.range 4

/-- Port `p` of the fabric beyond its registers. -/
def fport (s : State) (p : Nat) : FabPort := mget FabPort.reset s.fab.ports p

/-- `s` with `f` applied to port `p`. -/
def updPort (s : State) (p : Nat) (f : FabPort → FabPort) : State :=
  { s with fab := { s.fab with ports := mset s.fab.ports p (f (fport s p)) } }

/-- A counter of port `p` advanced by one; there are four ports (R412). -/
def portInc (s : State) (p a : Nat) : State := if p < 4 then satInc s a else s

/-- A frame leaves port `p`: it carries the expected number and the credits of one class that are to be returned (R419,
R421). -/
def wireOut (s : State) (p : Nat) (seq : Option Nat) (f : Frame) : State :=
  let q := fport s p
  let brodris := f.cls != clTime
  let cr := if brodris then q.owed.headD (0, 0) else (0, 0)
  let peer := if !brodris || (f.cls == clLink && f.ty == 0x01) then none
              else some (rd64 s (FAB_P_PEER_SERIAL_LO p) (FAB_P_PEER_SERIAL_HI p))
  let s := updPort s p (fun q => if brodris then { q with owed := q.owed.drop 1, ackDue := false } else q)
  portInc { s with fab := { s.fab with wire := s.fab.wire ++ [⟨p, seq, q.seqRx, cr, peer, s.fuses.serial, f⟩] } } p (FAB_P_TX_FRAMES p)

/-- A LINK class frame leaves port `p` to its neighbour. -/
def linkOut (s : State) (p ty : Nat) (body : List Nat) : State :=
  wireOut s p none ⟨clLink, ty, fld s (FAB_P_STS p) 28 24, ownAddr s, 31, none, body⟩

/-- The port by which a frame leaves: a POSITION frame by the direct link, any other by the route's next hop (R430). -/
def outPort (s : State) (f : Frame) : Option Nat :=
  if f.ty = tyPosition then
    ports4.find? (fun p => portUp s p && flag s (FAB_P_STS p) 23 && fld s (FAB_P_STS p) 28 24 == f.dst)
  else if flag s (FAB_ROUTE f.dst) 31 then some (fld s (FAB_ROUTE f.dst) 27 26) else none

/-- End-to-end numbers of a destination and class: the next number and the frames unacknowledged (R434). -/
def e2eKey (dev cls : Nat) : Nat := dev * 4 + cls
def e2eTx (s : State) (dst cls : Nat) : Nat × List Frame := mget (0, []) s.fab.e2eTx (e2eKey dst cls)

/-- Whether port `p` can take the frame now: it is UP, the retry buffer has room (R418) and the class its credits (R421). -/
def canSend (s : State) (p : Nat) (f : Frame) : Bool :=
  portUp s p &&
  (!f.sequenced || (decide ((fport s p).retry.length < 64) &&
    decide (mget 0 (fport s p).used f.cls + f.credits ≤ classCredits f.cls)))

/-- A frame leaves port `p` for the first time: it takes the link number and the credits (R418, R421). -/
def sendOn (s : State) (p : Nat) (f : Frame) : State :=
  if f.sequenced then
    let n := (fport s p).seqTx
    updPort (wireOut s p (some n) f) p (fun q =>
      { q with seqTx := (n + 1) % 256, retry := q.retry ++ [(n, f)], retryAt := q.retryAt ++ [now s]
               used := mset q.used f.cls (mget 0 q.used f.cls + f.credits) })
  else wireOut s p none f

/-- One queued frame: sent with its end-to-end number when its port, window and credits allow, else kept. `held` lists the
ports and classes behind an earlier frame that stays (R417: frames of a class leave in the order they were queued). -/
def sendOne (st : State × List Frame × List (Nat × Nat)) (f : Frame) : State × List Frame × List (Nat × Nat) :=
  let (s, kept, held) := st
  match outPort s f with
  | none => (s, kept ++ [f], held)
  | some p =>
    let own := f.wantsE2e && f.e2e.isNone
    let (n, un) := e2eTx s f.dst f.cls
    if held.contains (p, f.cls) || !canSend s p f then (s, kept ++ [f], (p, f.cls) :: held)
    else if own && decide (8 ≤ un.length) then (s, kept ++ [f], held)
    else
      let g := if own then { f with e2e := some n } else f
      let s := if own then
                 let k := e2eKey f.dst f.cls
                 { s with fab := { s.fab with e2eTx := mset s.fab.e2eTx k ((n + 1) % 65536, un ++ [g])
                                              e2eAt := mset s.fab.e2eAt k (mget [] s.fab.e2eAt k ++ [now s]) } }
               else s
      (sendOn s p g, kept, held)

/-- The order in which classes leave (R417): LINK, HANDOFF, NOTICE frames of CONTROL, CONTROL, BULK. -/
def Frame.rank (f : Frame) : Nat := if f.ty = 0x20 then 2 else if f.cls < 2 then f.cls else f.cls + 1

/-- Every queued frame that can leave does. -/
def pump (s : State) : State :=
  let (s', kept, _) := (sortBy Frame.rank s.fab.out).foldl sendOne (s, [], [])
  { s' with fab := { s'.fab with out := kept } }

/-- A frame queued for the fabric. -/
def queueFrame (s : State) (f : Frame) : State := pump { s with fab := { s.fab with out := s.fab.out ++ [f] } }

/-- A message of this device for the device at `dst`: its type code and the fields of its layout, in order (R436). -/
def sendMsg (s : State) (dst ty : Nat) (body : List Nat) : State :=
  queueFrame s ⟨classOf ty, ty, dst, ownAddr s, 31, none, body⟩

/-- The same message to every plate-group peer. -/
def sendGroup (s : State) (ty : Nat) (body : List Nat) : State :=
  (groupPeers s).foldl (fun s d => sendMsg s d ty body) s

/-- A frame accepted on port `p` (R419, R421): the expected number advances, an ACK is due and its buffer space is to be
returned. -/
def acceptOn (s : State) (p : Nat) (f : Frame) : State :=
  updPort (portInc s p (FAB_P_RX_FRAMES p)) p (fun q =>
    if f.sequenced then
      { q with seqRx := (q.seqRx + 1) % 256, nakSent := false, ackDue := true
               owed := mset q.owed f.cls (mget 0 q.owed f.cls + f.credits) }
    else q)

/-- A message of the device at `src` delivered to this device (R434): the number expected from its source and class advances
and goes back in an E2E_ACK. -/
def frameIn (s : State) (via src ty : Nat) (body : List Nat) : State :=
  let f : Frame := ⟨classOf ty, ty, ownAddr s, src, 0, none, body⟩
  let s := acceptOn s via f
  if f.wantsE2e then
    let k := e2eKey src f.cls
    let n := (mget 0 s.fab.e2eRx k + 1) % 65536
    queueFrame { s with fab := { s.fab with e2eRx := mset s.fab.e2eRx k n } } ⟨f.cls, tyE2eAck f.cls, src, ownAddr s, 31, none, [n]⟩
  else s

/-- What a delivered message does; only LINK class frames pass on a port that is not UP (R414). -/
def delivered (s : State) (via src ty : Nat) (body : List Nat) (f : State → State) : State :=
  if portUp s via then f (frameIn s via src ty body) else s

/-! ### Host memory and completions -/

/-- The device may issue requests to the host (R121). -/
def canRequest (s : State) : Bool := s.hif.bme && !s.hif.d3hot && !s.hif.perst

/-- The code of a status (R138). -/
def Status.code : Status → Nat
  | .ok => 0x00
  | .badOpcode => 0x10
  | .badParam => 0x11
  | .wrongState => 0x12
  | .busy => 0x13
  | .noGrant => 0x14
  | .tempForbidden => 0x15
  | .locked => 0x16
  | .cfgRejected => 0x17
  | .dmaError => 0x20
  | .dataCrc => 0x21
  | .outputFull => 0x22
  | .expansionLimit => 0x23
  | .domainOff => 0x24
  | .fabricUnreachable => 0x30
  | .timeout => 0x31
  | .faultActive => 0x40
  | .internal => 0x7F

/-- Entries of a ring from its SIZE_LOG2 field; values outside 4–12 are taken as 4 (R132). -/
def ringSize (v : Nat) : Nat := if 4 ≤ v && v ≤ 12 then 2 ^ v else 16

/-- Entries of submission ring `n` (R132; ring 15 R532). -/
def sqSize (s : State) (n : Nat) : Nat := if n = 15 then 64 else ringSize (fld s (HIF_SQ_CFG n) 3 0)

/-- Entries of completion ring `n` (R132; ring 15 R532). -/
def cqSize (s : State) (n : Nat) : Nat := if n = 15 then 64 else ringSize (fld s (HIF_CQ_CFG n) 3 0)

/-- The 32 bytes of a completion with a phase bit (R133). -/
def Completion.bytes (c : Completion) (phase : Nat) : List Byte :=
  leBytes 4 c.tag ++ leBytes 2 c.op ++ leBytes 1 c.status.code ++ leBytes 1 (phase + 2 * b2n c.remote) ++
  leBytes 4 c.r0 ++ leBytes 4 c.r1 ++ leBytes 4 c.r2 ++ leBytes 4 c.extra ++ leBytes 8 c.time

/-- One command less outstanding on ring `n` (R132); there are rings 0–15. -/
def lessOutstanding (s : State) (n : Nat) : State :=
  if n < 16 then setFld s (HIF_SQ_STS n) 24 16 (fld s (HIF_SQ_STS n) 24 16 - 1) else s

/-- One command more outstanding on ring `n`. -/
def moreOutstanding (s : State) (n : Nat) : State :=
  if n < 16 then setFld s (HIF_SQ_STS n) 24 16 (fld s (HIF_SQ_STS n) 24 16 + 1) else s

/-- A completion takes its slot: rings 0–14 in host memory at the tail, with the ring's phase, which inverts at the wrap
(R126); ring 15 on bulk IN (R531). -/
def cqWrite (s : State) (c : Completion) : State :=
  let s := lessOutstanding s c.ring
  let tail := fld s (HIF_CQ_TAIL c.ring) 11 0
  let phase := fld s (HIF_CQ_TAIL c.ring) 12 12
  let bs := c.bytes phase
  let s :=
    if c.ring = 15 then { s with svc := { s.svc with bulkIn := s.svc.bulkIn ++ bs } }
    else
      let base := rdN s (HIF_CQ_BASE_LO c.ring) + 2 ^ 32 * rdN s (HIF_CQ_BASE_HI c.ring)
      putHost s (base + 32 * tail) bs
  if 16 ≤ c.ring then s
  else if tail + 1 = cqSize s c.ring then
    setFld (setFld s (HIF_CQ_TAIL c.ring) 11 0 0) (HIF_CQ_TAIL c.ring) 12 12 (1 - phase)
  else setFld s (HIF_CQ_TAIL c.ring) 11 0 (tail + 1)

/-- One write to host memory carried out. -/
def doHostOp (s : State) : HostOp → State
  | .write a bs => putHost s a bs
  | .complete c => cqWrite s c

/-- A write to host memory: at once, or in order after the writes already held (R121, R122). A ring 15 completion does not
use the host link. -/
def hostOp (s : State) (o : HostOp) : State :=
  let link := match o with
    | .complete c => c.ring != 15
    | .write _ _ => true
  if !link || (canRequest s && s.hif.held.isEmpty) then doHostOp s o
  else { s with hif := { s.hif with held := s.hif.held ++ [o] } }

/-- Transaction type CMD_DONE (R436). -/
def tyCmdDone : Nat := 0x23

/-- Results for the host: at its address, or in the general pool when the address is 0 (R533). -/
def hostResult (s : State) (addr : Nat) (bs : List Byte) : State :=
  if addr = 0 then putSram s poolBase bs else hostOp s (.write addr bs)

/-- A host address that the issuing ring can name: none on ring 15 (R533). -/
def hostAddrOk (h : Issue) (addr align : Nat) : Bool := addr == 0 || (h.ring != 15 && addr % align == 0)

/-- A command completes (R134): its completion is written to its ring, discarded when the ring was reset (R92), or sent to
the issuer for a command that came over the fabric (R437). -/
def completeAs (s : State) (f : Issuer) (dropped : Bool) (op : Nat) (st : Status) (r0 r1 r2 ex : Nat) : State :=
  match f.src with
  | some a =>
    let s := match takeFirst (fun q : FwdCmd => q.started && q.src == a && q.ring == f.ring && leAt q.packet 4 4 == f.tag) s.fab.fwd with
             | some (_, rest) => { s with fab := { s.fab with fwd := rest } }
             | none => s
    sendMsg s a tyCmdDone [f.ring, f.tag, op, st.code, r0 % 2 ^ 32, r1 % 2 ^ 32, r2 % 2 ^ 32, ex % 2 ^ 32, now s]
  | none =>
    if dropped then s
    else hostOp s (.complete ⟨f.ring, f.tag, op, st, false, r0 % 2 ^ 32, r1 % 2 ^ 32, r2 % 2 ^ 32, ex % 2 ^ 32, now s⟩)

/-- The issuer of a packet. -/
def Issue.issuer (h : Issue) : Issuer := ⟨h.ring, h.tag, h.src⟩

/-- The completion of `h` is to be discarded: its ring was reset between the fetch and the start (R92, R134). -/
def voided (s : State) (h : Issue) : Bool := h.src.isNone && s.hif.voided.contains (h.ring, h.tag)

/-- The mark of a discarded completion is used up. -/
def unvoid (s : State) (h : Issue) : State :=
  { s with hif := { s.hif with voided := s.hif.voided.filter (· != (h.ring, h.tag)) } }

/-- The command of `h` completes with four results. -/
def complete (s : State) (h : Issue) (op : Nat) (st : Status) (r0 r1 r2 ex : Nat) : State :=
  completeAs (unvoid s h) (Issue.issuer h) (voided s h) op st r0 r1 r2 ex

/-- The command of `h` completes with a status and zero results (R133). -/
def fail (s : State) (h : Issue) (op : Nat) (st : Status) : State := complete s h op st 0 0 0 0

/-- The command of `h` runs on: it completes when the work named by `key` ends (R134). -/
def startRun (s : State) (h : Issue) (op key : Nat) (aux : List Nat) : State :=
  { unvoid s h with running := s.running ++ [⟨op, Issue.issuer h, key, voided s h, aux, now s⟩] }

/-- The running command of an opcode on an object, if there is one. -/
def findRun (s : State) (op key : Nat) : Option Running := s.running.find? (fun r => r.op == op && r.key == key)

/-- Whether a command of an opcode runs on an object. -/
def isRunning (s : State) (op key : Nat) : Bool := (findRun s op key).isSome

/-- The time `t` ns has come by the end of the tick in progress. -/
def reached (s : State) (t : Nat) : Bool := decide (t < now s + tickNs s)

/-- What recurs, and was last done at a time, if ever, is due after `ns`. A last time beyond the present, which a step of
fabric time can leave, holds nothing back. -/
def periodDue (s : State) (last : Option Nat) (ns : Nat) : Bool :=
  match last with
  | none => true
  | some t => decide (now s < t) || reached s (t + ns)

/-- A running command has been at work for `ns`. -/
def Running.aged (s : State) (ns : Nat) (r : Running) : Bool := reached s (r.since + ns)

/-- Whether any command of an opcode runs. -/
def anyRunning (s : State) (op : Nat) : Bool := s.running.any (fun r => r.op == op)

/-- The running command of an opcode on an object completes; nothing happens if none runs. -/
def finishRun (s : State) (op key : Nat) (st : Status) (r0 r1 r2 ex : Nat) : State :=
  match takeFirst (fun r : Running => r.op == op && r.key == key) s.running with
  | none => s
  | some (r, rest) => completeAs { s with running := rest } r.from_ r.dropped op st r0 r1 r2 ex

/-- The commands of a ring lose their ring: their completions will be discarded (R92, R134, R533). -/
def voidRing (s : State) (ring : Nat) : State :=
  { s with
    running := s.running.map (fun r => if r.from_.ring == ring && r.from_.src.isNone then { r with dropped := true } else r)
    hif := { s.hif with fetched := s.hif.fetched.map (fun f => if f.ring == ring then { f with dropped := true } else f)
                        held := s.hif.held.filter (fun o => match o with
                          | .complete c => c.ring != ring
                          | .write _ _ => true) } }

/-- Every running command of an opcode on an object completes. -/
def finishAll (s : State) (op key : Nat) (st : Status) (r0 r1 r2 ex : Nat) : State :=
  let rs := s.running.filter (fun r => r.op == op && r.key == key)
  let s := { s with running := s.running.filter (fun r => !(r.op == op && r.key == key)) }
  rs.foldl (fun s r => completeAs s r.from_ r.dropped op st r0 r1 r2 ex) s

/-! ### The checks of a command (R137) -/

/-- FLAGS bits of R133. -/
def Issue.fence (h : Issue) : Bool := h.flags.testBit 0
def Issue.remote (h : Issue) : Bool := h.flags.testBit 1
def Issue.paramPtr (h : Issue) : Bool := h.flags.testBit 2

/-- Order 2 of R137: FLAGS and bytes 9–15, TARGET with REMOTE, and the PARAM_PTR fields (R135, R136). -/
def headerOk (h : Issue) : Bool :=
  decide (h.flags < 8) && h.rsvd == 0 &&
  (!Issue.remote h || decide (h.target ≤ 31) || h.target == 0xFF) &&
  (!Issue.paramPtr h ||
    (h.ring != 15 && h.ptr % 4 == 0 && decide (48 ≤ h.ptrLen) && decide (h.ptrLen ≤ 65536) && h.ptrLen % 4 == 0 &&
     h.ptrTail == 0 && (!Issue.remote h || decide (h.ptrLen ≤ 1024))))

/-- The packet is to be forwarded (R136): REMOTE names another device. -/
def forwards (s : State) (h : Issue) : Bool :=
  Issue.remote h && h.target != 0xFF && h.target != ownAddr s && h.src.isNone

/-- A device is reachable (R430, R450). -/
def reachable (s : State) (d : Nat) : Bool := d == ownAddr s || flag s (FAB_ROUTE d) 31

/-- The packet that a ring starts next, with the parameter block that came with it (R131, R437): the oldest fetched command of a ring of this
device, or the oldest command accepted from that ring of the issuer, that has not started. -/
def nextStart (s : State) (h : Issue) : Option (List Byte × List Byte) :=
  match h.src with
  | none => (s.hif.fetched.find? (fun f => f.ring == h.ring)).map (fun f => (f.bytes, []))
  | some a => (s.fab.fwd.find? (fun q => q.src == a && q.ring == h.ring && !q.started)).map (fun q => (q.packet, q.block))

/-- The 64 bytes of a packet hold opcode `op` and the header `h` (R133, R135). -/
def headerSays (h : Issue) (op : Nat) (p : List Byte) : Bool :=
  leAt p 0 2 == op && leAt p 2 2 == h.flags && leAt p 4 4 == h.tag && leAt p 8 1 == h.target && leAt p 9 7 == h.rsvd &&
  (if Issue.paramPtr h then leAt p 16 8 == h.ptr && leAt p 24 4 == h.ptrLen && leAt p 28 36 == h.ptrTail
   else h.ptr == 0 && h.ptrLen == 0 && h.ptrTail == 0)

/-- The parameter bytes of a command, numbered as the packet's (R135): those of the packet, of the block that came over the fabric, or of
the block in host memory. -/
def paramBytes (s : State) (h : Issue) (p blk : List Byte) : List Byte :=
  if !Issue.paramPtr h then p
  else zeros 16 ++ (if h.src.isSome then blk else hostBytes s h.ptr h.ptrLen)

/-- The parameter bytes hold the operands of command `c`, and bytes that its layout does not use are zero or not as `h` says. -/
def paramsSay (h : Issue) (c : Instr) (img : List Byte) : Bool :=
  (paramsOf c).all (holds img) && (h.prsvd != 0) == strayBytes img (paramsOf c)

/-- The read of a parameter block fails (R129, R137 order 3); a block that came over the fabric has been read. -/
def blockFails (h : Issue) : Bool := Issue.paramPtr h && h.src.isNone && !h.readOk

/-- A parameter block is still to be read from the host, and the device may not issue the request (R121). -/
def blockWaits (s : State) (h : Issue) : Bool := Issue.paramPtr h && h.src.isNone && !canRequest s

/-- The packet that starts next spells command `c` of opcode `op` under header `h`. Its parameters count where the command comes to be
checked against them: not with a bad header, a block that fails, or a packet for another device. -/
def packetSays (s : State) (h : Issue) (op : Nat) (c : Instr) : Bool :=
  match nextStart s h with
  | none => false
  | some (p, blk) =>
    headerSays h op p &&
    (!headerOk h || (!blockWaits s h && (blockFails h || (forwards s h && op != 0x0805) || paramsSay h c (paramBytes s h p blk))))

/-- A command with FENCE starts only after each earlier command of its ring has completed (R131). A forwarded one was held at its issuer
(R437). -/
def fenceHolds (s : State) (h : Issue) : Bool :=
  h.src.isNone && Issue.fence h && s.running.any (fun r => r.from_.ring == h.ring && r.from_.src.isNone && !r.dropped)

/-- Transaction type CMD_FWD (R436). -/
def tyCmdFwd : Nat := 0x22

/-- The body of a CMD_FWD (R437): the ring, the 64 packet bytes, and the length and bytes of the parameter block. -/
def fwdBody (ring : Nat) (p blk : List Byte) : List Nat := [ring, leNat p, blk.length, leNat blk]

/-- The first element that satisfies `p`, with `f` applied to it. -/
def onFirst {α : Type} (p : α → Bool) (f : α → α) : List α → List α
  | [] => []
  | x :: xs => if p x then f x :: xs else x :: onFirst p f xs

/-- The packet that starts next is taken up (R130, R134, R437). -/
def accept (s : State) (h : Issue) : State :=
  match h.src with
  | some a =>
    { s with fab := { s.fab with
        fwd := onFirst (fun q => q.src == a && q.ring == h.ring && !q.started) (fun q => { q with started := true }) s.fab.fwd } }
  | none =>
    match takeFirst (fun f : Fetched => f.ring == h.ring) s.hif.fetched with
    | some (f, rest) =>
      { s with hif := { s.hif with fetched := rest
                                   voided := if f.dropped then (h.ring, h.tag) :: s.hif.voided else s.hif.voided } }
    | none => s

/-! ### The die ledger (R102 to R105) -/

/-- Cost in 0.1 W of the operations of R102, in table order from 0. -/
def dieCost (op : Nat) : Nat := [25, 15, 8, 15, 10].getD op 0

/-- Held costs in 0.1 W. -/
def dieHeld (s : State) : Nat := sumN (s.pwr.die.map (·.cost))

/-- `PWR_DIE_STS.HELD` and GRANTS follow the grants held (R105). -/
def dieShow (s : State) : State :=
  setFld (setFld s PWR_DIE_STS 31 16 (dieHeld s)) PWR_DIE_STS 15 8 s.pwr.die.length

/-- A temperature reading of sensor `t` in 1/16 °C, replacement included (R113). -/
def thmTemp (s : State) (t : Nat) : Int := fldI s (THM_TEMP t) 15 0

/-- The write window (R116): every sensor value lies between 0 °C and 85 °C. -/
def inWindow (s : State) : Bool :=
  (List.range 16).all (fun t => decide (0 ≤ thmTemp s t) && decide (thmTemp s t ≤ 85 * 16))

/-- The further condition of an operation of R102. -/
def dieCond (s : State) (op : Nat) : Bool :=
  match op with
  | 0 => !inLayer s
  | 4 => s.pwr.die.isEmpty && inWindow s
  | _ => true

/-- Whether the die ledger grants an operation now (R103, R104). -/
def dieGrants (s : State) (op : Nat) : Bool :=
  decide (dieHeld s + dieCost op ≤ fld s PWR_DIE_BUDGET 7 0) && dieCond s op && fld s THM_STS 5 4 == 0

/-- A grant taken for unit `u`. -/
def dieTake (s : State) (op u : Nat) : State :=
  dieShow { s with pwr := { s.pwr with die := s.pwr.die ++ [⟨op, u, dieCost op⟩] } }

/-- A refusal counted (R105). -/
def dieRefuse (s : State) : State := satIncF s PWR_DIE_STS 7 0

/-- The grant of an operation for unit `u` released. -/
def dieRelease (s : State) (op u : Nat) : State :=
  dieShow { s with pwr := { s.pwr with die := s.pwr.die.filter (fun g => !(g.op == op && g.unit == u)) } }

/-- Whether the operation holds a grant for unit `u`. -/
def dieHolds (s : State) (op u : Nat) : Bool := s.pwr.die.any (fun g => g.op == op && g.unit == u)

/-- Host command `c` in the order of R137. `layout` is the length the opcode's layout needs in a parameter block (R135);
`checks` gives orders 5 to 12 in order, each with the status of its failure; `body` is order 13. A packet for another
device is forwarded with its block (R136), but for a REMOTE_COMMAND, which REMOTE makes malformed (R447). Where the packet that
starts next spells another command, or must still wait for earlier ones of its ring or for its block, nothing starts (R131, R121).
A layout longer than the 48 inline bytes needs a parameter block (assumption 12). -/
def hostCmd (s : State) (h : Issue) (c : Instr) (op layout : Nat) (checks : State → List (Bool × Status)) (body : State → State) :
    State :=
  if !packetSays s h op c || fenceHolds s h then s
  else
    let t := accept s h
    if !headerOk h then fail t h op .badParam
    else if blockFails h then fail t h op .dmaError
    else if forwards s h && op != 0x0805 then
      if !reachable t h.target then fail t h op .fabricUnreachable
      else
        let (p, _) := (nextStart s h).getD ([], [])
        let blk := if Issue.paramPtr h then hostBytes s h.ptr h.ptrLen else []
        startRun (sendMsg t h.target tyCmdFwd (fwdBody h.ring p blk)) h tyCmdFwd h.target [op]
    else if decide ((if Issue.paramPtr h then h.ptrLen else 48) < layout) then fail t h op .badParam
    else if h.prsvd != 0 then fail t h op .badParam
    else
      match (checks t).find? (fun c => !c.1) with
      | some c => fail (if c.2 == .noGrant then dieRefuse t else t) h op c.2
      | none => body t

end Sys2Proof.Machine
end

