-- ==== Sys2Proof/Machine/LaneOps.lean ====
section
/-!
DEFINITION. Shared operations on a lane: its limits and positions, its phase, GATE and EMIT, the ledger's grants, the split
of a mark and the halt of a lane (R189, R196, R205, R212, R243, R248, R257, R278).
-/

namespace Sys2Proof.Machine

/-! ### Limits and lengths -/

/-- Path limits of a lane in PLU and seconds (R205): 1 µm is 8 PLU. -/
def vmaxMark (s : State) (n : Nat) : Nat := rdN s (SCN_VMAX_MARK n) * 8
def vmaxJump (s : State) (n : Nat) : Nat := rdN s (SCN_VMAX_JUMP n) * 8
def pathAccel (s : State) (n : Nat) : Nat := rdN s (SCN_ACCEL n) * 8000000
def pathJerk (s : State) (n : Nat) : Nat := rdN s (SCN_JERK n) * 8000000000
/-- Focus limits of a lane in µm and seconds (R205). -/
def zVmax (s : State) (n : Nat) : Nat := rdN s (SCN_ZVMAX n)
def zAccel (s : State) (n : Nat) : Nat := rdN s (SCN_ZACCEL n) * 1000000
def zJerk (s : State) (n : Nat) : Nat := rdN s (SCN_ZJERK n) * 1000000000

/-- The length of a vector with components in 2^−16 units, rounded down to that unit. -/
def len16 (dx dy : Int) : Nat := isqrt (dx * dx + dy * dy).toNat

/-- The length of a record in PLU, rounded down. -/
def VRec.len (r : VRec) : Nat := isqrt ((r.ex - r.sx) * (r.ex - r.sx) + (r.ey - r.sy) * (r.ey - r.sy)).toNat

/-- The point at `d` PLU along a record, in 2^−16 PLU. -/
def VRec.pt16 (r : VRec) (d : Int) : Int × Int :=
  let l := VRec.len r
  if l = 0 then (r.sx * 65536, r.sy * 65536)
  else (r.sx * 65536 + fdiv ((r.ex - r.sx) * d * 65536) l, r.sy * 65536 + fdiv ((r.ey - r.sy) * d * 65536) l)

/-- A position in 2^−16 PLU to the nearest PLU. -/
def roundPlu (p : Int) : Int := rdiv p 65536

/-- Whether a record is a mark or a stitchable mark. -/
def VRec.isMark (r : VRec) : Bool := r.ty == 0 || r.ty == 2

/-- An undefined recipe reads as this one; no check lets a record name it (R156, R171). -/
def Recipe.none : Recipe := ⟨0, 0, 0, 0, 0, 0, 0, 0, 0, 0, [], []⟩

/-- The recipe of a number in the device's table (R161). -/
def recipeOf (s : State) (n : Nat) : Recipe := mget Recipe.none s.seq.recipes n

/-- A recipe number is defined (R161). -/
def recipeDefined (s : State) (n : Nat) : Bool := s.seq.recipes.any (fun p => p.1 == n)

/-- The grant that a mark of a recipe needs, in mW (R253). -/
def grantOf (r : Recipe) : Nat := r.power * (256 + r.headroom) / 256

/-- Path speed of a mark on lane `n`, in µm/s (R205). -/
def markUm (s : State) (n : Nat) (r : VRec) : Nat := satN (rdN s (SCN_VMAX_MARK n)) (recipeOf s r.recipe).markSpeed

/-- Estimated duration of a record on lane `n` over `len` PLU, in ns (R268). -/
def trOf (s : State) (n : Nat) (r : VRec) (len : Nat) : Nat :=
  match r.ty with
  | 0 => len * 125000000 / markUm s n r + rdN s OVL_MARK_OVH
  | 2 => len * 125000000 / markUm s n r + rdN s OVL_MARK_OVH
  | 1 => len * 125000000 / satN (rdN s (SCN_VMAX_JUMP n)) (recipeOf s r.recipe).jumpSpeed + rdN s OVL_JUMP_OVH
  | 3 => r.arg * 1000
  | 4 => r.arg * 1000
  | _ => 0

/-- The length of what is left of a piece of work, in PLU. -/
def Work.left (w : Work) : Nat :=
  (w.hi - (match w.resume with
    | some d => if w.lo < d then d else w.lo
    | none => w.lo)).toNat

/-- A part of a record with the estimated duration of its own length on lane `n` (R268); a kept dwell has the time that is left. -/
def ownTr (s : State) (n : Nat) (w : Work) : Work :=
  match w.resume, VRec.isMark w.rcd with
  | some t, false => { w with tr := t.toNat / 1000000 }
  | _, _ => { w with tr := trOf s n w.rcd (Work.left w) }

/-! ### Engines (R25) -/

/-- The engine that runs lane `n`. -/
def engineOf (s : State) (n : Nat) : Nat := fld s (TOP_ENGINE_MAP n) 4 0

/-- The domain of engine `e` is on: QUADq for engines 4q to 4q + 3, CORE for 24 and 25. -/
def engineOn (s : State) (e : Nat) : Bool := decide (24 ≤ e) || domOn s (2 + quadOf e)

/-- Lane `n` works: the domain of its outputs and that of the engine that runs it are on. -/
def laneRuns (s : State) (n : Nat) : Bool := domOn s (2 + quadOf n) && engineOn s (engineOf s n)

/-! ### Phase, GATE and EMIT -/

/-- `LN_STS.LSTATE` of a phase (R202). DEDUCED: a run-out shows JUMPING, as the other motions with the laser off do; a
lane between two records shows READY (assumption 9). -/
def lstateOf : Phase → Nat
  | .idle => 0
  | .priming => 1
  | .ready => 2
  | .free => 2
  | .marking => 3
  | .jump => 4
  | .settle => 4
  | .hold => 4
  | .runup => 4
  | .runout => 4
  | .dwell => 5
  | .switching => 5
  | .waitGrant => 6
  | .waitEmit => 6
  | .waitPlume => 7
  | .underrun => 8
  | .stopping => 9
  | .parked => 10
  | .ended => 11
  | .halted => 12

/-- Lane `n` enters a phase, which `LN_STS` shows. -/
def setPhase (s : State) (n : Nat) (p : Phase) : State :=
  setFld (updLane s n (fun l => { l with phase := p })) (LN_STS n) 23 20 (lstateOf p)

/-- The GATE level of lane `n`. -/
def gateOf (s : State) (n : Nat) : Bool := flag s (LAS_STS n) 4

/-- The EMIT level of lane `n`. -/
def emitOf (s : State) (n : Nat) : Bool := flag s (LAS_STS n) 5

/-- The shutter path holds every GATE and EMIT low (R250). -/
def shutterHolds (s : State) : Bool := !s.pins.interlockN || flag s LEDG_SHUTTER 31

/-- `LAS_STS.SHUTTER` follows the shutter path (R261). -/
def shutterShow (s : State) : State :=
  let b := shutterHolds s
  lanes24.foldl (fun s n => if flag s (LAS_STS n) 8 == b then s else setFlag s (LAS_STS n) 8 b) s

/-- The pulses of GATE, newest first, up to the first that had ended at `cut` fs. -/
def pulsesTo (cut : Nat) : List (Nat × Nat) → List (Nat × Nat)
  | [] => []
  | p :: ps => if p.2 ≤ cut then [p] else p :: pulsesTo cut ps

/-- The GATE level of lane `n` set; the times of its last rise and fall are kept, and the pulses before them that a sample window after
`at_` may follow (R301). -/
def setGate (s : State) (n : Nat) (b : Bool) (at_ : Nat) : State :=
  if gateOf s n == b then s
  else
    let rise (l : Lane) : Lane := { l with gateRose := at_, gatePrev := pulsesTo (at_ - 125000000) ((l.gateRose, l.gateFell) :: l.gatePrev) }
    setFlag (updLane s n (fun l => if b then rise l else { l with gateFell := at_ })) (LAS_STS n) 4 b

/-- GATE of lane `n` low, and with it EMIT in EMIT_MODE 1; its on-windows end (R189, R243, R246). One whose mark has ended stands until
the tick has settled the mark. -/
def gateLow (s : State) (n : Nat) : State :=
  let t := now s * 1000000
  let s := setGate (updLane s n (fun l =>
    { l with gates := (l.gates.filter (fun g => g.ended.isSome && !g.settled)).map (fun g => { g with fall := some t }) })) n false t
  if flag s (LAS_CFG n) 8 then setFlag s (LAS_STS n) 5 false else s

/-- The on-windows of lane `n` whose mark has not ended go: GATE, and EMIT in EMIT_MODE 1, stays high only for one that has, up to its own
fall. -/
def gateDrop (s : State) (n : Nat) : State :=
  let t := now s * 1000000
  let s := updLane s n (fun l => { l with gates := l.gates.filter (·.ended.isSome) })
  let high (g : GateWin) : Bool := decide (g.rise ≤ t) && (match g.fall with
    | some f => decide (t < f)
    | none => true)
  if (lane s n).gates.any high then s
  else
    let s := setGate s n false t
    if flag s (LAS_CFG n) 8 then setFlag s (LAS_STS n) 5 false else s

/-- The mark in `cur` has started: its motion along the mark has, or GATE has risen on it (R267). -/
def curStarted (s : State) (n : Nat) : Bool :=
  let l := lane s n
  l.phase == .marking ||
  (gateOf s n && l.cur.any (fun w => l.gates.any (fun g =>
    g.ended.isNone && g.work.rcd.vid == w.rcd.vid && decide (g.rise ≤ now s * 1000000))))

/-- GATE and EMIT of lane `n` low. -/
def darken (s : State) (n : Nat) : State := setFlag (gateLow s n) (LAS_STS n) 5 false

/-- The laser port of lane `n` is off: MODE 0, and 3, which is taken as 0 (R242, R261). -/
def portOff (s : State) (n : Nat) : Bool := fld s (LAS_CFG n) 1 0 == 0 || fld s (LAS_CFG n) 1 0 == 3

/-- EMIT of lane `n` rises in EMIT_MODE 0, unless the port or its domain is off or the safe state or the shutter path holds it (R52,
R242, R246). -/
def emitRise (s : State) (n : Nat) : State :=
  if flag s (LAS_CFG n) 8 || portOff s n || !domOn s (2 + quadOf n) || s.pwr.safe || shutterHolds s || emitOf s n then s
  else setFlag (updLane s n (fun l => { l with emitAt := now s * 1000000 })) (LAS_STS n) 5 true

/-- A contact-sheet counter of lane `n` advanced by `k`, saturating at its width (R199). -/
def count (s : State) (n off k : Nat) : State :=
  let m := if off = 92 || off = 100 then 2 ^ 64 - 1 else 2 ^ 32 - 1
  updLane s n (fun l => { l with sheet := mset l.sheet off (satN m (mget 0 l.sheet off + k)) })

/-- A tick count of the contact sheet: only ticks of EXPOSING count (R199). -/
def tally (s : State) (n off k : Nat) : State := if layerSt s = stExposing then count s n off k else s

/-- A contact-sheet value of lane `n` set. -/
def record (s : State) (n off v : Nat) : State := updLane s n (fun l => { l with sheet := mset l.sheet off v })

/-! ### Ledger -/

/-- The granted total G, in mW (R253). -/
def ledgerG (s : State) : Nat := sumN (s.ledger.grants.map (·.mw))

/-- `LEDG_GRANTED`, `LEDG_STS` and `LEDG_PEAK` follow the ledger (R262). -/
def ledgerShow (s : State) : State :=
  let g := ledgerG s
  let s := wrN s LEDG_GRANTED g
  let s := setFld s LEDG_STS 31 16 s.ledger.waiting.length
  let s := setFlag s LEDG_STS 1 (decide (rdN s LEDG_BUDGET < g))
  if rdN s LEDG_PEAK < g then wrN s LEDG_PEAK g else s

/-- The grant of a lane's current mark shows in its LAS registers (R261). -/
def grantShow (s : State) (n : Nat) : State :=
  let g := s.ledger.grants.find? (fun g => g.lane == n && g.slot == 0)
  let w := s.ledger.waiting.any (fun g => g.lane == n)
  setFlag (setFlag (wrN s (LAS_GRANT n) ((g.map (·.mw)).getD 0)) (LAS_STS n) 7 g.isSome) (LAS_STS n) 6 w

/-- Every request of lane `n` goes, and its grants are released at the next boundary (R248, R254, R257). -/
def releaseAll (s : State) (n : Nat) : State :=
  grantShow (ledgerShow { s with ledger := { s.ledger with
    grants := s.ledger.grants.map (fun g => if g.lane == n then { g with slot := 3 } else g)
    waiting := s.ledger.waiting.filter (fun g => g.lane != n) } }) n

/-- The ledger empty, at DONE and ABORTED (R259). -/
def ledgerClear (s : State) : State :=
  lanes24.foldl (fun s n => if rdN s (LAS_GRANT n) = 0 && fld s (LAS_STS n) 7 6 = 0 then s else grantShow s n)
    (ledgerShow { s with ledger := Ledger.reset })

/-- A slot of lane `n` renamed, its request and its grant. -/
def moveSlot (s : State) (n a b : Nat) : State :=
  let f (g : GrantReq) : GrantReq := if g.lane == n && g.slot == a then { g with slot := b } else g
  grantShow { s with ledger := { s.ledger with waiting := s.ledger.waiting.map f, grants := s.ledger.grants.map f } } n

/-- The grant of one slot of lane `n` is released at the next boundary, and its request goes (R254, R257). -/
def releaseSlot (s : State) (n slot : Nat) : State :=
  let s := { s with ledger := { s.ledger with waiting := s.ledger.waiting.filter (fun g => !(g.lane == n && g.slot == slot)) } }
  ledgerShow (moveSlot s n slot 3)

/-- Lane `n` holds the grant of a slot. -/
def grantHeld (s : State) (n slot : Nat) : Option GrantReq := s.ledger.grants.find? (fun g => g.lane == n && g.slot == slot)

/-- A lane requests the grant of a mark (R253); a grant of 0 mW is given at once. -/
def requestGrant (s : State) (n slot : Nat) (r : VRec) : State :=
  let q : GrantReq := ⟨n, slot, grantOf (recipeOf s r.recipe), tickNo s, r.vid⟩
  if q.mw = 0 then { s with ledger := { s.ledger with grants := s.ledger.grants ++ [q] } }
  else grantShow (ledgerShow { s with ledger := { s.ledger with waiting := s.ledger.waiting ++ [q] } }) n

/-! ### Pools -/

/-- `OVL_STS.ENTRIES` and `ZONE_STS` follow the pools (R295). -/
def poolShow (s : State) : State :=
  let s := setFld s OVL_STS 31 16 s.ovl.pool.length
  (List.range 64).foldl (fun s z =>
    let es := s.ovl.pool.filter (fun e => e.zone == z)
    let o := (es.filter (fun e => e.state == .opened)).length
    let c := (es.filter (fun e => e.state == .claimed || e.state == .started)).length
    if o + 65536 * c = (o + 65536 * c) % 2 ^ 32 && rdN s (ZONE_STS z) = c + 65536 * o then s
    else setFld (setFld s (ZONE_STS z) 31 16 o) (ZONE_STS z) 15 0 c) s

/-- Transaction types of the handoff tokens (R436). -/
def tyEstimate : Nat := 0x10
def tyClaim : Nat := 0x11
def tyGrant : Nat := 0x12
def tyDeny : Nat := 0x13
def tyReturn : Nat := 0x14
def tyDone : Nat := 0x15

/-- The global lane number of a lane of this device (R4). -/
def globalLane (s : State) (n : Nat) : Nat := ownAddr s * 24 + n

/-- Work taken from a pool goes back to it (R278): an entry of this device becomes OPEN, and one of a remote owner travels as
RETURN with the distance from which it is to be re-marked. -/
def returnWork (s : State) (n : Nat) (w : Work) (resumeAt : Option Int) : State :=
  if w.src = 3 then
    sendMsg s w.home tyReturn [w.seg, 0, globalLane s n, w.rcd.vid, unsgn 32 (resumeAt.getD 0)]
  else if w.src ≠ 0 then
    { satInc s OVL_RETURNS with ovl := { s.ovl with pool := s.ovl.pool.map (fun e =>
        if e.work.rcd.vid == w.rcd.vid && e.home == w.home && e.work.seg == w.seg then
          { e with state := .opened, holder := 0, grantable := true
                   work := match resumeAt with
                           | some d => ownTr s e.home { e.work with resume := some d }
                           | none => e.work }
        else e) } }
  else s

/-- Every claimed entry of lane `n` that is not in execution goes back (R278): those that wait, the current one before its start, the
successor and those kept, a kept remainder with its split point. A home segment that waits stays with its lane (R267). A CLAIM that waits
for its answer is given up, so that a GRANT finds none. -/
def returnClaims (s : State) (n : Nat) : State :=
  let l := lane s n
  let goes (w : Work) : Bool := decide (2 ≤ w.src) || (w.src == 1 && w.seg != 1 && w.seg != 2)
  let keptGoes (w : Work) : Bool := goes w || (w.src == 1 && w.resume.isSome)
  let cur := if curStarted s n then none else l.cur.filter goes
  let s := updLane s n (fun l => { l with claimed := l.claimed.filter (fun w => !goes w)
                                          kept := l.kept.filter (fun w => !keptGoes w)
                                          cur := if cur.isSome then none else l.cur
                                          succ := l.succ.filter (fun w => !goes w)
                                          claimOut := none })
  let s := (cur.toList ++ (l.succ.filter goes).toList ++ l.claimed.filter goes).foldl (fun s w => returnWork s n w none) s
  (l.kept.filter keptGoes).foldl (fun s w => returnWork s n w w.resume) s

/-! ### Motion -/

/-- Distance in 2^−16 units, speed and acceleration of a profile at `t` fs; after its end it stands at `len`. -/
def profOwn (p : Prof) (len t : Nat) : Int × Int × Int :=
  if Prof.dur p ≤ t then (len, 0, 0)
  else
    let k := Prof.at p t
    (Kin.dist16 k, Kin.speed k, Kin.accel k)

/-- The same of a profile stretched from its own duration to `dur` (R207). -/
def profAt (p : Prof) (len dur t : Nat) : Int × Int × Int :=
  let d := Prof.dur p
  if dur ≤ t then (len, 0, 0)
  else
    let t' := if dur = 0 then 0 else t * d / dur
    let k := Prof.at p t'
    (satN len (Kin.dist16 k).toNat, if dur = 0 then 0 else Kin.speed k * d / dur, if dur = 0 then 0 else Kin.accel k * d * d / (dur * dur))

/-- One coordinate at `x` of `len` from `a` towards `b`, in 2^−16 units. A value that falls between two units is one of its two
neighbours, which one is a free value (assumption 6). -/
def between (c : Nat) (a b x : Int) (len : Nat) : Int :=
  if len = 0 || x = len then b
  else
    let q := (b - a) * x
    let f := q / (len : Int)
    if q % (len : Int) = 0 then a + f else a + f + (if Config.freeBit c then 1 else 0)

/-- Progress of a motion along its line at `t` fs: distance, speed and acceleration. -/
def Motion.line (m : Motion) (t : Nat) : Int × Int × Int :=
  if m.apart then profOwn m.prof m.len t else profAt m.prof m.len m.dur t

/-- Progress of its focus move. -/
def Motion.focus (m : Motion) (t : Nat) : Int × Int × Int :=
  let fl := (m.f1 - m.f0).natAbs
  if m.apart then profOwn m.fprof fl t else profAt m.fprof fl m.dur t

/-- A profile of one axis from `a` to `b` at `t` fs: position, speed and acceleration. -/
def axisAt (p : Prof) (a b : Int) (t : Nat) : Int × Int × Int :=
  if Prof.dur p ≤ t then (b, 0, 0)
  else
    let k := Prof.at p t
    (a + Kin.dist16 k, Kin.speed k, Kin.accel k)

/-- X, Y and F of a motion at `t` fs. -/
def Motion.posAt (m : Motion) (c t : Nat) : Int × Int × Int :=
  if m.dur ≤ t then (m.x1, m.y1, m.f1)
  else
    match m.axes with
    | some (px, py, pf) => ((axisAt px m.x0 m.x1 t).1, (axisAt py m.y0 m.y1 t).1, (axisAt pf m.f0 m.f1 t).1)
    | none =>
      let d := (m.line t).1
      let e := (m.focus t).1
      (between c m.x0 m.x1 d m.len, between c m.y0 m.y1 d m.len, if m.f0 ≤ m.f1 then m.f0 + e else m.f0 - e)

/-- Speed and acceleration of X, Y and F of a motion at `t` fs. -/
def Motion.rates (m : Motion) (t : Nat) : (Int × Int × Int) × (Int × Int × Int) :=
  if m.dur ≤ t then ((0, 0, 0), (0, 0, 0))
  else
    match m.axes with
    | some (px, py, pf) =>
      let x := axisAt px m.x0 m.x1 t
      let y := axisAt py m.y0 m.y1 t
      let f := axisAt pf m.f0 m.f1 t
      ((x.2.1, y.2.1, f.2.1), (x.2.2, y.2.2, f.2.2))
    | none =>
      let (_, v, a) := m.line t
      let (_, fv, fa) := m.focus t
      let part (q d : Int) : Int := if m.len = 0 then 0 else q * d / (m.len : Int)
      let sg : Int := if m.f0 ≤ m.f1 then 1 else -1
      ((part v (m.x1 - m.x0), part v (m.y1 - m.y0), sg * fv), (part a (m.x1 - m.x0), part a (m.y1 - m.y0), sg * fa))

/-- A motion that stays where it is. -/
def Motion.still (x y f : Int) : Motion := ⟨x, y, x, y, 0, ⟨0, 0, []⟩, f, f, ⟨0, 0, []⟩, 0, 0, false, none, 0⟩

/-- Limits of X and of Y of a motion planned per axis (R207): the path's over √2. -/
def axisAccel (s : State) (n : Nat) : Nat := isqrt (pathAccel s n * pathAccel s n / 2)
def axisJerk (s : State) (n : Nat) : Nat := isqrt (pathJerk s n * pathJerk s n / 2)

/-- The longer of two times. -/
def longer (a b : Nat) : Nat := if a < b then b else a

/-- The motion of profiles of X, Y and F from `(x0, y0, f0)`, each with its own end. -/
def axesMotion (x0 y0 f0 : Int) (px py pf : Prof) : Motion :=
  ⟨x0, y0, x0 + Prof.way px, y0 + Prof.way py, 0, ⟨0, 0, []⟩, f0, f0 + Prof.way pf, ⟨0, 0, []⟩,
   longer (longer (Prof.dur px) (Prof.dur py)) (Prof.dur pf), 0, false, some (px, py, pf), 0⟩

/-- The motion of lane `n` brought to rest (R212): along its line in s under the path limits, F under its own; a motion planned per
axis stops each axis by itself. -/
def stopMotion (s : State) (n : Nat) : State :=
  let l := lane s n
  let m := l.motion
  if m.dur ≤ m.t then updLane s n (fun l => { l with motion := Motion.still l.px l.py l.pf })
  else
    match m.axes with
    | some _ =>
      let ((vx, vy, vf), (ax, ay, af)) := m.rates m.t
      let a := axisAccel s n
      let j := axisJerk s n
      let m1 := axesMotion l.px l.py l.pf (stopProf vx ax a j) (stopProf vy ay a j) (stopProf vf af (zAccel s n) (zJerk s n))
      updLane s n (fun l => { l with motion := m1 })
    | none =>
      let (_, v, a) := m.line m.t
      let p := stopProf v a (pathAccel s n) (pathJerk s n)
      let (_, fv, fa) := m.focus m.t
      let q := stopProf fv fa (zAccel s n) (zJerk s n)
      let d := Prof.way p
      let e := Prof.way q
      let x1 := if m.len = 0 then l.px else l.px + (m.x1 - m.x0) * d / (m.len : Int)
      let y1 := if m.len = 0 then l.py else l.py + (m.y1 - m.y0) * d / (m.len : Int)
      let f1 := if m.f0 ≤ m.f1 then l.pf + e else l.pf - e
      updLane s n (fun l => { l with motion :=
        ⟨l.px, l.py, x1, y1, d.natAbs, if 0 ≤ d then p else p.neg, l.pf, f1, if 0 ≤ e then q else q.neg, longer (Prof.dur p) (Prof.dur q), 0, true, none, 0⟩ })

/-! ### Drift and raw counts (R219, R221, R233) -/

/-- Map values in 1/256 count with the drift terms of lane `n` (R219). -/
def driftOf (s : State) (n : Nat) (mx my mz : Int) : Int × Int × Int :=
  (mx + rdiv (rdI s (SCN_DRIFT_GAIN_X n) * mx - rdI s (SCN_DRIFT_ROT_X n) * my) (2 ^ 32) + rdI s (SCN_DRIFT_OFF_X n),
   my + rdiv (rdI s (SCN_DRIFT_GAIN_Y n) * my + rdI s (SCN_DRIFT_ROT_Y n) * mx) (2 ^ 32) + rdI s (SCN_DRIFT_OFF_Y n),
   mz + rdiv (rdI s (SCN_DRIFT_GAIN_Z n) * mz) (2 ^ 32) + rdI s (SCN_DRIFT_OFF_Z n))

/-- The counts of map values under the drift terms of lane `n`. -/
def driftCounts (s : State) (n : Nat) (m : Int × Int × Int) : Int × Int × Int :=
  let (x, y, z) := driftOf s n m.1 m.2.1 m.2.2
  (rdiv x 256, rdiv y 256, rdiv z 256)

/-- A quotient to the nearest integer, 0 where the divisor is 0. -/
def nearDiv (a b : Int) : Int := if b = 0 then 0 else if 0 < b then rdiv a b.toNat else rdiv (-a) (-b).toNat

/-- The map values at which the present drift terms give the counts `c`: what a lane that stands at counts follows drift changes
from (R221; assumption 19). -/
def undrift (s : State) (n : Nat) (c : Int × Int × Int) : Int × Int × Int :=
  let u : Int := 2 ^ 32
  let gx := u + rdI s (SCN_DRIFT_GAIN_X n)
  let gy := u + rdI s (SCN_DRIFT_GAIN_Y n)
  let rx := rdI s (SCN_DRIFT_ROT_X n)
  let ry := rdI s (SCN_DRIFT_ROT_Y n)
  let x := (c.1 * 256 - rdI s (SCN_DRIFT_OFF_X n)) * u
  let y := (c.2.1 * 256 - rdI s (SCN_DRIFT_OFF_Y n)) * u
  let d := gx * gy + rx * ry
  (nearDiv (x * gy + y * rx) d, nearDiv (y * gx - x * ry) d,
   nearDiv ((c.2.2 * 256 - rdI s (SCN_DRIFT_OFF_Z n)) * u) (u + rdI s (SCN_DRIFT_GAIN_Z n)))

/-- Counts that lane `n` last transmitted. -/
def cmdCounts (s : State) (n : Nat) : Int × Int × Int := (rdI s (SCN_CMD_X n), rdI s (SCN_CMD_Y n), rdI s (SCN_CMD_Z n))

/-- One axis of a raw course: the speed that it takes, in 2^−16 count per tick, for a way `d` in 2^−16 count from speed `v0`: SPEED,
or less where the way leaves room for the two ramps of 64 ticks only (assumption 19). -/
def rawPeak (d v0 : Int) (speed : Nat) : Int :=
  let r := d - 32 * v0
  let full : Int := speed * 65536
  if 64 * full ≤ r.natAbs then (if 0 ≤ r then full else -full) else r / 64

/-- Position relative to its start and speed of that axis after `i` ticks. -/
def rawAxis (d v0 : Int) (speed i : Nat) : Int × Int :=
  let vp := rawPeak d v0 speed
  let full : Int := speed * 65536
  let rem : Int := (d - 32 * v0).natAbs - 64 * full
  let hold : Int := if 0 < full && decide (0 ≤ rem) then rem else 0
  -- ticks left, times `full`
  let left : Int := if 0 < full then (128 - (i : Int)) * full + hold else 128 - i
  let one : Int := if 0 < full then full else 1
  if i ≤ 64 then (v0 * i + (vp - v0) * i * i / 128, v0 + (vp - v0) * i / 64)
  else if left ≤ 0 then (d, 0)
  else if 64 * one < left then (32 * (v0 + vp) + vp * ((i : Int) - 64), vp)
  else (d - vp * left * left / (128 * one * one), vp * left / (64 * one))

/-- The ways of a raw course, in 2^−16 count. -/
def RawRun.ways (r : RawRun) : Int × Int × Int :=
  if r.stop then (32 * r.vx, 32 * r.vy, 32 * r.vz) else (r.tx * 65536 - r.px, r.ty * 65536 - r.py, r.tz * 65536 - r.pz)

/-- Positions and speeds of a raw course after `i` ticks, in 2^−16. -/
def RawRun.after (r : RawRun) (i : Nat) : (Int × Int × Int) × (Int × Int × Int) :=
  let w := r.ways
  let x := rawAxis w.1 r.vx r.speed i
  let y := rawAxis w.2.1 r.vy r.speed i
  let z := rawAxis w.2.2 r.vz r.speed i
  ((r.px + x.1, r.py + y.1, r.pz + z.1), (x.2, y.2, z.2))

/-- A position in 2^−16 count as counts; between two counts it is one of them, which one is a free value (assumption 19). -/
def wholeCount (c : Nat) (p : Int) : Int := if p % 65536 = 0 then p / 65536 else p / 65536 + (if Config.freeBit c then 1 else 0)

/-- The counts of a raw course now. -/
def rawCounts (c : Nat) (r : RawRun) : Int × Int × Int :=
  let p := (r.after r.ticks).1
  (wholeCount c p.1, wholeCount (c + 1) p.2.1, wholeCount (c + 2) p.2.2)

/-- A raw course has come to rest. -/
def RawRun.over (r : RawRun) : Bool :=
  let w := r.ways
  decide (64 ≤ r.ticks) && (r.after r.ticks) == ((r.px + w.1, r.py + w.2.1, r.pz + w.2.2), (0, 0, 0))

/-- A raw course on lane `n` comes to rest over its ramp of 64 ticks. -/
def rawStop (s : State) (n : Nat) : State :=
  let stopped (r : RawRun) : RawRun :=
    let (p, v) := r.after r.ticks
    if r.stop then r else { r with px := p.1, py := p.2.1, pz := p.2.2, vx := v.1, vy := v.2.1, vz := v.2.2, ticks := 0, stop := true }
  updLane s n (fun l => { l with raw := l.raw.map stopped })

/-! ### Split and halt -/

/-- Distance in PLU of a plate position along a record, rounded to the nearest PLU. -/
def alongPlu (r : VRec) (px py : Int) : Int := rdiv (len16 (px - r.sx * 65536) (py - r.sy * 65536)) 65536

/-- A mark in progress is split at the commanded position (R189): GATE closes, the split point is recorded in the lane's
registers and the remainder is kept with its VECTOR_ID. -/
def splitMark (s : State) (n : Nat) : State :=
  let l := lane s n
  match l.cur with
  | none => gateLow s n
  | some w =>
    let s := wrN s (LN_SPLIT_ID n) w.rcd.vid
    let s := wrI s (LN_SPLIT_X n) (roundPlu l.px)
    let s := wrI s (LN_SPLIT_Y n) (roundPlu l.py)
    let d := alongPlu w.rcd l.px l.py
    gateLow (updLane s n (fun l => { l with cur := none, remark := none, startAt := none, endSpeed := none
                                            kept := ownTr s n { w with resume := some d } :: l.kept })) n

/-- The jog of lane `n` ends: its LANE_JOG completes with the reported position (R233). -/
def endJog (s : State) (n : Nat) (st : Status) (extra : Nat) : State :=
  finishRun (setFlag (updLane s n (fun l => { l with jog := none, retarget := none })) (SCN_STS n) 11 false) 0x0205 n st
    (rdN s (SCN_RPT_X n)) (rdN s (SCN_RPT_Y n)) (rdN s (SCN_RPT_Z n)) extra

/-- The scanner of lane `n` holds the position that it last transmitted (R37, R106). -/
def holdSent (s : State) (n : Nat) : State :=
  let sends := !(fld s (SCN_LINK_CFG n) 1 0 == 0)
  updLane s n (fun l =>
    let (x, y, f) := if sends then l.sentPt else (l.px, l.py, l.pf)
    if l.raw.isSome || l.held.isSome then
      { l with raw := none, held := if sends then some (undrift s n (cmdCounts s n)) else l.held, motion := Motion.still l.px l.py l.pf }
    else { l with px := x, py := y, pf := f, motion := Motion.still x y f })

/-- A tick overrun (R37): lane `n` holds, and its contact sheet notes the overrun (R199). -/
def overrunHold (s : State) (n : Nat) : State := holdSent (record s n 2 1) n

/-- The scanner of lane `n` comes to rest for a fault with code `code` (R212), a tick overrun apart. -/
def restFor (s : State) (n code : Nat) : State := if code = 0x0101 then overrunHold s n else rawStop (stopMotion s n) n

/-- Lane `n` halts for a LANE fault with code `code` (R196, R248): the laser goes off, the split point is recorded if it was
marking, every grant is released, claimed work goes back, and the scanner comes to rest (R212). A lane halted before stops what it does
since, a jog (R220, R229). -/
def haltLane (s : State) (n code : Nat) : State :=
  let l := lane s n
  if l.phase = .halted then
    let s := darken s n
    if l.jog.isSome then endJog (restFor s n code) n .faultActive 0
    else if code = 0x0101 then restFor s n code else s
  else
    let s := record (record s n 116 code) n 120 (laneVid s n)
    let started := l.phase == .marking
    let s := if started then splitMark s n else s
    let s := updLane s n (fun l => { l with startAt := none, endSpeed := none, exitSpeed := 0, corner := false })
    -- a started pool entry returns its remainder with the other claims; the lane keeps its own records
    let s := returnClaims s n
    let s := releaseAll (darken s n) n
    let s := restFor s n code
    let s := if l.jog.isSome then endJog s n .faultActive 0 else s
    setPhase (poolShow s) n .halted

end Sys2Proof.Machine
end

