-- ==== Sys2Proof/Machine/FaultOps.lean ====
section
/-!
DEFINITION. Taking a fault, as one shared operation (R552 to R555, R579): its entry, its event, the actions of its class and
the recovery it starts or joins; entry into the safe state (R106, R107); the immediate stop of an axis (R396); a fault whose
condition goes (R555); the recoveries' ends (R553).
-/

namespace Sys2Proof.Machine

/-! ### Axes: immediate stop -/

/-- Axis `k` beyond its registers. -/
def axis (s : State) (k : Nat) : Axis := mget Axis.reset s.axes k

/-- `s` with axis `k` set. -/
def setAxis (s : State) (k : Nat) (a : Axis) : State := { s with axes := mset s.axes k a }

/-- `s` with `f` applied to axis `k`. -/
def updAxis (s : State) (k : Nat) (f : Axis → Axis) : State := setAxis s k (f (axis s k))

/-- Axis states of R409. -/
def axDisabled : Nat := 0
def axIdle : Nat := 1
def axArmed : Nat := 2
def axMoving : Nat := 3
def axStopping : Nat := 4
def axHoming : Nat := 5
def axFault : Nat := 6

/-- `AX_STS.STATE` of axis `k`. -/
def axState (s : State) (k : Nat) : Nat := fld s (AX_STS k) 31 28

/-- `AX_GROUP_STS.ARMED` follows the axes' states (R410). -/
def armedShow (s : State) : State :=
  setFld s AX_GROUP_STS 7 0 (((List.range 8).filter (fun k => axState s k == axArmed)).foldl natSet 0)

/-- Axis `k` enters a state. -/
def setAxState (s : State) (k v : Nat) : State := armedShow (setFld s (AX_STS k) 31 28 v)

/-- The axis is in motion. -/
def axMovingNow (s : State) (k : Nat) : Bool :=
  axState s k == axMoving || axState s k == axStopping || axState s k == axHoming

/-- An encoder is configured on axis `k` (R392; 3 is taken as 0). -/
def hasEncoder (s : State) (k : Nat) : Bool := fld s (AX_CFG k) 5 4 == 1 || fld s (AX_CFG k) 5 4 == 2

/-- The results of an AXIS_MOVE that ends (R408). -/
def finishMove (s : State) (k : Nat) (st : Status) (ending code : Nat) : State :=
  let enc := if hasEncoder s k then rdN s (AX_ENC_POS k) else 0
  finishRun s 0x0702 k st (rdN s (AX_POS k)) (rdN s (AX_REMAIN k)) enc (ending + 256 * code)

/-- Every running AXIS_STOP whose axes are all at rest completes; RESULT0 is the mask of axes whose POS_VALID cleared
(R408): the named axes that had it at acceptance and have it no longer. -/
def finishStops (s : State) : State :=
  s.running.foldl (fun s r =>
    if r.op == 0x0704 && (bitList (r.aux.getD 0 0) 8).all (fun k => !axMovingNow s k && !(axis s k).stopReq) then
      let lost := (bitList (r.aux.getD 1 0) 8).filter (fun k => !flag s (AX_STS k) 23)
      finishRun s 0x0704 r.key .ok (lost.foldl natSet 0) 0 0 0
    else s) s

/-- An axis stops at once for a fault or the safe state (R396), with the axis fault code (R405). Axes 0–1 take the encoder's
position when there is one and keep the remainder; axes 2–7 drop the move. -/
def axisHalt (s : State) (k code : Nat) : State :=
  let moving := axMovingNow s k
  let a := axis s k
  let homing := axState s k == axHoming
  let s := if homing then setFlag s (AX_STS k) 23 false else s
  let target := match a.stopping with
                | some t => t
                | none => rdI s (AX_TARGET k)
  let s :=
    if k < 2 then
      let s := if hasEncoder s k then wrI s (AX_POS k) (rdI s (AX_ENC_POS k)) else setFlag s (AX_STS k) 23 false
      if moving && !homing then
        setFlag (wrI s (AX_REMAIN k) (target - rdI s (AX_POS k))) (AX_STS k) 21 true
      else s
    else if moving then wrN (setFlag s (AX_STS k) 23 false) (AX_REMAIN k) 0
    else s
  let s := updAxis s k (fun a => { a with plan := none, armed := none, retarget := none, stopReq := false
                                          stopping := none, homing := 0, setPos := none, safeOnly := code == 6 })
  let s := wrN s (AX_VEL k) 0
  let s := setAxState (setFld s (AX_STS k) 27 24 code) k axFault
  let s := finishMove s k .faultActive 2 code
  let s := finishRun s 0x0703 k .faultActive (rdN s (AX_CAPTURE k)) (rdN s (AX_CAPTURE_ENC k)) 0 0
  let s := finishRun s 0x0707 k .wrongState 0 0 0 0
  finishStops s

/-! ### The safe state -/

/-- Every output of a lane in its safe state (R106): GATE and EMIT low, power word 0, the last transmitted position held. A jog
ends (assumption 20). -/
def laneSafe (s : State) (n : Nat) : State :=
  let s := setFld (darken (holdSent s n) n) (LAS_WORD n) 15 0 0
  if (lane s n).jog.isSome then endJog s n .faultActive 0 else s

/-- The TRIG levels: active during a pulse, the active level inverted by its INVERT bit, and low in the safe state (R466,
R467) and while domain FABRIC is off (R52). -/
def trigShow (s : State) : State :=
  { s with pins := { s.pins with trig := if s.pwr.safe || !domOn s 13 then 0 else s.ftm.pulse ^^^ fld s FTM_TRIG_CFG 3 0 } }

/-- Every trigger disarmed and TRIG low; an INFO event when one was armed (R467). -/
def trigSafe (s : State) : State :=
  let any := (List.range 4).any (fun t => flag s (FTM_TRIG_STS t) 31)
  let s := (List.range 4).foldl (fun s t => setFlag s (FTM_TRIG_STS t) 31 false) s
  let s := trigShow { s with ftm := { s.ftm with pulse := 0 } }
  if any then event s srcDevice 0x1704 [] else s

/-- Entry into the safe state (R106, R107): lanes dark, axes stopped with EN low, triggers low, SAFE_N low. -/
def enterSafe (s : State) : State :=
  let s := { s with pwr := { s.pwr with safe := true }, pins := { s.pins with safeN := false } }
  let s := lanes24.foldl laneSafe s
  let s := (List.range 8).foldl (fun s k =>
    let s := if axState s k == axArmed || axMovingNow s k then axisHalt s k 6 else s
    setFlag s (AX_STS k) 15 false) s
  trigSafe s

/-! ### Entries of the fault table -/

/-- Indices of the fault table. -/
def fltIx : List Nat := List.range 64

/-- The entry of a code and source in a given state (1 ACTIVE, 2 GONE). -/
def fltFind (s : State) (code source st : Nat) : Option Nat :=
  fltIx.find? (fun i => fld s (FLT_ENTRY_W0 i) 31 30 == st && fld s (FLT_ENTRY_W0 i) 15 0 == code &&
    fld s (FLT_ENTRY_W1 i) 15 0 == source)

/-- The first free entry for a class: 60–63 are taken only by DEVICE and FATAL faults (R579). -/
def fltFree (s : State) (cls : Nat) : Option Nat :=
  fltIx.find? (fun i => fld s (FLT_ENTRY_W0 i) 31 30 == 0 && (decide (i < 60) || decide (3 ≤ cls)))

/-- Classes of R564. -/
def clsInfo : Nat := 0
def clsLane : Nat := 1
def clsLayer : Nat := 2
def clsDevice : Nat := 3
def clsFatal : Nat := 4

/-- Whether an entry of a class at or above `c` is ACTIVE or GONE, or such a fault stands without an entry (R555). -/
def faultAtLeast (s : State) (c : Nat) : Bool :=
  fltIx.any (fun i => fld s (FLT_ENTRY_W0 i) 31 30 != 0 && decide (c ≤ fld s (FLT_ENTRY_W0 i) 29 27)) ||
  s.evr.loose.any (fun f => decide (c ≤ f.cls))

/-- Whether a lane has a LANE fault that is ACTIVE or GONE (R182, R555). -/
def laneFaulted (s : State) (n : Nat) : Bool :=
  fltIx.any (fun i => fld s (FLT_ENTRY_W0 i) 31 30 != 0 && fld s (FLT_ENTRY_W0 i) 29 27 == clsLane &&
    fld s (FLT_ENTRY_W1 i) 15 0 == srcLane n) ||
  s.evr.loose.any (fun f => f.cls == clsLane && f.source == srcLane n)

/-- `FLT_STS` counts follow the table and the recoveries (R579). -/
def fltShow (s : State) : State :=
  let live := fltIx.filter (fun i => fld s (FLT_ENTRY_W0 i) 31 30 != 0)
  let s := setFld s FLT_STS 31 16 live.length
  let s := setFld s FLT_STS 4 0 ((live.map (fun i => fld s (FLT_ENTRY_W0 i) 29 27)).foldl natSet 0)
  let gov := s.evr.recov.foldl (fun m r => if m = 7 then r.cls else if m < r.cls then r.cls else m) 7
  setFlag (setFld s FLT_STS 15 13 gov) FLT_STS 12 (!s.evr.recov.isEmpty)

/-! ### Requests that faults make -/

/-- Transaction type NOTICE (R436), and the model's numbers for its kinds, whose codes the spec does not give
(assumption 10): 0 layer start, 1 stop bath, 2 abort, 3 PEER_LOST cause, 4 withdrawal, 5 burn freeze. -/
def tyNotice : Nat := 0x20

/-- A NOTICE to every plate-group peer: kind, layer, time and argument (R436). -/
def noticeGroup (s : State) (kind time arg : Nat) : State := sendGroup s tyNotice [kind, rdN s SEQ_LAYER, time, arg]

/-- No start is pending; what peers reported for it is over (R184). -/
def dropStart (s : State) : State := setFlag { s with seq := { s.seq with start := none, peerStart := [] } } SEQ_STS 5 false

/-- A pending start is cancelled: LAYER_EXPOSE or RESUME completes (R178, R184, R193). -/
def cancelStart (s : State) (st : Status) : State :=
  match s.seq.start with
  | none => s
  | some (_, isResume) => finishRun (dropStart s) (if isResume then 0x0109 else 0x0107) 0 st 0 0 0 0

/-- A DEVICE or FATAL fault finds a start pending: a RESUME completes with FAULT_ACTIVE, and a LAYER_EXPOSE ends with the layer (R178,
R185, R193). -/
def loseStart (s : State) : State :=
  match s.seq.start with
  | some (_, true) => cancelStart s .faultActive
  | some (_, false) => dropStart s
  | none => s

/-- A stop bath requested on this device (R178, R190): it starts at the next boundary of a layer EXPOSING; in PAUSED it
cancels a RESUME that waits for its start. -/
def requestStop (s : State) (st : Status) : State :=
  if layerSt s = stExposing then { s with seq := { s.seq with stopReq := true } }
  else if layerSt s = stPaused || (layerSt s = stArmed && st == .faultActive) then cancelStart s st
  else s

/-- An abort requested for a cause (R178, R195); the first cause stands unless a fault follows (R179). -/
def requestAbort (s : State) (c : EndCause) : State :=
  match s.seq.abortReq with
  | some c0 => if c.cause = 2 && c0.cause ≠ 2 then { s with seq := { s.seq with abortReq := some c } } else s
  | none => { s with seq := { s.seq with abortReq := some c } }

/-! ### Recoveries (R553) -/

/-- Lanes in a fault's scope: its own lane for LANE, every lane above. -/
def scopeOf (cls source : Nat) : Nat := if cls = clsLane then 1 <<< (source % 0x1000) else 2 ^ 24 - 1

/-- Lane `n` is at rest with GATE and EMIT low (R552). -/
def laneAtRest (s : State) (n : Nat) : Bool :=
  let l := lane s n
  decide (l.motion.dur ≤ l.motion.t) && !gateOf s n && !emitOf s n

/-- The recovery condition of a class over a scope (R552). -/
def recovered (s : State) (cls lanes : Nat) : Bool :=
  if cls = clsLane then (bitList lanes 24).all (laneAtRest s)
  else if cls = clsLayer then layerSt s == stPaused || layerSt s == stDone || layerSt s == stAborted ||
    (layerSt s != stExposing && layerSt s != stStopBath)
  else if cls = clsDevice then
    s.pwr.safe && lanes24.all (fun n => !gateOf s n && !emitOf s n) && (List.range 8).all (fun k => !flag s (AX_STS k) 15)
  else false

/-- How long the recovery timer of a class runs, in ns (R552). -/
def recoveryNs (s : State) (cls : Nat) : Nat :=
  let stop := fld s SEQ_STOP_CFG 19 16 * 1000000
  if cls = clsLane then stop else if cls = clsLayer then stop + 1000000 else 10000000

/-- A fault of class 1 to 3 joins the recoveries in progress whose scope it shares, or starts one; it starts a timer unless
it joins a recovery whose governing class is at or above its own (R553). -/
def joinRecovery (s : State) (cls source : Nat) : State :=
  if cls = clsInfo || cls = clsFatal then s
  else
    let sc := scopeOf cls source
    let hit (r : Recovery) : Bool := decide (clsLayer ≤ cls) || decide (clsLayer ≤ r.cls) || r.lanes == sc
    let joined := s.evr.recov.filter hit
    let others := s.evr.recov.filter (fun r => !hit r)
    let gov := joined.foldl (fun m r => if m < r.cls then r.cls else m) 0
    let timers := joined.flatMap (·.timers)
    let timers := if joined.isEmpty || gov < cls then timers ++ [⟨cls, sc, source, now s + recoveryNs s cls⟩] else timers
    let r : Recovery := ⟨if gov < cls then cls else gov, joined.foldl (fun m r => m ||| r.lanes) sc, timers⟩
    { s with evr := { s.evr with recov := others ++ [r] } }

/-- Timers that are met go, and recoveries whose governing condition holds end (R553). -/
def settle (s : State) : State :=
  let rs := s.evr.recov.filter (fun r => !recovered s r.cls r.lanes)
  let rs := rs.map (fun r => { r with timers := r.timers.filter (fun t => !recovered s t.cls t.lanes) })
  fltShow { s with evr := { s.evr with recov := rs } }

/-! ### Raising a fault -/

/-- The entry of a new fault, or none when the table is full (R552, R579). -/
def fltEnter (s : State) (cls code source : Nat) : State × Option Nat :=
  match fltFree s cls with
  | some i =>
    let s := setFld s (FLT_ENTRY_W0 i) 31 30 1
    let s := setFld (setFld s (FLT_ENTRY_W0 i) 29 27 cls) (FLT_ENTRY_W0 i) 15 0 code
    let s := wr64 (wrN s (FLT_ENTRY_W1 i) source) (FLT_ENTRY_TIME_LO i) (FLT_ENTRY_TIME_HI i) (now s)
    (s, some i)
  | none =>
    (setFlag { s with evr := { s.evr with loose := s.evr.loose ++ [⟨code, source, cls, false⟩] } } FLT_STS 5 true, none)

/-- The record of a fault: its own values, entry at byte 28 and class at byte 29 (R564). Values that
would reach byte 28 are cut there: of STREAM_CHECK, the upper half of the expected VECTOR_ID (R176; assumption 33). -/
def faultEvent (s : State) (cls code source : Nat) (entry : Option Nat) (payload : List Byte) : State :=
  let vid := if source / 0x1000 = 1 then leBytes 4 (laneVid s (source % 0x1000)) else []
  event s source code (padTo 12 (vid ++ payload) ++ leBytes 1 (entry.getD 0xFF) ++ leBytes 1 cls)

/-- The actions of a fault's class (R552): a LANE fault halts its lane and, with LANE_FAULT_ACTION 1, requests a stop bath
for the plate group (R196), STOP_TIMEOUT apart (R191); every LAYER fault requests one for the plate group (R192); a DEVICE or FATAL
fault enters the safe state, aborts the layer, freezes the tick trace and tells the peers (R196, R570). The RESUME that it finds
waiting completes with FAULT_ACTIVE; a LAYER_EXPOSE that waits ends with the layer (R178, R185, R193). -/
def faultActions (s : State) (cls code source : Nat) : State :=
  if cls = clsLane then
    let n := source % 0x1000
    let s := haltLane s n code
    if flag s SEQ_CFG 16 && inLayer s && code != 0x0103 then
      noticeGroup (requestStop s .wrongState) 1 (now s) 0
    else s
  else if cls = clsLayer then
    requestStop (noticeGroup s 1 (now s) code) .faultActive
  else if clsDevice ≤ cls then
    let was := inLayer s
    let s := loseStart (enterSafe s)
    let s := if was then noticeGroup (requestAbort s ⟨2, code⟩) 3 (now s) code else s
    if flag s EVR_STS 1 || s.evr.freezeNow.isSome then s
    else { s with evr := { s.evr with freezeNow := some code } }
  else s

/-- A fault is raised (R552 to R554): a repeat of an ACTIVE entry counts and is recorded; any other takes an entry, is
recorded, takes its actions and joins or starts a recovery. -/
def raiseFault (s : State) (cls code source : Nat) (payload : List Byte) : State :=
  match fltFind s code source 1 with
  | some i => faultEvent (satIncF s (FLT_ENTRY_W1 i) 31 16) cls code source (some i) payload
  | none =>
    let (s, e) := fltEnter s cls code source
    let s := faultEvent s cls code source e payload
    settle (faultActions (joinRecovery s cls source) cls code source)

/-- The condition of a fault goes: its entry passes from ACTIVE to GONE (R555). -/
def faultGone (s : State) (code source : Nat) : State :=
  let s := match fltFind s code source 1 with
           | some i => setFld s (FLT_ENTRY_W0 i) 31 30 2
           | none => s
  { s with evr := { s.evr with loose := s.evr.loose.map (fun f =>
      if f.code == code && f.source == source then { f with gone := true } else f) } }

/-- A fault whose condition is gone at once (R557). -/
def raiseOnce (s : State) (cls code source : Nat) (payload : List Byte) : State :=
  fltShow (faultGone (raiseFault s cls code source payload) code source)

/-- An axis fault (R396, R405): the axis stops, and the fault AXIS_FAULT is raised as INFO or, with FAULT_CLASS, LAYER. Its
payload holds the axis fault code. -/
def axisFault (s : State) (k code : Nat) : State :=
  let s := axisHalt s k code
  raiseOnce s (if flag s (AX_CFG k) 8 then clsLayer else clsInfo) 0x0010 (srcAxis k) (leBytes 1 code)

/-- The safe state is left when no DEVICE or FATAL entry remains and no thermal shutdown is latched (R555, R107): SAFE_N
rises while RUNNING, EN follows ENABLE, and axes in FAULT only because of the safe state return to IDLE (R383). -/
def leaveSafe (s : State) : State :=
  if s.pwr.safe && !faultAtLeast s clsDevice && !s.pwr.thermLatch && fld s PWR_BOOT_STS 3 0 == 5 && s.pwr.uvRails == 0 then
    let s := trigShow { s with pwr := { s.pwr with safe := false }, pins := { s.pins with safeN := true } }
    (List.range 8).foldl (fun s k =>
      let s := setFlag s (AX_STS k) 15 (flag s (AX_CFG k) 0)
      if axState s k == axFault && (axis s k).safeOnly then
        setAxState (setFld (updAxis s k (fun a => { a with safeOnly := false })) (AX_STS k) 27 24 0) k axIdle
      else s) s
  else s

end Sys2Proof.Machine
end

