-- ==== Sys2Proof/Machine/Dma.lean ====
section
/-!
DEFINITION. The DMA engine (R493 to R502): chains of descriptors, bursts by priority, bus errors, and its commands.
-/

namespace Sys2Proof.Machine

/-- DMA channel `c` beyond its registers. -/
def dmaCh (s : State) (c : Nat) : DmaCh := mget DmaCh.reset s.dma c

/-- `s` with DMA channel `c` set. -/
def setDma (s : State) (c : Nat) (d : DmaCh) : State := { s with dma := mset s.dma c d }

/-- `DMA_CHc_STS.STATE`: 0 IDLE, 1 ACTIVE, 2 STOPPING (R516). -/
def dmaState (s : State) (c : Nat) : Nat := fld s (DMA_CH_STS c) 31 28

/-- `DMA_ACTIVE` and `DMA_STS.ACTIVE` follow the channels (R516). -/
def dmaShow (s : State) : State :=
  let act := (List.range 32).filter (fun c => dmaState s c == 1)
  setFld (wrN s DMA_ACTIVE (act.foldl natSet 0)) DMA_STS 21 16 act.length

/-- Every DMA_STOP whose channels are all idle completes (R515). -/
def dmaStops (s : State) : State :=
  s.running.foldl (fun s r =>
    if r.op == 0x0905 && (bitList (r.aux.getD 0 0) 32).all (fun c => dmaState s c == 0) then
      finishRun s 0x0905 r.key .ok (r.aux.getD 1 0) 0 0 0
    else s) s

/-- The run of channel `c` ends (R502). RESULT2 is REMAIN, or for ending 6 the low word of the failing descriptor. -/
def dmaEnd (s : State) (c ending : Nat) (lastBeat : Bool) (st : Status) : State :=
  let r2 := if ending = 6 then rdN s (DMA_CH_DESC_LO c) else rdN s (DMA_CH_REMAIN c)
  let s := setFlag (setFld (setFld s (DMA_CH_STS c) 31 28 0) (DMA_CH_STS c) 27 24 ending) (DMA_CH_STS c) 23 lastBeat
  let d := dmaCh s c
  let s := setDma s c { d with cur := none, pre := none, flight := [] }
  dmaStops (dmaShow (finishRun s 0x0904 c st (rdN s (DMA_CH_DONE_LO c)) d.finished r2 (ending + 256 * b2n lastBeat)))

/-- The space's bytes; none where a DRAM channel does not serve the request (R473). -/
def spaceRead (s : State) (space a k : Nat) : Option (List Byte) :=
  match space with
  | 0 => some (hostBytes s a k)
  | 1 => if dramOk s a k then some (dramBytes s a k) else none
  | _ => some (sramBytes s a k)

/-- `s` with bytes written to a space; a DRAM channel that is not READY takes none. -/
def spaceWrite (s : State) (space a : Nat) (bs : List Byte) : State :=
  match space with
  | 0 => hostOp s (.write a bs)
  | 1 => if dramOk s a bs.length then putDram s a bs else s
  | _ => putSram s a bs

/-- The oldest burst in flight of channel `c` lands: its data is written and counts in DONE (R496); the last burst of a
descriptor finishes it, and the chain ends with LAST or after DMA_STOP (R502). A write to host memory waits while requests
are held (R121). -/
def dmaLand (s : State) (c : Nat) : State :=
  let d := dmaCh s c
  match d.flight, d.cur with
  | b :: rest, some cur =>
    if b.space = 0 && !canRequest s then s else
    let s := spaceWrite s b.space b.addr b.data
    let done := rd64 s (DMA_CH_DONE_LO c) (DMA_CH_DONE_HI c) + b.data.length
    let s := wr64 s (DMA_CH_DONE_LO c) (DMA_CH_DONE_HI c) done
    let s := setDma s c { d with flight := rest }
    let fin := rest.isEmpty && rdN s (DMA_CH_REMAIN c) == 0
    let s := if fin then
        satIncF (setDma s c { d with flight := rest, cur := none, finished := d.finished + 1 }) (DMA_CH_STS c) 15 0
      else s
    if dmaState s c = 2 && rest.isEmpty then dmaEnd s c 1 false .ok
    else if fin && cur.last then dmaEnd s c 0 false .ok
    else if fin then
      match d.pre with
      | some (a, some nx) =>
        wrN (wr64 (setDma s c { dmaCh s c with cur := some nx, pre := none }) (DMA_CH_DESC_LO c) (DMA_CH_DESC_HI c) a)
          (DMA_CH_REMAIN c) nx.len
      | some (a, none) => dmaEnd (wr64 s (DMA_CH_DESC_LO c) (DMA_CH_DESC_HI c) a) c 6 false .badParam
      | none => wr64 s (DMA_CH_DESC_LO c) (DMA_CH_DESC_HI c) cur.next
    else s
  | _, _ => s

/-- A bus error (R499, R500): every channel that runs stops with ending 2, and the failing read is logged. -/
def busErr (s : State) (kind space addr : Nat) : State :=
  let s := setFlag (setFld (setFld s DMA_STS 7 4 kind) DMA_STS 3 2 space) DMA_STS 0 true
  let s := wr64 s DMA_ERR_ADDR_LO DMA_ERR_ADDR_HI addr
  (List.range 32).foldl (fun s c =>
    if dmaState s c = 0 then s
    else
      let lb := match (dmaCh s c).cur with
                | some d => d.last && rdN s (DMA_CH_REMAIN c) == 0
                | none => false
      dmaEnd s c 2 lb .dmaError) s

/-- A descriptor from its 32 bytes (R494); none where a reserved field is nonzero. -/
def dmaDesc (bs : List Byte) : Option DmaDesc :=
  let sp := leAt bs 20 1
  let fl := leAt bs 21 1
  if 16 ≤ sp || 2 ≤ fl || leAt bs 22 2 ≠ 0 then none
  else some ⟨leAt bs 0 8, leAt bs 8 8, leAt bs 16 4, sp % 4, sp / 4, fl == 1, leAt bs 24 8⟩

/-- The checks of a descriptor (R495). -/
def dmaDescOk (s : State) (ring15 : Bool) (d : DmaDesc) : Bool :=
  decide (d.srcSpace < 3) && decide (d.dstSpace < 3) && d.len != 0 && (d.last || d.next % 32 == 0) &&
  (d.srcSpace != 1 || dramOk s d.src d.len) && (d.dstSpace != 1 || dramOk s d.dst d.len) &&
  (d.srcSpace != 2 || decide (d.src + d.len ≤ 2 ^ 25)) &&
  (d.dstSpace != 2 || (decide (poolBase ≤ d.dst) && decide (d.dst + d.len ≤ 0x1CE0000))) &&
  !(ring15 && (d.srcSpace == 0 || d.dstSpace == 0))

/-- DESCRIPTOR_FETCH: channel `c` fetches and checks its next descriptor (R495, R496). A chain in host memory waits while
requests are held; a chain in DRAM that is not READY is a bus error (R473, R485). -/
def execDescriptorFetch (c : Nat) (s : State) : Host.Outcome State Fault Refusal :=
  whileClocked s fun s =>
  let d := dmaCh s c
  let due := match d.cur with
             | none => some (rd64 s (DMA_CH_DESC_LO c) (DMA_CH_DESC_HI c))
             | some k => if k.last then none else some k.next
  match due with
    | none => s
    | some a =>
      if dmaState s c ≠ 1 || d.pre.isSome || (d.space = 0 && !canRequest s) then s
      else
        match spaceRead s d.space a 32 with
        | none => busErr s 4 1 a
        | some bs =>
          let k := (dmaDesc bs).filter (dmaDescOk s d.ring15)
          if d.cur.isSome then setDma s c { d with pre := some (a, k) }
          else
            match k with
            | none => dmaEnd s c 6 false .badParam
            | some k => wrN (setDma s c { d with cur := some k }) (DMA_CH_REMAIN c) k.len

/-- Bytes of the next burst of a descriptor of which `remain` bytes are unread (R496). -/
def burstLen (d : DmaDesc) (remain : Nat) : Nat :=
  let off := d.len - remain
  let lim (space a : Nat) : Nat := if space = 0 then 4096 - a % 4096 else 512
  satN remain (satN 512 (satN (lim d.srcSpace (d.src + off)) (lim d.dstSpace (d.dst + off))))

/-- Bursts in flight that read host memory: each holds one of the PCIe tags (R496). -/
def dmaTags (s : State) : Nat :=
  s.dma.foldl (fun k p => k + (p.2.flight.filter (fun b => b.src == 0)).length) 0

/-- The time from which channel `c` has a burst to issue, as its rate limit allows (R496, R498); none where it has none. -/
def dmaReady (s : State) (c : Nat) : Option Nat :=
  match (dmaCh s c).cur with
  | none => none
  | some d =>
    let n := burstLen d (rdN s (DMA_CH_REMAIN c))
    let rate := fld s (DMA_CH_CFG c) 15 8
    if dmaState s c == 1 && n != 0 && ((d.srcSpace != 0 && d.dstSpace != 0) || canRequest s) &&
        (d.srcSpace != 0 || decide (dmaTags s < 224)) then
      match (dmaCh s c).lastStart with
      | none => some 0
      | some t => some (if rate = 0 then 0 else t + cdiv (cdiv n 64 * 256) rate)
    else none

/-- The next slot of the engine that a channel can take (R497): when it begins. -/
def dmaSlot (s : State) : Option Nat :=
  let open_ := if s.dmaNext < now s then now s else s.dmaNext
  match (List.range 32).filterMap (dmaReady s) with
  | [] => none
  | t :: ts =>
    let first := ts.foldl (fun a b => if b < a then b else a) t
    some (if first < open_ then open_ else first)

/-- The channel that takes the slot beginning at `t`: the highest priority with one ready, in ascending order from the last
served (R497). -/
def dmaPick (s : State) (t : Nat) : Option Nat :=
  let ready := (List.range 32).filter (fun c => match dmaReady s c with
                                               | some u => decide (u ≤ t)
                                               | none => false)
  match (List.range 4).find? (fun p => ready.any (fun c => fld s (DMA_CH_CFG c) 1 0 == p)) with
  | none => none
  | some p =>
    let last := mget 31 s.dmaTurn p
    ((List.range 32).map (fun i => (last + 1 + i) % 32)).find? (fun c =>
      ready.contains c && fld s (DMA_CH_CFG c) 1 0 == p)

/-- The read of one burst of channel `c` is issued at `t` (R496). It takes a 64-byte beat a ns, and thermal throttling leaves
the engine half or a quarter of its slots (R493, R497). -/
def dmaIssue (s : State) (c t : Nat) : State :=
  let d := dmaCh s c
  match d.cur with
  | none => s
  | some k =>
    let rem := rdN s (DMA_CH_REMAIN c)
    let n := burstLen k rem
    let off := k.len - rem
    let thr := fld s THM_STS 5 4
    let busy := cdiv n 64 * (if thr = 0 then 1 else if thr = 1 then 2 else 4)
    let s := { s with dmaTurn := mset s.dmaTurn (fld s (DMA_CH_CFG c) 1 0) c, dmaNext := t + busy }
    match spaceRead s k.srcSpace (k.src + off) n with
    | none => busErr s 4 1 (k.src + off)
    | some bs =>
      let s := satInc (wrN s (DMA_CH_REMAIN c) (rem - n)) (DMA_CH_BURSTS c)
      setDma s c { d with flight := d.flight ++ [⟨k.srcSpace, k.dstSpace, k.dst + off, bs⟩], lastStart := some t }

/-- DMA_BURST: the engine issues one burst in its next slot, if that begins within the tick (R497); then the oldest bursts in flight of the channels `landed` land, in that
order, as their data arrives. -/
def execDmaBurst (landed : List Nat) (s : State) : Host.Outcome State Fault Refusal :=
  whileClocked s fun s =>
  let s := match dmaSlot s with
           | some t =>
             if reached s t then
               match dmaPick s t with
               | some c => dmaIssue s c t
               | none => s
             else s
           | none => s
  landed.foldl dmaLand s

/-- BUS_ERR: a read of the engine fails (R499). The bursts of `landed` had arrived and complete. -/
def execBusErr (kind space addr : Nat) (landed : List Nat) (s : State) : Host.Outcome State Fault Refusal :=
  whileClocked s fun s =>
  busErr (landed.foldl dmaLand s) kind space addr

/-- DMA_CHANNEL_SET (R514, R515): class L fields, effective at the next boundary, where the command completes. -/
def execDmaChannelSet (h : Issue) (channel priority rate : Nat) (s : State) : Host.Outcome State Fault Refusal :=
  whileClocked s fun s =>
  hostCmd s h (.dmaChannelSet h channel priority rate) 0x0903 48
    (fun _ => [(decide (channel < 32) && decide (priority < 4) && decide (rate < 256), .badParam)])
    (fun s => startRun (setLive (setLive s (DMA_CH_CFG channel) 1 0 priority) (DMA_CH_CFG channel) 15 8 rate) h 0x0903
      channel [])

/-- DMA_START (R514, R515). -/
def execDmaStart (h : Issue) (channel space addr : Nat) (s : State) : Host.Outcome State Fault Refusal :=
  whileClocked s fun s =>
  hostCmd s h (.dmaStart h channel space addr) 0x0904 48
    (fun s => [(decide (channel < 32) && decide (space < 3) && addr % 32 == 0 && !(space == 0 && h.ring == 15), .badParam),
               (!flag s DMA_STS 0, .wrongState), (dmaState s channel == 0, .busy)])
    (fun s =>
      let s := setFld (setFld s (DMA_CH_STS channel) 31 28 1) (DMA_CH_STS channel) 15 0 0
      let s := wr64 (wrN s (DMA_CH_REMAIN channel) 0) (DMA_CH_DONE_LO channel) (DMA_CH_DONE_HI channel) 0
      let s := wr64 s (DMA_CH_DESC_LO channel) (DMA_CH_DESC_HI channel) addr
      let s := setDma s channel { dmaCh s channel with space := space, ring15 := h.ring == 15, cur := none, pre := none
                                                       flight := [], finished := 0 }
      dmaShow (startRun s h 0x0904 channel []))

/-- DMA_STOP (R515): each named channel that runs stops after the bursts in progress. -/
def execDmaStop (h : Issue) (mask : Nat) (s : State) : Host.Outcome State Fault Refusal :=
  whileClocked s fun s =>
  hostCmd s h (.dmaStop h mask) 0x0905 48
    (fun _ => [(decide (0 < mask) && decide (mask < 2 ^ 32), .badParam)])
    (fun s =>
      let act := (bitList mask 32).filter (fun c => dmaState s c == 1)
      let s := startRun s h 0x0905 mask [mask, act.foldl natSet 0]
      let s := act.foldl (fun s c =>
        if (dmaCh s c).flight.isEmpty then dmaEnd s c 1 false .ok else setFld s (DMA_CH_STS c) 31 28 2) s
      dmaStops (dmaShow s))

/-- Whether channel `c` addresses DRAM channel `k` with its current descriptor or its chain (R501). -/
def dmaUses (s : State) (c k : Nat) : Bool :=
  dmaState s c != 0 &&
  (let d := dmaCh s c
   let hits (a n : Nat) : Bool :=
     if flag s DDR_STS 0 then true else chanOf s a == k || chanOf s (a + n - 1) == k
   let desc (x : DmaDesc) : Bool := (x.srcSpace == 1 && hits x.src x.len) || (x.dstSpace == 1 && hits x.dst x.len)
   (d.space == 1 && hits (rd64 s (DMA_CH_DESC_LO c) (DMA_CH_DESC_HI c)) 32) ||
   (match d.cur with
    | some x => desc x || (d.space == 1 && !x.last && hits x.next 32)
    | none => false) ||
   (match d.pre with
    | some (_, some x) => desc x
    | _ => false))

/-- A forced switch-off of DRAM channel `k` ends the channels that use it with ending 4 after the bursts in progress
(R501). -/
def dmaForceOff (s : State) (k : Nat) : State :=
  (List.range 32).foldl (fun s c =>
    if dmaUses s c k then
      let s := (dmaCh s c).flight.foldl (fun s _ => if dmaState s c = 0 then s else dmaLand s c) s
      if dmaState s c = 0 then s else dmaEnd s c 4 false .domainOff
    else s) s

end Sys2Proof.Machine
end

