-- ==== Sys2Proof/Machine/Inflate.lean ====
section
/-!
DEFINITION. Expansion of DEFLATE data and of its zlib and gzip framings (R170, R505) under an expansion limit (R506),
with the check codes of R171: 0x0004 framing header, 0x0005 DEFLATE data, 0x0006 check values, 0x0007 expansion,
0x0008 input exhausted or bytes after the end. PRESUMED: the formats are those of RFC 1950, 1951 and 1952, which the
spec names; a code set that is over-subscribed, or incomplete with more than one code, counts as invalid data
(assumption 5).
-/

namespace Sys2Proof.Machine

/-- A decoder at some point of its input: the bits still to be read, the output so far (last byte first) and the
limits that apply. `err` is 0 until a check fails. -/
structure Inf where
  bits : List Bool
  total : Nat
  out : List Byte
  n : Nat
  win : Nat
  ratio : Nat
  cap : Nat
  err : Nat
  deriving DecidableEq, Repr

/-- The bits of a byte, least significant first. -/
def byteBits (b : Byte) : List Bool := (List.range 8).map b.toNat.testBit

/-- The bytes consumed so far; a byte of which any bit has been read counts as consumed. -/
def Inf.used (d : Inf) : Nat := (d.total - d.bits.length + 7) / 8

/-- The decoder stopped with a check code; the first code stands. -/
def Inf.fail (d : Inf) (code : Nat) : Inf := if d.err = 0 then { d with err := code } else d

/-- One output byte, checked against the expansion limit (R506). -/
def Inf.emit (d : Inf) (b : Byte) : Inf :=
  let d' := { d with out := b :: d.out, n := d.n + 1 }
  if d'.n > d'.ratio * d'.used + 65536 || d'.n > d'.cap * 2 ^ 20 then d'.fail 7 else d'

/-- `k` bits, least significant first; input that runs out fails with 0x0008. -/
def Inf.take : Nat → Inf → Nat × Inf
  | 0, d => (0, d)
  | k + 1, d =>
    match d.bits with
    | [] => (0, d.fail 8)
    | b :: bs =>
      let (v, d') := Inf.take k { d with bits := bs }
      (b2n b + 2 * v, d')

/-- The bits up to the next byte boundary dropped. -/
def Inf.align (d : Inf) : Inf := { d with bits := d.bits.drop (d.bits.length % 8) }

/-- A canonical Huffman code: the number of codes of each length 0–15, and the symbols in code order. -/
structure Huff where
  counts : List Nat
  syms : List Nat
  deriving DecidableEq, Repr

/-- The code of a list of code lengths (RFC 1951, 3.2.2). -/
def huffOf (lens : List Nat) : Huff :=
  let ix := lens.zip (List.range lens.length)
  { counts := (List.range 16).map (fun l => (lens.filter (· == l)).length)
    syms := (List.range 15).flatMap (fun l => (ix.filter (fun p => p.1 == l + 1)).map (·.2)) }

/-- Codes left over at each length; negative once over-subscribed. -/
def huffLeft : List Nat → Int → Int
  | [], left => left
  | c :: cs, left => if left < 0 then left else huffLeft cs (2 * left - c)

/-- Whether a set of code lengths defines a usable code: complete, or a single code of one bit, or no code at all. -/
def huffOk (lens : List Nat) : Bool :=
  let h := huffOf lens
  let left := huffLeft (h.counts.drop 1) 1
  let used := lens.length - h.counts.getD 0 0
  left == 0 || (0 < left && (used == 0 || (used == 1 && h.counts.getD 1 0 == 1)))

/-- One symbol: `counts` are those of the lengths still to come. A code that no longer can become a defined one fails with 0x0005. -/
def huffSym (h : Huff) : List Nat → Nat → Nat → Nat → Inf → Nat × Inf
  | [], _, _, _, d => (0, d.fail 5)
  | c :: cs, code, first, index, d =>
    let (b, d1) := Inf.take 1 d
    let code := code + b
    if d1.err ≠ 0 then (0, d1)
    else if code < first + c then (h.syms.getD (index + (code - first)) 0, d1)
    else if cs.all (· == 0) then (0, d1.fail 5)
    else huffSym h cs (2 * code) (2 * (first + c)) (index + c) d1

/-- One symbol of code `h`. -/
def huffRead (h : Huff) (d : Inf) : Nat × Inf := huffSym h (h.counts.drop 1) 0 0 0 d

/-- Base lengths of length codes 257–285. -/
def lenBase : List Nat := [3, 4, 5, 6, 7, 8, 9, 10, 11, 13, 15, 17, 19, 23, 27, 31, 35, 43, 51, 59, 67, 83, 99, 115, 131, 163, 195, 227, 258]
/-- Extra bits of length codes 257–285. -/
def lenExtra : List Nat := [0, 0, 0, 0, 0, 0, 0, 0, 1, 1, 1, 1, 2, 2, 2, 2, 3, 3, 3, 3, 4, 4, 4, 4, 5, 5, 5, 5, 0]
/-- Base distances of distance codes 0–29. -/
def distBase : List Nat := [1, 2, 3, 4, 5, 7, 9, 13, 17, 25, 33, 49, 65, 97, 129, 193, 257, 385, 513, 769, 1025, 1537, 2049, 3073, 4097, 6145, 8193, 12289, 16385, 24577]
/-- Extra bits of distance codes 0–29. -/
def distExtra : List Nat := [0, 0, 0, 0, 1, 1, 2, 2, 3, 3, 4, 4, 5, 5, 6, 6, 7, 7, 8, 8, 9, 9, 10, 10, 11, 11, 12, 12, 13, 13]

/-- `k` bytes copied from `dist` back. -/
def infCopy : Nat → Nat → Inf → Inf
  | 0, _, d => d
  | k + 1, dist, d => if d.err ≠ 0 then d else infCopy k dist (d.emit (d.out.getD (dist - 1) 0))

/-- The symbols of a compressed block up to its end symbol. -/
def infSyms (ll dd : Huff) : Nat → Inf → Inf
  | 0, d => d.fail 8
  | fuel + 1, d =>
    if d.err ≠ 0 then d
    else
      let (s, d) := huffRead ll d
      if d.err ≠ 0 then d
      else if s < 256 then infSyms ll dd fuel (d.emit (BitVec.ofNat 8 s))
      else if s = 256 then d
      else if 285 < s then d.fail 5
      else
        let (e, d) := Inf.take (lenExtra.getD (s - 257) 0) d
        let len := lenBase.getD (s - 257) 0 + e
        let (t, d) := huffRead dd d
        if d.err ≠ 0 then d
        else if 29 < t then d.fail 5
        else
          let (e, d) := Inf.take (distExtra.getD t 0) d
          let dist := distBase.getD t 0 + e
          if d.err ≠ 0 then d
          else if d.n < dist || d.win < dist then d.fail 5
          else infSyms ll dd fuel (infCopy len dist d)

/-- The order of code-length code lengths. -/
def clOrder : List Nat := [16, 17, 18, 0, 8, 7, 9, 6, 10, 5, 11, 4, 12, 3, 13, 2, 14, 1, 15]

/-- `k` three-bit code lengths. -/
def clRead : Nat → Inf → List Nat × Inf
  | 0, d => ([], d)
  | k + 1, d =>
    let (v, d) := Inf.take 3 d
    let (vs, d) := clRead k d
    (v :: vs, d)

/-- The code lengths of a dynamic block, last first, until `want` of them are known. -/
def dynLens (cl : Huff) (want : Nat) : Nat → List Nat → Inf → List Nat × Inf
  | 0, acc, d => (acc, d.fail 5)
  | fuel + 1, acc, d =>
    if d.err ≠ 0 then (acc, d)
    else if want ≤ acc.length then (acc, if want < acc.length then d.fail 5 else d)
    else
      let (s, d) := huffRead cl d
      if d.err ≠ 0 then (acc, d)
      else if s < 16 then dynLens cl want fuel (s :: acc) d
      else if s = 16 then
        let (r, d) := Inf.take 2 d
        match acc with
        | [] => (acc, d.fail 5)
        | p :: _ => dynLens cl want fuel (List.replicate (3 + r) p ++ acc) d
      else if s = 17 then
        let (r, d) := Inf.take 3 d
        dynLens cl want fuel (List.replicate (3 + r) 0 ++ acc) d
      else
        let (r, d) := Inf.take 7 d
        dynLens cl want fuel (List.replicate (11 + r) 0 ++ acc) d

/-- The literal and length code of fixed blocks. -/
def fixedLL : List Nat := List.replicate 144 8 ++ List.replicate 112 9 ++ List.replicate 24 7 ++ List.replicate 8 8

/-- `k` literal bytes of a stored block. -/
def infStored : Nat → Inf → Inf
  | 0, d => d
  | k + 1, d =>
    if d.err ≠ 0 then d
    else
      let (v, d) := Inf.take 8 d
      if d.err ≠ 0 then d else infStored k (d.emit (BitVec.ofNat 8 v))

/-- One dynamic block. -/
def infDynamic (d : Inf) : Inf :=
  let (hlit, d) := Inf.take 5 d
  let (hdist, d) := Inf.take 5 d
  let (hclen, d) := Inf.take 4 d
  if d.err ≠ 0 then d
  else if 29 < hlit || 29 < hdist then d.fail 5
  else
    let (cl, d) := clRead (hclen + 4) d
    let pairs := clOrder.zip cl
    let lens := (List.range 19).map (fun i => ((pairs.find? (fun p => p.1 == i)).map (·.2)).getD 0)
    if d.err ≠ 0 then d
    else if huffLeft ((huffOf lens).counts.drop 1) 1 ≠ 0 then d.fail 5
    else
      let (ls, d) := dynLens (huffOf lens) (hlit + 257 + hdist + 1) 400 [] d
      if d.err ≠ 0 then d
      else
        let all := ls.reverse
        let ll := all.take (hlit + 257)
        let dd := all.drop (hlit + 257)
        if ll.getD 256 0 = 0 || !huffOk ll || !huffOk dd then d.fail 5
        else infSyms (huffOf ll) (huffOf dd) (d.bits.length + 1) d

/-- The blocks of a DEFLATE stream up to the final one. -/
def infBlocks : Nat → Inf → Inf
  | 0, d => d.fail 8
  | fuel + 1, d =>
    if d.err ≠ 0 then d
    else
      let (fin, d) := Inf.take 1 d
      let (ty, d) := Inf.take 2 d
      if d.err ≠ 0 then d
      else
        let d :=
          if ty = 0 then
            let d := d.align
            let (len, d) := Inf.take 16 d
            let (nlen, d) := Inf.take 16 d
            if d.err ≠ 0 then d
            else if len + nlen ≠ 65535 then d.fail 5
            else infStored len d
          else if ty = 1 then
            infSyms (huffOf fixedLL) (huffOf (List.replicate 30 5)) (d.bits.length + 1) d
          else if ty = 2 then infDynamic d
          else d.fail 5
        if d.err ≠ 0 || fin = 1 then d else infBlocks fuel d

/-- Bytes up to and including the next zero byte skipped. -/
def skipZ : Nat → Inf → Inf
  | 0, d => d.fail 8
  | fuel + 1, d =>
    let (v, d) := Inf.take 8 d
    if d.err ≠ 0 || v = 0 then d else skipZ fuel d

/-- `k` bytes read. -/
def takeBytes : Nat → Inf → List Nat × Inf
  | 0, d => ([], d)
  | k + 1, d =>
    let (v, d) := Inf.take 8 d
    let (vs, d) := takeBytes k d
    (v :: vs, d)

/-- What expansion gives: the output, the first failing check code (0 none), the input consumed, and whether the DEFLATE data came to
its end. -/
structure Expanded where
  out : List Byte
  err : Nat
  used : Nat
  body : Bool
  deriving DecidableEq, Repr

/-- The zlib header: CM 8, CINFO at most 7, FDICT clear, header check. -/
def zlibHeader (d : Inf) : Inf :=
  let (cmf, d) := Inf.take 8 d
  let (flg, d) := Inf.take 8 d
  if d.err ≠ 0 then d
  else if cmf % 16 ≠ 8 || 7 < cmf / 16 || (cmf * 256 + flg) % 31 ≠ 0 || flg.testBit 5 then d.fail 4
  else { d with win := 2 ^ (cmf / 16 + 8) }

/-- The gzip header; optional fields are skipped and the header CRC is checked when present. -/
def gzipHeader (src : List Byte) (d : Inf) : Inf :=
  let (h, d) := takeBytes 10 d
  if d.err ≠ 0 then d
  else
    let flg := h.getD 3 0
    if h.getD 0 0 ≠ 0x1F || h.getD 1 0 ≠ 0x8B || h.getD 2 0 ≠ 8 || 31 < flg then d.fail 4
    else
      let d :=
        if flg.testBit 2 then
          let (xl, d) := Inf.take 16 d
          (takeBytes xl d).2
        else d
      let d := if flg.testBit 3 then skipZ (d.bits.length / 8 + 1) d else d
      let d := if flg.testBit 4 then skipZ (d.bits.length / 8 + 1) d else d
      if flg.testBit 1 then
        let c := crc32 (src.take d.used) % 65536
        let (v, d) := Inf.take 16 d
        if d.err ≠ 0 then d else if v ≠ c then d.fail 6 else d
      else d

/-- The trailer of the framing checked against the output. -/
def trailer (framing : Nat) (d : Inf) : Inf :=
  if d.err ≠ 0 then d
  else
    let d := d.align
    let o := d.out.reverse
    if framing = 1 then
      let (t, d) := takeBytes 4 d
      if d.err ≠ 0 then d
      else if t.foldl (fun a b => a * 256 + b) 0 ≠ adler32 o then d.fail 6 else d
    else if framing = 2 then
      let (c, d) := Inf.take 32 d
      let (l, d) := Inf.take 32 d
      if d.err ≠ 0 then d
      else if c ≠ crc32 o || l ≠ o.length % 2 ^ 32 then d.fail 6 else d
    else d

/-- One framed stream expanded: FRAMING 0 raw, 1 zlib, 2 gzip; `strict` makes bytes after the end a failure (R170),
which a general job allows (R505). -/
def expand (framing ratio cap : Nat) (strict : Bool) (src : List Byte) : Expanded :=
  let bits := src.flatMap byteBits
  let d : Inf := ⟨bits, bits.length, [], 0, 32768, ratio, cap, 0⟩
  let d := if framing = 1 then zlibHeader d else if framing = 2 then gzipHeader src d else d
  let d := if d.err ≠ 0 then d else infBlocks (d.bits.length + 1) d
  let body := d.err == 0
  let d := trailer framing d
  let d := if d.err = 0 && strict && d.used < src.length then d.fail 8 else d
  ⟨d.out.reverse, d.err, d.used, body⟩

end Sys2Proof.Machine
end

