-- ==== Sys2Proof/Machine/Codec.lean ====
section
/-!
DEFINITION. The general codecs (R503 to R510) and the recording stream (R511 to R513).
-/

namespace Sys2Proof.Machine

/-! ### Jobs -/

/-- State of codec `g` (R517): 0 IDLE, 1 COMPRESS, 2 DECOMPRESS, 3 SUSPENDED, 4 RECORDING. -/
def codecSt (s : State) (g : Nat) : Nat := fld s CMP_STS (3 + 4 * g) (4 * g)

/-- `s` with the state of codec `g` set. -/
def setCodecSt (s : State) (g v : Nat) : State := setFld s CMP_STS (3 + 4 * g) (4 * g) v

/-- The job a codec holds. -/
def jobOf (s : State) (g : Nat) : Option Job := mget none (s.jobs.map (fun p => (p.1, some p.2))) g

/-- Codec `g` takes its die-ledger grant (R102, R507). -/
def codecTake (s : State) (g : Nat) : State := setFlag (dieTake s 3 g) CMP_STS (8 + g) true

/-- Codec `g` releases its die-ledger grant. -/
def codecRelease (s : State) (g : Nat) : State := setFlag (dieRelease s 3 g) CMP_STS (8 + g) false

/-- The running command of codec `g` completes: a job, or the CODEC_RESUME that continues one (R508). -/
def finishJob (s : State) (g : Nat) (st : Status) (r0 r1 r2 ex : Nat) : State :=
  finishRun (finishRun (finishRun s 0x0906 g st r0 r1 r2 ex) 0x0907 g st r0 r1 r2 ex) 0x0909 g st r0 r1 r2 ex

/-- The header of a format at a level (R504). -/
def frameHead (format level : Nat) : List Byte :=
  match format with
  | 1 => let f := level * 64
         leBytes 1 0x78 ++ leBytes 1 (f + (31 - (0x7800 + f) % 31) % 31)
  | 2 => [0x1F, 0x8B, 0x08, 0, 0, 0, 0, 0, 0, 0xFF]
  | _ => []

/-- The trailer of a format over the data (R504). -/
def frameTail (format : Nat) (data : List Byte) : List Byte :=
  match format with
  | 1 => (leBytes 4 (adler32 data)).reverse
  | 2 => leBytes 4 (crc32 data) ++ leBytes 4 data.length
  | _ => []

/-- The input of a job; none where DRAM does not serve it. -/
def jobInput (s : State) (j : Job) : Option (List Byte) := spaceRead s j.inSpace j.inAddr j.inLen

/-- The part of an output that falls in the job's present output space is written there. -/
def jobOut (s : State) (j : Job) (o : List Byte) : State :=
  spaceWrite s j.outSpace j.outAddr ((o.drop j.written).take j.outLen)

/-- `CMP_Gg` registers show a job's progress and the end of one (R517). -/
def codecShow (s : State) (g used made : Nat) (st : Status) (check : Nat) : State :=
  let s := wr64 (wr64 s (CMP_G_IN_LO g) (CMP_G_IN_HI g) used) (CMP_G_OUT_LO g) (CMP_G_OUT_HI g) made
  setFld (setFld s (CMP_G_STS g) 31 24 st.code) (CMP_G_STS g) 15 0 check

/-- A job ends: the codec returns to IDLE, or is SUSPENDED with OUTPUT_FULL, and the grant is released (R507, R508). -/
def jobEnd (s : State) (g : Nat) (st : Status) (used made crc check : Nat) : State :=
  let full := st == .outputFull
  let s := setCodecSt (codecRelease (codecShow s g used made st check) g) g (if full then 3 else 0)
  let s := if full then
      match jobOf s g with
      | some j => { s with jobs := mset s.jobs g { j with written := made } }
      | none => s
    else { s with jobs := mdel s.jobs g }
  finishJob s g st used made crc check

/-- The whole output of a compress job. -/
def compAll (j : Job) (data : List Byte) : List Byte :=
  frameHead j.format j.level ++ j.segs ++ Config.deflated j.level data j.flushes true ++ frameTail j.format data

/-- The job of codec `g` runs to its end or to the end of its output space (R504 to R508). How much input a job has
consumed when its output space runs out is not stated: a free value within the input (assumption 13). -/
def jobRun (s : State) (g : Nat) (j : Job) (data : List Byte) : State :=
  let room := j.written + j.outLen
  if j.comp then
    let o := compAll j data
    let s := jobOut s j o
    if room < o.length then
      let used := Config.freeNat s.freeCtr % (j.inLen + 1)
      jobEnd (tick1 s) g .outputFull used room (crc32 (data.take used)) 0
    else jobEnd s g .ok j.inLen o.length (crc32 data) 0
  else
    let lim := fun (a b : Nat) => if a = 0 then b else a
    let e := expand j.format (lim j.ratio (fld s CMP_LIMIT 7 0)) (lim j.cap (fld s CMP_LIMIT 31 16)) false data
    let s := jobOut s j e.out
    if room < e.out.length then
      let used := Config.freeNat s.freeCtr % (j.inLen + 1)
      jobEnd (tick1 s) g .outputFull used room (crc32 (e.out.take room)) 0
    else
      let st := if e.err = 0 then Status.ok else if e.err = 6 then .dataCrc else if e.err = 7 then .expansionLimit else .badParam
      jobEnd s g st e.used e.out.length (crc32 e.out) e.err

/-- The job of codec `g` breaks off with a status (R510). How far it has come is not stated: free values within its input
and output (assumption 13). -/
def jobBreak (s : State) (g : Nat) (st : Status) : State :=
  match jobOf s g with
  | none => s
  | some j =>
    let c := s.freeCtr
    let u := Config.freeNat c % (j.inLen + 1)
    let m := j.written + Config.freeNat (c + 1) % (j.outLen + 1)
    jobEnd (tick1 (tick1 s)) g st u m (Config.freeWord c).toNat 0

/-- Codec `g` works on a job, and not on one that is SUSPENDED. -/
def codecRuns (s : State) (g : Nat) : Bool := codecSt s g == 1 || codecSt s g == 2

/-- CODEC_JOB_END: the job of codec `g` ends (R508, R510). Cause 0: it has run to its end or filled its output space;
1: uncorrectable codec working memory; 2: uncorrectable DRAM input or a failed host read, after `used` bytes of input; what
a compression has written by then is a prefix of free length. A job that needs host memory waits while requests are held
(R121). -/
def execCodecJobEnd (g cause used : Nat) (s : State) : Host.Outcome State Fault Refusal :=
  whileClocked s fun s =>
  match jobOf s g with
    | none => s
    | some j =>
      if !codecRuns s g then s
      else if (j.inSpace = 0 || j.outSpace = 0) && !canRequest s then s
      else
        match jobInput s j with
        | none => jobBreak s g .dmaError
        | some data =>
          if cause = 0 then jobRun s g j data
          else
            let d := data.take used
            let made := if j.comp then (compAll j data).take (j.written + Config.freeNat s.freeCtr % (j.outLen + 1))
                        else (expand j.format 255 65535 false d).out
            let s := jobOut (tick1 s) j made
            jobEnd s g (if cause = 1 then .dataCrc else .dmaError) d.length made.length
              (crc32 (if j.comp then d else made)) 0

/-- Order 5 of COMPRESS_JOB and DECOMPRESS_JOB (R514, R515). -/
def jobParams (h : Issue) (j : Job) : Bool :=
  decide (j.format < 3) && decide (j.level < 4) && decide (j.rate < 2) && decide (j.inSpace < 2) &&
  decide (j.outSpace < 2) && decide (1 ≤ j.inLen) && decide (1 ≤ j.outLen) &&
  (j.ratio == 0 || (decide (2 ≤ j.ratio) && decide (j.ratio < 256))) &&
  !(h.ring == 15 && (j.inSpace == 0 || j.outSpace == 0))

/-- A job starts (R507, R515). -/
def jobStart (h : Issue) (c : Instr) (op g : Nat) (j : Job) (s : State) : State :=
  hostCmd s h c op 48
    (fun s => [(decide (g < 2) && jobParams h j, .badParam), (domOn s 10, .domainOff),
               (j.rate == 1 || dieGrants s 3, .noGrant), (codecSt s g == 0, .busy),
               ((j.inSpace == 0 || dramOk s j.inAddr j.inLen) && (j.outSpace == 0 || dramOk s j.outAddr j.outLen),
                .cfgRejected)])
    (fun s =>
      let s := if j.rate = 0 then codecTake s g else s
      let s := codecShow s g 0 0 .ok 0
      startRun (setCodecSt { s with jobs := mset s.jobs g j } g (if j.comp then 1 else 2)) h op g [])

/-- COMPRESS_JOB (R504, R514, R515). -/
def execCompressJob (h : Issue) (codec format level rate inSpace outSpace inAddr outAddr inLen outLen : Nat) (s : State) :
    Host.Outcome State Fault Refusal :=
  whileClocked s fun s =>
  jobStart h (.compressJob h codec format level rate inSpace outSpace inAddr outAddr inLen outLen) 0x0906 codec
    ⟨true, format, level, rate, inSpace, outSpace, inAddr, outAddr, inLen, outLen, 0, 0, [], [], 0⟩ s

/-- DECOMPRESS_JOB (R505, R514, R515). -/
def execDecompressJob (h : Issue) (codec format rate inSpace outSpace inAddr outAddr inLen outLen ratio cap : Nat)
    (s : State) : Host.Outcome State Fault Refusal :=
  whileClocked s fun s =>
  jobStart h (.decompressJob h codec format rate inSpace outSpace inAddr outAddr inLen outLen ratio cap) 0x0907 codec
    ⟨false, format, 0, rate, inSpace, outSpace, inAddr, outAddr, inLen, outLen, ratio, cap, [], [], 0⟩ s

/-- CODEC_RESUME (R508, R514, R515); OP 0 checks its output range as a job does (assumption 13). -/
def execCodecResume (h : Issue) (codec op rate outSpace outAddr outLen : Nat) (s : State) :
    Host.Outcome State Fault Refusal :=
  whileClocked s fun s =>
  hostCmd s h (.codecResume h codec op rate outSpace outAddr outLen) 0x0909 48
    (fun s => [(decide (codec < 2) && decide (op < 2) && decide (rate < 2) && decide (outSpace < 2) &&
                (if op = 0 then decide (1 ≤ outLen) && !(outSpace == 0 && h.ring == 15)
                 else outAddr == 0 && outLen == 0), .badParam),
               (domOn s 10, .domainOff), (codecSt s codec == 3, .wrongState),
               (op == 1 || rate == 1 || dieGrants s 3, .noGrant),
               (op == 1 || outSpace == 0 || dramOk s outAddr outLen, .cfgRejected)])
    (fun s =>
      match jobOf s codec with
      | none => s
      | some j =>
        if op = 1 then
          let s := setCodecSt { s with jobs := mdel s.jobs codec } codec 0
          complete s h 0x0909 .ok (rdN s (CMP_G_IN_LO codec)) (rdN s (CMP_G_OUT_LO codec)) 0 0
        else
          let s := if rate = 0 then codecTake s codec else s
          let j := { j with rate := rate, outSpace := outSpace, outAddr := outAddr, outLen := outLen }
          startRun (setCodecSt { s with jobs := mset s.jobs codec j } codec (if j.comp then 1 else 2)) h 0x0909 codec [])

/-! ### The recording stream -/

/-- Ring size and base of the recording stream (R511, R517). -/
def recSize (s : State) : Nat := 2 ^ fld s CMP_REC_SIZE 5 0
def recBase (s : State) : Nat := rd64 s CMP_REC_BASE_LO CMP_REC_BASE_HI

/-- Recording is enabled, and in FORMAT 1 (R511). -/
def recEn (s : State) : Bool := flag s CMP_REC_CFG 31
def recDeflate (s : State) : Bool := recEn s && flag s CMP_REC_CFG 30

/-- Stream offset up to which data is complete. -/
def recWrite (s : State) : Nat := rd64 s CMP_REC_WRITE_LO CMP_REC_WRITE_HI

/-- The read offset in force: the host's, or with TX_EN the offset that the fabric transmitter has sent (R513). -/
def recRead (s : State) : Nat := if flag s FAB_BULK_CFG 31 then s.recording.sent else s.recording.readOff

/-- Bytes written to the ring at a stream offset, which wraps (R511). -/
def ringPut (s : State) (off : Nat) (bs : List Byte) : State :=
  let n := recSize s
  let o := off % n
  let k := n - o
  putDram (putDram s (recBase s + o) (bs.take k)) (recBase s) (bs.drop k)

/-- Recording data complete and not yet sent leaves for the collector as BULK_REC frames while the port takes them (R441,
R513). -/
def bulkTx (s : State) : Nat → State
  | 0 => s
  | fuel + 1 =>
    let o := s.recording.sent
    if !flag s FAB_BULK_CFG 31 || decide (recWrite s ≤ o) then s
    else
      let k := satN 1998 (recWrite s - o)
      let n := recSize s
      let x := o % n
      let bs := (dramBytes s (recBase s + x) (satN k (n - x))) ++ dramBytes s (recBase s) (k - (n - x))
      let f : Frame := ⟨clBulk, 0x30, fld s FAB_BULK_CFG 28 24, ownAddr s, 31, none, o :: k :: bs.map (·.toNat)⟩
      match outPort s f with
      | none => s
      | some p =>
        if canSend s p f && !s.fab.out.any (fun g => g.cls == clBulk && outPort s g == some p) then
          let s := sendOn s p f
          bulkTx { s with recording := { s.recording with sent := o + k } } fuel
        else s

/-- Whole data moved to the ring when it fits before the read offset; else it waits (R511, R513). -/
def recPush (s : State) : State :=
  let o := s.recording.out
  if recWrite s + o.length ≤ recRead s + recSize s then
    let s := ringPut s (recWrite s) o
    let s := wr64 { s with recording := { s.recording with out := [] } } CMP_REC_WRITE_LO CMP_REC_WRITE_HI
      (recWrite s + o.length)
    bulkTx s ((recWrite s - s.recording.sent) / 1998 + 1)
  else s

/-- Room for `k` more record bytes: the staging buffer of 64 KiB, and the ring up to its read offset (R513). -/
def recRoom (s : State) (k : Nat) : Bool :=
  decide (s.recording.staged.length + k ≤ 65536) &&
  decide (recWrite s + s.recording.out.length + (if recDeflate s then 0 else s.recording.staged.length + k)
    ≤ recRead s + recSize s)

/-- A kind-3 record (R512). -/
def lostRec (s : State) : List Byte := leBytes 2 (tickNo s) ++ [0x60, 0] ++ leBytes 4 s.recording.lost ++ zeros 8

/-- A record offered to the staging buffer: dropped and counted without room, and preceded by a kind-3 record when records
were dropped before it (R513). -/
def recPut (s : State) (r : List Byte) : State :=
  let pre := if s.recording.lost = 0 then [] else lostRec s
  if s.recording.on && recRoom s (pre.length + 16) then
    { s with recording := { s.recording with staged := s.recording.staged ++ pre ++ r, lost := 0 } }
  else satInc { s with recording := { s.recording with lost := s.recording.lost + 1 } } CMP_REC_DROPPED

/-- Staged bytes leave: to the ring in FORMAT 0, and in FORMAT 1 into codec 1 at its rate over a tick (R507, R513). -/
def recDrain (s : State) : State :=
  let r := s.recording
  if !recEn s || !r.on then s
  else if !recDeflate s then recPush { s with recording := { r with staged := [], out := r.staged } }
  else if !r.stream || !r.out.isEmpty then recPush s
  else
    let thr := fld s THM_STS 5 4
    let n := 2 * tickNs s / (if dieHolds s 3 1 then 1 else 4) / (if thr = 0 then 1 else if thr = 1 then 2 else 4)
    { s with recording := { r with staged := r.staged.drop n, input := r.input ++ r.staged.take n } }

/-- Codec 1 ends a segment of the DEFLATE stream: a flush, or the end of the stream (R509, R511). -/
def recSegment (s : State) (final : Bool) : State :=
  let r := s.recording
  let d := Config.deflated 1 r.input r.flushes final
  recPush { s with recording := { r with out := r.out ++ d, flushes := r.flushes ++ [r.input.length] } }

/-- RECORDING_FLUSH: every FLUSH_US codec 1 flushes the DEFLATE recording stream (R511): that long after its beginning or its
last flush. -/
def execRecordingFlush (s : State) : Host.Outcome State Fault Refusal :=
  whileClocked s fun s =>
  if recDeflate s && s.recording.stream && reached s (s.recording.flushAt + fld s CMP_REC_FLUSH 15 0 * 1000) then
    recSegment { s with recording := { s.recording with flushAt := now s } } false
  else s

/-- LAYER_ARM begins a DEFLATE stream and asks for codec 1's grant (R511); a stream that a switch-off stopped begins again
once CODEC is on (R513). -/
def recArm (s : State) : State :=
  if recDeflate s && domOn s 10 then
    let s := if dieHolds s 3 1 then s else if dieGrants s 3 then codecTake s 1 else dieRefuse s
    setCodecSt { s with recording := { s.recording with on := true, stream := true, input := [], flushes := [], flushAt := now s } } 1 4
  else s

/-- DONE or ABORTED ends the DEFLATE stream with a final block (R511). -/
def recEnd (s : State) : State :=
  if recDeflate s && s.recording.stream then
    let r := s.recording
    let s := recSegment { s with recording := { r with staged := [], input := r.input ++ r.staged } } true
    codecRelease { s with recording := { s.recording with stream := false } } 1
  else s

/-- A commit that changes EN: recording starts at offset 0, or stops (R511). -/
def recCommit (s : State) (was : Bool) : State :=
  if recEn s && !was then
    let s := wr64 s CMP_REC_WRITE_LO CMP_REC_WRITE_HI 0
    let s := { s with recording := { Rec.reset with on := true } }
    if recDeflate s then setCodecSt s 1 4 else s
  else if was && !recEn s then
    let s := { s with recording := Rec.reset }
    if codecSt s 1 = 4 then setCodecSt (codecRelease s 1) 1 0 else s
  else s

/-- A write of `CMP_REC_READ_HI` sets the read offset, with the LO word written before it (R513, R517). -/
def recReadHi (s : State) (hi : Nat) : State :=
  let s := wrN s CMP_REC_READ_HI hi
  recPush { s with recording := { s.recording with readOff := rd64 s CMP_REC_READ_LO CMP_REC_READ_HI } }

/-- CMP_REC_READ_HI (R513). -/
def execCmpRecReadHi (hi : Nat) (s : State) : Host.Outcome State Fault Refusal :=
  whileClocked s fun s =>
  if !domOn s 10 then setFlag s PWR_STS 31 true else recReadHi s hi

/-- CODEC_FLUSH (R509): `used` is the input that the codec has consumed when it takes effect. On codec 1 while it records,
the recording stream is flushed; with no room for the marker the job stops with OUTPUT_FULL and the flush completes with
WRONG_STATE (R510). -/
def execCodecFlush (h : Issue) (codec used : Nat) (s : State) : Host.Outcome State Fault Refusal :=
  whileClocked s fun s =>
  hostCmd s h (.codecFlush h codec used) 0x0908 48
    (fun s => [(decide (codec < 2), .badParam), (domOn s 10, .domainOff),
               (codecSt s codec == 1 || (codecSt s codec == 4 && s.recording.stream), .wrongState)])
    (fun s =>
      if codecSt s codec = 4 then
        let s := recSegment s false
        complete s h 0x0908 .ok s.recording.input.length (recWrite s + s.recording.out.length) 0 0
      else
        match jobOf s codec with
        | none => s
        | some j =>
          match jobInput s j with
          | none => fail s h 0x0908 .wrongState
          | some data =>
            let lo := j.flushes.foldl (fun a b => if a < b then b else a) 0
            let k := if used < lo then lo else satN j.inLen used
            let segs := j.segs ++ Config.deflated j.level (data.take k) j.flushes false
            let o := frameHead j.format j.level ++ segs
            let s := jobOut s j o
            if j.written + j.outLen < o.length then
              let u := Config.freeNat s.freeCtr % (j.inLen + 1)
              fail (jobEnd (tick1 s) codec .outputFull u (j.written + j.outLen) (crc32 (data.take u)) 0) h 0x0908 .wrongState
            else
              let s := { s with jobs := mset s.jobs codec { j with segs := segs, flushes := j.flushes ++ [k] } }
              let s := codecShow s codec k o.length .ok 0
              complete s h 0x0908 .ok k o.length 0 0)

/-- A forced switch-off of CODEC: running and suspended jobs end with DOMAIN_OFF, and DEFLATE recording stops (R510, R513).
How far a running job has come is a free value within its input and output (assumption 13). -/
def codecOff (s : State) : State :=
  let s := (List.range 2).foldl (fun s g => jobBreak s g .domainOff) s
  if codecSt s 1 = 4 then
    codecRelease { s with recording := { s.recording with on := false, stream := false, staged := [], input := [], out := [] } } 1
  else s

/-! ### COMMIT of group DMA (R518) -/

/-- Two ranges have no byte in common. -/
def apart (a k b m : Nat) : Bool := decide (a + k ≤ b) || decide (b + m ≤ a)

/-- The checks of group DMA. Where the ring lies matters only while EN is set (assumption 25). -/
def dmaChecks (s n : State) : List (Nat × Bool) :=
  let changed (a : Nat) : Bool := rd s a != rd n a
  let size := recSize n
  let slice := 32 * 2 ^ fld n FAB_BULK_CFG 4 0
  [(0x0E01, decide (2 ≤ fld n CMP_LIMIT 7 0) && decide (1 ≤ fld n CMP_LIMIT 31 16)),
   (0x0E02, decide (20 ≤ fld n CMP_REC_SIZE 5 0) && decide (fld n CMP_REC_SIZE 5 0 ≤ 34) &&
     (!recEn n ||
       (dramOk s (recBase n) size &&
        (s.seq.job.isNone || apart (recBase n) size s.seq.devBase s.seq.devLen) &&
        (!flag n FAB_BULK_CFG 30 || apart (recBase n) size (rd64 n FAB_BULK_BASE_LO FAB_BULK_BASE_HI) slice)))),
   (0x0E03, decide (10 ≤ fld n CMP_REC_FLUSH 15 0)),
   (0x0E04, !(recEn n && inLayer s) ||
     (!changed CMP_REC_BASE_LO && !changed CMP_REC_BASE_HI && !changed CMP_REC_SIZE &&
      flag s CMP_REC_CFG 30 == flag n CMP_REC_CFG 30)),
   (0x0E05, !recDeflate n || codecSt s 1 == 0 || codecSt s 1 == 4)]

end Sys2Proof.Machine
end

