-- ==== Sys2Proof/Machine/Time.lean ====
section
/-!
DEFINITION. Fabric time and the trigger outputs (R453 to R470).
-/

namespace Sys2Proof.Machine

/-! ### The counter and the error estimate -/

/-- Servo states of R469. -/
def tFree : Nat := 0
def tAcquiring : Nat := 1
def tLocked : Nat := 2
def tHoldover : Nat := 3

/-- `FTM_STS.STATE`. -/
def ftmSt (s : State) : Nat := fld s FTM_STS 1 0

/-- The device's serial (R118). -/
def ownSerial (s : State) : Nat := s.fuses.serial

/-- The counter in 2^−32 ns (R453). -/
def counter32 (s : State) : Nat := now s * 2 ^ 32 + rdN s FTM_FRAC

/-- The counter set, in 2^−32 ns; it is 96 bits wide. -/
def setCounter32 (s : State) (c : Int) : State :=
  let n := unsgn 96 c
  wrN (wr64 s FTM_TIME_LO FTM_TIME_HI (n / 2 ^ 32)) FTM_FRAC n

/-- INCR, in 2^−32 ns. -/
def setIncr (s : State) (i : Int) : State :=
  setFld (wrI s FTM_INCR_LO i) FTM_INCR_HI 3 0 (unsgn 36 i / 2 ^ 32)

/-- 2^−16 ns to ns, rounded up. -/
def up16 (n : Nat) : Nat := cdiv n 65536

/-- The largest of a list. -/
def maxN (l : List Nat) : Nat := l.foldl (fun m x => if m < x then x else m) 0

/-- The error estimate E in ns, rounded up (R463). -/
def errEst (s : State) : Nat :=
  let st := ftmSt s
  let f := s.ftm
  if st = tFree then 0
  else if st = tAcquiring then up16 ((f.upE + 4) * 65536 + f.offsets.headD 0)
  else if st = tLocked then up16 ((f.upE + 4) * 65536 + maxN (f.offsets.take (fld s FTM_LOCK 15 8)))
  else f.entryE + cdiv (fld s FTM_HOLD 15 0 * (now s - f.entryAt)) (10 ^ 9)

/-- `FTM_ERR` and EXCESS follow E (R463). When E comes to exceed HOLDOVER_LIMIT the device reports its excess: the
cross-device features are withdrawn from the next boundary and the group is told (R292). -/
def ftmShow (s : State) : State :=
  let e := errEst s
  let was := flag s FTM_STS 15
  let exceeds := decide (fld s FTM_HOLD 31 16 < e)
  let s := setFlag (wrN s FTM_ERR (satN (2 ^ 32 - 1) e)) FTM_STS 15 exceeds
  let mask := if exceeds then natSet s.ovl.excess (ownAddr s) else natClr s.ovl.excess (ownAddr s)
  let s := { s with ovl := { s.ovl with excess := mask } }
  if exceeds && !was then noticeGroup s 4 (now s) 0 else s

/-! ### TIME frames -/

/-- Message types of IEEE 1588-2019. -/
def mSync : Nat := 0x0
def mPdelayReq : Nat := 0x2
def mPdelayResp : Nat := 0x3
def mAnnounce : Nat := 0xB

/-- A TIME frame leaves an UP port when the class holds its credits (R417, R421); one that cannot is replaced by the next
message of its exchange (R418). -/
def timeOut (s : State) (p ty credits : Nat) (body : List Nat) : State :=
  if portUp s p && decide (mget 0 (fport s p).used 0 + credits ≤ 64) then
    updPort (wireOut s p none ⟨clTime, ty, fld s (FAB_P_STS p) 28 24, ownAddr s, 0, none, body⟩) p
      (fun q => { q with used := mset q.used 0 (mget 0 q.used 0 + credits) })
  else s

/-- A TIME frame accepted on port `p` (R449); its buffer space is to be returned (R421). -/
def timeIn (s : State) (p credits : Nat) : State :=
  updPort (satInc s (FAB_P_RX_FRAMES p)) p (fun q => { q with owed := mset q.owed 0 (mget 0 q.owed 0 + credits) })

/-- The port carries time and the message is of the device's domain (R456, R460). -/
def timeOk (s : State) (p domain : Nat) : Bool := portUp s p && domain == fld s FTM_CFG 23 16

/-- Time on port `p`. -/
def tport (s : State) (p : Nat) : FtmPort := mget FtmPort.reset s.ftm.ports p

/-- `s` with `f` applied to time on port `p`. -/
def updTport (s : State) (p : Nat) (f : FtmPort → FtmPort) : State :=
  { s with ftm := { s.ftm with ports := mset s.ftm.ports p (f (tport s p)) } }

/-! ### Grandmaster and slave port (R459 to R461) -/

/-- The Announce, Sync and Pdelay_Req intervals in ns (R456, R458, R460). -/
def annNs (s : State) : Nat := 10 ^ 9 / 2 ^ fld s FTM_CFG 11 8
def syncNs (s : State) : Nat := 10 ^ 9 / 2 ^ fld s FTM_CFG 7 4
def pdelayNs (s : State) : Nat := 10 ^ 9 / 2 ^ fld s FTM_CFG 3 0

/-- Length of 3 Announce intervals in ns. -/
def ann3 (s : State) : Nat := 3 * 10 ^ 9 / 2 ^ fld s FTM_CFG 11 8

/-- The periodic message of a type is due on port `p`: none was sent before, or its interval has passed. -/
def timeDue (s : State) (p ty ns : Nat) : Bool :=
  match (tport s p).sentAt.find? (fun e => e.1 == ty) with
  | some e => reached s (e.2 + ns)
  | none => true

/-- The periodic message of a type is sent on port `p` now. -/
def timeSent (s : State) (p ty : Nat) : State := updTport s p (fun t => { t with sentAt := mset t.sentAt ty (now s) })

/-- The Announce of port `p` that counts in selection (R459). -/
def annCounts (s : State) (p : Nat) : Option AnnIn :=
  match (tport s p).ann with
  | none => none
  | some a =>
    if portUp s p && decide (now s ≤ a.at_ + ann3 s) && decide (a.steps < 31) && !s.ftm.holdDown.any (fun h => h.1 == a.serial) then
      some a
    else none

/-- The best grandmaster, as priority and serial: the device itself or an announced one (R459). -/
def bestGm (s : State) : Nat × Nat :=
  ports4.foldl (fun b p =>
    match annCounts s p with
    | none => b
    | some a => if decide (a.prio < b.1) || (a.prio == b.1 && decide (a.serial < b.2)) then (a.prio, a.serial) else b)
    (fld s FTM_CFG 31 24, ownSerial s)

/-- The slave port for a grandmaster: the port that announced it with the fewest stepsRemoved, the lower on a tie, among
those with a valid delay (R458, R460). -/
def slaveFor (s : State) (gm : Nat) : Option (Nat × Nat) :=
  ports4.foldl (fun b p =>
    match annCounts s p with
    | none => b
    | some a =>
      if a.serial ≠ gm || !flag s (FTM_P_STS p) 2 then b
      else
        match b with
        | none => some (p, a.steps)
        | some (_, k) => if a.steps < k then some (p, a.steps) else b) none

/-- ROLE of every port (R460, R469). -/
def rolesShow (s : State) : State :=
  ports4.foldl (fun s p =>
    setFld s (FTM_P_STS p) 1 0 (if !portUp s p then 0 else if s.ftm.slave == some p then 2 else 1)) s

/-- An Announce leaves port `p` (R456, R460): grandmaster priority and serial, and stepsRemoved. -/
def sendAnnounce (s : State) (p : Nat) : State :=
  let prio := match s.ftm.slave with
              | some q => match (tport s q).ann with
                          | some a => a.prio
                          | none => fld s FTM_CFG 31 24
              | none => fld s FTM_CFG 31 24
  if s.ftm.slave == some p then s
  else timeOut s p mAnnounce 2 [prio, rd64 s FTM_GM_SERIAL_LO FTM_GM_SERIAL_HI, fld s FTM_STS 28 24]

/-- Selection (R459, R460) and the servo's transition (R461). A better grandmaster that takes the place of one not lost comes with a
joined fabric: its first Sync steps the time (R464). A device in HOLDOVER that is the best itself stays there until
the hold-down ends, which `expired` says. -/
def ftmSelect (s : State) (expired : Bool) : State :=
  let (_, gm) := bestGm s
  let st := ftmSt s
  let oldGm := rd64 s FTM_GM_SERIAL_LO FTM_GM_SERIAL_HI
  if gm = ownSerial s then
    if st = tHoldover && !expired then rolesShow s
    else
      let s := { s with ftm := { s.ftm with slave := none, offsets := [], run := 0, joined := false } }
      let s := setIncr (setFlag (setFld (setFld s FTM_STS 28 24 0) FTM_STS 1 0 tFree) FTM_STS 14 true) (2 ^ 33)
      let s := rolesShow (wr64 s FTM_GM_SERIAL_LO FTM_GM_SERIAL_HI gm)
      ftmShow (if oldGm ≠ gm then ports4.foldl sendAnnounce s else s)
  else
    let sl := slaveFor s gm
    let fresh := st == tFree || st == tHoldover || oldGm != gm
    let joined := s.ftm.joined || (oldGm != gm && st != tHoldover)
    let s := { s with ftm := { s.ftm with slave := sl.map (·.1), integ := if st = tFree then 0 else s.ftm.integ
                                          offsets := if fresh then [] else s.ftm.offsets
                                          run := if fresh then 0 else s.ftm.run, joined := joined
                                          syncAt := if s.ftm.slave == sl.map (·.1) then s.ftm.syncAt else now s } }
    let s := setFlag (if fresh then setFld s FTM_STS 1 0 tAcquiring else s) FTM_STS 14 false
    let s := match sl with
             | some (p, k) => setFld (setFld s FTM_STS 9 8 p) FTM_STS 28 24 (k + 1)
             | none => s
    let s := rolesShow (wr64 s FTM_GM_SERIAL_LO FTM_GM_SERIAL_HI gm)
    ftmShow (if oldGm ≠ gm then ports4.foldl sendAnnounce s else s)

/-- HOLDOVER from ACQUIRING or LOCKED (R461): INCR stays, the lost grandmaster is held down, and E runs from its value at
entry (R463). -/
def enterHoldover (s : State) : State :=
  if ftmSt s ≠ tAcquiring && ftmSt s ≠ tLocked then s
  else
    let e := errEst s
    let gm := rd64 s FTM_GM_SERIAL_LO FTM_GM_SERIAL_HI
    let s := { s with ftm := { s.ftm with slave := none, offsets := [], run := 0, entryE := e, entryAt := now s
                                          holdDown := mset s.ftm.holdDown gm (now s + ann3 s) } }
    ftmSelect (ftmShow (setFld s FTM_STS 1 0 tHoldover)) false

/-- Port `p` comes UP: its delay is measured anew (R458). -/
def ftmPortUp (s : State) (p : Nat) : State :=
  rolesShow (setFlag (updTport s p (fun _ => FtmPort.reset)) (FTM_P_STS p) 2 false)

/-- Port `p` leaves UP (R461). -/
def ftmPortDown (s : State) (p : Nat) : State :=
  let was := s.ftm.slave == some p
  let s := setFlag (updTport s p (fun _ => FtmPort.reset)) (FTM_P_STS p) 2 false
  rolesShow (if was then enterHoldover s else ftmSelect s false)

/-- ANNOUNCE_SEND (R456): every Announce interval. -/
def execAnnounceSend (p : Nat) (s : State) : Host.Outcome State Fault Refusal :=
  whileClocked s fun s =>
  if p < 4 && timeDue s p mAnnounce (annNs s) then sendAnnounce (timeSent s p mAnnounce) p else s

/-- ANNOUNCE (R459, R460, R461). -/
def execAnnounceRx (p domain prio serial steps : Nat) (s : State) : Host.Outcome State Fault Refusal :=
  whileClocked s fun s =>
  if timeOk s p domain then
           ftmSelect (updTport (timeIn s p 2) p (fun t => { t with ann := some ⟨prio, serial, steps, now s⟩ })) false
         else s

/-- ANNOUNCE_TIMEOUT (R461): the slave port's Announce is too old. -/
def execAnnounceTimeout (s : State) : Host.Outcome State Fault Refusal :=
  whileClocked s fun s =>
  match s.ftm.slave with
         | none => s
         | some p =>
           if (tport s p).ann.all (fun a => reached s (a.at_ + ann3 s)) then enterHoldover (updTport s p (fun t => { t with ann := none }))
           else s

/-- SYNC_LOSS (R461): no Sync on the slave port for 4 Sync intervals. -/
def execSyncLoss (s : State) : Host.Outcome State Fault Refusal :=
  whileClocked s fun s =>
  if s.ftm.slave.isSome && reached s (s.ftm.syncAt + 4 * syncNs s) then enterHoldover s else s

/-- HOLD_DOWN_EXPIRY (R461): the hold-down of a grandmaster has lasted 3 Announce intervals. -/
def execHoldDownExpiry (serial : Nat) (s : State) : Host.Outcome State Fault Refusal :=
  whileClocked s fun s =>
  if s.ftm.holdDown.any (fun h => h.1 == serial && !reached s h.2) then s
  else ftmSelect { s with ftm := { s.ftm with holdDown := mdel s.ftm.holdDown serial } } true

/-! ### Path delay (R458) -/

/-- PDELAY_SEND (R458): every Pdelay_Req interval. -/
def execPdelaySend (p : Nat) (s : State) : Host.Outcome State Fault Refusal :=
  whileClocked s fun s =>
  if portUp s p && timeDue s p mPdelayReq (pdelayNs s) then
           updTport (timeOut (timeSent s p mPdelayReq) p mPdelayReq 2 []) p (fun t => { t with req := some (counter32 s / 65536) })
         else s

/-- PDELAY_REQ (R456): answered with the turnaround t3 − t2, in 2^−16 ns. -/
def execPdelayReq (p domain turn : Nat) (s : State) : Host.Outcome State Fault Refusal :=
  whileClocked s fun s =>
  if timeOk s p domain then timeOut (timeIn s p 2) p mPdelayResp 2 [turn] else s

/-- PDELAY_RESP (R458): d is kept doubled, so that its half unit is not lost; the mean of the last eight is rounded. A response later
than 1 ms after the request leaves the exchange invalid. -/
def execPdelayResp (p domain t4 : Nat) (turn : Int) (s : State) : Host.Outcome State Fault Refusal :=
  whileClocked s fun s =>
  if !timeOk s p domain then s
         else
           let s := timeIn s p 2
           match (tport s p).req with
           | none => s
           | some t1 =>
             if t1 + 65536000000 < t4 then updTport s p (fun t => { t with req := none })
             else
             let d2 : Int := (t4 : Int) - t1 - turn
             let ds := (d2 :: (tport s p).delays).take 8
             let k := satN 8 ((tport s p).valid + 1)
             let s := updTport s p (fun t => { t with delays := ds, valid := k, req := none })
             if k < 8 then s
             else
               let s := wrI s (FTM_P_DELAY p) (rdiv (ds.foldl (· + ·) 0) 16)
               if flag s (FTM_P_STS p) 2 then s else ftmSelect (setFlag s (FTM_P_STS p) 2 true) false

/-- PDELAY_TIMEOUT (R458): no response within 1 ms, and the exchange is invalid. -/
def execPdelayTimeout (p : Nat) (s : State) : Host.Outcome State Fault Refusal :=
  whileClocked s fun s =>
  if (tport s p).req.any (fun t1 => reached s (t1 / 65536 + 1000000)) then updTport s p (fun t => { t with req := none }) else s

/-! ### The servo (R462 to R465) -/

/-- A step (R462, R465): the counter is set back by the offset (2^−16 ns), and the last boundary with it, from which the next
one is at least T away. -/
def timeStep (s : State) (offset : Int) : State :=
  let old := now s
  let s := setCounter32 s ((counter32 s : Int) - offset * 65536)
  let s := { s with ftm := { s.ftm with boundary := ((s.ftm.boundary : Int) - offset / 65536).toNat } }
  event (satInc s FTM_STEPS) srcDevice 0x1703 (leBytes 8 old ++ leBytes 8 (now s))

/-- A slew (R462): the PI law sets INCR. -/
def timeSlew (s : State) (offset : Int) : State :=
  let lim := rdiv ((rdN s FTM_RATE_LIM * 2 ^ 33 : Nat) : Int) (10 ^ 9)
  let i := clampI (-lim) lim (s.ftm.integ + rdiv (fld s FTM_SERVO 15 0 * offset) 65536)
  let adj := clampI (-lim) lim (rdiv (fld s FTM_SERVO 31 16 * offset) 65536 + i)
  setIncr { s with ftm := { s.ftm with integ := i } } (2 ^ 33 - adj)

/-- The offset of a Sync on port `p`, in 2^−16 ns (R462). -/
def syncOffset (s : State) (p origin : Nat) (corr : Int) (rx : Nat) : Int :=
  (rx : Int) - origin * 65536 - corr - rdI s (FTM_P_DELAY p) - rdI s (FTM_P_ASYM p)

/-- A Sync accepted on the slave port (R461 to R465): beyond STEP_THRESH the time steps, and at the first Sync of a joined fabric. -/
def syncAccept (s : State) (p origin : Nat) (corr : Int) (upE rx : Nat) : State :=
  let off := syncOffset s p origin corr rx
  let s := wrI (bump s (FTM_P_SYNCS p)) FTM_OFFSET (satI 32 off)
  let good := decide (off.natAbs < fld s FTM_LOCK 7 0 * 65536)
  let joined := s.ftm.joined
  let s := { s with ftm := { s.ftm with upE := upE, offsets := (off.natAbs :: s.ftm.offsets).take 255, joined := false
                                        run := if good then satN 255 (s.ftm.run + 1) else 0 } }
  let s := if !good && ftmSt s == tLocked then setFld s FTM_STS 1 0 tAcquiring else s
  let steps := joined || decide (rdN s FTM_STEP_THRESH * 65536 < off.natAbs)
  let s := if steps && !inLayer s then timeStep s off else timeSlew s off
  ftmShow { s with ftm := { s.ftm with syncAt := now s } }

/-- SYNC (R456, R460, R462): one of another domain, two-step, or received on any port but the slave port is discarded. -/
def execSyncMsg (p domain : Nat) (twoStep : Bool) (origin : Nat) (corr : Int) (upE rx : Nat) (s : State) :
    Host.Outcome State Fault Refusal :=
  whileClocked s fun s =>
  if !timeOk s p domain then s
         else
           let s := timeIn s p 1
           if twoStep || s.ftm.slave != some p then s else syncAccept s p origin corr upE rx

/-- LOCKED (R461): LOCK_COUNT consecutive Syncs were below LOCK_THRESH. -/
def execFtmLocked (s : State) : Host.Outcome State Fault Refusal :=
  whileClocked s fun s =>
  if ftmSt s = tAcquiring && decide (fld s FTM_LOCK 15 8 ≤ s.ftm.run) then ftmShow (setFld s FTM_STS 1 0 tLocked)
         else s

/-- SYNC_SEND (R456, R460): every Sync interval, one-step, with the fraction of a nanosecond in correctionField and E in its header. -/
def execSyncSend (p : Nat) (s : State) : Host.Outcome State Fault Refusal :=
  whileClocked s fun s =>
  if fld s (FTM_P_STS p) 1 0 = 1 && timeDue s p mSync (syncNs s) then
           timeOut (timeSent s p mSync) p mSync 1 [now s, rdN s FTM_FRAC / 65536, rdN s FTM_ERR]
         else s

/-- HOLDOVER_EXCESS (R292, R463). -/
def execHoldoverExcess (s : State) : Host.Outcome State Fault Refusal :=
  whileClocked s fun s =>
  ftmShow s

/-! ### Commands (R468) -/

/-- TIME_CONFIG (R468). -/
def execTimeConfig (h : Issue) (quality domain ann sync pdelay kp ki rateLim stepThresh lockThresh lockCount limit holdRate
    invert : Nat) (s : State) : Host.Outcome State Fault Refusal :=
  whileClocked s fun s =>
  hostCmd s h (.timeConfig h quality domain ann sync pdelay kp ki rateLim stepThresh lockThresh lockCount limit holdRate invert) 0x0806 48
    (fun s => [(decide (ann ≤ 10) && decide (sync ≤ 10) && decide (pdelay ≤ 10) && decide (invert < 16), .badParam),
               (domOn s 13, .domainOff)])
    (fun s =>
      let s := setShadow (setShadow s 11 FTM_CFG 31 24 quality) 11 FTM_CFG 23 16 domain
      let s := setShadow (setShadow (setShadow s 11 FTM_CFG 11 8 ann) 11 FTM_CFG 7 4 sync) 11 FTM_CFG 3 0 pdelay
      let s := setShadow (setShadow s 11 FTM_SERVO 31 16 kp) 11 FTM_SERVO 15 0 ki
      let s := setShadow (setShadow s 11 FTM_RATE_LIM 31 0 rateLim) 11 FTM_STEP_THRESH 31 0 stepThresh
      let s := setShadow (setShadow s 11 FTM_LOCK 15 8 lockCount) 11 FTM_LOCK 7 0 lockThresh
      let s := setShadow (setShadow s 11 FTM_HOLD 31 16 limit) 11 FTM_HOLD 15 0 holdRate
      complete (setShadow s 11 FTM_TRIG_CFG 3 0 invert) h 0x0806 .ok 0 0 0 0)

/-- A trigger armed (R466): with PERIOD 0 it issues one pulse. -/
def trigArm (s : State) (t start period width count : Nat) : State :=
  let c := if period = 0 then 1 else count
  let s := wr64 s (FTM_TRIG_START_LO t) (FTM_TRIG_START_HI t) start
  let s := wrN (wrN s (FTM_TRIG_PERIOD t) period) (FTM_TRIG_WIDTH t) width
  let s := wrN (wrN s (FTM_TRIG_COUNT t) c) (FTM_TRIG_FIRED t) 0
  let s := setFlag s (FTM_TRIG_STS t) 31 true
  { s with ftm := { s.ftm with finite := if c = 0 then natClr s.ftm.finite t else natSet s.ftm.finite t } }

/-- TRIGGER_SET (R468). START has no upper limit; disarming takes no schedule. -/
def execTriggerSet (h : Issue) (trig op start period width count : Nat) (s : State) : Host.Outcome State Fault Refusal :=
  whileClocked s fun s =>
  hostCmd s h (.triggerSet h trig op start period width count) 0x0807 48
    (fun s => [(decide (trig < 4) &&
      (if op = 0 then start == 0 && period == 0 && width == 0 && count == 0
       else op == 1 && decide (now s + 10000 ≤ start) && (period == 0 || decide (width + 4 ≤ period)) &&
         decide (4 ≤ width) && decide (width ≤ 1000000000)), .badParam),
      (domOn s 13, .domainOff), (!s.pwr.safe, .wrongState)])
    (fun s =>
      if op = 0 then complete (setFlag s (FTM_TRIG_STS trig) 31 false) h 0x0807 .ok 0 0 0 0
      else complete (trigArm s trig start period width count) h 0x0807 .ok start 0 0 0)

/-- The time of the next edge of trigger `t`, in ns (R466): START + n × PERIOD. -/
def trigNext (s : State) (t : Nat) : Nat :=
  rd64 s (FTM_TRIG_START_LO t) (FTM_TRIG_START_HI t) + rdN s (FTM_TRIG_FIRED t) * rdN s (FTM_TRIG_PERIOD t)

/-- TRIGGER_EDGE (R465 to R467): a pulse of an armed trigger begins at its time, or the pulse in progress ends after WIDTH. The
trigger is disarmed with the end of its last pulse. -/
def execTriggerEdge (t : Nat) (rise : Bool) (s : State) : Host.Outcome State Fault Refusal :=
  whileClocked s fun s =>
    if rise then
      if flag s (FTM_TRIG_STS t) 31 && !s.ftm.pulse.testBit t && reached s (trigNext s t) &&
          (!s.ftm.finite.testBit t || rdN s (FTM_TRIG_COUNT t) != 0) then
        let at_ := trigNext s t
        let ends := (if at_ < now s then now s else at_) + rdN s (FTM_TRIG_WIDTH t)
        let s := if s.ftm.finite.testBit t then wrN s (FTM_TRIG_COUNT t) (rdN s (FTM_TRIG_COUNT t) - 1) else s
        trigShow { (bump s (FTM_TRIG_FIRED t)) with ftm := { s.ftm with pulse := natSet s.ftm.pulse t, pulseEnd := mset s.ftm.pulseEnd t ends } }
      else s
    else if s.ftm.pulse.testBit t && reached s (mget 0 s.ftm.pulseEnd t) then
      let s := trigShow { s with ftm := { s.ftm with pulse := natClr s.ftm.pulse t } }
      if s.ftm.finite.testBit t && rdN s (FTM_TRIG_COUNT t) == 0 then setFlag s (FTM_TRIG_STS t) 31 false else s
    else s

/-! ### COMMIT of group FTM (R470) -/

/-- The checks of group FTM (R470). -/
def ftmChecks (s n : State) : List (Nat × Bool) :=
  let ok (lo hi v : Nat) : Bool := decide (lo ≤ v) && decide (v ≤ hi)
  [(0x0C01, ok 0 10 (fld n FTM_CFG 11 8) && ok 0 10 (fld n FTM_CFG 7 4) && ok 0 10 (fld n FTM_CFG 3 0) &&
      fld n FTM_SERVO 31 16 != 0 && ok 1000 500000 (rdN n FTM_RATE_LIM) && ok 100 1000000 (rdN n FTM_STEP_THRESH) &&
      fld n FTM_LOCK 15 8 != 0 && fld n FTM_LOCK 7 0 != 0 && fld n FTM_HOLD 15 0 != 0),
   (0x0C02, decide (fld n FTM_LOCK 7 0 + 8 ≤ fld n FTM_HOLD 31 16)),
   (0x0C03, !inLayer s || (fld s FTM_CFG 31 16 == fld n FTM_CFG 31 16))]

/-- What group FTM changes beyond its fields. -/
def ftmTake (s : State) : State := trigShow (ftmShow (ftmSelect s false))

end Sys2Proof.Machine
end

