-- ==== Sys2Proof/Machine/Fabric.lean ====
section
/-!
DEFINITION. The Brodris fabric (R412 to R452): ports and their states, the link layer, spare lanes, discovery, addresses and
routing, end-to-end delivery, forwarded commands and bulk carriage.
-/

namespace Sys2Proof.Machine

/-! ### Devices and routes -/

/-- The metric to an address: 0 for the device itself, 32 for an unreachable one (R430). -/
def metric (s : State) (d : Nat) : Nat := if d = ownAddr s then 0 else fld s (FAB_ROUTE d) 21 16

/-- A device of the fabric by address. -/
def devOf (s : State) (d : Nat) : Option DevInfo := (s.fab.devs.find? (fun e => e.1 == d)).map (·.2)

/-- The plate group of this device, 0xFF for none (R444). -/
def ownGroup (s : State) : Nat := if flag s FAB_STS 18 then fld s FAB_STS 17 16 else 0xFF

/-- This device as HELLO reports it (R427). -/
def ownInfo (s : State) : DevInfo :=
  { serial := s.fuses.serial, strap := flag s FAB_STS 7, root := flag s FAB_STS 8, busy := inLayer s
    job := s.seq.job.isSome, group := ownGroup s
    nbrs := ports4.map (fun p => if flag s (FAB_P_STS p) 23 then fld s (FAB_P_STS p) 28 24 else 0xFF) }

/-- The other devices of the fabric that are reachable. -/
def peers (s : State) : List (Nat × DevInfo) := s.fab.devs.filter (fun e => e.1 != ownAddr s && reachable s e.1)

/-- Members of plate group `g` as a mask (R444). -/
def groupOf (s : State) (g : Nat) : Nat :=
  (((ownAddr s, ownInfo s) :: peers s).filter (fun e => e.2.group == g)).foldl (fun m e => natSet m e.1) 0

/-- `FAB_MEMBERS`, DEVICES and the group masks follow the routes and what HELLO reports (R448). -/
def fabShow (s : State) : State :=
  let m := (List.range 32).filter (fun d => metric s d < 32)
  let s := wrN s FAB_MEMBERS (m.foldl natSet 0)
  let s := setFld s FAB_STS 25 20 m.length
  (List.range 4).foldl (fun s g => wrN s (FAB_GROUP g) (groupOf s g)) s

/-- Ports that are UP. -/
def upPorts (s : State) : List Nat := ports4.filter (portUp s)

/-- The metric to `d` that the neighbour on port `p` advertises. -/
def advOf (s : State) (p d : Nat) : Nat := (fport s p).adv.getD d 32

/-- Transaction types of the LINK class (R436). -/
def tyHello : Nat := 0x01
def tyRoute : Nat := 0x02
def tySwap : Nat := 0x03
def tySwapAck : Nat := 0x04
def tyAck : Nat := 0x05
def tyNak : Nat := 0x06
def tyAddrReq : Nat := 0x07
def tyAddrAssign : Nat := 0x08

/-- ROUTE on port `p`: the metrics, with 32 for an entry whose primary next hop the neighbour is (R430). -/
def sendRoute (s : State) (p : Nat) : State :=
  linkOut s p tyRoute ((List.range 32).map (fun d =>
    if d != ownAddr s && flag s (FAB_ROUTE d) 31 && fld s (FAB_ROUTE d) 27 26 == p then 32 else metric s d))

/-- The route register of an address, as the neighbours' metrics give it (R430, R450). -/
def routeWord (s : State) (d : Nat) : Word :=
  if d = ownAddr s then 0
  else
    let best := (upPorts s).foldl (fun b p =>
      let m := advOf s p d
      if 31 < m then b
      else match b with
           | none => some (p, m)
           | some (_, k) => if m < k then some (p, m) else b) (none : Option (Nat × Nat))
    match best with
    | none => setBits 0 21 16 32
    | some (p, m) =>
      let own := m + 1
      let alt := (upPorts s).foldl (fun b q =>
        let k := advOf s q d
        if q = p || own ≤ k then b
        else match b with
             | none => some (q, k)
             | some (_, j) => if k < j then some (q, k) else b) (none : Option (Nat × Nat))
      if 31 < own then setBits 0 21 16 32
      else
        let w := setBits (setBits (setBits 0 31 31 1) 27 26 p) 21 16 own
        match alt with
        | none => w
        | some (q, _) => setBits (setBits w 30 30 1) 25 24 q

/-- Every route entry recomputed; a change sends ROUTE on every UP port and releases the frames that were held (R430,
R431). -/
def reroute (s : State) : State :=
  let before := (List.range 32).map (fun d => rd s (FAB_ROUTE d))
  let t := (List.range 32).foldl (fun t d => wr t (FAB_ROUTE d) (routeWord s d)) s
  let t := fabShow t
  if (List.range 32).map (fun d => rd t (FAB_ROUTE d)) = before then t
  else pump ((upPorts t).foldl sendRoute t)

/-- A link event at the present time (R432). -/
def linkEvent (s : State) : State := { s with fab := { s.fab with linkEvent := now s } }

/-! ### Roots and addresses (R426 to R429) -/

/-- The root port: the port on which the lowest root serial was heard at the fewest hops, the lower on a tie. -/
def rootPort (s : State) : Option Nat :=
  ((upPorts s).foldl (fun b p =>
    let q := fport s p
    match b with
    | none => some (p, q.root, q.rootHops)
    | some (_, r, k) => if q.root < r || (q.root == r && decide (q.rootHops < k)) then some (p, q.root, q.rootHops) else b)
    (none : Option (Nat × Nat × Nat))).map (·.1)

/-- The lowest root serial heard is adopted. -/
def adoptRoot (s : State) : State :=
  let r := (upPorts s).foldl (fun m p => if (fport s p).root < m then (fport s p).root else m) s.fuses.serial
  setFlag (wr64 s FAB_ROOT_SERIAL_LO FAB_ROOT_SERIAL_HI r) FAB_STS 8 (r == s.fuses.serial)

/-- The device takes an address (R428, R429); it is from the strap no longer unless it is the strap's own. -/
def setAddr (s : State) (a : Nat) : State :=
  let strap := s.pins.fabAddr != 0 && a == s.pins.fabAddr && flag s FAB_STS 7
  let s := setFlag (setFld s FAB_STS 4 0 a) FAB_STS 7 strap
  reroute { s with fab := { s.fab with keptAddr := some a } }

/-- Addresses in use in the fabric. -/
def usedAddrs (s : State) : List Nat := ownAddr s :: (peers s).map (·.1)

/-- The address that the root assigns: the one requested if it is free, else the lowest free one (R428, R429). -/
def assignAddr (s : State) (serial want : Nat) : Nat :=
  let used := ((ownAddr s, s.fuses.serial) :: s.fab.devs.map (fun e => (e.1, e.2.serial))).filter (fun e => e.2 != serial)
  if used.all (fun e => e.1 != want) then want
  else ((List.range 32).find? (fun a => used.all (fun e => e.1 != a))).getD want

/-- ADDR_REQ (R427, R428): the root assigns; any other device passes it towards the root. -/
def execAddrReq (p serial addr : Nat) (s : State) : Host.Outcome State Fault Refusal :=
  whileClocked s fun s =>
    let s := satInc s (FAB_P_RX_FRAMES p)
    if flag s FAB_STS 8 then
      let a := assignAddr s serial addr
      let others := s.fab.devs.filter (fun e => e.2.serial != serial)
      let s := { s with fab := { s.fab with devs := mset others a ⟨serial, false, false, false, false, 0xFF, []⟩ } }
      linkOut s p tyAddrAssign [serial, a]
    else
      let s := { s with fab := { s.fab with reqPorts := mset s.fab.reqPorts serial p } }
      match rootPort s with
      | some q => linkOut s q tyAddrReq [serial, addr]
      | none => s

/-- ADDR_ASSIGN (R428): the device takes the address, or passes it back the way the request came. -/
def execAddrAssign (p serial addr : Nat) (s : State) : Host.Outcome State Fault Refusal :=
  whileClocked s fun s =>
    let s := satInc s (FAB_P_RX_FRAMES p)
    if serial = s.fuses.serial then setAddr s addr
    else
      match s.fab.reqPorts.find? (fun e => e.1 == serial) with
      | some (_, q) => linkOut { s with fab := { s.fab with reqPorts := mdel s.fab.reqPorts serial } } q tyAddrAssign [serial, addr]
      | none => s

/-- Whether of two devices at one address the first loses it (R428): a strapped address beats an assigned one, and between
equals the lower serial keeps it. -/
def losesTo (a b : DevInfo) : Bool := (b.strap && !a.strap) || (a.strap == b.strap && decide (b.serial < a.serial))

/-- The condition that blocks a join, in the order of R428: 1 size, 2 a plate group, 3 BUSY, 4 a job open on a device that
would lose its address; 0 when it is admissible. -/
def joinBlock (s : State) (size : Nat) (theirs : List (Nat × DevInfo)) : Nat :=
  let ours := (ownAddr s, ownInfo s) :: peers s
  let grp (l : List (Nat × DevInfo)) (g : Nat) : Nat := (l.filter (fun e => e.2.group == g)).length
  if 32 < ours.length + size then 1
  else if (List.range 4).any (fun g => decide (8 < grp ours g + grp theirs g)) then 2
  else if (ours ++ theirs).any (fun e => e.2.busy) then 3
  else if ours.any (fun o => theirs.any (fun t => o.1 == t.1 && (if losesTo o.2 t.2 then o.2.job else t.2.job))) then 4
  else 0

/-! ### Port states (R414) -/

/-- `s` with STATE of port `p`, which begins now. -/
def setPort (s : State) (p v : Nat) : State := updPort (setFld s (FAB_P_STS p) 3 0 v) p (fun q => { q with since := now s })

/-- The active lane of port `p`, and whether a lane is marked FAILED. -/
def activeLane (s : State) (p : Nat) : Nat := fld s (FAB_P_STS p) 8 8
def laneFailed (s : State) (p lane : Nat) : Bool := flag s (FAB_P_STS p) (16 + lane)

/-- FABRIC_PORT_SET completes when the port reaches UP, ISOLATED or LOOPBACK, and the adaptation's grant ends (R447). -/
def portReached (s : State) (p : Nat) : State :=
  let peer := if flag s (FAB_P_STS p) 23 then fld s (FAB_P_STS p) 28 24 else 0xFF
  finishRun (dieRelease s 2 p) 0x0801 p .ok (portSt s p) peer (rdN s (FAB_P_PEER_SERIAL_LO p)) 0

/-- Port `p` leaves service: its retry buffer is emptied, end-to-end frames being recovered by their sources and BULK frames
queued again (R435), its route goes and time leaves it. -/
def portOutOf (s : State) (p st : Nat) : State :=
  let was := portUp s p || portSt s p == pSwapping
  let bulk := ((fport s p).retry.map (·.2)).filter (fun f => f.cls == clBulk)
  let s := updPort s p (fun q => { FabPort.reset with errs := q.errs })
  let s := dieRelease (setFlag (setPort s p st) (FAB_P_STS p) 23 false) 2 p
  if was then
    let s := linkEvent { s with fab := { s.fab with out := bulk ++ s.fab.out } }
    ftmPortDown (adoptRoot (reroute s)) p
  else s

/-- A link declared down (R414, R420). -/
def portDown (s : State) (p : Nat) : State :=
  if portSt s p == pUp || portSt s p == pIsolated || portSt s p == pSwapping then portOutOf s p pDown else s

/-- Port `p` comes UP from TRAINING or ISOLATED: each side holds full credits, and the neighbour is told the routes. -/
def portComesUp (s : State) (p : Nat) : State :=
  let s := updPort s p (fun q =>
    { FabPort.reset with errs := q.errs, heard := now s, helloAt := q.helloAt, root := q.root, rootHops := q.rootHops })
  let s := ftmPortUp (setPort s p pUp) p
  sendRoute (reroute (adoptRoot (linkEvent s))) p

/-- Every unacknowledged frame of port `p` is sent again, oldest first, which counts as a go-back event (R420). -/
def goBack (s : State) (p : Nat) : State :=
  let s := updPort (satInc s (FAB_P_RETRIES p)) p (fun q =>
    { q with goBacks := q.goBacks + 1, retryAt := q.retryAt.map (fun _ => now s) })
  (fport s p).retry.foldl (fun s e => wireOut s p (some e.1) e.2) s

/-- LANE0_LOCK_TIMEOUT (R413): lane 0 has not reached block lock within 5 ms of the start-up. -/
def execLane0LockTimeout (p : Nat) (s : State) : Host.Outcome State Fault Refusal :=
  whileClocked s fun s =>
  if portSt s p == pTraining && fld s (FAB_P_CFG p) 7 6 != 1 && fld s (FAB_P_CFG p) 7 6 != 2 &&
      reached s ((fport s p).since + 5000000) then
           setFld s (FAB_P_STS p) 8 8 1
         else s

/-- HELLO_MISS (R414): HELLO_MISS periods without a HELLO. -/
def execHelloMiss (p : Nat) (s : State) : Host.Outcome State Fault Refusal :=
  whileClocked s fun s =>
  if reached s ((fport s p).heard + fld s FAB_LINK_CFG 31 24 * fld s FAB_LINK_CFG 23 16 * 1000) then portDown s p else s

/-- LINK_DOWN (R420): RETRY_MAX go-back events in a row. -/
def execLinkDown (p : Nat) (s : State) : Host.Outcome State Fault Refusal :=
  whileClocked s fun s =>
  if fld s FAB_LINK_CFG 7 0 ≤ (fport s p).goBacks then portDown s p else s

/-- PORT_RETRAIN (R414): every 10 ms, always granted (R104). -/
def execPortRetrain (p : Nat) (s : State) : Host.Outcome State Fault Refusal :=
  whileClocked s fun s =>
  if portSt s p == pDown && reached s ((fport s p).since + 10000000) then dieTake (setPort s p pTraining) 2 p else s

/-! ### Spare lanes (R423, R424) -/

/-- Traffic moves to the other lane (R424). -/
def moveActive (s : State) (p : Nat) : State :=
  satIncF (setFld s (FAB_P_STS p) 8 8 (1 - activeLane s p)) (FAB_P_SWAPS p) 15 0

/-- A spare swap begins: traffic is held, and the adaptation is always granted (R104, R424). -/
def beginSwap (s : State) (p : Nat) : State := dieTake (setPort s p pSwapping) 2 p

/-- BLOCK_LOCK_LOSS of the active lane (R414, R424): `spare` says that the other lane is wired and holds block lock. -/
def execBlockLockLoss (p : Nat) (spare : Bool) (s : State) : Host.Outcome State Fault Refusal :=
  whileClocked s fun s =>
    if portSt s p == pUp || portSt s p == pIsolated || portSt s p == pSwapping then
      if spare && !laneFailed s p (1 - activeLane s p) then
        let s := moveActive s p
        if portSt s p == pUp then beginSwap s p else s
      else portDown s p
    else s

/-- The error count register of a lane (R423). -/
def laneErrs (p lane : Nat) : Nat := if lane = 0 then FAB_P_LANE0_ERRS p else FAB_P_LANE1_ERRS p

/-- `n` error events of a lane, which count within the window (R423). -/
def errEvents (s : State) (p lane n : Nat) : State :=
  let s := wrN s (laneErrs p lane) (satN (2 ^ 32 - 1) (rdN s (laneErrs p lane) + n))
  let win := fld s FAB_ERR_CFG 31 16 * 1000000
  updPort s p (fun q => { q with errs := (lane, now s, n) :: q.errs.filter (fun e => decide (now s < e.2.1 + win)) })

/-- Error events of a lane within ERR_WINDOW (R423). -/
def errCount (s : State) (p lane : Nat) : Nat :=
  let win := fld s FAB_ERR_CFG 31 16 * 1000000
  sumN (((fport s p).errs.filter (fun e => e.1 == lane && decide (now s < e.2.1 + win))).map (·.2.2))

/-- LANE_FAILED (R423 to R425): `errs` error events besides the frames that failed their FCS (66-bit blocks, codewords); more than
ERR_LIMIT in all within the window mark the lane FAILED. -/
def execLaneFailed (p lane errs : Nat) (spare : Bool) (s : State) : Host.Outcome State Fault Refusal :=
  whileClocked s fun s =>
    let s := errEvents s p lane errs
    if laneFailed s p lane || errCount s p lane ≤ fld s FAB_ERR_CFG 15 0 then s
    else
      let s := setFlag s (FAB_P_STS p) (16 + lane) true
      if laneFailed s p (1 - lane) then event s (srcPort p) 0x1702 []
      else if lane = activeLane s p && spare && portUp s p then beginSwap (linkOut s p tySwap []) p
      else s

/-- SWAP (R424). -/
def execSwapRx (p : Nat) (s : State) : Host.Outcome State Fault Refusal :=
  whileClocked s fun s =>
    let s := satInc s (FAB_P_RX_FRAMES p)
    if portUp s p then moveActive (beginSwap (linkOut s p tySwapAck []) p) p else s

/-- SWAP_ACK (R424). -/
def execSwapAckRx (p : Nat) (s : State) : Host.Outcome State Fault Refusal :=
  whileClocked s fun s =>
    let s := satInc s (FAB_P_RX_FRAMES p)
    if portSt s p == pSwapping && laneFailed s p (activeLane s p) then moveActive s p else s

/-! ### HELLO (R427, R428) -/

/-- HELLO on port `p`. -/
def sendHello (s : State) (p : Nat) : State :=
  let st := portSt s p
  if st == pTraining || st == pUp || st == pIsolated || st == pSwapping then
    let i := ownInfo s
    let s := updPort s p (fun q => { q with helloAt := some (now s) })
    linkOut s p tyHello [i.serial, ownAddr s, i.group, rd64 s FAB_ROOT_SERIAL_LO FAB_ROOT_SERIAL_HI, fld s FAB_STS 25 20,
      b2n i.busy + 2 * b2n i.job + 4 * b2n i.strap]
  else s

/-- HELLO_SEND (R427): every HELLO µs. -/
def execHelloSend (p : Nat) (s : State) : Host.Outcome State Fault Refusal :=
  whileClocked s fun s =>
  if periodDue s (fport s p).helloAt (fld s FAB_LINK_CFG 31 24 * 1000) then sendHello s p else s

/-- The peer of port `p` as its HELLO gives it. -/
def setPeer (s : State) (p : Nat) (h : HelloIn) : State :=
  wr64 (setFlag (setFld s (FAB_P_STS p) 28 24 h.addr) (FAB_P_STS p) 23 true) (FAB_P_PEER_SERIAL_LO p) (FAB_P_PEER_SERIAL_HI p)
    h.info.serial

/-- What a HELLO tells is kept: the peer, the devices it knows, and the root it names. -/
def learn (s : State) (p : Nat) (h : HelloIn) : State :=
  let s := setPeer s p h
  let devs := (h.dir ++ [(h.addr, h.info)]).foldl (fun m e => if e.2.serial = s.fuses.serial then m else mset m e.1 e.2) s.fab.devs
  fabShow (adoptRoot (updPort { s with fab := { s.fab with devs := devs } } p (fun q =>
    { q with root := h.root, rootHops := h.rootHops + 1 })))

/-- A link's join is examined (R428): the port comes UP, or is held ISOLATED. A device that loses its address, or that
held another before it left its fabric (R429), asks the root. -/
def tryJoin (s : State) (p : Nat) (h : HelloIn) : State :=
  let theirs := (h.addr, h.info) :: h.dir.filter (fun e => e.1 != h.addr)
  let same := h.root == rd64 s FAB_ROOT_SERIAL_LO FAB_ROOT_SERIAL_HI || theirs.any (fun e => e.2.serial == s.fuses.serial)
  let b := if same then 0 else joinBlock s h.size theirs
  if b ≠ 0 then
    let s := updPort (setPeer s p h) p (fun q => { q with hello := some h })
    if portSt s p == pIsolated then s
    else portReached (event (setPort s p pIsolated) (srcPort p) 0x1701 (leBytes 1 b)) p
  else
    let loses := !same && theirs.any (fun t => t.1 == ownAddr s && losesTo (ownInfo s) t.2)
    let s := portComesUp (learn s p h) p
    let s := portReached s p
    let want := s.fab.keptAddr.getD (ownAddr s)
    if !loses && want == ownAddr s then s
    else if flag s FAB_STS 8 then setAddr s (assignAddr s s.fuses.serial want)
    else
      match rootPort s with
      | some q => linkOut s q tyAddrReq [s.fuses.serial, want]
      | none => s

/-- A HELLO at a port (R414, R424, R427, R428). -/
def helloIn (s : State) (p : Nat) (h : HelloIn) : State :=
  let s := updPort (satInc s (FAB_P_RX_FRAMES p)) p (fun q => { q with heard := now s })
  let st := portSt s p
  if st == pTraining && h.info.serial == s.fuses.serial then
    let s := wr64 s (FAB_P_PEER_SERIAL_LO p) (FAB_P_PEER_SERIAL_HI p) h.info.serial
    portReached (setPort s p pLoopback) p
  else if st == pTraining || st == pIsolated then tryJoin s p h
  else if st == pSwapping && !laneFailed s p (activeLane s p) then
    pump (goBack (dieRelease (setPort (learn s p h) p pUp) 2 p) p)
  else if st == pUp then pump (learn s p h)
  else s

/-- HELLO (R414, R424, R427, R428). Without FAB_REFCLK the SerDes receive nothing and the device joins no fabric (R85). -/
def execHelloRx (p addr : Nat) (info : DevInfo) (rootSerial rootHops size : Nat) (dir : List (Nat × DevInfo)) (s : State) :
    Host.Outcome State Fault Refusal :=
  whileClocked s fun s =>
  if s.pins.fabRefclk then helloIn s p ⟨addr, info, rootSerial, rootHops, size, dir⟩ else s

/-! ### The bytes of a frame (R415, R416) -/

/-- The Ethernet address of the device with a serial (R415): 0x02 and bits 39:0, most significant byte first. -/
def macOf (serial : Nat) : List Byte := leBytes 1 2 ++ (leBytes 5 serial).reverse

/-- The Ethernet header of a frame sent: destination, source and EtherType (R412, R415, R456). -/
def ethHeader (x : Sent) : List Byte :=
  let time := x.frame.cls == clTime
  let dst := match x.peer with
    | some p => macOf p
    | none => if time then [0x01, 0x80, 0xC2, 0x00, 0x00, 0x0E].map (BitVec.ofNat 8) else (leBytes 6 (2 ^ 48 - 1))
  dst ++ macOf x.own ++ (leBytes 2 (if time then 0x88F7 else 0x88B5)).reverse

/-- The 16-byte Brodris header of a frame sent (R416). -/
def brodrisHeader (x : Sent) : List Byte :=
  let f := x.frame
  let b := leBytes 1 (0x10 + f.cls) ++ leBytes 1 f.ty ++ leBytes 1 (x.seq.getD 0) ++ leBytes 1 x.ack ++
    leBytes 2 (x.credit.1 * 2 ^ 14 + x.credit.2 % 2 ^ 14) ++ leBytes 1 f.dst ++ leBytes 1 f.src ++ leBytes 1 f.hops ++
    leBytes 1 (b2n x.seq.isSome + 2 * b2n f.e2e.isSome) ++ leBytes 2 f.payload ++ leBytes 2 (f.e2e.getD 0)
  b ++ leBytes 2 (crc16 b)

/-! ### Link layer (R418 to R422) -/

/-- Frames before the number `n` are acknowledged on port `p` (R418, R420). -/
def ackTo (s : State) (p n : Nat) : State :=
  match (fport s p).retry with
  | [] => s
  | (m, _) :: _ =>
    let k := (n + 256 - m) % 256
    if k = 0 || (fport s p).retry.length < k then s
    else updPort s p (fun q => { q with retry := q.retry.drop k, retryAt := q.retryAt.drop k, goBacks := 0 })

/-- ACK, or the ACK and CREDIT fields of any frame (R419, R421). -/
def execAckFrame (p ack cls credits : Nat) (s : State) : Host.Outcome State Fault Refusal :=
  whileClocked s fun s =>
    let s := updPort (ackTo s p ack) p (fun q => { q with used := mset q.used cls (mget 0 q.used cls - credits) })
    let s := pump s
    bulkTx s ((recWrite s - s.recording.sent) / 1998 + 1)

/-- STANDALONE_ACK (R419, R421): sent when an acceptance or freed buffer space has not been reported. -/
def execStandaloneAck (p : Nat) (s : State) : Host.Outcome State Fault Refusal :=
  whileClocked s fun s =>
  if portUp s p && ((fport s p).ackDue || !(fport s p).owed.isEmpty) then linkOut s p tyAck [] else s

/-- NAK (R419, R420): the frames before the expected number were accepted, the others go again. -/
def execNakFrame (p expected : Nat) (s : State) : Host.Outcome State Fault Refusal :=
  whileClocked s fun s =>
  if portUp s p then pump (goBack (ackTo (satInc s (FAB_P_RX_FRAMES p)) p expected) p) else s

/-- RETRY_TIMEOUT (R420): the oldest frame has been unacknowledged for RETRY_TO. -/
def execRetryTimeout (p : Nat) (s : State) : Host.Outcome State Fault Refusal :=
  whileClocked s fun s =>
  if portUp s p && (fport s p).retryAt.head?.any (fun t => reached s (t + fld s FAB_LINK_CFG 15 8 * 1000)) then goBack s p else s

/-- A sequenced frame that the link layer accepts and that is then discarded (R419): its number counts. The table's row gives it no
length: it counts as one without a payload (assumption 16). -/
def dropAccepted (s : State) (p cls src : Nat) : State :=
  let f : Frame := ⟨cls, 0, ownAddr s, src, 0, none, []⟩
  if portUp s p && f.sequenced then acceptOn s p f else s

/-- FRAME_DISCARDED (R415, R416, R419, R422, R434): reason 0 a failing FCS or HCRC, unknown version or reserved field; 1 an
address neither the device's nor the broadcast one; 2 an undefined TYPE; 3 HOPS 0; 4 a SEQ that is not the expected one;
5 an inverted FCS; 6 an E2E_SEQ that is not the expected one from `src` in class `cls`. -/
def execFrameDiscarded (p reason cls src : Nat) (s : State) : Host.Outcome State Fault Refusal :=
  whileClocked s fun s =>
    match reason with
    | 0 => errEvents (satInc s (FAB_P_FCS_ERRS p)) p (activeLane s p) 1
    | 1 => satInc s (FAB_P_FCS_ERRS p)
    | 2 => satInc (dropAccepted s p cls src) FAB_HOP_DROPS
    | 3 => satInc (dropAccepted s p cls src) FAB_HOP_DROPS
    | 4 =>
      let q := fport s p
      if q.nakSent || !portUp s p then s
      else updPort (linkOut s p tyNak [q.seqRx]) p (fun q => { q with nakSent := true })
    | 6 =>
      if portUp s p then
        let s := acceptOn s p ⟨cls, 0x10, ownAddr s, src, 0, none, []⟩
        queueFrame (satInc s FAB_E2E_DROPS) ⟨cls, tyE2eAck cls, src, ownAddr s, 31, none, [mget 0 s.fab.e2eRx (e2eKey src cls)]⟩
      else s
    | _ => s

/-- FRAME_FORWARD (R416, R422): a frame for another device goes on with one hop less; POSITION is never forwarded, and a
frame out of hops is discarded. -/
def execFrameForward (p cls ty dst src hops : Nat) (e2e : Option Nat) (body : List Nat) (s : State) :
    Host.Outcome State Fault Refusal :=
  whileClocked s fun s =>
    if !portUp s p || dst = ownAddr s || ty = tyPosition || cls = clLink then s
    else
      let f : Frame := ⟨cls, ty, dst, src, hops - 1, e2e, body⟩
      let s := acceptOn s p f
      if hops = 0 then satInc s FAB_HOP_DROPS else queueFrame s f

/-! ### Routing (R430, R431) -/

/-- ROUTE_UPDATE (R430): every UPDATE µs. -/
def execRouteUpdate (s : State) : Host.Outcome State Fault Refusal :=
  whileClocked s fun s =>
  if periodDue s s.fab.routeAt (fld s FAB_ROUTE_CFG 15 8 * 1000) then
    let s := { s with fab := { s.fab with routeAt := some (now s) } }
    (upPorts s).foldl sendRoute s
  else s

/-- ROUTE (R430, R431): metrics from the neighbour on port `p`. An entry whose primary it was and that it now gives as 32 is a
link event. -/
def execRouteUpdateRx (p : Nat) (metrics : List Nat) (s : State) : Host.Outcome State Fault Refusal :=
  whileClocked s fun s =>
    let s := satInc s (FAB_P_RX_FRAMES p)
    if !portUp s p then s
    else
      let lost := (List.range 32).any (fun d => flag s (FAB_ROUTE d) 31 && fld s (FAB_ROUTE d) 27 26 == p &&
        decide (32 ≤ metrics.getD d 32) && decide (advOf s p d < 32))
      let s := updPort s p (fun q => { q with adv := (List.range 32).map (fun d => metrics.getD d 32) })
      reroute (if lost then linkEvent s else s)

/-! ### End-to-end delivery (R434) -/

/-- A BURN_FREEZE of a group issued at `t` ns is not acknowledged by the member at `d` (R376): its NOTICE waits for its E2E_ACK. -/
def freezeUnacked (s : State) (t d : Nat) : Bool :=
  (s.fab.out ++ (e2eTx s d clControl).2).any (fun f => f.ty == tyNotice && f.dst == d && f.body.getD 0 0 == 5 && f.body.getD 2 0 == t)

/-- Every BURN_FREEZE of a group completes once each member has acknowledged it or, as `lost` says, has left the fabric, which
gives FABRIC_UNREACHABLE (R376). Its figures are its time, the members waited for, and whether one was out of reach. -/
def freezeStep (s : State) (lost : Nat → Bool) : State :=
  if s.running.any (fun r => r.op == 0x0604) then
    let upd (r : Running) : Running :=
      if r.op == 0x0604 then
        let t := r.aux.getD 0 0
        let wait := bitList (r.aux.getD 1 0) 32
        { r with aux := [t, (wait.filter (fun d => !lost d && freezeUnacked s t d)).foldl natSet 0,
                         if wait.any lost then 1 else r.aux.getD 2 0] }
      else r
    let done (r : Running) : Bool := r.op == 0x0604 && r.aux.getD 1 0 == 0
    let rs := s.running.map upd
    (rs.filter done).foldl (fun s r => completeAs s r.from_ r.dropped 0x0604
      (if r.aux.getD 2 0 = 0 then .ok else .fabricUnreachable) 0 0 0 0) { s with running := rs.filter (fun r => !done r) }
  else s

/-- E2E_ACK (R434): the frames before the expected number are delivered. -/
def execE2eAck (via src cls next : Nat) (s : State) : Host.Outcome State Fault Refusal :=
  whileClocked s fun s =>
  delivered s via src (tyE2eAck cls) [next] (fun s =>
    let (n, un) := e2eTx s src cls
    let left := (n + 65536 - next) % 65536
    if un.length < left then s
    else
      let k := e2eKey src cls
      let gone := un.length - left
      freezeStep (pump { s with fab := { s.fab with e2eTx := mset s.fab.e2eTx k (n, un.drop gone)
                                                    e2eAt := mset s.fab.e2eAt k ((mget [] s.fab.e2eAt k).drop gone) } })
      (fun _ => false))

/-- E2E_RESEND (R434): the oldest frame has been unacknowledged for E2E_RESEND µs. -/
def execE2eResend (dst cls : Nat) (s : State) : Host.Outcome State Fault Refusal :=
  whileClocked s fun s =>
    let k := e2eKey dst cls
    let ts := mget [] s.fab.e2eAt k
    if ts.head?.any (fun t => reached s (t + fld s FAB_ROUTE_CFG 31 24 * 1000)) then
      let s := { s with fab := { s.fab with e2eAt := mset s.fab.e2eAt k (ts.map (fun _ => now s)) } }
      (e2eTx s dst cls).2.foldl queueFrame (satInc s FAB_E2E_RESENDS)
    else s

/-! ### Forwarded commands (R437) -/

/-- The status of a code of R138. -/
def statusOf (c : Nat) : Status :=
  ([.ok, .badOpcode, .badParam, .wrongState, .busy, .noGrant, .tempForbidden, .locked, .cfgRejected, .dmaError, .dataCrc,
    .outputFull, .expansionLimit, .domainOff, .fabricUnreachable, .timeout, .faultActive].find?
    (fun st => Status.code st == c)).getD .internal

/-- A packet as its target runs it: REMOTE clear (R437). -/
def clearRemote (p : List Byte) : List Byte := p.take 2 ++ leBytes 2 (natClr (leAt p 2 2) 1) ++ p.drop 4

/-- CMD_FWD (R437): the command that its packet spells is accepted and runs for its issuer; a 65th at once is answered with BUSY. -/
def execCmdFwd (via src ring : Nat) (packet block : List Byte) (s : State) : Host.Outcome State Fault Refusal :=
  whileClocked s fun s =>
  delivered s via src tyCmdFwd (fwdBody ring packet block) (fun s =>
    if 64 ≤ s.fab.fwd.length then
      sendMsg s src tyCmdDone [ring, leAt packet 4 4, leAt packet 0 2, Status.code .busy, 0, 0, 0, 0, now s]
    else { s with fab := { s.fab with fwd := s.fab.fwd ++ [⟨src, ring, clearRemote packet, block, false⟩] } })

/-- The figures of a fan-out (R447): members waited for, members that returned OK, members that did not, the first such status, and the TAG of the
inner packet, which the members' completions carry. -/
def fanAux (wait ok bad st tag : Nat) : List Nat := [wait, ok, bad, st, tag]

/-- The running fan-out of a ring whose inner packet has a TAG. -/
def isFan (ring tag : Nat) (r : Running) : Bool :=
  r.op == 0x0805 && r.key == 0xFF && r.from_.ring == ring && r.aux.getD 4 0 == tag

/-- The member at `src` answered a fan-out; it completes when all have (R447). -/
def fanAnswer (s : State) (ring tag src status : Nat) : State :=
  match takeFirst (isFan ring tag) s.running with
  | none => s
  | some (r, rest) =>
    let wait := natClr (r.aux.getD 0 0) src
    let ok := if status = 0 then natSet (r.aux.getD 1 0) src else r.aux.getD 1 0
    let bad := if status = 0 then r.aux.getD 2 0 else natSet (r.aux.getD 2 0) src
    let st := if r.aux.getD 2 0 = 0 then status else r.aux.getD 3 0
    if wait = 0 then completeAs { s with running := rest } r.from_ r.dropped 0x0805 .ok ok bad 0 st
    else { s with running := { r with aux := fanAux wait ok bad st tag } :: rest }

/-- The running forward of a command. -/
def isForward (dst ring tag : Nat) (r : Running) : Bool :=
  r.op == tyCmdFwd && r.key == dst && r.from_.ring == ring && r.from_.tag == tag && r.from_.src.isNone

/-- The issuer completes a forwarded command itself, or counts the answer of a fan-out (R437). -/
def fwdFail (s : State) (dst ring tag extra : Nat) : State :=
  match takeFirst (isForward dst ring tag) s.running with
  | some (r, rest) =>
    completeAs { s with running := rest } r.from_ r.dropped (r.aux.getD 0 0) .fabricUnreachable 0 0 0 extra
  | none => fanAnswer s ring tag dst (Status.code .fabricUnreachable)

/-- CMD_DONE (R437): the completion goes to the issuing ring with REMOTE_ORIGIN. -/
def execCmdDone (via src ring tag op status r0 r1 r2 ex time : Nat) (s : State) : Host.Outcome State Fault Refusal :=
  whileClocked s fun s =>
  delivered s via src tyCmdDone [ring, tag, op, status, r0, r1, r2, ex, time] (fun s =>
    match takeFirst (isForward src ring tag) s.running with
    | some (r, rest) =>
      let s := { s with running := rest }
      if r.dropped then s else hostOp s (.complete ⟨ring, tag, op, statusOf status, true, r0, r1, r2, ex, time⟩)
    | none => fanAnswer s ring tag src status)

/-- The CMD_FWD of a command is queued or not acknowledged. -/
def fwdUnacked (s : State) (dst ring tag : Nat) : Bool :=
  (s.fab.out ++ (e2eTx s dst clControl).2).any (fun f => f.ty == tyCmdFwd && f.dst == dst && f.body.getD 0 0 == ring &&
    f.body.getD 1 0 / 2 ^ 32 % 2 ^ 32 == tag)

/-- CMD_FWD_TIMEOUT (R437). -/
def execCmdFwdTimeout (dst ring tag : Nat) (s : State) : Host.Outcome State Fault Refusal :=
  whileClocked s fun s =>
  if fwdUnacked s dst ring tag && s.running.any (fun r => (isForward dst ring tag r || isFan ring tag r) && Running.aged s 1000000 r) then
    fwdFail s dst ring tag 0
  else s

/-! ### Bulk carriage (R441) -/

/-- The contiguous end after the ranges that it meets. -/
def bulkMerge (off : Nat) (ranges : List (Nat × Nat)) : Nat × List (Nat × Nat) :=
  (sortBy (·.1) ranges).foldl (fun st r =>
    if r.1 ≤ st.1 then (if st.1 < r.2 then r.2 else st.1, st.2) else (st.1, st.2 ++ [r])) (off, [])

/-- BULK_REC (R441). -/
def execBulkRec (via src offset : Nat) (data : List Byte) (s : State) : Host.Outcome State Fault Refusal :=
  whileClocked s fun s =>
  delivered s via src 0x30 [offset, data.length] (fun s =>
    if !flag s FAB_BULK_CFG 30 then satInc s FAB_HOP_DROPS
    else
      let n := 2 ^ fld s FAB_BULK_CFG 4 0
      let base := rd64 s FAB_BULK_BASE_LO FAB_BULK_BASE_HI + src * n
      let k := n - offset % n
      let s := putDram (putDram s (base + offset % n) (data.take k)) base (data.drop k)
      let (e, rs) := bulkMerge (rd64 s (FAB_BULK_OFF_LO src) (FAB_BULK_OFF_HI src))
        ((offset, offset + data.length) :: mget [] s.fab.bulkAhead src)
      wr64 { s with fab := { s.fab with bulkAhead := mset s.fab.bulkAhead src rs } } (FAB_BULK_OFF_LO src) (FAB_BULK_OFF_HI src) e)

/-! ### Commands (R446, R447) -/

/-- Port `p` is idle for its class S fields (R451). -/
def portIdle (s : State) (p : Nat) : Bool :=
  portSt s p == pOff || portSt s p == pDown || portSt s p == pTraining || !inLayer s

/-- FABRIC_PORT_SET (R414, R447). -/
def execFabricPortSet (h : Issue) (port mode flags polarity : Nat) (s : State) : Host.Outcome State Fault Refusal :=
  whileClocked s fun s =>
  hostCmd s h (.fabricPortSet h port mode flags polarity) 0x0801 48
    (fun s => [(decide (port < 4) && decide (mode ≤ 2) && decide (flags < 16) && (!flags.testBit 0 || mode == 2) &&
                 decide (natBits flags 2 1 ≤ 2) && decide (polarity < 16), .badParam),
               (domOn s 13, .domainOff), (portIdle s port, .wrongState), (mode == 0 || dieGrants s 2, .noGrant),
               (!isRunning s 0x0801 port, .busy)])
    (fun s =>
      let a := FAB_P_CFG port
      let s := setFld (setFld s a 8 8 (b2n (flags.testBit 0))) a 7 6 (natBits flags 2 1)
      let s := setFlag (setFlag s a 2 (polarity.testBit 0)) a 3 (polarity.testBit 1)
      let s := setFlag (setFlag s a 4 (polarity.testBit 2)) a 5 (polarity.testBit 3)
      let s := setFld s a 1 0 mode
      let s := if flags.testBit 3 then setFld s (FAB_P_STS port) 17 16 0 else s
      let s := portOutOf s port pOff
      if mode = 0 then complete s h 0x0801 .ok pOff 0xFF 0 0
      else
        let s := setFld s (FAB_P_STS port) 8 8 (if natBits flags 2 1 = 2 then 1 else 0)
        startRun (dieTake (setPort s port pTraining) 2 port) h 0x0801 port [])

/-- PORT_SET_TIMEOUT (R447): training continues. -/
def execPortSetTimeout (p : Nat) (s : State) : Host.Outcome State Fault Refusal :=
  whileClocked s fun s =>
  if (findRun s 0x0801 p).any (Running.aged s 10000000) then finishRun s 0x0801 p .timeout 0 0 0 0 else s

/-- An entry of FABRIC_DISCOVER (R447). -/
def discEntry (s : State) (d : Nat) : List Byte :=
  let i := if d = ownAddr s then some (ownInfo s) else if reachable s d then devOf s d else none
  let b := match i with
    | none => leBytes 1 d ++ leBytes 1 0 ++ leBytes 1 0xFF ++ leBytes 1 32 ++ zeros 8 ++ leBytes 4 (2 ^ 32 - 1) ++ zeros 12
    | some i =>
      let fl := 1 + 2 * b2n i.strap + 4 * b2n (i.serial == rd64 s FAB_ROOT_SERIAL_LO FAB_ROOT_SERIAL_HI) +
        8 * b2n (d == ownAddr s) + 16 * b2n i.busy
      leBytes 1 d ++ leBytes 1 fl ++ leBytes 1 i.group ++ leBytes 1 (metric s d) ++ leBytes 8 i.serial ++
        (List.range 4).flatMap (fun p => leBytes 1 (i.nbrs.getD p 0xFF)) ++ zeros 12
  b ++ leBytes 4 (crc32c b)

/-- An ISOLATED link is examined again with the HELLO last heard on it (R428, R447). -/
def rescan (s : State) (p : Nat) : State :=
  match (fport s p).hello with
  | some h => if portSt s p == pIsolated then tryJoin s p h else s
  | none => s

/-- FABRIC_DISCOVER (R447). A rescan sends HELLO on every port and examines the ISOLATED links again; it completes in one step (assumption 17). -/
def execFabricDiscover (h : Issue) (op addr : Nat) (s : State) : Host.Outcome State Fault Refusal :=
  whileClocked s fun s =>
  hostCmd s h (.fabricDiscover h op addr) 0x0802 48
    (fun s => [(decide (op ≤ 1) && (op == 0 || addr == 0) && hostAddrOk h addr 32, .badParam), (domOn s 13, .domainOff)])
    (fun s =>
      let s := if op = 0 then hostResult s addr ((List.range 32).flatMap (discEntry s)) else ports4.foldl rescan (ports4.foldl sendHello s)
      complete s h 0x0802 .ok (fld s FAB_STS 25 20) (rdN s FAB_MEMBERS) 0 0)

/-- FABRIC_ROUTE_READ (R447). -/
def execFabricRouteRead (h : Issue) (dest addr : Nat) (s : State) : Host.Outcome State Fault Refusal :=
  whileClocked s fun s =>
  hostCmd s h (.fabricRouteRead h dest addr) 0x0803 48
    (fun s => [((if dest = 0xFF then hostAddrOk h addr 4 else decide (dest < 32) && addr == 0), .badParam),
               (domOn s 13, .domainOff)])
    (fun s =>
      if dest = 0xFF then
        complete (hostResult s addr ((List.range 32).flatMap (fun d => leBytes 4 (rdN s (FAB_ROUTE d))))) h 0x0803 .ok 0 0 0 0
      else
        complete s h 0x0803 .ok (rdN s (FAB_ROUTE dest))
          ((e2eTx s dest clHandoff).2.length + (e2eTx s dest clControl).2.length) 0 0)

/-- PLATE_GROUP_SET (R445, R447). The change is known at once (assumption 17). -/
def execPlateGroupSet (h : Issue) (group : Nat) (s : State) : Host.Outcome State Fault Refusal :=
  whileClocked s fun s =>
  hostCmd s h (.plateGroupSet h group) 0x0804 48
    (fun s => [(decide (group < 4) || group == 0xFF, .badParam), (domOn s 13, .domainOff), (s.seq.job.isNone, .wrongState),
      (group == 0xFF || decide ((bitList (natSet (groupOf s group) (ownAddr s)) 32).length ≤ 8), .cfgRejected)])
    (fun s =>
      let s := setFlag (setFld s FAB_STS 17 16 (if group = 0xFF then 0 else group)) FAB_STS 18 (group != 0xFF)
      let s := ports4.foldl sendHello (fabShow s)
      complete s h 0x0804 .ok (if group = 0xFF then 0 else rdN s (FAB_GROUP group)) 0 0 0)

/-! ### COMMIT of group FAB (R452) -/

/-- The checks of group FAB (R452). -/
def fabChecks (s n : State) : List (Nat × Bool) :=
  let ok (lo hi v : Nat) : Bool := decide (lo ≤ v) && decide (v ≤ hi)
  let l := FAB_LINK_CFG
  let r := FAB_ROUTE_CFG
  let base := rd64 n FAB_BULK_BASE_LO FAB_BULK_BASE_HI
  let slice := fld n FAB_BULK_CFG 4 0
  [(0x0B01, ok 5 255 (fld n l 31 24) && ok 2 255 (fld n l 23 16) && ok 2 255 (fld n l 15 8) && ok 1 255 (fld n l 7 0) &&
      ok 1 65535 (fld n FAB_ERR_CFG 31 16) && ok 1 65535 (fld n FAB_ERR_CFG 15 0) && ok 20 255 (fld n r 31 24) &&
      ok 10 255 (fld n r 15 8) && ok 16 30 slice && decide (base % 2 ^ 20 = 0)),
   (0x0B02, decide (fld n l 15 8 * fld n l 7 0 < fld n l 31 24 * fld n l 23 16)),
   (0x0B03, !flag n FAB_BULK_CFG 30 || dramOk s base (32 * 2 ^ slice)),
   (0x0B04, !flag n FAB_BULK_CFG 31 || fld n FAB_BULK_CFG 28 24 != ownAddr s)]

end Sys2Proof.Machine
end

