-- ==== Sys2Proof/Machine/Dram.lean ====
section
/-!
DEFINITION. The DRAM controller (R471 to R487): configuration and training, the choice of requests, refresh, row
disturbance and ECC.
-/

namespace Sys2Proof.Machine

/-! ### Channel states -/

/-- A DRAM channel beyond its registers. -/
def dramCh (s : State) (c : Nat) : DramCh := mget DramCh.reset s.dramCh c

/-- `s` with a DRAM channel set. -/
def setDramCh (s : State) (c : Nat) (d : DramCh) : State := { s with dramCh := mset s.dramCh c d }

/-- `DDR_THROTTLE_ACT` follows the throttles (R486). -/
def throttleShow (s : State) (c : Nat) : State :=
  setFld s DDR_THROTTLE_ACT (7 + 8 * c) (8 * c) (((dramCh s c).throttles.map (·.port)).foldl natSet 0)

/-- DRAM channel states of R473. -/
def chUnconfigured : Nat := 0
def chConfigured : Nat := 1
def chTraining : Nat := 2
def chTrained : Nat := 3
def chReadySt : Nat := 4
def chSelfRefresh : Nat := 5
def chFailed : Nat := 6

/-- `s` with the state of channel `c` set. -/
def setChState (s : State) (c v : Nat) : State := setFld s DDR_STS (15 + 4 * c) (12 + 4 * c) v

/-- TYPE of a channel; 3 is taken as 0 (R486). -/
def chType (s : State) (c : Nat) : Nat := let t := fld s (DDR_CH_CFG c) 13 12; if t = 3 then 0 else t

/-- Component width in bits: 4, 8 or 16 (R486). -/
def chWidth (s : State) (c : Nat) : Nat := 4 * 2 ^ fld s (DDR_CH_CFG c) 7 6

/-- Capacity of a channel's configuration in MiB (R471). -/
def cfgMib (s : State) (c : Nat) : Nat :=
  (fld s (DDR_CH_CFG c) 8 8 + 1) * 64 * fld s (DDR_CH_CFG c) 5 0 * 128 / chWidth s c

/-- The contents of channel `c` become undefined (R473, R474). -/
def loseChannel (s : State) (c : Nat) : State :=
  if flag s DDR_STS 0 then loseDram s 0 (dramSize s) c
  else loseDram s (if c = 0 then 0 else chCap s 0) (if c = 0 then chCap s 0 else dramSize s) 2

/-- Data rates of R471, by type. -/
def ratesOf (t : Nat) : List Nat :=
  if t = 1 then [1600, 1866, 2133, 2400, 2666, 2933, 3200]
  else if t = 2 then [3200, 3600, 4000, 4400, 4800, 5200, 5600, 6000, 6400] else []

/-- Densities of R471, by type. -/
def densitiesOf (t : Nat) : List Nat := if t = 1 then [8, 16] else if t = 2 then [16, 24, 32] else []

/-- DDR_TRAIN (R474, R475): orders 5 to 12, then training starts. -/
def execDdrTrain (h : Issue) (channel : Nat) (s : State) : Host.Outcome State Fault Refusal :=
  whileClocked s fun s =>
  hostCmd s h (.ddrTrain h channel) 0x0901 48
    (fun s =>
      let inJob := s.seq.job.isSome &&
        ((List.range 2).any (fun k =>
          let a := if k = 0 then s.seq.hostBase else s.seq.devBase
          let n := if k = 0 then s.seq.hostLen else s.seq.devLen
          flag s DDR_STS 0 || chanOf s a == channel || chanOf s (a + n - 1) == channel))
      let st := chState s channel
      [(decide (channel < 2), .badParam), (domOn s (11 + channel), .domainOff),
       (st != chUnconfigured && st != chSelfRefresh && !inJob, .wrongState),
       (dieGrants s 0, .noGrant), (st != chTraining, .busy)])
    (fun s =>
      let s := loseChannel (dieTake s 0 channel) channel
      let s := setDramCh (setChState s channel chTraining) channel { DramCh.reset with window := s.freeCtr }
      startRun (throttleShow (setFlag s (DDR_CH_TRAIN channel) 31 false) channel) h 0x0901 channel [])

/-- TRAINING_END (R473, R474, R79): training of channel `c` ends after `us` µs with result 0 passed, 1 failed at `step` on
the byte lanes `lanes`, or 2 a rail that does not match the type, which leaves the channel FAILED. -/
def execTrainingEnd (c result us step lanes : Nat) (s : State) : Host.Outcome State Fault Refusal :=
  whileClocked s fun s =>
  if chState s c ≠ chTraining then s
    else
      let s := dieRelease s 0 c
      let mib := rdN s (DDR_CH_CAP c)
      if result = 0 then
        let s := setFlag (setChState s c chTrained) (DDR_CH_TRAIN c) 31 true
        finishRun { s with dirty := natSet s.dirty 12 } 0x0901 c .ok us 0 mib 0
      else
        let step := if result = 1 then step else 0
        let lanes := if result = 1 then lanes else 0
        let s := setFld (setFld (setChState s c chFailed) (DDR_CH_TRAIN c) 23 16 step) (DDR_CH_TRAIN c) 8 0 lanes
        finishRun s 0x0901 c .cfgRejected us (natBits step 7 0 * 65536 + natBits lanes 8 0) mib 0

/-- DDR_CONFIG (R475): the shadows of group DDR, for a channel or, with CHANNEL 0xFF, for the device. -/
def execDdrConfig (h : Issue) (channel type rate ranks module_ width density map scrubHours ageNs actLimit thresh
    scrubMs : Nat) (s : State) : Host.Outcome State Fault Refusal :=
  whileClocked s fun s =>
  let chan := [type, rate, ranks, module_, width, density]
  let dev := [map, scrubHours, ageNs, actLimit, thresh, scrubMs]
  let ok :=
    if channel = 0xFF then
      chan.all (· == 0) && decide (map < 2) && decide (1 ≤ scrubHours) && decide (250 ≤ ageNs) && decide (512 ≤ actLimit) &&
      decide (1 ≤ thresh) && decide (100 ≤ scrubMs) && decide (scrubMs ≤ 60000)
    else
      decide (channel < 2) && dev.all (· == 0) &&
      (if type = 0 then (chan.drop 1).all (· == 0)
       else decide (type < 3) && (ratesOf 1 ++ ratesOf 2).contains rate && (ranks == 1 || ranks == 2) &&
         decide (module_ < 2) && (width == 8 || width == 16 || (width == 4 && module_ == 1)) &&
         (densitiesOf 1 ++ densitiesOf 2).contains density)
  hostCmd s h (.ddrConfig h channel type rate ranks module_ width density map scrubHours ageNs actLimit thresh scrubMs) 0x0902 48 (fun _ => [(ok, .badParam)])
    (fun s =>
      let s :=
        if channel = 0xFF then
          let s := setShadow (setShadow (setShadow s 12 DDR_CFG 31 24 scrubHours) 12 DDR_CFG 16 16 map) 12 DDR_CFG 15 0 ageNs
          setShadow (setShadow (setShadow s 12 DDR_RD_CFG 15 0 actLimit) 12 SRAM_CFG 23 16 thresh) 12 SRAM_CFG 15 0 scrubMs
        else
          let a := DDR_CH_CFG channel
          if type = 0 then setShadow s 12 a 13 12 0
          else
            let s := setShadow (setShadow (setShadow s 12 a 31 16 rate) 12 a 13 12 type) 12 a 9 9 module_
            let w := if width = 4 then 0 else if width = 8 then 1 else 2
            setShadow (setShadow (setShadow s 12 a 8 8 (ranks - 1)) 12 a 7 6 w) 12 a 5 0 density
      complete s h 0x0902 .ok 0 0 0 0)

/-! ### COMMIT of group DDR -/

/-- A channel's TYPE, RATE or geometry changes between `s` and `n`. -/
def chChanges (s n : State) (c : Nat) : Bool := rd s (DDR_CH_CFG c) != rd n (DDR_CH_CFG c)

/-- A BULK collector region of this device lies in DRAM channel `c` (R441, R487): 32 slices from its base. -/
def bulkIn (s : State) (c : Nat) : Bool :=
  flag s FAB_BULK_CFG 30 &&
  (let a := rd64 s FAB_BULK_BASE_LO FAB_BULK_BASE_HI
   let n := 32 * 2 ^ fld s FAB_BULK_CFG 4 0
   flag s DDR_STS 0 || chanOf s a == c || chanOf s (a + n - 1) == c)

/-- The checks of group DDR (R487) on the present state `s` and the state `n` that the commit would make. -/
def ddrChecks (s n : State) : List (Nat × Bool) :=
  let chans := List.range 2
  let geo (c : Nat) : Bool :=
    chType n c == 0 ||
    ((ratesOf (chType n c)).contains (fld n (DDR_CH_CFG c) 31 16) &&
     (densitiesOf (chType n c)).contains (fld n (DDR_CH_CFG c) 5 0) && decide (fld n (DDR_CH_CFG c) 7 6 < 3) &&
     (fld n (DDR_CH_CFG c) 7 6 != 0 || flag n (DDR_CH_CFG c) 9) && decide (cfgMib n c ≤ 32768))
  let ready (c : Nat) : Bool := !chChanges s n c && (chState s c == chReadySt || chState s c == chTrained)
  let mapChg := flag s DDR_CFG 16 != flag n DDR_CFG 16
  [(0x0D01, chans.all geo),
   (0x0D02, !flag n DDR_CFG 16 || (chans.all ready && chCap s 0 == chCap s 1)),
   (0x0D03, decide (250 ≤ fld n DDR_CFG 15 0) && decide (512 ≤ fld n DDR_RD_CFG 15 0) && decide (1 ≤ fld n DDR_CFG 31 24) &&
     decide (1 ≤ fld n SRAM_CFG 23 16) && decide (100 ≤ fld n SRAM_CFG 15 0) && decide (fld n SRAM_CFG 15 0 ≤ 60000)),
   (0x0D04, chans.all (fun c => !(chChanges s n c || mapChg) || (s.seq.job.isNone && !bulkIn s c))),
   (0x0D05, chans.all (fun c => !(chState s c == chTrained && chChanges s n c))),
   (0x0D06, chans.all (fun c => !(chChanges s n c && (chState s c == chTraining || chState s c == chSelfRefresh))))]

/-- What group DDR changes beyond its fields when it takes effect (R473): `old` is the state before. -/
def ddrTake (old s : State) : State :=
  let hit (c : Nat) : Bool := chChanges old s c || (chState s c == chUnconfigured && chType s c != 0)
  let t := (List.range 2).foldl (fun t c =>
    if hit c then
      let t := setFlag (setDramCh t c { DramCh.reset with window := t.freeCtr }) (DDR_CH_TRAIN c) 31 false
      if chType s c = 0 then wrN (setChState t c chUnconfigured) (DDR_CH_CAP c) 0
      else wrN (setChState t c chConfigured) (DDR_CH_CAP c) (cfgMib s c)
    else if chState s c = chTrained then setFlag (setChState t c chReadySt) (DDR_CH_TRAIN c) 31 false
    else t) s
  let t := followMap s (setFlag t DDR_STS 0 (flag s DDR_CFG 16))
  (List.range 2).foldl (fun t c => if hit c then throttleShow (loseChannel t c) c else t) t

/-! ### Addresses (R477) -/

/-- Channel address of a device address (R476). -/
def chanAddr (s : State) (a : Nat) : Nat :=
  if flag s DDR_STS 0 then a / 8192 * 4096 + a % 4096
  else if a < chCap s 0 then a else a - chCap s 0

/-- Widths in bits of the fields of R477: subchannel, bank group, column above the burst, bank, rank. -/
def addrBits (s : State) (c : Nat) : Nat × Nat × Nat × Nat × Nat :=
  let x16 := fld s (DDR_CH_CFG c) 7 6 == 2
  let rank := fld s (DDR_CH_CFG c) 8 8
  if chType s c = 2 then
    (1, if x16 then 2 else 3, 6, if x16 && fld s (DDR_CH_CFG c) 5 0 == 16 then 1 else 2, rank)
  else (0, if x16 then 1 else 2, 7, 2, rank)

/-- Where an address lies: subchannel, bank group, bank, rank and row. -/
structure DramPos where
  sub : Nat
  bg : Nat
  bank : Nat
  rank : Nat
  row : Nat
  deriving DecidableEq, Repr

/-- The position of a device address in its channel (R477). -/
def dramPos (s : State) (c a : Nat) : DramPos :=
  let (sb, bb, cb, kb, rb) := addrBits s c
  let x := chanAddr s a / 64
  let x1 := x / 2 ^ sb
  let x2 := x1 / 2 ^ bb / 2 ^ cb
  let x3 := x2 / 2 ^ kb
  ⟨x % 2 ^ sb, x1 % 2 ^ bb, x2 % 2 ^ kb, x3 % 2 ^ rb, x3 / 2 ^ rb⟩

/-- A bank's key within its channel: bank in bits 1:0, group in 4:2, subchannel in 5, rank in 6. -/
def DramPos.key (p : DramPos) : Nat := p.bank + 4 * p.bg + 32 * p.sub + 64 * p.rank

/-! ### ECC (R483, R485) -/

/-- The requester meets uncorrectable data at `a` (R485). -/
def uncorrectable (s : State) (who : Requester) (a : Nat) : State :=
  match who with
  | .refill n => updLane s n (fun l => { l with refillBad := true })
  | .burn q i => { s with burnBad := (q, i) :: s.burnBad }
  | .load => { s with seq := { s.seq with loadBad := true } }
  | .codec g =>
    if codecRuns s g then jobBreak s g .dmaError else s
  | .dma _ => busErr s 4 1 a
  | .conductor op => finishAll s op 0 .dataCrc 0 0 0 0
  | _ => s

/-- A read of channel `c` at `a` finds an ECC error: 0 none, 1 correctable, 2 uncorrectable (R483). -/
def eccCheck (s : State) (c a ecc : Nat) (who : Requester) : State :=
  if ecc = 1 then wr64 (satInc s (DDR_CH_ECC_CORR c)) (DDR_CH_CE_ADDR_LO c) (DDR_CH_CE_ADDR_HI c) a
  else if ecc = 2 then
    let s := satInc s (DDR_CH_ECC_UNCORR c)
    let s := if flag s (DDR_CH_UE_ADDR_HI c) 31 then s
             else setFlag (setFld (wrN s (DDR_CH_UE_ADDR_LO c) a) (DDR_CH_UE_ADDR_HI c) 3 0 (a / 2 ^ 32))
               (DDR_CH_UE_ADDR_HI c) 31 true
    uncorrectable (event s (srcDdr c) 0x1803 []) who a
  else s

/-! ### The choice of requests (R479, R481, R482) -/

/-- A request misses the open row of its bank. -/
def rowMiss (s : State) (c : Nat) (r : DramReq) : Bool :=
  let p := dramPos s c r.addr
  !(dramCh s c).openRows.any (fun b => b.1 == p.key && b.2 == p.row)

/-- A throttle holds a request back: it needs an activation of a bank on which its port issued one less than 1 µs ago
(R482). -/
def heldBack (s : State) (c : Nat) (r : DramReq) : Bool :=
  rowMiss s c r &&
  (dramCh s c).throttles.any (fun t => t.bank == (dramPos s c r.addr).key && t.port == r.port && decide (now s < t.until_) &&
    (match t.lastAct with
     | some x => decide (now s < x + 1000)
     | none => false))

/-- An earlier request of the same port to the same 64-byte burst waits: the two complete in order (R479). -/
def behind (d : DramCh) (i : Nat) (r : DramReq) : Bool :=
  (d.reqs.take i).any (fun q => q.port == r.port && q.addr / 64 == r.addr / 64)

/-- The best of some requests (R479): a promoted one before any other, oldest first; then the lowest class; within it one
that 16 row hits have passed, then a row hit, then the oldest. The list is in order of arrival. -/
def bestReq (s : State) (c : Nat) (rs : List DramReq) : Option DramReq :=
  match rs.find? (fun r => decide (fld s DDR_CFG 15 0 < now s - r.entered)) with
  | some r => some r
  | none =>
    match (List.range 8).find? (fun p => rs.any (fun r => r.port == p)) with
    | none => none
    | some p =>
      let cls := rs.filter (fun r => r.port == p)
      match cls.find? (fun r => decide (16 ≤ r.passed)) with
      | some r => some r
      | none =>
        match cls.find? (fun r => !rowMiss s c r) with
        | some r => some r
        | none => cls.head?

/-- A row of channel `c` is flagged for its window (R482): the port with the most activations is throttled on the bank for
1 ms, and the first flag is recorded. -/
def flagRow (s : State) (c : Nat) (p : DramPos) (n : RowCount) : State :=
  let port := (n.ports.foldl (fun b x => if b.2 < x.2 || (b.2 == x.2 && b.1 < x.1) then x else b) (0, 0)).1
  let d := dramCh s c
  let cnt := sumN (n.ports.map (·.2))
  let s := setDramCh s c { d with
    counts := d.counts.map (fun r => if r.bank == n.bank && r.row == n.row then { r with flagged := some port } else r)
    throttles := d.throttles ++ [⟨p.key, p.row, port, now s + 1000000, some (now s)⟩] }
  event (throttleShow (satInc s DDR_THROTTLES) c) (srcDdr c) 0x1802
    (leBytes 1 c ++ leBytes 1 p.rank ++ leBytes 1 p.sub ++ leBytes 1 (p.bank + 4 * p.bg) ++ leBytes 4 p.row ++
     leBytes 1 port ++ leBytes 4 cnt)

/-- An activation of a row by a port (R481, R482). The count at which the tracker flags a row is a free value within the
bounds of R481. -/
def activate (s : State) (c : Nat) (p : DramPos) (port : Nat) : State :=
  let d := dramCh s c
  let old := (d.counts.find? (fun r => r.bank == p.key && r.row == p.row)).getD ⟨p.key, p.row, [], none⟩
  let n : RowCount := { old with ports := mupd 0 old.ports port (· + 1) }
  let rest := d.counts.filter (fun r => !(r.bank == p.key && r.row == p.row))
  let s := setDramCh s c { d with
    counts := rest ++ [n], openRows := mset d.openRows p.key p.row
    throttles := d.throttles.map (fun t => if t.bank == p.key && t.port == port then { t with lastAct := some (now s) } else t) }
  let lim := fld s DDR_RD_CFG 15 0
  let lo := cdiv (lim * 7) 8
  let at_ := lo + Config.freeNat (d.window * 2 ^ 48 + p.key * 2 ^ 40 + p.row) % (lim - lo + 1)
  match n.flagged with
  | none => if at_ ≤ sumN (n.ports.map (·.2)) then flagRow s c p n else s
  | some q =>
    if q = port && !(dramCh s c).throttles.any (fun t => t.bank == p.key && t.row == p.row && t.port == port && decide (now s < t.until_)) then
      let d := dramCh s c
      throttleShow (satInc (setDramCh s c { d with throttles := d.throttles ++ [⟨p.key, p.row, port, now s + 1000000, some (now s)⟩] })
        DDR_THROTTLES) c
    else s

/-- The port of a request (R478). A maintenance access uses none. -/
def portOf (who : Requester) (isWrite : Bool) : Option Nat :=
  match who with
  | .refill _ => some 0
  | .burn _ _ => some 0
  | .image => some (if isWrite then 1 else 2)
  | .load => some 3
  | .codec _ => some 3
  | .dma _ => some 4
  | .bar2 => some 4
  | .conductor _ => some 5
  | .fabric => some 6
  | .recording => some 7
  | .scrub => none
  | .aperture => none

/-- A request that arrives on its requester's port: a write is visible to every port at once, and a read of an address held in the write
queue is answered from it (R478, R479). At most 64 reads and 64 writes are in flight; one more waits outside. -/
def arrive (s : State) (c : Nat) (q : DramAsk) : State :=
  let d := dramCh s c
  let same := d.reqs.filter (fun r => r.isWrite == q.isWrite)
  if 64 ≤ same.length || chanOf s q.addr ≠ c || portOf q.who q.isWrite ≠ some q.port then s
  else
    let s := if q.isWrite then putDram s q.addr q.data else s
    if !q.isWrite && d.reqs.any (fun r => r.isWrite && r.addr / 64 == q.addr / 64) then s
    else setDramCh s c { d with reqs := d.reqs ++ [⟨q.port, q.isWrite, q.addr, now s, 0, q.who⟩] }

/-- DRAM_REQUEST (R479): the requests `asks` arrive at channel `c`, which then issues the one that the rules choose;
`blocked` names the positions of requests that the memory's own timing holds back, and `ecc` what the read finds. Writes
go in batches; how long a batch goes on below 48 writes is a free value (assumption 14). A channel that is not READY
answers every request as uncorrectable (R473). -/
def execDramRequest (c : Nat) (asks : List DramAsk) (blocked : List Nat) (ecc : Nat) (s : State) :
    Host.Outcome State Fault Refusal :=
  whileClocked s fun s =>
  if !chReady s c then
      asks.foldl (fun s q => if q.isWrite then s else uncorrectable s q.who q.addr) s
    else
      let s := asks.foldl (fun s q => arrive s c q) s
      let d := dramCh s c
      let ix := d.reqs.zip (List.range d.reqs.length)
      let can := (ix.filter (fun p => !blocked.contains p.2 && !heldBack s c p.1 && !behind d p.2 p.1)).map (·.1)
      let reads := can.filter (fun r => !r.isWrite)
      let writes := can.filter (fun r => r.isWrite)
      let queued := (d.reqs.filter (fun r => r.isWrite)).length
      let drain := decide (48 ≤ queued) || reads.isEmpty || (d.draining && queued != 0 && Config.freeBit s.freeCtr)
      let s := if d.draining then tick1 s else s
      match bestReq s c (if drain && !writes.isEmpty then writes else reads) with
      | none => s
      | some r =>
        let d := dramCh s c
        let miss := rowMiss s c r
        let before := d.reqs.takeWhile (· ≠ r)
        let rest := (d.reqs.dropWhile (· ≠ r)).drop 1
        let before := if miss then before else before.map (fun x => if x.port == r.port then { x with passed := x.passed + 1 } else x)
        let s := setDramCh s c { d with reqs := before ++ rest, draining := drain && r.isWrite }
        let s := if miss then activate s c (dramPos s c r.addr) r.port else s
        if r.isWrite then s else eccCheck s c r.addr ecc r.who

/-- THROTTLE_EXPIRY (R482): the throttles of channel `c` whose 1 ms has passed end. -/
def execThrottleExpiry (c : Nat) (s : State) : Host.Outcome State Fault Refusal :=
  whileClocked s fun s =>
  let d := dramCh s c
  throttleShow (setDramCh s c { d with throttles := d.throttles.filter (fun t => decide (now s < t.until_)) }) c

/-- DISTURB_WINDOW (R481): after 32 ms a new window of channel `c` starts with cleared counts and flags. -/
def execDisturbWindow (c : Nat) (s : State) : Host.Outcome State Fault Refusal :=
  whileClocked s fun s =>
  let d := dramCh s c
  if reached s (d.winAt + 32000000) then
    tick1 (throttleShow (setDramCh s c { d with counts := [], throttles := [], window := s.freeCtr, winAt := now s }) c)
  else s

/-- REFRESH (R480): a refresh of channel `c` falls due. It is postponed while requests of class 0 wait, up to the
standard's limit of 8 on DDR4 and 4 on DDR5 (assumption 15); else every refresh owed is issued, and the rows of the
refreshed banks close: all banks on DDR4, the bank number `bank` of every group on DDR5. -/
def execRefresh (c bank : Nat) (s : State) : Host.Outcome State Fault Refusal :=
  whileClocked s fun s =>
  let d := dramCh s c
  let lim := if chType s c = 1 then 8 else 4
  let waits := d.reqs.any (fun r => r.port == 0 || decide (fld s DDR_CFG 15 0 < now s - r.entered))
  if !chReady s c then s
    else if waits && d.owed < lim then setDramCh s c { d with owed := d.owed + 1 }
    else setDramCh s c { d with owed := 0, openRows := if chType s c = 1 then []
                                                        else d.openRows.filter (fun b => b.1 % 4 != bank) }

/-- DRAM_TEMP_READ (R480): each rank's temperature of channel `c` is read; `hot` has bit r set for a rank above 85 °C. A
change of a rank's refresh rate is recorded. -/
def execDramTempRead (c hot : Nat) (s : State) : Host.Outcome State Fault Refusal :=
  whileClocked s fun s =>
  if !chReady s c then s
    else
      let ranks := List.range (fld s (DDR_CH_CFG c) 8 8 + 1)
      let s := ranks.foldl (fun s r =>
        let was := fld s (DDR_CH_TEMP c) (2 * r + 1) (2 * r)
        let is := b2n (hot.testBit r)
        let s := setFld s (DDR_CH_TEMP c) (2 * r + 1) (2 * r) is
        if (was == 1) == (is == 1) then s
        else event s (srcDdr c) 0x1801 (leBytes 1 c ++ leBytes 1 r)) s
      setFlag s DDR_STS (8 + c) (ranks.any (fun r => hot.testBit r))

/-- ZQ_CALIBRATION (R474): maintenance of a READY channel, which changes nothing that the device shows. -/
def execZqCalibration (_c : Nat) (s : State) : Host.Outcome State Fault Refusal :=
  whileClocked s fun s =>
  s

/-- PATROL_SCRUB (R484): the next burst of a READY channel is read and corrected in place (R483). -/
def execPatrolScrub (c ecc : Nat) (s : State) : Host.Outcome State Fault Refusal :=
  whileClocked s fun s =>
  if !chReady s c then s
    else
      let d := dramCh s c
      let x := d.scrubAt
      let a := if flag s DDR_STS 0 then
          let b := x / 4096
          let hi := 2 * b
          (if (hi * 4096).testBit 21 == (c == 1) then hi else hi + 1) * 4096 + x % 4096
        else (if c = 0 then x else chCap s 0 + x)
      let s := setDramCh s c { d with scrubAt := if x + 64 < chCap s c then x + 64 else 0 }
      eccCheck s c a ecc .scrub

end Sys2Proof.Machine
end

