-- ==== Sys2Proof/Machine/Recorder.lean ====
section
/-!
DEFINITION. The event recorder (R565 to R568), the black box and the tick trace (R569 to R572), and the commands over the
fault table (R555, R556, R560).
-/

namespace Sys2Proof.Machine

/-! ### The retained region -/

/-- SRAM offsets of R566 and R569. -/
def mainRing : Nat := 0x1700000
def blackBox : Nat := 0x1F80000
def tickTrace : Nat := 0x1FC0000
def retHeader : Nat := 0x1FF0000

/-- Bytes written to the retained region; the words they cover are whole again. -/
def putRet (s : State) (a : Nat) (bs : List Byte) : State :=
  putSram { s with evr := { s.evr with bad := s.evr.bad.filter (fun w => !(decide (a ≤ w + 7) && decide (w < a + bs.length))) } } a bs

/-- A field of the retained header written, and its CRC renewed (R571). -/
def putHeader (s : State) (off : Nat) (bs : List Byte) : State :=
  let s := putRet s (retHeader + off) bs
  putRet s (retHeader + 60) (leBytes 4 (crc32c (sramBytes s retHeader 60)))

/-- A field of the retained header. -/
def headerAt (s : State) (off k : Nat) : Nat := leNat (sramBytes s (retHeader + off) k)

/-- A record written to the black box at its slot (R569), and the header's newest SEQ and count (R571). -/
def putBlackBox (s : State) (seq : Nat) (bs : List Byte) : State :=
  let s := putRet s (blackBox + seq % 8192 * 32) bs
  putHeader (putHeader s 8 (leBytes 4 seq)) 44 (leBytes 4 (satN 8192 (headerAt s 44 4 + 1)))

/-- The ROM fills the retained region with zero and writes a new header; RETAINED_VALID sets (R569, R94). -/
def retainedInit (s : State) : State :=
  let s := { s with sram := s.sram.filter (fun c => decide (c.1 < blackBox)), evr := { s.evr with bad := [] }
                    sramLost := s.sramLost.map (fun l => { l with hi := if blackBox < l.hi then blackBox else l.hi }) }
  let s := putHeader (putHeader s 0 (leBytes 4 0x58424B42)) 4 (leBytes 4 s.pwr.aonCount)
  setFlag s PWR_RESET_CAUSE 0 true

/-! ### Main ring (R566 to R568) -/

/-- The ring is frozen. -/
def ringFrozen (s : State) : Bool := flag s EVR_STS 0

/-- A record written to the next slot of the main ring. -/
def putRing (s : State) (bs : List Byte) : State :=
  let i := fld s EVR_NEXT 15 0
  setFld (putSram s (mainRing + i * 32) bs) EVR_NEXT 15 0 ((i + 1) % 65536)

/-- An EVENTS_LOST record with the next SEQ and the lost count, which returns to 0 (R565). -/
def lostRecord (s : State) : State × EvRec :=
  let e : EvRec := ⟨now s, srcDevice, 0x1A01, rdN s EVR_SEQ, padTo 14 (leBytes 4 (rdN s EVR_LOST))⟩
  (wrN (bump s EVR_SEQ) EVR_LOST 0, e)

/-- EVENT_DRAIN: the FIFO drains one record into the black box and, unless it is frozen, the main ring (R566, R568). After a
thaw the EVENTS_LOST record comes first; after an overflow it is accepted when the FIFO has room (R565). -/
def execEventDrain (s : State) : Host.Outcome State Fault Refusal :=
  whileClocked s fun s =>
  if s.evr.thawLost && !ringFrozen s then
      let (s, e) := lostRecord { s with evr := { s.evr with thawLost := false } }
      putRing (putBlackBox s e.seq e.bytes) e.bytes
    else
      match s.evr.fifo with
      | [] => s
      | e :: rest =>
        let s := setFld { s with evr := { s.evr with fifo := rest } } EVR_STS 23 16 rest.length
        let s := putBlackBox s e.seq e.bytes
        if ringFrozen s then bump s EVR_LOST
        else
          let s := putRing s e.bytes
          if rdN s EVR_LOST = 0 then s
          else
            let (s, l) := lostRecord s
            setFld { s with evr := { s.evr with fifo := s.evr.fifo ++ [l] } } EVR_STS 23 16 (s.evr.fifo.length + 1)

/-- A read of word `w` of the window; the last word of record 63 advances the cursor by 64 with AUTO_INC (R567). -/
def evrWinRead (s : State) (w : Nat) : State × Nat :=
  let i := fld s EVR_CURSOR 15 0
  let v := leNat (sramBytes s (mainRing + (i + w / 8) % 65536 * 32 + w % 8 * 4) 4)
  (if w = 511 && flag s EVR_CURSOR 31 then setFld s EVR_CURSOR 15 0 ((i + 64) % 65536) else s, v)

/-- EVR_WINDOW_READ (R567). -/
def execEvrWindowRead (w : Nat) (s : State) : Host.Outcome State Fault Refusal :=
  whileClocked s fun s =>
  let (s, v) := evrWinRead s w
  { s with readData := v }

/-- RECORDER_FREEZE (R568). -/
def execRecorderFreeze (h : Issue) (s : State) : Host.Outcome State Fault Refusal :=
  whileClocked s fun s =>
  hostCmd s h (.recorderFreeze h) 0x0B03 48 (fun _ => [])
    (fun s => complete (setFlag s EVR_STS 0 true) h 0x0B03 .ok (fld s EVR_NEXT 15 0) 0 0 0)

/-- RECORDER_THAW (R568): writing resumes, beginning with EVENTS_LOST when events were lost. -/
def execRecorderThaw (h : Issue) (s : State) : Host.Outcome State Fault Refusal :=
  whileClocked s fun s =>
  hostCmd s h (.recorderThaw h) 0x0B04 48 (fun _ => [])
    (fun s =>
      let lost := ringFrozen s && rdN s EVR_LOST != 0
      let s := { setFlag s EVR_STS 0 false with evr := { s.evr with thawLost := s.evr.thawLost || lost } }
      complete s h 0x0B04 .ok (fld s EVR_NEXT 15 0) 0 0 0)

/-! ### BLACKBOX_READ (R572) -/

/-- The record or entry at `a` is damaged: an uncorrectable word (R491). -/
def retDamaged (s : State) (a : Nat) : Bool := s.evr.bad.any (fun w => decide (a ≤ w + 7) && decide (w < a + 32))

/-- A record of the black box fails its CRC or ECC. -/
def recordBad (s : State) (a : Nat) : Bool :=
  retDamaged s a || leNat (sramBytes s (a + 30) 2) != crc16 (sramBytes s a 30)

/-- The tick after the one whose trace entry was written last: that after the freeze, else the one that begins now. -/
def traceTick (s : State) : Nat := if flag s EVR_STS 1 then headerAt s 16 8 + 1 else tickNo s

/-- BLACKBOX_READ (R572). -/
def execBlackboxRead (h : Issue) (op count lanes addr : Nat) (s : State) : Host.Outcome State Fault Refusal :=
  whileClocked s fun s =>
  hostCmd s h (.blackboxRead h op count lanes addr) 0x0B07 48
    (fun s => [(decide (op < 4) && hostAddrOk h addr 32 &&
                (if op = 0 then decide (1 ≤ count) && decide (count ≤ 8192) else count == 0) &&
                (if op = 1 then lanes != 0 && decide (lanes < 2 ^ 24) else lanes == 0), .badParam),
               (op != 2 || !faultAtLeast s clsDevice, .faultActive)])
    (fun s =>
      if op = 0 then
        let k := satN (headerAt s 44 4) count
        let newest := headerAt s 8 4
        let slots := (List.range k).map (fun i => blackBox + (newest + 8192 - i) % 8192 * 32)
        let bs := slots.flatMap (fun a => sramBytes s a 32)
        complete (hostResult s addr bs) h 0x0B07 .ok bs.length (slots.filter (recordBad s)).length 0 0
      else if op = 1 then
        let k := traceTick s
        let slots := (bitList lanes 24).flatMap (fun l =>
          (List.range 256).map (fun i => tickTrace + l * 0x2000 + (k + i) % 256 * 32))
        let bs := slots.flatMap (fun a => sramBytes s a 32)
        complete (hostResult s addr bs) h 0x0B07 .ok bs.length (slots.filter (retDamaged s)).length 0 0
      else if op = 2 then
        let s := putHeader (setFlag s EVR_STS 1 false) 12 [0]
        complete { s with evr := { s.evr with freezeNow := none } } h 0x0B07 .ok 0 0 0 0
      else
        let bs := sramBytes s retHeader 64
        let ok := headerAt s 60 4 == crc32c (sramBytes s retHeader 60) && !retDamaged s retHeader && !retDamaged s (retHeader + 32)
        complete (hostResult s addr bs) h 0x0B07 (if ok then .ok else .dataCrc) 64 (b2n (!ok)) 0 0)

/-! ### Fault commands (R560) -/

/-- The 16 bytes of entry `i`. -/
def entryBytes (s : State) (i : Nat) : List Byte :=
  leBytes 4 (rdN s (FLT_ENTRY_W0 i)) ++ leBytes 4 (rdN s (FLT_ENTRY_W1 i)) ++ leBytes 4 (rdN s (FLT_ENTRY_TIME_LO i)) ++
  leBytes 4 (rdN s (FLT_ENTRY_TIME_HI i))

/-- FAULT_READ (R560). -/
def execFaultRead (h : Issue) (addr : Nat) (s : State) : Host.Outcome State Fault Refusal :=
  whileClocked s fun s =>
  hostCmd s h (.faultRead h addr) 0x0B01 48 (fun _ => [(hostAddrOk h addr 16, .badParam)])
    (fun s => complete (hostResult s addr (fltIx.flatMap (entryBytes s))) h 0x0B01 .ok (rdN s FLT_STS) 0 0 0)

/-- State of entry `i`: 0 free, 1 ACTIVE, 2 GONE. -/
def entrySt (s : State) (i : Nat) : Nat := fld s (FLT_ENTRY_W0 i) 31 30

/-- An entry freed; FAULT_CLEARED is recorded with its code (R563). -/
def freeEntry (s : State) (i : Nat) : State :=
  let code := fld s (FLT_ENTRY_W0 i) 15 0
  let src := fld s (FLT_ENTRY_W1 i) 15 0
  let s := wrN (wrN s (FLT_ENTRY_W0 i) 0) (FLT_ENTRY_W1 i) 0
  event (wr64 s (FLT_ENTRY_TIME_LO i) (FLT_ENTRY_TIME_HI i) 0) src 0x1A05 (leBytes 2 code)

/-- FAULT_CLEAR (R555, R556, R560, R579). A named entry that is free already is neither freed nor counted as not freed. -/
def execFaultClear (h : Issue) (op code source mask : Nat) (s : State) : Host.Outcome State Fault Refusal :=
  whileClocked s fun s =>
  hostCmd s h (.faultClear h op code source mask) 0x0B02 48
    (fun _ => [(decide (op < 3) && (op == 0 || mask == 0) && (op == 1 || (code == 0 && source == 0)), .badParam)])
    (fun s =>
      let named := fltIx.filter (fun i => entrySt s i != 0 &&
        (if op = 0 then mask.testBit i
         else if op = 1 then fld s (FLT_ENTRY_W0 i) 15 0 == code && fld s (FLT_ENTRY_W1 i) 15 0 == source
         else entrySt s i == 2))
      let fatal (i : Nat) : Bool := fld s (FLT_ENTRY_W0 i) 29 27 == clsFatal
      let gone := named.filter (fun i => entrySt s i == 2 && !fatal i)
      let kept := named.filter (fun i => !(entrySt s i == 2 && !fatal i))
      let loose := if op = 2 then (s.evr.loose.filter (fun f => f.gone && f.cls != clsFatal)) else []
      let st := if kept.any fatal then Status.faultActive else if kept.isEmpty then .ok else .wrongState
      let s := gone.foldl freeEntry s
      let s := { s with evr := { s.evr with loose := if op = 2 then s.evr.loose.filter (fun f => !(f.gone && f.cls != clsFatal)) else s.evr.loose } }
      let s := leaveSafe (fltShow s)
      let m := kept.foldl natSet 0
      complete s h 0x0B02 st (gone.length + loose.length) (m % 2 ^ 32) (m / 2 ^ 32) 0)

/-- Whether the state still shows a fault's condition, for the faults of R557 whose condition the state holds. -/
def conditionHolds (s : State) (code source : Nat) : Bool :=
  let n := source % 0x1000
  let up := fld s (SCN_STS n) 1 0 == 2
  if code = 0x0101 || code = 0x010D then flag s TOP_ENGINE_STS (fld s (TOP_ENGINE_MAP n) 4 0)
  else if code = 0x0103 then !laneAtRest s n
  else if code = 0x0106 then !(up && flag s (SCN_STS n) 5)
  else if code = 0x0107 then !up
  else if code = 0x0109 then !(flag s (SCN_STS n) 5 && !flag s (SCN_STS n) 6)
  else if code = 0x010A then flag s (LAS_STS n) 2
  else if code = 0x010B then !flag s (LAS_STS n) 3
  else if code = 0x0201 then flag s THM_STS 6
  else if code = 0x0202 then !s.pins.interlockN || flag s LEDG_SHUTTER 31
  else decide (0x0302 ≤ code) && code != 0x0304

/-- FAULT_CONDITION_GONE: the condition of a fault goes and its entry passes to GONE (R555), unless the state shows that
it still holds. For SUPPLY_UV the command says that every rail has been above its threshold for 1 ms (R557). -/
def execFaultConditionGone (code source : Nat) (s : State) : Host.Outcome State Fault Refusal :=
  whileClocked s fun s =>
  let s := if code = 0x0301 then { s with pwr := { s.pwr with uvRails := 0 } } else s
  if conditionHolds s code source then s else fltShow (faultGone s code source)

/-- RECOVERY_TIMER: the timer that a fault of class `cls` from `source` started expires, when its time has passed (R552,
R553). If it was not met, the fault of the next class is raised and joins the recovery. -/
def execRecoveryTimer (cls source : Nat) (s : State) : Host.Outcome State Fault Refusal :=
  whileClocked s fun s =>
  let s := settle s
  if !s.evr.recov.any (fun r => r.timers.any (fun t => t.cls == cls && t.source == source && reached s t.due)) then s
    else
      let drop (r : Recovery) : Recovery :=
        { r with timers := r.timers.filter (fun t => !(t.cls == cls && t.source == source && reached s t.due)) }
      let s := { s with evr := { s.evr with recov := s.evr.recov.map drop } }
      if cls = clsLane then raiseOnce s clsLayer 0x0204 source []
      else if cls = clsLayer then raiseOnce s clsDevice 0x0304 srcDevice []
      else raiseFault s clsFatal 0x0402 srcDevice []

end Sys2Proof.Machine
end

