-- ==== Sys2Proof/Machine/Repair.lean ====
section
/-!
DEFINITION. Lane-engine spares (R573 to R576), repair scan and fixing (R577, R578), and scrub and repair of the on-chip SRAM
(R488 to R491).
-/

namespace Sys2Proof.Machine

/-! ### Engines -/

/-- The lane that engine `e` runs. -/
def laneOn (s : State) (e : Nat) : Option Nat := lanes24.find? (fun n => engineOf s n == e)

/-- Engine `e` is FAILED. -/
def engineFailed (s : State) (e : Nat) : Bool := flag s TOP_ENGINE_STS e

/-- Engine `e` marked FAILED (R573). -/
def failEngine (s : State) (e : Nat) : State := setFlag s TOP_ENGINE_STS e true

/-- SRAM offsets of an engine's latent image buffer and enlarger map (R46). -/
def imageSlot (e : Nat) : Nat := e * 0x80000
def mapSlot (e : Nat) : Nat := 0x1CE0000 + e * 0x10000

/-- Lane `n` moves to engine `e` (R29), which LN_STS shows (R202): its enlarger map is copied, and its latent image buffer starts
empty. -/
def moveLane (s : State) (n e : Nat) : State :=
  let s := if flag s (SCN_STS n) 10 then putSram s (mapSlot e) (sramBytes s (mapSlot (engineOf s n)) 0x10000) else s
  let s := updLane s n (fun l => { l with written := 0, head := 0 })
  setFld (setFld s (TOP_ENGINE_MAP n) 4 0 e) (LN_STS n) 31 27 e

/-- LANE_ENGINE_MAP (R575). -/
def execLaneEngineMap (h : Issue) (op lane_ engine value : Nat) (s : State) : Host.Outcome State Fault Refusal :=
  whileClocked s fun s =>
  hostCmd s h (.laneEngineMap h op lane_ engine value) 0x0206 48
    (fun s =>
      [((op == 0 && decide (lane_ < 24) && decide (engine < 26) && value == 0) ||
        (op == 1 && decide (value < 2) && lane_ == 0 && engine == 0) ||
        (op == 2 && decide (engine < 26) && lane_ == 0 && value == 0), .badParam),
       (op == 1 || !inLayer s, .wrongState),
       (op != 0 || laneOn s engine == none || laneOn s engine == some lane_, .busy),
       (op != 0 || !engineFailed s engine, .cfgRejected), (op != 2 || !flag s TOP_ENGINE_CFG engine, .cfgRejected)])
    (fun s =>
      let s := if op = 0 then (if engineOf s lane_ = engine then s else moveLane s lane_ engine)
               else if op = 1 then setFlag s TOP_ENGINE_CFG 31 (value == 1)
               else setFlag s TOP_ENGINE_STS engine false
      complete s h 0x0206 .ok (rdN s TOP_ENGINE_STS) (rdN s TOP_ENGINE_CFG) 0 0)

/-- Each lane on an engine of `bad` moves to the lowest unassigned engine that is not FAILED (R574). -/
def remap (s : State) (bad : State → Nat → Bool) : State :=
  lanes24.foldl (fun s n =>
    let e := engineOf s n
    if !bad s e then s
    else
      match (List.range 26).find? (fun x => laneOn s x == none && !engineFailed s x) with
      | none => s
      | some x => event (moveLane s n x) (srcLane n) 0x1A03 (leBytes 4 (laneVid s n) ++ leBytes 1 n ++ leBytes 1 e ++ leBytes 1 x)) s

/-- ENGINE_REMAP: with AUTO set, in a quiet layer state (R574). -/
def execEngineRemap (s : State) : Host.Outcome State Fault Refusal :=
  whileClocked s fun s =>
  if flag s TOP_ENGINE_CFG 31 && quietLayer s then remap s engineFailed else s

/-! ### Spares of SRAM macros -/

/-- A fuse repair entry of KIND 0 or 1 (R577): macro, spare and failing row or column. -/
def fuseWord (m kind spare failing : Nat) : Nat := 2 ^ 31 + kind * 2 ^ 28 + m * 2 ^ 16 + spare * 2 ^ 12 + failing

/-- A spare of macro `m` assigned to a failing row or column; the macro's failures may exceed its spares (R489). -/
def assignSpare (s : State) (f : Nat × Bool × Nat) : State :=
  let (m, col, x) := f
  let a := SRAM_MACRO m
  let used := if col then fld s a 27 26 else fld s a 25 23
  if used < (if col then 2 else 4) then
    let s := if col then setFld s a 27 26 (used + 1) else setFld s a 25 23 (used + 1)
    let s := { s with evr := { s.evr with soft := s.evr.soft ++ [fuseWord m (b2n col) used x] } }
    if !col && used = 3 then setFld s SRAM_STS 31 16 (fld s SRAM_STS 31 16 + 1) else s
  else event s (srcMacro m) 0x1804 []

/-- The failure `f` found no spare. -/
def spareShort (s : State) (f : Nat × Bool × Nat) : Bool :=
  if f.2.1 then fld s (SRAM_MACRO f.1) 27 26 == 2 else fld s (SRAM_MACRO f.1) 25 23 == 4

/-- REPAIR_SCAN (R578). `fails` are the failing rows and columns that the march finds (macro, column, index), `tests` the
engines that fail their self-test, and `stop` the bank group at which a later grant is refused. -/
def execRepairScan (h : Issue) (banks engines : Nat) (fails : List (Nat × Bool × Nat)) (tests : Nat) (stop : Option Nat)
    (s : State) : Host.Outcome State Fault Refusal :=
  whileClocked s fun s =>
  hostCmd s h (.repairScan h banks engines fails tests stop) 0x0B05 48
    (fun s => [(decide (engines < 2 ^ 26), .badParam), (!inLayer s, .wrongState), (banks == 0 || dieGrants s 1, .noGrant)])
    (fun s =>
      let (s, given, short, ended) := (bitList banks 32).foldl (fun (acc : State × Nat × Nat × Bool) b =>
        let (s, given, short, ended) := acc
        if ended || (stop == some b && banks % 2 ^ b != 0) then (s, given, short, true)
        else
          let fs := fails.filter (fun f => f.1 / 16 == b)
          fs.foldl (fun (acc : State × Nat × Nat × Bool) f =>
            let (s, given, short, e) := acc
            if spareShort s f then (assignSpare s f, given, natSet short b, e)
            else (assignSpare s f, natSet given b, short, e)) (s, given, short, false)) (s, 0, 0, false)
      let s := if ended then dieRefuse s
               else (bitList engines 26).foldl (fun s e =>
                 if tests.testBit e then event (failEngine s e) (srcEngine e) 0x1A04 [] else s) s
      complete s h 0x0B05 (if ended then .noGrant else .ok) given short (rdN s TOP_ENGINE_STS) 0)

/-- REPAIR_FIX (R578, R116). `stop` is the number of words after which the temperature leaves the write window, if it
does. -/
def execRepairFix (h : Issue) (op : Nat) (stop : Option Nat) (s : State) : Host.Outcome State Fault Refusal :=
  whileClocked s fun s =>
  hostCmd s h (.repairFix h op stop) 0x0B06 48
    (fun s => [(decide (op < 2), .badParam), (!inLayer s, .wrongState), (op == 1 || inWindow s, .tempForbidden),
               (op == 1 || dieGrants s 4, .noGrant)])
    (fun s =>
      let room := 256 - s.fuses.entries.length
      if op = 1 then complete s h 0x0B06 .ok 0 s.evr.soft.length room 0
      else
        let want := satN room s.evr.soft.length
        let k := satN want (stop.getD want)
        let left := s.evr.soft.drop k
        let s := { s with fuses := { s.fuses with entries := s.fuses.entries ++ s.evr.soft.take k }
                          evr := { s.evr with soft := left } }
        let s := event s (srcMaster 0x12) 0x1A06 (leBytes 4 k ++ leBytes 4 left.length ++ leBytes 4 (room - k))
        let st := if k < want then Status.tempForbidden else if left.isEmpty then .ok else .cfgRejected
        complete s h 0x0B06 st k left.length (room - k) 0)

/-- Firmware's repair of macro `m` (R490): with a die-ledger grant a march over its bank group assigns spares to the rows and
columns of `fails` found there, and CORR and PENDING clear. A refused repair is to be retried (R103). -/
def repairMacro (m : Nat) (fails : List (Nat × Bool × Nat)) (s : State) : State :=
  let keep := s.pwr.dieRetry.filter (fun g => !(g.op == 1 && g.unit == m))
  if !dieGrants s 1 then
    dieRefuse { s with pwr := { s.pwr with dieRetry := keep ++ [⟨1, m, dieCost 1⟩] } }
  else
    let s := { s with pwr := { s.pwr with dieRetry := keep } }
    let s := (fails.filter (fun f => f.1 / 16 == m / 16)).foldl assignSpare s
    setFlag (setFld s (SRAM_MACRO m) 7 0 0) (SRAM_MACRO m) 30 false

/-- SRAM_REPAIR (R490): at a quiet layer boundary firmware repairs macro `m` whose count reached SRAM_THRESH. -/
def execSramRepair (m : Nat) (fails : List (Nat × Bool × Nat)) (s : State) : Host.Outcome State Fault Refusal :=
  whileClocked s fun s =>
  if !quietLayer s || !flag s (SRAM_MACRO m) 30 then s else repairMacro m fails s

/-- DIE_LEDGER_RETRY (R103, R490): at the next quiet layer boundary firmware retries its refused repairs. -/
def execDieLedgerRetry (fails : List (Nat × Bool × Nat)) (s : State) : Host.Outcome State Fault Refusal :=
  whileClocked s fun s =>
  if !quietLayer s then s else s.pwr.dieRetry.foldl (fun s g => repairMacro g.unit fails s) s

/-- A lane on engine `e` meets an uncorrectable word of its image buffer or map (R491, R573). -/
def memUncorr (s : State) (e : Nat) : State :=
  let s := failEngine s e
  match laneOn s e with
  | some n => raiseFault s clsLane 0x010D (srcLane n) []
  | none => s

/-- The outcome of an uncorrectable SRAM word by its region (R491, R46). -/
def sramOutcome (s : State) (a : Nat) (who : Requester) : State :=
  if a < 0xD00000 then memUncorr s (a / 0x80000)
  else if a < 0x1100000 then s
  else if a < 0x1500000 then raiseFault s clsDevice 0x0303 srcDevice []
  else if a < 0x1700000 then
    match who with
    | .burn _ _ => uncorrectable s who a
    | _ => s
  else if a < 0x1CE0000 then s
  else if a < 0x1E80000 then memUncorr s ((a - 0x1CE0000) / 0x10000)
  else if a < 0x1F00000 then
    match who with
    | .codec g =>
      if codecRuns s g then jobBreak s g .dataCrc else s
    | _ => s
  else if a < 0x1F80000 then busErr s 5 2 a
  else { s with evr := { s.evr with bad := a / 8 * 8 :: s.evr.bad } }

/-- A read of the SRAM word at `a` by `who` meets its ECC (R490, R491): `ecc` is 0 good, 1 correctable, 2 uncorrectable. -/
def sramEcc (s : State) (a ecc : Nat) (who : Requester) : State :=
  let m := a / 0x10000
  let r := SRAM_MACRO m
  if ecc = 1 then
    let s := satIncF (setFld s SRAM_CE_ADDR 24 0 a) r 7 0
    if fld s SRAM_CFG 23 16 ≤ fld s r 7 0 then setFlag s r 30 true else s
  else if ecc = 2 then
    let s := setFlag (setFlag (setFld (satIncF s r 15 8) SRAM_UE_ADDR 24 0 a) SRAM_UE_ADDR 31 true) SRAM_STS 0 true
    sramOutcome (event s (srcMacro m) 0x1805 []) a who
  else s

/-- SRAM_SCRUB (R490, R491): the word at `a` is read, by scrub or by the user `who`; with an uncorrectable error `word` is what is stored. -/
def execSramScrub (a ecc : Nat) (word : List Byte) (who : Requester) (s : State) : Host.Outcome State Fault Refusal :=
  whileClocked s fun s =>
  sramEcc (if ecc = 2 then putSram s (a / 8 * 8) (word.take 8) else s) a ecc who

end Sys2Proof.Machine
end

