-- ==== Sys2Proof/Machine/Burn.lean ====
section
/-!
DEFINITION. The burn map (R359 to R378): cells, caches, gathering, the update at the end of a layer, border cells, loading and
saving.
-/

namespace Sys2Proof.Machine

/-! ### Grid and cells (R359, R360, R363) -/

/-- The burn map is in use. -/
def burnOn (s : State) : Bool := flag s BURN_CFG 31

/-- Cell edge, grid and window. -/
def bCell (s : State) : Nat := fld s BURN_CELL 15 0
def bGridW (s : State) : Nat := fld s BURN_GRID 11 0
def bGridH (s : State) : Nat := fld s BURN_GRID 27 16
def bX0 (s : State) : Nat := fld s BURN_WIN0 11 0
def bY0 (s : State) : Nat := fld s BURN_WIN0 27 16
def bW (s : State) : Nat := fld s BURN_WIN1 11 0
def bH (s : State) : Nat := fld s BURN_WIN1 27 16

/-- This device's settings, as a member of its group (R361). -/
def ownWin (s : State) : BurnWin :=
  ⟨burnOn s, rdI s BURN_ORIGIN_X, rdI s BURN_ORIGIN_Y, bCell s, bGridW s, bGridH s, bX0 s, bY0 s, bW s, bH s⟩

/-- The first byte of the window's cells, and their length (R360). -/
def bBase (s : State) : Nat := s.seq.devBase + 0x800000
def bLen (s : State) : Nat := 32 * bW s * bH s

/-- A cell (R363). -/
structure BurnCell where
  factor : Nat
  sums : BurnSums
  updates : Nat
  last : Nat
  flags : Nat
  deriving DecidableEq, Repr

/-- No samples. -/
def BurnSums.none : BurnSums := ⟨0, 0, 0, 0⟩

/-- A unit cell. -/
def BurnCell.unit : BurnCell := ⟨65536, BurnSums.none, 0, 0, 0⟩

/-- The 32 bytes of a cell. -/
def BurnCell.bytes (c : BurnCell) : List Byte :=
  let b := leBytes 4 c.factor ++ leBytes 6 c.sums.pdSum ++ leBytes 4 c.sums.pdCount ++ leBytes 6 c.sums.camSum ++
    leBytes 4 c.sums.camCount ++ leBytes 2 c.updates ++ leBytes 2 c.last ++ leBytes 2 c.flags
  b ++ leBytes 2 (crc16 b)

/-- The cell in 32 bytes; none where its CRC fails. -/
def cellOf (b : List Byte) : Option BurnCell :=
  if crc16 (b.take 30) = leAt b 30 2 then
    some ⟨leAt b 0 4, ⟨leAt b 4 6, leAt b 10 4, leAt b 14 6, leAt b 20 4⟩, leAt b 24 2, leAt b 26 2, leAt b 28 2⟩
  else none

/-- The cell of the window at column `a` and row `b`: treated as a unit cell where its CRC fails or its data is uncorrectable
(R363, R485), which the second part says. -/
def readCell (s : State) (a b : Nat) : BurnCell × Bool :=
  let i := b * bW s + a
  if s.burnBad.any (fun e => e.2 == i) then (BurnCell.unit, true)
  else match cellOf (dramBytes s (bBase s + 32 * i) 32) with
       | some c => (c, false)
       | none => (BurnCell.unit, true)

/-- A cell of the window written whole. -/
def writeCell (s : State) (a b : Nat) (c : BurnCell) : State :=
  let i := b * bW s + a
  putDram { s with burnBad := s.burnBad.filter (fun e => e.2 != i) } (bBase s + 32 * i) c.bytes

/-- A cell whose CRC failed when it was read (R363). -/
def cellEvent (s : State) (a b : Nat) : State :=
  event s srcDevice 0x1501 (leBytes 2 (bX0 s + a) ++ leBytes 2 (bY0 s + b))

/-- Grid column or row of a plate coordinate, rounded down. -/
def gridOf (p origin : Int) (cell : Nat) : Int := if cell = 0 then 0 else (p - origin) / cell

/-- A grid index to its nearest window index. -/
def toWin (i : Int) (x0 w : Nat) : Nat := (clampI 0 ((w : Int) - 1) (i - x0)).toNat

/-! ### Cell caches (R365, R366) -/

/-- A path sum as its 48-bit field holds it (R363). What the field holds once the sum outgrows it is not stated: it is a free
value (assumption 1). -/
def pathSum (x : Nat) : Nat := if x < 2 ^ 48 then x else Config.freeNat x % 2 ^ 48

/-- Sums added, each path stopping where its count reaches all ones (R363). Which part of the added sum belongs to the samples
that still count is not stated: it is a free value (assumption 1). -/
def addPath (sum count dsum dcount : Nat) : Nat × Nat :=
  if count + dcount ≤ 2 ^ 32 - 1 then (pathSum (sum + dsum), count + dcount)
  else (pathSum (sum + Config.freeNat (sum + dsum) % (dsum + 1)), 2 ^ 32 - 1)

/-- Two sets of sums added. -/
def BurnSums.add (a b : BurnSums) : BurnSums :=
  let (p, n) := addPath a.pdSum a.pdCount b.pdSum b.pdCount
  let (q, m) := addPath a.camSum a.camCount b.camSum b.camCount
  ⟨p, n, q, m⟩

/-- One sample added: PD0 (camera when `cam`). -/
def BurnSums.sample (a : BurnSums) (cam : Bool) (v : Nat) : BurnSums :=
  a.add (if cam then ⟨0, 0, v, 1⟩ else ⟨v, 1, 0, 0⟩)

/-- The tiles in the cache of engine `e`. -/
def burnTiles (s : State) (e : Nat) : List BurnTile := mget [] s.burn.caches e

/-- `s` with the tiles of engine `e`. -/
def setTiles (s : State) (e : Nat) (ts : List BurnTile) : State :=
  { s with burn := { s.burn with caches := mset s.burn.caches e ts } }

/-- A tile's sums go to their DRAM cells (R366); a cell whose CRC fails is recorded. -/
def writeBack (s : State) (t : BurnTile) : State :=
  t.sums.foldl (fun s e =>
    let a := t.tx * 4 + e.1 % 4
    let b := t.ty * 4 + e.1 / 4
    if a < bW s && b < bH s then
      let (c, bad) := readCell s a b
      let s := if bad then cellEvent s a b else s
      if bad then s else writeCell s a b { c with sums := c.sums.add e.2 }
    else s) s

/-- The cache of engine `e` written back and emptied. -/
def flushCache (s : State) (e : Nat) : State := setTiles ((burnTiles s e).foldl writeBack s) e []

/-- Every cache written back and emptied. -/
def flushCaches (s : State) : State := (List.range 26).foldl (fun s e => if (burnTiles s e).isEmpty then s else flushCache s e) s

/-- The tile of a plate position, in window tiles. -/
def tileOf (s : State) (x y : Int) : Nat × Nat :=
  (toWin (gridOf x (rdI s BURN_ORIGIN_X) (bCell s)) (bX0 s) (bW s) / 4,
   toWin (gridOf y (rdI s BURN_ORIGIN_Y) (bCell s)) (bY0 s) (bH s) / 4)

/-- A tile requested: it enters the cache, evicting the one least recently used when no room is free (R365). A cell whose CRC
fails is recorded as it is read. -/
def tileRequest (s : State) (e : Nat) (t : Nat × Nat) : State :=
  let ts := burnTiles s e
  let s := { s with burn := { s.burn with clock := s.burn.clock + 1 } }
  let now := s.burn.clock
  if ts.any (fun u => u.tx == t.1 && u.ty == t.2) then
    setTiles s e (ts.map (fun u => if u.tx == t.1 && u.ty == t.2 then { u with used := now } else u))
  else
    let s :=
      if ts.length < 96 then s
      else
        let oldest := ts.foldl (fun m u => if u.used < m then u.used else m) now
        match takeFirst (fun u : BurnTile => u.used == oldest) ts with
        | none => s
        | some (u, rest) => setTiles (writeBack s u) e rest
    let s := (List.range 16).foldl (fun s i =>
      let a := t.1 * 4 + i % 4
      let b := t.2 * 4 + i / 4
      if a < bW s && b < bH s && (readCell s a b).2 then cellEvent s a b else s) s
    let fs := (List.range 16).map (fun i => (readCell s (t.1 * 4 + i % 4) (t.2 * 4 + i / 4)).1.factor)
    setTiles s e (burnTiles s e ++ [⟨t.1, t.2, now, fs, []⟩])

/-- The tiles that the segment from `(x0, y0)` to `(x1, y1)` crosses, in path order: its crossings of tile columns and the
rows it spans in each (R365). -/
def tilesOn (s : State) (x0 y0 x1 y1 : Int) : List (Nat × Nat) :=
  let c : Int := 4 * bCell s
  if c = 0 then []
  else
    let ox := rdI s BURN_ORIGIN_X + bX0 s * bCell s
    let oy := rdI s BURN_ORIGIN_Y + bY0 s * bCell s
    let wid := (bW s + 3) / 4
    let hgt := (bH s + 3) / 4
    let cl (v : Int) (n : Nat) : Nat := (clampI 0 ((n : Int) - 1) v).toNat
    let a0 := (x0 - ox) / c
    let a1 := (x1 - ox) / c
    let step : Int := if a0 ≤ a1 then 1 else -1
    let cols := (List.range ((a1 - a0).natAbs + 1)).map (fun i : Nat => a0 + step * (i : Int))
    let yAt (x : Int) : Int := if x1 = x0 then y1 else y0 + (y1 - y0) * (x - x0) / (x1 - x0)
    let all := cols.flatMap (fun a =>
      let enter := if a = a0 then x0 else if step = 1 then ox + a * c else ox + (a + 1) * c
      let leave := if a = a1 then x1 else if step = 1 then ox + (a + 1) * c else ox + a * c
      let b0 := ((if a = a0 then y0 else yAt enter) - oy) / c
      let b1 := ((if a = a1 then y1 else yAt leave) - oy) / c
      let st : Int := if b0 ≤ b1 then 1 else -1
      (List.range ((b1 - b0).natAbs + 1)).map (fun i : Nat => (cl a wid, cl (b0 + st * (i : Int)) hgt)))
    all.foldl (fun l t => if l.contains t then l else l ++ [t]) []

/-- The factor of the window's cell at column `a` and row `b` for engine `e`: from its cache, or where the tile is not held from DRAM
(assumption 71). -/
def factorAt (s : State) (e a b : Nat) : Nat :=
  match (burnTiles s e).find? (fun t => t.tx == a / 4 && t.ty == b / 4) with
  | some t => t.factors.getD (a % 4 + 4 * (b % 4)) 65536
  | none => (readCell s a b).1.factor

/-- The factor at a plate position in PLU for engine `e` (R364). -/
def burnFactor (s : State) (e : Nat) (x y : Int) : Nat :=
  let c := bCell s
  let f (i j : Int) : Nat := factorAt s e (toWin i (bX0 s) (bW s)) (toWin j (bY0 s) (bH s))
  if !burnOn s || c = 0 then 65536
  else if !flag s BURN_CFG 30 then f (gridOf x (rdI s BURN_ORIGIN_X) c) (gridOf y (rdI s BURN_ORIGIN_Y) c)
  else
    let u := (x - rdI s BURN_ORIGIN_X) * 65536 / (c : Int) - 32768
    let v := (y - rdI s BURN_ORIGIN_Y) * 65536 / (c : Int) - 32768
    let i := u / 65536
    let j := v / 65536
    let tx := u - i * 65536
    let ty := v - j * 65536
    (rdiv ((65536 - tx) * (65536 - ty) * f i j + tx * (65536 - ty) * f (i + 1) j + (65536 - tx) * ty * f i (j + 1) +
      tx * ty * f (i + 1) (j + 1)) (2 ^ 32)).toNat

/-- The tiles of a path requested for engine `e`. -/
def tileFetch (s : State) (e : Nat) (x0 y0 x1 y1 : Int) : State :=
  if burnOn s then (tilesOn s x0 y0 x1 y1).foldl (fun s t => tileRequest s e t) s else s

/-- Whether the tile of a position is in the cache of engine `e`. -/
def tileHit (s : State) (e : Nat) (x y : Int) : Bool :=
  let t := tileOf s x y
  (burnTiles s e).any (fun u => u.tx == t.1 && u.ty == t.2)

/-- A look-up in the cache of engine `e` uses the tile (R365). -/
def tileUse (s : State) (e : Nat) (x y : Int) : State :=
  let t := tileOf s x y
  let s := { s with burn := { s.burn with clock := s.burn.clock + 1 } }
  setTiles s e ((burnTiles s e).map (fun u => if u.tx == t.1 && u.ty == t.2 then { u with used := s.burn.clock } else u))

/-- A sample added to the cell that contains a position, in the cache of engine `e`; dropped where the tile is missing or the
position lies outside the window (R366, R367). -/
def gather (s : State) (e : Nat) (x y : Int) (cam : Bool) (v : Nat) : State :=
  let i := gridOf x (rdI s BURN_ORIGIN_X) (bCell s) - bX0 s
  let j := gridOf y (rdI s BURN_ORIGIN_Y) (bCell s) - bY0 s
  if i < 0 || j < 0 || (bW s : Int) ≤ i || (bH s : Int) ≤ j then s
  else
    let a := i.toNat
    let b := j.toNat
    let k := a % 4 + 4 * (b % 4)
    setTiles s e ((burnTiles s e).map (fun t =>
      if t.tx == a / 4 && t.ty == b / 4 then { t with sums := mset t.sums k ((mget BurnSums.none t.sums k).sample cam v) } else t))

/-- The sample value of R368, from a measured value, the recipe's set-point, and the tick's Pb and Pa. -/
def burnSample (y sp pb pa : Nat) : Nat :=
  (clampI 0 262143 (rdiv ((y * pb * 65536 : Nat) : Int) (sp * pa))).toNat

/-! ### Fill (R362) -/

/-- `BURN_STS.BUSY` and `SEQ_STS.BURN_BUSY` (R362, R372). -/
def burnBusy (s : State) : Bool := flag s SEQ_STS 4
def setBurnBusy (s : State) (b : Bool) : State := setFlag (setFlag s BURN_STS 1 b) SEQ_STS 4 b

/-- A fill of the window begins. -/
def burnFillStart (s : State) : State :=
  setFlag (setBurnBusy { s with burn := { s.burn with fill := true } } true) BURN_STS 0 false

/-- The window filled with unit cells, within the device area. -/
def fillWindow (s : State) : State :=
  let hi := bBase s + bLen s
  let lim := s.seq.devBase + s.seq.devLen
  fillUnit { s with burnBad := [] } (bBase s) (if hi < lim then hi else lim)

/-- BURN_FILL (R362). -/
def execBurnFill (s : State) : Host.Outcome State Fault Refusal :=
  whileClocked s fun s =>
  if s.burn.fill then
           let s := fillWindow { s with burn := { s.burn with fill := false } }
           setFlag (setBurnBusy s s.burn.ended.isSome) BURN_STS 0 true
         else s

/-! ### Border cells (R373, R440) -/

/-- Grid cell `(x, y)` lies in a window. -/
def winHas (w : BurnWin) (x y : Nat) : Bool :=
  decide (w.x0 ≤ x) && decide (x < w.x0 + w.w) && decide (w.y0 ≤ y) && decide (y < w.y0 + w.h)

/-- The window's cells as window columns and rows, in ascending Y, then X. -/
def winCells (s : State) : List (Nat × Nat) :=
  (List.range (bH s)).flatMap (fun b => (List.range (bW s)).map (fun a => (a, b)))

/-- Plate-group peers whose window holds the cell at grid `(x, y)`, with their addresses. -/
def holders (s : State) (x y : Nat) : List Nat := (s.burn.peers.filter (fun p => p.2.enable && winHas p.2 x y)).map (·.1)

/-- Peers that share a cell with this device. -/
def sharers (s : State) : List Nat :=
  let o := ownWin s
  (s.burn.peers.filter (fun p => p.2.enable && decide (p.2.x0 < o.x0 + o.w) && decide (o.x0 < p.2.x0 + p.2.w) &&
    decide (p.2.y0 < o.y0 + o.h) && decide (o.y0 < p.2.y0 + p.2.h))).map (·.1)

/-- Transaction type BURN_BORDER (R436). -/
def tyBurnBorder : Nat := 0x2A

/-- The shared cells go to a peer, in frames of up to 61 entries, the last marked LAST (R412, R440). -/
def sendBorder (s : State) (peer state : Nat) : State :=
  let cells := (winCells s).filter (fun c => (holders s (bX0 s + c.1) (bY0 s + c.2)).contains peer)
  let frames := (cells.length + 60) / 61
  (List.range frames).foldl (fun s i =>
    let part := (cells.drop (61 * i)).take 61
    sendMsg s peer tyBurnBorder ([rdN s SEQ_LAYER, part.length, b2n (i + 1 == frames)] ++ part.flatMap (fun c =>
      let k := (readCell s c.1 c.2).1
      [bX0 s + c.1, bY0 s + c.2, k.factor, k.sums.pdSum, k.sums.pdCount, k.sums.camSum, k.sums.camCount, state]))) s

/-- The end of a layer for the burn map (R370 to R373): the caches are written back and the shared cells sent; `aborted` sends
NO_UPDATE. -/
def burnLayerEnd (s : State) (aborted : Bool) : State :=
  if !burnOn s then s
  else
    let s := flushCaches s
    let fz := flag s BURN_STS 2
    let s := (sharers s).foldl (fun s p => sendBorder s p (if aborted then 2 else if fz then 1 else 0)) s
    let ended := some (rdN s SEQ_LAYER, aborted)
    setBurnBusy { s with burn := { s.burn with ended := ended, endedAt := now s, frozen := fz, inner := none } } true

/-- BURN_BORDER (R373, R440). -/
def execBurnBorder (via src layer : Nat) (last : Bool) (cells : List BorderCell) (s : State) : Host.Outcome State Fault Refusal :=
  whileClocked s fun s =>
  delivered s via src tyBurnBorder ([layer, cells.length, b2n last] ++ cells.flatMap (fun c => [c.x, c.y, c.factor, c.state]))
    (fun s =>
      let ins := cells.map (fun c => (⟨src, layer, c.x, c.y, c.factor, ⟨c.pdSum, c.pdCount, c.camSum, c.camCount⟩, c.state⟩ : BurnIn))
      { s with burn := { s.burn with inbox := s.burn.inbox ++ ins, whole := if last then (src, layer) :: s.burn.whole else s.burn.whole } })

/-- The data of `peer` for the layer that has ended is complete (R373, R440). -/
def borderWhole (s : State) (peer : Nat) : Bool := s.burn.ended.any (fun e => s.burn.whole.contains (peer, e.1))

/-- BURN_BORDER_TIMEOUT (R373): a holder's data has not arrived 50 ms after the layer ended. -/
def execBurnBorderTimeout (peer : Nat) (s : State) : Host.Outcome State Fault Refusal :=
  whileClocked s fun s =>
  if s.burn.ended.isSome && reached s (s.burn.endedAt + 50000000) && !borderWhole s peer && (sharers s).contains peer then
    { s with burn := { s.burn with missing := peer :: s.burn.missing } }
  else s

/-! ### The update (R370 to R372) -/

/-- The counts of an update: changed, held, clamped, skipped. -/
structure BurnCounts where
  updated : Nat
  held : Nat
  clamped : Nat
  skipped : Nat
  deriving DecidableEq, Repr

/-- The new cell by R370: the cell with its factor, flags, updates and last layer, whether the factor changed, was held and
was clamped. -/
def cellUpdate (c : BurnCell) (nMin weight gain layer : Nat) : BurnCell × Bool × Bool × Bool :=
  let mean (sum count : Nat) : Option Int := if nMin ≤ count && count ≠ 0 then some (rdiv sum count) else none
  let m := match mean c.sums.pdSum c.sums.pdCount, mean c.sums.camSum c.sums.camCount with
    | some p, some q => some (rdiv (weight * p + (256 - (weight : Int)) * q) 256)
    | some p, none => some p
    | none, some q => some q
    | none, none => none
  match m with
  | none => ({ c with sums := BurnSums.none, flags := 0 }, false, true, false)
  | some m =>
    let d0 := rdiv (gain * (65536 - m)) 256
    let d := clampI (-1310) 1310 d0
    let f0 : Int := c.factor + d
    let f := (clampI 49152 81920 f0).toNat
    let stepped := d != d0
    let limited := decide ((f : Int) ≠ f0)
    let changed := f != c.factor
    ({ c with factor := f, sums := BurnSums.none, flags := b2n stepped + 2 * b2n limited
              updates := if changed then satN 65535 (c.updates + 1) else c.updates
              last := if changed then layer % 65536 else c.last }, changed, false, stepped || limited)

/-- One cell of the window at the end of a layer. -/
def updateOne (layer : Nat) (clear : Bool) (st : State × BurnCounts) (ab : Nat × Nat) : State × BurnCounts :=
  let (s, n) := st
  let (a, b) := ab
  let (c, bad) := readCell s a b
  let s := if bad then cellEvent s a b else s
  let x := bX0 s + a
  let y := bY0 s + b
  if clear then (writeCell s a b { c with sums := BurnSums.none }, n)
  else
    let hs := holders s x y
    let ins := s.burn.inbox.filter (fun i => i.layer == layer && i.x == x && i.y == y && hs.contains i.src)
    let absent := hs.any (fun p => !ins.any (fun i => i.src == p))
    let differ := ins.any (fun i => i.factor != c.factor)
    if !hs.isEmpty && (absent || differ || ins.any (fun i => i.state != 0) || s.burn.frozen) then
      let low := ins.foldl (fun (m : Nat × Nat) i => if i.src < m.1 then (i.src, i.factor) else m) (ownAddr s, c.factor)
      let s := if differ then event s (srcMaster 0x11) 0x1502 (leBytes 2 x ++ leBytes 2 y) else s
      let f := if differ && !absent then low.2 else c.factor
      (writeCell s a b { c with factor := f, sums := BurnSums.none, flags := 4 }, { n with skipped := n.skipped + 1 })
    else if s.burn.frozen then (writeCell s a b { c with sums := BurnSums.none }, n)
    else
      let sums := ins.foldl (fun t i => t.add i.sums) c.sums
      let (c, changed, held, clamped) :=
        cellUpdate { c with sums := sums } (fld s BURN_NMIN 15 0) (fld s BURN_CFG 24 16) (fld s BURN_CFG 8 0) layer
      (writeCell s a b c, { n with updated := n.updated + b2n changed, held := n.held + b2n held, clamped := n.clamped + b2n clamped })

/-- The cells that nobody shares, or those that somebody does. -/
def cellsShared (s : State) (shared : Bool) : List (Nat × Nat) :=
  (winCells s).filter (fun c => (holders s (bX0 s + c.1) (bY0 s + c.2)).isEmpty != shared)

/-- BURN_UPDATE (R370 to R374): the cells that nobody shares are updated at once; the shared ones once every sharer's data is whole or has
not arrived in time, which ends the update. The end of a layer that was aborted, or a frozen map, clears the sums only. -/
def execBurnUpdate (s : State) : Host.Outcome State Fault Refusal :=
  whileClocked s fun s =>
    match s.burn.ended with
    | none => s
    | some (layer, aborted) =>
      let (s, n) := match s.burn.inner with
        | some (u, h, c, k) => (s, (⟨u, h, c, k⟩ : BurnCounts))
        | none => (cellsShared s false).foldl (updateOne layer aborted) (s, ⟨0, 0, 0, 0⟩)
      if !aborted && (sharers s).any (fun p => !borderWhole s p && !s.burn.missing.contains p) then
        { s with burn := { s.burn with inner := some (n.updated, n.held, n.clamped, n.skipped) } }
      else
        let (s, n) := (cellsShared s true).foldl (updateOne layer aborted) (s, n)
        let old := s.burn.inbox.filter (fun i => i.layer != layer)
        let whole := s.burn.whole.filter (fun w => w.2 != layer)
        let s := { s with burn := { s.burn with ended := none, inner := none, inbox := old, whole := whole, missing := [] } }
        let s := setBurnBusy s s.burn.fill
        if aborted then s
        else
          let s := wrN (wrN (wrN s BURN_LAST_LAYER layer) BURN_UPDATED n.updated) BURN_HELD n.held
          let s := wrN (wrN s BURN_CLAMPED n.clamped) BURN_BORDER_SKIPPED n.skipped
          event s (srcMaster 0x11) 0x1503 (leBytes 4 layer ++ leBytes 4 n.updated ++ leBytes 4 n.held ++ leBytes 4 n.clamped ++
            leBytes 4 n.skipped)

/-! ### Commands (R375, R376) -/

/-- BURN_CONFIG (R376). -/
def execBurnConfig (h : Issue) (flags gain weight nMin : Nat) (ox oy : Int) (cell gw gh x0 y0 w wh : Nat) (s : State) :
    Host.Outcome State Fault Refusal :=
  whileClocked s fun s =>
  let ok (lo hi v : Nat) : Bool := decide (lo ≤ v) && decide (v ≤ hi)
  hostCmd s h (.burnConfig h flags gain weight nMin ox oy cell gw gh x0 y0 w wh) 0x0601 48
    (fun _ => [(decide (flags < 4) && ok 0 256 gain && ok 0 256 weight && ok 1 65535 nMin && ok 2000 32000 cell && ok 1 2048 gw &&
      ok 1 2048 gh && ok 0 2047 x0 && ok 0 2047 y0 && ok 1 2048 w && ok 1 2048 wh, .badParam)])
    (fun s =>
      let s := setShadow (setShadow s 8 BURN_CFG 31 31 (b2n (flags.testBit 0))) 8 BURN_CFG 30 30 (b2n (flags.testBit 1))
      let s := setShadow (setShadow (setShadow s 8 BURN_CFG 24 16 weight) 8 BURN_CFG 8 0 gain) 8 BURN_NMIN 15 0 nMin
      let s := setShadow (setShadow s 8 BURN_ORIGIN_X 31 0 (unsgn 32 ox)) 8 BURN_ORIGIN_Y 31 0 (unsgn 32 oy)
      let s := setShadow (setShadow (setShadow s 8 BURN_CELL 15 0 cell) 8 BURN_GRID 27 16 gh) 8 BURN_GRID 11 0 gw
      let s := setShadow (setShadow s 8 BURN_WIN0 27 16 y0) 8 BURN_WIN0 11 0 x0
      complete (setShadow (setShadow s 8 BURN_WIN1 27 16 wh) 8 BURN_WIN1 11 0 w) h 0x0601 .ok 0 0 0 0)

/-- The header of a map image without its CRC (R375). -/
def mapHeader (s : State) : List Byte :=
  leBytes 4 0x4E525542 ++ leBytes 4 1 ++ leBytes 4 (rdN s BURN_ORIGIN_X) ++ leBytes 4 (rdN s BURN_ORIGIN_Y) ++ leBytes 2 (bCell s) ++
  leBytes 2 (bGridW s) ++ leBytes 2 (bGridH s) ++ leBytes 2 (bX0 s) ++ leBytes 2 (bY0 s) ++ leBytes 2 (bW s) ++ leBytes 2 (bH s) ++
  zeros 2 ++ leBytes 4 (rdN s BURN_LAST_LAYER) ++ zeros 24

/-- The commands' own states (R376): a job is open and no layer is ARMED to PAUSED. -/
def burnCmdState (s : State) : Bool := s.seq.job.isSome && !inLayer s

/-- The cells of an image as its window's columns and rows, with their bytes. -/
def imageCell (s : State) (addr w a b : Nat) : List Byte := dramBytes s (addr + 64 + 32 * (b * w + a)) 32

/-- An image loaded into the committed window: every cell that its window covers as the image has it, the rest unit cells (R375). -/
def mapPlace (s : State) (addr x0 y0 w wh content : Nat) : State × Nat :=
  let cells := winCells s
  let img := cells.map (fun c =>
    let x := bX0 s + c.1
    let y := bY0 s + c.2
    if x0 ≤ x && x < x0 + w && y0 ≤ y && y < y0 + wh then
      let b := imageCell s addr w (x - x0) (y - y0)
      (c, some (if content = 1 then { (cellOf b).getD BurnCell.unit with sums := BurnSums.none }.bytes else b))
    else (c, none))
  let t := fillWindow s
  img.foldl (fun (st : State × Nat) e =>
    match e.2 with
    | some b => (putDram st.1 (bBase st.1 + 32 * (e.1.2 * bW st.1 + e.1.1)) b, st.2 + 1)
    | none => st) (t, 0)

/-- BURN_MAP_LOAD (R375, R376, R604): the copy runs in one step (assumption 17). -/
def execBurnMapLoad (h : Issue) (source content addr : Nat) (s : State) : Host.Outcome State Fault Refusal :=
  whileClocked s fun s =>
  hostCmd s h (.burnMapLoad h source content addr) 0x0602 48
    (fun s => [(decide (source < 2) && decide (content < 2) &&
                 (if source = 1 then addr == 0 else addr % 64 == 0 && (s.seq.job.isNone || inHostArea s addr 64)), .badParam),
               (burnCmdState s, .wrongState), (!burnBusy s, .busy)])
    (fun s =>
      if source = 1 then complete (setFlag (fillWindow s) BURN_STS 0 true) h 0x0602 .ok 0 0 0 0
      else if !dramOk s addr 64 then fail s h 0x0602 .cfgRejected
      else
        let hd := dramBytes s addr 64
        let w := leAt hd 26 2
        let wh := leAt hd 28 2
        let len := 64 + 32 * w * wh
        let same := hd.take 4 == leBytes 4 0x4E525542 && hd.take 8 == (leBytes 4 0x4E525542 ++ leBytes 4 1) &&
          (hd.drop 8).take 14 == ((mapHeader s).drop 8).take 14
        if !same || !inHostArea s addr len || !dramOk s addr len then fail s h 0x0602 .cfgRejected
        else
          let cells := (List.range (w * wh)).map (fun i => dramBytes s (addr + 64 + 32 * i) 32)
          let badAt := (List.range (w * wh)).find? (fun i =>
            let f := leAt (cells.getD i []) 0 4
            decide (f < 49152) || decide (81920 < f))
          match badAt with
          | some i => complete s h 0x0602 .badParam 0 i 0 0
          | none =>
            if crc32c (hd.take 60 ++ cells.flatMap id) ≠ leAt hd 60 4 then fail s h 0x0602 .dataCrc
            else
              let (s, n) := mapPlace s addr (leAt hd 22 2) (leAt hd 24 2) w wh content
              complete (setFlag s BURN_STS 0 true) h 0x0602 .ok len 0 n 0)

/-- BURN_MAP_SAVE (R375, R376, R604). -/
def execBurnMapSave (h : Issue) (dest addr : Nat) (s : State) : Host.Outcome State Fault Refusal :=
  whileClocked s fun s =>
  let len (s : State) : Nat := 64 + bLen s
  hostCmd s h (.burnMapSave h dest addr) 0x0603 48
    (fun s =>
      let lo := s.seq.devBase
      let hi := lo + s.seq.devLen
      [(decide (dest < 2) && addr % 64 == 0 &&
         (if dest = 0 then h.ring != 15
          else s.seq.job.isNone || (decide (lo + 0x800000 + bLen s ≤ addr) && decide (addr + len s ≤ hi))), .badParam),
       (burnCmdState s, .wrongState), (!burnBusy s, .busy)])
    (fun s =>
      if !dramOk s (bBase s) (bLen s) || (dest == 1 && !dramOk s addr (len s)) then fail s h 0x0603 .cfgRejected
      else
        let cells := dramBytes s (bBase s) (bLen s)
        let hd := mapHeader s
        -- bytes 36 to 59 of the header are zero, and its CRC covers them and every cell byte
        let b := hd ++ leBytes 4 (crc32c (hd ++ cells)) ++ cells
        let s := if dest = 0 then hostOp s (.write addr b) else putDram s addr b
        complete s h 0x0603 .ok (len s) 0 0 0)

/-- FROZEN set or clear (R374). -/
def burnFreeze (s : State) (b : Bool) : State := setFlag s BURN_STS 2 b

/-- BURN_FREEZE (R374, R376): with SCOPE 1 the group is told, and it completes once every member has acknowledged; a member out
of reach gives FABRIC_UNREACHABLE. -/
def execBurnFreeze (h : Issue) (op scope : Nat) (s : State) : Host.Outcome State Fault Refusal :=
  whileClocked s fun s =>
  hostCmd s h (.burnFreeze h op scope) 0x0604 48 (fun _ => [(decide (op < 2) && decide (scope < 2), .badParam)])
    (fun s =>
      let s := burnFreeze s (op == 1)
      if scope = 0 then complete s h 0x0604 .ok 0 0 0 0
      else
        let gone := ownGroup s != 0xFF && s.fab.devs.any (fun e => e.1 != ownAddr s && e.2.group == ownGroup s && !reachable s e.1)
        let s := startRun (noticeGroup s 5 (now s) op) h 0x0604 0 [now s, (groupPeers s).foldl natSet 0, b2n gone]
        freezeStep s (fun d => !reachable s d))

/-! ### COMMIT of group BURN (R378) -/

/-- The grid and window registers. -/
def burnGeo : List Nat := [BURN_ORIGIN_X, BURN_ORIGIN_Y, BURN_CELL, BURN_GRID, BURN_WIN0, BURN_WIN1]

/-- ENABLE or a grid or window field differs. -/
def burnGeoChg (s n : State) : Bool := burnOn s != burnOn n || burnGeo.any (fun a => rd s a != rd n a)

/-- The checks of group BURN (R378). -/
def burnChecks (s n : State) : List (Nat × Bool) :=
  let ok (lo hi v : Nat) : Bool := decide (lo ≤ v) && decide (v ≤ hi)
  let fits (o : Int) (g : Nat) : Bool := decide (o + (g * bCell n : Nat) < 2 ^ 31)
  [(0x0901, ok 2000 32000 (bCell n) && decide (fld n BURN_CFG 8 0 ≤ 256) && decide (fld n BURN_CFG 24 16 ≤ 256) &&
      fld n BURN_NMIN 15 0 != 0),
   (0x0902, ok 1 2048 (bGridW n) && ok 1 2048 (bGridH n) && bW n != 0 && bH n != 0 && decide (bX0 n + bW n ≤ bGridW n) &&
      decide (bY0 n + bH n ≤ bGridH n)),
   (0x0903, fits (rdI n BURN_ORIGIN_X) (bGridW n) && fits (rdI n BURN_ORIGIN_Y) (bGridH n)),
   (0x0904, !(burnGeoChg s n && (inLayer s || burnBusy s)))]

/-- What group BURN changes beyond its fields (R362). -/
def burnTake (old s : State) : State := if burnGeoChg old s && s.seq.job.isSome then burnFillStart s else s

end Sys2Proof.Machine
end

