-- ==== Sys2Proof/Machine/Scan.lean ====
section
/-!
DEFINITION. From plate to mirror (R204 to R238): planned jumps, the enlarger map, drift, the beam-steering links, the
deviation window, jogs and the scanner commands.
-/

namespace Sys2Proof.Machine

/-! ### Jumps (R207) -/

/-- A jump from rest to rest: X and Y along one line, F beside it, the faster stretched to the slower. Positions in 2^−16
units; `v` limits the speed in PLU/s beside VMAX_JUMP. -/
def planJump (s : State) (n : Nat) (x0 y0 f0 x1 y1 f1 : Int) (v : Nat) : Motion :=
  let len := len16 (x1 - x0) (y1 - y0)
  let p := planProf 0 0 (satN (vmaxJump s n) v) (pathAccel s n) (pathJerk s n) len
  let q := planProf 0 0 (zVmax s n) (zAccel s n) (zJerk s n) (f1 - f0).natAbs
  let dp := Prof.dur p
  let dq := Prof.dur q
  ⟨x0, y0, x1, y1, len, p, f0, f1, q, longer dp dq, 0, false, none, v⟩

/-- A motion of lane `n` planned per axis from its present position and the given rates to rest at a point (R207, R211): the
slowest axis sets the duration, and the others arrive with it at their lowest peak speed. `v` limits the path speed in PLU/s beside
VMAX_JUMP. -/
def planAxes (s : State) (n : Nat) (r : (Int × Int × Int) × (Int × Int × Int)) (x1 y1 f1 : Int) (v : Nat) : Motion :=
  let l := lane s n
  let ((vx, vy, vf), (ax, ay, af)) := r
  let top := satN (vmaxJump s n) v
  let lim := isqrt (top * top / 2)
  let a := axisAccel s n
  let j := axisJerk s n
  let px := pointProf vx ax 0 lim a j (x1 - l.px)
  let py := pointProf vy ay 0 lim a j (y1 - l.py)
  let pf := pointProf vf af 0 (zVmax s n) (zAccel s n) (zJerk s n) (f1 - l.pf)
  let d := longer (longer (Prof.dur px) (Prof.dur py)) (Prof.dur pf)
  let m := axesMotion l.px l.py l.pf (lateProf vx ax lim a j (x1 - l.px) d) (lateProf vy ay lim a j (y1 - l.py) d)
    (lateProf vf af (zVmax s n) (zAccel s n) (zJerk s n) (f1 - l.pf) d)
  { m with x1 := x1, y1 := y1, f1 := f1, vlim := v, len := longer 1 (len16 (x1 - l.px) (y1 - l.py)) }

/-! ### Enlarger maps (R213 to R217) -/

/-- Lane `n` has a valid map (R215). -/
def mapValid (s : State) (n : Nat) : Bool := flag s (SCN_STS n) 10

/-- The slot of the engine that runs lane `n`. -/
def mapBase (s : State) (n : Nat) : Nat := mapSlot (engineOf s n)

/-- A signed word of the map of lane `n`. -/
def mapWord (s : State) (n off : Nat) : Int := sgn 32 (leNat (sramBytes s (mapBase s n + off) 4))

/-- ORIGIN_X, ORIGIN_Y, PITCH and FOCUS_GAIN of the map (R213). -/
def mapOx (s : State) (n : Nat) : Int := mapWord s n 12
def mapOy (s : State) (n : Nat) : Int := mapWord s n 16
def mapPitch (s : State) (n : Nat) : Nat := (mapWord s n 20).toNat
def mapGain (s : State) (n : Nat) : Int := mapWord s n 24

/-- Component `c` (0 X, 1 Y, 2 Z) of node `(i, j)`. -/
def mapNode (s : State) (n i j c : Nat) : Int := mapWord s n (64 + 12 * (65 * j + i) + 4 * c)

/-- The node at any column, extended past the edges (R216). -/
def nodeCol (s : State) (n : Nat) (i : Int) (j c : Nat) : Int :=
  if i < 0 then 2 * mapNode s n 0 j c - mapNode s n 1 j c
  else if 64 < i then 2 * mapNode s n 64 j c - mapNode s n 63 j c
  else mapNode s n i.toNat j c

/-- The node at any column and row. -/
def nodeAt (s : State) (n : Nat) (i j : Int) (c : Nat) : Int :=
  if j < 0 then 2 * nodeCol s n i 0 c - nodeCol s n i 1 c
  else if 64 < j then 2 * nodeCol s n i 64 c - nodeCol s n i 63 c
  else nodeCol s n i j.toNat c

/-- The weights of the four nodes at a fraction `t` of 2^−16, kept to 2^−32 (R216). DESIGN CHOICE: each weight is
rounded to the nearest, halves away from zero; the rule shows no rounding for them (assumption 121). -/
def mapWeights (t : Int) : List Int :=
  let u : Int := 65536
  let c (x : Int) : Int := rdiv x (2 ^ 17)
  [c (-(t ^ 3) + 2 * t ^ 2 * u - t * u ^ 2), c (3 * t ^ 3 - 5 * t ^ 2 * u + 2 * u ^ 3), c (-3 * t ^ 3 + 4 * t ^ 2 * u + t * u ^ 2),
   c (t ^ 3 - t ^ 2 * u)]

/-- The cell of a coordinate in 2^−16 PLU and the fraction within it (R216). -/
def mapCell (x origin : Int) (pitch : Nat) : Int × Int :=
  let d := x - origin * 65536
  let i := clampI 0 63 (d / ((pitch : Int) * 65536))
  (i, rdiv (d - i * pitch * 65536) pitch)

/-- The map of lane `n` at a plate position in 2^−16 PLU, in 1/256 count (R216). -/
def mapEval (s : State) (n : Nat) (x y : Int) (c : Nat) : Int :=
  let (i, tx) := mapCell x (mapOx s n) (mapPitch s n)
  let (j, ty) := mapCell y (mapOy s n) (mapPitch s n)
  let wx := mapWeights tx
  let wy := mapWeights ty
  let sum := (List.range 4).foldl (fun (a : Int) p =>
    (List.range 4).foldl (fun (a : Int) q =>
      a + wx.getD p 0 * wy.getD q 0 * nodeAt s n (i - 1 + (p : Int)) (j - 1 + (q : Int)) c) a) 0
  rdiv sum (2 ^ 64)

/-- A point in PLU lies in the map field (R217). -/
def inField (s : State) (n : Nat) (x y : Int) : Bool :=
  let w : Int := 64 * mapPitch s n
  decide (mapOx s n ≤ x) && decide (x ≤ mapOx s n + w) && decide (mapOy s n ≤ y) && decide (y ≤ mapOy s n + w)

/-- A point in 2^−16 PLU lies in the map field. -/
def inField16 (s : State) (n : Nat) (x y : Int) : Bool :=
  let w : Int := 64 * mapPitch s n
  decide (mapOx s n * 65536 ≤ x) && decide (x ≤ (mapOx s n + w) * 65536) && decide (mapOy s n * 65536 ≤ y) &&
    decide (y ≤ (mapOy s n + w) * 65536)

/-! ### Focus, drift and counts (R218 to R220) -/

/-- Link width in bits by generation (R222). -/
def linkWidth (gen : Nat) : Nat :=
  match gen with
  | 3 => 24
  | 2 => 20
  | 1 => 16
  | _ => 0

/-- The link generation of lane `n`. -/
def linkGen (s : State) (n : Nat) : Nat := fld s (SCN_LINK_CFG n) 1 0

/-- Counts of a plate position through map, focus and drift (R216, R218, R219). -/
def plateCounts (s : State) (n : Nat) (x y f : Int) : Int × Int × Int :=
  driftCounts s n (mapEval s n x y 0, mapEval s n x y 1, mapEval s n x y 2 + rdiv (mapGain s n * f) (2 ^ 24))

/-- The counts that lane `n` commands for its present sample, before saturation. A lane that stands at counts follows changes of the
drift terms (R221). -/
def laneCounts (s : State) (n : Nat) : Int × Int × Int :=
  let l := lane s n
  match l.raw, l.held with
  | some r, _ => rawCounts (s.freeCtr + 3 * n) r
  | none, some m => driftCounts s n m
  | none, none => if mapValid s n then plateCounts s n l.px l.py l.pf else cmdCounts s n

/-- The counts of lane `n` one tick before. -/
def lastCounts (s : State) (n : Nat) : Int × Int × Int :=
  let l := lane s n
  if l.held.isSome || l.motion.dur ≤ l.motion.t || !mapValid s n then laneCounts s n
  else
    let p := l.motion.posAt s.freeCtr (l.motion.t - tickNs s * 1000000)
    plateCounts s n p.1 p.2.1 p.2.2

/-- The range check of R220: the fault is raised on entering the condition. -/
def rangeCheck (s : State) (n : Nat) : State :=
  let w := linkWidth (linkGen s n)
  if w = 0 then s
  else
    let lim : Int := (2 : Int) ^ (w - 1) - 1
    let (cx, cy, cz) := laneCounts s n
    let out := decide (lim < cx) || decide (cx < -lim) || decide (lim < cy) || decide (cy < -lim) || decide (lim < cz) ||
      decide (cz < -lim)
    let was := (lane s n).rangeOut
    let s := updLane s n (fun l => { l with rangeOut := out })
    if out && !was then raiseOnce s clsLane 0x0108 (srcLane n) [] else s

/-! ### Frames (R38, R222 to R226) -/

/-- Ticks between frames of a generation (R38). -/
def frameTicks (s : State) (gen : Nat) : Nat :=
  let p := match gen with
    | 3 => 500
    | 2 => 1000
    | _ => 10000
  if p ≤ tickNs s then 1 else p / tickNs s

/-- The number whose bits, most significant first, are `bs`. -/
def bitsNat (bs : List Bool) : Nat := bs.foldl (fun a b => 2 * a + b2n b) 0

/-- Parity of the bits of a 16-bit count from `i` down in steps of two (R226). -/
def parity2 (v i : Nat) : Nat := ((List.range 8).foldl (fun a k => a + b2n (v.testBit (i - 2 * k))) 0) % 2

/-- A BSL1 word: axis code, count, parity bits (R226). -/
def bsl1Word (axis v : Nat) : Nat := axis * 2 ^ 18 + v * 4 + parity2 v 15 * 2 + parity2 v 14

/-- The data bits of an outbound frame (R223, R225, R226). -/
def outFrame (gen : Nat) (x y z : Int) (seq : Nat) (servo safe gate : Bool) : Nat :=
  match gen with
  | 3 =>
    let b := msbBits 24 (unsgn 24 x) ++ msbBits 24 (unsgn 24 y) ++ msbBits 24 (unsgn 24 z) ++ msbBits 4 (seq % 16) ++
      [servo, safe, gate, false]
    bitsNat (b ++ msbBits 12 (crc12 b))
  | 2 =>
    let b := msbBits 20 (unsgn 20 x) ++ msbBits 20 (unsgn 20 y) ++ msbBits 20 (unsgn 20 z) ++ msbBits 2 (seq % 4) ++ [servo, safe]
    bitsNat (b ++ msbBits 8 (crc8 b))
  | _ => (bsl1Word 0 (unsgn 16 x) * 2 ^ 20 + bsl1Word 1 (unsgn 16 y)) * 2 ^ 20 + bsl1Word 2 (unsgn 16 z)

/-- The data code groups of 4B5B, by nibble (R222). PRESUMED: the spec names the standard and does not list them (assumption 100). -/
def codeGroups : List Nat :=
  [0x1E, 0x09, 0x14, 0x15, 0x0A, 0x0B, 0x0E, 0x0F, 0x12, 0x13, 0x16, 0x17, 0x1A, 0x1B, 0x1C, 0x1D]

/-- The start delimiter J K (R223). -/
def startJK : Nat := 0x311

/-- A frame of `k` nibbles in code groups, its delimiter first, followed by `idle` IDLE groups (R222, R223). -/
def codeBits (k v idle : Nat) : Nat :=
  let f := (List.range k).foldl (fun a i => a * 32 + codeGroups.getD (natBits v (4 * (k - 1 - i) + 3) (4 * (k - 1 - i))) 0) startJK
  f * 32 ^ idle + (32 ^ idle - 1)

/-- The nibbles of `k` code groups behind a delimiter; none where the delimiter is missing or a group is no data group. -/
def ungroup (k line : Nat) : Option Nat :=
  if line / 32 ^ k ≠ startJK then none
  else
    (List.range k).foldl (fun (a : Option Nat) i =>
      match a, codeGroups.findIdx? (· == natBits line (5 * (k - 1 - i) + 4) (5 * (k - 1 - i))) with
      | some a, some d => some (a * 16 + d)
      | _, _ => none) (some 0)

/-- The half-cells of a BSL1 frame that begin with a transition, first half-cell highest: each bit cell but the first of the frame at
its start, and a 1 at mid-cell (R226). -/
def biphase (v : Nat) : Nat :=
  (List.range 60).foldl (fun a i => a * 4 + 2 * b2n (i != 0) + b2n (v.testBit (59 - i))) 0

/-- Nibbles of a frame of a generation with code groups, and its code groups per µs of idle time are one in 20 ns and 50 ns. -/
def frameNibbles (gen : Nat) : Nat := if gen = 3 then 23 else 18

/-- What the pair carries in a frame period (R222, R223, R226): the frame and the IDLE groups up to the next one, in the pair's polarity
(R231). -/
def lineBits (s : State) (n gen data : Nat) : Nat :=
  if gen < 2 then biphase data
  else
    let k := frameNibbles gen
    let idle := if gen = 3 then (frameTicks s gen * tickNs s - 500) / 20 else (frameTicks s gen * tickNs s - 1000) / 50
    let w := codeBits k data idle
    if flag s (SCN_LINK_CFG n) 2 then 2 ^ (5 * (k + 2 + idle)) - 1 - w else w

/-- The frame of lane `n` that starts at this boundary, on the frame ticks of its link (R38): it carries the present sample,
saturated (R220), and in the safe state the position last transmitted (R106). -/
def sendFrame (s : State) (n : Nat) : State :=
  let g := linkGen s n
  if g = 0 || tickNo s % frameTicks s g ≠ 0 then s
  else
    let w := linkWidth g
    let lim : Int := (2 : Int) ^ (w - 1) - 1
    let (cx, cy, cz) := if s.pwr.safe then cmdCounts s n else laneCounts s n
    let x := clampI (-lim) lim cx
    let y := clampI (-lim) lim cy
    let z := clampI (-lim) lim cz
    let l := lane s n
    let bits := outFrame g x y z l.frameSeq (flag s (SCN_LINK_CFG n) 8) s.pwr.safe (gateOf s n)
    let s := wrI (wrI (wrI s (SCN_CMD_X n) x) (SCN_CMD_Y n) y) (SCN_CMD_Z n) z
    updLane s n (fun l => { l with frameSeq := l.frameSeq + 1, sent := ((x, y, z) :: l.sent).take 1040, bslOut := lineBits s n g bits
                                   sentPt := if s.pwr.safe then l.sentPt else (l.px, l.py, l.pf) })

/-! ### Links (R227, R228) -/

/-- LINK_STATE: 0 OFF, 1 TRAINING, 2 UP, 3 LOST. -/
def linkState (s : State) (n : Nat) : Nat := fld s (SCN_STS n) 1 0

/-- A valid map ends (R215): the lane stands at its counts. -/
def mapDrop (s : State) (n : Nat) : State :=
  updLane (wrN (setFlag s (SCN_STS n) 10 false) (SCN_MAP_ID n) 0) n (fun l => { l with held := some (undrift s n (cmdCounts s n)) })

/-- The link of lane `n` restarts (R227). A generation without a return direction reports nothing (R231). -/
def linkRestart (s : State) (n : Nat) : State :=
  let g := linkGen s n
  let st := if g = 0 then 0 else if g = 1 then 2 else 1
  let s := updLane (setFld s (SCN_STS n) 1 0 st) n (fun l =>
    { l with frameSeq := 0, expFrame := 0, goodRun := 0, errRun := 0, devRun := 0, devRaised := false, sent := [], lastDev := 0 })
  let s := setFld (setFlag s (SCN_STS n) 9 false) (SCN_STS n) 8 5 0
  if g < 2 then wrN (wrN (wrN (wrN s (SCN_RPT_X n) 0) (SCN_RPT_Y n) 0) (SCN_RPT_Z n) 0) (SCN_DEV_MAX n) 0 else s

/-- A class S write of GEN or a polarity that changes one of them (R215, R227). -/
def linkWrite (old s : State) (n : Nat) : State :=
  if fld old (SCN_LINK_CFG n) 3 0 = fld s (SCN_LINK_CFG n) 3 0 then s
  else
    let s := if linkGen old n ≠ linkGen s n then mapDrop s n else s
    linkRestart s n

/-- A link error (R227): it counts, and in TRAINING and LOST the run of valid frames starts again. -/
def linkError (s : State) (n : Nat) : State :=
  updLane (satInc s (SCN_LINK_ERRS n)) n (fun l => { l with errRun := l.errRun + 1, goodRun := 0, expFrame := l.expFrame + 1 })

/-- A valid return frame (R227): the sixteenth in a row makes a link UP. -/
def linkGood (s : State) (n : Nat) : State :=
  let s := updLane s n (fun l => { l with errRun := 0, goodRun := l.goodRun + 1, expFrame := l.expFrame + 1 })
  if linkState s n ≠ 2 && decide (16 ≤ (lane s n).goodRun) then
    finishAll (setFld s (SCN_STS n) 1 0 2) 0x0203 n .ok 0 0 0 0
  else s

/-- The deviation of a reported position and its count (R229, R230). Without a frame so far back no deviation is formed. -/
def deviation (s : State) (n m : Nat) (x y z : Int) : State :=
  let l := lane s n
  let td := fld s (SCN_DEV_CFG n) 25 16
  if m < td then s
  else
    match l.sent[l.frameSeq - 1 - (m - td)]? with
    | none => s
    | some (a, b, c) =>
      let dx := (x - a).natAbs
      let dy := (y - b).natAbs
      let dz := (z - c).natAbs
      let mx := if dx < dy then (if dy < dz then dz else dy) else (if dx < dz then dz else dx)
      let wxy := fld s (SCN_DEV_WIN n) 15 0
      let out := decide (wxy < dx) || decide (wxy < dy) || decide (fld s (SCN_DEV_WIN n) 31 16 < dz)
      let s := if rdN s (SCN_DEV_MAX n) < mx then wrN s (SCN_DEV_MAX n) mx else s
      let s := updLane s n (fun l =>
        { l with lastDev := mx, devRun := if out then l.devRun + 1 else 0, devRaised := out && l.devRaised })
      setFlag s (SCN_STS n) 9 out

/-- The position of a return frame for its lane. -/
def report (s : State) (n m : Nat) (x y z : Int) : State :=
  deviation (wrI (wrI (wrI s (SCN_RPT_X n) x) (SCN_RPT_Y n) y) (SCN_RPT_Z n) z) n m x y z

/-- STATUS of a valid return frame: READY, SERVO_FAULT, OVER_TEMP, POS_INVALID (R225, R228). -/
def linkStatus (s : State) (n : Nat) (ready servo hot bad : Bool) : State :=
  let was := fld s (SCN_STS n) 8 5
  let s := setFlag (setFlag (setFlag (setFlag s (SCN_STS n) 5 ready) (SCN_STS n) 6 servo) (SCN_STS n) 7 hot) (SCN_STS n) 8 bad
  let s := if hot && !was.testBit 2 then laneEvent s n 0x1202 [] else s
  if laneInLayer s n && ((servo && !was.testBit 1) || (was.testBit 0 && !ready)) then raiseFault s clsLane 0x0109 (srcLane n) []
  else s

/-- RETURN_FRAME (R222 to R224, R227 to R229): `line` are the bits on the pair, the delimiter and the code groups of one frame in the
pair's polarity. A group that is no data group makes the frame a link error, as a failed CRC does. A BSL1 lane ignores its receive pair
(R226). -/
def execReturnFrame (n line : Nat) (s : State) : Host.Outcome State Fault Refusal :=
  whileClocked s fun s =>
  let g := linkGen s n
  let l := lane s n
  let m := l.expFrame
  let k := frameNibbles g
    if g < 2 then s
    else
      match ungroup k (if flag s (SCN_LINK_CFG n) 3 then 2 ^ (5 * (k + 2)) - 1 - line else line) with
      | none => linkError s n
      | some bits =>
        if g = 3 then
          let ok := crc12 (msbBits 80 (bits / 4096)) == bits % 4096 && natBits bits 19 16 == m % 16
          if !ok then linkError s n
          else
            let st := natBits bits 15 12
            let bad := st.testBit 0
            let s := linkStatus (linkGood s n) n (st.testBit 3) (st.testBit 2) (st.testBit 1) bad
            if bad then s
            else report s n m (sgn 24 (natBits bits 91 68)) (sgn 24 (natBits bits 67 44)) (sgn 24 (natBits bits 43 20))
        else
          let ok := crc8 (msbBits 64 (bits / 256)) == bits % 256 && natBits bits 11 10 == m % 4
          if !ok then linkError s n
          else
            let st := natBits bits 9 8
            let s := linkStatus (linkGood s n) n (st.testBit 1) (st.testBit 0) false false
            if m % 4 = 0 then
              report s n m (sgn 20 (natBits bits 71 52)) (sgn 20 (natBits bits 51 32)) (sgn 20 (natBits bits 31 12))
            else setFld (wrN s (SCN_DIAG n) (natBits bits 63 32)) (SCN_DIAG_ID n) 7 0 (natBits bits 71 64)

/-- RETURN_FRAME_TIMEOUT (R227). -/
def execReturnFrameTimeout (n : Nat) (s : State) : Host.Outcome State Fault Refusal :=
  whileClocked s fun s =>
  if linkGen s n < 2 then s else linkError s n

/-- LINK_LOST (R227, R228). -/
def execLinkLost (n : Nat) (s : State) : Host.Outcome State Fault Refusal :=
  whileClocked s fun s =>
    if linkState s n ≠ 2 || linkGen s n < 2 || decide ((lane s n).errRun < fld s (SCN_DEV_CFG n) 15 8) then s
    else
      let s := updLane (setFld s (SCN_STS n) 1 0 3) n (fun l => { l with goodRun := 0 })
      if laneInLayer s n then raiseFault s clsLane 0x0107 (srcLane n) [] else laneEvent s n 0x1201 []

/-- SCAN_DEVIATION (R229). -/
def execScanDeviation (n : Nat) (s : State) : Host.Outcome State Fault Refusal :=
  whileClocked s fun s =>
  let l := lane s n
    if flag s (SCN_DEV_CFG n) 31 && decide (fld s (SCN_DEV_CFG n) 7 0 < l.devRun) && !l.devRaised &&
        (laneInLayer s n || l.jog.isSome) then
      raiseFault (updLane s n (fun l => { l with devRaised := true })) clsLane 0x0106 (srcLane n) []
    else s

/-! ### Commands (R232, R233) -/

/-- LANE_CONFIG (R205, R232, R235). -/
def execLaneConfig (h : Issue) (n flags vmark vjump accel jerk zv za zj winXy winZ delay count errs : Nat) (s : State) :
    Host.Outcome State Fault Refusal :=
  whileClocked s fun s =>
  let ok (lo hi v : Nat) : Bool := decide (lo ≤ v) && decide (v ≤ hi)
  hostCmd s h (.laneConfig h n flags vmark vjump accel jerk zv za zj winXy winZ delay count errs) 0x0201 48
    (fun s => [(decide (n < 24), .badParam),
               (decide (flags < 2) && ok 1000 20000000 vmark && ok 1000 40000000 vjump && ok 100 1000000 accel && ok 1 4000000 jerk &&
                ok 1000 10000000 zv && ok 100 1000000 za && ok 1 4000000 zj && ok 1 65535 winXy && ok 1 65535 winZ &&
                ok 0 1023 delay && ok 1 255 count && ok 1 255 errs, .badParam),
               (domOn s (2 + quadOf n), .domainOff)])
    (fun s =>
      let s := setShadow (setShadow s 2 (SCN_VMAX_MARK n) 31 0 vmark) 2 (SCN_VMAX_JUMP n) 31 0 vjump
      let s := setShadow (setShadow s 2 (SCN_ACCEL n) 31 0 accel) 2 (SCN_JERK n) 31 0 jerk
      let s := setShadow (setShadow (setShadow s 2 (SCN_ZVMAX n) 31 0 zv) 2 (SCN_ZACCEL n) 31 0 za) 2 (SCN_ZJERK n) 31 0 zj
      let s := setShadow (setShadow s 2 (SCN_DEV_WIN n) 31 16 winZ) 2 (SCN_DEV_WIN n) 15 0 winXy
      let s := setShadow (setShadow s 2 (SCN_DEV_CFG n) 31 31 flags) 2 (SCN_DEV_CFG n) 25 16 delay
      complete (setShadow (setShadow s 2 (SCN_DEV_CFG n) 15 8 errs) 2 (SCN_DEV_CFG n) 7 0 count) h 0x0201 .ok 0 0 0 0)

/-- The checks of a map image (R213, R233) for a link width. -/
def mapCheck (img : List Byte) (width : Nat) : Option Status :=
  let bits := leAt img 8 1
  let pitch := leAt img 20 4
  let fits (o : Int) : Bool := decide (o + 64 * (pitch : Int) < 2 ^ 31)
  let lim : Nat := (2 ^ (bits - 1) - 1) * 256
  let zero (a k : Nat) : Bool := ((img.drop a).take k).all (· == 0)
  if leAt img 0 4 ≠ 0x504D4E45 || leAt img 4 4 ≠ 1 || !(bits == 16 || bits == 20 || bits == 24) || !zero 9 3 || !zero 32 32 ||
      pitch < 1000 || 4000000 < pitch || !fits (sgn 32 (leAt img 12 4)) || !fits (sgn 32 (leAt img 16 4)) ||
      (List.range (3 * 65 * 65)).any (fun i => decide (lim < (sgn 32 (leAt img (64 + 4 * i) 4)).natAbs)) then some .badParam
  else if crc32c (img.take 50764) ≠ leAt img 50764 4 then some .dataCrc
  else if bits ≠ width then some .cfgRejected
  else none

/-- ENLARGER_MAP_LOAD (R213 to R215, R232, R233, R604). `block` are the bytes of the parameter block from byte 48. The lane
keeps standing at its counts. -/
def execEnlargerMapLoad (h : Issue) (n source addr : Nat) (block : List Nat) (s : State) : Host.Outcome State Fault Refusal :=
  whileClocked s fun s =>
  hostCmd s h (.enlargerMapLoad h n source addr block) 0x0202 (if source = 0 then 48 + 50768 else 48)
    (fun s => [(decide (n < 24), .badParam),
               (decide (source < 2) && (if source = 0 then addr == 0 else addr % 64 == 0), .badParam),
               (domOn s (2 + quadOf n), .domainOff),
               ((lane s n).jog.isNone && !laneInLayer s n, .wrongState)])
    (fun s =>
      if source = 1 && !dramOk s addr 50768 then fail s h 0x0202 .cfgRejected
      else
        let img := padTo 50768 (if source = 1 then dramBytes s addr 50768 else block.map (BitVec.ofNat 8))
        match mapCheck img (linkWidth (linkGen s n)) with
        | some st => fail s h 0x0202 st
        | none =>
          let s := putSram s (mapBase s n) (img ++ zeros (65536 - 50768))
          let m := undrift s n (cmdCounts s n)
          let s := updLane (wrN (setFlag s (SCN_STS n) 10 true) (SCN_MAP_ID n) (leAt img 28 4)) n (fun l => { l with held := some m })
          complete s h 0x0202 .ok (leAt img 28 4) (engineOf s n) 0 0)

/-- SCANNER_LINK_SET (R227, R232, R233, R238). -/
def execScannerLinkSet (h : Issue) (n gen pol : Nat) (s : State) : Host.Outcome State Fault Refusal :=
  whileClocked s fun s =>
  hostCmd s h (.scannerLinkSet h n gen pol) 0x0203 48
    (fun s => [(decide (n < 24), .badParam), (decide (gen < 4) && decide (pol < 4), .badParam), (domOn s (2 + quadOf n), .domainOff),
               ((lane s n).jog.isNone && !laneInLayer s n, .wrongState)])
    (fun s =>
      let s := if linkGen s n ≠ gen then mapDrop s n else s
      let s := setFld (setFld s (SCN_LINK_CFG n) 1 0 gen) (SCN_LINK_CFG n) 3 2 pol
      let s := wrN (linkRestart s n) (SCN_LINK_ERRS n) 0
      if gen < 2 then complete s h 0x0203 .ok 0 0 0 0 else startRun s h 0x0203 n [])

/-- SCANNER_LINK_TIMEOUT (R233): training goes on. -/
def execScannerLinkTimeout (n : Nat) (s : State) : Host.Outcome State Fault Refusal :=
  whileClocked s fun s =>
  if (findRun s 0x0203 n).any (Running.aged s 10000000) then finishAll s 0x0203 n .timeout 0 0 0 0 else s

/-- The plate point of a lane that stands at counts which no plate position gave: it is not stated, a free value within the
map field (assumption 19). -/
def findPlate (s : State) (n : Nat) : State :=
  let l := lane s n
  if l.held.isNone && l.raw.isNone then s
  else
    let c := s.freeCtr
    let w : Int := 64 * mapPitch s n * 65536
    let x := clampI (mapOx s n * 65536) (mapOx s n * 65536 + w) (Config.freeInt c)
    let y := clampI (mapOy s n * 65536) (mapOy s n * 65536 + w) (Config.freeInt (c + 1))
    let f := Config.freeInt (c + 2)
    tick1 (updLane s n (fun l => { l with held := none, raw := none, px := x, py := y, pf := f, motion := Motion.still x y f }))

/-- A speed limit above every VMAX_JUMP, in PLU/s. -/
def noLimit : Nat := 2 ^ 36

/-- The speed limit of a jog in PLU/s: 0 stands for VMAX_JUMP (R232). -/
def jogSpeed (speed : Nat) : Nat := if speed = 0 then noLimit else speed * 8

/-- Lane `n` sets out on a raw jog from where its scanner is and as fast as it moves (R211, R233). -/
def rawBegin (s : State) (n : Nat) (x y z : Int) (speed : Nat) : State :=
  let (p, v) : (Int × Int × Int) × (Int × Int × Int) := match (lane s n).raw with
    | some r => r.after r.ticks
    | none =>
      let c := laneCounts s n
      let b := lastCounts s n
      ((c.1 * 65536, c.2.1 * 65536, c.2.2 * 65536), ((c.1 - b.1) * 65536, (c.2.1 - b.2.1) * 65536, (c.2.2 - b.2.2) * 65536))
  updLane s n (fun l => { l with motion := Motion.still l.px l.py l.pf, jog := some ⟨true, x, y, z⟩
                                 raw := some ⟨p.1, p.2.1, p.2.2, v.1, v.2.1, v.2.2, x, y, z, speed, 0, false⟩ })

/-- The rates at which lane `n` moves over the plate; those of a raw course are free values (assumption 19). -/
def plateRates (s : State) (n : Nat) : (Int × Int × Int) × (Int × Int × Int) :=
  let l := lane s n
  let c := s.freeCtr
  if l.raw.isSome then ((Config.freeInt (c + 3), Config.freeInt (c + 4), Config.freeInt (c + 5)),
    (Config.freeInt (c + 6), Config.freeInt (c + 7), Config.freeInt (c + 8)))
  else l.motion.rates l.motion.t

/-- The motion of lane `n` to a plate point: straight from rest, per axis in motion (R207, R211). -/
def planTo (s : State) (n : Nat) (r : (Int × Int × Int) × (Int × Int × Int)) (x y f : Int) (v : Nat) : Motion :=
  let l := lane s n
  if r == ((0, 0, 0), (0, 0, 0)) then planJump s n l.px l.py l.pf x y f v else planAxes s n r x y f v

/-- Some point of a motion of lane `n` lies outside the map field (R211, R217); the straight line between two points of the field does
not leave it. -/
def leavesField (s : State) (n : Nat) (m : Motion) : Bool :=
  match m.axes with
  | none => false
  | some (px, py, _) =>
    let x := Prof.range px
    let y := Prof.range py
    !(inField16 s n (m.x0 + x.1) (m.y0 + y.1) && inField16 s n (m.x0 + x.2) (m.y0 + y.2))

/-- Lane `n` sets out on a plate jog; none where its path would leave the map field. -/
def plateBegin (s : State) (n : Nat) (x y z : Int) (speed : Nat) : Option State :=
  let r := plateRates s n
  let t := findPlate s n
  let m := planTo t n r (x * 65536) (y * 65536) (z * 65536) (jogSpeed speed)
  if leavesField t n m then none
  else some (updLane t n (fun l => { l with motion := m, jog := some ⟨false, x, y, z⟩ }))

/-- LANE_JOG (R232, R233): a jog in progress is retargeted at the next boundary (R211), and its command completes. In the safe state the
scanners hold (R106; assumption 20). A jog given while the lane still comes to rest from a jog that a fault ended starts from its
motion. -/
def execLaneJog (h : Issue) (n mode : Nat) (x y z : Int) (speed : Nat) (s : State) : Host.Outcome State Fault Refusal :=
  whileClocked s fun s =>
  let raw := mode == 1
  hostCmd s h (.laneJog h n mode x y z speed) 0x0205 48
    (fun s => [(decide (n < 24), .badParam),
               (decide (mode < 2) && (!raw || (decide (1 ≤ speed) && decide (speed ≤ 65535))), .badParam),
               (domOn s (2 + quadOf n), .domainOff), (!s.pwr.safe, .faultActive), (!laneInLayer s n, .wrongState),
               (raw || mapValid s n, .cfgRejected), (raw || inField s n x y, .badParam)])
    (fun s =>
      if (lane s n).jog.isSome then
        let s := setFlag (endJogRun s n) (SCN_STS n) 11 true
        startRun (updLane s n (fun q => { q with retarget := some ⟨raw, true, x, y, z, speed⟩ })) h 0x0205 n []
      else if raw then startRun (rawBegin (setFlag s (SCN_STS n) 11 true) n x y z speed) h 0x0205 n []
      else
        match plateBegin s n x y z speed with
        | some s => startRun (setFlag s (SCN_STS n) 11 true) h 0x0205 n []
        | none => fail s h 0x0205 .badParam)
where
  /-- The earlier LANE_JOG completes with EXTRA 1. -/
  endJogRun (s : State) (n : Nat) : State :=
    finishRun s 0x0205 n .ok (rdN s (SCN_RPT_X n)) (rdN s (SCN_RPT_Y n)) (rdN s (SCN_RPT_Z n)) 1

/-- The jog of lane `n` stands at its target. -/
def jogDone (s : State) (n : Nat) : Bool :=
  let l := lane s n
  l.jog.isSome && l.retarget.isNone && (match l.raw with
    | some r => r.over
    | none => decide (l.motion.dur ≤ l.motion.t))

/-- The scanner of lane `n` stands at the counts where its raw course ended. -/
def rawEnd (s : State) (n : Nat) : State :=
  match (lane s n).raw with
  | some r => let m := undrift s n (rawCounts (s.freeCtr + 3 * n) r); updLane s n (fun l => { l with raw := none, held := some m })
  | none => s

/-- JOG_TARGET_REACHED (R233). -/
def execJogTargetReached (n : Nat) (s : State) : Host.Outcome State Fault Refusal :=
  whileClocked s fun s => if !jogDone s n then s else endJog (rawEnd s n) n .ok 0

/-- JUMP_RETARGET (R211): at the boundary after the request the jump is replanned to its new target, or the retarget is refused where the
new path would leave the map field. A refused LANE_JOG completes with BAD_PARAM, and the jog goes on to its old target (assumption
20). -/
def execJumpRetarget (n : Nat) (s : State) : Host.Outcome State Fault Refusal :=
  whileClocked s fun s =>
  let l := lane s n
  match l.retarget with
  | none => s
  | some q =>
    let s := updLane s n (fun l => { l with retarget := none })
    if q.jog then
      if q.raw then rawBegin s n q.x q.y q.f q.v
      else
        match plateBegin s n q.x q.y q.f q.v with
        | some t => t
        | none => finishRun s 0x0205 n .badParam 0 0 0 0
    else if l.phase != .jump then s
    else
      let m := planTo s n (l.motion.rates l.motion.t) q.x q.y q.f q.v
      if leavesField s n m then s else updLane s n (fun l => { l with motion := m })

/-- DRIFT_TERMS_SET (R221, R233). A set of the lane that still waits gives BUSY. -/
def execDriftTermsSet (h : Issue) (n apply_ mask : Nat) (terms : List Int) (s : State) : Host.Outcome State Fault Refusal :=
  whileClocked s fun s =>
  hostCmd s h (.driftTermsSet h n apply_ mask terms) 0x0207 48
    (fun s => [(decide (n < 24), .badParam), (decide (apply_ < 2) && decide (mask < 256), .badParam),
               (domOn s (2 + quadOf n), .domainOff), ((lane s n).drift.isNone, .busy)])
    (fun s => startRun (updLane s n (fun l => { l with drift := some ⟨apply_, mask, terms⟩ })) h 0x0207 n [])

/-- The drift registers in MASK order (R232). -/
def driftRegs (n : Nat) : List Nat :=
  [SCN_DRIFT_OFF_X n, SCN_DRIFT_OFF_Y n, SCN_DRIFT_OFF_Z n, SCN_DRIFT_GAIN_X n, SCN_DRIFT_GAIN_Y n, SCN_DRIFT_GAIN_Z n,
   SCN_DRIFT_ROT_X n, SCN_DRIFT_ROT_Y n]

/-- The lane is marking: its GATE is open or it is on a mark (R221). -/
def marking (s : State) (n : Nat) : Bool := gateOf s n || (lane s n).phase == .marking

/-- DRIFT_APPLY (R221, R233). -/
def execDriftApply (n : Nat) (s : State) : Host.Outcome State Fault Refusal :=
  whileClocked s fun s =>
    match (lane s n).drift with
    | none => s
    | some d =>
      if d.apply = 1 && marking s n then s
      else
        let s := (List.range 8).foldl (fun s i =>
          if d.mask.testBit i then wrI s ((driftRegs n).getD i 0) (d.terms.getD i 0) else s) s
        finishRun (updLane s n (fun l => { l with drift := none })) 0x0207 n .ok (tickNo s) 0 0 0

/-- DRIFT_TIMEOUT (R233): nothing is applied. -/
def execDriftTimeout (n : Nat) (s : State) : Host.Outcome State Fault Refusal :=
  whileClocked s fun s =>
    match (lane s n).drift with
    | some d => if d.apply = 1 && (findRun s 0x0207 n).all (Running.aged s 1000000000) then finishRun (updLane s n (fun l => { l with drift := none })) 0x0207 n .timeout 0 0 0 0 else s
    | none => s

/-! ### COMMIT of group SCN (R236) -/

/-- The checks of group SCN. -/
def scnChecks (_s n : State) : List (Nat × Bool) :=
  let ok (lo hi v : Nat) : Bool := decide (lo ≤ v) && decide (v ≤ hi)
  [(0x0301, lanes24.all (fun l => ok 1000 20000000 (rdN n (SCN_VMAX_MARK l)) && ok 1000 40000000 (rdN n (SCN_VMAX_JUMP l)) &&
      ok 100 1000000 (rdN n (SCN_ACCEL l)) && ok 1 4000000 (rdN n (SCN_JERK l)) && ok 1000 10000000 (rdN n (SCN_ZVMAX l)) &&
      ok 100 1000000 (rdN n (SCN_ZACCEL l)) && ok 1 4000000 (rdN n (SCN_ZJERK l)))),
   (0x0302, lanes24.all (fun l => decide (rdN n (SCN_VMAX_MARK l) ≤ rdN n (SCN_VMAX_JUMP l)))),
   (0x0303, lanes24.all (fun l => !flag n (SCN_DEV_CFG l) 31 || decide (2 ≤ linkGen n l))),
   (0x0304, lanes24.all (fun l => fld n (SCN_DEV_CFG l) 7 0 != 0 && fld n (SCN_DEV_CFG l) 15 8 != 0 &&
      fld n (SCN_DEV_WIN l) 15 0 != 0 && fld n (SCN_DEV_WIN l) 31 16 != 0))]

end Sys2Proof.Machine
end

