-- ==== Sys2Proof/Machine/Stream.lean ====
section
/-!
DEFINITION. Jobs, recipes, lane sets and layer images (R148 to R177): the structures and their checks, the load pass and
refill.
-/

namespace Sys2Proof.Machine

/-! ### Vector records (R154 to R156) -/

/-- The record that 32 bytes hold, its CRC apart. -/
def recOf (b : List Byte) : VRec :=
  let w (i : Nat) : Nat := leAt b (4 * i) 4
  { ty := natBits (w 0) 31 28, recipe := natBits (w 0) 27 18, laneset := natBits (w 0) 17 10, flags := natBits (w 0) 9 0
    sx := sgn 32 (w 1), sy := sgn 32 (w 2), ex := sgn 32 (w 3), ey := sgn 32 (w 4)
    focus := sgn 16 (natBits (w 5) 31 16), arg := natBits (w 5) 15 0, vid := w 6 }

/-- The 28 bytes of a record before its CRC. -/
def VRec.head (r : VRec) : List Byte :=
  leBytes 4 (r.ty * 2 ^ 28 + r.recipe * 2 ^ 18 + r.laneset * 2 ^ 10 + r.flags) ++ leBytes 4 (unsgn 32 r.sx) ++
  leBytes 4 (unsgn 32 r.sy) ++ leBytes 4 (unsgn 32 r.ex) ++ leBytes 4 (unsgn 32 r.ey) ++
  leBytes 4 (unsgn 16 r.focus * 65536 + r.arg) ++ leBytes 4 r.vid

/-- The 32 bytes of a record. -/
def VRec.bytes (r : VRec) : List Byte := r.head ++ leBytes 4 (crc32c r.head)

/-- The CRC of 32 record bytes is right (R155). -/
def recCrcOk (b : List Byte) : Bool := crc32c (b.take 28) == leAt b 28 4

/-- The words of a record that its type fixes, RECIPE and LANESET apart (R156, check 0x0014). -/
def wordsOk (r : VRec) : Bool :=
  let zero := r.sx == 0 && r.sy == 0 && r.ex == 0 && r.ey == 0
  let tail := r.sy == 0 && r.ex == 0 && r.ey == 0
  let moved := r.sx != r.ex || r.sy != r.ey
  let bare := r.laneset == 0 && r.flags == 0
  match r.ty with
  | 0 => decide (r.flags < 8) && moved && r.arg == 0
  | 1 => bare && r.arg == 0
  | 2 => decide (r.flags < 8) && !r.flags.testBit 0 && moved && decide (1 ≤ r.arg)
  | 3 => bare && r.recipe == 0 && !moved && r.focus == 0 && decide (1 ≤ r.arg)
  | 4 => bare && zero && r.focus == 0 && decide (r.arg ≤ 10000)
  | 5 => bare && r.recipe == 0 && tail && r.focus == 0 && r.arg == 0
  | _ => bare && r.recipe == 0 && tail && r.focus == 0 && r.arg == 0

/-- The candidates of a lane set, as (device, lane), valid ones only (R166); none when it is undefined. -/
def candidates (s : State) (i : Nat) : List (Nat × Nat) :=
  ((mget [] s.seq.laneSets i).filter (fun c => c.testBit 15)).map (fun c => (natBits c 12 8, natBits c 4 0))

/-- A lane set is defined. -/
def laneSetDefined (s : State) (i : Nat) : Bool := s.seq.laneSets.any (fun p => p.1 == i)

/-- The lowest VECTOR_ID that check 0x0015 accepts at record `i` of a stream (R176). -/
def expectedVid (e : StreamEntry) (i prev : Nat) : Nat :=
  if i = 0 then e.firstId else if i + 1 = e.count then e.lastId else prev + 1

/-- The per-record checks of R171 on record `i` of the stream of lane `n`, after VECTOR_ID `prev`: the first that fails, or
0. -/
def recCheck (s : State) (n : Nat) (e : StreamEntry) (i prev : Nat) (b : List Byte) : Nat :=
  let r := recOf b
  let isEnd := r.ty == 15
  if !recCrcOk b then 0x10
  else if !(decide (r.ty ≤ 5) || isEnd) || (isEnd != decide (i + 1 = e.count)) || (isEnd && unsgn 32 r.sx != e.count) then 0x11
  else if (r.ty == 0 || r.ty == 1 || r.ty == 2 || r.ty == 4) && !recipeDefined s r.recipe then 0x12
  else if r.laneset != 0 && !(laneSetDefined s r.laneset && (candidates s r.laneset).head? == some (ownAddr s, n)) then 0x13
  else if !wordsOk r then 0x14
  else if (decide (0 < i) && decide (r.vid ≤ prev)) || (i == 0 && r.vid != e.firstId) || (isEnd && r.vid != e.lastId) then 0x15
  else 0

/-! ### The layer descriptor (R169) -/

/-- The lane entry of lane `n` in a descriptor. -/
def entryOf (d : List Byte) (n : Nat) : StreamEntry :=
  let o := 64 + 32 * n
  ⟨leAt d o 8, leAt d (o + 8) 4, leAt d (o + 12) 4, leAt d (o + 16) 4, leAt d (o + 20) 4⟩

/-- The layer that a descriptor names. -/
def layerOf (d : List Byte) : Layer :=
  let m := leAt d 12 4
  ⟨leAt d 8 4, m, leAt d 16 4, leAt d 20 1, (bitList m 24).map (fun n => (n, entryOf d n)), [], 0⟩

/-- Check 0x0003: reserved fields, FRAMING, alignment, and every stream inside the host area. -/
def descFields (s : State) (addr : Nat) (d : List Byte) : Bool :=
  let l := layerOf d
  let zero (o k : Nat) : Bool := leAt d o k == 0
  addr % 64 == 0 && inHostArea s addr 1024 && decide (l.laneMask < 2 ^ 24) && decide (l.framing ≤ 2) && zero 21 43 && zero 832 188 &&
  lanes24.all (fun n =>
    if l.laneMask.testBit n then
      let e := entryOf d n
      zero (64 + 32 * n + 24) 8 && e.addr % 64 == 0 && decide (1 ≤ e.len) && decide (e.len ≤ 0x40000000) && decide (1 ≤ e.count) &&
        inHostArea s e.addr e.len
    else zero (64 + 32 * n) 32)

/-- The higher lane of the first pair of streams whose VECTOR_ID ranges overlap (check 0x0016). -/
def overlapLane (es : List (Nat × StreamEntry)) : Option Nat :=
  (es.find? (fun p => es.any (fun q =>
    decide (q.1 < p.1) && decide (q.2.firstId ≤ p.2.lastId) && decide (p.2.firstId ≤ q.2.lastId)))).map (·.1)

/-! ### The load pass (R171, R172, R181) -/

/-- What the pass finds: status, check code, lane and record index; on OK the total of records. -/
structure LoadEnd where
  st : Status
  code : Nat
  lane : Nat
  idx : Nat
  total : Nat
  sets : List Nat
  deriving DecidableEq, Repr

/-- The status of a check code (R171, R485). -/
def loadStatus (code : Nat) : Status :=
  if code = 2 || code = 6 || code = 9 || code = 0x10 then .dataCrc else if code = 7 then .expansionLimit else .badParam

/-- The expansion of a stream under the quad decompressor's limit (R506). -/
def streamOut (s : State) (framing : Nat) (e : StreamEntry) : Expanded :=
  expand framing (fld s CMP_LIMIT 7 0) (fld s CMP_LIMIT 31 16) true (dramBytes s e.addr e.len)

/-- The check that an output too short fails (R171): its length is known where the DEFLATE data ends, before any trailer. -/
def shortCode (x : Expanded) : Nat := if x.body || x.err = 0 then 8 else x.err

/-- Record `i` of an expansion. -/
def recAt (x : Expanded) (i : Nat) : List Byte := (x.out.drop (32 * i)).take 32

/-- The checks of a stream from record `i` on; `k` records are left. Output beyond the records that the descriptor counts fails check
0x0008 where it begins. -/
def checkRecs (s : State) (n : Nat) (e : StreamEntry) (x : Expanded) : Nat → Nat → Nat → List Nat → Nat × Nat × List Nat
  | 0, i, _, sets =>
    (if 32 * e.count < x.out.length then 8 else if x.out.length = 32 * e.count then x.err else shortCode x, i, sets)
  | k + 1, i, prev, sets =>
    let b := recAt x i
    let c := recCheck s n e i prev b
    let r := recOf b
    if c ≠ 0 then (c, i, sets)
    else checkRecs s n e x k (i + 1) r.vid (if r.laneset = 0 || sets.contains r.laneset then sets else r.laneset :: sets)

/-- The streams in ascending order. -/
def checkStreams (s : State) (framing : Nat) : List (Nat × StreamEntry) → Nat → List Nat → LoadEnd
  | [], total, sets => ⟨.ok, 0, 0, 0, total, sets⟩
  | (n, e) :: es, total, sets =>
    let x := streamOut s framing e
    let (c, i, sets) := checkRecs s n e x (satN e.count (x.out.length / 32)) 0 0 sets
    if c ≠ 0 then ⟨loadStatus c, c, n, i, 0, []⟩ else checkStreams s framing es (total + e.count) sets

/-- The whole pass over the descriptor at `addr`, for the layer number that LAYER_LOAD named. -/
def loadPass (s : State) (addr layer : Nat) : LoadEnd :=
  let d := dramBytes s addr 1024
  let l := layerOf d
  if leAt d 0 4 ≠ 0x5259414C || leAt d 4 4 ≠ 1 || l.layer ≠ layer then ⟨.badParam, 1, 0xFF, 0, 0, []⟩
  else if crc32c (d.take 1020) ≠ leAt d 1020 4 then ⟨.dataCrc, 2, 0xFF, 0, 0, []⟩
  else if !descFields s addr d then ⟨.badParam, 3, 0xFF, 0, 0, []⟩
  else
    match overlapLane l.entries with
    | some n => ⟨.badParam, 0x16, n, 0, 0, []⟩
    | none => checkStreams s l.framing l.entries 0 []

/-! ### Commands on jobs (R149, R150) -/

/-- The channel has been trained (R149): TRAINED, READY or SELF_REFRESH. -/
def isTrained (s : State) (c : Nat) : Bool := decide (3 ≤ chState s c) && decide (chState s c ≤ 5)

/-- An area lies in populated, trained DRAM. -/
def areaOk (s : State) (a len : Nat) : Bool :=
  decide (a + len ≤ dramSize s) &&
  (if flag s DDR_STS 0 then isTrained s 0 && isTrained s 1 else isTrained s (chanOf s a) && isTrained s (chanOf s (a + len - 1)))

/-- JOB_OPEN (R149). -/
def execJobOpen (h : Issue) (id hb hl db dl : Nat) (s : State) : Host.Outcome State Fault Refusal :=
  whileClocked s fun s =>
  let mib (a : Nat) : Bool := a % 2 ^ 20 == 0
  hostCmd s h (.jobOpen h id hb hl db dl) 0x0101 48
    (fun s => [(decide (1 ≤ id) && mib hb && mib hl && mib db && mib dl && decide (2 ^ 20 ≤ hl) && decide (2 ^ 24 ≤ dl) &&
                 (decide (hb + hl ≤ db) || decide (db + dl ≤ hb)), .badParam),
               (s.seq.job.isNone, .wrongState), (areaOk s hb hl && areaOk s db dl, .cfgRejected)])
    (fun s =>
      let s := { s with seq := { s.seq with job := some id, hostBase := hb, hostLen := hl, devBase := db, devLen := dl
                                            lastDev := some db, recipes := [], laneSets := [] } }
      let s := setLayerSt s stIdle
      complete (burnFillStart s) h 0x0101 .ok id 0 0 0)

/-- JOB_CLOSE (R150). -/
def execJobClose (h : Issue) (id : Nat) (s : State) : Host.Outcome State Fault Refusal :=
  whileClocked s fun s =>
  hostCmd s h (.jobClose h id) 0x0102 48
    (fun s => [(s.seq.job == some id, .badParam),
               (layerSt s == stIdle || layerSt s == stDone || layerSt s == stAborted, .wrongState)])
    (fun s =>
      let s := { s with seq := { s.seq with job := none, recipes := [], laneSets := [], held := none }
                        burn := { s.burn with fill := false } }
      let s := setFlag (setBurnBusy s s.burn.ended.isSome) BURN_STS 0 false
      complete (wrN (setLayerSt s stIdle) SEQ_LAYER 0) h 0x0102 .ok 0 0 0 0)

/-- The tables may be loaded (R165). -/
def tablesOpen (s : State) : Bool := s.seq.job.isSome && !inLayer s

/-! ### Recipes and lane sets (R161 to R168) -/

/-- The recipe that 64 bytes hold. -/
def recipeAt (b : List Byte) : Recipe :=
  { flags := leAt b 2 2, power := leAt b 4 4, markSpeed := leAt b 8 4, jumpSpeed := leAt b 12 4, focus := sgn 16 (leAt b 16 2)
    headroom := leAt b 18 1, loopEn := leAt b 19 1, onDelay := sgn 32 (leAt b 20 4), offDelay := sgn 32 (leAt b 24 4)
    settle := leAt b 28 2, setpoints := (List.range 4).map (fun i => leAt b (32 + 4 * i) 4)
    corners := (List.range 8).map (fun i => leAt b (48 + 2 * i) 2) }

/-- A corner table in order (R161): angles 1 to 180, rising, unused entries 0 behind them. -/
def cornersOk : Nat → List Nat → Bool
  | _, [] => true
  | a, c :: cs =>
    if c = 0 then cs.all (· == 0)
    else decide (a < c / 256) && decide (c / 256 ≤ 180) && cornersOk (c / 256) cs

/-- Every field of recipe number `k` lies within its range (R161, R165). -/
def recipeOk (b : List Byte) (k : Nat) : Bool :=
  let r := recipeAt b
  let within (lo hi : Int) (v : Int) : Bool := decide (lo ≤ v) && decide (v ≤ hi)
  leAt b 0 2 == k && decide (r.flags < 2) && decide (r.power ≤ 65535000) && within 1000 20000000 r.markSpeed &&
  within 1000 40000000 r.jumpSpeed && decide (r.loopEn < 16) && within (-200000) 200000 r.onDelay &&
  within (-200000) 200000 r.offDelay && decide (r.settle ≤ 1000) && leAt b 30 2 == 0 && cornersOk 0 r.corners

/-- Entry `i` of records of `k` bytes. -/
def slice (b : List Byte) (i k : Nat) : List Byte := (b.drop (k * i)).take k

/-- The recipe table in the miscellaneous SRAM region (R46, R161), 64 bytes a recipe in order of number. The spec gives the region and
not the table's place in it: its end (assumption 102). -/
def recipeTable : Nat := 0x1F70000

/-- RECIPE_LOAD (R164, R165): `block` holds the parameter block from byte 48 on. ADDR belongs to SOURCE 1 and
is zero otherwise (assumption 32). -/
def execRecipeLoad (h : Issue) (first cnt source addr : Nat) (block : List Nat) (s : State) : Host.Outcome State Fault Refusal :=
  whileClocked s fun s =>
  hostCmd s h (.recipeLoad h first cnt source addr block) 0x0103 48
    (fun s => [(decide (first < 1024) && decide (1 ≤ cnt) && decide (first + cnt ≤ 1024) && decide (source < 2) &&
                 (if source = 0 then Issue.paramPtr h && decide (48 + 64 * cnt ≤ h.ptrLen) && addr == 0
                  else addr % 64 == 0 && (s.seq.job.isNone || inHostArea s addr (64 * cnt))), .badParam),
               (tablesOpen s, .wrongState), (source == 0 || dramOk s addr (64 * cnt), .cfgRejected)])
    (fun s =>
      let b := if source = 0 then block.map (BitVec.ofNat 8) else dramBytes s addr (64 * cnt)
      match (List.range cnt).find? (fun i => !recipeOk (slice b i 64) (first + i)) with
      | some i => complete s h 0x0103 .badParam 0 i 0 0
      | none =>
        let rs := (List.range cnt).foldl (fun rs i => mset rs (first + i) (recipeAt (slice b i 64))) s.seq.recipes
        complete (putSram { s with seq := { s.seq with recipes := rs } } (recipeTable + 64 * first) (padTo (64 * cnt) b)) h 0x0103 .ok rs.length 0 0 0)

/-- A candidate's bits are a valid candidate or all zero (R166). -/
def candOk (c : Nat) : Bool := if c.testBit 15 then natBits c 14 13 == 0 && natBits c 7 5 == 0 && decide (natBits c 4 0 < 24) else c == 0

/-- A lane set keeps R166 on the device at `own`. -/
def laneSetOk (own : Nat) (cs : List Nat) : Bool :=
  let v := cs.takeWhile (fun c => c.testBit 15)
  cs.all candOk && (match v with
    | c :: _ => natBits c 12 8 == own
    | [] => false) && (cs.drop v.length).all (· == 0) && decide v.Nodup

/-- LANESET_LOAD (R167): `inl` holds bytes 32 to 63, `block` the parameter block from byte 48 on. ADDR belongs to SOURCE 1 and is zero
otherwise (assumption 32). -/
def execLanesetLoad (h : Issue) (first cnt source addr : Nat) (inl block : List Nat) (s : State) : Host.Outcome State Fault Refusal :=
  whileClocked s fun s =>
  hostCmd s h (.lanesetLoad h first cnt source addr inl block) 0x0104 48
    (fun s => [(decide (1 ≤ first) && decide (first ≤ 255) && decide (1 ≤ cnt) && decide (first + cnt ≤ 256) && decide (source < 3) &&
                 (if source = 0 then Issue.paramPtr h && decide (48 + 8 * cnt ≤ h.ptrLen) && addr == 0
                  else if source = 1 then addr % 8 == 0 && (s.seq.job.isNone || inHostArea s addr (8 * cnt))
                  else decide (cnt ≤ 4) && addr == 0) && (source == 2 || inl.all (· == 0)), .badParam),
               (tablesOpen s, .wrongState), (source != 1 || dramOk s addr (8 * cnt), .cfgRejected)])
    (fun s =>
      let b := if source = 0 then block.map (BitVec.ofNat 8) else if source = 1 then dramBytes s addr (8 * cnt)
               else inl.map (BitVec.ofNat 8)
      let set (i : Nat) : List Nat := (List.range 4).map (fun c => leAt b (8 * i + 2 * c) 2)
      match (List.range cnt).find? (fun i => !laneSetOk (ownAddr s) (set i)) with
      | some i => complete s h 0x0104 .badParam 0 i 0 0
      | none =>
        let ls := (List.range cnt).foldl (fun ls i => mset ls (first + i) (set i)) s.seq.laneSets
        complete { s with seq := { s.seq with laneSets := ls } } h 0x0104 .ok ls.length 0 0 0)

/-! ### Loading a layer (R178, R180, R181) -/

/-- The quads whose decompressors run the pass or not, as `CMP_Qq_STS` shows it. -/
def loadShow (s : State) (b : Bool) : State := (List.range 6).foldl (fun s q => setFlag s (CMP_Q_STS q) 8 b) s

/-- LAYER_LOAD (R178, R181): the pass starts. -/
def execLayerLoad (h : Issue) (addr layer : Nat) (s : State) : Host.Outcome State Fault Refusal :=
  whileClocked s fun s =>
  hostCmd s h (.layerLoad h addr layer) 0x0105 48
    (fun s => [(s.seq.job.isSome && quietLayer s, .wrongState)])
    (fun s =>
      let s := { s with seq := { s.seq with held := none, loading := some addr, loadBad := false } }
      let s := loadShow (wrN (setLayerSt s stLoading) SEQ_LAYER 0) true
      startRun s h 0x0105 0 [layer])

/-- Uncorrectable data met at record `i` of lane `n` (lane 0xFF: the descriptor) comes before the failure that the pass finds. -/
def badFirst (e : LoadEnd) (n i : Nat) : Bool :=
  n == 0xFF || e.code == 0 || (e.lane != 0xFF && e.code != 0x16 && (decide (n < e.lane) || (n == e.lane && decide (i ≤ e.idx))))

/-- LOAD_PASS_END (R172, R181): the pass decides. Data found uncorrectable in it (R485) fails check 0x0009, at the lane and record
given; the first failure decides. On OK no lane or record is concerned, and RESULT1, RESULT2 and SEQ_LOAD_RESULT.LANE are 0
(assumption 101). -/
def execLoadPassEnd (badLane badIdx : Nat) (s : State) : Host.Outcome State Fault Refusal :=
  whileClocked s fun s =>
    match s.seq.loading, findRun s 0x0105 0 with
    | some addr, some r =>
      if layerSt s ≠ stLoading then s
      else
        let e := loadPass s addr (r.aux.headD 0)
        let e := if s.seq.loadBad && badFirst e badLane badIdx then ⟨.dataCrc, 9, badLane, badIdx, 0, []⟩ else e
        let l := layerOf (dramBytes s addr 1024)
        let s := { s with seq := { s.seq with loading := none, loadBad := false } }
        let s := loadShow (wrN (setFld (setFld s SEQ_LOAD_RESULT 31 16 e.code) SEQ_LOAD_RESULT 15 8 e.lane) SEQ_LOAD_RECORD e.idx) false
        let s :=
          if e.st == .ok then
            let s := { s with seq := { s.seq with held := some { l with sets := e.sets, total := e.total }, lastLayer := l.layer } }
            wr64 (wrN (setLayerSt s stLoaded) SEQ_LAYER l.layer) SEQ_START_LO SEQ_START_HI 0
          else setLayerSt s stIdle
        finishRun s 0x0105 0 e.st e.code e.lane e.idx e.total
    | _, _ => s

/-! ### Latent image buffers and refill (R173 to R176) -/

/-- Slots of a latent image buffer. -/
def imageSlots : Nat := 16384

/-- The slot of record `i` of lane `n`. -/
def slotOf (s : State) (n i : Nat) : Nat := imageSlot (engineOf s n) + 32 * (i % imageSlots)

/-- Record `i` of lane `n` as its buffer holds it. -/
def imageRec (s : State) (n i : Nat) : VRec := recOf (sramBytes s (slotOf s n i) 32)

/-- Stream entry of lane `n` in the layer held. -/
def streamOf (s : State) (n : Nat) : Option StreamEntry :=
  match s.seq.held with
  | some l => mget none (l.entries.map (fun p => (p.1, some p.2))) n
  | none => none

/-- Records of lane `n` that it has taken from its buffer and not passed: the current one, its successor and those it keeps. -/
def inFlight (s : State) (n : Nat) : List Work :=
  let l := lane s n
  (l.cur.toList ++ l.succ.toList ++ l.kept).filter (fun w => w.src == 0 || (w.src == 1 && w.home == n))

/-- Unexecuted records in the buffer of lane `n`: those not yet taken, those in flight and the markers among them. -/
def unexecuted (s : State) (n : Nat) : Nat :=
  let l := lane s n
  l.written - l.head + (inFlight s n).length + l.passed.length

/-- `LN_STS.FILL` follows the buffer (R202). -/
def fillShow (s : State) (n : Nat) : State := setFld s (LN_STS n) 14 0 (satN 16383 (unexecuted s n))

/-- The oldest record of lane `n` whose slot is not free: one that the lane has not passed, or an unresolved pool entry (R174,
R175). -/
def oldestHeld (s : State) (n : Nat) : Nat :=
  ((inFlight s n).map (·.idx) ++ (s.ovl.pool.filter (fun e => e.home == n)).map (·.idx)).foldl (fun m i => if i < m then i else m) (lane s n).head

/-- The zone that a lane set maps to, when it is enabled (R265). -/
def zoneOf (s : State) (i : Nat) : Option Nat :=
  let b := fld s (OVL_ZMAP (i / 4)) (8 * (i % 4) + 7) (8 * (i % 4))
  if b.testBit 7 && flag s (ZONE_CFG (b % 64)) 31 then some (b % 64) else none

/-- A whole record, number `i` of its stream and with the estimated duration held with it (R268), as work of its home lane. -/
def workOf (n i tr : Nat) (r : VRec) : Work :=
  ⟨r, 0, VRec.len r, 0, 0, 0, n, 0, none, 0, tr, i, 0⟩

/-- Whether a record of lane `n` enters a pool, and the zone (R175, R265). A lane set without an enabled zone is recorded once
per layer. -/
def poolZone (s : State) (n : Nat) (r : VRec) : State × Option Nat :=
  if !(VRec.isMark r && decide (1 < (candidates s r.laneset).length)) then (s, none)
  else
    match zoneOf s r.laneset with
    | some z => (s, some z)
    | none =>
      if s.seq.unmapped.contains r.laneset then (s, none)
      else (event { s with seq := { s.seq with unmapped := r.laneset :: s.seq.unmapped } } (srcLane n) 0x1301
              (leBytes 4 r.vid ++ leBytes 1 r.laneset), none)

/-- One checked record written to the buffer of lane `n` (R173, R175, R268). -/
def putRec (s : State) (n : Nat) (b : List Byte) : State :=
  let i := (lane s n).written
  let r := recOf b
  let s := putSram s (slotOf s n i) b
  let (s, z) := poolZone s n r
  let w := workOf n i (trOf s n r (VRec.len r)) r
  match z with
  | some z =>
    let e : PoolEntry := ⟨i, z, n, { w with src := 1, zone := z }, .opened, 0, true⟩
    updLane { s with ovl := { s.ovl with pool := insertBy (fun e : PoolEntry => e.work.rcd.vid) e s.ovl.pool } } n
      (fun l => { l with written := i + 1, trs := l.trs ++ [0] })
  | none => updLane s n (fun l => { l with written := i + 1, trs := l.trs ++ [w.tr], trSum := l.trSum + w.tr, trCount := l.trCount + 1 })

/-- VECTOR_ID of the record before `i` in the buffer of lane `n`. -/
def prevVid (s : State) (n i : Nat) : Nat := if i = 0 then 0 else (imageRec s n (i - 1)).vid

/-- Up to `k` records of an expansion written; the first that fails a check stops refill of the lane (R176). `bad` is the
record whose data was uncorrectable (R485). Where the stream ends or fails with no whole record there, the spec states no stored
VECTOR_ID: it is a free value (assumption 33). -/
def putRecs (n : Nat) (e : StreamEntry) (x : Expanded) (bad : Option Nat) : Nat → State → State
  | 0, s => s
  | k + 1, s =>
    let i := (lane s n).written
    let b := recAt x i
    let prev := prevVid s n i
    let want := expectedVid e i prev
    let refuse (c v : Nat) : State := updLane s n (fun l => { l with refillErr := some (c, v, want) })
    if bad = some i then refuse 9 (recOf b).vid
    else if x.out.length < 32 * (i + 1) then tick1 (refuse (shortCode x) (Config.freeWord s.freeCtr).toNat)
    else
      let c := recCheck s n e i prev b
      if c ≠ 0 then refuse c (recOf b).vid else putRecs n e x bad k (putRec s n b)

/-- A lane is primed (R176): its buffer is full or holds the whole stream, or the whole of it that passes its checks. -/
def primed (s : State) (n : Nat) : Bool :=
  let l := lane s n
  match streamOf s n with
  | some e => decide (imageSlots ≤ l.written - l.head) || l.written == e.count || l.refillErr.isSome
  | none => true

/-- Records primed (R182). -/
def primedCount (s : State) : Nat := sumN ((bitList (laneMask s) 24).map (fun n => (lane s n).written))

/-- LAYER_ARM completes when every lane of LANE_MASK is primed (R182). -/
def primeDone (s : State) : State :=
  let s := lanes24.foldl (fun s n => if (lane s n).phase == .priming && primed s n then setPhase s n .ready else s) s
  if inLayer s && (bitList (laneMask s) 24).all (primed s) then finishRun s 0x0106 0 .ok (primedCount s) 0 0 0 else s

/-- The lane that the decompressor of quad `q` serves next (R176): the fewest unexecuted records, with at least 64 free
slots. -/
def refillLane (s : State) (q : Nat) : Option Nat :=
  let wants (n : Nat) : Bool :=
    match streamOf s n with
    | some e =>
      let l := lane s n
      decide (l.written < e.count) && l.refillErr.isNone && decide (l.written - oldestHeld s n + 64 ≤ imageSlots)
    | none => false
  ((sortBy (unexecuted s) ((List.range 4).map (fun i => 4 * q + i))).filter wants).head?

/-- REFILL_CHUNK (R173 to R176): quad `q` writes a chunk of 64 records, or the rest of the stream. `bad` names the record of the stream
whose data was uncorrectable, when a read of refill has met such data. The decoder's state is that of the stream expanded up to the
records written, and the output that back-references reach lies in the buffer as it was written (R174). -/
def execRefillChunk (q : Nat) (bad : Option Nat) (s : State) : Host.Outcome State Fault Refusal :=
  whileClocked s fun s =>
    if !inLayer s then s
    else
      match refillLane s q with
      | none => setFld s (CMP_Q_STS q) 7 0 0xFF
      | some n =>
        match streamOf s n, s.seq.held with
        | some e, some l =>
          let w := (lane s n).written
          let k := satN 64 (e.count - w)
          let hit := (lane s n).refillBad
          let s := updLane s n (fun l => { l with refillBad := false })
          let s := putRecs n e (streamOut s l.framing e) (if hit then bad else none) k s
          let made := 32 * ((lane s n).written - w)
          let s := setFld (wrN s (CMP_Q_OUT q) (rdN s (CMP_Q_OUT q) + made)) (CMP_Q_STS q) 7 0 n
          primeDone (poolShow (fillShow s n))
        | _, _ => s

end Sys2Proof.Machine
end

