-- ==== Sys2Proof/Machine/Overlap.lean ====
section
/-!
DEFINITION. Overlap zones, pools and handoff between devices (R265 to R284, R291 to R296): estimates, who qualifies, stitch
splits, ramps, the handoff tokens and the overlap commands.
-/

namespace Sys2Proof.Machine

/-! ### Estimates (R268 to R271) -/

/-- Cross-device features are withdrawn (R293). -/
def withdrawn (s : State) : Bool := flag s OVL_STS 0

/-- Time left of the current record of lane `n` in ns, from its planned profile (R269); what has not begun counts whole. -/
def curRem (s : State) (n : Nat) : Nat :=
  let l := lane s n
  match l.cur with
  | none => 0
  | some w =>
    let m := (l.motion.dur - l.motion.t) / 1000000
    match l.phase with
    | .marking => m
    | .dwell => l.holdFs / 1000000
    | .switching => l.holdFs / 1000000
    | _ => if w.rcd.ty = 1 then m else m + w.tr

/-- Own pool entries of lane `n` that no lane has taken. -/
def openOwn (s : State) (n : Nat) : List PoolEntry := s.ovl.pool.filter (fun e => e.home == n && e.state == .opened)

/-- Estimated durations of some work, in ns. -/
def trSum (ws : List Work) : Nat := sumN (ws.map (·.tr))

/-- Mean duration of the lane's own records decompressed so far, in ns (R269). -/
def trAvg (l : Lane) : Nat := if l.trCount = 0 then 0 else l.trSum / l.trCount

/-- The remaining-work estimate E of lane `n` in µs (R269). -/
def estE (s : State) (n : Nat) : Nat :=
  let l := lane s n
  let unexp := match streamOf s n with
    | some e => e.count - l.written
    | none => 0
  let ns := curRem s n + trSum l.succ.toList + sumN l.trs + unexp * trAvg l + trSum l.claimed + trSum ((openOwn s n).map (·.work)) + trSum l.kept
  satN (2 ^ 32 - 1) (ns / 1000)

/-- The queued time Q of lane `n` in µs (R270); segments of its own entries wait with the claims and are none. -/
def estQ (s : State) (n : Nat) : Nat :=
  let l := lane s n
  satN (2 ^ 32 - 1) ((curRem s n + trSum l.succ.toList + trSum (l.claimed.filter (fun w => decide (2 ≤ w.src)))) / 1000)

/-- The lane is open (R270). A lane enabled since LAYER_ARM takes part from the next one on (assumption 103). -/
def laneOpen (s : State) (n : Nat) : Bool :=
  let p := (lane s n).phase
  layerSt s == stExposing && flag s (LN_CFG n) 0 && p != .idle && p != .halted && p != .parked && p != .stopping &&
    decide (estQ s n < fld s OVL_CFG 15 0)

/-- `OVL_ESTn` follows the estimates at every boundary (R271). -/
def estRegs (s : State) : State :=
  lanes24.foldl (fun s n =>
    let e := estE s n
    if rdN s (OVL_EST n) = e then s else wrN s (OVL_EST n) e) s

/-- EST_PERIOD in ns. -/
def estPeriod (s : State) : Nat := fld s OVL_CFG2 7 0 * 1000

/-- A remote estimate is too old to count (R271). -/
def estOld (s : State) (r : RemoteEst) : Bool := decide (r.sent + 4 * estPeriod s < now s)

/-- The owner's aged view of a remote lane (R271). -/
def estView (s : State) (r : RemoteEst) : Nat := r.e - (now s - r.sent) / 1000

/-- The estimate of a remote lane by global number. -/
def remoteEst (s : State) (g : Nat) : Option RemoteEst := mget none (s.ovl.ests.map (fun p => (p.1, some p.2))) g

/-- `OVL_STS.EST_STALE` follows the ages (R271). -/
def estShow (s : State) : State := setFlag s OVL_STS 1 (s.ovl.ests.any (fun p => estOld s p.2))

/-! ### Candidates (R272) -/

/-- Global lanes of an entry's lane set, home excluded. -/
def others (s : State) (w : Work) : List Nat := ((candidates s w.rcd.laneset).drop 1).map (fun c => c.1 * 24 + c.2)

/-- The lane of this device with a global number. -/
def localLane (s : State) (g : Nat) : Option Nat := if g / 24 = ownAddr s then some (g % 24) else none

/-- The estimate of the home lane `n` in µs; none while it is halted, which stands for no bound (R272). -/
def homeEst (s : State) (n : Nat) : Option Nat := if (lane s n).phase == .halted then none else some (estE s n)

/-- E + t_V + MARGIN ≤ E_H (R272). -/
def fits (s : State) (e tV : Nat) (eh : Option Nat) : Bool :=
  match eh with
  | none => true
  | some h => decide (e + tV + fld s OVL_CFG 31 16 ≤ h)

/-- A candidate other than home, by global number, is open, as the device sees it; its E. A candidate of another device does
not count while cross-device features are withdrawn (R293). -/
def openE (s : State) (g : Nat) : Option Nat :=
  match localLane s g with
  | some n => if laneOpen s n then some (estE s n) else none
  | none =>
    if withdrawn s then none
    else
      match remoteEst s g with
      | some r => if r.open_ && r.exposing && !estOld s r && decide (r.q < fld s OVL_CFG 15 0) then some (estView s r) else none
      | none => none

/-- An entry has a candidate on another device: while withdrawn only its home lane takes it (R293). -/
def stayHome (s : State) (w : Work) : Bool := withdrawn s && (others s w).any (fun g => (localLane s g).isNone)

/-- Some candidate qualifies for an entry of home lane `n` (R272, R275). -/
def anyQualifies (s : State) (n : Nat) (w : Work) : Bool :=
  !stayHome s w && (others s w).any (fun g =>
    match openE s g with
    | some e => fits s e (w.tr / 1000) (homeEst s n)
    | none => false)

/-! ### Stitch splits (R280 to R283) -/

/-- STITCH_OVERLAP of a zone in PLU. -/
def stitchOv (s : State) (z : Nat) : Nat := fld s (ZONE_CFG z) 7 0 * 64

/-- The side of the stitch line on which a point lies: (point − line point) · n. -/
def sideOf (s : State) (z : Nat) (x y : Int) : Int :=
  (x - rdI s (ZONE_LINE_X z)) * fldI s (ZONE_NORMAL z) 15 0 + (y - rdI s (ZONE_LINE_Y z)) * fldI s (ZONE_NORMAL z) 31 16

/-- The distance at which a record crosses the stitch line, in PLU, to the nearest. -/
def crossing (s : State) (z : Nat) (r : VRec) : Option Int :=
  let a := sideOf s z r.sx r.sy
  let b := sideOf s z r.ex r.ey
  if a = b then none
  else some (if b < a then rdiv (a * VRec.len r) (a - b).toNat else rdiv (-a * VRec.len r) (b - a).toNat)

/-- The crossing of a valid split (R280). -/
def splitAt (s : State) (z : Nat) (w : Work) : Option Int :=
  if w.rcd.ty ≠ 2 || w.seg ≠ 0 || w.resume.isSome then none
  else
    match crossing s z w.rcd with
    | none => none
    | some c =>
      let h : Int := stitchOv s z / 2 + 64
      if h ≤ c && decide (c ≤ VRec.len w.rcd - h) then some c else none

/-- The stagger of a vector in µm (R282). -/
def stagger (seed vid amp : Nat) : Int :=
  let h := ((seed ^^^ vid) * 0x9E3779B1) % 2 ^ 32
  ((h / 65536) * (2 * amp + 1) / 65536 : Nat) - (amp : Int)

/-- The split distance (R281) for a crossing `c` and the estimates of the lanes of the two sides. -/
def splitDist (s : State) (z : Nat) (w : Work) (c : Int) (ea eb : Nat) : Int :=
  let half : Int := w.rcd.arg * 64
  let ov : Int := stitchOv s z
  let v := (recipeOf s w.rcd.recipe).markSpeed / 125000
  let b := clampI (-half) half (-(fdiv (((ea : Int) - eb) * v) 2))
  let seed := match s.seq.held with
    | some l => l.seed
    | none => 0
  let g := stagger seed w.rcd.vid (fld s (ZONE_CFG z) 25 16) * 8
  let a1 := c - half
  let a2 := ov / 2 + 64
  let b1 := c + half
  let b2 := (VRec.len w.rcd : Int) - ov / 2 - 64
  clampI (if a1 < a2 then a2 else a1) (if b1 < b2 then b1 else b2) (c + b + g)

/-- The start-side and end-side segments of a split at `d`. -/
def segments (s : State) (n : Nat) (w : Work) (d : Int) : Work × Work :=
  let ov : Int := stitchOv s w.zone
  (ownTr s n { w with lo := 0, hi := d + ov / 2, split := d, seg := 1, ov := ov.toNat },
   ownTr s n { w with lo := d - ov / 2, hi := VRec.len w.rcd, split := d, seg := 2, ov := ov.toNat })

/-- The stitch ramp factor in 2^−16 at distance `u16` (2^−16 PLU) along the record (R283); the two factors of a split sum to
1 everywhere. -/
def stitchRamp (w : Work) (u16 : Int) : Nat :=
  if w.seg = 0 || w.ov = 0 then 65536
  else
    let up := clampI 0 65536 (fdiv (u16 - (w.split - (w.ov : Int) / 2) * 65536) w.ov)
    if w.seg = 2 then up.toNat else (65536 - up).toNat

/-! ### Pool entries (R267) -/

/-- The entry that a piece of work of this device's pools stands for. -/
def sameEntry (w : Work) (e : PoolEntry) : Bool := e.home == w.home && e.work.rcd.vid == w.rcd.vid && e.work.seg == w.seg

/-- `s` with `f` applied to the entry of `w`. -/
def updEntry (s : State) (w : Work) (f : PoolEntry → PoolEntry) : State :=
  { s with ovl := { s.ovl with pool := s.ovl.pool.map (fun e => if sameEntry w e then f e else e) } }

/-- GATE rises on the mark of an entry: STARTED (R267). -/
def startEntry (s : State) (w : Work) : State :=
  if w.src = 1 || w.src = 2 then poolShow (updEntry s w (fun e => { e with state := .started, grantable := false })) else s

/-- An entry is resolved (R267): it leaves its pool. -/
def dropEntry (s : State) (p : PoolEntry → Bool) : State :=
  poolShow { s with ovl := { s.ovl with pool := s.ovl.pool.filter (fun e => !p e) } }

/-- A mark of pool work ends on lane `n` (R267, R277): DONE to a remote owner; a local entry is resolved, and counted for its
home lane when another marked it. -/
def doneWork (s : State) (n : Nat) (w : Work) (atNs : Nat) : State :=
  if w.src = 3 then sendMsg s w.home tyDone [w.seg, 0, globalLane s n, w.rcd.vid, atNs]
  else if w.src = 0 then s
  else
    let s := if w.src = 2 then count s w.home 12 1 else s
    dropEntry s (sameEntry w)

/-! ### Handoff tokens (R271, R273, R276 to R279) -/

/-- ESTIMATE_SEND (R271): the estimates of the named lanes to every plate-group member. Which lanes are candidates in other
devices' lane sets is theirs to know, so the row names them. -/
def execEstimateSend (lanes : Nat) (s : State) : Host.Outcome State Fault Refusal :=
  whileClocked s fun s =>
  let ls := bitList lanes 24
  let flags := b2n (s.ovl.excess.testBit (ownAddr s)) + 2 * b2n (layerSt s == stExposing)
  sendGroup s tyEstimate ([flags, ls.length] ++ ls.flatMap (fun n =>
    [globalLane s n, estE s n, estQ s n, b2n (laneOpen s n) + 2 * b2n ((lane s n).phase == .halted)]))

/-- The entries of an ESTIMATE: lane, E, Q and STATE. -/
def estEntries : List Nat → List (Nat × Nat × Nat × Nat)
  | a :: b :: c :: d :: r => (a, b, c, d) :: estEntries r
  | _ => []

/-- ESTIMATE from the device at `src` (R271, R292). DEDUCED: the token carries no time, so its age counts from its arrival. -/
def execEstimateToken (via src flags : Nat) (entries : List Nat) (s : State) : Host.Outcome State Fault Refusal :=
  whileClocked s fun s =>
  delivered s via src tyEstimate ([flags, entries.length / 4] ++ entries) (fun s =>
    let es := (estEntries entries).foldl (fun m e =>
      mset m e.1 ⟨e.2.1, e.2.2.1, now s, e.2.2.2.testBit 0, e.2.2.2.testBit 1, flags.testBit 1⟩) s.ovl.ests
    let x := if flags.testBit 0 then natSet s.ovl.excess src else natClr s.ovl.excess src
    estShow { s with ovl := { s.ovl with ests := es, excess := x } })

/-- EST_STALE (R271). -/
def execEstStale (s : State) : Host.Outcome State Fault Refusal :=
  whileClocked s fun s =>
  estShow s

/-- CLAIM from the device at `src` (R273, R276): it waits for the next boundary. -/
def execClaimToken (via src zone lane_ e q req : Nat) (s : State) : Host.Outcome State Fault Refusal :=
  whileClocked s fun s =>
  delivered s via src tyClaim [zone, 0, lane_, e, q, req] (fun s =>
    { s with ovl := { s.ovl with claims := s.ovl.claims ++ [⟨src, zone, lane_, e, q, req⟩] } })

/-- Lane `n` takes claimed work now (R278): it is neither halted nor in a stop bath, and its layer exposes. -/
def takesClaims (s : State) (n : Nat) : Bool :=
  let p := (lane s n).phase
  layerSt s == stExposing && p != .idle && p != .halted

/-- A RETURN token to the owner of `w`, without marking any of it. -/
def returnUnstarted (s : State) (w : Work) (g : Nat) : State := sendMsg s w.home tyReturn [w.seg, 0, g, w.rcd.vid, 0]

/-- The bytes of a record received as a number. -/
def recBytes32 (n : Nat) : List Byte := leBytes 32 n

/-- GRANT from the owner at `src` (R276): an entry or segment for a lane whose CLAIM waits; a late one, one for a lane that has halted or
stopped since (R278), or a record whose CRC fails (R279), goes back. The overlap of a split is that of its ends and SPLIT. A remainder of
a segment keeps its side, which its ends show; its overlap is the zone's on this device (assumption 104). -/
def execGrantToken (via src zone seg lane_ req notBefore lo hi split rec_ : Nat) (s : State) :
    Host.Outcome State Fault Refusal :=
  whileClocked s fun s =>
  delivered s via src tyGrant [zone, seg, lane_, req, notBefore, lo, hi, split, rec_] (fun s =>
    let n := lane_ % 24
    let b := recBytes32 rec_
    let r := recOf b
    let len := VRec.len r
    let side := if seg ≠ 3 then seg else if lo ≠ 0 then 2 else if hi < len then 1 else 0
    let ov := if seg = 1 then 2 * (hi - split) else if seg = 2 then 2 * (split - lo) else stitchOv s zone
    let d : Int := if seg ≠ 3 then split else if side = 2 then lo + ov / 2 else if side = 1 then (hi : Int) - ov / 2 else 0
    let w := ownTr s n ⟨r, lo, hi, d, side, 3, src, zone, if seg = 3 then some (split : Int) else none, notBefore, 0, 0, ov⟩
    let waits := match (lane s n).claimOut with
      | some (o, _, t) => o == src && t == req
      | none => false
    let s := if waits then updLane s n (fun l => { l with claimOut := none }) else s
    if !waits || !recCrcOk b || withdrawn s || !takesClaims s n then returnUnstarted s w lane_
    else
      satInc (updLane s n (fun l => { l with claimed := l.claimed ++ [w] })) OVL_TAKEN_REMOTE)

/-- DENY (R273): the CLAIM is answered. -/
def execDenyToken (via src zone lane_ req : Nat) (s : State) : Host.Outcome State Fault Refusal :=
  whileClocked s fun s =>
  delivered s via src tyDeny [zone, 0, lane_, req] (fun s =>
    updLane s (lane_ % 24) (fun l => match l.claimOut with
      | some (o, _, t) => if o = src && t = req then { l with claimOut := none } else l
      | none => l))

/-- CLAIM_TIMEOUT (R276). -/
def execClaimTimeout (n : Nat) (s : State) : Host.Outcome State Fault Refusal :=
  whileClocked s fun s =>
  if (lane s n).claimOut.any (fun c => reached s (c.2.2 + 20000)) then
           satInc (updLane s n (fun l => { l with claimOut := none })) OVL_CLAIM_TIMEOUTS
         else s

/-- The entry that the global lane `g` holds under a VECTOR_ID and a SEGMENT (R279); SEGMENT 3, a remainder, names any part. -/
def heldBy (g vid seg : Nat) (e : PoolEntry) : Bool :=
  (e.state == .claimed || e.state == .started) && e.holder == g && e.work.rcd.vid == vid && (seg == 3 || e.work.seg == seg)

/-- RETURN (R278): the entry is OPEN again, as a remainder when RESUME_AT is given. -/
def execReturnToken (via src seg lane_ vid resumeAt : Nat) (s : State) : Host.Outcome State Fault Refusal :=
  whileClocked s fun s =>
  delivered s via src tyReturn [seg, 0, lane_, vid, resumeAt] (fun s =>
    if s.ovl.pool.any (heldBy lane_ vid seg) then
      poolShow (satInc { s with ovl := { s.ovl with pool := s.ovl.pool.map (fun e =>
        if heldBy lane_ vid seg e then
          { e with state := .opened, holder := 0, grantable := true
                   work := if resumeAt = 0 then e.work else ownTr s e.home { e.work with resume := some (resumeAt : Int) } }
        else e) } } OVL_RETURNS)
    else s)

/-- DONE (R277): the owner resolves the entry. -/
def execDoneToken (via src seg lane_ vid endTime : Nat) (s : State) : Host.Outcome State Fault Refusal :=
  whileClocked s fun s =>
  delivered s via src tyDone [seg, 0, lane_, vid, endTime] (fun s =>
    match s.ovl.pool.find? (heldBy lane_ vid seg) with
    | some e => dropEntry (count s e.home 12 1) (heldBy lane_ vid seg)
    | none => s)

/-! ### Border lanes (R290, R291) -/

/-- The records of a POSITION frame: lane, GATE, tick, X and Y. -/
def posRecords : List Int → List BorderPos
  | a :: g :: t :: x :: y :: r => ⟨a.toNat, g != 0, t.toNat, x, y⟩ :: posRecords r
  | _ => []

/-- `OVL_STS.PEER_STALE` follows the peers. -/
def staleShow (s : State) (m : Nat) : State := setFlag { s with ovl := { s.ovl with stale := m } } OVL_STS 2 (m != 0)

/-- POSITION from a peer (R291). -/
def execPositionToken (via src : Nat) (recs : List Int) (s : State) : Host.Outcome State Fault Refusal :=
  whileClocked s fun s =>
  delivered s via src tyPosition (recs.map (unsgn 32)) (fun s =>
    staleShow { s with ovl := { s.ovl with border := mset s.ovl.border src (posRecords recs), heard := mset s.ovl.heard src (now s) } } (natClr s.ovl.stale src))

/-- PEER_STALE (R291): a peer's records have stopped for 20 µs; its last corridor stays in force. -/
def execPeerStale (peer : Nat) (s : State) : Host.Outcome State Fault Refusal :=
  whileClocked s fun s =>
  if (mget [] s.ovl.border peer).isEmpty || s.ovl.stale.testBit peer || !reached s (mget 0 s.ovl.heard peer + 20000) then s
         else event (staleShow s (natSet s.ovl.stale peer)) srcDevice 0x1304 (leBytes 1 peer)

/-- WITHDRAWAL_END (R292): no member has reported an excess for 1 ms. -/
def execWithdrawalEnd (s : State) : Host.Outcome State Fault Refusal :=
  whileClocked s fun s =>
  if s.ovl.excess = 0 && decide (s.ovl.excessAt + 1000000 ≤ now s) then setFlag s OVL_STS 0 false else s

/-! ### Commands (R294) -/

/-- OVERLAP_SET (R294). Parameters of another OP are zero. -/
def execOverlapSet (h : Issue) (op margin horizon lookahead estP markOvh jumpOvh zone en : Nat) (lx ly nx ny : Int)
    (first cnt : Nat) (map_ : List Nat) (s : State) : Host.Outcome State Fault Refusal :=
  whileClocked s fun s =>
  let z0 := margin == 0 && horizon == 0 && lookahead == 0 && estP == 0 && markOvh == 0 && jumpOvh == 0
  let z1 := zone == 0 && en == 0 && lx == 0 && ly == 0 && nx == 0 && ny == 0
  let z2 := first == 0 && cnt == 0 && map_.all (· == 0)
  hostCmd s h (.overlapSet h op margin horizon lookahead estP markOvh jumpOvh zone en lx ly nx ny first cnt map_) 0x0302 48
    (fun _ => [((op == 0 && z1 && z2) || (op == 1 && decide (zone < 64) && decide (en < 2) && z0 && z2) ||
      (op == 2 && decide (1 ≤ first) && decide (first ≤ 255) && decide (1 ≤ cnt) && decide (cnt ≤ 28) && decide (first + cnt ≤ 256) &&
        z0 && z1 && (map_.take cnt).all (fun b => !b.testBit 6) && (map_.drop cnt).all (· == 0)), .badParam)])
    (fun s =>
      let s :=
        if op = 0 then
          let s := setShadow (setShadow s 5 OVL_CFG 31 16 margin) 5 OVL_CFG 15 0 horizon
          let s := setShadow (setShadow s 5 OVL_CFG2 31 16 lookahead) 5 OVL_CFG2 7 0 estP
          setShadow (setShadow s 5 OVL_MARK_OVH 31 0 markOvh) 5 OVL_JUMP_OVH 31 0 jumpOvh
        else if op = 1 then
          let s := setShadow (setShadow s 5 (ZONE_CFG zone) 31 31 en) 5 (ZONE_LINE_X zone) 31 0 (unsgn 32 lx)
          let s := setShadow s 5 (ZONE_LINE_Y zone) 31 0 (unsgn 32 ly)
          setShadow (setShadow s 5 (ZONE_NORMAL zone) 31 16 (unsgn 16 ny)) 5 (ZONE_NORMAL zone) 15 0 (unsgn 16 nx)
        else
          (List.range cnt).foldl (fun s i =>
            let k := first + i
            setShadow s 5 (OVL_ZMAP (k / 4)) (8 * (k % 4) + 7) (8 * (k % 4)) (map_.getD i 0)) s
      complete s h 0x0302 .ok 0 0 0 0)

/-- PLUME_SET (R294). -/
def execPlumeSet (h : Issue) (enable depth : Nat) (fx fy : Int) (length half skip border : Nat) (s : State) :
    Host.Outcome State Fault Refusal :=
  whileClocked s fun s =>
  hostCmd s h (.plumeSet h enable depth fx fy length half skip border) 0x0303 48
    (fun _ => [(decide (enable < 2) && decide (1 ≤ depth) && decide (depth ≤ 64) && decide (skip < 2 ^ 24) && decide (border < 2 ^ 24),
                .badParam)])
    (fun s =>
      let s := setShadow (setShadow s 5 PLM_CFG 31 31 enable) 5 PLM_CFG 6 0 depth
      let s := setShadow (setShadow s 5 PLM_FLOW 31 16 (unsgn 16 fy)) 5 PLM_FLOW 15 0 (unsgn 16 fx)
      let s := setShadow (setShadow s 5 PLM_LENGTH 31 0 length) 5 PLM_HALF_WIDTH 31 0 half
      let s := setShadow (setShadow s 5 PLM_SKIP_MASK 23 0 skip) 5 PLM_BORDER_MASK 23 0 border
      complete s h 0x0303 .ok 0 0 0 0)

/-- STITCH_SET (R294). -/
def execStitchSet (h : Issue) (zone overlap amp : Nat) (s : State) : Host.Outcome State Fault Refusal :=
  whileClocked s fun s =>
  hostCmd s h (.stitchSet h zone overlap amp) 0x0304 48
    (fun _ => [(decide (zone < 64) && decide (1 ≤ overlap) && decide (overlap ≤ 255) && decide (amp ≤ 1023), .badParam)])
    (fun s => complete (setShadow (setShadow s 5 (ZONE_CFG zone) 7 0 overlap) 5 (ZONE_CFG zone) 25 16 amp) h 0x0304 .ok 0 0 0 0)

/-! ### COMMIT of group OVL (R296) -/

/-- A Q1.15 vector has unit length within 2 %. -/
def unitOk (x y : Int) : Bool :=
  let q := x * x + y * y
  decide (2 ^ 30 - 2 ^ 30 / 50 ≤ q) && decide (q ≤ 2 ^ 30 + 2 ^ 30 / 50)

/-- The checks of group OVL. -/
def ovlChecks (s n : State) : List (Nat × Bool) :=
  let zones := List.range 64
  let bytes := (List.range 64).flatMap (fun m => (List.range 4).map (fun b => fld n (OVL_ZMAP m) (8 * b + 7) (8 * b)))
  let on (z : Nat) : Bool := flag n (ZONE_CFG z) 31
  let fixed := (List.range 64).map OVL_ZMAP ++ zones.map ZONE_LINE_X ++ zones.map ZONE_LINE_Y ++ zones.map ZONE_NORMAL ++
    [PLM_FLOW, PLM_LENGTH, PLM_HALF_WIDTH]
  [(0x0601, decide (200 ≤ fld n OVL_CFG2 31 16) && decide (fld n OVL_CFG2 31 16 ≤ 2000) &&
      decide (fld n OVL_CFG2 31 16 ≤ fld n OVL_CFG 15 0) && decide (2 ≤ fld n OVL_CFG2 7 0) && decide (fld n OVL_CFG2 7 0 ≤ 100)),
   (0x0602, zones.all (fun z => !on z || unitOk (fldI n (ZONE_NORMAL z) 15 0) (fldI n (ZONE_NORMAL z) 31 16))),
   (0x0603, unitOk (fldI n PLM_FLOW 15 0) (fldI n PLM_FLOW 31 16)),
   (0x0604, decide ((bitList (rdN n PLM_BORDER_MASK) 24).length ≤ 8) && decide (1 ≤ fld n PLM_CFG 6 0) && decide (fld n PLM_CFG 6 0 ≤ 64)),
   (0x0605, (bytes.drop 1).all (fun b => !b.testBit 7 || on (b % 64)) && zones.all (fun z => !on z || fld n (ZONE_CFG z) 7 0 != 0)),
   (0x0606, !inLayer s || (fixed.all (fun a => rd s a == rd n a) && flag s PLM_CFG 31 == flag n PLM_CFG 31 &&
      zones.all (fun z => flag s (ZONE_CFG z) 31 == on z)))]

end Sys2Proof.Machine
end

