-- ==== Sys2Proof/Machine/Lane.lean ====
section
/-!
DEFINITION. What a lane engine does with its work (R157, R158, R163, R188 to R190, R205 to R217, R243 to R246, R255, R274 to
R276): the points and speeds of a mark, the order of work, successor fetch, underruns, and the course of a lane through a
tick. Motion that starts from rest starts at a tick boundary (assumption 21).
-/

namespace Sys2Proof.Machine

/-! ### Marks as lines -/

/-- Length of a record's line in 2^−16 PLU. -/
def VRec.len16 (r : VRec) : Nat := Machine.len16 ((r.ex - r.sx) * 65536) ((r.ey - r.sy) * 65536)

/-- The point `d16` (2^−16 PLU) from the start along a record's line, which may lie beyond its ends. -/
def VRec.on16 (r : VRec) (d16 : Int) : Int × Int :=
  let l := VRec.len16 r
  if l = 0 then (r.sx * 65536, r.sy * 65536)
  else (r.sx * 65536 + fdiv ((r.ex - r.sx) * 65536 * d16) l, r.sy * 65536 + fdiv ((r.ey - r.sy) * 65536 * d16) l)

/-- Where marking of a piece of work begins, in PLU from the record's start: a remainder is taken up REMARK_OVERLAP before its
split point, never before its own start (R193). -/
def startPlu (s : State) (n : Nat) (w : Work) : Int :=
  match w.resume with
  | some d =>
    let b := d - fld s (LN_CFG n) 15 8 * 64
    if b < w.lo then w.lo else b
  | none => w.lo

/-- The ends of what is marked, in 2^−16 PLU from the record's start; a record's own end is not rounded. -/
def start16 (s : State) (n : Nat) (w : Work) : Int := startPlu s n w * 65536
def end16 (w : Work) : Int := if w.hi = VRec.len w.rcd then VRec.len16 w.rcd else w.hi * 65536

/-- Speed of a mark and of a jump with its recipe, in PLU/s (R205). -/
def markV (s : State) (n : Nat) (r : VRec) : Nat := markUm s n r * 8
def jumpV (s : State) (n : Nat) (r : VRec) : Nat := satN (rdN s (SCN_VMAX_JUMP n)) (recipeOf s r.recipe).jumpSpeed * 8

/-- Focus of a mark or jump in 2^−16 µm (R157). -/
def focus16 (s : State) (r : VRec) : Int := ((recipeOf s r.recipe).focus + r.focus) * 65536

/-- The record or its recipe asks for skywriting (R210). -/
def skyOf (s : State) (r : VRec) : Bool := r.flags.testBit 1 || (recipeOf s r.recipe).flags.testBit 0

/-- The mark is entered through a run-up, and left through a run-out (R193, R210, R283). -/
def skyIn (s : State) (w : Work) : Bool := w.resume.isSome || w.seg == 2 || skyOf s w.rcd
def skyOut (s : State) (w : Work) : Bool := w.seg == 1 || skyOf s w.rcd

/-- Run-up and run-out length at speed `v`, in 2^−16 PLU (R206, R210). -/
def runDist (s : State) (n v : Nat) : Nat := changeDist16 0 v (pathAccel s n) (pathJerk s n)

/-- The highest speed up to `v` that a change from `v0` reaches within `len16`. -/
def reachSpeed (s : State) (n v0 v len16 : Nat) : Nat :=
  let rec go : Nat → Nat → Nat → Nat
    | 0, lo, _ => lo
    | k + 1, lo, hi =>
      if hi ≤ lo then lo
      else
        let m := (lo + hi + 1) / 2
        if changeDist16 v0 m (pathAccel s n) (pathJerk s n) ≤ len16 then go k m hi else go k lo (m - 1)
  go 64 v0 v

/-! ### Corners (R208, R209) -/

/-- Two marks form a corner: the second starts, whole, where the first ends. -/
def isCorner (a b : Work) : Bool :=
  VRec.isMark a.rcd && VRec.isMark b.rcd && a.hi == VRec.len a.rcd && b.lo == 0 && b.resume.isNone &&
  a.rcd.ex == b.rcd.sx && a.rcd.ey == b.rcd.sy

/-- Cosine and sine of half a degree and of one degree, in 10^−40. -/
def cosHalf : Int := 9999619230641712887373551648269833270551
def sinHalf : Int := 87265354983739349648882139735844230340
def cosOne : Int := 9998476951563912391570115588139148516927
def sinOne : Int := 174524064372835128194189785163161924723

/-- `x·|x|`. -/
def sqSign (x : Int) : Int := x * x.natAbs

/-- Counts how many of the angles from `(c, t)` (cosine and sine in 10^−40) upwards in steps of one degree are at most the
angle whose cosine is `dot` over the square root of `sq`. -/
def angleCount (dot : Int) (sq : Nat) : Nat → Int → Int → Nat → Nat
  | 0, _, _, n => n
  | k + 1, c, t, n =>
    if sqSign dot * 10 ^ 80 ≤ sqSign c * sq then
      angleCount dot sq k ((c * cosOne - t * sinOne) / 10 ^ 40) ((t * cosOne + c * sinOne) / 10 ^ 40) (n + 1)
    else n

/-- The deflection of two directions to the nearest degree (R208). -/
def deflection (ax ay bx by_ : Int) : Nat :=
  let dot := ax * bx + ay * by_
  let sq := ((ax * ax + ay * ay) * (bx * bx + by_ * by_)).toNat
  angleCount dot sq 180 cosHalf sinHalf 0

/-- The speed factor of a deflection by a corner table, in 1/256. -/
def cornerFactor (table : List Nat) (deg : Nat) : Nat :=
  if deg = 0 then 256
  else
    match table.find? (fun c => c != 0 && decide (deg ≤ c / 256)) with
    | some c => c % 256
    | none => 0

/-- The speed in PLU/s at which the path passes the vertex between two marks: 0 brings it to rest. The mark that follows must
be long enough to come to rest in it, and the present one, with speed `v` and acceleration `acc` and `left` before it, long enough to
reach the speed. -/
def cornerSpeed (s : State) (n : Nat) (v acc left : Int) (a b : Work) : Nat :=
  if focus16 s a.rcd ≠ focus16 s b.rcd then 0
  else
    let deg := deflection (a.rcd.ex - a.rcd.sx) (a.rcd.ey - a.rcd.sy) (b.rcd.ex - b.rcd.sx) (b.rcd.ey - b.rcd.sy)
    let u := satN (markV s n a.rcd) (markV s n b.rcd) * cornerFactor (recipeOf s a.rcd.recipe).corners deg / 256
    let u := satN u (reachSpeed s n 0 u (end16 b - start16 s n b).toNat)
    (highest (fun x => canReach v acc x (pathAccel s n) (pathJerk s n) left) 64 0 u).toNat

/-! ### Planned points (R158, R210, R217) -/

/-- The point at which the motion of a piece of work from rest begins, in 2^−16 PLU: a mark's start, or its run-up point. -/
def entryPt (s : State) (n : Nat) (w : Work) (corner : Bool) : Int × Int :=
  match w.rcd.ty with
  | 1 => (w.rcd.ex * 65536, w.rcd.ey * 65536)
  | 3 => (w.rcd.sx * 65536, w.rcd.sy * 65536)
  | _ => VRec.on16 w.rcd (start16 s n w - (if skyIn s w && !corner then (runDist s n (markV s n w.rcd) : Int) else 0))

/-- The points of a record that R217 checks lie in the map field. -/
def fieldOk (s : State) (n : Nat) (w : Work) (corner : Bool) : Bool :=
  let ok (p : Int × Int) : Bool := inField16 s n p.1 p.2
  if VRec.isMark w.rcd then
    ok (VRec.on16 w.rcd (start16 s n w)) && ok (VRec.on16 w.rcd (end16 w)) && ok (entryPt s n w corner) &&
    ok (VRec.on16 w.rcd (end16 w + runDist s n (markV s n w.rcd)))
  else if w.rcd.ty = 1 || w.rcd.ty = 3 then ok (entryPt s n w corner)
  else true

/-! ### Time in a tick -/

/-- T in fs, and fabric time in fs. -/
def tickFs (s : State) : Nat := tickNs s * 1000000
def nowFs (s : State) : Nat := now s * 1000000

/-- The first tick boundary at or after a time in fs. -/
def boundaryAt (s : State) (t : Nat) : Nat := cdiv t (tickFs s) * tickFs s

/-- Laser delays of a recipe in fs (R243). -/
def onFs (r : Recipe) : Int := r.onDelay * 250000
def offFs (r : Recipe) : Int := r.offDelay * 250000

/-- A time that may lie before 0 as a fabric time. -/
def toTime (t : Int) : Nat := t.toNat

/-- The same piece of work. -/
def sameWork (a b : Work) : Bool := a.rcd.vid == b.rcd.vid && a.seg == b.seg && a.home == b.home

/-- The fall of the on-window of work `w` on lane `n` set, or left open at a vertex that the path passes (R243, R244). -/
def setFall (s : State) (n : Nat) (w : Work) (f : Option Nat) : State :=
  updLane s n (fun l => { l with gates := l.gates.map (fun g => if sameWork g.work w && g.ended.isNone then { g with fall := f } else g) })

/-- The on-window of the mark to come on lane `n` is given up, and the fixing of its motion with it. -/
def dropWindow (s : State) (n : Nat) : State := gateDrop (updLane s n (fun l => { l with startAt := none })) n

/-! ### The motion of a mark (R206, R209) -/

/-- A motion along a line with the focus as it is. -/
def lineMotion (a b : Int × Int) (len : Nat) (f : Int) (p : Prof) : Motion :=
  ⟨a.1, a.2, b.1, b.2, len, p, f, f, ⟨0, 0, []⟩, Prof.dur p, 0, true, none, 0⟩

/-- What is marked of a piece of work, in 2^−16 PLU. -/
def markLen (s : State) (n : Nat) (w : Work) : Nat := (end16 w - start16 s n w).toNat

/-- The line of the mark `w` with a profile. -/
def markLine (s : State) (n : Nat) (w : Work) (p : Prof) : Motion :=
  lineMotion (VRec.on16 w.rcd (start16 s n w)) (VRec.on16 w.rcd (end16 w)) (markLen s n w) (focus16 s w.rcd) p

/-- The mark `w` planned from speed `v0` to its exit speed. -/
def markMotion (s : State) (n : Nat) (w : Work) (v0 ve : Nat) : Motion :=
  markLine s n w (planProf v0 ve (markV s n w.rcd) (pathAccel s n) (pathJerk s n) (markLen s n w))

/-- The exit speed of a mark whose successor does not continue it, with speed `v` and acceleration `acc` and `left` before it: rest, or
full speed into its run-out (R209). -/
def freeExit (s : State) (n : Nat) (w : Work) (v acc left : Int) : Nat :=
  if skyOut s w then (highest (fun x => canReach v acc x (pathAccel s n) (pathJerk s n) left) 64 0 (markV s n w.rcd)).toNat else 0

/-- The fall of the on-window of lane `n` follows the motion of its mark `w` (R243), unless the path passes the vertex. -/
def fallFollows (s : State) (n : Nat) (w : Work) : State :=
  let l := lane s n
  setFall s n w (if l.corner && decide (0 < l.exitSpeed) then none
    else some (toTime ((nowFs s : Int) + (l.motion.dur - l.motion.t : Nat) - offFs (recipeOf s w.rcd.recipe))))

/-- What is left of the motion of lane `n` along its line, with its speed and acceleration. -/
def leftOn (s : State) (n : Nat) : Int × Int × Int :=
  let m := (lane s n).motion
  let (d, v, a) := m.line m.t
  ((m.len : Int) - d, v, a)

/-- The rest of the line of lane `n` with a profile from its present point. -/
def restOfLine (s : State) (n : Nat) (p : Prof) : Motion :=
  let l := lane s n
  lineMotion (l.px, l.py) (l.motion.x1, l.motion.y1) (leftOn s n).1.toNat l.pf p

/-- The mark in progress planned anew from the lane's present state to the exit speed `ve` (R209, R237). One that cannot reach it in what
is left keeps its profile. -/
def replanMark (s : State) (n : Nat) (w : Work) (ve : Nat) : State :=
  let (left, v, a) := leftOn s n
  if !canReach v a ve (pathAccel s n) (pathJerk s n) left then s
  else
    let m := restOfLine s n (pointProf v a ve (markV s n w.rcd) (pathAccel s n) (pathJerk s n) left)
    fallFollows (updLane s n (fun l => { l with motion := m, exitSpeed := ve })) n w

/-- A run-up whose mark is to end at speed `ve`: where the mark alone is too short to come down to it, the rest of the run-up and the mark
are one profile from the lane's present state, and the run-up ends where it passes the start (R209). -/
def replanRunup (s : State) (n : Nat) (w : Work) (ve : Nat) : State :=
  let (left, v, a) := leftOn s n
  let acc := pathAccel s n
  let j := pathJerk s n
  let full := markV s n w.rcd
  let s := updLane s n (fun l => { l with endSpeed := some ve })
  if canReach full 0 ve acc j (markLen s n w) then s
  else
    let p := pointProf v a ve full acc j (left + markLen s n w)
    let cut := highest (fun t => decide (Kin.dist16 (Prof.at p t.toNat) ≤ left)) 64 0 (Prof.dur p)
    let m := { restOfLine s n p with dur := cut.toNat }
    setFall (updLane s n (fun l => { l with motion := m })) n w
      (some (toTime ((nowFs s : Int) + Prof.dur p - offFs (recipeOf s w.rcd.recipe))))

/-- The first mark of a layer takes its set-points at once (R346); the recipe becomes the current one (R163). -/
def takeRecipe (s : State) (n r : Nat) : State :=
  updLane s n (fun l => { l with recipe := some r, spNow := l.spNow || l.recipe.isNone })

/-- The mark in `cur` begins at `clock` fs with speed `v0`. A chain keeps its on-window; a run-up that is one with its mark goes on with
its profile. -/
def beginMark (s : State) (n v0 clock : Nat) (chain : Bool) : State :=
  let l := lane s n
  match l.cur with
  | none => s
  | some w =>
    let ve := match l.endSpeed with
      | some v => v
      | none => freeExit s n w v0 0 (markLen s n w)
    let m := if !chain && l.phase == .runup && decide (l.motion.dur < Prof.dur l.motion.prof) then
               markLine s n w (Prof.drop l.motion.prof l.motion.dur)
             else markMotion s n w v0 ve
    let turn := l.endSpeed.isSome
    let s := takeRecipe s n w.rcd.recipe
    let s := updLane s n (fun l => { l with motion := m, exitSpeed := ve, corner := turn, startAt := none, endSpeed := none, gateWork := some w
                                            remark := w.resume.map (fun d => (startPlu s n w, d)) })
    let fall := if turn && decide (0 < ve) then none else some (toTime ((clock : Int) + m.dur - offFs (recipeOf s w.rcd.recipe)))
    let s := if chain then
               updLane s n (fun l => { l with gates := l.gates.map (fun g => if g.fall.isNone && g.ended.isNone then { g with work := w, fall := fall } else g) })
             else setFall s n w fall
    -- a BORDER record outside the mask is reported once per layer and lane (R290)
    let s := if w.rcd.flags.testBit 2 && !(rdN s PLM_BORDER_MASK).testBit n && !s.seq.borderSeen.testBit n then
               laneEvent { s with seq := { s.seq with borderSeen := natSet s.seq.borderSeen n } } n 0x1303 []
             else s
    setPhase s n .marking

/-- Duration in fs from the start of the motion of a mark at rest to its start point. -/
def runupFs (s : State) (n : Nat) (w : Work) (corner : Bool) : Nat :=
  if skyIn s w && !corner then changeTime (markV s n w.rcd) (pathAccel s n) (pathJerk s n) else 0

/-- The motion of the mark in `cur` starts now, from rest: its run-up, or the mark itself. -/
def startMotion (s : State) (n : Nat) : State :=
  let l := lane s n
  match l.cur with
  | none => s
  | some w =>
    if skyIn s w && !l.corner then
      let v := markV s n w.rcd
      let p := planProf 0 v v (pathAccel s n) (pathJerk s n) (runDist s n v)
      let m := lineMotion (l.px, l.py) (VRec.on16 w.rcd (start16 s n w)) (runDist s n v) l.pf p
      setPhase (updLane s n (fun l => { l with startAt := none, motion := m })) n .runup
    else beginMark s n 0 (nowFs s) false

/-- The on-window of the mark in `cur` when its motion starts at `start` fs (R243). -/
def openWindow (s : State) (n start : Nat) : State :=
  let l := lane s n
  match l.cur with
  | none => s
  | some w =>
    let r := recipeOf s w.rcd.recipe
    let up := runupFs s n w l.corner
    let v0 := if up = 0 then 0 else markV s n w.rcd
    let m := markMotion s n w v0 (freeExit s n w v0 0 (markLen s n w))
    let t0 : Int := (start : Int) + up
    updLane s n (fun l => { l with
      gates := l.gates ++ [⟨toTime (t0 - onFs r), some (toTime (t0 + m.dur - offFs r)), w, none, false⟩] })

/-! ### The order of work (R157, R175, R267, R274, R275) -/

/-- A layer marker or the end of the stream is passed at `clock` fs (R157, R199). -/
def passNow (s : State) (n clock : Nat) (r : VRec) : State :=
  record (if r.ty = 5 then updLane s n (fun l => { l with marker := some (unsgn 32 r.sx, clock / 1000000) }) else s) n 112 r.vid

/-- What lane `n` took behind its current record is passed, at the end of that record. -/
def passAll (s : State) (n clock : Nat) : State :=
  (lane s n).passed.foldl (fun s r => passNow s n clock r) (updLane s n (fun l => { l with passed := [] }))

/-- The current record of lane `n`, with VECTOR_ID `vid`, has been executed at `clock` fs. -/
def recordDone (s : State) (n vid clock : Nat) : State := passAll (record s n 112 vid) n clock

/-- A marker or the end of the stream taken: passed at once by a lane without a current record, else at the end of that record. -/
def takeMarker (s : State) (n : Nat) (r : VRec) : State :=
  if (lane s n).cur.isNone then passNow s n (nowFs s) r else updLane s n (fun l => { l with passed := l.passed ++ [r] })

/-- The record at the head of the buffer leaves it. -/
def popRec (s : State) (n : Nat) : State :=
  fillShow (updLane s n (fun l => { l with head := l.head + 1, trs := l.trs.drop 1 })) n

/-- A record that a pool holds or held. -/
def pooled (s : State) (r : VRec) : Bool :=
  VRec.isMark r && decide (1 < (candidates s r.laneset).length) && (zoneOf s r.laneset).isSome

/-- Home takes its own entry (R267): HOME_PENDING. -/
def homeTakes (s : State) (e : PoolEntry) (grantable : Bool) : State × Option Work :=
  (poolShow (updEntry s e.work (fun e => { e with state := .homePending, grantable := grantable, holder := globalLane s e.home })),
   some { e.work with src := 1 })

/-- The next own record of lane `n`. Layer markers are taken on the way and pool records passed over; with `bar` the search
stops before a dwell, a layer marker and the end of the stream (R287). -/
def takeOwn (n : Nat) (bar : Bool) : Nat → State → State × Option Work
  | 0, s => (s, none)
  | k + 1, s =>
    let l := lane s n
    if l.atEnd then
      if bar then (s, none)
      else
        match (openOwn s n).find? (fun e => !anyQualifies s n e.work) with
        | some e => homeTakes s e false
        | none => (s, none)
    else if l.written ≤ l.head then (s, none)
    else
      let r := imageRec s n l.head
      if bar && (r.ty == 3 || r.ty == 5 || r.ty == 15) then (s, none)
      else if pooled s r then
        let s := popRec s n
        match (openOwn s n).find? (fun e => e.idx == l.head) with
        | some e => if anyQualifies s n e.work then takeOwn n bar k s else homeTakes s e true
        | none => takeOwn n bar k s
      else
        let s := popRec s n
        if r.ty = 5 then takeOwn n bar k (takeMarker s n r)
        else if r.ty = 15 then takeOwn n bar k (takeMarker (updLane s n (fun l => { l with atEnd := true })) n r)
        else (s, some (workOf n l.head (l.trs.headD 0) r))

/-- The own entry whose slot the decompressor waits for (R275). -/
def slotBlocked (s : State) (n : Nat) : Option PoolEntry :=
  let l := lane s n
  match streamOf s n with
  | some e => (openOwn s n).find? (fun p => decide (l.written < e.count) && decide (p.idx + imageSlots < l.written + 64) && decide (p.idx < l.head))
  | none => none

/-- Home takes that entry at once, not grantable (R275): it is next among the work that waits. -/
def takeBlocked (s : State) (n : Nat) : State :=
  if !takesClaims s n then s
  else
    match slotBlocked s n with
    | some e =>
      match homeTakes s e false with
      | (s, some w) => updLane s n (fun l => { l with claimed := w :: l.claimed })
      | (s, none) => s
    | none => s

/-- The next own record continues the own mark in progress at a corner. -/
def chains (s : State) (n : Nat) : Bool :=
  let l := lane s n
  match l.cur with
  | some w => w.src == 0 && decide (l.head < l.written) && !l.atEnd &&
    (let r := imageRec s n l.head
     !pooled s r && isCorner w (workOf n l.head 0 r))
  | none => false

/-- The next piece of work of lane `n` (R274 to R276, R287): kept remainders and passed records, behind the chain in progress;
claimed entries in grant order; own records, also while the first claimed entry is not yet due. -/
def takeWork (s : State) (n : Nat) (bar : Bool) : State × Option Work :=
  let l := lane s n
  let fuel := l.written - l.head + 2
  let due := match l.claimed with
    | w :: ws => if w.notBefore ≤ now s then some (w, ws) else none
    | [] => none
  if !l.kept.isEmpty && !(due.isNone && chains s n) then
    match l.kept with
    | w :: ws => if bar && w.rcd.ty = 3 then (s, none) else (updLane s n (fun l => { l with kept := ws }), some w)
    | [] => (s, none)
  else
    match due with
    | some (w, ws) =>
      let s := updLane s n (fun l => { l with claimed := ws })
      (if w.src = 1 then updEntry s w (fun e => { e with state := .homePending, grantable := false }) else s, some w)
    | none => takeOwn n bar fuel s

/-! ### Beginning a piece of work (R157, R158, R163) -/

/-- Burn tiles of a mark's path are requested, its run-up and run-out included (R365). -/
def tilesFor (s : State) (n : Nat) (w : Work) : State :=
  if VRec.isMark w.rcd then
    let a := entryPt s n w false
    let b := VRec.on16 w.rcd (end16 w + (if skyOut s w then (runDist s n (markV s n w.rcd) : Int) else 0))
    tileFetch s (engineOf s n) (roundPlu a.1) (roundPlu a.2) (roundPlu b.1) (roundPlu b.2)
  else s

/-- Requests and grants of lane `n` for a slot. -/
def slotReqs (s : State) (n slot : Nat) : List GrantReq :=
  (s.ledger.waiting ++ s.ledger.grants).filter (fun g => g.lane == n && g.slot == slot)

/-- A mark taken needs a grant (R253), requested in a slot unless it is held from before (R189) or was requested as successor. A lane holds
at most two: a third mark, while one that has ended still has GATE open, waits with its request (assumption 105). -/
def askGrant (s : State) (n slot : Nat) (w : Work) : State :=
  if !VRec.isMark w.rcd || (slotReqs s n slot).any (fun g => g.vid == w.rcd.vid) then s
  else if slot = 0 && (slotReqs s n 1).any (fun g => g.vid == w.rcd.vid) then moveSlot s n 1 0
  else
    let s := if (slotReqs s n slot).isEmpty then s else releaseSlot s n slot
    if 2 ≤ (slotReqs s n 0).length + (slotReqs s n 1).length + (slotReqs s n 2).length then s
    else
      let s := requestGrant s n slot w.rcd
      grantShow (ledgerShow s) n

/-- The lane has a mark that has not begun. -/
def beforeMark (p : Phase) : Bool :=
  p == .jump || p == .settle || p == .waitGrant || p == .waitEmit || p == .waitPlume || p == .hold

/-- Requests that had to wait are made (R253). -/
def askDue (s : State) (n : Nat) : State :=
  let l := lane s n
  let s := match l.cur with
    | some w => if beforeMark l.phase then askGrant s n 0 w else s
    | none => s
  match l.succ with
  | some w => askGrant s n 1 w
  | none => s

/-- Focus in 2^−16 µm at which a jump to a piece of work arrives, and its speed limit beside VMAX_JUMP in PLU/s (R158). -/
def jumpParams (s : State) (n : Nat) (w : Work) : Int × Nat :=
  let l := lane s n
  if w.rcd.ty = 3 then
    match l.recipe.map (recipeOf s) with
    | some r => (r.focus * 65536, r.jumpSpeed * 8)
    | none => (l.pf, noLimit)
  else (focus16 s w.rcd, (recipeOf s w.rcd.recipe).jumpSpeed * 8)

/-- The inserted jump to the entry point of the mark or dwell in `cur`, or the jump record itself. -/
def jumpTo (s : State) (n : Nat) (w : Work) : State :=
  let s := findPlate s n
  let l := lane s n
  let p := entryPt s n w l.corner
  let (f, v) := jumpParams s n w
  let m := planJump s n l.px l.py l.pf p.1 p.2 f v
  setPhase (updLane s n (fun l => { l with motion := m, holdFs := 0 })) n .jump

/-- The spot stands where the motion of a piece of work begins. -/
def atEntry (s : State) (n : Nat) (w : Work) : Bool :=
  let l := lane s n
  let p := entryPt s n w l.corner
  l.held.isNone && l.px == p.1 && l.py == p.2 && (w.rcd.ty == 3 || l.pf == focus16 s w.rcd)

/-- The time of a dwell or a switch in fs, or what is left of it. -/
def holdTime (w : Work) : Nat :=
  match w.resume with
  | some t => t.toNat
  | none => w.rcd.arg * 1000000000

/-- A dwell or a switch holds, for its time or what is left of it. -/
def beginHold (s : State) (n : Nat) (w : Work) (past : Nat) (p : Phase) : State :=
  setPhase (updLane s n (fun l => { l with holdFs := holdTime w - past })) n p

/-- A recipe switch begins (R163): the scanner holds where it is. -/
def beginSwitch (s : State) (n : Nat) (w : Work) (past : Nat) : State :=
  beginHold (updLane s n (fun l => { l with recipe := some w.rcd.recipe, spNow := true })) n w past .switching

/-- The piece of work in `cur` is due, the lane at rest. A record with a point outside the map field does not start (R217). -/
def beginWork (s : State) (n : Nat) : State :=
  let l := lane s n
  match l.cur with
  | none => s
  | some w =>
    if !fieldOk s n w l.corner then raiseOnce s clsLane 0x0105 (srcLane n) []
    else
      let s := tilesFor s n w
      match w.rcd.ty with
      | 4 => beginSwitch s n w 0
      | 1 => jumpTo s n w
      | 3 => if atEntry s n w then beginHold s n w 0 .dwell else jumpTo s n w
      | _ => if !atEntry s n w then jumpTo s n w else setPhase s n (if (grantHeld s n 0).isSome then .settle else .waitGrant)

/-- The jump of lane `n` has ended, `past` fs ago (R158, R207): settling, the dwell, or the jump record is done. -/
def jumpEnd (s : State) (n past : Nat) : State :=
  let l := lane s n
  match l.cur with
  | none => setPhase s n .free
  | some w =>
    let settle := if l.motion.len = 0 then 0 else (recipeOf s w.rcd.recipe).settle * 1000000000
    if w.rcd.ty = 1 then
      setPhase (recordDone (updLane s n (fun l => { l with cur := none, holdFs := settle - past })) n w.rcd.vid (nowFs s)) n .free
    else if w.rcd.ty = 4 then beginSwitch s n w past
    else if w.rcd.ty = 3 && atEntry s n w then beginHold s n w past .dwell
    else setPhase (updLane s n (fun l => { l with holdFs := settle - past })) n .settle

/-! ### Underruns and refill faults (R176, R188, R189) -/

/-- Lane `n` underruns; one within a stop bath or a pause is not counted. -/
def countUnderrun (s : State) (n : Nat) : State :=
  if layerSt s = stExposing then count (satInc s (LN_UNDERRUNS n)) n 40 1 else s

/-- The mark of lane `n` is split now, and the scanner runs on to rest with the laser off (R189). The successor it has taken comes after
the remainder. -/
def splitNow (s : State) (n : Nat) (p : Phase) : State :=
  let l := lane s n
  let s := stopMotion (splitMark s n) n
  let fix (w : Work) : Work :=
    match w.resume, l.cur with
    | some d, some c => if c.rcd.vid = w.rcd.vid && c.seg = w.seg then { w with resume := some (clampI w.lo w.hi d) } else w
    | _, _ => w
  let s := updLane s n (fun q => { q with kept := (q.kept.take 1).map fix ++ q.succ.toList ++ q.kept.drop 1, succ := none, exitSpeed := 0, corner := false })
  setPhase s n p

/-- Work of lane `n` that stopped before its mark: it is kept, and the lane comes to rest with the laser off. -/
def putBack (s : State) (n : Nat) (p : Phase) : State :=
  let s := stopMotion (gateDrop s n) n
  setPhase (updLane s n (fun l => { l with kept := l.cur.toList ++ l.succ.toList ++ l.kept, cur := none, succ := none, startAt := none
                                           endSpeed := none, corner := false })) n p

/-- No record is there for the lane at its fetch (R188, R189). -/
def underrun (s : State) (n : Nat) : State :=
  let s := countUnderrun s n
  if (lane s n).phase == .marking then splitNow s n .underrun
  else if (lane s n).phase == .runup then putBack s n .underrun
  else updLane s n (fun l => { l with under := true })

/-- The buffer is empty while the stream goes on (R188). -/
def bufferEmpty (s : State) (n : Nat) : Bool :=
  let l := lane s n
  !l.atEnd && decide (l.written ≤ l.head) && l.refillErr.isNone && (streamOf s n).isSome

/-- A lane that has executed every record before one that failed its refill checks halts (R176). -/
def streamCheck (s : State) (n : Nat) : State :=
  match (lane s n).refillErr with
  | some (c, v, e) => raiseOnce s clsLane 0x0104 (srcLane n) (leBytes 2 c ++ leBytes 4 v ++ leBytes 4 e)
  | none => s

/-! ### Successor fetch (R188, R209) -/

/-- The time for the fetch has come (R188): the distance left is the stopping distance and two ticks of way, a mark in its run-up having
its own length left as well, or the hold has two ticks left, with the way to a dwell shorter than that. A switch as short is at that point
when it begins (assumption 106). -/
def fetchDue (s : State) (n : Nat) : Bool :=
  let l := lane s n
  let m := l.motion
  let near (left v a : Int) : Bool :=
    decide (left ≤ Prof.way (stopProf v a (pathAccel s n) (pathJerk s n)) + 2 * tickNs s * v * 65536 / 1000000000)
  match l.phase, l.cur with
  | .marking, _ => let (left, v, a) := leftOn s n; near left v a
  | .runup, some w => let (left, v, a) := leftOn s n; near (left + markLen s n w) v a
  | .jump, some w =>
    if w.rcd.ty = 1 then
      match m.axes with
      | none => let (left, v, a) := leftOn s n; near left v a
      | some _ => let ((vx, vy, _), _) := m.rates m.t; near (len16 (m.x1 - l.px) (m.y1 - l.py)) (isqrt (vx * vx + vy * vy).toNat) 0
    else w.rcd.ty == 3 && decide (m.dur - m.t + holdTime w ≤ 2 * tickFs s)
  | .dwell, _ => decide (l.holdFs ≤ 2 * tickFs s)
  | .switching, _ => decide (l.holdFs ≤ 2 * tickFs s)
  | _, _ => false

/-- The exit of the mark in progress or in its run-up follows its successor (R209, R255): a corner is taken at speed once its grant is
held, and at rest before a mark that does not start (R217) or after GATE has fallen (assumption 106). -/
def cornerPlan (s : State) (n : Nat) : State :=
  let l := lane s n
  match l.cur, l.succ with
  | some a, some b =>
    if isCorner a b then
      let lit := l.gates.any (fun g => sameWork g.work a && (match g.fall with
        | some f => decide (nowFs s < f)
        | none => true))
      let ok := (grantHeld s n 1).isSome && fieldOk s n b true && lit
      if l.phase == .marking then
        let (left, v, acc) := leftOn s n
        let ve := if ok then cornerSpeed s n v acc left a b else 0
        let s := updLane s n (fun l => { l with corner := true })
        if ve = l.exitSpeed && decide (0 < ve) then fallFollows s n a else replanMark s n a ve
      else if l.phase == .runup then
        replanRunup s n a (if ok then cornerSpeed s n (markV s n a.rcd) 0 (markLen s n a) a b else 0)
      else s
    else s
  | _, _ => s

/-- The successor of lane `n` is fetched when it is time (R188): its grant and its burn tiles are requested. -/
def fetch (s : State) (n : Nat) : State :=
  let l := lane s n
  if l.succ.isSome || l.under || l.cur.isNone || layerSt s ≠ stExposing || !fetchDue s n then s
  else
    match takeWork s n false with
    | (s, some w) => cornerPlan (tilesFor (askGrant (updLane s n (fun l => { l with succ := some w })) n 1 w) n w) n
    | (s, none) => if bufferEmpty s n then underrun s n else s

/-- The next piece of work becomes current, the lane at rest. -/
def nextDue (s : State) (n : Nat) : State :=
  let l := lane s n
  match l.succ with
  | some w => beginWork (moveSlot (updLane s n (fun l => { l with cur := some w, succ := none })) n 1 0) n
  | none =>
    if l.under then setPhase (updLane s n (fun l => { l with under := false, corner := false })) n .underrun
    else
      match takeWork s n false with
      | (s, some w) => beginWork (askGrant (updLane s n (fun l => { l with cur := some w, corner := false })) n 0 w) n
      | (s, none) =>
        let l := lane s n
        let idle := l.phase == .free || l.phase == .ended
        if l.refillErr.isSome && decide (l.written ≤ l.head) && !l.atEnd then streamCheck s n
        else if bufferEmpty s n then setPhase (countUnderrun s n) n .underrun
        else if l.atEnd && idle then setPhase s n .ended
        else s

/-! ### Plume corridors (R285 to R287) -/

/-- Whether `q` lies in the corridor of `p` (R285), in PLU. -/
def inCorridor (s : State) (px py qx qy : Int) : Bool :=
  let fx := fldI s PLM_FLOW 15 0
  let fy := fldI s PLM_FLOW 31 16
  let a := fdiv ((qx - px) * fx + (qy - py) * fy) 32768
  let c := ((qx - px) * fy - (qy - py) * fx).natAbs / 32768
  decide (0 < a) && decide (a ≤ rdN s PLM_LENGTH) && decide (c ≤ rdN s PLM_HALF_WIDTH)

/-- A point lies in a corridor cast by another spot; `casters` are the spots with their lanes (24 and up: remote). -/
def inPlume (s : State) (casters : List (Nat × Int × Int)) (n : Nat) (x y : Int) : Bool :=
  casters.any (fun c => c.1 != n && inCorridor s c.2.1 c.2.2 x y)

/-- The start of a mark, or its re-mark start, lies in a corridor. -/
def startBlocked (s : State) (casters : List (Nat × Int × Int)) (n : Nat) (w : Work) : Bool :=
  let p := VRec.on16 w.rcd (start16 s n w)
  inPlume s casters n (roundPlu p.1) (roundPlu p.2)

/-- SKIP (R287): the next clear mark within the depth; what is passed stays in order, ahead of what was kept. With it the number of marks
passed over. -/
def skipFind (casters : List (Nat × Int × Int)) (n : Nat) : Nat → State → Nat → List Work → Work → Option (State × Work × Nat)
  | 0, _, _, _, _ => none
  | k + 1, s, depth, passed, last =>
    match takeWork s n true with
    | (_, none) => none
    | (s, some w) =>
      if !VRec.isMark w.rcd then skipFind casters n k s depth (passed ++ [w]) last
      else if isCorner last w then skipFind casters n k s depth (passed ++ [w]) w
      else if depth = 0 then none
      else if startBlocked s casters n w then skipFind casters n k s (depth - 1) (passed ++ [w]) w
      else some (updLane s n (fun l => { l with kept := passed ++ l.kept }), w, (passed.filter (fun x => VRec.isMark x.rcd)).length)

/-! ### The start of a mark (R245, R246, R255, R287) -/

/-- The motion of the mark in `cur` is fixed in time (R245), as soon as its grant is held: its start is the first boundary after the jump and
its settling, not before the one at which GATE's rise falls at or after the boundary after the grant, and not so early that the rise lies
in the past (assumption 21). It is not fixed while the rise would come before EMIT has been high for EMIT_LEAD (R246), nor while the safe
state or the shutter path holds GATE low. -/
def fixStart (s : State) (n : Nat) : State :=
  let l := lane s n
  match l.cur, grantHeld s n 0 with
  | some w, some g =>
    if !VRec.isMark w.rcd || l.startAt.isSome || l.retarget.isSome || !beforeMark l.phase then s
    else
      let r := recipeOf s w.rcd.recipe
      let up : Int := runupFs s n w l.corner
      let settle := if l.phase == .jump then (if l.motion.len = 0 then 0 else r.settle * 1000000000) else l.holdFs
      let ready : Int := (nowFs s + (l.motion.dur - l.motion.t) + settle : Nat)
      let need : Int := if 0 < r.onDelay then ((g.tick + 1) * tickFs s : Nat) + onFs r - up else 0
      let late : Int := (nowFs s : Int) + onFs r - up
      let t := if ready < need then need else ready
      let b := boundaryAt s (toTime (if t < late then late else t))
      let rise : Int := (b : Int) + up - onFs r
      let lead := !flag s (LAS_CFG n) 8 &&
        (!emitOf s n || decide (rise < (l.emitAt : Int) + fld s (LAS_EMIT_LEAD n) 15 0 * 1000000000))
      if lead || s.pwr.safe || shutterHolds s then s
      else updLane (openWindow s n b) n (fun l => { l with startAt := some b })
  | _, _ => s

/-- A blocked mark that has not begun (R287): SKIP takes the next clear one, WAIT holds. -/
def plumeHold (s : State) (n : Nat) (w : Work) : State :=
  let l := lane s n
  let s := dropWindow s n
  let wait := setPhase s n .waitPlume
  if (rdN s PLM_SKIP_MASK).testBit n then
    let s0 := updLane s n (fun l => { l with cur := none, corner := false })
    match skipFind s.ovl.casters n (l.written - l.head + l.kept.length + l.claimed.length + 2) s0 (fld s PLM_CFG 6 0) [w] w with
    | none => wait
    | some (s, w2, k) =>
      let s := count (releaseSlot s n 0) n 36 k
      beginWork (askGrant (updLane s n (fun l => { l with cur := some w2, waited := none })) n 0 w2) n
  else wait

/-- The mark in `cur` at a boundary, the lane at rest where its motion begins (R245, R246, R255, R286). -/
def tryStart (s : State) (n : Nat) : State :=
  match (lane s n).cur with
  | none => s
  | some w =>
    if !atEntry s n w then jumpTo s n w
    else if startBlocked s s.ovl.casters n w then plumeHold s n w
    else if (grantHeld s n 0).isNone then setPhase s n .waitGrant
    else
      let s := fixStart s n
      match (lane s n).startAt with
      | some b => if b ≤ nowFs s then startMotion s n else setPhase s n .hold
      | none => setPhase s n .waitEmit

/-- A dwell or a switch of lane `n` has ended. -/
def holdEnd (s : State) (n : Nat) : State :=
  let v := laneVid s n
  nextDue (recordDone (updLane s n (fun l => { l with cur := none })) n v (nowFs s)) n

/-- What the phase of lane `n` asks for at a boundary of an exposing layer. -/
def phaseDecide (s : State) (n : Nat) : State :=
  let l := lane s n
  match l.phase with
  | .free => nextDue s n
  | .ended => nextDue s n
  | .jump => if l.motion.dur ≤ l.motion.t && l.retarget.isNone then jumpEnd s n 0 else fixStart (fetch s n) n
  | .settle => if l.holdFs = 0 then s else fixStart s n
  | .waitGrant => tryStart s n
  | .waitEmit => tryStart s n
  | .waitPlume => tryStart s n
  | .hold => tryStart s n
  | .dwell => if l.holdFs = 0 then holdEnd s n else fetch s n
  | .switching => if l.holdFs = 0 then holdEnd s n else fetch s n
  | .runup => fetch s n
  | .marking => fetch s n
  | _ => s

/-- What lane `n` decides at a boundary of an exposing layer; a mark that stands ready to begin does. -/
def laneDecide (s : State) (n : Nat) : State :=
  let s := phaseDecide (askDue s n) n
  if (lane s n).phase == .settle && (lane s n).holdFs == 0 then tryStart s n
  else if (lane s n).phase == .switching then fetch s n
  else s

/-! ### The course through a tick -/

/-- A mark has ended on lane `n` at `clock` fs (R157, R199). -/
def countMark (s : State) (n : Nat) (w : Work) (clock : Nat) : State :=
  let s := if w.src < 2 then count s n 4 1 else count s n 16 1
  let s := if w.rcd.flags.testBit 0 then count s n 8 1 else s
  let s := if w.seg = 0 then s else count s n 20 1
  recordDone s n w.rcd.vid clock

/-- The lane has parked, at `t` fs (R190): the last of these times stands (R191). -/
def park (s : State) (n t : Nat) : State :=
  let k := t / 1000000
  setPhase { s with seq := { s.seq with lastPark := if s.seq.lastPark < k then k else s.seq.lastPark } } n .parked

/-- A lane that comes to rest in a stop bath has parked once its scanner stands and its laser is off (R190). -/
def parkDue (s : State) (n : Nat) : State :=
  let l := lane s n
  if l.phase == .stopping && decide (l.motion.dur ≤ l.motion.t) && !gateOf s n && l.gates.all (·.settled) then
    park s n (if l.restAt < l.gateFell then l.gateFell else l.restAt)
  else s

/-- The mark in `cur` ends at `clock` fs: on through the vertex at speed, into its run-out, or at rest. -/
def markEnd (s : State) (n clock : Nat) : State :=
  let l := lane s n
  match l.cur with
  | none => s
  | some w =>
    let s := countMark s n w clock
    match l.succ with
    | some b =>
      if l.corner && decide (0 < l.exitSpeed) then
        let s := doneWork s n w (clock / 1000000)
        let s := moveSlot (releaseSlot s n 0) n 1 0
        let s := updLane s n (fun q => { q with cur := some b, succ := none, pf := focus16 s b.rcd })
        let s := beginMark s n l.exitSpeed clock true
        if b.src = 0 || b.src = 3 then s else startEntry s b
      else markRest s n clock w l
    | none => markRest s n clock w l
where
  /-- Its on-window settles the mark when it falls; a mark without one is settled now. -/
  markRest (s : State) (n clock : Nat) (w : Work) (l : Lane) : State :=
    let s := if l.gates.any (fun g => sameWork g.work w && g.ended.isNone) then
               updLane s n (fun q => { q with gates := q.gates.map (fun g => if sameWork g.work w && g.ended.isNone then { g with ended := some clock } else g) })
             else doneWork s n w (clock / 1000000)
    let s := moveSlot s n 0 2
    let s := updLane s n (fun q => { q with cur := none, remark := none })
    let bath := layerSt s ≠ stExposing
    if 0 < l.exitSpeed then
      let p := stopProf l.exitSpeed 0 (pathAccel s n) (pathJerk s n)
      let d := (Prof.way p).toNat
      let m := lineMotion (l.px, l.py) (VRec.on16 w.rcd (end16 w + d)) d l.pf p
      let s := updLane s n (fun q => { q with corner := false, exitSpeed := 0, motion := m })
      setPhase s n (if bath then .stopping else .runout)
    else if bath then setPhase (updLane s n (fun q => { q with restAt := clock })) n .stopping
    else setPhase s n .free

/-- A motion of lane `n` has ended at `clock` fs, `past` fs before the end of the tick. -/
def motionEnd (s : State) (n clock past : Nat) : State :=
  let l := lane s n
  match l.phase with
  | .runup => beginMark s n (match l.cur with
      | some w => markV s n w.rcd
      | none => 0) clock false
  | .marking => markEnd s n clock
  | .runout => setPhase s n .free
  | .jump => if l.retarget.isSome then s else jumpEnd s n past
  | .stopping => updLane s n (fun l => { l with restAt := clock })
  | _ => s

/-- Lane `n` at `t` fs of its motion. -/
def place (s : State) (n t : Nat) : State :=
  updLane s n (fun l =>
    let p := l.motion.posAt (s.freeCtr + n) t
    { l with motion := { l.motion with t := t }, px := p.1, py := p.2.1, pf := p.2.2 })

/-- Lane `n` from `clock` fs on for `left` fs: its motions in turn, and its holds. -/
def advance (n : Nat) : Nat → State → Nat → Nat → State
  | 0, s, _, _ => s
  | k + 1, s, clock, left =>
    let l := lane s n
    let m := l.motion
    if m.dur ≤ m.t then
      if l.phase == .runup || l.phase == .marking || l.phase == .runout then
        advanceOn k (motionEnd s n clock left) clock left l.phase
      else if l.holdFs = 0 then s
      else updLane s n (fun l => { l with holdFs := l.holdFs - left })
    else
      let rem := m.dur - m.t
      if left < rem then place s n (m.t + left)
      else advanceOn k (motionEnd (place s n m.dur) n (clock + rem) (left - rem)) (clock + rem) (left - rem) l.phase
where
  advanceOn (k : Nat) (s : State) (clock left : Nat) (was : Phase) : State :=
    -- a motion that ends at rest starts no other before the next boundary
    if was == .runup || was == .marking then advance n k s clock left else s

/-- Lane `n` in a jump turns to its next piece of work `x` (R211, R267): its jump is retargeted, for a recipe switch it ends where it can
(R163); a record with a point outside the map field does not start (R217). -/
def turnTo (s : State) (n : Nat) (x : Work) : State :=
  let s := tilesFor (askGrant (updLane s n (fun q => { q with cur := some x })) n 0 x) n x
  if !fieldOk s n x false then raiseOnce s clsLane 0x0105 (srcLane n) []
  else if x.rcd.ty = 4 then stopMotion s n
  else
    let p := entryPt s n x false
    let (f, v) := jumpParams s n x
    updLane s n (fun q => { q with retarget := some ⟨false, false, p.1, p.2, f, v⟩ })

/-- The mark of lane `n` goes on without the corner it was to take. -/
def cornerOff (s : State) (n : Nat) : State :=
  let l := lane s n
  let s := updLane s n (fun q => { q with corner := false })
  match l.cur with
  | some c =>
    if l.phase == .marking then
      let (left, v, a) := leftOn s n
      replanMark s n c (freeExit s n c v a left)
    else updLane s n (fun q => { q with endSpeed := none })
  | none => s

/-- The mark in `cur`, which has not begun, is taken off lane `n`; the lane comes to rest. -/
def dropCur (s : State) (n : Nat) : State :=
  let p := (lane s n).phase
  let s := releaseSlot (updLane (dropWindow s n) n (fun q => { q with cur := none, corner := false, endSpeed := none, holdFs := 0, retarget := none })) n 0
  if p == .jump || p == .runup then setPhase (stopMotion s n) n .runout else setPhase s n .free

/-- The claimed successor or current entry of home lane `n` has been granted to another (R267): its grant is released; a jump
towards it is retargeted to the next piece of work. -/
def dropPending (s : State) (n : Nat) (w : Work) : State :=
  let l := lane s n
  let same (x : Work) : Bool := x.src == 1 && x.rcd.vid == w.rcd.vid && x.seg == w.seg
  if l.succ.any same then
    let s := releaseSlot (updLane s n (fun q => { q with succ := none })) n 1
    if l.corner || l.endSpeed.isSome then cornerOff s n else s
  else if l.cur.any same then
    if l.phase == .jump then
      let s := releaseSlot (updLane (dropWindow s n) n (fun q => { q with cur := none, corner := false })) n 0
      match takeWork s n false with
      | (s, some x) => turnTo s n x
      | (s, none) => s
    else dropCur s n
  else updLane s n (fun q => { q with kept := q.kept.filter (fun x => !same x), claimed := q.claimed.filter (fun x => !same x) })

/-! ### New limits in motion (R237) -/

/-- Limits of a lane that its motions follow (R205). -/
def limitRegs (n : Nat) : List Nat :=
  [SCN_VMAX_MARK n, SCN_VMAX_JUMP n, SCN_ACCEL n, SCN_JERK n, SCN_ZVMAX n, SCN_ZACCEL n, SCN_ZJERK n]

/-- A jump replanned from the lane's present state to its own end (R237): one along a line stays on it, with the focus move arriving at the
same time (assumption 22). -/
def jumpReplan (s : State) (n : Nat) : State :=
  let l := lane s n
  let m := l.motion
  match m.axes with
  | some _ => updLane s n (fun q => { q with motion := planAxes s n (m.rates m.t) m.x1 m.y1 m.f1 m.vlim })
  | none =>
    let (left, v, a) := leftOn s n
    let (e, fv, fa) := m.focus m.t
    let fl : Int := (m.f1 - m.f0).natAbs - e
    let top := satN (vmaxJump s n) m.vlim
    let dur := longer (Prof.dur (pointProf v a 0 top (pathAccel s n) (pathJerk s n) left))
      (Prof.dur (pointProf fv fa 0 (zVmax s n) (zAccel s n) (zJerk s n) fl))
    let p := lateProf v a top (pathAccel s n) (pathJerk s n) left dur
    let q := lateProf fv fa (zVmax s n) (zAccel s n) (zJerk s n) fl dur
    updLane s n (fun x => { x with motion :=
      { m with x0 := l.px, y0 := l.py, f0 := l.pf, len := left.toNat, prof := p, fprof := q, dur := longer (Prof.dur p) (Prof.dur q), t := 0, apart := true } })

/-- A run-up replanned to its mark's new speed, and the on-window of the mark with it where GATE has not risen. -/
def runupReplan (s : State) (n : Nat) (w : Work) : State :=
  let l := lane s n
  let (left, v, a) := leftOn s n
  let full := markV s n w.rcd
  if l.endSpeed.isSome || !canReach v a full (pathAccel s n) (pathJerk s n) left then s
  else
    let m := restOfLine s n (pointProf v a full full (pathAccel s n) (pathJerk s n) left)
    let s := updLane s n (fun l => { l with motion := m })
    let r := recipeOf s w.rcd.recipe
    let t0 : Int := (nowFs s : Int) + m.dur
    let t1 := t0 + (markMotion s n w full (freeExit s n w full 0 (markLen s n w))).dur
    updLane s n (fun l => { l with gates := l.gates.map (fun g =>
      if sameWork g.work w && g.ended.isNone then
        { g with rise := if nowFs s < g.rise then toTime (t0 - onFs r) else g.rise, fall := some (toTime (t1 - offFs r)) } else g) })

/-- A commit of group SCN takes effect: the motions in progress of lanes whose limits changed are replanned from their present state
(R237); one that comes to rest does so under the new limits. -/
def scnTake (old s : State) : State :=
  lanes24.foldl (fun s n =>
    let l := lane s n
    if (limitRegs n).all (fun a => rd old a == rd s a) || decide (l.motion.dur ≤ l.motion.t) then s
    else
      match l.phase, l.cur with
      | .marking, some w => replanMark s n w l.exitSpeed
      | .runup, some w => runupReplan s n w
      | .jump, _ => jumpReplan s n
      | _, _ => if l.jog.isSome then jumpReplan s n else stopMotion s n) s

end Sys2Proof.Machine
end

