-- ==== Sys2Proof/Machine/Loops.lean ====
section
/-!
DEFINITION. Closed-loop power control (R334 to R358): the loops of a lane, the law, the states, set-points, coefficient
changes and the loop commands.
-/

namespace Sys2Proof.Machine

/-! ### Photodiode inputs (R300, R306) -/

/-- Photodiode input `i` of lane `n` beyond its registers. -/
def afeIn (s : State) (n i : Nat) : AfeIn := mget AfeIn.reset (lane s n).afe i

/-- `s` with `f` applied to an input. -/
def updAfe (s : State) (n i : Nat) (f : AfeIn → AfeIn) : State :=
  updLane s n (fun l => { l with afe := mset l.afe i (f (mget AfeIn.reset l.afe i)) })

/-- The domain AFEq of a lane (R86). -/
def afeDom (n : Nat) : Nat := 14 + quadOf n

/-- Input `i` of lane `n` is enabled (R300). -/
def afeEn (s : State) (n i : Nat) : Bool := flag s (AFE_CFG n) i

/-- A run makes the value of boundary `t` ns STALE (R306): its sample window overlaps the run. -/
def runStale (a : AfeIn) (t : Nat) : Bool :=
  match a.run with
  | some r => decide (r < t)
  | none => decide (t ≤ a.staleTo)

/-- The value of boundary `t` is STALE (R300, R306). -/
def afeStale (s : State) (n i t : Nat) : Bool :=
  let a := afeIn s n i
  !afeEn s n i || a.fresh || runStale a t

/-- The value of input `i` of lane `n` in the tick that begins now is STALE. -/
def staleNow (s : State) (n i : Nat) : Bool := !domOn s (afeDom n) || afeStale s n i (now s)

/-! ### State of a loop -/

/-- The loops of a lane. -/
def loops4 : List Nat := List.range 4

/-- Loop `k` of lane `n` beyond its registers. -/
def loop (s : State) (n k : Nat) : Loop := mget Loop.reset (lane s n).loops k

/-- `s` with `f` applied to loop `k` of lane `n`. -/
def updLoop (s : State) (n k : Nat) (f : Loop → Loop) : State :=
  updLane s n (fun l => { l with loops := mset l.loops k (f (mget Loop.reset l.loops k)) })

/-- Loop states of LOOP_READ (R354). -/
def lpOff : Nat := 0
def lpIdle : Nat := 1
def lpBase : Nat := 2
def lpActive : Nat := 3
def lpHold : Nat := 4
def lpManual : Nat := 5

/-- The state of loop `k` as `LOOP_STS` shows it. -/
def loopState (s : State) (n k : Nat) : Nat := fld s (LOOP_STS n) (3 + 4 * k) (4 * k)

/-- `s` with the state of loop `k` set. -/
def setLoopState (s : State) (n k v : Nat) : State := setFld s (LOOP_STS n) (3 + 4 * k) (4 * k) v

/-- MODE of loop `k`: 0 OFF, 1 AUTO, 2 MANUAL; 3 is taken as 1 (R355). -/
def loopMode (s : State) (n k : Nat) : Nat := if fld s (LOOPK_CFG n k) 1 0 = 3 then 1 else fld s (LOOPK_CFG n k) 1 0

/-- START_TICKS; 0 is taken as 1 (R355). -/
def startTicks (s : State) (n : Nat) : Nat := if fld s (LOOP_CFG n) 7 0 = 0 then 1 else fld s (LOOP_CFG n) 7 0

/-! ### Power units (R338) -/

/-- LPU of a power in mW with 8 fractional bits, at full scale `pfs`. -/
def toLpu (mw8 : Int) (pfs : Nat) : Int := rdiv (mw8 * 2 ^ 20) (pfs * 1000)

/-- mW with 8 fractional bits of a power in LPU. -/
def toMw8 (lpu : Int) (pfs : Nat) : Int := rdiv (lpu * pfs * 1000) (2 ^ 20)

/-- A product of the loop arithmetic: rounded and saturated to 32 bits (R338). -/
def loopMul (a b : Int) : Int := satI 32 (rdiv (a * b) 65536)

/-- Output limits of loop `k` at base power `pb` (R339). -/
def loopLo (s : State) (n k : Nat) (pb : Int) : Int := fdiv (pb * fld s (LOOP_LIM n k) 8 0) 256
def loopHi (s : State) (n k : Nat) (pb : Int) : Int := fdiv (pb * fld s (LOOP_LIM n k) 25 16) 256

/-- The integrator's range (R339). -/
def integClamp (s : State) (n k : Nat) (pb i : Int) : Int := clampI (loopLo s n k pb - pb) (loopHi s n k pb - pb) i

/-! ### Inputs (R334, R335) -/

/-- Value of photodiode input `i` in 1/256 PDU. -/
def pdVal (s : State) (n i : Nat) : Int := rdI s (AFE_PD_VALUE n i)

/-- SRC of L3: 3 is taken as 0 (R355). -/
def l3Src (s : State) (n : Nat) : Nat := if fld s (LOOPK_CFG n 3) 9 8 = 3 then 0 else fld s (LOOPK_CFG n 3) 9 8

/-- The photodiode inputs that loop `k` uses. -/
def loopPds (s : State) (n k : Nat) : List Nat :=
  match k with
  | 0 => [0]
  | 1 => []
  | 2 => [1]
  | _ => match l3Src s n with
    | 0 => [0]
    | 1 => [1]
    | _ => [0, 1]

/-- What a loop has of its input at a boundary: a usable value, an unusable input, or for L1 no record since the last
boundary. -/
inductive LoopIn where
  | good (y : Int)
  | bad
  | same
  deriving DecidableEq, Repr

/-- The input of loop `k`. -/
def loopIn (s : State) (n k : Nat) : LoopIn :=
  if k = 1 then
    match (lane s n).l1In with
    | none => .same
    | some (true, y) => .good y
    | some (false, _) => .bad
  else if (loopPds s n k).any (fun i => staleNow s n i) then .bad
  else if k = 3 && l3Src s n == 2 then
    if 0 < pdVal s n 0 then .good (satI 32 (rdiv (pdVal s n 1 * 65536) (pdVal s n 0).toNat)) else .bad
  else .good (pdVal s n ((loopPds s n k).headD 0))

/-- A window of an input of loop `k` held a low-gain code of 65,535 (R337). -/
def loopOver (s : State) (n k : Nat) : Bool := (loopPds s n k).any (fun i => (lane s n).pdOver.testBit i)

/-! ### Set-points (R346) -/

/-- The target set-point of loop `k`: the override, else the current recipe's; none while neither exists. -/
def loopTarget (s : State) (n k : Nat) : Option Int :=
  if flag s (LOOP_SP_CTL n k) 0 then some (rdI s (LOOP_SP_OVR n k))
  else (lane s n).recipe.map (fun r => sgn 32 ((recipeOf s r).setpoints.getD k 0))

/-- The working set-point follows its target (R346). -/
def loopSlew (s : State) (n k : Nat) : State :=
  match loopTarget s n k with
  | none => s
  | some t =>
    let r := rdI s (LOOP_SETPT n k)
    let w : Int := rdN s (LOOP_SLEW n k)
    if (lane s n).spNow || w = 0 then wrI s (LOOP_SETPT n k) t
    else wrI s (LOOP_SETPT n k) (r + clampI (-w) w (t - r))

/-- Every working set-point of lane `n` follows its target for one tick. -/
def loopsSlew (s : State) (n : Nat) : State :=
  updLane (loops4.foldl (fun s k => loopSlew s n k) s) n (fun l => { l with spNow := false })

/-! ### The law (R340) -/

/-- p and d of loop `k` for an input `y`; y_prev is set from the first usable input. -/
def loopTerms (s : State) (n k : Nat) (y : Int) (l : Loop) : Loop :=
  let neg := flag s (LOOPK_CFG n k) 31
  let sg (x : Int) : Int := if neg then -x else x
  let e := sg (rdI s (LOOP_SETPT n k) - y)
  let dy := if l.ySet then -(sg (y - l.yPrev)) else 0
  let kf := fld s (LOOP_KF n k) 15 0
  let fd := if kf = 0 then dy else l.fd + loopMul (dy - l.fd) kf
  { l with e := e, p := loopMul (rdI s (LOOP_KP n k)) e, fd := fd, d := loopMul (rdI s (LOOP_KD n k)) fd
           yPrev := y, ySet := true, upd := true }

/-- The output of an ACTIVE loop. -/
def loopLaw (s : State) (n k : Nat) (pb : Int) : Int :=
  let l := loop s n k
  clampI (loopLo s n k pb) (loopHi s n k pb) (satI 32 (pb + rdI s (LOOP_INTEG n k) + l.p + l.d))

/-- The integrator preset. -/
def setInteg (s : State) (n k : Nat) (pb i : Int) : State := wrI s (LOOP_INTEG n k) (integClamp s n k pb (satI 32 i))

/-- Loop `k` shows an output. -/
def showOut (s : State) (n k : Nat) (out : Int) : State := wrI s (LOOP_OUT n k) out

/-! ### States (R342 to R345) -/

/-- BASE: the output is Pb and the integrator is preset so that the law starts from it. -/
def loopInBase (s : State) (n k : Nat) (pb : Int) : State :=
  let s := match loopIn s n k with
    | .good y => updLoop s n k (loopTerms s n k y)
    | .bad => updLoop s n k (fun l => { l with p := 0, d := 0, e := 0 })
    | .same => s
  let l := loop s n k
  let s := setInteg s n k pb (-l.p - l.d)
  setLoopState (showOut (updLoop s n k (fun l => { l with count := l.count + 1 })) n k pb) n k lpBase

/-- HOLD with an output. -/
def loopInHold (s : State) (n k : Nat) (pb held : Int) : State :=
  let out := clampI (loopLo s n k pb) (loopHi s n k pb) held
  let s := updLoop s n k (fun l => { l with held := held, holdNs := l.holdNs + tickNs s })
  setLoopState (showOut (setInteg s n k pb (rdI s (LOOP_INTEG n k))) n k out) n k lpHold

/-- ACTIVE: the law with the terms the loop has. -/
def loopInActive (s : State) (n k : Nat) (pb : Int) : State :=
  let s := setInteg s n k pb (rdI s (LOOP_INTEG n k))
  setLoopState (showOut s n k (loopLaw s n k pb)) n k lpActive

/-- The law resumes from a held output with y_prev the present input: its first output is that output (R342, R345). -/
def loopResume (s : State) (n k : Nat) (pb held y : Int) : State :=
  let s := updLoop s n k (fun l => loopTerms s n k y { l with yPrev := y, ySet := true })
  let l := loop s n k
  loopInActive (setInteg s n k pb (held - pb - l.p - l.d)) n k pb

/-- One loop in MODE AUTO that takes part in the tick, in the precedence of R344. `ramp1`: the ramp factors are 1. -/
def loopAuto (s : State) (n k : Nat) (pb : Int) (ramp1 : Bool) : State :=
  let st := loopState s n k
  let l := lane s n
  if (st = lpOff || st = lpManual) && l.window then
    -- inside the window from MANUAL or OFF: the applied power is taken over (R345)
    let s := updLoop s n k (fun q => { q with p := 0, d := 0, fd := 0, ySet := false, holdNs := 0, count := startTicks s n })
    match loopIn s n k with
    | .good y => loopResume s n k pb l.pa y
    | _ => loopInHold (setInteg s n k pb (l.pa - pb)) n k pb l.pa
  else if st = lpIdle || st = lpOff || st = lpManual then
    loopInBase (updLoop s n k (fun q => { q with fd := 0, ySet := false, p := 0, d := 0, count := 0, holdNs := 0 })) n k pb
  else if (st = lpBase && decide ((loop s n k).count < startTicks s n)) || !ramp1 then loopInBase s n k pb
  else
    match st, loopIn s n k with
    | 2, .good y =>
      -- L1 needs a record delivered after BASE ended
      if k = 1 then loopInHold s n k pb pb else loopInActive (updLoop s n k (loopTerms s n k y)) n k pb
    | 2, _ => loopInHold s n k pb pb
    | 3, .good y => loopInActive (updLoop s n k (loopTerms s n k y)) n k pb
    | 3, .same => loopInActive s n k pb
    | 3, .bad => loopInHold s n k pb (rdI s (LOOP_OUT n k))
    | _, .good y => loopResume s n k pb (clampI (loopLo s n k pb) (loopHi s n k pb) (loop s n k).held) y
    | _, _ => loopInHold s n k pb (loop s n k).held

/-- One loop's step at a boundary. `part`: it takes part but for its MODE (R336). -/
def loopOne (s : State) (n k : Nat) (pb : Int) (part ramp1 : Bool) : State :=
  let s := match loopIn s n k with
    | .good y => wrI s (LOOP_INPUT n k) y
    | _ => s
  let s := updLoop s n k (fun l => { l with upd := false })
  match loopMode s n k with
  | 0 => setLoopState s n k lpOff
  | 2 =>
    if part then
      let out := clampI (loopLo s n k pb) (loopHi s n k pb) (fdiv (pb * fld s (LOOP_MAN n k) 9 0) 256)
      setLoopState (showOut (setInteg s n k pb (rdI s (LOOP_INTEG n k))) n k out) n k lpManual
    else setLoopState s n k lpManual
  | _ => if part then loopAuto s n k pb ramp1 else setLoopState s n k lpIdle

/-- The loops take part in the tick. -/
def loopParts (s : State) (n : Nat) (win : Bool) (loopEn : Nat) : List Nat :=
  if win then loops4.filter (fun k => loopEn.testBit k && loopMode s n k != 0) else []

/-- The loops of lane `n` at a boundary with base power `pb` in LPU: their set-points, states and outputs (R336, R342). -/
def loopsStep (s : State) (n : Nat) (pb : Int) (win ramp1 : Bool) (loopEn : Nat) : State :=
  let s := loopsSlew s n
  let s := loops4.foldl (fun s k => loopOne s n k pb (win && loopEn.testBit k) ramp1) s
  updLane s n (fun l => { l with window := win, l1In := none, pb := pb })

/-- The lowest output of the loops that take part, if any does (R252 order 4). -/
def loopsMin (s : State) (n : Nat) (parts : List Nat) : Option Int :=
  parts.foldl (fun m k =>
    let o := rdI s (LOOP_OUT n k)
    match m with
    | none => some o
    | some v => some (if o < v then o else v)) none

/-- The loop that decides the request: the lowest-numbered loop ACTIVE, HOLD or MANUAL whose output equals it (R341). -/
def loopSel (s : State) (n : Nat) (parts : List Nat) (req : Int) : Option Nat :=
  parts.find? (fun k => decide (lpActive ≤ loopState s n k) && rdI s (LOOP_OUT n k) == req)

/-- The integrator of an ACTIVE loop after the clamps (R341). -/
def loopInteg (s : State) (n k : Nat) (pb pa : Int) (decided clamped : Bool) : State :=
  if loopState s n k ≠ lpActive then s
  else
    let l := loop s n k
    let i := rdI s (LOOP_INTEG n k)
    let inc0 := if k = 1 && !l.upd then 0 else loopMul (rdI s (LOOP_KI n k)) l.e
    let inc := if loopOver s n k && decide (0 < inc0) then 0 else inc0
    let v := if decided && !clamped then i + inc else if decided then pa - pb - l.p - l.d else pa - pb
    let c := integClamp s n k pb v
    let s := wrI s (LOOP_INTEG n k) (satI 32 c)
    if c = v then s else tally s n (48 + 4 * k) 1

/-- What the loops do once Pa is known: `sel` decided the request, `clamped` says that grant or Pmax decided Pa. -/
def loopsSettle (s : State) (n : Nat) (pb pa : Int) (sel : Option Nat) (clamped : Bool) : State :=
  let s := loops4.foldl (fun s k => loopInteg s n k pb pa (sel == some k) clamped) s
  let s := match sel with
    | some k => tally (setFld (setFlag s (LOOP_STS n) 20 true) (LOOP_STS n) 19 18 k) n (64 + 4 * k) 1
    | none => setFlag s (LOOP_STS n) 20 false
  let sat := loops4.filter (fun k =>
    let i := rdI s (LOOP_INTEG n k)
    i == loopLo s n k pb - pb || i == loopHi s n k pb - pb)
  updLane (setFld s (LOOP_SAT n) 3 0 (sat.foldl natSet 0)) n (fun l => { l with pa := pa })

/-- A loop counts in R351: BASE, ACTIVE or HOLD, or MANUAL and taking part. -/
def loopCounts (s : State) (n k : Nat) : Bool :=
  let st := loopState s n k
  (decide (lpBase ≤ st) && decide (st ≤ lpHold)) ||
  (st == lpManual && (lane s n).window && match (lane s n).recipe with
    | some r => (recipeOf s r).loopEn.testBit k
    | none => false)

/-- `QUAD_LOOPS` of every lane follows the loops of its quad (R351, R355). -/
def quadLoops (s : State) : State :=
  (List.range 6).foldl (fun s q =>
    let ls := (List.range 4).map (fun i => 4 * q + i)
    let c := sumN (ls.map (fun n => (loops4.filter (loopCounts s n)).length))
    ls.foldl (fun s n => if fld s (LOOP_STS n) 31 24 = c then s else setFld s (LOOP_STS n) 31 24 c) s) s

/-- LOOP_HOLD_LONG (R352): a loop in HOLD for more than HOLD_LIMIT ms within one window, once per loop and layer. -/
def execLoopHoldLong (n k : Nat) (s : State) : Host.Outcome State Fault Refusal :=
  whileClocked s fun s =>
  let l := loop s n k
  let lim := fld s (LOOP_CFG n) 31 16
    if lim ≠ 0 && loopState s n k = lpHold && decide (lim * 1000000 < l.holdNs) && !l.said then
      laneEvent (updLoop s n k (fun l => { l with said := true })) n 0x1404 (leBytes 1 n ++ leBytes 1 k)
    else s

/-! ### Mode changes (R345) -/

/-- The TAKE of a LOOP_MODE at its boundary, before MODE changes: MAN follows the loop's last output (R345). A loop that is
not in MODE AUTO keeps MAN (DEDUCED: the transfer is defined from AUTO only). -/
def loopTake (s : State) (n k : Nat) : State :=
  let l := loop s n k
  if !l.take then s
  else
    let s := updLoop s n k (fun l => { l with take := false })
    if loopMode s n k ≠ 1 then s
    else
      let pb := (lane s n).pb
      let man := if loopState s n k = lpIdle || pb = 0 then 256
                 else (clampI 0 1023 (rdiv (rdI s (LOOP_OUT n k) * 256) pb.toNat)).toNat
      setFld s (LOOP_MAN n k) 9 0 man

/-- Every TAKE that awaits this boundary. -/
def loopTakes (s : State) : State :=
  lanes24.foldl (fun s n => if (lane s n).loops.any (fun p => p.2.take) then loops4.foldl (fun s k => loopTake s n k) s else s) s

/-! ### Commands (R353, R354) -/

/-- LANES and LOOP in range (R353). -/
def loopParams (lanes lp : Nat) : Bool := decide (0 < lanes) && decide (lanes < 2 ^ 24) && decide (lp < 4)

/-- The lanes of a mask. -/
def lanesOf (mask : Nat) : List Nat := bitList mask 24

/-- Every named lane's quad is on. -/
def quadsOn (s : State) (mask : Nat) : Bool := (lanesOf mask).all (fun n => domOn s (2 + quadOf n))

/-- LOOP_CONFIG (R353, R354, R358). -/
def execLoopConfig (h : Issue) (lanes lp mask limLo limHi slew flags start hold : Nat) (pdmin : Int) (s : State) :
    Host.Outcome State Fault Refusal :=
  whileClocked s fun s =>
  let sec (i : Nat) : Bool := mask.testBit i
  let src := flags / 2 % 4
  hostCmd s h (.loopConfig h lanes lp mask limLo limHi slew flags start hold pdmin) 0x0501 48
    (fun s => [(loopParams lanes lp && decide (mask < 8) &&
                 (!sec 0 || (decide (limLo ≤ 256) && decide (256 ≤ limHi) && decide (limHi ≤ 1023))) &&
                 (!sec 1 || (if lp = 3 then decide (src ≤ 2) else src == 0)) &&
                 (!sec 2 || (decide (1 ≤ start) && decide (start ≤ 255))) && decide (flags < 16), .badParam),
               (quadsOn s lanes, .domainOff),
               (!(sec 1 || sec 2) || (lanesOf lanes).all (fun n => !laneInLayer s n), .wrongState)])
    (fun s =>
      let s := (lanesOf lanes).foldl (fun s n =>
        let s := if sec 0 then
            setShadow (setShadow (setShadow s 7 (LOOP_LIM n lp) 8 0 limLo) 7 (LOOP_LIM n lp) 25 16 limHi) 7 (LOOP_SLEW n lp) 31 0 slew
          else s
        let s := if sec 1 then setFld (setFlag s (LOOPK_CFG n lp) 31 (flags.testBit 0)) (LOOPK_CFG n lp) 9 8 (if lp = 3 then src else 0)
                 else s
        if sec 2 then
          let s := setFlag (setFld (setFld s (LOOP_CFG n) 7 0 start) (LOOP_CFG n) 31 16 hold) (LOOP_CFG n) 8 (flags.testBit 3)
          wrI s (LOOP_L1_PDMIN n) pdmin
        else s) s
      complete s h 0x0501 .ok 0 0 0 0)

/-- The register of a coefficient: 0 KP, 1 KI, 2 KD, 3 KF. -/
def coefReg (n k c : Nat) : Nat :=
  match c with
  | 0 => LOOP_KP n k
  | 1 => LOOP_KI n k
  | 2 => LOOP_KD n k
  | _ => LOOP_KF n k

/-- Magnitude of a coefficient word. -/
def coefMag (c v : Nat) : Nat := if c = 3 then v else (sgn 32 v).natAbs

/-- The order of R349 for one lane: unchanged coefficients are skipped; with ORDER 0 decreases in magnitude come first. -/
def coefOrder (s : State) (n k order : Nat) (new : List (Nat × Nat)) : List (Nat × Nat) :=
  let chg := new.filter (fun e => rdN s (coefReg n k e.1) != e.2)
  let down (e : Nat × Nat) : Bool := decide (coefMag e.1 e.2 < coefMag e.1 (rdN s (coefReg n k e.1)))
  if order = 1 then chg else chg.filter down ++ chg.filter (fun e => !down e)

/-- LOOP_COEF_WRITE (R349, R353, R354). -/
def execLoopCoefWrite (h : Issue) (lanes lp mask order : Nat) (kp ki kd : Int) (kf : Nat) (s : State) :
    Host.Outcome State Fault Refusal :=
  whileClocked s fun s =>
  let new := ([(0, unsgn 32 kp), (1, unsgn 32 ki), (2, unsgn 32 kd), (3, kf)] : List (Nat × Nat)).filter (fun e => mask.testBit e.1)
  hostCmd s h (.loopCoefWrite h lanes lp mask order kp ki kd kf) 0x0502 48
    (fun s => [(loopParams lanes lp && decide (0 < mask) && decide (mask < 16) && decide (order < 2), .badParam),
               (quadsOn s lanes, .domainOff),
               (!s.running.any (fun r => r.op == 0x0502 && r.aux.getD 0 4 == lp && r.aux.getD 1 0 &&& lanes != 0), .busy)])
    (fun s =>
      let s := (lanesOf lanes).foldl (fun s n => updLoop s n lp (fun l => { l with coefs := coefOrder s n lp order new })) s
      startRun s h 0x0502 (lanes * 4 + lp) [lp, lanes, 0, 0, now s])

/-- One LOOP_COEF_WRITE at a boundary: each lane applies its next coefficient; the command completes at the boundary of the
last one on any lane, or at the first when nothing changes (R349, R354). Nothing is applied again before the next boundary. -/
def coefStep (s : State) (r : Running) : State :=
  if now s ≤ r.aux.getD 4 0 then s
  else
  let lp := r.aux.getD 0 0
  let ls := lanesOf (r.aux.getD 1 0)
  let first := if r.aux.getD 2 0 = 0 then tickNo s % 2 ^ 32 else r.aux.getD 3 0
  let s := ls.foldl (fun s n =>
    match (loop s n lp).coefs with
    | [] => s
    | (c, v) :: rest => updLoop (wrN s (coefReg n lp c) v) n lp (fun l => { l with coefs := rest })) s
  if ls.all (fun n => (loop s n lp).coefs.isEmpty) then finishRun s 0x0502 r.key .ok first (tickNo s) 0 0
  else { s with running := s.running.map (fun q =>
    if q.op == 0x0502 && q.key == r.key then { q with aux := [lp, r.aux.getD 1 0, 1, first, now s] } else q) }

/-- LOOP_COEF_APPLY (R349): the coefficients due at this boundary. -/
def execLoopCoefApply (s : State) : Host.Outcome State Fault Refusal :=
  whileClocked s fun s =>
  (s.running.filter (fun r => r.op == 0x0502)).foldl coefStep s

/-- LOOP_MODE (R345, R353, R354): it takes effect and completes at the next boundary (LIVE_FIELD_APPLY). -/
def execLoopMode (h : Issue) (lanes lp mode man flags : Nat) (s : State) : Host.Outcome State Fault Refusal :=
  whileClocked s fun s =>
  hostCmd s h (.loopMode h lanes lp mode man flags) 0x0503 48
    (fun s => [(loopParams lanes lp && decide (mode < 3) && decide (man < 1024) && decide (flags < 2), .badParam),
               (quadsOn s lanes, .domainOff)])
    (fun s =>
      let s := (lanesOf lanes).foldl (fun s n =>
        let s := setLive s (LOOPK_CFG n lp) 1 0 mode
        if mode = 2 then
          if flags = 1 then updLoop s n lp (fun l => { l with take := true }) else setLive s (LOOP_MAN n lp) 9 0 man
        else s) s
      startRun s h 0x0503 0 [])

/-- LOOP_SETPOINT (R347, R353, R354): it takes effect and completes at the next boundary (LIVE_FIELD_APPLY). -/
def execLoopSetpoint (h : Issue) (lanes lp op : Nat) (value : Int) (s : State) : Host.Outcome State Fault Refusal :=
  whileClocked s fun s =>
  hostCmd s h (.loopSetpoint h lanes lp op value) 0x0504 48
    (fun s => [(loopParams lanes lp && decide (op < 2) && (op == 0 || value == 0), .badParam),
               (quadsOn s lanes, .domainOff)])
    (fun s =>
      let s := (lanesOf lanes).foldl (fun s n =>
        if op = 0 then setLive (setLive s (LOOP_SP_OVR n lp) 31 0 (unsgn 32 value)) (LOOP_SP_CTL n lp) 0 0 1
        else setLive s (LOOP_SP_CTL n lp) 0 0 0) s
      startRun s h 0x0504 0 [])

/-- LOOP_READ (R354). -/
def execLoopRead (h : Issue) (n k : Nat) (s : State) : Host.Outcome State Fault Refusal :=
  whileClocked s fun s =>
  hostCmd s h (.loopRead h n k) 0x0505 48
    (fun s => [(decide (n < 24) && decide (k < 4), .badParam), (domOn s (2 + quadOf n), .domainOff)])
    (fun s =>
      let pfs := fld s (LAS_PFS n) 15 0
      let mw (lpu : Int) : Int := fdiv (lpu * pfs * 1000) (2 ^ 28)
      let w := fdiv (rdI s (LOOP_OUT n k) * pfs) (2 ^ 28)
      let sel := flag s (LOOP_STS n) 20 && fld s (LOOP_STS n) 19 18 == k
      complete s h 0x0505 .ok (rdN s (LOOP_INPUT n k)) (rdN s (LOOP_SETPT n k)) (unsgn 32 (mw (rdI s (LOOP_INTEG n k))))
        (loopState s n k + 8 * b2n (flag s (LOOP_SAT n) k) + 16 * b2n sel + 256 * unsgn 24 w))

/-! ### COMMIT of group LOOP (R356) -/

/-- The checks of group LOOP. -/
def loopChecks (_s n : State) : List (Nat × Bool) :=
  let all (f : Nat → Nat → Bool) : Bool := lanes24.all (fun l => loops4.all (f l))
  [(0x0801, all (fun l k => decide (fld n (LOOP_LIM l k) 8 0 ≤ 256) && decide (256 ≤ fld n (LOOP_LIM l k) 25 16))),
   (0x0802, all (fun l k => decide (rdN n (LOOP_SLEW l k) ≤ 0x40000000)))]

end Sys2Proof.Machine
end

