-- ==== Sys2Proof/Machine/Laser.lean ====
section
/-!
DEFINITION. Laser ports, the shutter path and the laser power ledger (R239 to R264): GATE edges, the power chain, LP, the
ledger's boundary work, and the laser commands and pins.
-/

namespace Sys2Proof.Machine

/-! ### GATE (R243, R244) -/

/-- Two ns in fs. -/
def twoNs : Nat := 2000000

/-- A pulse: its rise and its fall, open where no fall is planned yet. -/
abbrev Pulse := Nat × Option Nat

/-- It is over at a time or before. -/
def Pulse.past (p : Pulse) (t : Nat) : Bool := match p.2 with
  | some f => decide (f ≤ t)
  | none => false

/-- It lasts at least `k` fs. -/
def Pulse.lasts (k : Nat) (p : Pulse) : Bool := match p.2 with
  | some f => decide (p.1 + k ≤ f)
  | none => true

/-- It is high at a time. -/
def Pulse.high (p : Pulse) (t : Nat) : Bool := decide (p.1 ≤ t) && !Pulse.past p t

/-- A window, of those joined before it the latest first, joins the latest where it overlaps it or begins less than 2 ns after its end. -/
def joinWin (acc : List Pulse) (w : Pulse) : List Pulse :=
  match acc with
  | [] => [w]
  | (_, none) :: _ => acc
  | (r, some f) :: ps => if w.1 < f + twoNs then (r, w.2.map (fun g => if f < g then g else f)) :: ps else w :: acc

/-- The pulses that on-windows give, in order: they are joined in the order of their rises; empty ones and highs shorter than 2 ns give
none. -/
def pulses (ws : List GateWin) : List Pulse :=
  let open_ := (ws.map (fun w => (w.rise, w.fall))).filter (Pulse.lasts 1)
  (((sortBy (·.1) open_).foldl joinWin []).filter (Pulse.lasts twoNs)).reverse

/-- A pulse or window meets the tick from `b` to `e` fs (R252 order 2): its rise lies before the tick's end and its fall after its
start. -/
def meets (b e : Nat) (p : Pulse) : Bool := decide (p.1 < e) && !Pulse.past p b

/-- GATE is planned high at a time (R286). -/
def plannedHigh (s : State) (n t : Nat) : Bool := (pulses (lane s n).gates).any (fun p => Pulse.high p t)

/-- Pa is held at 0 (R252 order 1), and GATE with it (R242, R246, R250). -/
def forcedOff (s : State) (n : Nat) : Bool :=
  s.pwr.safe || shutterHolds s || (lane s n).phase == .halted || portOff s n || (!flag s (LAS_CFG n) 8 && !emitOf s n)

/-- The mark that the laser marks in the present tick: of those whose on-window meets it the one that rose last, else the one in `cur`,
else the last begun. -/
def gateOwner (s : State) (n : Nat) : Option Work :=
  let l := lane s n
  let ws := l.gates.filter (fun g => meets (nowFs s) (nowFs s + tickFs s) (g.rise, g.fall))
  match (sortBy (·.rise) ws).getLast? with
  | some g => some g.work
  | none =>
    match l.phase with
    | .marking => l.cur
    | .runup => l.cur
    | .hold => l.cur
    | _ => l.gateWork

/-- GATE, and in EMIT_MODE 1 EMIT, set at a time (R246). -/
def gateTo (s : State) (n : Nat) (b : Bool) (at_ : Nat) : State :=
  let s := setGate s n b at_
  if flag s (LAS_CFG n) 8 then setFlag s (LAS_STS n) 5 b else s

/-- The level of GATE through the tick from `b` to `e` fs. -/
def gateLevels (s : State) (n b e : Nat) : State :=
  if forcedOff s n then (if gateOf s n then gateTo s n false b else s)
  else
    let s := (pulses (lane s n).gates).foldl (fun s p =>
      let s := if p.1 ≤ e && !Pulse.past p b && !gateOf s n then gateTo s n true (if b < p.1 then p.1 else b) else s
      match p.2 with
      | some f => if f ≤ e && gateOf s n then gateTo s n false f else s
      | none => s) s
    if gateOf s n && !plannedHigh s n e then gateTo s n false e else s

/-- Pool entries whose mark's own window has opened by `e` fs with GATE high are STARTED (R267). -/
def gateStarts (s : State) (n e : Nat) : State :=
  if forcedOff s n then s
  else
    let l := lane s n
    let ps := pulses l.gates
    (l.gates.filter (fun g => decide (g.rise ≤ e) && !g.settled && ps.any (fun p => decide (p.1 ≤ g.rise) && !Pulse.past p g.rise))).foldl
      (fun s g => startEntry s g.work) s

/-- The grant of a mark is released at the end of the tick that holds its GATE's fall (R257), once its motion has begun: by VECTOR_ID, of the
mark in progress and of those that have ended. -/
def gateReleases (s : State) (n e : Nat) : State :=
  let l := lane s n
  let stands (vid : Nat) : Bool := l.gates.any (fun g => g.work.rcd.vid == vid && !Pulse.past (g.rise, g.fall) e)
  let gone (g : GrantReq) : Bool := g.lane == n && (g.slot == 2 || (g.slot == 0 && l.phase == .marking)) && !stands g.vid
  if s.ledger.grants.any gone then
    grantShow (ledgerShow { s with ledger := { s.ledger with
      grants := s.ledger.grants.map (fun g => if gone g then { g with slot := 3 } else g) } }) n
  else s

/-- Marks whose motion has ended and whose GATE has fallen are settled with their pools, at the later of the two (R267, R277; assumption
106); settled windows are kept while the next may join them. -/
def gateSettle (s : State) (n e : Nat) : State :=
  let due (g : GateWin) : Bool := !g.settled && g.ended.isSome && Pulse.past (g.rise, g.fall) e
  let s := ((lane s n).gates.filter due).foldl (fun s g =>
    doneWork s n g.work (longer (g.ended.getD 0) (g.fall.getD 0) / 1000000)) s
  let over_ (g : GateWin) : Bool := g.settled && Pulse.past (g.rise, g.fall.map (· + twoNs)) e
  let settle (g : GateWin) : GateWin := if due g then { g with settled := true } else g
  updLane s n (fun l => { l with gates := (l.gates.map settle).filter (fun g => !over_ g) })

/-- The edges of lane `n` in the tick from `b` to `e` fs, and what follows from them. -/
def gateEdges (s : State) (n b e : Nat) : State :=
  gateSettle (gateReleases (gateStarts (gateLevels s n b e) n e) n e) n e

/-! ### The power chain (R252) -/

/-- The full ramp factor, 1. -/
def one16 : Nat := 65536

/-- Distance of the spot along a mark, in 2^−16 PLU; before its start it counts as there, after its end as at the end. -/
def along16 (s : State) (n : Nat) (w : Work) : Int :=
  let l := lane s n
  if l.cur.any (sameWork w) then
    if l.phase == .marking then len16 (l.px - w.rcd.sx * 65536) (l.py - w.rcd.sy * 65536) else start16 s n w
  else end16 w

/-- The re-mark ramp factor in 2^−16 (R193); a mark that has ended lies beyond its split point. -/
def remarkRamp (s : State) (n : Nat) (w : Work) (u16 : Int) : Nat :=
  let l := lane s n
  match l.remark with
  | some (a, d) =>
    if d ≤ a || !l.cur.any (sameWork w) then one16 else (clampI 0 65536 (fdiv (u16 - a * 65536) (d - a).toNat)).toNat
  | none => one16

/-- The power word of Pa in mW with 8 fractional bits (R8). -/
def powerWord (pa8 : Int) (pfs : Nat) : Nat := (clampI 0 65535 (rdiv (pa8 * 65535) (pfs * 256000))).toNat

/-- The serial frame of a power word (R240), 33 bits from START to STOP. -/
def lpFrame (word seq flags : Nat) : Nat :=
  let b := msbBits 16 word ++ msbBits 4 (seq % 16) ++ msbBits 3 flags
  bitsNat ([false] ++ b ++ msbBits 8 (crc8 b) ++ [true])

/-- The pulse width of a word in legacy mode, in 250 ps units (R241). -/
def lpWidth (s : State) (word : Nat) : Nat := (rdiv ((word : Int) * (tickNs s - 50) * 4) 65535).toNat

/-- GATE at the start of the tick's LP frame, 188 ns to 440 ns after the boundary (R240). With an edge between the two the level is a
free value. -/
def lpGate (s : State) (n : Nat) : Bool :=
  let at_ (ns : Nat) : Bool := !forcedOff s n && plannedHigh s n (nowFs s + ns * 1000000)
  if at_ 188 == at_ 440 then at_ 188 else Config.freeBit (s.freeCtr + n)

/-- EMIT at the start of the tick's LP frame: in EMIT_MODE 1 it is GATE there. -/
def lpEmit (s : State) (n : Nat) : Bool := if flag s (LAS_CFG n) 8 then lpGate s n else emitOf s n

/-- The word sent on LP (R240 to R242), inverted with LP_INVERT (R261); an LP that is off stays low. -/
def lpSend (s : State) (n word : Nat) : State :=
  let inv := flag s (LAS_CFG n) 4
  match fld s (LAS_CFG n) 1 0 with
  | 1 =>
    let seq := (lane s n).lpSeq
    let frame := lpFrame word seq (4 * b2n (lpGate s n) + 2 * b2n (lpEmit s n) + b2n s.pwr.safe)
    updLane s n (fun l => { l with lpOut := if inv then 2 ^ 33 - 1 - frame else frame, lpSeq := (seq + 1) % 16, lpRest := !inv })
  | 2 => updLane s n (fun l => { l with lpOut := lpWidth s word, lpRest := inv })
  | _ => updLane s n (fun l => { l with lpOut := 0, lpRest := false })

/-- The grant that bounds the power of the mark `w` on lane `n`, in mW: that of the mark itself (R252, R253). -/
def grantNow (s : State) (n : Nat) (w : Work) : Nat :=
  match s.ledger.grants.find? (fun g => g.lane == n && g.slot != 3 && g.vid == w.rcd.vid) with
  | some g => g.mw
  | none => 0

/-- Base power in mW with 8 fractional bits (R252 order 3), from power, burn factor and the two ramps, rounded once. -/
def baseMw8 (power bf rm st : Nat) : Int := rdiv ((power * 256 * bf * rm * st : Nat) : Int) (2 ^ 48)

/-- The clamp that decides (R252 orders 5 and 6): 0 none, 1 the grant, 2 Pmax. -/
def clampOf (req grant pmax : Int) : Nat :=
  if grant < req && decide (grant ≤ pmax) then 1 else if pmax < req && decide (pmax < grant) then 2 else 0

/-- The end of the chain: `LAS_APPLIED`, `LAS_WORD` and LP (R252 order 7). -/
def powerOut (s : State) (n : Nat) (pa8 : Int) (clamp : Nat) : State :=
  let word := powerWord pa8 (fld s (LAS_PFS n) 15 0)
  let s := wrN s (LAS_APPLIED n) (pa8 / 256).toNat
  lpSend (setFld (setFld s (LAS_WORD n) 15 0 word) (LAS_WORD n) 17 16 clamp) n word

/-- The loops, clamps and applied power of the mark `w` on lane `n` with base power `pb8` (R252 orders 4 to 6): Pa in mW with 8
fractional bits and the clamp. -/
def powerLive (s : State) (n : Nat) (w : Work) (loopEn : Nat) (pb8 : Int) (ramp1 : Bool) : State × Int × Nat :=
  let pfs := fld s (LAS_PFS n) 15 0
  let pb := toLpu pb8 pfs
  let s := loopsStep s n pb true ramp1 loopEn
  let parts := loopParts s n true loopEn
  let low := loopsMin s n parts
  let req8 := match low with
    | some o => toMw8 o pfs
    | none => pb8
  let grant8 : Int := grantNow s n w * 256
  let pmax8 : Int := rdN s (LAS_PMAX n) * 256
  let clamp := clampOf req8 grant8 pmax8
  let pa8 := if clamp = 1 then grant8 else if clamp = 2 then pmax8 else req8
  let sel := match low with
    | some o => loopSel s n parts o
    | none => none
  let s := wrN s (LOOP_PREQ n) (fdiv req8 256).toNat
  let s := loopsSettle s n pb (toLpu pa8 pfs) sel (clamp != 0)
  (if clamp = 1 then tally s n 80 1 else if clamp = 2 then tally s n 84 1 else s, pa8, clamp)

/-- The loops that a recipe enables; none outside EXPOSING (R342). -/
def loopsOf (s : State) (w : Work) : Nat := if layerSt s = stExposing then (recipeOf s w.rcd.recipe).loopEn else 0

/-- The power of lane `n` for a tick whose GATE lies in an on-window when `win` (R252), at the position of boundary k + 1, with the
burn factor of the tick; Pb and Pa in mW with 8 fractional bits beside it. -/
def powerStep (s : State) (n : Nat) (win : Bool) : State × Int × Int :=
  match gateOwner s n with
  | some w =>
    if win && !forcedOff s n then
      let u := along16 s n w
      let rm := remarkRamp s n w u
      let st := stitchRamp w u
      let bf := (lane s n).burnF.getD one16
      let pb8 := baseMw8 (recipeOf s w.rcd.recipe).power bf rm st
      let (s, pa8, clamp) := powerLive s n w (loopsOf s w) pb8 (rm == one16 && st == one16)
      (powerOut s n pa8 clamp, pb8, pa8)
    else
      let s := loopsStep s n 0 false true (loopsOf s w)
      (powerOut (loopsSettle (wrN s (LOOP_PREQ n) 0) n 0 0 none false) n 0 0, 0, 0)
  | none => (powerOut (loopsSettle (wrN (loopsStep s n 0 false true 0) (LOOP_PREQ n) 0) n 0 0 none false) n 0 0, 0, 0)

/-- The contact-sheet counters of a tick of lane `n` (R199): GATE open, energy, STALE inputs. -/
def powerCount (s : State) (n : Nat) (live : Bool) (pa8 : Int) : State :=
  if !live then s
  else
    let s := tally s n 92 1
    let s := if staleNow s n 0 || staleNow s n 1 then tally s n 44 1 else s
    if layerSt s = stExposing then
      let e := (lane s n).energy + pa8.toNat * tickNs s
      record (updLane s n (fun l => { l with energy := e })) n 100 (satN (2 ^ 64 - 1) (e / 256000000000))
    else s

/-- GATE is open at the present boundary. -/
def gateAtNow (s : State) (n : Nat) : Bool := (gateOf s n || plannedHigh s n (nowFs s)) && !forcedOff s n

/-! ### The ledger at a boundary (R253 to R259) -/

/-- The spots that cast corridors now: lanes whose GATE is planned open, and unless withdrawn the remote border lanes (R286,
R293). -/
def castersNow (s : State) : List (Nat × Int × Int) :=
  if !flag s PLM_CFG 31 then []
  else
    ((lanes24.filter (fun n => !forcedOff s n && plannedHigh s n (nowFs s))).map
      (fun n => (n, roundPlu (lane s n).px, roundPlu (lane s n).py))) ++
    (if withdrawn s then [] else
      s.ovl.border.flatMap (fun p => (p.2.filter (·.gate)).map (fun b => (24 + b.lane, b.x, b.y))))

/-- The ceiling of the boundary (R256). -/
def ceilingOf (s : State) : Nat :=
  let g := ledgerG s
  let d := rdN s LEDG_DPDT
  let budget := rdN s LEDG_BUDGET
  if d = 0 then budget
  else if s.ledger.still = some (tickNo s) then g
  else
    let c := rdN s LEDG_CEILING + d * tickNs s / 1000
    let c := satN c (satN budget (g + rdN s LEDG_STEP_MAX))
    if c < g then g else c

/-- A request that can never be granted (R258). -/
def impossible (s : State) (q : GrantReq) : Bool :=
  decide (rdN s LEDG_BUDGET < q.mw) || (rdN s LEDG_DPDT != 0 && decide (rdN s LEDG_STEP_MAX < q.mw))

/-- A request granted (R254): a lane that waits for it starts, the motion of a mark to come is fixed in time (R245), and a corner is planned
when the grant comes in the tick of its request (R255). -/
def giveGrant (s : State) (q : GrantReq) : State :=
  let s := { s with ledger := { s.ledger with waiting := s.ledger.waiting.filter (fun x => !(x.lane == q.lane && x.slot == q.slot))
                                              grants := s.ledger.grants ++ [{ q with tick := tickNo s }] } }
  let s := grantShow (ledgerShow s) q.lane
  if q.slot = 1 then (if q.tick = tickNo s then cornerPlan s q.lane else s)
  else if (lane s q.lane).phase == .waitGrant then tryStart s q.lane else fixStart s q.lane

/-- The pass over the requests in age order; the first that does not fit ends it. -/
def grantPass (c : Nat) : List GrantReq → State → State
  | [], s => s
  | q :: qs, s => if ledgerG s + q.mw ≤ c then grantPass c qs (giveGrant s q) else s

/-- LEDGER_GRANT (R254, R256, R258): the ledger acts only while the layer is EXPOSING or in STOP_BATH. -/
def execLedgerGrant (s : State) : Host.Outcome State Fault Refusal :=
  whileClocked s fun s =>
    if layerSt s ≠ stExposing && layerSt s ≠ stStopBath then s
    else
      let s := ledgerShow { s with ledger := { s.ledger with grants := s.ledger.grants.filter (fun g => g.slot != 3) } }
      let c := ceilingOf s
      let s := setFlag (wrN s LEDG_CEILING c) LEDG_STS 0 (rdN s LEDG_DPDT != 0 && decide (c < rdN s LEDG_BUDGET))
      let bad := s.ledger.waiting.filter (impossible s)
      let s := { s with ledger := { s.ledger with waiting := s.ledger.waiting.filter (fun q => !impossible s q) } }
      let s := bad.foldl (fun s q => raiseOnce (grantShow (ledgerShow s) q.lane) clsLane 0x010C (srcLane q.lane) (leBytes 4 q.vid ++ leBytes 4 q.mw)) s
      grantPass c (sortBy (fun q : GrantReq => q.tick * 32 + q.lane) s.ledger.waiting) s

/-! ### Commands (R260) -/

/-- LASER_PORT_SET (R260): MODE and LP_INVERT are class S, the other fields go to group LAS. -/
def execLaserPortSet (h : Issue) (n mode flags filter pfs pmax lead : Nat) (s : State) : Host.Outcome State Fault Refusal :=
  whileClocked s fun s =>
  hostCmd s h (.laserPortSet h n mode flags filter pfs pmax lead) 0x0204 48
    (fun s => [(decide (n < 24), .badParam),
               (decide (mode ≤ 2) && decide (flags < 4) && decide (1 ≤ filter) && decide (1 ≤ pfs), .badParam),
               (domOn s (2 + quadOf n), .domainOff), (!laneInLayer s n, .wrongState)])
    (fun s =>
      let s := setFlag (setFld s (LAS_CFG n) 1 0 mode) (LAS_CFG n) 4 (flags.testBit 1)
      let s := if mode = 0 then darken s n else s
      let s := setShadow (setShadow s 3 (LAS_CFG n) 31 24 filter) 3 (LAS_CFG n) 8 8 (b2n (flags.testBit 0))
      let s := setShadow (setShadow s 3 (LAS_CFG n) 1 0 mode) 3 (LAS_CFG n) 4 4 (b2n (flags.testBit 1))
      let s := setShadow (setShadow s 3 (LAS_PFS n) 15 0 pfs) 3 (LAS_PMAX n) 31 0 pmax
      complete (setShadow s 3 (LAS_EMIT_LEAD n) 15 0 lead) h 0x0204 .ok 0 0 0 0)

/-- LEDGER_SET (R260). -/
def execLedgerSet (h : Issue) (budget dpdt stepMax : Nat) (s : State) : Host.Outcome State Fault Refusal :=
  whileClocked s fun s =>
  hostCmd s h (.ledgerSet h budget dpdt stepMax) 0x0301 48
    (fun _ => [(decide (dpdt ≤ 1000000), .badParam)])
    (fun s =>
      let s := setShadow (setShadow (setShadow s 4 LEDG_BUDGET 31 0 budget) 4 LEDG_DPDT 31 0 dpdt) 4 LEDG_STEP_MAX 31 0 stepMax
      complete s h 0x0301 .ok (ledgerG s) 0 0 0)

/-- The checks of groups LAS and LEDG (R263). -/
def lasChecks (_s n : State) : List (Nat × Bool) :=
  [(0x0401, lanes24.all (fun l => fld n (LAS_PFS l) 15 0 != 0)),
   (0x0402, lanes24.all (fun l => decide (rdN n (LAS_PMAX l) ≤ fld n (LAS_PFS l) 15 0 * 1000))),
   (0x0403, lanes24.all (fun l => fld n (LAS_CFG l) 31 24 != 0))]
def ledgChecks (_s n : State) : List (Nat × Bool) :=
  [(0x0501, decide (rdN n LEDG_DPDT ≤ 1000000)), (0x0502, rdN n LEDG_DPDT == 0 || decide (1000 ≤ rdN n LEDG_STEP_MAX))]

/-- A committed budget below G shows at once (R259). -/
def ledgTake (_old s : State) : State := ledgerShow s

/-! ### Pins (R247, R249 to R251) -/

/-- INTERLOCK_N_FALL (R249, R251): every GATE and EMIT goes low; the lanes settle it at the next boundary. -/
def execInterlockNFall (s : State) : Host.Outcome State Fault Refusal :=
  always s fun s =>
  let s := { s with pins := { s.pins with interlockN := false } }
  let s := satIncF (setFlag (setFlag s LEDG_SHUTTER 31 true) LEDG_SHUTTER 30 true) LEDG_SHUTTER 15 0
  shutterShow (lanes24.foldl (fun s n => updLane (setFlag (setGate s n false (nowFs s)) (LAS_STS n) 5 false) n
    (fun l => { l with shut := true })) s)

/-- INTERLOCK_N_RISE (R250). -/
def execInterlockNRise (s : State) : Host.Outcome State Fault Refusal :=
  always s fun s =>
  shutterShow (setFlag { s with pins := { s.pins with interlockN := true } } LEDG_SHUTTER 30 false)

/-- A write of 1 to LATCHED, ignored while INTERLOCK_N is low (R250). From ARMED to PAUSED EMIT rises on every lane of the layer that is
not halted (R246). -/
def shutterClear (s : State) : State :=
  if !s.pins.interlockN then s
  else
    let s := shutterShow (setFlag s LEDG_SHUTTER 31 false)
    lanes24.foldl (fun s n => if laneInLayer s n && (lane s n).phase != .halted then emitRise s n else s) s

/-- SHUTTER_LATCH_CLEAR (R246, R250). -/
def execShutterLatchClear (s : State) : Host.Outcome State Fault Refusal :=
  whileClocked s fun s =>
  shutterClear s

/-- ALM_N_CHANGE (R247): the filtered level of lane `n`, `low` for an alarm. -/
def execAlmNChange (n : Nat) (low : Bool) (s : State) : Host.Outcome State Fault Refusal :=
  whileClocked s fun s =>
  let was := flag s (LAS_STS n) 2
  let s := setFlag s (LAS_STS n) 2 low
    if !low || was then s
    else if laneInLayer s n || emitOf s n then raiseFault s clsLane 0x010A (srcLane n) []
    else laneEvent s n 0x1203 []

/-- RDY_FALL (R247). -/
def execRdyFall (n : Nat) (s : State) : Host.Outcome State Fault Refusal :=
  whileClocked s fun s =>
  let s := setFlag s (LAS_STS n) 3 false
  if emitOf s n then raiseFault s clsLane 0x010B (srcLane n) [] else s

end Sys2Proof.Machine
end

