-- ==== Sys2Proof/Machine/Afe.lean ====
section
/-!
DEFINITION. The photodiode inputs and their calibration (R297 to R311): the value of a tick, dark statistics, calibration
runs, and saving and restoring the calibration values.
-/

namespace Sys2Proof.Machine

/-! ### Status -/

/-- Bits of the status byte of input `i` in `AFE_STS` (R310). -/
def afeBit (s : State) (n i b : Nat) : Bool := flag s (AFE_STS n) (8 * i + b)
def setAfeBit (s : State) (n i b : Nat) (v : Bool) : State := setFlag s (AFE_STS n) (8 * i + b) v

/-- `AFE_STS` PENDING, RUNNING and STALE follow the input. -/
def afeShow (s : State) (n i : Nat) : State :=
  let a := afeIn s n i
  let s := setAfeBit (setAfeBit s n i 2 a.pend.isSome) n i 3 a.run.isSome
  setAfeBit s n i 1 (a.run.isSome || afeStale s n i (now s))

/-! ### The value of a tick (R297 to R301) -/

/-- The sums of a window, in 1/256 code. -/
def pdAh (w : PdWin) : Nat := sumN (w.high.take 8) * 32
def pdAl (w : PdWin) : Nat := sumN (w.low.take 8) * 32

/-- A high-gain code of the window reached SAT_CODE. -/
def pdSat (w : PdWin) (code : Nat) : Bool := w.high.any (fun c => decide (code ≤ c))

/-- GATE was low from OFF_SETTLE before the window of boundary `t` ns to its end (R301): the newest pulse that rose before the window's
end had fallen by then. The window's 8 samples lie between 625 ns and 125 ns before the boundary. -/
def gateDark (s : State) (n t : Nat) : Bool :=
  let l := lane s n
  let from_ : Int := ((t : Int) - 625 - fld s (AFE_CFG n) 23 16 * 1000) * 1000000
  let newest := (l.gateRose, if gateOf s n then t * 1000000 else l.gateFell)
  match (newest :: l.gatePrev).find? (fun p => decide ((p.1 : Int) < ((t : Int) - 125) * 1000000)) with
  | some p => p.2 = 0 || decide ((p.2 : Int) ≤ from_)
  | none => true

/-- A dark tick adds its means and counts (R301). -/
def darkTick (s : State) (n i : Nat) (w : PdWin) : State :=
  satInc (updAfe s n i (fun a => { a with darkH := a.darkH + pdAh w, darkL := a.darkL + pdAl w })) (AFE_PD_DARK_COUNT n i)

/-- The value of a window (R298): 1/256 PDU and whether the range is LOW. -/
def pdValue (s : State) (n i : Nat) (w : PdWin) : Int × Bool :=
  if pdSat w (fld s (AFE_LIMITS n) 15 0) then
    (rdiv (((pdAl w : Int) - fld s (AFE_PD_OFF_L n i) 23 0) * fld s (AFE_PD_RATIO n i) 23 0) 65536, true)
  else ((pdAh w : Int) - fld s (AFE_PD_OFF_H n i) 23 0, false)

/-- Input `i` of lane `n` at a boundary (R297 to R301, R306). -/
def pdTick (s : State) (n i : Nat) (w : PdWin) : State :=
  let a := afeIn s n i
  let t := now s
  let s := wrN s (AFE_PD_RAW n i) (sumN (w.low.take 8) / 8 * 65536 + sumN (w.high.take 8) / 8)
  let sat := w.low.any (fun c => decide (65535 ≤ c))
  let s := setAfeBit s n i 1 (a.run.isSome || afeStale s n i t)
  let s := if sat && afeEn s n i then setAfeBit s n i 5 true else s
  if !afeEn s n i then wrI s (AFE_PD_VALUE n i) 0
  else if runStale a t then s
  else
    let s := if pdSat w (fld s (AFE_LIMITS n) 15 0) || !gateDark s n t then s else darkTick s n i w
    let s := updLane s n (fun l => { l with pdOver := if sat then natSet l.pdOver i else natClr l.pdOver i })
    if a.fresh then setAfeBit (wrI s (AFE_PD_VALUE n i) 0) n i 4 false
    else
      let (v, low) := pdValue s n i w
      setAfeBit (wrI s (AFE_PD_VALUE n i) v) n i 4 low

/-- Every input whose AFEq is on, with the windows of the boundary; an input that `ws` does not list saw codes of zero. -/
def pdTicks (s : State) (ws : List PdWin) : State :=
  lanes24.foldl (fun s n =>
    if domOn s (afeDom n) then
      [0, 1].foldl (fun s i => pdTick s n i ((ws.find? (fun w => w.lane == n && w.input == i)).getD ⟨n, i, [], []⟩)) s
    else s) s

/-! ### Pending runs (R304, R305) -/

/-- A run of an input becomes pending, or is merged with one that is pending or running. -/
def afePend (s : State) (n i : Nat) (power now1 : Bool) : State :=
  let a := afeIn s n i
  if a.run.isSome then s
  else if a.pend.isSome then updAfe s n i (fun a => { a with now1 := a.now1 || now1 })
  else afeShow (updAfe s n i (fun a => { a with pend := some (now s), power := power, now1 := now1 })) n i

/-- The temperature trigger at a sample of the quad's sensor (R304). -/
def afeTempTrigger (s : State) (n : Nat) : State :=
  if !domOn s (afeDom n) || !flag s (AFE_CFG n) 2 then s
  else
    [0, 1].foldl (fun s i =>
      let a := afeIn s n i
      let d := (thmTemp s (quadOf n) - fldI s (AFE_PD_CAL_TEMP n i) 15 0).natAbs
      if afeEn s n i && a.pend.isNone && a.run.isNone && decide (fld s (AFE_CFG n) 31 24 * 16 < d) then afePend s n i false false
      else s) s

/-- The power-on trigger of input `i` (R304, R306). -/
def afeWake (s : State) (n i : Nat) : State := afePend (updAfe s n i (fun a => { a with fresh := true })) n i true false

/-- The lane takes no part in a layer, or rests in it (R305). -/
def afeRests (s : State) (n : Nat) : Bool :=
  !laneInLayer s n || (match (lane s n).phase with
    | .parked => true
    | .halted => true
    | .ended => true
    | _ => false)

/-- The time in fs until which the plan in progress holds GATE low at least (R305): what is left of the jump, the JUMP_SETTLE or the dwell
that follows it, and what the mark that follows leads in with, ON_DELAY applied; none for a wait without a planned end. -/
def plannedLow (s : State) (n : Nat) : Option Int :=
  let l := lane s n
  let left : Int := (nowFs s : Int) + (l.motion.dur - l.motion.t : Nat)
  let lead (w : Work) : Int := if VRec.isMark w.rcd then runupFs s n w l.corner - onFs (recipeOf s w.rcd.recipe) else 0
  let settle (w : Work) : Int := if VRec.isMark w.rcd || w.rcd.ty = 1 then (recipeOf s w.rcd.recipe).settle * 1000000000 else 0
  let cur (f : Work → Int) : Int := match l.cur with
    | some w => f w
    | none => 0
  let hold (w : Work) : Int := if w.rcd.ty = 3 || w.rcd.ty = 4 then (holdTime w : Nat) else 0
  let next : Int := match l.succ with
    | some w => lead w + hold w
    | none => 0
  let rise : Int := match l.gates.getLast? with
    | some w => w.rise
    | none => nowFs s
  match l.phase with
  | .jump => some (left + cur (fun w => settle w + lead w + hold w) + (if l.cur.any (fun w => VRec.isMark w.rcd) then 0 else next))
  | .free => if 0 < l.holdFs then some ((nowFs s : Int) + l.holdFs + next) else none
  | .settle => some ((nowFs s : Int) + l.holdFs + cur lead)
  | .dwell => some ((nowFs s : Int) + l.holdFs + next)
  | .switching => some ((nowFs s : Int) + l.holdFs + next)
  | .waitEmit => if emitOf s n then some ((l.emitAt : Int) + fld s (LAS_EMIT_LEAD n) 15 0 * 1000000000) else none
  | .hold => some rise
  | .runup => some rise
  | .runout => some left
  | _ => none

/-- The slot of R305: GATE is low and its plan holds it low for 65 µs, or the lane rests. -/
def afeSlot (s : State) (n : Nat) : Bool :=
  afeRests s n || (!gateOf s n && (match plannedLow s n with
    | some t => decide ((nowFs s : Int) + 65000000000 ≤ t)
    | none => false))

/-- A pending power-on run has waited for its dark ticks or for 50 ms (R305). -/
def afeWaited (s : State) (n i : Nat) : Bool :=
  let a := afeIn s n i
  !a.power || decide (fld s (AFE_LIMITS n) 31 16 ≤ rdN s (AFE_PD_DARK_COUNT n i)) ||
  (match a.pend with
   | some t => decide (t + 50000000 ≤ now s)
   | none => true)

/-! ### The run (R302, R303) -/

/-- The inputs of lane `n` whose runs are pending. -/
def afePending (s : State) (n : Nat) : List Nat := [0, 1].filter (fun i => (afeIn s n i).pend.isSome)

/-- The pending runs of lane `n` start (R302 step 1); `forced` for one started at the deadline or by MODE 1, which counts on a
marking lane. -/
def afeStart (s : State) (n : Nat) (forced : Bool) : State :=
  let s' := (afePending s n).foldl (fun s i =>
    let s := setFld s (AFE_PD_CAL_TEMP n i) 15 0 (unsgn 16 (thmTemp s (quadOf n)))
    afeShow (updAfe s n i (fun a => { a with pend := none, power := false, now1 := false, run := some (now s)
                                             staleTo := now s + 64624 })) n i) s
  if forced && marking s n then satIncF s' (AFE_CAL_RUNS n) 31 16 else s'

/-- CALIBRATION_RUN_START (R305): both inputs whenever both are pending, once the wait of each is over, or at once with MODE 1. -/
def execCalibrationRunStart (n : Nat) (s : State) : Host.Outcome State Fault Refusal :=
  whileClocked s fun s =>
    let ps := afePending s n
    if ps.isEmpty || !domOn s (afeDom n) then s
    else if ps.any (fun i => (afeIn s n i).now1) then afeStart s n (!afeSlot s n)
    else if afeSlot s n && ps.all (afeWaited s n) then afeStart s n false
    else s

/-- CAL_DEADLINE (R305): a run of input `i` has been pending for 50 ms. -/
def execCalDeadline (n i : Nat) (s : State) : Host.Outcome State Fault Refusal :=
  whileClocked s fun s =>
  if (afeIn s n i).pend.any (fun t => decide (t + 50000000 ≤ now s)) && domOn s (afeDom n) then afeStart s n true else s

/-- The ratio found (R303); none when the low path shows no step, for which the spec states no quotient. -/
def sumsRatio (m : AfeSums) : Option Int :=
  let d := (m.zbL : Int) - m.zaL
  let x := ((m.zbH : Int) - m.zaH) * 65536
  if d = 0 then none else some (if 0 < d then rdiv x d.toNat else rdiv (-x) (-d).toNat)

/-- The ratio is accepted (R303). -/
def sumsAccepted (m : AfeSums) (satCode : Nat) : Bool :=
  match sumsRatio m with
  | some r => decide (14 * 65536 ≤ r) && decide (r ≤ 18 * 65536) && decide (m.zaL + 512 * 1000 ≤ m.zbL) && decide (m.top < satCode)
  | none => false

/-- A mean of 512 codes in whole codes. The spec does not say how `AFE_PDi_ZERO` rounds: a free choice of the two neighbours. -/
def zeroMean (c sum : Nat) : Nat := sum / 512 + (if sum % 512 = 0 then 0 else b2n (Config.freeBit c))

/-- Step 4 of a run of input `i` (R303). -/
def afeCompute (s : State) (n i : Nat) (m : AfeSums) : State :=
  let a := afeIn s n i
  let c := s.freeCtr
  let s := wrN (tick1 (tick1 s)) (AFE_PD_ZERO n i) (satN 65535 (zeroMean c m.zaL) * 65536 + satN 65535 (zeroMean (c + 1) m.zaH))
  let acc := sumsAccepted m (fld s (AFE_LIMITS n) 15 0)
  let found : Nat := match sumsRatio m with
    | some r => unsgn 32 r
    | none => (Config.freeWord s.freeCtr).toNat
  let s := if (sumsRatio m).isNone then tick1 s else s
  let s := if acc then s else laneEvent (setAfeBit s n i 7 true) n 0x1401 (leBytes 4 found)
  let dc := rdN s (AFE_PD_DARK_COUNT n i)
  let short := decide (dc < fld s (AFE_LIMITS n) 31 16)
  let off := if !short then ((rdiv a.darkH dc).toNat, (rdiv a.darkL dc).toNat)
             else if !a.offValid then ((rdiv (m.zaH * 256) 512).toNat, (rdiv (m.zaL * 256) 512).toNat)
             else (fld s (AFE_PD_OFF_H n i) 23 0, fld s (AFE_PD_OFF_L n i) 23 0)
  let s := if short then setAfeBit s n i 6 true else s
  let ratio := if acc then found else fld s (AFE_PD_RATIO n i) 23 0
  updAfe s n i (fun a => { a with result := some ⟨off.1, off.2, ratio, acc, short⟩ })

/-- CALIBRATION_RUN_END (R302 step 4): the runs of lane `n` that started first end together, 64 µs after their start. -/
def execCalibrationRunEnd (n : Nat) (pd0 pd1 : AfeSums) (s : State) : Host.Outcome State Fault Refusal :=
  whileClocked s fun s =>
  let going := [0, 1].filter (fun i => (afeIn s n i).run.isSome && (afeIn s n i).result.isNone)
  let r0 := going.filterMap (fun i => (afeIn s n i).run)
  let ends := going.filter (fun i => match (afeIn s n i).run with
    | some r => r0.all (fun x => decide (r ≤ x)) && reached s (r + 64000)
    | none => false)
  ends.foldl (fun s i => afeCompute s n i (if i = 0 then pd0 else pd1)) s

/-! ### Waiting commands -/

/-- Every running command that `p` names completes with the results that `r` gives. -/
def finishWhere (s : State) (p : Running → Bool) (st : Status) (r : Running → Nat × Nat × Nat) : State :=
  let rs := s.running.filter p
  rs.foldl (fun s x => completeAs s x.from_ x.dropped x.op st (r x).1 (r x).2.1 (r x).2.2 0)
    { s with running := s.running.filter (fun x => !p x) }

/-- Bit of an input in the mask that AFE_CALIBRATE waits for. -/
def afeKey (n i : Nat) : Nat := 2 * n + i

/-- Commands AFE_CALIBRATE that wait for a run of an input complete with a status (R307). -/
def afeAbort (s : State) (n i : Nat) (st : Status) : State :=
  finishWhere s (fun r => r.op == 0x0402 && (r.aux.getD 0 0).testBit (afeKey n i)) st (fun _ => (0, 0, 0))

/-- A run of an input has reached step 5 (R309): the commands that wait for it note its outcome and complete when it was the
last. -/
def afeDone (s : State) (n i : Nat) (acc short : Bool) : State :=
  let f (r : Running) : Running :=
    if r.op == 0x0402 && (r.aux.getD 0 0).testBit (afeKey n i) then
      let set (k : Nat) (b : Bool) : Nat := if b then natSet (r.aux.getD k 0) n else r.aux.getD k 0
      { r with aux := [natClr (r.aux.getD 0 0) (afeKey n i), set 1 (acc && i == 0), set 2 (acc && i == 1), set 3 short] }
    else r
  finishWhere { s with running := s.running.map f } (fun r => r.op == 0x0402 && r.aux.getD 0 0 == 0) .ok
    (fun r => (r.aux.getD 1 0, r.aux.getD 2 0, r.aux.getD 3 0))

/-! ### New values at a boundary (R302 step 5, R308, R309) -/

/-- Calibration values take effect: VALID is set and CAL_TIME is the time (R308). -/
def afeApply (s : State) (n i offH offL ratio : Nat) : State :=
  let s := setFld (setFld (setFld s (AFE_PD_OFF_H n i) 23 0 offH) (AFE_PD_OFF_L n i) 23 0 offL) (AFE_PD_RATIO n i) 23 0 ratio
  let s := wr64 s (AFE_PD_CAL_TIME_LO n i) (AFE_PD_CAL_TIME_HI n i) (now s)
  setAfeBit (updAfe s n i (fun a => { a with offValid := true })) n i 0 true

/-- Written values, with the calibration temperature of their record. -/
def afeWrite (s : State) (n i : Nat) (v : Nat × Nat × Nat × Nat) : State :=
  setFld (afeApply s n i v.1 v.2.1 v.2.2.1) (AFE_PD_CAL_TEMP n i) 15 0 v.2.2.2

/-- Step 5 of a run of input `i`. -/
def afeStep5 (s : State) (n i : Nat) (r : AfeRes) : State :=
  let a := afeIn s n i
  let s := match a.written with
    | some v => afeWrite s n i v
    | none => afeApply s n i r.offH r.offL r.ratio
  let s := wrN s (AFE_PD_DARK_COUNT n i) 0
  let s := updAfe s n i (fun a => { a with darkH := 0, darkL := 0, run := none, fresh := false, written := none, result := none })
  afeDone (afeShow s n i) n i (r.acc && a.written.isNone) (r.short && a.written.isNone)

/-- A record of a CAL_VALUES_WRITE at its boundary: an input that runs takes it at its step 5 (R307). -/
def afeTakeRec (s : State) (v : List Nat) : State :=
  let n := v.getD 0 0
  let i := v.getD 1 0
  let w := (v.getD 2 0, v.getD 3 0, v.getD 4 0, v.getD 5 0)
  if !domOn s (afeDom n) then s
  else if (afeIn s n i).run.isSome then updAfe s n i (fun a => { a with written := some w })
  else afeWrite s n i w

/-- A list cut into pieces of six. -/
def sixes : Nat → List Nat → List (List Nat)
  | 0, _ => []
  | k + 1, xs => if xs.isEmpty then [] else xs.take 6 :: sixes k (xs.drop 6)

/-- The boundary for the AFE: written records, then the results of runs that have ended. -/
def afeTake (s : State) : State :=
  let ws := s.running.filter (fun r => r.op == 0x0404)
  let s := ws.foldl (fun s r => (sixes 48 r.aux).foldl afeTakeRec s) s
  let s := finishWhere s (fun r => r.op == 0x0404) .ok (fun _ => (0, 0, 0))
  lanes24.foldl (fun s n =>
    let done := [0, 1].filter (fun i => (afeIn s n i).result.isSome)
    if done.isEmpty then s
    else
      let s := done.foldl (fun s i => match (afeIn s n i).result with
        | some r => afeStep5 s n i r
        | none => s) s
      count (satIncF s (AFE_CAL_RUNS n) 15 0) n 124 1) s

/-! ### Domains and COMMIT (R300, R304, R307, R308, R311) -/

/-- AFEq loses its state: runs are abandoned and values lost (R307, R308). The registers are reset by the caller. -/
def afeLose (s : State) (q : Nat) : State :=
  [0, 1, 2, 3].foldl (fun s k =>
    let n := 4 * q + k
    updLane ([0, 1].foldl (fun s i => afeAbort s n i .domainOff) s) n (fun l => { l with afe := [], pdOver := 0 })) s

/-- AFEq is on and out of reset: every enabled input has a power-on run pending. -/
def afeUp (s : State) (q : Nat) : State :=
  [0, 1, 2, 3].foldl (fun s k => [0, 1].foldl (fun s i => if afeEn s (4 * q + k) i then afeWake s (4 * q + k) i else s) s) s

/-- The checks of group AFE. -/
def afeChecks (s n : State) : List (Nat × Bool) :=
  [(0x0701, lanes24.all (fun l => decide (1 ≤ fld n (AFE_CFG l) 31 24) && decide (fld n (AFE_CFG l) 31 24 ≤ 30))),
   (0x0702, lanes24.all (fun l => decide (32768 ≤ fld n (AFE_LIMITS l) 15 0))),
   (0x0703, lanes24.all (fun l => decide (16 ≤ fld n (AFE_LIMITS l) 31 16))),
   (0x0704, lanes24.all (fun l => !laneInLayer s l || [0, 1].all (fun i => !afeEn s l i || afeEn n l i)))]

/-- A commit of group AFE takes effect: an input that is disabled drops its run, one that is enabled starts as from power-on
(R300, R304, R307). -/
def afeCommit (old s : State) : State :=
  lanes24.foldl (fun s n => [0, 1].foldl (fun s i =>
    if afeEn old n i && !afeEn s n i then
      let s := afeAbort s n i .cfgRejected
      let upTo := if (afeIn s n i).run.isSome then now s + 624 else (afeIn s n i).staleTo
      let s := updAfe s n i (fun a => { a with pend := none, power := false, now1 := false, run := none, staleTo := upTo, written := none
                                               result := none })
      afeShow (wrI s (AFE_PD_VALUE n i) 0) n i
    else if !afeEn old n i && afeEn s n i && domOn s (afeDom n) then afeShow (afeWake s n i) n i
    else s) s) s

/-! ### Commands (R309) -/

/-- AFE_SET. -/
def execAfeSet (h : Issue) (n flags calDelta offSettle satCode darkMin : Nat) (s : State) : Host.Outcome State Fault Refusal :=
  whileClocked s fun s =>
  hostCmd s h (.afeSet h n flags calDelta offSettle satCode darkMin) 0x0401 48
    (fun s => [(decide (n < 24), .badParam),
               (decide (flags < 8) && decide (1 ≤ calDelta) && decide (calDelta ≤ 30) && decide (32768 ≤ satCode) && decide (16 ≤ darkMin), .badParam),
               (domOn s (afeDom n), .domainOff)])
    (fun s =>
      let s := setShadow (setShadow s 6 (AFE_CFG n) 31 24 calDelta) 6 (AFE_CFG n) 23 16 offSettle
      let s := setShadow s 6 (AFE_CFG n) 2 0 ((flags / 4 % 2) * 4 + (flags / 2 % 2) * 2 + flags % 2)
      complete (setShadow (setShadow s 6 (AFE_LIMITS n) 15 0 satCode) 6 (AFE_LIMITS n) 31 16 darkMin) h 0x0401 .ok 0 0 0 0)

/-- The inputs that AFE_CALIBRATE names. -/
def afeNamed (lanes inputs : Nat) : List (Nat × Nat) :=
  (bitList lanes 24).flatMap (fun n => (bitList inputs 2).map (fun i => (n, i)))

/-- AFE_CALIBRATE. -/
def execAfeCalibrate (h : Issue) (lanes inputs mode : Nat) (s : State) : Host.Outcome State Fault Refusal :=
  whileClocked s fun s =>
  hostCmd s h (.afeCalibrate h lanes inputs mode) 0x0402 48
    (fun s => [(decide (0 < lanes) && decide (lanes < 2 ^ 24), .badParam), (decide (0 < inputs) && decide (inputs < 4), .badParam),
               (decide (mode < 2), .badParam),
               ((bitList lanes 24).all (fun n => domOn s (afeDom n)), .domainOff),
               ((afeNamed lanes inputs).all (fun p => afeEn s p.1 p.2), .cfgRejected)])
    (fun s =>
      let s := (afeNamed lanes inputs).foldl (fun s p => afePend s p.1 p.2 false (mode == 1)) s
      startRun s h 0x0402 0 [((afeNamed lanes inputs).map (fun p => afeKey p.1 p.2)).foldl natSet 0, 0, 0, 0])

/-- The record of an input (R308); one of an off domain has VALID clear and zero values (R309). -/
def afeRecord (s : State) (n i : Nat) : List Byte :=
  let on := domOn s (afeDom n)
  let z (v : Nat) : Nat := if on then v else 0
  let b := leBytes 1 n ++ leBytes 1 i ++ leBytes 1 (z (b2n (afeBit s n i 0))) ++ zeros 1 ++
    leBytes 4 (z (fld s (AFE_PD_OFF_H n i) 23 0)) ++ leBytes 4 (z (fld s (AFE_PD_OFF_L n i) 23 0)) ++
    leBytes 4 (z (fld s (AFE_PD_RATIO n i) 23 0)) ++ leBytes 2 (z (fld s (AFE_PD_CAL_TEMP n i) 15 0)) ++ zeros 2 ++
    leBytes 8 (z (rd64 s (AFE_PD_CAL_TIME_LO n i) (AFE_PD_CAL_TIME_HI n i)))
  b ++ leBytes 4 (crc32c b)

/-- CAL_VALUES_READ. -/
def execCalValuesRead (h : Issue) (first cnt addr : Nat) (s : State) : Host.Outcome State Fault Refusal :=
  whileClocked s fun s =>
  hostCmd s h (.calValuesRead h first cnt addr) 0x0403 48
    (fun _ => [(decide (first < 24) && decide (1 ≤ cnt) && decide (first + cnt ≤ 24), .badParam), (hostAddrOk h addr 32, .badParam)])
    (fun s =>
      let bs := (List.range cnt).flatMap (fun k => afeRecord s (first + k) 0 ++ afeRecord s (first + k) 1)
      complete (hostResult s addr bs) h 0x0403 .ok (2 * cnt) 0 0 0)

/-- The values of a record, its lane and input first. -/
def afeVals (b : List Byte) : List Nat := [leAt b 0 1, leAt b 1 1, leAt b 4 4, leAt b 8 4, leAt b 12 4, leAt b 16 2]

/-- A record's fields are in range (R308, R309). -/
def afeRecOk (b : List Byte) : Bool :=
  decide (leAt b 0 1 < 24) && decide (leAt b 1 1 < 2) && leAt b 2 1 == 1 && leAt b 3 1 == 0 &&
  decide (leAt b 4 4 ≤ 65535 * 256) && decide (leAt b 8 4 ≤ 65535 * 256) &&
  decide (14 * 65536 ≤ leAt b 12 4) && decide (leAt b 12 4 ≤ 18 * 65536) && leAt b 18 2 == 0

/-- The first record that fails the first pass, with its index (R309). -/
def afePass1 : List (List Byte) → List (Nat × Nat) → Nat → Option (Nat × Status)
  | [], _, _ => none
  | b :: bs, seen, j =>
    let k := (leAt b 0 1, leAt b 1 1)
    if crc32c (b.take 28) ≠ leAt b 28 4 then some (j, .dataCrc)
    else if !afeRecOk b || seen.contains k then some (j, .badParam)
    else afePass1 bs (k :: seen) (j + 1)

/-- CAL_VALUES_WRITE: `block` holds the parameter block from byte 48 on. All its checks are its own. -/
def execCalValuesWrite (h : Issue) (cnt source addr : Nat) (block : List Nat) (s : State) : Host.Outcome State Fault Refusal :=
  whileClocked s fun s =>
  hostCmd s h (.calValuesWrite h cnt source addr block) 0x0404 (if source = 0 then 48 + 32 * satN 48 cnt else 48)
    (fun s => [(decide (1 ≤ cnt) && decide (cnt ≤ 48) && decide (source < 2), .badParam),
               (if source = 0 then addr == 0 && Issue.paramPtr h else addr % 32 == 0 && inHostArea s addr (32 * cnt), .badParam),
               (source == 0 || dramOk s addr (32 * cnt), .cfgRejected)])
    (fun s =>
      let b := if source = 0 then block.map (BitVec.ofNat 8) else dramBytes s addr (32 * cnt)
      let rs := (List.range cnt).map (fun j => (b.drop (32 * j)).take 32)
      match afePass1 rs [] 0 with
      | some (j, st) => complete s h 0x0404 st 0 j 0 0
      | none =>
        match (List.range cnt).find? (fun j => !domOn s (afeDom (leAt (rs.getD j []) 0 1))) with
        | some j => complete s h 0x0404 .domainOff 0 j 0 0
        | none => startRun s h 0x0404 0 (rs.flatMap afeVals))

end Sys2Proof.Machine
end

