-- ==== Sys2Proof/Machine/Camera.lean ====
section
/-!
DEFINITION. Camera ports, contexts, image pipelines and frame statistics (R312 to R333).
-/

namespace Sys2Proof.Machine

/-! ### Contexts and their settings -/

/-- Context `c` beyond its registers. -/
def ctx (s : State) (c : Nat) : Ctx := mget Ctx.reset s.cams c

/-- `s` with `f` applied to context `c`. -/
def updCtx (s : State) (c : Nat) (f : Ctx → Ctx) : State := { s with cams := mset s.cams c (f (ctx s c)) }

/-- The contexts. -/
def ctxs : List Nat := List.range 32

/-- The configuration registers of a context, in the order of CONTEXT_SET's FIELDS, then ISP_CTX_ROUTE. -/
def ctxRegs (c : Nat) : List Nat :=
  [ISP_CTX_CFG c, ISP_CTX_GEOM c, ISP_CTX_APER0 c, ISP_CTX_APER1 c, ISP_CTX_ZONES c, ISP_CTX_TIMING c, ISP_CTX_BUF c, ISP_CTX_ROUTE c]

/-- Bits of those registers that hold fields (R331). -/
def ctxMasks : List Word := [0xFFF8FF1F, 0xFFFFFFFF, 0xFFFFFFFF, 0xFFFFFFFF, 0xFF00FFFF, 0xFF8FFFFF, 0x1FFF, 0xFFC7]

/-- The settings in force, and those in the shadows, as eight words. -/
def ctxLive (s : State) (c : Nat) : List Word := (ctxRegs c).map (rd s)
def ctxShadow (s : State) (c : Nat) : List Word := (ctxRegs c).map (shadowOf s)

/-- A field of settings. -/
def csFieldOf (ws : List Word) (k hi lo : Nat) : Nat := bitsOf (ws.getD k 0) hi lo
def csEn (ws : List Word) : Bool := csFieldOf ws 0 31 31 == 1
def csBack (ws : List Word) : Bool := csFieldOf ws 0 29 29 == 1
def csPriority (ws : List Word) : Nat := csFieldOf ws 0 28 26
def csPipe (ws : List Word) : Nat := csFieldOf ws 0 30 30
def csPort (ws : List Word) : Nat := csFieldOf ws 0 25 23
def csVc (ws : List Word) : Nat := csFieldOf ws 0 22 19
def csDt (ws : List Word) : Nat := csFieldOf ws 0 15 8
def csHeight (ws : List Word) : Nat := csFieldOf ws 1 31 16
def csWidth (ws : List Word) : Nat := csFieldOf ws 1 15 0
def csY0 (ws : List Word) : Nat := csFieldOf ws 2 31 16
def csX0 (ws : List Word) : Nat := csFieldOf ws 2 15 0
def csAh (ws : List Word) : Nat := csFieldOf ws 3 31 16
def csAw (ws : List Word) : Nat := csFieldOf ws 3 15 0
def csZy (ws : List Word) : Nat := csFieldOf ws 4 31 28 + 1
def csZx (ws : List Word) : Nat := csFieldOf ws 4 27 24 + 1
def csThresh (ws : List Word) : Nat := csFieldOf ws 4 15 0
def csKlat (ws : List Word) : Nat := csFieldOf ws 5 31 30
def csPosOff (ws : List Word) : Nat := csFieldOf ws 5 29 23
def csTimeout (ws : List Word) : Nat := csFieldOf ws 5 19 0
def csInbuf (ws : List Word) : Nat := csFieldOf ws 6 12 0
def csLane (ws : List Word) : Nat := csFieldOf ws 7 15 8
def csMetric (ws : List Word) : Nat := csFieldOf ws 7 7 6
def csRoutes (ws : List Word) : Nat := csFieldOf ws 7 2 0

/-- The data type is user-defined: two bands (R312, R315). -/
def dualType (dt : Nat) : Bool := decide (0x30 ≤ dt) && decide (dt ≤ 0x37)

/-- Sample width in bits: the RAW type's own, else BITS (R315). -/
def csBitsOf (ws : List Word) : Nat :=
  match csDt ws with
  | 0x2B => 10
  | 0x2C => 12
  | 0x2D => 14
  | 0x2E => 16
  | _ => csFieldOf ws 0 4 0

/-- Bytes of `w` pixels (R315). -/
def pixelBytes (ws : List Word) (w : Nat) : Nat := cdiv ((if dualType (csDt ws) then 2 else 1) * w * csBitsOf ws) 8

/-- The pipeline that serves frames with these settings from their Frame Start on (R314). -/
def pipeFor (s : State) (ws : List Word) : Nat :=
  let p := csPipe ws
  if domOn s (8 + p) then p else if domOn s (8 + (1 - p)) then 1 - p else p

/-- Image pipeline `p`. -/
def pipe (s : State) (p : Nat) : Pipe := mget Pipe.reset s.pipes p

/-- `s` with `f` applied to pipeline `p`. -/
def updPipe (s : State) (p : Nat) (f : Pipe → Pipe) : State := { s with pipes := mset s.pipes p (f (pipe s p)) }

/-- Pool use and the contexts that each pipeline serves, in their registers (R331). -/
def camShow (s : State) : State :=
  let en := ctxs.filter (fun c => flag s (ISP_CTX_CFG c) 31)
  let s := setFld s ISP_POOL_USED 12 0 (sumN (en.map (fun c => fld s (ISP_CTX_BUF c) 12 0)))
  [0, 1].foldl (fun s p =>
    let m := (en.filter (fun c => fld s (ISP_CTX_STS2 c) 4 4 == p)).foldl natSet 0
    setFld (setFld s (ISP_PIPE_STS p) 31 16 (m % 65536)) (ISP_PIPE_CTX_HI p) 15 0 (m / 65536)) s

/-! ### Checks of a commit (R333) -/

/-- The data types of R312. -/
def dtKnown (dt : Nat) : Bool := (decide (0x2B ≤ dt) && decide (dt ≤ 0x2E)) || dualType dt

/-- The settings under which context `k` is enabled: those in force, and those of a captured commit (R314, R328: no two enabled contexts
share a binding or a lane's L1 input, whichever commit takes effect first). -/
def enabledSets (s : State) (k : Nat) : List (List Word) :=
  let next := match (ctx s k).commit with
    | some (_, ws) => [ws]
    | none => []
  (ctxLive s k :: next).filter csEn

/-- The checks of a commit of context `c` with settings `ws`, in order. -/
def ctxChecks (s : State) (c : Nat) (ws : List Word) : List (Nat × Bool) :=
  let others := (ctxs.filter (· != c)).map (enabledSets s)
  let bits := csFieldOf ws 0 4 0
  [(0x1101, decide (csPort ws ≤ 5) && dtKnown (csDt ws) && (!dualType (csDt ws) || bits == 10 || bits == 12 || bits == 14 || bits == 16)),
   (0x1102, decide (1 ≤ csWidth ws) && decide (csWidth ws ≤ 8192) && decide (1 ≤ csHeight ws) && decide (csHeight ws ≤ 8192) &&
     decide (csX0 ws + csAw ws ≤ csWidth ws) && decide (csY0 ws + csAh ws ≤ csHeight ws) && decide (1 ≤ csAw ws) && decide (1 ≤ csAh ws)),
   (0x1103, decide (csZx ws ≤ csAw ws) && decide (csZy ws ≤ csAh ws)),
   (0x1104, others.all (fun xs => xs.all (fun x => !(csPort x == csPort ws && csVc x == csVc ws && csDt x == csDt ws)))),
   (0x1105, decide (2 * pixelBytes ws (csAw ws) ≤ csInbuf ws * 1024) &&
     decide (sumN (others.map (fun xs => (xs.map csInbuf).foldl max 0)) + (if csEn ws then csInbuf ws else 0) ≤ 4096)),
   (0x1106, (!(csRoutes ws).testBit 0 || others.all (fun xs => xs.all (fun x => !((csRoutes x).testBit 0 && csLane x == csLane ws)))) &&
     (csRoutes ws == 0 || decide (csLane ws < 24))),
   (0x1107, decide (csPosOff ws ≤ 100) && decide (10 ≤ csTimeout ws) && decide (csTimeout ws ≤ 1000000)),
   (0x1108, domOn s (2 + csPort ws) && (domOn s 8 || domOn s 9))]

/-! ### A commit takes effect (R324, R325) -/

/-- The command of the pending commit of context `c` completes. -/
def finishCommit (s : State) (c first pred gen : Nat) : State :=
  let st := if (ctx s c).overdue then Status.timeout else Status.ok
  finishRun (finishRun s 0x0406 c st first pred gen 0) 0x0407 c st first pred gen 0

/-- The first frame with new sensor settings as RESULT1 gives it: 0 without writes, the known or the predicted frame, and where the
writes failed a free value. `base` is the frame whose Frame End writes that wait for one will follow, `cur` the last frame started. -/
def predicted (s : State) (c gen nw base cur : Nat) : Nat :=
  if nw = 0 then 0
  else
    match (ctx s c).writes.find? (fun b => b.gen == gen) with
    | some b =>
      let f := b.base.getD base
      b.first.getD (f + 1 + fld s (ISP_CTX_TIMING c) 31 30 + b2n (decide (f < cur) && b.base.isSome))
    | none => (Config.freeWord s.freeCtr).toNat

/-- Sensor writes that the running commit command of context `c` carries. -/
def commitWrites (s : State) (c : Nat) : Nat :=
  match s.running.find? (fun r => (r.op == 0x0406 || r.op == 0x0407) && r.key == c) with
  | some r => r.aux.getD 0 0
  | none => 0

/-- The pending commit of context `c` takes effect; `base` and `cur` as in `predicted`. -/
def applyCommit (s : State) (c base cur : Nat) : State :=
  match (ctx s c).commit with
  | none => s
  | some (gen, ws) =>
    let was := flag s (ISP_CTX_CFG c) 31
    let nw := commitWrites s c
    let s := ((ctxRegs c).zip ws).foldl (fun s p => wr s p.1 p.2) s
    let s := setFlag (setFld s (ISP_CTX_STS c) 15 0 gen) (ISP_CTX_STS2 c) 3 false
    let s := updCtx s c (fun x => { x with commit := none, writes := x.writes.map (fun b => if b.gen == gen then { b with applied := true } else b) })
    let now1 := csEn ws
    let s := if now1 && !was then
               updCtx (wrN s (ISP_CTX_FRAME c) 0) c (fun x =>
                 { x with lastEnd := 0, watch := if domOn s (2 + csPort ws) then some (now s) else none })
             else s
    let s := camShow (setFld s (ISP_CTX_STS2 c) 4 4 (pipeFor s ws))
    let first := if now1 then rdN s (ISP_CTX_FRAME c) + 1 else (Config.freeWord s.freeCtr).toNat
    let s := finishCommit s c first (predicted s c gen nw base cur) gen
    updCtx (tick1 s) c (fun x => { x with overdue := false })

/-- LOAD of pipeline `p` at a boundary: the clock cycles spent on lines of the last 1 ms, in 1/256 of its 800,000 cycles, at most 255
(R331). -/
def pipeLoadShow (s : State) (p : Nat) : State :=
  if (pipe s p).spent.isEmpty then s
  else
    let s := updPipe s p (fun x => { x with spent := x.spent.filter (fun e => decide (now s < e.1 + 1000000)) })
    setFld s (ISP_PIPE_STS p) 7 0 (satN 255 (sumN ((pipe s p).spent.map (·.2)) * 256 / 800000))

/-- Commits to disabled contexts take effect at a tick boundary (R324), and the pipelines' loads are shown. -/
def camTake (s : State) : State :=
  ctxs.foldl (fun s c => if (ctx s c).commit.isSome && !flag s (ISP_CTX_CFG c) 31 then applyCommit s c 0 0 else s) (pipeLoadShow (pipeLoadShow s 0) 1)

/-! ### Frames (R316, R319, R321, R323) -/

/-- The frame in progress of context `c`: the last one, while it has no Frame End and is not truncated. -/
def frameOpen (f : CamFrame) : Bool := f.feTime.isNone && f.cause == 0

/-- `s` with `f` applied to the last frame of context `c`. -/
def updLast (s : State) (c : Nat) (f : CamFrame → CamFrame) : State :=
  updCtx s c (fun x => match x.frames.reverse with
    | y :: ys => { x with frames := (f y :: ys).reverse }
    | [] => x)

/-- The last frame of context `c`, if it is in progress. -/
def openFrame (s : State) (c : Nat) : Option CamFrame :=
  match (ctx s c).frames.getLast? with
  | some f => if frameOpen f then some f else none
  | none => none

/-- A context with no complete line buffered has no credit (R317). -/
def Ctx.spend (x : Ctx) : Ctx := if x.frames.all (·.buf.isEmpty) then { x with credit := 0 } else x

/-- The frame in progress of context `c` is truncated (R321). -/
def truncate (s : State) (c cause : Nat) : State :=
  match openFrame s c with
  | some _ => updCtx (updLast (satIncF s (ISP_CTX_COUNTS c) 11 0) c (fun f => { f with cause := cause, buf := [] })) c Ctx.spend
  | none => s

/-- Enabled contexts bound to a port and virtual channel. -/
def boundVc (s : State) (port vc : Nat) : List Nat :=
  ctxs.filter (fun c => flag s (ISP_CTX_CFG c) 31 && fld s (ISP_CTX_CFG c) 25 23 == port && fld s (ISP_CTX_CFG c) 22 19 == vc)

/-- Contexts whose frame in progress has come over a port and virtual channel: it keeps its settings to its end (R324). -/
def openVc (s : State) (port vc : Nat) : List Nat :=
  ctxs.filter (fun c => (openFrame s c).any (fun f => csPort f.set == port && csVc f.set == vc))

/-- Contexts that take the frame packets of a port and virtual channel. -/
def framesVc (s : State) (port vc : Nat) : List Nat :=
  let cs := openVc s port vc
  cs ++ (boundVc s port vc).filter (fun c => !cs.contains c)

/-- The lines of the PHY after a packet, as `CAM_STS` shows them: `phy` bits 3:0 are data lanes in high-speed sync, of those in use, and bit 4
is the clock lane in high-speed mode (R330). -/
def phyShow (s : State) (port phy : Nat) : State :=
  setFlag (setFld s (CAM_STS port) 7 4 (phy % 2 ^ (fld s (CAM_CFG port) 1 0 + 1))) (CAM_STS port) 0 (phy.testBit 4)

/-- The time of an event `ns` after the last boundary, which lies in the tick that began there; 2 ns resolution (R320). -/
def eventNs (s : State) (ns : Nat) : Nat := (now s + min ns (tickNs s - 1)) / 2 * 2

/-- A corrected header counts (R312). -/
def hdrCount (s : State) (port : Nat) (corrected : Bool) : State := if corrected then satInc s (CAM_HDR_CORR port) else s

/-- SENSOR_GEN at frame `n` (R325): batches whose first frame has come take effect. -/
def senGen (s : State) (c n : Nat) : State :=
  let due := (ctx s c).writes.filter (fun b => match b.first with
    | some f => decide (f ≤ n)
    | none => false)
  let s := due.foldl (fun s b => setFld s (ISP_CTX_STS c) 31 16 b.gen) s
  updCtx s c (fun x => { x with writes := x.writes.filter (fun b => match b.first with
    | some f => decide (n < f)
    | none => true) })

/-- The next frame of context `c` begins at `at_` ns. -/
def newFrame (s : State) (c csi at_ : Nat) : State :=
  let s := bump s (ISP_CTX_FRAME c)
  let n := rdN s (ISP_CTX_FRAME c)
  let s := senGen s c n
  let ws := ctxLive s c
  let p := pipeFor s ws
  let trans := (ctx s c).writes.any (·.applied)
  let late := flag s (ISP_CTX_STS2 c) 0
  let f : CamFrame :=
    ⟨n, fld s (ISP_CTX_STS c) 15 0, fld s (ISP_CTX_STS c) 31 16, trans, late, flag s (ISP_CTX_STS2 c) 2, csi, at_, none, 0, 0,
     p, ws, [], []⟩
  let s := setFlag (setFlag (setFld s (ISP_CTX_STS2 c) 4 4 p) (ISP_CTX_STS2 c) 1 trans) (ISP_CTX_STS2 c) 0 false
  camShow (updCtx s c (fun x => { x with frames := x.frames ++ [f], watch := some at_ }))

/-- FRAME_START (R321, R324): a frame in progress there ends truncated, and each enabled context bound to the port and virtual channel
begins its next. A pending commit is applied first, and a context that it disables or binds elsewhere takes no frame. `ns` is the time
since the last boundary. -/
def execFrameStart (port vc csi : Nat) (corrected : Bool) (phy ns : Nat) (s : State) : Host.Outcome State Fault Refusal :=
  whileClocked s fun s =>
    if !domOn s (2 + port) then s
    else
      let s := hdrCount (phyShow s port phy) port corrected
      let cs := framesVc s port vc
      if cs.isEmpty then satInc s (CAM_IGNORED port)
      else cs.foldl (fun s c =>
        let here := (boundVc s port vc).contains c
        let s := truncate s c 6
        let n := rdN s (ISP_CTX_FRAME c) + 1
        let s := if here then applyCommit s c n n else s
        if (boundVc s port vc).contains c then newFrame s c csi (eventNs s ns) else s) s

/-- Samples of `bits` bits from a bit stream that fills each byte from bit 0 (R315). -/
def unpack (bits : Nat) (n : Nat) (bytes : List Nat) : List Nat :=
  let v := leNat (bytes.map (BitVec.ofNat 8))
  (List.range n).map (fun i => v >>> (bits * i) % 2 ^ bits)

/-- The pixels of a packet's data: samples for a RAW type, bytes for a user-defined one (R315). -/
def pixelsOf (ws : List Word) (data : List Nat) : List (Nat × Nat) :=
  if dualType (csDt ws) then
    let xs := unpack (csBitsOf ws) (2 * csWidth ws) data
    (List.range (csWidth ws)).map (fun i => (xs.getD (2 * i) 0, xs.getD (2 * i + 1) 0))
  else data.map (fun a => (a % 2 ^ csBitsOf ws, 0))

/-- The packet has the length of a line (R315). -/
def lineLength (ws : List Word) (data : List Nat) : Bool :=
  data.length == (if dualType (csDt ws) then pixelBytes ws (csWidth ws) else csWidth ws)

/-- Bytes in the input buffer of context `c`. -/
def bufUsed (s : State) (c : Nat) : Nat :=
  sumN ((ctx s c).frames.map (fun f => f.buf.length * pixelBytes f.set (csAw f.set)))

/-- A line of the frame in progress of context `c` (R316, R319, R321). -/
def lineIn (s : State) (c : Nat) (f : CamFrame) (data : List Nat) : State :=
  let ws := f.set
  if !lineLength ws data then truncate s c 3
  else if csHeight ws ≤ f.lines then truncate s c 5
  else if f.lines < csY0 ws || csY0 ws + csAh ws ≤ f.lines then updLast s c (fun f => { f with lines := f.lines + 1 })
  else if csInbuf ws * 1024 < bufUsed s c + pixelBytes ws (csAw ws) then truncate s c 4
  else
    let row := ((pixelsOf ws data).drop (csX0 ws)).take (csAw ws)
    updLast s c (fun f => { f with lines := f.lines + 1, buf := f.buf ++ [row] })

/-- LONG_PACKET (R312, R316, R319, R321): `hdr` is 0 for a good header, 1 for a corrected and 2 for an uncorrectable one; `data` holds
the samples of a RAW type and the bytes of a user-defined type. -/
def execLongPacket (port vc dt hdr : Nat) (crcOk : Bool) (data : List Nat) (phy : Nat) (s : State) : Host.Outcome State Fault Refusal :=
  whileClocked s fun s =>
    let s := if domOn s (2 + port) then phyShow s port phy else s
    if !domOn s (2 + port) then s
    else if 2 ≤ hdr then
      ctxs.foldl (fun s c => match openFrame s c with
        | some f => if csPort f.set = port then truncate s c 1 else s
        | none => s) (satInc s (CAM_HDR_UNCORR port))
    else
      let s := hdrCount s port (hdr == 1)
      let s := if crcOk then s else satInc s (CAM_CRC_ERR port)
      match (openVc s port vc).find? (fun c => (openFrame s c).any (fun f => csDt f.set == dt)) with
      | some c =>
        match openFrame s c with
        | none => s
        | some f => if !crcOk then truncate s c 2 else lineIn s c f data
      | none => if (boundVc s port vc).any (fun c => fld s (ISP_CTX_CFG c) 15 8 == dt) then s else satInc s (CAM_IGNORED port)

/-- A Frame End for context `c`: the writes that waited for one may be sent (R325). -/
def frameEnded (s : State) (c : Nat) : State :=
  let n := rdN s (ISP_CTX_FRAME c)
  updCtx s c (fun x => { x with lastEnd := n, writes := x.writes.map (fun b => { b with base := some (b.base.getD n) }) })

/-- FRAME_END (R321, R323), `ns` after the last boundary. -/
def execFrameEnd (port vc : Nat) (corrected : Bool) (phy ns : Nat) (s : State) : Host.Outcome State Fault Refusal :=
  whileClocked s fun s =>
    if !domOn s (2 + port) then s
    else
      let s := hdrCount (phyShow s port phy) port corrected
      let cs := framesVc s port vc
      if cs.isEmpty then satInc s (CAM_IGNORED port)
      else cs.foldl (fun s c =>
        let s := match openFrame s c with
          | some f =>
            let s := if f.lines = csHeight f.set then s else truncate s c 5
            updLast s c (fun f => { f with feTime := some (eventNs s ns) })
          | none => s
        frameEnded s c) s

/-! ### Pipelines (R317, R318) -/

/-- A clock cycle of a pipeline, 1/800 MHz, in fs. -/
def pipeClk : Nat := 1250000

/-- The throttle level leaves a pipeline one clock cycle in this many for background contexts (R111, R318). -/
def backShare (s : State) : Nat := 2 ^ fld s THM_STS 5 4

/-- The frame of context `c` with its next line. -/
def lineOf (s : State) (c : Nat) : Option CamFrame := (ctx s c).frames.find? (fun f => !f.buf.isEmpty)

/-- Context `c` has a complete line buffered for pipeline `p`, which throttling does not hold back. -/
def hasLine (s : State) (p c : Nat) : Bool :=
  match lineOf s c with
  | some f => f.pipe == p && (!csBack f.set || backShare s == 1 || decide ((pipe s p).backTo < nowFs s + tickFs s))
  | none => false

/-- Pixels of the next line of context `c`. -/
def lineCost (s : State) (c : Nat) : Nat := ((lineOf s c).map (fun f => csAw f.set)).getD 0

/-- Pipeline `p` spends its clock cycles on a line of settings `ws`, 2 pixels in each. -/
def pipeSpend (s : State) (p : Nat) (ws : List Word) : State :=
  let k := cdiv (csAw ws) 2
  let t := nowFs s
  updPipe s p (fun x => { x with busyTo := max x.busyTo t + k * pipeClk
                                 backTo := if csBack ws then max x.backTo t + k * pipeClk * backShare s else x.backTo
                                 spent := (now s, k) :: x.spent })

/-- The next line of context `c` passes from its buffer through pipeline `p`. -/
def serveLine (s : State) (p c : Nat) : State :=
  let rec go : List CamFrame → List CamFrame
    | [] => []
    | f :: fs =>
      match f.buf with
      | [] => f :: go fs
      | r :: rs => { f with buf := rs, rows := f.rows ++ [r] } :: fs
  let cost := lineCost s c
  let s := match lineOf s c with
    | some f => pipeSpend s p f.set
    | none => s
  updCtx s c (fun x => Ctx.spend { x with frames := go x.frames, credit := x.credit - cost })

/-- Deficit round robin: the context whose turn it is is served while its credit covers its next line; then the turn passes on, and a
context with a line gains its credit on its turn, by the PRIORITY of that line's frame. -/
def drr (p : Nat) : Nat → State → Nat → State
  | 0, s, _ => s
  | k + 1, s, c =>
    if hasLine s p c && decide (lineCost s c ≤ (ctx s c).credit) then
      serveLine (updPipe s p (fun x => { x with turn := c })) p c
    else
      let d := (c + 1) % 32
      let gain := 256 * 2 ^ ((lineOf s d).map (fun f => csPriority f.set)).getD 0
      drr p k (if hasLine s p d then updCtx s d (fun x => { x with credit := x.credit + gain }) else s) d

/-- PIPELINE_LINE (R317): nothing happens while no context has a line for the pipeline, or while the lines it has taken last to the next
boundary. -/
def execPipelineLine (p : Nat) (s : State) : Host.Outcome State Fault Refusal :=
  whileClocked s fun s =>
  if domOn s (8 + p) && ctxs.any (hasLine s p) && decide ((pipe s p).busyTo < nowFs s + tickFs s) then drr p 1152 s (pipe s p).turn else s

/-! ### Statistics (R320) -/

/-- Pixels of processed lines with their coordinates: x, y, band A, band B. -/
def pixels (rows : List (List (Nat × Nat))) : List (Nat × Nat × Nat × Nat) :=
  rows.zipIdx.flatMap (fun r => r.1.zipIdx.map (fun p => (p.2, r.2, p.1.1, p.1.2)))

/-- The two-colour ratio. -/
def camRatio (dual : Bool) (a b : Nat) : Nat :=
  if !dual || b = 0 then 65535 else satN 65534 (rdiv ((a * 16384 : Nat) : Int) b).toNat

/-- Counts of angles from `(c, t)` (cosine and sine in 10^−40) in steps of an eighth of a degree that are at most the angle of the
direction with cosine `x` over the square root of `sq`. -/
def eighths (x : Int) (sq : Nat) : Nat → Int → Int → Nat → Nat
  | 0, _, _, n => n
  | k + 1, c, t, n =>
    if sqSign x * 10 ^ 80 ≤ sqSign c * sq then
      eighths x sq k ((c * 9999976201773518429108820073789340125869 - t * 21816598343367697327399764440179588279) / 10 ^ 40)
        ((t * 9999976201773518429108820073789340125869 + c * 21816598343367697327399764440179588279) / 10 ^ 40) (n + 1)
    else n

/-- `round(16 · degrees(atan2(y, x) / 2))`; where both are 0 the spec states no angle: a free value in range. -/
def halfAngle (c : Nat) (y x : Int) : Int :=
  if y = 0 && x = 0 then clampI (-1440) 1440 (Config.freeInt c)
  else
    let n : Int := eighths x (x * x + y * y).toNat 1440 9999994050441609745025252350127419937642 10908305661643995933687850596468731039 0
    if y < 0 then -n else n

/-- `round(64 · sqrt(lam))` for the eigenvalue `lam = (S ± sqrt D) / (2 N²)`: the largest `m` with `(m − 1/2)² ≤ 4096 lam`. -/
def axisLen (n2 : Nat) (s d : Int) (plus : Bool) : Nat :=
  let le (m : Nat) : Bool :=
    let v : Int := ((2 * m - 1) * (2 * m - 1) * n2 : Nat) - 8192 * s
    -- v ≤ ± 8192 sqrt d
    if plus then decide (v ≤ 0) || decide (v * v ≤ 8192 * 8192 * d) else decide (v ≤ 0) && decide (8192 * 8192 * d ≤ v * v)
  let rec go : Nat → Nat → Nat → Nat
    | 0, lo, _ => lo
    | k + 1, lo, hi =>
      if hi ≤ lo then lo
      else
        let m := (lo + hi + 1) / 2
        if le m then go k m hi else go k lo (m - 1)
  go 24 0 1048575

/-- A number that a field of `k` bits holds; one that does not fit is a free value there. -/
def fitsOr (c k v : Nat) : Nat := if v < 2 ^ k then v else Config.freeNat c % 2 ^ k

/-- The blob fields, bytes 64 to 89 of the record, from its pixels; `c` numbers the free values. A centroid between two sixteenths is
one of the two. -/
def blobBytes (c : Nat) (dual : Bool) (px : List (Nat × Nat × Nat × Nat)) (thresh : Nat) : List Byte :=
  let b := px.filter (fun p => decide (thresh ≤ p.2.2.1))
  let n := b.length
  if n = 0 then zeros 26
  else
    let sum (f : Nat × Nat × Nat × Nat → Nat) : Nat := sumN (b.map f)
    let sx := sum (fun p => p.1)
    let sy := sum (fun p => p.2.1)
    let xx : Int := (n * sum (fun p => p.1 * p.1) : Nat) - (sx * sx : Nat)
    let yy : Int := (n * sum (fun p => p.2.1 * p.2.1) : Nat) - (sy * sy : Nat)
    let xy : Int := (n * sum (fun p => p.1 * p.2.1) : Nat) - (sx * sy : Nat)
    let a := sum (fun p => p.2.2.1)
    let bb := sum (fun p => p.2.2.2)
    let cen (k v : Nat) : Nat := 16 * v / n + (if 16 * v % n = 0 then 0 else b2n (Config.freeBit (c + k)))
    let d := (xx - yy) * (xx - yy) + 4 * xy * xy
    leBytes 4 n ++ leBytes 4 (cen 0 sx) ++ leBytes 4 (cen 1 sy) ++
    leBytes 2 (fitsOr (c + 2) 16 (axisLen (n * n) (xx + yy) d true)) ++ leBytes 2 (fitsOr (c + 3) 16 (axisLen (n * n) (xx + yy) d false)) ++
    leBytes 2 (unsgn 16 (halfAngle (c + 4) (2 * xy) (xx - yy))) ++
    leBytes 2 (px.foldl (fun m p => if m < p.2.2.1 then p.2.2.1 else m) 0) ++
    leBytes 2 (a / n) ++ leBytes 2 (if dual then bb / n else 0) ++ leBytes 2 (camRatio dual a bb)

/-- A histogram: 256 bins of 4 bytes, saturating. -/
def histBytes (bits : Nat) (xs : List Nat) : List Byte :=
  (List.range 256).flatMap (fun k => leBytes 4 (satN (2 ^ 32 - 1) ((xs.filter (fun v => v >>> (bits - 8) == k)).length)))

/-- The zones: means and ratio of each (R316, R320). -/
def zoneBytes (ws : List Word) (dual : Bool) (px : List (Nat × Nat × Nat × Nat)) : List Byte :=
  padTo 1536 ((List.range (csZy ws)).flatMap (fun j => (List.range (csZx ws)).flatMap (fun i =>
    let x0 := i * csAw ws / csZx ws
    let x1 := (i + 1) * csAw ws / csZx ws
    let y0 := j * csAh ws / csZy ws
    let y1 := (j + 1) * csAh ws / csZy ws
    let z := px.filter (fun p => decide (x0 ≤ p.1) && decide (p.1 < x1) && decide (y0 ≤ p.2.1) && decide (p.2.1 < y1))
    let a := sumN (z.map (fun p => p.2.2.1))
    let b := sumN (z.map (fun p => p.2.2.2))
    leBytes 2 (a / z.length) ++ leBytes 2 (if dual then b / z.length else 0) ++ leBytes 2 (camRatio dual a b))))

/-- The statistics of a frame: bytes 64 to 4,091 of its record. A truncated frame's have no stated values (R321). -/
def statsBytes (c : Nat) (f : CamFrame) : List Byte :=
  if f.cause ≠ 0 then (List.range 4028).map (fun i => Config.freeByte (c * 4096 + i))
  else
    let dual := dualType (csDt f.set)
    let px := pixels f.rows
    let bits := csBitsOf f.set
    padTo 4028 (blobBytes c dual px (csThresh f.set) ++ zeros 6 ++ histBytes bits (px.map (fun p => p.2.2.1)) ++
      (if dual then histBytes bits (px.map (fun p => p.2.2.2)) else zeros 1024) ++ zoneBytes f.set dual px)

/-! ### The record (R320, R323, R327) -/

/-- What lane `n` does at the present boundary, whose tick is not done. -/
def pastNow (s : State) (n : Nat) : PastTick :=
  ⟨now s, roundPlu (lane s n).px, roundPlu (lane s n).py, laneVid s n, gateAtNow s n, 0, 0, false, 0⟩

/-- The boundary held for lane `n` nearest to a time in ns, the present one among them, and whether the time lies before the oldest one
held. Halfway between two, one of them is a free choice. -/
def pastAt (s : State) (n : Nat) (t : Int) : Option PastTick × Bool :=
  let d (p : PastTick) : Nat := ((p.time : Int) - t).natAbs
  let best := (pastNow s n :: (lane s n).past).foldl (fun (m : Option PastTick) p => match m with
    | none => some p
    | some q => if d p < d q || (d p == d q && Config.freeBit s.freeCtr) then some p else some q) none
  let clipped := match (lane s n).past.getLast? with
    | some p => decide (2 * t + tickNs s < 2 * (p.time : Int)) && decide ((lane s n).past.length = 256)
    | none => false
  (best, clipped)

/-- STATUS of a record. -/
def camStatus (f : CamFrame) (marking : Bool) : Nat :=
  b2n (f.cause == 0) + 2 * b2n f.trans + 4 * b2n (f.cause != 0) + 8 * b2n f.late + 16 * b2n f.unsure + 32 * b2n marking +
  64 * b2n (dualType (csDt f.set))

/-- The value of L1_METRIC in the statistics. -/
def camMetric (m : Nat) (st : List Byte) : Nat :=
  match m with
  | 0 => leAt st 0 4
  | 1 => leAt st 20 2
  | 2 => leAt st 24 2
  | _ => leAt st 18 2

/-- The frame's record is written to its slot, and joins those that await delivery when it is routed. -/
def putRecord (s : State) (c : Nat) (f : CamFrame) : State :=
  let n := csLane f.set
  let routed := decide (n < 24)
  let (p, clip) := if routed then pastAt s n ((f.fsTime : Int) - csPosOff f.set * 1000) else (none, false)
  let s := if clip && !(ctx s c).clipped then event (updCtx s c (fun x => { x with clipped := true })) (srcCtx c) 0x1403 [] else s
  let x : Int := match p with
    | some q => q.x
    | none => if routed then roundPlu (lane s n).px else (Config.freeWord s.freeCtr).toInt
  let y : Int := match p with
    | some q => q.y
    | none => if routed then roundPlu (lane s n).py else (Config.freeWord (s.freeCtr + 1)).toInt
  let vid := match p with
    | some q => q.vid
    | none => if routed then laneVid s n else 0
  let mark := match p with
    | some q => q.gate
    | none => routed && gateOf s n
  let st := camStatus f mark
  let stats := statsBytes s.freeCtr f
  let b := leBytes 4 f.frame ++ leBytes 2 f.gen ++ leBytes 2 f.senGen ++ leBytes 1 st ++ leBytes 1 f.cause ++ leBytes 1 c ++
    leBytes 1 (if routed then n else 0xFF) ++ leBytes 8 f.fsTime ++ leBytes 8 (f.feTime.getD 0) ++ leBytes 4 (unsgn 32 x) ++
    leBytes 4 (unsgn 32 y) ++ leBytes 4 vid ++ leBytes 2 f.rows.length ++ leBytes 2 f.csi ++ zeros 20 ++ stats
  let s := putSram s (0x1500000 + c * 0x4000 + f.frame % 4 * 0x1000) (b ++ leBytes 4 (crc32c b))
  let r : CamRec := ⟨st, if routed then n else 0xFF, csRoutes f.set, camMetric (csMetric f.set) stats, f.frame, leAt stats 0 4, leAt stats 24 2,
    f.gen, x, y, p, now s⟩
  let s := (List.range 8).foldl (fun s _ => tick1 s) s
  if routed && csRoutes f.set ≠ 0 then updCtx s c (fun x => { x with out := x.out ++ [r] }) else s

/-- A frame whose record can be written: truncated, or ended with every aperture line processed. -/
def frameReady (f : CamFrame) : Bool := f.cause != 0 || (f.feTime.isSome && f.buf.isEmpty)

/-- The boundary nearest to the time that a record is sampled at has come (R327). -/
def sampled (s : State) (f : CamFrame) : Bool :=
  decide (24 ≤ csLane f.set) || decide (2 * ((f.fsTime : Int) - csPosOff f.set * 1000) < 2 * (now s : Int) + tickNs s)

/-- STATS_RECORD_READY (R323): the oldest frame of context `c`, when it is ready. -/
def execStatsRecordReady (c : Nat) (s : State) : Host.Outcome State Fault Refusal :=
  whileClocked s fun s =>
    match (ctx s c).frames with
    | f :: fs => if frameReady f && sampled s f then putRecord (updCtx s c (fun x => { x with frames := fs })) c f else s
    | [] => s

/-! ### Delivery (R326, R328, R335, R369, R512) -/

/-- A record that L1 and the burn map use: VALID, and neither TRANSITION, LATE nor SENSOR_UNSURE (R326). -/
def recUsable (st : Nat) : Bool := st % 2 == 1 && st / 2 % 2 == 0 && st / 8 % 4 == 0

/-- A record or a LATE indication given to L1 of lane `n` (R335); one that is not usable counts as a held frame. The check of PD0 is
made at the boundary (`l1Check`). -/
def toL1 (s : State) (n : Nat) (usable : Bool) (v : Nat) : State :=
  let s := updLane s n (fun l => { l with l1In := some (usable, v) })
  if usable then s else count s n 88 1

/-- The check of PD0 on what L1 was given, at the delivery boundary (R335). -/
def l1Check (s : State) (n : Nat) : State :=
  match (lane s n).l1In with
  | some (true, y) =>
    let pd := !staleNow s n 0 && decide (rdI s (LOOP_L1_PDMIN n) ≤ rdI s (AFE_PD_VALUE n 0))
    if flag s (LOOP_CFG n) 8 && !pd then count (updLane s n (fun l => { l with l1In := some (false, y) })) n 88 1 else s
  | _ => s

/-- The boundary that a record was sampled at, with what the tick that followed it has shown. -/
def pastOf (s : State) (r : CamRec) : Option PastTick :=
  r.past.map (fun p => ((lane s r.lane).past.find? (fun q => q.time == p.time)).getD p)

/-- The camera sample of a record (R369). -/
def camBurn (s : State) (r : CamRec) : State :=
  match pastOf s r with
  | some p =>
    let sp := sgn 32 ((recipeOf s p.recipe).setpoints.getD 1 0)
    if recUsable r.status && r.status.testBit 5 && p.ok && decide (0 < sp) then
      gather s (engineOf s r.lane) r.x r.y true (burnSample r.metric sp.toNat p.pb p.pa)
    else s
  | none => s

/-- STATS_DELIVERY (R328): the oldest record of context `c` that waits, once a boundary has followed it. -/
def execStatsDelivery (c : Nat) (s : State) : Host.Outcome State Fault Refusal :=
  whileClocked s fun s =>
    match (ctx s c).out with
    | [] => s
    | r :: rs =>
      if now s ≤ r.ready then s
      else
        let s := updCtx s c (fun x => { x with out := rs })
        let s := if r.routes.testBit 0 then toL1 s r.lane (recUsable r.status && r.status.testBit 5) r.metric else s
        let s := if r.routes.testBit 1 then camBurn s r else s
        if r.routes.testBit 2 then
          recPut s (leBytes 2 (tickNo s) ++ leBytes 1 (0x20 + r.lane % 32) ++ leBytes 1 r.status ++ leBytes 4 r.frame ++ leBytes 4 r.area ++
            leBytes 2 r.ratio ++ leBytes 1 c ++ leBytes 1 r.gen)
        else s

/-- The frame-start watchdog of context `c` has run out (R322): not while the context is suspended (R313). -/
def watchOver (s : State) (c : Nat) : Bool :=
  flag s (ISP_CTX_CFG c) 31 && domOn s (2 + fld s (ISP_CTX_CFG c) 25 23) &&
  (ctx s c).watch.any (fun t => reached s (t + fld s (ISP_CTX_TIMING c) 19 0 * 1000))

/-- FRAME_TIMEOUT (R322, R324): LATE goes to the routes and the watchdog starts again. -/
def execFrameTimeout (c : Nat) (s : State) : Host.Outcome State Fault Refusal :=
  whileClocked s fun s =>
    if !watchOver s c then s
    else
      let d := fld s (ISP_CTX_TIMING c) 19 0 * 1000
      let s := updCtx s c (fun x => { x with watch := x.watch.map (· + d) })
      let n := fld s (ISP_CTX_ROUTE c) 15 8
      let s := if flag s (ISP_CTX_ROUTE c) 0 && decide (n < 24) then toL1 s n false 0 else s
      let s := setFlag (satIncF s (ISP_CTX_COUNTS c) 23 12) (ISP_CTX_STS2 c) 0 true
      let k := rdN s (ISP_CTX_FRAME c)
      applyCommit s c (if (ctx s c).lastEnd < k then k else k + 1) k

/-! ### Sensor writes (R325) -/

/-- The write that an 8-byte item spells: register address, byte 3 first when it has 2 bytes, then data from byte 4 upward. -/
def busWrite (b : List Nat) : BusWrite :=
  let k := b.getD 1 0
  let reg := ((b.drop 2).take (k % 4)).reverse
  ⟨b.getD 0 0, (reg ++ (b.drop 4).take (k / 4 + 1)).map (BitVec.ofNat 8)⟩

/-- SENSOR_WRITES: the oldest commit's writes are sent on the port's bus, once a Frame End has followed its capture, or it was captured
disabled or LATE. `acked` of them are acknowledged before one is not. Writes that end after the Frame Start that follows the last frame
ended are late by one frame. -/
def execSensorWrites (c acked : Nat) (s : State) : Host.Outcome State Fault Refusal :=
  whileClocked s fun s =>
    let port := fld s (ISP_CTX_CFG c) 25 23
    match (ctx s c).writes.find? (fun b => b.first.isNone) with
    | none => s
    | some b =>
      match b.base with
      | none => s
      | some base =>
        if !domOn s (2 + port) then s
        else
          let s := { s with camBus := mset s.camBus port ((b.items.take (acked + 1)).map busWrite) }
          let put (x : List SensorBatch) (g : SensorBatch → List SensorBatch) : List SensorBatch :=
            x.flatMap (fun y => if y.gen == b.gen && y.first.isNone then g y else [y])
          if acked < b.items.length then
            let s := updCtx s c (fun x => { x with writes := put x.writes (fun _ => []) })
            let s := match openFrame s c with
              | some _ => updLast s c (fun f => { f with unsure := true })
              | none => s
            event (setFlag s (ISP_CTX_STS2 c) 2 true) (srcCtx c) 0x1402 []
          else
            let late := flag s (ISP_CTX_CFG c) 31 && decide (base < rdN s (ISP_CTX_FRAME c))
            let first := base + 1 + fld s (ISP_CTX_TIMING c) 31 30 + b2n late
            let s := updCtx s c (fun x => { x with writes := put x.writes (fun y => [{ y with first := some first }]) })
            let s := if late then satIncF s (ISP_CTX_COUNTS c) 31 24 else s
            setFlag s (ISP_CTX_STS2 c) 2 false

/-- CONTEXT_WRITE_TIMEOUT (R329): writes were not sent within 100 ms, so that the commit's command completes with TIMEOUT once the
settings take effect. -/
def execContextWriteTimeout (c : Nat) (s : State) : Host.Outcome State Fault Refusal :=
  whileClocked s fun s =>
    match (ctx s c).commit with
    | some (gen, _) =>
      if reached s ((ctx s c).commitAt + 100000000) && (ctx s c).writes.any (fun b => b.gen == gen && b.first.isNone) then updCtx s c (fun x => { x with overdue := true }) else s
    | none => s

/-! ### Commands (R329) -/

/-- The port is idle: no enabled context is bound to it (R313). -/
def camIdle (s : State) (q : Nat) : Bool := ctxs.all (fun c => !(flag s (ISP_CTX_CFG c) 31 && fld s (ISP_CTX_CFG c) 25 23 == q))

/-- CSI_PORT_SET. -/
def execCsiPortSet (h : Issue) (port lanes rate busMode scl : Nat) (s : State) : Host.Outcome State Fault Refusal :=
  whileClocked s fun s =>
  hostCmd s h (.csiPortSet h port lanes rate busMode scl) 0x0405 48
    (fun s => [(decide (port < 6) && decide (1 ≤ lanes) && decide (lanes ≤ 4) && decide (80 ≤ rate) && decide (rate ≤ 2500) && decide (busMode < 2), .badParam),
               (if busMode = 0 then decide (100 ≤ scl) && decide (scl ≤ 1000) else decide (1000 ≤ scl) && decide (scl ≤ 12500), .badParam),
               (domOn s (2 + port), .domainOff), (camIdle s port, .wrongState)])
    (fun s =>
      let s := setFld (setFld s (CAM_CFG port) 27 16 rate) (CAM_CFG port) 1 0 (lanes - 1)
      complete (setFld (setFlag s (CAM_BUS_CFG port) 31 (busMode == 1)) (CAM_BUS_CFG port) 15 0 scl) h 0x0405 .ok 0 0 0 0)

/-- A commit of context `c` with the settings in its shadows is checked and captured (R324, R329, R333). -/
def ctxCommit (s : State) (h : Issue) (op c : Nat) (items : List (List Nat)) : State :=
  let ws := ctxShadow s c
  match (ctxChecks s c ws).find? (fun k => !k.2) with
  | some k => complete s h op .badParam 0 (k.1 * 65536) 0 0
  | none =>
    let gen := (fld s (ISP_CTX_STS c) 15 0 + 1) % 65536
    let en := flag s (ISP_CTX_CFG c) 31
    let base := if !en then some 0 else if flag s (ISP_CTX_STS2 c) 0 then some (ctx s c).lastEnd else none
    let batch : List SensorBatch := if items.isEmpty then [] else [⟨gen, items, false, base, none⟩]
    let s := updCtx (setFlag s (ISP_CTX_STS2 c) 3 true) c (fun x =>
      { x with commit := some (gen, ws), commitAt := now s, overdue := false, writes := x.writes ++ batch })
    startRun s h op c [items.length]

/-- Bytes cut into items of eight. -/
def eights : Nat → List Nat → List (List Nat)
  | 0, _ => []
  | k + 1, xs => xs.take 8 :: eights k (xs.drop 8)

/-- A sensor write's fields are in range (R325). -/
def itemOk (b : List Nat) : Bool := decide (b.getD 0 0 < 128) && decide (b.getD 1 0 < 32) && b.getD 1 0 % 4 != 3

/-- CONTEXT_SET: `fields` are bytes 20 to 47 as seven words, `items` the parameter block from byte 48 on. -/
def execContextSet (h : Issue) (c op nwrites : Nat) (fields items : List Nat) (s : State) : Host.Outcome State Fault Refusal :=
  whileClocked s fun s =>
  hostCmd s h (.contextSet h c op nwrites fields items) 0x0406 (48 + 8 * satN 8 nwrites)
    (fun s => [(decide (c < 32) && decide (op < 3) && decide (nwrites ≤ 8) && (nwrites == 0 || Issue.paramPtr h), .badParam),
               (op == 1 || fields.all (· == 0), .badParam), ((eights nwrites items).all itemOk, .badParam),
               ((ctx s c).commit.isNone, .busy)])
    (fun s =>
      let s :=
        if op = 1 then
          ((ctxRegs c).zip (ctxMasks.zip fields)).foldl (fun s p =>
            { s with shadow := mset s.shadow p.1 (BitVec.ofNat 32 p.2.2 &&& p.2.1) }) s
        else if op = 2 then { s with shadow := mset s.shadow (ISP_CTX_CFG c) (setBits (shadowOf s (ISP_CTX_CFG c)) 31 31 0) }
        else s
      ctxCommit s h 0x0406 c (eights nwrites items))

/-- STATS_ROUTE. -/
def execStatsRoute (h : Issue) (c n routes metric : Nat) (s : State) : Host.Outcome State Fault Refusal :=
  whileClocked s fun s =>
  hostCmd s h (.statsRoute h c n routes metric) 0x0407 48
    (fun s => [(decide (c < 32) && (decide (n < 24) || n == 0xFF) && decide (routes < 8) && decide (metric < 4), .badParam),
               ((ctx s c).commit.isNone, .busy)])
    (fun s =>
      let w : Word := BitVec.ofNat 32 (n * 256 + metric * 64 + routes)
      ctxCommit { s with shadow := mset s.shadow (ISP_CTX_ROUTE c) w } h 0x0407 c [])

/-! ### Domains (R87, R313, R314) -/

/-- A pipeline or a port loses its datapath state: frames in progress there are gone, and the contexts of a port are suspended. -/
def camLose (s : State) (gone : CamFrame → Bool) : State :=
  ctxs.foldl (fun s c => if (ctx s c).frames.any gone then
    updCtx s c (fun x => Ctx.spend { x with frames := x.frames.filter (fun f => !gone f) }) else s) s
def camPipeOff (s : State) (p : Nat) : State := camLose { s with pipes := mset s.pipes p Pipe.reset } (fun f => f.pipe == p)
def camPortOff (s : State) (q : Nat) : State :=
  let s := { s with camBus := mset s.camBus q [] }
  ctxs.foldl (fun s c => if fld s (ISP_CTX_CFG c) 25 23 == q && (ctx s c).watch.isSome then updCtx s c (fun x => { x with watch := none }) else s)
    (camLose s (fun f => csPort f.set == q))

end Sys2Proof.Machine
end

