-- ==== Sys2Proof/Machine/Crypto.lean ====
section
/-!
DEFINITION. SHA-256 and ECDSA over P-256, which R97 names for the firmware image. PRESUMED: the two algorithms and the
curve's constants come from FIPS 180-4 and FIPS 186-4; the spec names them and does not restate them (assumption 4).
-/

namespace Sys2Proof.Machine

/-! ### SHA-256 -/

/-- 32-bit rotation to the right. -/
def ror32 (x n : Nat) : Nat := ((x >>> n) ||| (x <<< (32 - n))) % 2 ^ 32

/-- The 64 round constants of SHA-256, as one number per line of eight. -/
def shaK : List Nat := [
  0x428a2f98, 0x71374491, 0xb5c0fbcf, 0xe9b5dba5, 0x3956c25b, 0x59f111f1, 0x923f82a4, 0xab1c5ed5] ++ [
  0xd807aa98, 0x12835b01, 0x243185be, 0x550c7dc3, 0x72be5d74, 0x80deb1fe, 0x9bdc06a7, 0xc19bf174] ++ [
  0xe49b69c1, 0xefbe4786, 0x0fc19dc6, 0x240ca1cc, 0x2de92c6f, 0x4a7484aa, 0x5cb0a9dc, 0x76f988da] ++ [
  0x983e5152, 0xa831c66d, 0xb00327c8, 0xbf597fc7, 0xc6e00bf3, 0xd5a79147, 0x06ca6351, 0x14292967] ++ [
  0x27b70a85, 0x2e1b2138, 0x4d2c6dfc, 0x53380d13, 0x650a7354, 0x766a0abb, 0x81c2c92e, 0x92722c85] ++ [
  0xa2bfe8a1, 0xa81a664b, 0xc24b8b70, 0xc76c51a3, 0xd192e819, 0xd6990624, 0xf40e3585, 0x106aa070] ++ [
  0x19a4c116, 0x1e376c08, 0x2748774c, 0x34b0bcb5, 0x391c0cb3, 0x4ed8aa4a, 0x5b9cca4f, 0x682e6ff3] ++ [
  0x748f82ee, 0x78a5636f, 0x84c87814, 0x8cc70208, 0x90befffa, 0xa4506ceb, 0xbef9a3f7, 0xc67178f2]

/-- The eight working words of SHA-256. -/
structure Sha where
  a : Nat
  b : Nat
  c : Nat
  d : Nat
  e : Nat
  f : Nat
  g : Nat
  h : Nat
  deriving DecidableEq, Repr

/-- The initial hash value of SHA-256. -/
def shaInit : Sha :=
  ⟨0x6a09e667, 0xbb67ae85, 0x3c6ef372, 0xa54ff53a, 0x510e527f, 0x9b05688c, 0x1f83d9ab, 0x5be0cd19⟩

/-- One round with constant `k` and schedule word `w`. -/
def shaRound (s : Sha) (k w : Nat) : Sha :=
  let s1 := ror32 s.e 6 ^^^ ror32 s.e 11 ^^^ ror32 s.e 25
  let ch := (s.e &&& s.f) ^^^ ((2 ^ 32 - 1 - s.e) &&& s.g)
  let t1 := (s.h + s1 + ch + k + w) % 2 ^ 32
  let s0 := ror32 s.a 2 ^^^ ror32 s.a 13 ^^^ ror32 s.a 22
  let mj := (s.a &&& s.b) ^^^ (s.a &&& s.c) ^^^ (s.b &&& s.c)
  ⟨(t1 + s0 + mj) % 2 ^ 32, s.a, s.b, s.c, (s.d + t1) % 2 ^ 32, s.e, s.f, s.g⟩

/-- The next schedule word from the sixteen before it, oldest first. -/
def shaNextW (w : List Nat) : Nat :=
  let w0 := w.getD 0 0
  let w1 := w.getD 1 0
  let w9 := w.getD 9 0
  let w14 := w.getD 14 0
  let s0 := ror32 w1 7 ^^^ ror32 w1 18 ^^^ (w1 >>> 3)
  let s1 := ror32 w14 17 ^^^ ror32 w14 19 ^^^ (w14 >>> 10)
  (w0 + s0 + w9 + s1) % 2 ^ 32

/-- The rounds of one block; `w` holds the next sixteen schedule words. -/
def shaRounds : List Nat → List Nat → Sha → Sha
  | [], _, s => s
  | k :: ks, w, s => shaRounds ks (w.drop 1 ++ [shaNextW w]) (shaRound s k (w.getD 0 0))

/-- The hash words after one 64-byte block. -/
def shaBlock (s : Sha) (ws : List Nat) : Sha :=
  let r := shaRounds shaK ws s
  ⟨(s.a + r.a) % 2 ^ 32, (s.b + r.b) % 2 ^ 32, (s.c + r.c) % 2 ^ 32, (s.d + r.d) % 2 ^ 32,
   (s.e + r.e) % 2 ^ 32, (s.f + r.f) % 2 ^ 32, (s.g + r.g) % 2 ^ 32, (s.h + r.h) % 2 ^ 32⟩

/-- A big-endian number from bytes. -/
def beNat (bs : List Byte) : Nat := bs.foldl (fun n b => n * 256 + b.toNat) 0

/-- The 32-bit big-endian words of a block of sixteen words. -/
def beWords : Nat → List Byte → List Nat
  | 0, _ => []
  | k + 1, bs => beNat (bs.take 4) :: beWords k (bs.drop 4)

/-- The hash over `k` further blocks. -/
def shaBlocks : Nat → List Byte → Sha → Sha
  | 0, _, s => s
  | k + 1, bs, s => shaBlocks k (bs.drop 64) (shaBlock s (beWords 16 bs))

/-- The message with SHA-256 padding: 0x80, zeros, and the bit length as eight big-endian bytes. -/
def shaPad (bs : List Byte) : List Byte :=
  let n := bs.length
  bs ++ [0x80] ++ zeros ((119 - n % 64) % 64) ++ (leBytes 8 (8 * n)).reverse

/-- SHA-256, as a 256-bit big-endian number. -/
def sha256 (bs : List Byte) : Nat :=
  let p := shaPad bs
  let r := shaBlocks (p.length / 64) p shaInit
  [r.b, r.c, r.d, r.e, r.f, r.g, r.h].foldl (fun n w => n * 2 ^ 32 + w) r.a

/-! ### ECDSA over P-256 -/

/-- The field prime of P-256. -/
def p256p : Nat := 0xFFFFFFFF00000001000000000000000000000000FFFFFFFFFFFFFFFFFFFFFFFF
/-- The group order of P-256. -/
def p256n : Nat := 0xFFFFFFFF00000000FFFFFFFFFFFFFFFFBCE6FAADA7179E84F3B9CAC2FC632551
/-- The coefficient b of P-256. -/
def p256b : Nat := 0x5AC635D8AA3A93E7B3EBBD55769886BC651D06B0CC53B0F63BCE3C3E27D2604B
/-- The base point of P-256. -/
def p256gx : Nat := 0x6B17D1F2E12C4247F8BCE6E563A440F277037D812DEB33A0F4A13945D898C296
/-- The base point of P-256. -/
def p256gy : Nat := 0x4FE342E2FE1A7F9B8EE7EB4A7C0F9E162BCE33576B315ECECBB6406837BF51F5

/-- `x ^ e mod m` over the `k` low bits of `e`, by squaring. -/
def powMod (m : Nat) : Nat → Nat → Nat → Nat
  | 0, _, _ => 1 % m
  | k + 1, x, e =>
    let r := powMod m k (x * x % m) (e / 2)
    if e % 2 = 1 then r * x % m else r

/-- The inverse modulo a 256-bit prime. -/
def invMod (m x : Nat) : Nat := powMod m 256 (x % m) (m - 2)

/-- Subtraction modulo `m`. -/
def subMod (m a b : Nat) : Nat := (a % m + (m - b % m)) % m

/-- A point in Jacobian coordinates; `z = 0` is the point at infinity. -/
structure Jac where
  x : Nat
  y : Nat
  z : Nat
  deriving DecidableEq, Repr

/-- Point doubling. -/
def jacDbl (q : Jac) : Jac :=
  let m := p256p
  if q.z = 0 then q
  else
    let yy := q.y * q.y % m
    let s := 4 * q.x * yy % m
    let zz := q.z * q.z % m
    let t := 3 * (subMod m q.x zz) * ((q.x + zz) % m) % m
    let x' := subMod m (t * t) (2 * s)
    ⟨x', subMod m (t * subMod m s x') (8 * yy * yy), 2 * q.y * q.z % m⟩

/-- Point addition. -/
def jacAdd (p q : Jac) : Jac :=
  let m := p256p
  if p.z = 0 then q
  else if q.z = 0 then p
  else
    let z1 := p.z * p.z % m
    let z2 := q.z * q.z % m
    let u1 := p.x * z2 % m
    let u2 := q.x * z1 % m
    let s1 := p.y * q.z * z2 % m
    let s2 := q.y * p.z * z1 % m
    if u1 = u2 then
      if s1 = s2 then jacDbl p else ⟨1, 1, 0⟩
    else
      let h := subMod m u2 u1
      let r := subMod m s2 s1
      let hh := h * h % m
      let hhh := h * hh % m
      let v := u1 * hh % m
      let x' := subMod m (subMod m (r * r) hhh) (2 * v)
      ⟨x', subMod m (r * subMod m v x') (s1 * hhh), p.z * q.z % m * h % m⟩

/-- `e` times a point, over the `k` low bits of `e`. -/
def jacMul : Nat → Nat → Jac → Jac
  | 0, _, _ => ⟨1, 1, 0⟩
  | k + 1, e, q =>
    let r := jacMul k (e / 2) (jacDbl q)
    if e % 2 = 1 then jacAdd q r else r

/-- ECDSA verification of `(r, s)` over digest `z` under the public point `(qx, qy)`. -/
def ecdsaVerify (qx qy r s z : Nat) : Bool :=
  let onCurve := (qy * qy) % p256p == (qx * qx % p256p * qx + (p256p - 3) * qx + p256b) % p256p
  if qx < p256p && qy < p256p && onCurve && 0 < r && r < p256n && 0 < s && s < p256n then
    let w := invMod p256n s
    let u1 := z * w % p256n
    let u2 := r * w % p256n
    let q := jacAdd (jacMul 256 u1 ⟨p256gx, p256gy, 1⟩) (jacMul 256 u2 ⟨qx, qy, 1⟩)
    if q.z = 0 then false
    else
      let zi := invMod p256p q.z
      q.x * (zi * zi % p256p) % p256p % p256n == r
  else false

end Sys2Proof.Machine
end

