-- ==== Sys2Proof/Machine/Mbx.lean ====
section
/-!
DEFINITION. Mailboxes (R519 to R530), the service port's requests (R531 to R535) and the conductor watchdogs (R558, R559).
-/

namespace Sys2Proof.Machine

/-! ### Channels -/

/-- Transaction types of R436. -/
def tyMbxPost : Nat := 0x28
def tyMbxGoClear : Nat := 0x29

/-- Channel `n` is bound, its SENDER, RECEIVER and PEER_CH (R530). -/
def mbxBound (s : State) (n : Nat) : Bool := flag s (MBX_CH_BIND n) 31
def mbxSender (s : State) (n : Nat) : Nat := fld s (MBX_CH_BIND n) 23 16
def mbxReceiver (s : State) (n : Nat) : Nat := fld s (MBX_CH_BIND n) 15 8
def mbxPeer (s : State) (n : Nat) : Nat := fld s (MBX_CH_BIND n) 3 0

/-- GO of channel `n`. -/
def mbxGo (s : State) (n : Nat) : Bool := flag s (MBX_CH_GO n) 31

/-- `s` with GO of channel `n` set or clear, in both its places; its timer starts with GO and stops when it clears (R525,
R526). -/
def setGo (s : State) (n : Nat) (b : Bool) : State :=
  let s := setFlag (setFlag s (MBX_CH_GO n) 31 b) (MBX_CH_STS n) 0 b
  { s with mbxDue := if b then mset s.mbxDue n (now s + rdN s (MBX_CH_TIMEOUT n) * 1000) else mdel s.mbxDue n }

/-- A flag of `MBX_CHn_STS` set. -/
def mbxFlag (s : State) (n i : Nat) : State := setFlag s (MBX_CH_STS n) i true

/-- The channel forwards to a device of the fabric (R521). -/
def mbxForwards (s : State) (n : Nat) : Bool := mbxBound s n && mbxReceiver s n / 32 == 4

/-- A write of message register `r` by a master (R519, R523). -/
def mbxWriteMsg (s : State) (id n r v : Nat) : State :=
  if !mbxBound s n then s
  else if id ≠ mbxSender s n then mbxFlag s n 5
  else if mbxGo s n then mbxFlag s n 2
  else wrN s (MBX_CH_MSG n r) v

/-- GO of channel `n` sets with a length: flags that clear with it clear (R530), and a forwarding channel sends the message
(R521). -/
def mbxPost (s : State) (n len : Nat) : State :=
  let s := setFld s (MBX_CH_STS n) 4 1 0
  let s := setGo (setFld s (MBX_CH_GO n) 4 0 len) n true
  if mbxForwards s n then
    sendMsg s (mbxReceiver s n - 0x80) tyMbxPost
      (mbxPeer s n :: len :: (List.range len).map (fun r => rdN s (MBX_CH_MSG n r)))
  else s

/-- A write of `MBX_CHn_GO` by a master (R519, R523). -/
def mbxWriteGo (s : State) (id n v : Nat) : State :=
  let len := natBits v 4 0
  if !mbxBound s n then s
  else if id ≠ mbxSender s n then mbxFlag s n 5
  else if mbxGo s n then mbxFlag s n 2
  else if !v.testBit 31 then s
  else if len < 8 || 16 < len then mbxFlag s n 5
  else mbxPost s n len

/-- A read of message register `r` by a master: the receiver's read of the last one while GO is set acknowledges (R524), and
a channel that a peer sent to answers it (R522). -/
def mbxRead (s : State) (id n r : Nat) : State × Nat :=
  if !mbxBound s n then (s, 0)
  else if id ≠ mbxReceiver s n then (mbxFlag s n 5, 0)
  else
    let v := rdN s (MBX_CH_MSG n r)
    if mbxGo s n && r + 1 == fld s (MBX_CH_GO n) 4 0 then
      let s := setGo s n false
      (if mbxSender s n / 32 = 4 then sendMsg s (mbxSender s n - 0x80) tyMbxGoClear [n, 0] else s, v)
    else (s, v)

/-- Flags of `MBX_CHn_STS` cleared by a master's write of ones (R530). -/
def mbxClear (s : State) (id n v : Nat) : State :=
  let tx := mbxBound s n && id == mbxSender s n
  let rx := mbxBound s n && id == mbxReceiver s n
  let m := (if tx || rx then 32 else 0) + (if rx then 16 else 0) + (if tx then 14 else 0)
  wrN s (MBX_CH_STS n) (rdN s (MBX_CH_STS n) - (rdN s (MBX_CH_STS n) &&& v &&& m))

/-- MBX_MSG_WRITE (R523). -/
def execMbxMsgWrite (id n r v : Nat) (s : State) : Host.Outcome State Fault Refusal :=
  whileClocked s fun s =>
  mbxWriteMsg s id n r v

/-- MBX_GO_WRITE (R523). -/
def execMbxGoWrite (id n v : Nat) (s : State) : Host.Outcome State Fault Refusal :=
  whileClocked s fun s =>
  mbxWriteGo s id n v

/-- MBX_LAST_READ: a read of register `r` of channel `n` by a master, which acknowledges the message when it is the
receiver's read of the last one (R524). -/
def execMbxLastRead (id n r : Nat) (s : State) : Host.Outcome State Fault Refusal :=
  whileClocked s fun s =>
  let (s, v) := mbxRead s id n r
  { s with readData := v }

/-- MBX_TIMEOUT (R525): TIMEOUT µs after GO was set, once; the event names the channel and both identities. -/
def execMbxTimeout (n : Nat) (s : State) : Host.Outcome State Fault Refusal :=
  whileClocked s fun s =>
  match s.mbxDue.find? (fun p => p.1 == n) with
  | some p =>
    if mbxGo s n && reached s p.2 then
      event (mbxFlag { s with mbxDue := mdel s.mbxDue n } n 1) (srcMbx n) 0x1901
        (leBytes 1 n ++ leBytes 1 (mbxSender s n) ++ leBytes 1 (mbxReceiver s n))
    else s
  | none => s

/-- MBX_POST from the device at `src` for channel `n` (R521). -/
def execMbxPost (via src n : Nat) (msg : List Nat) (s : State) : Host.Outcome State Fault Refusal :=
  whileClocked s fun s =>
  delivered s via src tyMbxPost (n :: msg.length :: msg) (fun s =>
    if !(mbxBound s n && mbxSender s n == 0x80 + src) || mbxGo s n || msg.length < 8 || 16 < msg.length then mbxFlag s n 5
    else
      let s := (msg.zip (List.range 16)).foldl (fun s p => wrN s (MBX_CH_MSG n p.2) p.1) s
      mbxPost s n msg.length)

/-- MBX_GO_CLEAR from the device at `src` (R522): KIND 0 clears GO of the channel that forwards to the sender's channel `n`;
KIND 1 withdraws the message of channel `n`. A GO already clear is left alone. -/
def execMbxGoClear (via src n kind : Nat) (s : State) : Host.Outcome State Fault Refusal :=
  whileClocked s fun s =>
  delivered s via src tyMbxGoClear [n, kind] (fun s =>
    if kind = 0 then
      match (List.range 16).find? (fun c => mbxForwards s c && mbxReceiver s c == 0x80 + src && mbxPeer s c == n && mbxGo s c) with
      | some c => setGo s c false
      | none => s
    else if mbxGo s n && mbxBound s n && mbxSender s n == 0x80 + src then mbxFlag (setGo s n false) n 4
    else s)

/-- A master is reset (R526). -/
def mbxReset (s : State) (id : Nat) : State :=
  (List.range 16).foldl (fun s n =>
    if !mbxGo s n then s
    else if mbxSender s n = id then
      let s := mbxFlag (setGo s n false) n 4
      if mbxForwards s n then sendMsg s (mbxReceiver s n - 0x80) tyMbxGoClear [mbxPeer s n, 1] else s
    else if mbxReceiver s n = id && mbxForwards s n then mbxFlag (setGo s n false) n 3
    else s) s

/-! ### Commands (R528, R529) -/

/-- A master identity that a binding may name. -/
def identOk (x : Nat) : Bool := x == 0 || x == 1 || (decide (0x10 ≤ x) && decide (x ≤ 0x13)) || (decide (0x80 ≤ x) && decide (x ≤ 0x9F))

/-- MBX_BIND. -/
def execMbxBind (h : Issue) (channel op sender receiver peer timeout : Nat) (s : State) : Host.Outcome State Fault Refusal :=
  whileClocked s fun s =>
  hostCmd s h (.mbxBind h channel op sender receiver peer timeout) 0x0A01 48
    (fun s =>
      [(decide (channel < 16) &&
        (if op = 0 then
          identOk sender && identOk receiver && sender != receiver && !(decide (0x80 ≤ sender) && decide (0x80 ≤ receiver)) &&
          sender != 0x80 + ownAddr s && receiver != 0x80 + ownAddr s && decide (peer < 16) && decide (10 ≤ timeout) &&
          decide (timeout ≤ 1000000)
         else op == 1 && sender == 0 && receiver == 0 && peer == 0 && timeout == 0), .badParam),
       (!flag s (MBX_CH_BIND channel) 30, .locked), (!mbxGo s channel, .busy)])
    (fun s =>
      let s := (List.range 16).foldl (fun s r => wrN s (MBX_CH_MSG channel r) 0) s
      let s := wrN (wrN s (MBX_CH_STS channel) 0) (MBX_CH_GO channel) 0
      let s := if op = 0 then
          wrN (wrN s (MBX_CH_BIND channel) (2 ^ 31 + sender * 65536 + receiver * 256 + peer)) (MBX_CH_TIMEOUT channel) timeout
        else wr (wrN s (MBX_CH_BIND channel) 0) (MBX_CH_TIMEOUT channel) (regReset (MBX_CH_TIMEOUT channel))
      complete s h 0x0A01 .ok (rdN s (MBX_CH_BIND channel)) 0 0 0)

/-- MBX_LOCK. -/
def execMbxLock (h : Issue) (mask : Nat) (s : State) : Host.Outcome State Fault Refusal :=
  whileClocked s fun s =>
  hostCmd s h (.mbxLock h mask) 0x0A02 48 (fun _ => [(decide (0 < mask) && decide (mask < 65536), .badParam)])
    (fun s =>
      let s := (bitList mask 16).foldl (fun s n => setFlag s (MBX_CH_BIND n) 30 true) s
      let s := setFld s MBX_LOCKED 15 0 (rdN s MBX_LOCKED ||| mask)
      complete s h 0x0A02 .ok (rdN s MBX_LOCKED) 0 0 0)

/-! ### The service port (R533, R534, R526) -/

/-- A vendor request names a range of the pool (R534). -/
def poolRange (off len : Nat) : Bool := decide (1 ≤ len) && decide (len ≤ 4096) && decide (off * 64 + len ≤ 1920 * 1024)

/-- The service port operates: VBUS is present (R54, R75). -/
def vbus (s : State) : Bool := flag s SVC_STS 3

/-- POOL_READ: `off` in 64-byte units; a request beyond the pool is stalled. -/
def execPoolRead (off len : Nat) (s : State) : Host.Outcome State Fault Refusal :=
  whileClocked s fun s =>
  if !vbus s then s
  else if poolRange off len then
      { s with svc := { s.svc with ctrlIn := sramBytes s (poolBase + off * 64) len, stalled := false } }
    else { s with svc := { s.svc with ctrlIn := [], stalled := true } }

/-- POOL_WRITE. -/
def execPoolWrite (off : Nat) (data : List Byte) (s : State) : Host.Outcome State Fault Refusal :=
  whileClocked s fun s =>
  if !vbus s then s
  else if poolRange off data.length then
      let s := putSram s (poolBase + off * 64) data
      { s with svc := { s.svc with stalled := false } }
    else { s with svc := { s.svc with stalled := true } }

/-- USB_BUS_RESET: a bus reset, or with `removed` the loss of VBUS, resets master 0x01 and its ring (R526, R533). `speed` is
the speed of the port after it. -/
def execUsbBusReset (removed : Bool) (speed : Nat) (s : State) : Host.Outcome State Fault Refusal :=
  whileClocked s fun s =>
  let s := setFlag s SVC_STS 2 false
  let s := if removed then setFld (setFlag s SVC_STS 3 false) SVC_STS 1 0 0
           else satIncF (setFld (setFlag s SVC_STS 3 true) SVC_STS 1 0 speed) SVC_STS 31 16
  let s := voidRing s 15
  let s := setFld s (HIF_SQ_STS 15) 24 16 0
  let s := wr (wr s (HIF_CQ_TAIL 15) (regReset (HIF_CQ_TAIL 15))) (HIF_SQ_HEAD 15) 0
  mbxReset { s with svc := { s.svc with sq := [], bulkIn := [], ctrlIn := [], stalled := false } } 1

/-! ### Conductor watchdogs -/

/-- CONDUCTOR_WATCHDOG: conductor `c` is reset and restarted (R558); `cmds` are the running commands, as opcode and object,
that it was executing, which complete with INTERNAL, each with an INFO event (R138). A command that is the duty of another conductor is none of
them (R41). A second expiry within 1 s is FATAL (R559). -/
def execConductorWatchdog (c : Nat) (cmds : List (Nat × Nat)) (s : State) : Host.Outcome State Fault Refusal :=
  whileClocked s fun s =>
  let s := mbxReset s (0x10 + c)
  let s := event s (srcMaster (0x10 + c)) 0x1A02 (leBytes 1 c)
  let again := match (s.evr.wdLast.find? (fun p => p.1 == c)) with
               | some p => decide (now s < p.2 + 1000000000)
               | none => false
  let s := { s with evr := { s.evr with wdLast := mset s.evr.wdLast c (now s) } }
  let s := cmds.foldl (fun s k =>
    if isRunning s k.1 k.2 && (dutyOf k.1).all (· == c) then event (finishRun s k.1 k.2 .internal 0 0 0 0) (srcMaster (0x10 + c)) 0x1104 [] else s) s
  if again then raiseFault s clsFatal 0x0401 (srcMaster (0x10 + c)) [] else s

end Sys2Proof.Machine
end

