-- ==== Sys2Proof/Machine/Reset.lean ====
section
/-!
DEFINITION. Resets (R90 to R94), the boot ROM (R95 to R101) and the service port's bulk OUT endpoint (R532).
-/

namespace Sys2Proof.Machine

/-! ### What a reset keeps -/

/-- Registers of the AON domain (R599): PWR, THM and MBX. -/
def aonReg (a : Nat) : Bool := domainOf a == 0

/-- Registers of the SVC block: the service port is unaffected by SYS_RST_N (R531). -/
def svcReg (a : Nat) : Bool := decide (SVC_STS ≤ a) && decide (a ≤ SVC_CMDS)

/-- Registers that POR_N keeps: the first rail-order violation (R83) and the record of the shutdown (R114, R115). -/
def porReg (a : Nat) : Bool :=
  a == PWR_SEQ_STS || a == THM_SHUTDOWN_CAUSE || a == THM_SHUTDOWN_TIME_LO || a == THM_SHUTDOWN_TIME_HI

/-- The image source that the straps name; 3 boots as 1 (R71). -/
def strapSource (s : State) : Nat := if s.pins.bootSel = 3 then 1 else s.pins.bootSel

/-- Registers whose reset value the straps and fuses give (R70, R101, R448, R471). -/
def strapShow (s : State) : State :=
  let s := wr64 s TOP_SERIAL_LO TOP_SERIAL_HI s.fuses.serial
  let s := setFld (setFld s TOP_STRAP_STS 7 3 s.pins.fabAddr) TOP_STRAP_STS 1 0 s.pins.bootSel
  let s := setFld (setFld s PWR_BOOT_STS 31 24 s.fuses.rollback) PWR_BOOT_STS 9 8 (strapSource s)
  let s := setFlag (setFld s FAB_STS 4 0 s.pins.fabAddr) FAB_STS 7 (s.pins.fabAddr != 0)
  let s := wr64 (wr64 s FAB_SERIAL_LO FAB_SERIAL_HI s.fuses.serial) FAB_ROOT_SERIAL_LO FAB_ROOT_SERIAL_HI s.fuses.serial
  wrN s FAB_MEMBERS (1 <<< s.pins.fabAddr)

/-- Every register and every unit reset but the registers of `keep`; fuses, retained SRAM, the pins' inputs and the
thermal-shutdown latch stay, and host memory is the host's. The device is in the safe state (R91). SRAM below the retained
region and device DRAM lose their contents (R46, R473). The shutter's interlock state and the service port's VBUS follow their pins, and what
the straps and fuses give shows (R70, R448). -/
def resetKeep (s : State) (keep : Nat → Bool) (dirty : Nat) (hif : Hif) (svc : Svc) (thm : Thm) : State :=
  let t : State :=
    { State.reset with
      regs := s.regs.filter (fun e => keep e.1), shadow := s.shadow.filter (fun e => keep e.1), dirty := dirty
      live := s.live.filter (fun e => keep e.1), latched := s.latched.filter (fun e => keep e.1), readData := s.readData
      fuses := s.fuses, pins := { s.pins with safeN := false, trig := 0 }
      pwr := { Pwr.reset with thermLatch := s.pwr.thermLatch, thermPrior := s.pwr.thermPrior, uvRails := s.pwr.uvRails
                              aonCount := s.pwr.aonCount, held := s.pwr.held }
      thm := thm, hif := hif, evr := { Evr.reset with bad := s.evr.bad }, svc := svc
      fab := { Fab.reset with wire := s.fab.wire }
      sramLost := s.sramLost, dramLost := s.dramLost, sram := s.sram, dram := s.dram, host := s.host
      freeCtr := s.freeCtr, pending := s.pending }
  let t := setFlag (loseDram (loseSram t 0 blackBox) 0 (2 ^ 36) 2) LEDG_SHUTTER 30 (!t.pins.interlockN)
  shutterShow (strapShow (setFlag t SVC_STS 3 (flag s SVC_STS 3)))

/-- The PCIe link core after a reset that keeps it, with its configuration space (R90). -/
def keptLink (s : State) : Hif :=
  { Hif.reset with bme := s.hif.bme, d3hot := s.hif.d3hot, intxDis := s.hif.intxDis, intLine := s.hif.intLine, bar0 := s.hif.bar0
                   bar2 := s.hif.bar2, perst := s.hif.perst, linkUp := s.hif.linkUp }

/-- SYS_RST_N, a brownout and the removal of VDD_CORE: everything but the AON domain and the PCIe link core (R90). The shutter's latch
stands in the always-on domain and its COUNT since power-on reset (R249, R262). The
conductors are reset as masters (R526), and the timers of the channels left intact run on (R525; assumption 119); the domains are on (R86)
and the boot status begins again. -/
def resetCore (s : State) (hif : Hif) : State :=
  let s := [0x10, 0x11, 0x12, 0x13].foldl mbxReset s
  let t := resetKeep s (fun a => aonReg a || svcReg a || a == LEDG_SHUTTER) (s.dirty &&& 2 ^ 15) hif { s.svc with sq := [] } s.thm
  let t := setFld { t with mbxDue := s.mbxDue.map (fun p => (p.1, p.2 - now s)) } PWR_STS 19 0 0xFFFFF
  let t := ports4.foldl (fun t p => setFld t (FAB_P_STS p) 17 16 (fld s (FAB_P_STS p) 17 16)) t
  strapShow (wr (wr t PWR_BOOT_STS (regReset PWR_BOOT_STS)) PWR_DIE_STS (regReset PWR_DIE_STS))

/-- POR_N: everything but the retained region, the fuses and the latch (R90). -/
def resetPor (s : State) : State :=
  let valid := flag s PWR_RESET_CAUSE 0
  let t := resetKeep s porReg 0 { Hif.reset with perst := s.hif.perst } Svc.reset Thm.reset
  setFlag t PWR_RESET_CAUSE 0 valid

/-- A cause recorded in `PWR_RESET_CAUSE` (R94). -/
def resetCause (s : State) (bit : Nat) : State := setFlag s PWR_RESET_CAUSE bit true

/-! ### The boot ROM -/

/-- `PWR_BOOT_STS.STATE`. In a service-port download each word that changes STATE goes out on bulk IN (R100). -/
def setBoot (s : State) (st : Nat) : State :=
  let s := setFld s PWR_BOOT_STS 3 0 st
  if fld s PWR_BOOT_STS 9 8 = 2 then
    { s with svc := { s.svc with bulkIn := s.svc.bulkIn ++ leBytes 4 (rdN s PWR_BOOT_STS) } }
  else s

/-- `PWR_BOOT_STS.STATE`. -/
def bootSt (s : State) : Nat := fld s PWR_BOOT_STS 3 0

/-- Little-endian field of an image header. -/
def imgField (img : List Byte) (a k : Nat) : Nat := leNat ((img.drop a).take k)

/-- The checks of an image in the order of R98, each with its code (R101). -/
def imageFault (s : State) (img : List Byte) : Nat :=
  let len := imgField img 8 4
  let key := (img.drop 64).take 64
  let sig := (img.drop 128).take 64
  if imgField img 0 4 ≠ 0x31524C43 || imgField img 4 4 ≠ 1 then 1
  else if len % 64 ≠ 0 || len < 64 || 3145728 < len || img.length ≠ 256 + len then 2
  else if sha256 key ≠ s.fuses.keyHash then 3
  else if !ecdsaVerify (beNat (key.take 32)) (beNat (key.drop 32)) (beNat (sig.take 32)) (beNat (sig.drop 32))
      (sha256 (img.take 128 ++ img.drop 256)) then 4
  else if imgField img 12 1 < s.fuses.rollback then 5
  else 0

/-- A spare row or column of a macro in use from the fuses (R489, R492). -/
def hardSpare (s : State) (e : Nat) : State :=
  let a := SRAM_MACRO (e / 2 ^ 16 % 512)
  if !e.testBit 31 then s
  else if e / 2 ^ 28 % 8 = 0 then
    let used := fld s a 25 23
    let s := setFld (setFlag s a 31 true) a 25 23 (satN 4 (used + 1))
    if used = 3 then setFld s SRAM_STS 31 16 (fld s SRAM_STS 31 16 + 1) else s
  else if e / 2 ^ 28 % 8 = 1 then setFld (setFlag s a 31 true) a 27 26 (satN 2 (fld s a 27 26 + 1))
  else s

/-- An engine retired by the fuses (R573, R576). -/
def hardEngine (s : State) (e : Nat) : State :=
  if e.testBit 31 && e / 2 ^ 28 % 8 == 2 && decide (e % 32 < 26) then
    failEngine (setFlag s TOP_ENGINE_CFG (e % 32) true) (e % 32)
  else s

/-- Domain FABRIC comes up (R454, R428): the address is the strap's, or 0 until one is assigned, and the device is the root
and the grandmaster of its own fabric. Without FAB_REFCLK fabric time runs from the other reference (R85). -/
def fabricUp (s : State) : State :=
  let a := s.pins.fabAddr
  let s := setFlag (setFlag (setFld s FAB_STS 4 0 a) FAB_STS 7 (a != 0)) FAB_STS 8 true
  let s := wr64 (wr64 s FAB_SERIAL_LO FAB_SERIAL_HI s.fuses.serial) FTM_GM_SERIAL_LO FTM_GM_SERIAL_HI s.fuses.serial
  let s := setFlag s FTM_STS 13 (!s.pins.fabRefclk)
  ftmSelect (reroute (adoptRoot s)) true

/-- The rollback fuses are programmed from `old` to version `v`, a 64-bit thermometer in two fuse words (R97, R98 step 6, R116). A version above 64 is
taken as 64 (assumption 110). The window is checked again before the second word: whether the temperature left it meanwhile is a free value,
and then the second word waits for the next boot. -/
def programRollback (s : State) (old v : Nat) : State :=
  let v := satN 64 v
  let stops := decide (old < 32) && decide (32 < v) && Config.freeBit s.freeCtr
  let s := tick1 s
  let now := if stops then 32 else v
  let s := setFld { s with fuses := { s.fuses with rollback := now } } PWR_BOOT_STS 31 24 now
  if stops then event { s with pwr := { s.pwr with fw := { s.pwr.fw with advance := true } } } srcDevice 0x1103 [] else s

/-- The conductor firmware starts (R98 steps 5 and 6): the body goes to its region, retired engines give up their lanes
(R576), the rings are served from RUNNING on, and an ADVANCE is programmed if the write window and the die ledger allow it,
else deferred to the next boot. -/
def startFirmware (s : State) (img : List Byte) : State :=
  let s := setBoot s 4
  let s := putSram s 0x1100000 (img.drop 256)
  let roll := imgField img 12 1
  let adv := imgField img 13 1 % 2 == 1 && decide (s.fuses.rollback < satN 64 roll)
  let fw : Firmware := ⟨(Config.freeWord s.freeCtr).toNat, roll, imgField img 8 4, fld s PWR_BOOT_STS 9 8,
    fld s PWR_BOOT_STS 10 10, false⟩
  let s := tick1 { s with pwr := { s.pwr with fw := fw, image := [], imageUsb := [], imageFrom := 0 } }
  let s := s.fuses.entries.foldl hardEngine s
  let s := remap s (fun t e => flag t TOP_ENGINE_CFG e)
  let s := setBoot s 5
  let s :=
    if !adv then s
    else if dieGrants s 4 then programRollback s s.fuses.rollback roll
    else event (dieRefuse { s with pwr := { s.pwr with fw := { s.pwr.fw with advance := true } } }) srcDevice 0x1103 []
  leaveSafe s

/-- The ROM waits for an image (R99): from PCIe, the service port, or after the flash failed from either. -/
def waitImage (s : State) : State :=
  let src := strapSource s
  setBoot (setFlag { s with pwr := { s.pwr with image := [], imageUsb := [], imageFrom := src } } PWR_BOOT_STS 11 true) 2

/-- A complete image is verified, and starts or fails with its code (R98, R99). -/
def verifyImage (s : State) (img : List Byte) : State :=
  let s := setBoot (setFlag s PWR_BOOT_STS 11 false) 3
  match imageFault s img with
  | 0 => startFirmware s img
  | c => waitImage (setFld s PWR_BOOT_STS 23 16 c)

/-- The image in the flash from its start: header and as much body as the header names. -/
def flashImage (bs : List Byte) : List Byte := bs.take (256 + imgField bs 8 4)

/-- The flash images are tried, primary first (R99). A failed device waits for an image. -/
def bootFlash (s : State) (primary secondary : List Byte) : State :=
  let p := flashImage primary
  let q := flashImage secondary
  let s := setBoot s 3
  match imageFault s p with
  | 0 => startFirmware s p
  | _ =>
    let s := setFlag s PWR_BOOT_STS 10 true
    match imageFault s q with
    | 0 => startFirmware s q
    | c => waitImage (setFld s PWR_BOOT_STS 23 16 c)

/-- The boot ROM from its start (R98 steps 1 and 2). `fails` are the rows and columns that the SRAM march finds failing;
`flash` is what the flash answers, `none` when it does not. A latched thermal shutdown keeps every clock but AON's stopped
(R114), so that nothing boots; nor does a device that a reset still holds. -/
def bootUp (s : State) (fails : List (Nat × Bool × Nat)) (flash : Option (List Byte × List Byte)) : State :=
  if clocksOff s then s
  else
    let s := if s.pwr.thermPrior then resetCause { s with pwr := { s.pwr with thermPrior := false } } 6 else s
    let first := !flag s PWR_RESET_CAUSE 0
    let s := s.fuses.entries.foldl hardSpare (strapShow s)
    let s := (fails.filter (fun f => decide (f.1 < 504) || first)).foldl assignSpare s
    let s := if first then retainedInit s else s
    let s := (List.range 6).foldl (fun s q => if domOn s (14 + q) then afeUp s q else s) (fabricUp s)
    if strapSource s = 0 then
      let s := setBoot s 1
      match flash with
      | some (p, q) => bootFlash s p q
      | none => s
    else waitImage s

/-! ### Reset events -/

/-- The device stands in a reset: 1 all but the AON domain, 2 all of it (R90). -/
def holdReset (s : State) (k : Nat) : State := { s with pwr := { s.pwr with held := if s.pwr.held < k then k else s.pwr.held } }

/-- A reset ends, unless a wider one stands. -/
def endReset (s : State) (k : Nat) : State := { s with pwr := { s.pwr with held := if s.pwr.held ≤ k then 0 else s.pwr.held } }

/-- The thermal-shutdown latch clears and THERM_TRIP_N rises (R73, R115). -/
def unlatch (s : State) : State :=
  { s with pwr := { s.pwr with thermLatch := false }, pins := { s.pins with thermTripN := true } }

/-- VDD_AON_FIRST_RISE (R90): everything is reset, the retained SRAM is invalid and the latch is not set. POR_N is low (R81). -/
def execVddAonFirstRise (s : State) : Host.Outcome State Fault Refusal :=
  let t := { s with pwr := { s.pwr with thermPrior := false, uvRails := 0, aonCount := (s.pwr.aonCount + 1) % 2 ^ 32 }
                    evr := { s.evr with bad := [] } }
  let t := resetKeep t (fun _ => false) 0 { Hif.reset with perst := s.hif.perst } Svc.reset Thm.reset
  .next (unlatch (holding s (holdReset (resetCause (loseSram t blackBox 0x2000000) 1) 2)))

/-- POR_N_LOW (R90). -/
def execPorNLow (s : State) : Host.Outcome State Fault Refusal :=
  always s fun s =>
  holdReset (resetCause (resetPor s) 2) 2

/-- The SerDes of the PCIe link adapts (R102): its die-ledger grant is always given (R104) and is held while the link trains, which no command
parts from the row that begins it. -/
def linkAdapt (s : State) : State :=
  if s.hif.linkUp && !s.pwr.thermLatch then dieRelease (dieTake s 2 4) 2 4 else s

/-- POR_N_RISE (R69, R98): the straps are sampled and the device boots; `refclk` says whether FAB_REFCLK runs (R85). -/
def execPorNRise (bootSel fabAddr : Nat) (refclk : Bool) (fails : List (Nat × Bool × Nat))
    (flash : Option (List Byte × List Byte)) (s : State) : Host.Outcome State Fault Refusal :=
  always s fun s =>
  let s := { s with pins := { s.pins with bootSel := bootSel, fabAddr := fabAddr, fabRefclk := refclk }
                    hif := { s.hif with linkUp := !s.hif.perst } }
  bootUp (linkAdapt (endReset s 2)) fails flash

/-- SYS_RST_N_LOW (R90, R91). -/
def execSysRstNLow (s : State) : Host.Outcome State Fault Refusal :=
  always s fun s =>
  holdReset (resetCause (resetCore s (keptLink s)) 3) 1

/-- SYS_RST_N_RELEASE (R95): the boot ROM runs with the straps sampled before. -/
def execSysRstNRelease (fails : List (Nat × Bool × Nat)) (flash : Option (List Byte × List Byte)) (s : State) :
    Host.Outcome State Fault Refusal :=
  always s fun s =>
  bootUp (endReset s 1) fails flash

/-- BROWNOUT (R84, R90): as SYS_RST_N, with its own cause; the boot follows. -/
def execBrownout (fails : List (Nat × Bool × Nat)) (flash : Option (List Byte × List Byte)) (s : State) :
    Host.Outcome State Fault Refusal :=
  always s fun s =>
  bootUp (resetCause (resetCore s (keptLink s)) 5) fails flash

/-- VDD_AON_UNDERVOLTAGE (R84): a whole-device reset that leaves the retained SRAM invalid. The device boots when POR_N rises after it
(R81; assumption 114). -/
def execVddAonUndervoltage (s : State) : Host.Outcome State Fault Refusal :=
  always s fun s =>
  let t := holdReset (setFlag (resetPor s) PWR_RESET_CAUSE 0 false) 2
  loseSram { t with evr := { t.evr with bad := [] } } blackBox 0x2000000

/-- VDD_CORE_REMOVAL (R115): the latched shutdown clears, THERM_TRIP_N rises, and the next boot sets THERM_PRIOR if a
shutdown was latched. What VDD_CORE supplies is lost, the PCIe link core included, and stands in reset until POR_N rises or SYS_RST_N is
released (R82; assumption 114). -/
def execVddCoreRemoval (s : State) : Host.Outcome State Fault Refusal :=
  let t := { s with pwr := { s.pwr with thermPrior := s.pwr.thermPrior || s.pwr.thermLatch } }
  .next (unlatch (holding s (holdReset (resetCore t { Hif.reset with perst := s.hif.perst }) 1)))

/-- RAIL_SEQUENCE_VIOLATION (R83): only the first is recorded. -/
def execRailSequenceViolation (group : Nat) (s : State) : Host.Outcome State Fault Refusal :=
  always s fun s =>
  if flag s PWR_SEQ_STS 31 then s else setFlag (setFld s PWR_SEQ_STS 3 0 group) PWR_SEQ_STS 31 true

/-! ### Boot events -/

/-- The source that delivers a header first supplies the image (R99): `img` is what `src` has delivered. -/
def claimImage (s : State) (src : Nat) (img : List Byte) : State :=
  if s.pwr.imageFrom = 0 && decide (256 ≤ img.length) then
    setFld { s with pwr := { s.pwr with imageFrom := src } } PWR_BOOT_STS 9 8 src
  else s

/-- A write of `PWR_BOOT_CHUNK` (R100, R101): ignored outside WAIT_IMAGE. A length outside 1 to 1,048,576, or an image that
grows beyond the largest, violates the chunk protocol. -/
def bootChunk (s : State) (v : Nat) : State :=
  if bootSt s ≠ 2 || s.pwr.imageFrom = 2 then s
  else
    let len := v % 2 ^ 21
    let img := s.pwr.image ++ sramBytes s poolBase len
    if len = 0 || 1048576 < len || 256 + 3145728 < img.length then
      let usb := if s.pwr.imageFrom = 0 then s.pwr.imageUsb else []
      let s := waitImage (setFld s PWR_BOOT_STS 23 16 7)
      { s with pwr := { s.pwr with imageUsb := usb } }
    else
      let s := claimImage s 1 img
      if v.testBit 31 then verifyImage s img
      else setFlag { s with pwr := { s.pwr with image := img } } PWR_BOOT_STS 11 true

/-- BOOT_CHUNK (R100). -/
def execBootChunk (v : Nat) (s : State) : Host.Outcome State Fault Refusal :=
  whileClocked s fun s =>
  bootChunk s v

/-- BOOT_FLASH_TIMEOUT (R99). -/
def execBootFlashTimeout (s : State) : Host.Outcome State Fault Refusal :=
  whileClocked s fun s =>
  if bootSt s = 1 then waitImage (setFld s PWR_BOOT_STS 23 16 6) else s

/-- Whole 64-byte packets of a transfer. -/
def packets64 : Nat → List Byte → List (List Byte)
  | 0, _ => []
  | k + 1, bs => bs.take 64 :: packets64 k (bs.drop 64)

/-- BULK_OUT (R532, R100). While RUNNING a transfer holds command packets for ring 15, which the device takes only while the
ring has room: a transfer that does not fit is NAKed. In WAIT_IMAGE it continues the image stream, which is verified once
its header fails or it is complete; at any other time it is NAKed. Without VBUS the port takes nothing (R54). The transfer shows that the host has configured the port (R535;
assumption 119). -/
def execBulkOut (data : List Byte) (s : State) : Host.Outcome State Fault Refusal :=
  whileClocked s fun s =>
  if !vbus s then s else
  let s := setFlag s SVC_STS 2 true
  if bootSt s = 5 then
      let k := data.length / 64
      if 64 < s.svc.sq.length + k then s
      else
        let s := { s with svc := { s.svc with sq := s.svc.sq ++ packets64 k data } }
        let s := wrN s SVC_CMDS (satN (2 ^ 32 - 1) (rdN s SVC_CMDS + k))
        if data.length % 64 = 0 then s else setFlag s SVC_STS 8 true
    else if bootSt s = 2 && s.pwr.imageFrom != 1 && !data.isEmpty then
      let img := s.pwr.imageUsb ++ data
      let len := imgField img 8 4
      let s := claimImage { s with pwr := { s.pwr with imageUsb := img } } 2 img
      if img.length < 256 then s
      else if img.length < 256 + len && len ≤ 3145728 then s
      else verifyImage s img
    else s

end Sys2Proof.Machine
end

