-- ==== Sys2Proof/Machine/Access.lean ====
section
/-!
DEFINITION. Accesses to BAR0 and BAR2: registers under their access codes and classes (R13 to R21, R89, R596, R597), the
SRAM aperture (R47, R48), device DRAM (R120) and the rings' registers and doorbells (R123 to R132).
-/

namespace Sys2Proof.Machine

/-! ### Rings -/

/-- The ring that a HIF register belongs to, and its offset within the ring's registers (R132). -/
def ringOf (a : Nat) : Nat := (a - 0x30100) / 0x40

/-- A register of the rings. -/
def hifReg (a : Nat) : Bool := decide (0x30100 ≤ a) && decide (a < 0x30500) && regListed a

/-- The block of ring `n` is idle for its class S fields (R132). -/
def ringIdle (s : State) (n : Nat) : Bool := !flag s (HIF_SQ_CFG n) 15 && fld s (HIF_SQ_STS n) 24 16 == 0

/-- The tail that the doorbell set (R124). -/
def sqTail (s : State) (n : Nat) : Nat := mget 0 s.hif.sqTail n

/-- The completion slots consumed by the host, as an index (R126). -/
def cqHead (s : State) (n : Nat) : Nat := mget 0 s.hif.cqHead n

/-- Completions written and not yet returned. -/
def cqFilled (s : State) (n : Nat) : Nat := (fld s (HIF_CQ_TAIL n) 11 0 + cqSize s n - cqHead s n) % cqSize s n

/-- Head and tail of a submission ring return to 0 (R127). -/
def sqRestart (s : State) (n : Nat) : State :=
  wrN { s with hif := { s.hif with sqTail := mset s.hif.sqTail n 0 } } (HIF_SQ_HEAD n) 0

/-- Head and tail of a completion ring return to 0 and its phase to 1 (R126, R127). -/
def cqRestart (s : State) (n : Nat) : State :=
  wr { s with hif := { s.hif with cqHead := mset s.hif.cqHead n 0 } } (HIF_CQ_TAIL n) (regReset (HIF_CQ_TAIL n))

/-- A doorbell of a submission ring (R124, R128); ring 15 has none for the host (R132). -/
def sqDoorbell (s : State) (n v : Nat) : State :=
  if n = 15 then s
  else if sqSize s n ≤ v % 4096 then setFlag s (HIF_SQ_STS n) 1 true
  else { s with hif := { s.hif with sqTail := mset s.hif.sqTail n (v % 4096) } }

/-- A doorbell of a completion ring (R126, R128). -/
def cqDoorbell (s : State) (n v : Nat) : State :=
  let h := v % 4096
  if n = 15 then s
  else if cqSize s n ≤ h || cqFilled s n < (h + cqSize s n - cqHead s n) % cqSize s n then setFlag s (HIF_SQ_STS n) 1 true
  else { s with hif := { s.hif with cqHead := mset s.hif.cqHead n h } }

/-- The word of a ring 15 register that stands for the service port's ring (R132, R532): enabled and active, weight 3, 64
entries. -/
def ring15Word (s : State) (a : Nat) : Word :=
  if a = HIF_SQ_CFG 15 then 0x8306
  else if a = HIF_CQ_CFG 15 then 6
  else if a = HIF_SQ_STS 15 then setBits (rd s a) 0 0 1
  else rd s a

/-! ### Latching reads -/

/-- The words that a read of a LO word latches (R596). -/
def latchedBy (a : Nat) : List Nat :=
  if a = FTM_TIME_LO then [FTM_TIME_HI, FTM_FRAC]
  else if a = TOP_SERIAL_LO || a = SEQ_TICK_LO || a = AX_GROUP_TIME_LO || a = DMA_ERR_ADDR_LO || a = CMP_REC_WRITE_LO ||
      (List.range 32).any (fun d => a == FAB_BULK_OFF_LO d || a == DMA_CH_DONE_LO d) ||
      a = DDR_CH_CE_ADDR_LO 0 || a = DDR_CH_CE_ADDR_LO 1 ||
      lanes24.any (fun n => a == AFE_PD_CAL_TIME_LO n 0 || a == AFE_PD_CAL_TIME_LO n 1) then [a + 4]
  else []

/-- The word that the register at `a` shows: the tick number follows fabric time (R38), ring 15 the service port. -/
def wordAt (s : State) (a : Nat) : Word :=
  if a = SEQ_TICK_LO then BitVec.ofNat 32 (tickNo s)
  else if a = SEQ_TICK_HI then BitVec.ofNat 32 (tickNo s / 2 ^ 32)
  else if hifReg a && ringOf a = 15 then ring15Word s a
  else rd s a

/-- A plain register read: a LO word latches its partners; a latched word returns what was latched. -/
def plainRead (s : State) (a : Nat) : State × Nat :=
  if !regListed a then (s, 0)
  else
    let s' := { s with latched := (latchedBy a).foldl (fun m b => mset m b (wordAt s b)) s.latched }
    (s', (mget (wordAt s a) s.latched a).toNat)

/-- First SRAM byte of the aperture (R47). -/
def apertureBase (s : State) : Nat := fld s TOP_SRAM_APERTURE 4 0 * 2 ^ 20

/-- A 32-bit read of BAR0 at `a` by master `id` (R89, R114, R596, R597). -/
def regRead (s : State) (id a : Nat) : State × Nat :=
  if 0x2000000 ≤ a then (s, 0)
  else if s.pwr.thermLatch then (if 0x10000 ≤ a && a < 0x30000 then plainRead s a else (s, 2 ^ 32 - 1))
  else if 0x1000000 ≤ a then (s, leNat (sramBytes s (apertureBase s + (a - 0x1000000)) 4))
  else if !domOn s (domainOf a) then (setFlag s PWR_STS 31 true, 2 ^ 32 - 1)
  else if 0x260000 ≤ a && a < 0x260800 && a % 0x80 < 0x40 then mbxRead s id ((a - 0x260000) / 0x80) (a % 0x80 / 4)
  else if EVR_WIN 0 ≤ a && a < EVR_WIN 512 then evrWinRead s ((a - EVR_WIN 0) / 4)
  else plainRead s a

/-! ### Register writes -/

/-- The condition under which the class S fields of the register at `a` take a write, and where CFG_IGNORED stands (R17,
R132, R201, R234, R261, R330, R355, R451). -/
def staticGate (s : State) (a : Nat) : Bool × Nat × Nat :=
  if hifReg a then (ringIdle s (ringOf a), HIF_SQ_STS (ringOf a), 3)
  else if a = SEQ_CFG then (!inLayer s, SEQ_STS, 8)
  else if a < 0x160000 then
    let n := (a - 0x100000) / 0x4000
    let o := (a - 0x100000) % 0x4000
    if o < 0x800 then (!flag s (SCN_STS n) 11 && !laneInLayer s n, SCN_STS n, 12)
    else if o < 0x1000 then (!laneInLayer s n, LAS_STS n, 9)
    else (!laneInLayer s n, LOOP_STS n, 17)
  else if a < 0x190000 then (camIdle s ((a - 0x180000) / 0x1000), CAM_STS ((a - 0x180000) / 0x1000), 8)
  else (portIdle s ((a - FAB_P_CFG 0) / 0x40), FAB_P_STS ((a - FAB_P_CFG 0) / 0x40), 7)

/-- One field of a register written (R14, R17 to R19). `gate` is the register's condition for class S fields. -/
def fieldWrite (s : State) (a v : Nat) (gate : Bool × Nat × Nat) (f : Field) : State :=
  let x := natBits v f.hi f.lo
  match f.acc with
  | .ro | .wo => s
  | .w1c => setFld s a f.hi f.lo (fld s a f.hi f.lo - (fld s a f.hi f.lo &&& x))
  | .w1s => setFld s a f.hi f.lo (fld s a f.hi f.lo ||| x)
  | .rw | .rwl =>
    match f.cls with
    | .none => setFld s a f.hi f.lo x
    | .s => if gate.1 then setFld s a f.hi f.lo x else setFlag s gate.2.1 gate.2.2 true
    | .l => setLive s a f.hi f.lo x
    | .c g => setShadow s g a f.hi f.lo x
    | .ctx => { s with shadow := mset s.shadow a (setBits (shadowOf s a) f.hi f.lo x) }

/-- What a write of a ring's configuration does beyond its fields (R127): BASE, and a SIZE_LOG2 that changes, restart the
ring (assumption 24). -/
def ringWritten (old s : State) (a : Nat) : State :=
  let n := ringOf a
  if !ringIdle old n then s
  else if a = HIF_SQ_BASE_LO n || a = HIF_SQ_BASE_HI n then sqRestart s n
  else if a = HIF_SQ_CFG n then (if fld old a 3 0 = fld s a 3 0 then s else sqRestart s n)
  else if a = HIF_CQ_BASE_LO n || a = HIF_CQ_BASE_HI n || a = HIF_CQ_CFG n then cqRestart s n
  else s

/-- The fields of the register at `a` written. -/
def plainWrite (s : State) (a v : Nat) : State :=
  match regAt a with
  | none => s
  | some (r, _, _) => r.fields.foldl (fun t f => fieldWrite t a v (staticGate s a) f) s

/-- A 32-bit write of BAR0 at `a` by master `id` (R14, R89, R596, R597). Logic that stands in reset takes none (R90). -/
def regWrite (s : State) (id a v : Nat) : State :=
  if 0x2000000 ≤ a then s
  else if s.pwr.thermLatch then (if 0x10000 ≤ a && a < 0x30000 then plainWrite s a v else s)
  else if s.pwr.held != 0 && (s.pwr.held == 2 || 0x1000000 ≤ a || domainOf a != 0) then s
  else if 0x1000000 ≤ a then
    let p := apertureBase s + (a - 0x1000000)
    if poolBase ≤ p && p < 0x1CE0000 then putSram s p (leBytes 4 v) else s
  else if !domOn s (domainOf a) then setFlag s PWR_STS 31 true
  else if 0x260000 ≤ a && a < 0x260800 then
    let n := (a - 0x260000) / 0x80
    if a % 0x80 < 0x40 then mbxWriteMsg s id n (a % 0x80 / 4) v
    else if a = MBX_CH_GO n then mbxWriteGo s id n v
    else if a = MBX_CH_STS n then mbxClear s id n v
    else s
  else if a = PWR_BOOT_CHUNK then bootChunk s v
  else if a = LEDG_SHUTTER then (if v.testBit 31 then shutterClear s else s)
  else if a = CMP_REC_READ_HI then recReadHi s v
  else if a = TOP_SRAM_APERTURE then (if bootSt s = 5 then plainWrite s a v else s)
  else if hifReg a then
    let n := ringOf a
    if n = 15 then s
    else if a = HIF_SQ_TAIL n then sqDoorbell s n v
    else if a = HIF_CQ_HEAD n then cqDoorbell s n v
    else ringWritten s (plainWrite s a v) a
  else if 0x100000 ≤ a && a < 0x160000 && a % 0x4000 = SCN_LINK_CFG 0 % 0x4000 then
    linkWrite s (plainWrite s a v) ((a - 0x100000) / 0x4000)
  else plainWrite s a v

/-- REGISTER_WRITE: a write of fewer than four bytes (`full` false) is discarded (R596). -/
def execRegisterWrite (off v : Nat) (full : Bool) (s : State) : Host.Outcome State Fault Refusal :=
  always s fun s =>
  if full && off % 4 == 0 then regWrite s 0 off v else s

/-- An aperture read of the SRAM word at `a` meets its ECC (R48, R491): `ecc` is 0 good, 1 correctable, 2 uncorrectable. -/
def apertureEcc (s : State) (off ecc : Nat) : State :=
  if off < 0x1000000 || 0x2000000 ≤ off || clocksOff s then s
  else sramEcc s (apertureBase s + (off - 0x1000000)) ecc .aperture

/-- LATCHING_READ (R596): a read of BAR0; `ecc` is what a read through the SRAM aperture meets there. The stored word is returned whatever it
is (R48). -/
def execLatchingRead (off ecc : Nat) (s : State) : Host.Outcome State Fault Refusal :=
  always s fun s =>
  let a := off - off % 4
  let (s, v) := regRead s 0 a
  { apertureEcc s a ecc with readData := v }

/-- OFF_DOMAIN_ACCESS (R89): a read or write in a block whose domain is off. -/
def execOffDomainAccess (off : Nat) (write : Bool) (s : State) : Host.Outcome State Fault Refusal :=
  whileClocked s fun s =>
  if domOn s (domainOf off) || 0x1000000 ≤ off then s
    else
      let s := setFlag s PWR_STS 31 true
      if write then s else { s with readData := 2 ^ 32 - 1 }

/-! ### Class L fields -/

/-- A class L write takes effect (R18); values of the aperture above 16 are taken as 16 (R47). -/
def liveApply (s : State) (e : Nat × Word × Word) : State :=
  let w := (rd s e.1 &&& ~~~e.2.1) ||| e.2.2
  let s := wr s e.1 (if e.1 = TOP_SRAM_APERTURE then setBits w 4 0 (satN 16 (bitsOf w 4 0)) else w)
  if hifReg e.1 && e.2.1 == 0x8000 then
    setFlag s (HIF_SQ_STS (ringOf e.1)) 0 (flag s e.1 15 && !flag s (HIF_SQ_STS (ringOf e.1)) 2)
  else s

/-- LIVE_FIELD_APPLY: the first tick boundary after the writes (R18). The commands that wrote class L fields complete
(R347, R353, R515). -/
def execLiveFieldApply (s : State) : Host.Outcome State Fault Refusal :=
  whileClocked s fun s =>
  let s := loopTakes s
  let s := s.live.foldl liveApply { s with live := [] }
  let s := finishAll (finishAll s 0x0503 0 .ok (tickNo s) 0 0 0) 0x0504 0 .ok (tickNo s) 0 0 0
  (List.range 32).foldl (fun s c => finishAll s 0x0903 c .ok 0 0 0 0) s

/-! ### Memory windows -/

/-- One byte through the aperture: it lands in the general pool alone (R47). -/
def aperturePut (s : State) (p : Nat) (b : Byte) : State :=
  if poolBase ≤ p && p < 0x1CE0000 then putSram s p [b] else s

/-- APERTURE_WRITE: bytes written from BAR0 offset `off`. -/
def execApertureWrite (off : Nat) (data : List Byte) (s : State) : Host.Outcome State Fault Refusal :=
  whileClocked s fun s =>
  if off < 0x1000000 || 0x2000000 < off + data.length then s
    else
      (data.foldl (fun (t : State × Nat) b => (aperturePut t.1 t.2 b, t.2 + 1)) (s, apertureBase s + (off - 0x1000000))).1

/-- The 32-bit words from `a`, each from memory or all ones (R120). -/
def bar2Words (s : State) : Nat → Nat → List Byte
  | _, 0 => []
  | a, k + 1 => (if dramOk s a 4 then dramBytes s a 4 else leBytes 4 (2 ^ 32 - 1)) ++ bar2Words s (a + 4) k

/-- Words of `data` written from `a`, each discarded where no READY channel holds it (R120). -/
def bar2Put : State → Nat → Nat → List Byte → State
  | s, _, 0, _ => s
  | s, a, k + 1, data => bar2Put (if dramOk s a 4 then putDram s a (data.take 4) else s) (a + 4) k (data.drop 4)

/-- BAR2_ACCESS: `len` words at `addr` (R120). `ecc` is what a read meets there: 0 good, 1 correctable, 2 uncorrectable. -/
def execBar2Access (addr : Nat) (write : Bool) (len : Nat) (data : List Byte) (ecc : Nat) (s : State) :
    Host.Outcome State Fault Refusal :=
  always s fun s =>
  let a := addr - addr % 4
  if s.pwr.thermLatch then (if write then s else { s with readData := 2 ^ (32 * len) - 1 })
    else if write then bar2Put s a len (data.take (4 * len))
    else
      let v := leNat (bar2Words s a len)
      let s := if dramOk s a 4 then eccCheck s (chanOf s a) a ecc .bar2 else s
      { s with readData := v }

/-! ### Rows of the rings -/

/-- HIF_SQ_TAIL (R124, R128). -/
def execHifSqTail (n v : Nat) (s : State) : Host.Outcome State Fault Refusal :=
  whileClocked s fun s =>
  regWrite s 0 (HIF_SQ_TAIL n) v

/-- HIF_CQ_HEAD (R126, R128). -/
def execHifCqHead (n v : Nat) (s : State) : Host.Outcome State Fault Refusal :=
  whileClocked s fun s =>
  regWrite s 0 (HIF_CQ_HEAD n) v

/-- RING_BASE_WRITE (R127): `reg` names BASE_LO, BASE_HI and CFG of the submission ring (0 to 2) or of the completion ring
(3 to 5). -/
def execRingBaseWrite (n reg v : Nat) (s : State) : Host.Outcome State Fault Refusal :=
  whileClocked s fun s =>
  regWrite s 0
    (match reg with
     | 0 => HIF_SQ_BASE_LO n
     | 1 => HIF_SQ_BASE_HI n
     | 2 => HIF_SQ_CFG n
     | 3 => HIF_CQ_BASE_LO n
     | 4 => HIF_CQ_BASE_HI n
     | _ => HIF_CQ_CFG n) v

/-- SQ_ENABLE: a write of ENABLE, which is class L (R132); ring 15 takes none. -/
def execSqEnable (n : Nat) (on : Bool) (s : State) : Host.Outcome State Fault Refusal :=
  whileClocked s fun s =>
  if n = 15 then s else setLive s (HIF_SQ_CFG n) 15 15 (b2n on)

end Sys2Proof.Machine
end

