-- ==== Sys2Proof/Machine/AxisPlan.lean ====
section
/-!
DEFINITION. The motion of the stepper axes (R382 to R389): profiles from rest and from a state in motion, stops, and the
position at a time.
-/

namespace Sys2Proof.Machine

/-! ### Jerk-limited profiles from a state in motion (R384, R388) -/

/-- The time-optimal segments from speed `v0` and acceleration `a0` to the steady speed `vp`: acceleration at most `up`
upwards and `dn` downwards, jerk `j`. -/
def velSegs (v0 a0 vp : Int) (up dn j : Nat) : List Seg :=
  if j = 0 then []
  else
    let half := a0 * (a0.natAbs : Int) / (2 * j)
    let rising := decide (v0 + half ≤ vp)
    let sg : Int := if rising then 1 else -1
    let a := sg * a0
    let lim := if rising then up else dn
    let dv := sg * (vp - v0)
    let ap0 := isqrt ((j : Int) * dv + a * a / 2).toNat
    let ap := if ap0 < lim then ap0 else lim
    let t1 := (((ap : Int) - a).natAbs * fsPerS) / j
    let d1 : Int := if a ≤ ap then 1 else -1
    let used := if a ≤ ap then (2 * (ap : Int) * ap - a * a) / (2 * j) else a * a / (2 * j)
    let t2 := if ap = 0 || ap0 < lim then 0 else ((dv - used) * fsPerS / ap).toNat
    let t3 := ap * fsPerS / j
    [⟨t1, sg * d1 * j⟩, ⟨t2, 0⟩, ⟨t3, -sg * j⟩]

/-- The segments reversed in direction. -/
def negSegs (l : List Seg) : List Seg := l.map (fun g => ⟨g.dur, -g.jerk⟩)

/-- The last segment of a list cut by `d` fs. -/
def cutLast (d : Nat) : List Seg → List Seg
  | [] => []
  | [g] => [⟨g.dur - d, g.jerk⟩]
  | g :: gs => g :: cutLast d gs

/-- The segments from a speed `v0 > 0` through rest to `vp < 0`, with the limit `dec` while speed falls and `acc` while it rises
again (R384, R388): acceleration is as strong as both limits and the jerk allow, so where the one at rest has to be the weaker
limit the course passes through rest at it. -/
def crossSegs (v0 a0 vp : Int) (acc dec j : Nat) : List Seg :=
  let x : Nat := if acc < dec then acc else dec
  let xx : Int := x * x
  if 2 * j * v0 + a0 * a0 ≤ xx then velSegs v0 a0 vp acc acc j
  else if -(2 * j * vp) ≤ xx then velSegs v0 a0 vp dec dec j
  else cutLast (x * fsPerS / j) (velSegs v0 a0 (-(xx / (2 * j))) dec dec j) ++ velSegs 0 (-(x : Int)) vp acc acc j

/-- The time-optimal segments from speed `v0` and acceleration `a0` to the steady speed `vp`: acceleration at most `acc` while
speed rises and `dec` while it falls, jerk `j` (R384). -/
def speedSegs (v0 a0 vp : Int) (acc dec j : Nat) : List Seg :=
  if v0 < 0 || (v0 == 0 && vp < 0) then
    negSegs (if 0 < vp then crossSegs (-v0) (-a0) (-vp) acc dec j else velSegs (-v0) (-a0) (-vp) acc dec j)
  else if vp < 0 then crossSegs v0 a0 vp acc dec j
  else velSegs v0 a0 vp acc dec j

/-- The profile that passes through the steady speed `vp` and comes to rest. -/
def viaProf (v0 a0 vp : Int) (up dn j hold : Nat) : Prof :=
  ⟨v0, a0, speedSegs v0 a0 vp up dn j ++ [⟨hold, 0⟩] ++ speedSegs vp 0 0 up dn j⟩

/-- Its distance in 2^−16 units without a hold. -/
def viaDist (v0 a0 vp : Int) (up dn j : Nat) : Int :=
  let p := viaProf v0 a0 vp up dn j 0
  Kin.dist16 (Prof.at p (Prof.dur p))

/-- The highest speed in `[lo, hi]` whose distance does not exceed `len`, by bisection. -/
def viaSpeed (v0 a0 : Int) (up dn j : Nat) (len : Int) : Nat → Int → Int → Int
  | 0, lo, _ => lo
  | k + 1, lo, hi =>
    if hi ≤ lo then lo
    else
      let m := (lo + hi + 1) / 2
      if viaDist v0 a0 m up dn j ≤ len then viaSpeed v0 a0 up dn j len k m hi
      else viaSpeed v0 a0 up dn j len k lo (m - 1)

/-- The profile from `v0`, `a0` to rest at distance `len` (2^−16 units, ahead), and whether it reverses. -/
def planS (v0 a0 : Int) (vmax acc dec j : Nat) (len : Int) : Prof × Bool :=
  let stopAt := viaDist v0 a0 0 acc dec j
  if 0 ≤ v0 && decide (stopAt ≤ len) then
    let vp := viaSpeed v0 a0 acc dec j len 72 0 vmax
    let rest := (len - viaDist v0 a0 vp acc dec j).toNat
    (viaProf v0 a0 vp acc dec j (if vp = 0 then 0 else rest * fsPerS / (65536 * vp.toNat)), false)
  else
    let vp := viaSpeed v0 a0 acc dec j len 72 (-(vmax : Int)) vmax
    let w := if vp < 0 then vp + 1 else vp
    let rest := (len - viaDist v0 a0 w acc dec j).natAbs
    (viaProf v0 a0 w acc dec j (if w = 0 then 0 else rest * fsPerS / (65536 * w.natAbs)), true)

/-! ### Stepped profiles (R385, R388) -/

/-- Distance of a leg after `t` fs, in 2^−16 steps. -/
def Leg.dist16 (l : Leg) (t : Nat) : Int :=
  (2 * l.v * t * fsPerS + l.a * t * t) * 32768 / ((fsPerS : Int) * fsPerS)

/-- Distance in 2^−16 steps and speed along legs after `t` fs; at rest after the last. -/
def legsAt : List Leg → Nat → Int × Int
  | [], _ => (0, 0)
  | l :: ls, t =>
    if t < l.dur then (l.dist16 t, l.v + l.a * t / fsPerS)
    else
      let (d, v) := legsAt ls (t - l.dur)
      (l.dist16 l.dur + d, v)

/-- Duration of legs. -/
def legsDur (ls : List Leg) : Nat := sumN (ls.map (·.dur))

/-- The leg of a change of speed at a rate. -/
def rampLeg (v0 v1 rate : Nat) : Leg :=
  if rate = 0 then ⟨0, v0, 0⟩
  else if v0 ≤ v1 then ⟨(v1 - v0) * fsPerS / rate, v0, rate⟩ else ⟨(v0 - v1) * fsPerS / rate, v0, -(rate : Int)⟩

/-- Distance of a change of speed at a rate, in 2^−16 steps. -/
def rampDist (v0 v1 rate : Nat) : Nat :=
  if rate = 0 then 0 else (if v0 ≤ v1 then v1 * v1 - v0 * v0 else v0 * v0 - v1 * v1) * 32768 / rate

/-- The legs of a move from rest over `len` (R385). -/
def trapFresh (vs ve vmax a d len : Nat) : List Leg :=
  let vp0 := if a + d = 0 then vmax else isqrt ((2 * a * d * len / 65536 + d * vs * vs + a * ve * ve) / (a + d))
  let vp := if vmax < vp0 then vmax else vp0
  if vp < vs || vp < ve then
    let u := if vs < ve then vs else ve
    let u := if vmax < u then vmax else u
    [⟨if u = 0 then 0 else len * fsPerS / (65536 * u), u, 0⟩]
  else
    let hold := len - (rampDist vs vp a + rampDist vp ve d)
    [rampLeg vs vp a, ⟨if vp = 0 then 0 else hold * fsPerS / (65536 * vp), vp, 0⟩, rampLeg vp ve d]

/-- The legs reversed in direction. -/
def negLegs (ls : List Leg) : List Leg := ls.map (fun l => ⟨l.dur, -l.v, -l.a⟩)

/-- The legs from speed `v` towards a target `len` ahead, negative for one behind (R388): a reversal falls to VSTOP, waits
while DIR changes for `gap` fs (R380), and starts afresh. -/
def trapFrom (v vs ve vmax a d : Nat) (len : Int) (gap : Nat) : List Leg × Bool :=
  let sd : Int := if v ≤ ve then 0 else rampDist v ve d
  if sd ≤ len then
    let n := len.toNat
    let vp0 := if a + d = 0 then vmax else isqrt ((2 * a * d * n / 65536 + d * v * v + a * ve * ve) / (a + d))
    let vp := if vmax < v then vmax else if vmax < vp0 then vmax else vp0
    let hold := n - (rampDist v vp (if v ≤ vp then a else d) + rampDist vp ve d)
    ([rampLeg v vp (if v ≤ vp then a else d), ⟨if vp = 0 then 0 else hold * fsPerS / (65536 * vp), vp, 0⟩, rampLeg vp ve d],
     false)
  else
    (rampLeg v (if v ≤ ve then v else ve) d :: ⟨gap, 0, 0⟩ :: negLegs (trapFresh vs ve vmax a d (sd - len).toNat), true)

/-! ### Plans -/

/-- The profile time of a plan: SYNC stretches its own duration to `dur` (R387). -/
def AxisPlan.time (p : AxisPlan) (t : Nat) : Nat := if p.dur = p.own || p.dur = 0 then t else t * p.own / p.dur

/-- Position in 2^−16 steps `t` fs after the start. -/
def AxisPlan.pos16 (p : AxisPlan) (t : Nat) : Int :=
  if p.dur ≤ t then p.target * 65536
  else
    let d := if p.scurve then Kin.dist16 (Prof.at p.prof (p.time t)) else (legsAt p.legs (p.time t)).1
    if p.neg then p.from16 - d else p.from16 + d

/-- Signed speed and acceleration `t` fs after the start. -/
def AxisPlan.velAcc (p : AxisPlan) (t : Nat) : Int × Int :=
  if p.dur ≤ t then (0, 0)
  else
    let (v, a) := if p.scurve then (let k := Prof.at p.prof (p.time t); (Kin.speed k, Kin.accel k))
                  else ((legsAt p.legs (p.time t)).2, 0)
    if p.neg then (-v, -a) else (v, a)

/-- The count of steps at a position in 2^−16 steps: a step counts when the position crosses it (R380, R382). -/
def steps16 (neg : Bool) (p : Int) : Int := if neg then -((-p) / 65536) else p / 65536

/-- The limits that govern axis `k`: those of the move in progress, else the registers' (R386, R388). -/
def axVmax (s : State) (k : Nat) : Nat :=
  let v := (axis s k).vmax
  if v ≠ 0 && v < rdN s (AX_VMAX k) then v else rdN s (AX_VMAX k)
def axAccel (s : State) (k : Nat) : Nat := if (axis s k).accel ≠ 0 then (axis s k).accel else rdN s (AX_ACCEL k)
def axDecel (s : State) (k : Nat) : Nat := if (axis s k).decel ≠ 0 then (axis s k).decel else rdN s (AX_DECEL k)
def axJerk (s : State) (k : Nat) : Nat := rdN s (AX_JERK k) * 1000

/-- A plan of axis `k` from a position in 2^−16 steps, signed speed and acceleration to `target`, at most at `vmax`. -/
def planAxis (s : State) (k : Nat) (from16 v a target : Int) (vmax : Nat) : State × AxisPlan :=
  let len := target * 65536 - from16
  let neg := decide (len < 0)
  let sg : Int := if neg then -1 else 1
  let base : AxisPlan := ⟨from16, target, neg, decide (k < 2), ⟨0, 0, []⟩, [], 0, 0, 0, true, false⟩
  if k < 2 then
    let (p, r) := planS (sg * v) (sg * a) vmax (axAccel s k) (axDecel s k) (axJerk s k) (sg * len)
    (s, { base with prof := p, own := Prof.dur p, dur := Prof.dur p, reverses := r })
  else
    let vs := rdN s (AX_VSTART k)
    let ve := rdN s (AX_VSTOP k)
    if v = 0 then
      let ls := trapFresh vs ve vmax (axAccel s k) (axDecel s k) (sg * len).toNat
      (s, { base with legs := ls, own := legsDur ls, dur := legsDur ls })
    else
      -- the gap while DIR changes is at least twice DIR_SETUP (R380); how much longer is free
      let gap := (2 * fld s (AX_STEP_TIMING k) 31 16 + Config.freeNat s.freeCtr) * 1000000
      -- legs run in the direction of motion, which may be away from the target
      let dir : Int := if v < 0 then -1 else 1
      let (ls, r) := trapFrom v.natAbs vs ve vmax (axAccel s k) (axDecel s k) (dir * len) gap
      (if r then tick1 s else s,
       { base with neg := decide (v < 0), legs := ls, own := legsDur ls, dur := legsDur ls, reverses := r })

/-- A steady run of axis `k` from rest in one direction at `speed`, for a homing search (R401): it has no end of its own. -/
def planRun (s : State) (k : Nat) (positive : Bool) (speed : Nat) : AxisPlan :=
  let p0 := rdI s (AX_POS k)
  let far := 10 ^ 30
  let tgt : Int := if positive then p0 + (rdN s (AX_HOME_TRAVEL k) : Int) else p0 - (rdN s (AX_HOME_TRAVEL k) : Int)
  let base : AxisPlan := ⟨p0 * 65536, tgt, !positive, decide (k < 2), ⟨0, 0, []⟩, [], far, far, 0, true, false⟩
  if k < 2 then { base with prof := ⟨0, 0, velSegs 0 0 speed (axAccel s k) (axDecel s k) (axJerk s k)⟩ }
  else
    let vs := satN speed (rdN s (AX_VSTART k))
    { base with legs := [rampLeg vs speed (axAccel s k), ⟨far, speed, 0⟩] }

/-- The controlled deceleration of a motion to rest (R396, R401): its plan, whose target is the rest point. -/
def planStop (s : State) (k : Nat) (from16 v a : Int) : AxisPlan :=
  let neg := decide (v < 0)
  let sg : Int := if neg then -1 else 1
  let base : AxisPlan := ⟨from16, 0, neg, decide (k < 2), ⟨0, 0, []⟩, [], 0, 0, 0, true, false⟩
  if k < 2 then
    let p : Prof := ⟨sg * v, sg * a, speedSegs (sg * v) (sg * a) 0 (axAccel s k) (axDecel s k) (axJerk s k)⟩
    let d := Kin.dist16 (Prof.at p (Prof.dur p))
    { base with prof := p, own := Prof.dur p, dur := Prof.dur p, target := steps16 neg (from16 + sg * d) }
  else
    let ve := rdN s (AX_VSTOP k)
    let l := rampLeg v.natAbs (if v.natAbs ≤ ve then v.natAbs else ve) (axDecel s k)
    let d := l.dist16 l.dur
    { base with legs := [l], own := l.dur, dur := l.dur, target := steps16 neg (from16 + sg * d) }

/-- Position in 2^−16 steps, speed and acceleration of axis `k` now. -/
def axKin (s : State) (k : Nat) : Int × Int × Int :=
  match (axis s k).plan with
  | none => (rdI s (AX_POS k) * 65536, 0, 0)
  | some p => let (v, a) := p.velAcc p.t; (p.pos16 p.t, v, a)

end Sys2Proof.Machine
end

