-- ==== Sys2Proof/Machine/Axes.lean ====
section
/-!
DEFINITION. The stepper axes (R379 to R411): states, commands, boundaries, limits, encoders, switches and homing.
-/

namespace Sys2Proof.Machine

/-! ### Position, encoder and deviation -/

/-- The axes. -/
def axes8 : List Nat := List.range 8

/-- The encoder position follows the count, and with an encoder the deviation from `pos` (R393, R394). -/
def encShowAt (s : State) (k : Nat) (pos : Int) : State :=
  if !hasEncoder s k then s
  else
    let a := axis s k
    let c := if flag s (AX_CFG k) 3 then -a.encCount else a.encCount
    let e := rdiv (c * rdI s (AX_ENC_RATIO k)) 65536 + a.encOffset
    let s := wrI (wrI s (AX_ENC_RAW k) a.encCount) (AX_ENC_POS k) e
    let d := pos - e
    let s := wrI s (AX_DEV k) d
    let over_ := decide (fld s (AX_DEV_WIN k) 15 0 < d.natAbs)
    let s := setFlag s (AX_STS k) 16 over_
    let s := updAxis s k (fun a => { a with devSince := if over_ then some (a.devSince.getD (now s)) else none })
    if rdN s (AX_DEV_MAX k) < d.natAbs then wrN s (AX_DEV_MAX k) (satN (2 ^ 32 - 1) d.natAbs) else s

/-- The encoder position at the present `AX_POS`. -/
def encShow (s : State) (k : Nat) : State := encShowAt s k (rdI s (AX_POS k))

/-- The encoder offset is set so that the encoder position equals `AX_POS` (R393). -/
def encAlign (s : State) (k : Nat) : State :=
  let a := axis s k
  let c := if flag s (AX_CFG k) 3 then -a.encCount else a.encCount
  encShow (updAxis s k (fun a => { a with encOffset := rdI s (AX_POS k) - rdiv (c * rdI s (AX_ENC_RATIO k)) 65536 })) k

/-- `AX_POS`, `AX_VEL` and DIR follow the plan (R379, R382). -/
def axShow (s : State) (k : Nat) : State :=
  match (axis s k).plan with
  | none => wrN s (AX_VEL k) 0
  | some p =>
    let (v, _) := p.velAcc p.t
    let s := wrI (wrI s (AX_POS k) (steps16 p.neg (p.pos16 p.t))) (AX_VEL k) v
    if v = 0 then s else setFlag s (AX_STS k) 14 (decide (0 < v) != flag s (AX_CFG k) 1)

/-- The reference input of homing: 0 LIMP, 1 LIMN, 2 HOME (R401; REF 3 is taken as 0). -/
def homeRef (s : State) (k : Nat) : Nat :=
  match fld s (AX_HOME_CFG k) 31 30 with
  | 1 => 1
  | 2 => 0
  | _ => 2

/-- Filtered and raw state of input `i` (0 LIMP, 1 LIMN, 2 HOME), and whether it is enabled. -/
def swOn (s : State) (k i : Nat) : Bool := flag s (AX_SW_STS k) i
def swRaw (s : State) (k i : Nat) : Bool := flag s (AX_SW_STS k) (3 + i)
def swEn (s : State) (k i : Nat) : Bool := flag s (AX_SW_CFG k) (3 + i)

/-- The filtered state of input `i` in both its places. -/
def setSw (s : State) (k i : Nat) (b : Bool) : State := setFlag (setFlag s (AX_SW_STS k) i b) (AX_STS k) (13 - i) b

/-- Motion of axis `k` in a direction (positive or not) would run towards a locked limit or an active limit input (R391). -/
def axBlocked (s : State) (k : Nat) (positive : Bool) : Bool :=
  if positive then flag s (AX_STS k) 20 || swOn s k 0 else flag s (AX_STS k) 19 || swOn s k 1

/-- Soft limits are in force (R390). -/
def softOn (s : State) (k : Nat) : Bool := flag s (AX_CFG k) 7 && flag s (AX_STS k) 23

/-- A position lies within the soft limits, if they are in force. -/
def softOk (s : State) (k : Nat) (p : Int) : Bool :=
  !softOn s k || (decide (rdI s (AX_SOFT_MIN k) ≤ p) && decide (p ≤ rdI s (AX_SOFT_MAX k)))

/-- `AX_GROUP_STS.START_PENDING` and `AX_GROUP_TIME` follow the pending starts (R410). -/
def startShow (s : State) : State :=
  let t := match s.groupStart with
           | some g => g.time
           | none => match s.resumeStart with
                     | some g => g.time
                     | none => rd64 s AX_GROUP_TIME_LO AX_GROUP_TIME_HI
  wr64 (setFlag s AX_GROUP_STS 16 (s.groupStart.isSome || s.resumeStart.isSome)) AX_GROUP_TIME_LO AX_GROUP_TIME_HI t

/-- Motion of axis `k` is positive, negative or none. -/
def axHeading (s : State) (k : Nat) : Int := if axMovingNow s k then rdI s (AX_VEL k) else 0

/-- The lock of a limit clears while its input reads inactive and the axis moves away from it (R391). -/
def lockClear (s : State) (k : Nat) : State :=
  let s := if axHeading s k < 0 && !swOn s k 0 then setFlag s (AX_STS k) 20 false else s
  if 0 < axHeading s k && !swOn s k 1 then setFlag s (AX_STS k) 19 false else s

/-! ### Starting, stopping and retargeting at a boundary -/

/-- The remainder of axis `k` is given up (R383, R397). -/
def dropRemain (s : State) (k : Nat) : State := setFlag (wrN s (AX_REMAIN k) 0) (AX_STS k) 21 false

/-- An AXIS_STOP takes effect on axis `k` (R383, R396, R403). -/
def stopNow (s : State) (k : Nat) : State :=
  let st := axState s k
  let s := updAxis s k (fun a => { a with stopReq := false })
  if st = axArmed then
    finishMove (setAxState (updAxis s k (fun a => { a with armed := none })) k axIdle) k .ok 1 0
  else if st = axHoming then
    let s := setFlag s (AX_STS k) 23 false
    if k < 2 && (axis s k).plan.isSome then
      let (p, v, a) := axKin s k
      let pl := planStop s k p v a
      updAxis s k (fun a => { a with plan := some pl, homing := 9 })
    else
      let s := updAxis s k (fun a => { a with plan := none, homing := 0 })
      finishRun (setAxState (wrN s (AX_VEL k) 0) k axIdle) 0x0703 k .wrongState 0 0 0 0
  else if st = axMoving then
    if k < 2 then
      let (p, v, a) := axKin s k
      let pl := planStop s k p v a
      setAxState (updAxis s k (fun a => { a with plan := some pl, stopping := some (rdI s (AX_TARGET k)) })) k axStopping
    else
      let s := setFlag (wrN (wrN s (AX_VEL k) 0) (AX_REMAIN k) 0) (AX_STS k) 23 false
      let s := updAxis s k (fun a => { a with plan := none })
      finishMove (setAxState s k axIdle) k .ok 1 0
  else s

/-- Axis `k` is replanned from its present motion to `target` (R388, R389). A limit change (`limits`) whose point of rest would
lie beyond a soft limit in force keeps the present plan instead. -/
def replan (s : State) (k : Nat) (target : Int) (limits : Bool) : State :=
  let (p, v, a) := axKin s k
  let stop := planStop s k p v a
  let (t, pl) := planAxis s k p v a target (axVmax s k)
  if limits && pl.reverses && !softOk s k stop.target then
    event (setFlag s (AX_STS k) 18 true) (srcAxis k) 0x1601 []
  else updAxis (wrI t (AX_TARGET k) target) k (fun a => { a with plan := some pl })

/-- A retarget takes effect on axis `k`, or is discarded (R388, R398, R408). -/
def retargetNow (s : State) (k : Nat) : State :=
  match (axis s k).retarget with
  | none => s
  | some (tgt, v, ac, de) =>
    let s := updAxis s k (fun a => { a with retarget := none })
    if axState s k ≠ axMoving then finishRun s 0x0707 k .wrongState 0 0 0 0
    else
      let s := updAxis s k (fun a => { a with vmax := if v = 0 then a.vmax else v, accel := if ac = 0 then a.accel else ac
                                              decel := if de = 0 then a.decel else de })
      let ov := flag s (AX_STS k) 18
      let s := replan s k tgt (v ≠ 0 || ac ≠ 0 || de ≠ 0)
      match (axis s k).plan with
      | none => s
      | some p =>
        -- a plan that keeps its deceleration keeps its target as well
        let kept := !ov && flag s (AX_STS k) 18
        finishRun s 0x0707 k .ok (now s + (p.dur - p.t) / 1000000) 0 0 (b2n (p.reverses && !kept))

/-- AXIS_HOME mode 1 or 2 takes effect (R404). -/
def setPosNow (s : State) (k : Nat) : State :=
  match (axis s k).setPos with
  | none => s
  | some (mode, v) =>
    let s := updAxis s k (fun a => { a with setPos := none })
    let s := if mode = 2 then encShow (wrI s (AX_POS k) (rdI s (AX_ENC_POS k))) k else encAlign (wrI s (AX_POS k) v) k
    finishRun (setFlag s (AX_STS k) 23 true) 0x0703 k .ok 0 0 0 0

/-- Homing enters a phase with a plan. -/
def homeTo (s : State) (k phase : Nat) (p : AxisPlan) : State :=
  updAxis s k (fun a => { a with homing := phase, plan := some p, homeFrom := rdI s (AX_POS k) })

/-- Approach direction of homing. -/
def homeDir (s : State) (k : Nat) : Bool := flag s (AX_HOME_CFG k) 29

/-- Back-off of step 3, and the slow approach of step 4 (R401). -/
def homeBackoff (s : State) (k : Nat) : State := homeTo s k 4 (planRun s k (!homeDir s k) (rdN s (AX_HOME_SLOW k)))
def homeSlow (s : State) (k : Nat) : State := homeTo s k 6 (planRun s k (homeDir s k) (rdN s (AX_HOME_SLOW k)))

/-- Step 1 at its boundary, and the steps that follow a rest (R401). -/
def homeStep (s : State) (k : Nat) : State :=
  let a := axis s k
  let atRest := match a.plan with
                | some p => decide (p.dur ≤ p.t)
                | none => true
  match a.homing with
  | 1 =>
    let s := setFlag (setFlag s (AX_STS k) 23 false) (AX_STS k) 22 false
    if swOn s k (homeRef s k) then homeBackoff s k
    else homeTo s k 2 (planRun s k (homeDir s k) (rdN s (AX_HOME_FAST k)))
  | 3 => if atRest then homeBackoff s k else s
  | 5 => if atRest then homeSlow s k else s
  | _ => s

/-- A kept remainder resumes on axis `k` at the present boundary (R397). -/
def resumeNow (s : State) (k : Nat) : State :=
  let tgt := rdI s (AX_POS k) + rdI s (AX_REMAIN k)
  let s := updAxis s k (fun a => { a with vmax := 0, accel := 0, decel := 0 })
  let (s, p) := planAxis s k (rdI s (AX_POS k) * 65536) 0 0 tgt (axVmax s k)
  setAxState (updAxis (wrI (dropRemain s k) (AX_TARGET k) tgt) k (fun a => { a with plan := some p })) k axMoving

/-- The start of an AXIS_RESUME at the present boundary (R386, R397): all its axes or none. -/
def resumeBoundary (s : State) : State :=
  match s.resumeStart with
  | none => s
  | some g =>
    let s := startShow { s with resumeStart := none }
    let ks := bitList g.mask 8
    if s.pwr.safe || ks.any (fun k => axState s k == axFault) then finishRun s 0x0705 0 .faultActive 0 0 0 0
    else if ks.all (fun k => axState s k == axIdle && flag s (AX_STS k) 21) then
      finishRun (ks.foldl resumeNow s) 0x0705 0 .ok (tickNo s) 0 0 0
    else finishRun s 0x0705 0 .wrongState 0 0 0 0

/-- The axes' work at a tick boundary (R382, R398, R401): motion since the last boundary, then stops, retargets, positions set,
homing steps, and starts. `dt` is the time since the last boundary in fs. -/
def axisTick (s : State) (k dt : Nat) : State :=
  let s := updAxis s k (fun a =>
    match a.plan with
    | none => a
    | some p => { a with plan := some (if p.begun then { p with t := p.t + dt } else { p with begun := true }) })
  let s := lockClear (axShow s k) k
  let s := if (axis s k).stopReq then stopNow s k else s
  let s := setPosNow (retargetNow s k) k
  homeStep s k

/-- The axes' work at a tick boundary; `enc` gives the counts of the incremental encoders (R392). -/
def axesTick (s : State) (dt : Nat) (enc : List (Nat × Int)) : State :=
  let s := axes8.foldl (fun s k => axisTick s k dt) s
  let s := enc.foldl (fun s e => if fld s (AX_CFG e.1) 5 4 = 1 then updAxis s e.1 (fun a => { a with encCount := e.2 }) else s) s
  let s := axes8.foldl (fun s k => if fld s (AX_CFG k) 5 4 = 1 then encShow s k else s) s
  let s := finishStops s
  match s.resumeStart with
  | some g => if g.atTime then s else resumeBoundary s
  | none => s

/-! ### Ends of motion -/

/-- AXIS_TARGET_REACHED (R383, R408). -/
def execAxisTargetReached (k : Nat) (s : State) : Host.Outcome State Fault Refusal :=
  whileClocked s fun s =>
    match (axis s k).plan with
    | none => s
    | some p =>
      if axState s k = axMoving && decide (p.dur ≤ p.t) then
        let s := updAxis s k (fun a => { a with plan := none, vmax := 0, accel := 0, decel := 0 })
        let s := wrN (wrI s (AX_POS k) p.target) (AX_VEL k) 0
        finishMove (setAxState s k axIdle) k .ok 0 0
      else s

/-- AXIS_AT_REST (R383, R396): the remainder is kept; a homing that was abandoned ends (R403). -/
def execAxisAtRest (k : Nat) (s : State) : Host.Outcome State Fault Refusal :=
  whileClocked s fun s =>
    let a := axis s k
    match a.plan with
    | none => s
    | some p =>
      if decide (p.t < p.dur) then s
      else if axState s k = axStopping then
        let s := wrN (wrI s (AX_POS k) p.target) (AX_VEL k) 0
        let s := setFlag (wrI s (AX_REMAIN k) (a.stopping.getD p.target - p.target)) (AX_STS k) 21 true
        let s := updAxis s k (fun a => { a with plan := none, stopping := none, vmax := 0, accel := 0, decel := 0 })
        finishStops (finishMove (setAxState s k axIdle) k .ok 1 0)
      else if axState s k = axHoming && a.homing = 9 then
        let s := wrN (wrI s (AX_POS k) p.target) (AX_VEL k) 0
        let s := updAxis s k (fun a => { a with plan := none, homing := 0 })
        finishStops (finishRun (setAxState s k axIdle) 0x0703 k .wrongState 0 0 0 0)
      else s

/-- HOMING_COMPLETE (R401, R393, R408): at rest after the capture. -/
def execHomingComplete (k : Nat) (s : State) : Host.Outcome State Fault Refusal :=
  whileClocked s fun s =>
    match (axis s k).plan with
    | none => s
    | some p =>
      if axState s k = axHoming && (axis s k).homing = 8 && decide (p.dur ≤ p.t) then
        let pos := rdI s (AX_HOME_POS k) + (p.target - rdI s (AX_CAPTURE k))
        let s := updAxis s k (fun a => { a with plan := none, homing := 0 })
        let s := encAlign (wrN (wrI s (AX_POS k) pos) (AX_VEL k) 0) k
        let s := setFld (setFld s (AX_STS k) 23 22 3) (AX_STS k) 20 19 0
        finishRun (setAxState s k axIdle) 0x0703 k .ok (rdN s (AX_CAPTURE k)) (rdN s (AX_CAPTURE_ENC k)) 0 0
      else s

/-- Steps that the present homing step may travel (R401); none for a step without such a limit. -/
def homeLimit (s : State) (k : Nat) : Option Nat :=
  let t := rdN s (AX_HOME_TRAVEL k)
  match (axis s k).homing with
  | 2 => some t
  | 4 => some t
  | 6 => some (2 * rdN s (AX_HOME_BACKOFF k) + t)
  | 7 => some t
  | _ => none

/-- HOME_FAIL (R401, R405): a homing step travelled its limit. -/
def execHomeFail (k : Nat) (s : State) : Host.Outcome State Fault Refusal :=
  whileClocked s fun s =>
    match homeLimit s k with
    | none => s
    | some lim =>
      if axState s k = axHoming && decide (lim ≤ (rdI s (AX_POS k) - (axis s k).homeFrom).natAbs) then axisFault s k 4 else s

/-! ### Switches (R391, R399, R400, R402, R403) -/

/-- Position and encoder count of axis `k` at `ns` after the last boundary. -/
def axPosAt (s : State) (k ns : Nat) : Int :=
  match (axis s k).plan with
  | none => rdI s (AX_POS k)
  | some p => if p.begun then steps16 p.neg (p.pos16 (p.t + ns * 1000000)) else rdI s (AX_POS k)

/-- Homing decelerates to rest (R401). -/
def homeDecel (s : State) (k phase : Nat) : State :=
  let (p, v, a) := axKin s k
  let pl := planStop s k p v a
  updAxis s k (fun x => { x with homing := phase, plan := some pl })

/-- A capture: position and raw count (R402). -/
def capture (s : State) (k : Nat) (pos : Int) (raw : Nat) : State := wrN (wrI s (AX_CAPTURE k) pos) (AX_CAPTURE_ENC k) raw

/-- The reference input changes during homing (R401). -/
def homeRefChange (s : State) (k i : Nat) (on : Bool) : State :=
  match (axis s k).homing, on with
  | 2, true => homeDecel s k 3
  | 4, false =>
    -- BACKOFF further steps, to rest
    let (p, v, a) := axKin s k
    let n : Int := rdN s (AX_HOME_BACKOFF k)
    let here := rdI s (AX_POS k)
    let tgt := if homeDir s k then here - n else here + n
    let (t, pl) := planAxis s k p v a tgt (rdN s (AX_HOME_SLOW k))
    homeTo t k 5 pl
  | 6, true =>
    let e := (mget [] (axis s k).edges i).headD ⟨now s, rdI s (AX_POS k), rdN s (AX_ENC_RAW k)⟩
    let s := capture s k e.pos e.raw
    if flag s (AX_HOME_CFG k) 28 then updAxis s k (fun a => { a with homing := 7, homeFrom := rdI s (AX_POS k) })
    else homeDecel s k 8
  | _, _ => s

/-- SWITCH_TRANSITION (R399, R400): pin level `level` of input `i`, `ns` after the last boundary, with the raw encoder count at
it. -/
def execSwitchTransition (k i : Nat) (level : Bool) (ns : Nat) (raw : Int) (s : State) : Host.Outcome State Fault Refusal :=
  whileClocked s fun s =>
    if 3 ≤ i then s
    else
      let s := updAxis s k (fun a => { a with pins := if level then natSet a.pins i else natClr a.pins i })
      if !swEn s k i then s
      else
        let s := setFlag s (AX_SW_STS k) (3 + i) (level != flag s (AX_SW_CFG k) i)
        let t := now s + ns
        let win := fld s (AX_SW_CFG k) 31 24 * 1000000
        let old := (mget [] (axis s k).edges i).filter (fun e => decide (t < e.time + win))
        let es := ⟨t, axPosAt s k ns, unsgn 32 raw⟩ :: old
        let s := updAxis s k (fun a => { a with edges := mset a.edges i es })
        if fld s (AX_SW_STS k) 23 16 < es.length then setFld s (AX_SW_STS k) 23 16 (satN 255 es.length) else s

/-- The raw level of input `i` has held for DEBOUNCE since its last transition (R399). -/
def swHeld (s : State) (k i : Nat) : Bool :=
  match mget [] (axis s k).edges i with
  | [] => true
  | e :: _ => reached s (e.time + fld s (AX_SW_CFG k) 15 8 * 1000)

/-- SWITCH_DEBOUNCE (R391, R399, R401, R403): input `i` takes its raw level. -/
def execSwitchDebounce (k i : Nat) (s : State) : Host.Outcome State Fault Refusal :=
  whileClocked s fun s =>
    if 3 ≤ i || !swEn s k i || swOn s k i == swRaw s k i || !swHeld s k i then s
    else
      let on := swRaw s k i
      let s := setSw s k i on
      let homing := axState s k == axHoming && (axis s k).homing != 9
      let lock := if i = 0 then 20 else 19
      let towards := if i = 0 then decide (0 < axHeading s k) else decide (axHeading s k < 0)
      let s := if i = 2 then s
               else if on then setFlag s (AX_STS k) lock true else lockClear s k
      if homing && i = homeRef s k then homeRefChange s k i on
      else if homing && i < 2 && on then axisFault (setFlag s (AX_STS k) 23 false) k 4
      else if i < 2 && on && towards then axisFault s k 2
      else s

/-- SWITCH_CHATTER (R400). -/
def execSwitchChatter (k i : Nat) (s : State) : Host.Outcome State Fault Refusal :=
  whileClocked s fun s =>
    let m := fld s (AX_SW_CFG k) 23 16
    let win := fld s (AX_SW_CFG k) 31 24 * 1000000
    let n := ((mget [] (axis s k).edges i).filter (fun e => decide (now s < e.time + win))).length
    if i < 3 && swEn s k i && m ≠ 0 && decide (m < n) && axState s k ≠ axDisabled then
      axisFault (setFld s (AX_SW_STS k) 7 6 i) k 3
    else s

/-- ENCZ_INDEX (R401 step 5, R402). -/
def execEnczIndex (k ns : Nat) (raw : Int) (s : State) : Host.Outcome State Fault Refusal :=
  whileClocked s fun s =>
  if axState s k = axHoming && (axis s k).homing = 7 then
           homeDecel (capture s k (axPosAt s k ns) (unsgn 32 raw)) k 8
         else s

/-! ### Encoders (R392 to R395) -/

/-- The deviation of axis `k` has exceeded WIN for TIME (R394). -/
def stallDue (s : State) (k : Nat) : Bool := (axis s k).devSince.any (fun t => reached s (t + fld s (AX_DEV_WIN k) 23 16 * 1000000))

/-- STALL (R394): the deviation has exceeded WIN for more than TIME. -/
def execStall (k : Nat) (s : State) : Host.Outcome State Fault Refusal :=
  whileClocked s fun s =>
  if flag s (AX_CFG k) 6 && hasEncoder s k && axState s k ≠ axDisabled &&
            decide (fld s (AX_DEV_WIN k) 15 0 < (rdI s (AX_DEV k)).natAbs) && stallDue s k then axisFault s k 1
         else s

/-- ENC_ERR (R395). -/
def execEncErr (k : Nat) (s : State) : Host.Outcome State Fault Refusal :=
  whileClocked s fun s =>
  if !hasEncoder s k then s
         else
           let s := satInc s (AX_ENC_ERRS k)
           if flag s (AX_CFG k) 6 && axState s k ≠ axDisabled then axisFault s k 5 else s

/-- Gray decoding of a word of `n` bits (R392): each bit is the parity of the bits at and above it. -/
def grayDecode (n w : Nat) : Nat :=
  (List.range n).foldl (fun m i => if ((List.range n).filter (fun j => decide (i ≤ j) && w.testBit j)).length % 2 = 1 then natSet m i
                                   else m) 0

/-- SSI_FRAME (R392, R394): the bits clocked in, most significant first; the deviation is from the position `ns` after the last
boundary, when the frame was sampled. -/
def execSsiFrame (k frame ns : Nat) (s : State) : Host.Outcome State Fault Refusal :=
  whileClocked s fun s =>
  if fld s (AX_CFG k) 5 4 ≠ 2 then s
         else
           let n := fld s (AX_SSI_CFG k) 29 24
           let w := frame % 2 ^ n
           let v := if flag s (AX_SSI_CFG k) 31 then grayDecode n w else w
           encShowAt (updAxis s k (fun a => { a with encCount := v })) k (axPosAt s k ns)

/-! ### Commands (R406 to R408) -/

/-- LAYER_LOCK refuses motion commands during a layer (R407, R409). -/
def axLocked (s : State) (k : Nat) : Bool := flag s (AX_CFG k) 9 && inLayer s

/-- An axis state in which AXIS_MOVE, AXIS_HOME and AXIS_RESUME are BUSY (R407). -/
def axBusy (s : State) (k : Nat) : Bool := axState s k == axArmed || axMovingNow s k

/-- Writable bits of a register of group AX, as a mask. -/
def fieldBits (a : Nat) : Nat :=
  match regAt a with
  | none => 0
  | some (r, _, _) => (r.fields.filter (fun f => f.acc == .rw)).foldl (fun m f => m ||| ((2 ^ (f.hi - f.lo + 1) - 1) <<< f.lo)) 0

/-- The registers of a section of AXIS_CONFIG, in order (R406). -/
def axSection (k sect : Nat) : List Nat :=
  match sect with
  | 0 => [AX_CFG k, AX_STEP_TIMING k, AX_ENC_RATIO k]
  | 1 => [AX_VMAX k, AX_VSTART k, AX_VSTOP k, AX_ACCEL k, AX_DECEL k, AX_JERK k]
  | 2 => [AX_SOFT_MIN k, AX_SOFT_MAX k, AX_DEV_WIN k, AX_SW_CFG k, AX_SSI_CFG k]
  | _ => [AX_HOME_CFG k, AX_HOME_FAST k, AX_HOME_SLOW k, AX_HOME_BACKOFF k, AX_HOME_TRAVEL k, AX_HOME_POS k]

/-- Registers that do not apply to an axis's kind are ignored (R409). -/
def axApplies (k a : Nat) : Bool := if k < 2 then a != AX_VSTART k && a != AX_VSTOP k else a != AX_JERK k

/-- AXIS_CONFIG (R406, R408): the values of a section go to the shadows of group AX, and `AX_DEV_MAX` starts afresh (R394).
Value bytes beyond the section's registers must be zero. -/
def execAxisConfig (h : Issue) (axis sect : Nat) (vals : List Nat) (s : State) : Host.Outcome State Fault Refusal :=
  whileClocked s fun s =>
  let rs := axSection axis sect
  let pairs := rs.zip ((List.range 7).map (fun i => vals.getD i 0))
  hostCmd s h (.axisConfig h axis sect vals) 0x0701 48
    (fun _ => [(decide (axis < 8) && decide (sect < 4) && decide (vals.length ≤ 7) && (vals.drop rs.length).all (· == 0) &&
      pairs.all (fun p => p.2 &&& fieldBits p.1 == p.2), .badParam)])
    (fun s =>
      let s := pairs.foldl (fun s p => if axApplies axis p.1 then setShadow s 9 p.1 31 0 p.2 else s) s
      complete (wrN s (AX_DEV_MAX axis) 0) h 0x0701 .ok 0 0 0 0)

/-- A base plus a distance; a sum outside the 32-bit range has no stated value (assumption 1). -/
def sum32 (s : State) (a b : Int) : State × Int :=
  if -(2 : Int) ^ 31 ≤ a + b && a + b < (2 : Int) ^ 31 then (s, a + b) else (tick1 s, (Config.freeWord s.freeCtr).toInt)

/-- AXIS_MOVE (R386, R390, R407, R408). In the safe state no axis steps (R106), and a command that would make one step ends with FAULT_ACTIVE
(assumption 20). -/
def execAxisMove (h : Issue) (axis flags : Nat) (target : Int) (vmax : Nat) (s : State) : Host.Outcome State Fault Refusal :=
  whileClocked s fun s =>
  let tgt (s : State) : State × Int := if flags.testBit 0 then sum32 s (rdI s (AX_POS axis)) target else (s, target)
  hostCmd s h (.axisMove h axis flags target vmax) 0x0702 48
    (fun s =>
      let t := (tgt s).2
      let d := t - rdI s (AX_POS axis)
      [(decide (axis < 8) && decide (flags < 4), .badParam), (decide (vmax ≤ rdN s (AX_VMAX axis)) && softOk s axis t, .badParam),
       (!s.pwr.safe && axState s axis != axFault, .faultActive),
       (axState s axis != axDisabled && (flags.testBit 0 || flag s (AX_STS axis) 23) && (d == 0 || !axBlocked s axis (decide (0 < d))) &&
         !axLocked s axis, .wrongState),
       (!axBusy s axis && !isRunning s 0x0703 axis && !isRunning s 0x0702 axis, .busy)])
    (fun s =>
      let (s, t) := tgt s
      let s := wrI (dropRemain s axis) (AX_TARGET axis) t
      let s := updAxis s axis (fun a => { a with vmax := vmax, accel := 0, decel := 0 })
      let (s, p) := planAxis s axis (rdI s (AX_POS axis) * 65536) 0 0 t (axVmax s axis)
      let p := { p with begun := false }
      let s := if flags.testBit 1 then setAxState (updAxis s axis (fun a => { a with armed := some p })) axis axArmed
               else setAxState (updAxis s axis (fun a => { a with plan := some p })) axis axMoving
      startRun s h 0x0702 axis [])

/-- AXIS_HOME (R401, R404, R407). -/
def execAxisHome (h : Issue) (axis mode : Nat) (value : Int) (s : State) : Host.Outcome State Fault Refusal :=
  whileClocked s fun s =>
  hostCmd s h (.axisHome h axis mode value) 0x0703 48
    (fun s =>
      [(decide (axis < 8) && decide (mode ≤ 2) && (mode == 1 || value == 0) && (mode != 2 || hasEncoder s axis), .badParam),
       ((mode != 0 || !s.pwr.safe) && axState s axis != axFault, .faultActive), (axState s axis != axDisabled && !axLocked s axis, .wrongState),
       (!axBusy s axis && !isRunning s 0x0703 axis, .busy), (mode != 0 || swEn s axis (homeRef s axis), .cfgRejected)])
    (fun s =>
      let s := dropRemain s axis
      let s := if mode = 0 then
                 setAxState (updAxis s axis (fun a => { a with homing := 1, plan := none, vmax := 0, accel := 0, decel := 0 })) axis axHoming
               else updAxis s axis (fun a => { a with setPos := some (mode, value) })
      startRun s h 0x0703 axis [])

/-- AXIS_STOP (R396, R407, R408): it takes effect at the next boundary. -/
def execAxisStop (h : Issue) (mask : Nat) (s : State) : Host.Outcome State Fault Refusal :=
  whileClocked s fun s =>
  hostCmd s h (.axisStop h mask) 0x0704 48
    (fun s => [(decide (0 < mask) && decide (mask < 256), .badParam),
               ((bitList mask 8).all (fun k => axState s k != axDisabled), .wrongState)])
    (fun s =>
      let valid := ((bitList mask 8).filter (fun k => flag s (AX_STS k) 23)).foldl natSet 0
      let s := (bitList mask 8).foldl (fun s k =>
        if axState s k == axArmed || axState s k == axMoving || axState s k == axHoming then
          updAxis s k (fun a => { a with stopReq := true })
        else s) s
      finishStops (startRun s h 0x0704 mask [mask, valid]))

/-- AXIS_RESUME (R397, R407). -/
def execAxisResume (h : Issue) (mask flags time : Nat) (s : State) : Host.Outcome State Fault Refusal :=
  whileClocked s fun s =>
  let ks := bitList mask 8
  hostCmd s h (.axisResume h mask flags time) 0x0705 48
    (fun s =>
      [(decide (0 < mask) && decide (mask < 4) && decide (flags < 2) && (if flags = 0 then time == 0 else decide (now s + 50000 ≤ time)),
        .badParam),
       (!s.pwr.safe && ks.all (fun k => axState s k != axFault), .faultActive),
       (ks.all (fun k => axState s k != axDisabled && !axLocked s k && (axBusy s k || flag s (AX_STS k) 21) &&
          (rdI s (AX_REMAIN k) == 0 || !axBlocked s k (decide (0 < rdI s (AX_REMAIN k))))), .wrongState),
       (ks.all (fun k => !axBusy s k) && s.resumeStart.isNone && s.groupStart.isNone, .busy)])
    (fun s => startRun (startShow { s with resumeStart := some ⟨mask, false, flags == 1, time⟩ }) h 0x0705 0 [])

/-- The boundary of a pending start has come (R386): the first at or after its TIME, or the next one after its command was accepted. -/
def startDue (s : State) (op : Nat) (g : GroupStart) : Bool :=
  if g.atTime then decide (g.time ≤ now s) else (findRun s op 0).all (fun r => decide (r.since < now s))

/-- AXIS_RESUME_START (R397). -/
def execAxisResumeStart (s : State) : Host.Outcome State Fault Refusal :=
  whileClocked s fun s =>
  if s.resumeStart.any (startDue s 0x0705) then resumeBoundary s else s

/-- AXIS_GROUP_START (R386, R407). -/
def execAxisGroupStart (h : Issue) (mask flags time : Nat) (s : State) : Host.Outcome State Fault Refusal :=
  whileClocked s fun s =>
  let ks := bitList mask 8
  hostCmd s h (.axisGroupStart h mask flags time) 0x0706 48
    (fun s =>
      [(decide (0 < mask) && decide (mask < 256) && decide (flags < 4) &&
         (if flags.testBit 1 then decide (now s + 50000 ≤ time) else time == 0), .badParam),
       (!s.pwr.safe && ks.all (fun k => axState s k != axFault), .faultActive),
       (ks.all (fun k => axState s k == axArmed && !axLocked s k), .wrongState),
       (s.resumeStart.isNone && s.groupStart.isNone, .busy)])
    (fun s => startRun (startShow { s with groupStart := some ⟨mask, flags.testBit 0, flags.testBit 1, time⟩ }) h 0x0706 0 [])

/-- The highest speed limit whose plan takes at least `dur`, by bisection. -/
def stretchV (s : State) (k : Nat) (from16 target : Int) (dur : Nat) : Nat → Nat → Nat → Nat
  | 0, lo, _ => lo
  | n + 1, lo, hi =>
    if hi ≤ lo then lo
    else
      let m := (lo + hi + 1) / 2
      if dur ≤ (planAxis s k from16 0 0 target m).2.own then stretchV s k from16 target dur n m hi
      else stretchV s k from16 target dur n lo (m - 1)

/-- The plan of axis `k` stretched to `dur` (R387); one whose peak would fall below VSTART runs its own profile. -/
def syncPlan (s : State) (k dur : Nat) (p : AxisPlan) : AxisPlan × Bool :=
  if dur ≤ p.own then (p, false)
  else
    let lo := if k < 2 then 1 else rdN s (AX_VSTART k)
    let v := stretchV s k p.from16 p.target dur 40 lo (axVmax s k)
    let q := (planAxis s k p.from16 0 0 p.target v).2
    if q.own < dur then (p, true) else ({ q with dur := dur }, false)

/-- GROUP_START_BOUNDARY (R386, R387): all axes of the mask start together, or none does. -/
def execGroupStartBoundary (s : State) : Host.Outcome State Fault Refusal :=
  whileClocked s fun s =>
    match s.groupStart with
    | none => s
    | some g =>
      if !startDue s 0x0706 g then s
      else
      let s := startShow { s with groupStart := none }
      let ks := bitList g.mask 8
      if ks.any (fun k => axState s k == axFault) then finishRun s 0x0706 0 .faultActive 0 0 0 0
      else if ks.any (fun k => axState s k != axArmed) then finishRun s 0x0706 0 .wrongState 0 0 0 0
      else
        let durs := ks.map (fun k => match (axis s k).armed with
                                     | some p => p.own
                                     | none => 0)
        let top := durs.foldl (fun m d => if m < d then d else m) 0
        let s := ks.foldl (fun s k =>
          match (axis s k).armed with
          | none => s
          | some p =>
            let (q, short) := if g.sync then syncPlan s k top p else (p, false)
            let s := updAxis s k (fun a => { a with armed := none, plan := some { q with begun := true } })
            setAxState (if short then setFlag s (AX_STS k) 17 true else s) k axMoving) s
        finishRun s 0x0706 0 .ok (tickNo s) 0 0 0

/-- AXIS_RETARGET (R388, R390, R407): RELATIVE counts from the present target. -/
def execAxisRetarget (h : Issue) (axis flags : Nat) (target : Int) (vmax accel decel : Nat) (s : State) :
    Host.Outcome State Fault Refusal :=
  whileClocked s fun s =>
  let tgt (s : State) : State × Int := if flags.testBit 0 then sum32 s (rdI s (AX_TARGET axis)) target else (s, target)
  hostCmd s h (.axisRetarget h axis flags target vmax accel decel) 0x0707 48
    (fun s =>
      let t := (tgt s).2
      let d := t - rdI s (AX_POS axis)
      [(decide (axis < 8) && decide (flags < 4) && (flags.testBit 1 || (vmax == 0 && accel == 0 && decel == 0)), .badParam),
       (decide (vmax ≤ rdN s (AX_VMAX axis)) && softOk s axis t, .badParam),
       (axState s axis != axFault, .faultActive),
       (axState s axis == axMoving && !axLocked s axis && (flags.testBit 0 || flag s (AX_STS axis) 23) &&
         (d == 0 || !axBlocked s axis (decide (0 < d))), .wrongState),
       (!isRunning s 0x0707 axis, .busy)])
    (fun s =>
      let (s, t) := tgt s
      startRun (updAxis s axis (fun a => { a with retarget := some (t, vmax, accel, decel) })) h 0x0707 axis [])

/-! ### COMMIT of group AX (R411) -/

/-- The checks of group AX (R411). -/
def axChecks (s n : State) : List (Nat × Bool) :=
  let each (f : Nat → Bool) : Bool := axes8.all f
  [(0x0A01, each (fun k =>
      let hi := fld n (AX_STEP_TIMING k) 15 0
      let v := rdN n (AX_VMAX k)
      decide (100 ≤ hi) && decide (1 ≤ v) && decide (v ≤ 5000000) && decide (v * (2 * hi) ≤ 10 ^ 9))),
   (0x0A02, each (fun k =>
      let ok (v : Nat) : Bool := decide (1 ≤ v) && decide (v ≤ rdN n (AX_VMAX k))
      rdN n (AX_ACCEL k) != 0 && rdN n (AX_DECEL k) != 0 &&
        (if k < 2 then rdN n (AX_JERK k) != 0 else ok (rdN n (AX_VSTART k)) && ok (rdN n (AX_VSTOP k))))),
   (0x0A03, each (fun k =>
      let lo := rdI n (AX_SOFT_MIN k)
      let hi := rdI n (AX_SOFT_MAX k)
      let p := rdI n (AX_HOME_POS k)
      decide (lo < hi) && (!flag n (AX_CFG k) 7 || (decide (lo ≤ p) && decide (p ≤ hi))))),
   (0x0A04, each (fun k =>
      fld n (AX_SW_CFG k) 15 8 != 0 && fld n (AX_SW_CFG k) 31 24 != 0 && fld n (AX_DEV_WIN k) 23 16 != 0 &&
        fld n (AX_DEV_WIN k) 15 0 != 0)),
   (0x0A05, each (fun k =>
      let ref := fld n (AX_HOME_CFG k) 31 30
      let dir := flag n (AX_HOME_CFG k) 29
      let slow := rdN n (AX_HOME_SLOW k)
      let fast := rdN n (AX_HOME_FAST k)
      (ref != 1 || !dir) && (ref != 2 || dir) && decide (slow ≤ fast) && decide (fast ≤ rdN n (AX_VMAX k)) &&
        (decide (k < 2) || decide (slow ≤ rdN n (AX_VSTART k))) &&
        (!flag n (AX_HOME_CFG k) 28 || fld n (AX_CFG k) 5 4 == 1))),
   (0x0A06, each (fun k =>
      let bits := fld n (AX_SSI_CFG k) 29 24
      let clk := fld n (AX_SSI_CFG k) 23 16
      let enc := fld n (AX_CFG k) 5 4 == 1 || fld n (AX_CFG k) 5 4 == 2
      decide (8 ≤ bits) && decide (bits ≤ 32) && decide (1 ≤ clk) && decide (clk ≤ 100) &&
        decide ((bits * 10 + 20 * clk) ≤ fld n (AX_SSI_CFG k) 15 0 * clk) && (rdN n (AX_ENC_RATIO k) != 0 || !enc) &&
        (!flag n (AX_CFG k) 6 || enc))),
   (0x0A07, each (fun k =>
      !axBusy s k || [AX_CFG k, AX_STEP_TIMING k, AX_ENC_RATIO k, AX_SSI_CFG k].all (fun a => rd s a == rd n a)))]

/-- What group AX changes beyond its fields (R381, R383, R389, R393): `old` is the state before. -/
def axTake (old s : State) : State :=
  axes8.foldl (fun s k =>
    let chg (l : List Nat) : Bool := l.any (fun a => rd old a != rd s a)
    -- ENABLE
    let en := flag s (AX_CFG k) 0
    let s := if en == flag old (AX_CFG k) 0 then s
             else if en then setAxState (setFlag s (AX_STS k) 15 (!s.pwr.safe)) k axIdle
             else
               let s := setFlag (dropRemain (setFlag s (AX_STS k) 15 false) k) (AX_STS k) 22 false
               let s := updAxis s k (fun a => { a with setPos := none, safeOnly := false })
               finishRun (setAxState (setFld (setFld s (AX_SW_STS k) 23 16 0) (AX_STS k) 27 24 0) k axDisabled) 0x0703 k .wrongState 0 0 0 0
    -- inputs
    let s := if !chg [AX_SW_CFG k] then s
             else (List.range 3).foldl (fun s i =>
               if swEn s k i then setFlag s (AX_SW_STS k) (3 + i) ((axis s k).pins.testBit i != flag s (AX_SW_CFG k) i)
               else updAxis (setSw (setFlag s (AX_SW_STS k) (3 + i) false) k i false) k (fun a => { a with edges := mdel a.edges i })) s
    -- encoder
    let encCfg (t : State) : Nat := fld t (AX_CFG k) 5 3
    let s := if hasEncoder s k && (encCfg old != encCfg s || chg [AX_ENC_RATIO k, AX_SSI_CFG k]) then encAlign s k else s
    -- limits of an axis in motion
    if !chg [AX_VMAX k, AX_VSTART k, AX_VSTOP k, AX_ACCEL k, AX_DECEL k, AX_JERK k] || (axis s k).stopReq then s
    else if axState s k = axMoving then
      match (axis s k).plan with
      | some p => if p.begun then replan s k p.target true
                  else
                    let (s, q) := planAxis s k p.from16 0 0 p.target (axVmax s k)
                    updAxis s k (fun a => { a with plan := some { q with begun := false } })
      | none => s
    else if axState s k = axStopping then
      let (p, v, a) := axKin s k
      let pl := planStop s k p v a
      if softOk s k pl.target then updAxis s k (fun x => { x with plan := some pl })
      else event (setFlag s (AX_STS k) 18 true) (srcAxis k) 0x1601 []
    else s) s

end Sys2Proof.Machine
end

