-- ==== Sys2Proof/Machine/Remote.lean ====
section
/-!
DEFINITION. Remote register access and fan-out (R437, R438, R447), the loss of a device (R432, R278, R526) and NOTICE frames
(R436).
-/

namespace Sys2Proof.Machine

/-! ### Register transactions (R438) -/

/-- Transaction types of R436. -/
def tyRegRead : Nat := 0x24
def tyRegData : Nat := 0x25
def tyRegWrite : Nat := 0x26
def tyRegAck : Nat := 0x27

/-- `k` words read in order from BAR0 offset `a` by master `id`; nothing at or above 0x0100_0000 is a register. -/
def regReads (s : State) (id a : Nat) : Nat → State × List Nat
  | 0 => (s, [])
  | k + 1 =>
    let (s, v) := if a < 0x1000000 then regRead s id a else (s, 0)
    let (s, vs) := regReads s id (a + 4) k
    (s, v :: vs)

/-- Words written in order from BAR0 offset `a` by master `id`. -/
def regWrites (s : State) (id : Nat) : Nat → List Nat → State
  | _, [] => s
  | a, v :: vs => regWrites (if a < 0x1000000 then regWrite s id a v else s) id (a + 4) vs

/-- REG_READ from a peer (R438, R520). -/
def execRegRead (via src off count : Nat) (s : State) : Host.Outcome State Fault Refusal :=
  whileClocked s fun s =>
  delivered s via src tyRegRead [off, count] (fun s =>
    let (s, vs) := regReads s (0x80 + src) off count
    sendMsg s src tyRegData vs)

/-- REG_WRITE from a peer (R438, R520). -/
def execRegWrite (via src off : Nat) (vals : List Nat) (s : State) : Host.Outcome State Fault Refusal :=
  whileClocked s fun s =>
  delivered s via src tyRegWrite (off :: vals) (fun s => sendMsg (regWrites s (0x80 + src) off vals) src tyRegAck [])

/-- The oldest register transaction of an OP with the device at `d` completes (R438). -/
def regDone (s : State) (d : Nat) (p : Running → Bool) (st : Status) (r0 r1 r2 ex : Nat) : State :=
  match takeFirst (fun r : Running => r.op == 0x0805 && r.key == d && p r) s.running with
  | none => s
  | some (r, rest) => completeAs { s with running := rest } r.from_ r.dropped 0x0805 st r0 r1 r2 ex

/-- REG_DATA (R438, R447). -/
def execRegData (via src : Nat) (vals : List Nat) (s : State) : Host.Outcome State Fault Refusal :=
  whileClocked s fun s =>
  delivered s via src tyRegData vals (fun s =>
    regDone s src (fun r => r.aux.getD 0 0 == 0) .ok (vals.getD 0 0) (vals.getD 1 0) (vals.getD 2 0) (vals.getD 3 0))

/-- REG_ACK (R438). -/
def execRegAck (via src : Nat) (s : State) : Host.Outcome State Fault Refusal :=
  whileClocked s fun s =>
  delivered s via src tyRegAck [] (fun s => regDone s src (fun r => r.aux.getD 0 0 == 1) .ok 0 0 0 0)

/-- REG_TIMEOUT (R438): no answer within 100 µs. -/
def execRegTimeout (dst : Nat) (s : State) : Host.Outcome State Fault Refusal :=
  whileClocked s fun s =>
  regDone s dst (Running.aged s 100000) .timeout 0 0 0 0

/-! ### REMOTE_COMMAND (R446, R447) -/

/-- The master identity of a locally served register access (R520). -/
def localId (h : Issue) : Nat := if h.ring = 15 then 1 else 0

/-- The parameter block of the packet of a fan-out, read here (R136; assumption 113). -/
def innerBlock (s : State) (inner : List Byte) : List Byte :=
  if (leAt inner 2 2).testBit 2 then hostBytes s (leAt inner 16 8) (satN 1024 (leAt inner 24 4)) else []

/-- A fan-out (R447): the inner packet goes to every other member of the plate group; one out of reach has answered. -/
def fanOut (s : State) (h : Issue) (inner : List Byte) : State :=
  let ps := groupPeers s
  if ps.isEmpty then complete s h 0x0805 .ok 0 0 0 0
  else
    let blk := innerBlock s inner
    let tag := leAt inner 4 4
    let s := startRun s h 0x0805 0xFF (fanAux (ps.foldl natSet 0) 0 0 0 tag)
    ps.foldl (fun s d =>
      if reachable s d then sendMsg s d tyCmdFwd (fwdBody h.ring inner blk)
      else fanAnswer s h.ring tag d (Status.code .fabricUnreachable)) s

/-- The packet of a fan-out is none that R447 turns away, and its parameter block is short enough to travel (R136; assumption 113). -/
def innerOk (inner : List Byte) : Bool :=
  inner.length == 64 && leAt inner 0 2 != 0x0805 && !(leAt inner 2 2).testBit 1 &&
  (!(leAt inner 2 2).testBit 2 || decide (leAt inner 24 4 ≤ 1024))

/-- REMOTE_COMMAND (R446, R447). `inner` is the packet at parameter block byte 48 (OP 2). -/
def execRemoteCommand (h : Issue) (op target count off : Nat) (data : List Nat) (inner : List Byte) (s : State) :
    Host.Outcome State Fault Refusal :=
  whileClocked s fun s =>
  hostCmd s h (.remoteCommand h op target count off data inner) 0x0805 (if op = 2 then 112 else 48)
    (fun s =>
      [(!Issue.remote h && decide (op ≤ 2) &&
         (if op = 2 then target == 0 && count == 0 && off == 0 && data.isEmpty && innerOk inner
          else decide (target < 32) && decide (1 ≤ count) && decide (count ≤ (if op = 0 then 4 else 8)) && off % 4 == 0 &&
            decide (off < 0x1000000) && data.length == (if op = 0 then 0 else count)), .badParam),
       ((op != 2 && target == ownAddr s) || domOn s 13, .domainOff)])
    (fun s =>
      if op = 2 then fanOut s h inner
      else if target = ownAddr s then
        if op = 0 then
          let (s, vs) := regReads s (localId h) off count
          complete s h 0x0805 .ok (vs.getD 0 0) (vs.getD 1 0) (vs.getD 2 0) (vs.getD 3 0)
        else complete (regWrites s (localId h) off data) h 0x0805 .ok 0 0 0 0
      else if !reachable s target then fail s h 0x0805 .fabricUnreachable
      else
        let s := startRun s h 0x0805 target [op]
        if op = 0 then sendMsg s target tyRegRead [off, count] else sendMsg s target tyRegWrite (off :: data))

/-! ### The loss of a device -/

/-- An entry that a lane of the lost device holds has started there. Before START_NOT_BEFORE it cannot have; after that the owner is told
nothing until DONE or RETURN, and which it is is a free value (R267, R276; assumption 108). -/
def startedAway (s : State) (e : PoolEntry) : Bool :=
  decide (e.work.notBefore ≤ now s) && Config.freeBit (s.freeCtr + e.work.rcd.vid)

/-- Pool entries that lanes of the lost device hold (R278): those not started become OPEN, those started are LOST, each with
an event. -/
def losePool (s : State) (a : Nat) : State :=
  let held (e : PoolEntry) : Bool := e.holder / 24 == a && a != ownAddr s && (e.state == .claimed || e.state == .started)
  let s0 := s
  let gone (e : PoolEntry) : Bool := held e && startedAway s0 e
  let lost := s.ovl.pool.filter gone
  let s := tick1 (dropEntry s gone)
  let s := { s with ovl := { s.ovl with pool := s.ovl.pool.map (fun e =>
    if held e then { e with state := .opened, holder := 0, grantable := true } else e) } }
  lost.foldl (fun s e => event s srcDevice 0x1302 (leBytes 4 e.work.rcd.vid)) (poolShow s)

/-- Work of a lost owner on lane `n` (R278): what has not started is discarded, what has started is kept and marked. A mark that was to come
is given up, and the lane comes to rest. -/
def loseOwner (a : Nat) (s : State) (n : Nat) : State :=
  let theirs (w : Work) : Bool := w.src == 3 && w.home == a && w.resume.isNone
  let l := lane s n
  let s := if l.succ.any theirs then cornerOff (releaseSlot (updLane s n (fun q => { q with succ := none })) n 1) n else s
  let s := if l.cur.any theirs && !curStarted s n then dropCur s n else s
  updLane s n (fun q => { q with
    claimed := q.claimed.filter (fun w => !theirs w)
    kept := q.kept.filter (fun w => !theirs w)
    claimOut := match q.claimOut with
                | some c => if c.1 = a then none else some c
                | none => none })

/-- Commands and register transactions that wait for the lost device complete (R437, R438): a forwarded command with EXTRA 1
when its CMD_FWD was acknowledged. -/
def loseCommands (s : State) (a : Nat) : State :=
  let fwd := (s.running.filter (fun r => r.op == tyCmdFwd && r.key == a)).map (fun r => (r.from_.ring, r.from_.tag))
  let fan := (s.running.filter (fun r => r.op == 0x0805 && r.key == 0xFF && (r.aux.getD 0 0).testBit a)).map (fun r => (r.from_.ring, r.aux.getD 4 0))
  let s := (fwd ++ fan).foldl (fun s k => fwdFail s a k.1 k.2 (if fwdUnacked s a k.1 k.2 then 0 else 1)) s
  freezeStep (finishAll s 0x0805 a .fabricUnreachable 0 0 0 0) (fun d => d == a)

/-- The frames for the lost device are discarded and its end-to-end numbers forgotten (R432, R433). -/
def loseFrames (s : State) (a : Nat) : State :=
  let k1 := e2eKey a clHandoff
  let k2 := e2eKey a clControl
  { s with fab := { s.fab with out := s.fab.out.filter (fun f => f.dst != a)
                               e2eTx := mdel (mdel s.fab.e2eTx k1) k2, e2eAt := mdel (mdel s.fab.e2eAt k1) k2
                               e2eRx := mdel (mdel s.fab.e2eRx k1) k2
                               devs := mdel s.fab.devs a } }

/-- What the overlap unit and the sequencer hold of the lost device. -/
def loseOverlap (s : State) (a : Nat) : State :=
  staleShow { s with
    ovl := { s.ovl with ests := s.ovl.ests.filter (fun e => e.1 / 24 != a), border := mdel s.ovl.border a
                        claims := s.ovl.claims.filter (fun c => c.dev != a), excess := natClr s.ovl.excess a }
    seq := { s.seq with peerStart := s.seq.peerStart.filter (fun p => p.1 != a) } } (natClr s.ovl.stale a)

/-- The device at `a` has left the fabric (R432): the loss of a plate-group member raises PEER_LOST while the layer is ARMED
to PAUSED. -/
def loseDevice (s : State) (a : Nat) : State :=
  let member := match devOf s a with
    | some i => ownGroup s != 0xFF && i.group == ownGroup s
    | none => false
  let s := loseFrames (loseCommands s a) a
  let s := mbxReset (fabShow s) (0x80 + a)
  let s := loseOverlap (lanes24.foldl (loseOwner a) (losePool s a)) a
  if member && inLayer s then raiseOnce s clsLayer 0x0203 srcDevice (leBytes 1 a) else s

/-- ROUTE_HOLD_EXPIRY (R432): the address is still unreachable 200 µs after the last link event. -/
def execRouteHoldExpiry (a : Nat) (s : State) : Host.Outcome State Fault Refusal :=
  whileClocked s fun s =>
  if a ≠ ownAddr s && metric s a = 32 && reached s (s.fab.linkEvent + 200000) then loseDevice s a else s

/-! ### NOTICE (R436) -/

/-- A start reported by a plate-group peer (R184): one that differs from this device's own for the same layer cancels it. A report that comes
when this device exposes already concerns no start of its own. -/
def noticeStart (s : State) (src layer time : Nat) : State :=
  if layerSt s = stExposing || !(groupPeers s).contains src then s
  else
    let s := { s with seq := { s.seq with peerStart := (src, layer, time) :: s.seq.peerStart.filter (fun p => p.1 != src) } }
    match s.seq.start with
    | some (t, _) => if layer = rdN s SEQ_LAYER && t ≠ time then cancelStart s .cfgRejected else s
    | none => s

/-- NOTICE from a peer; the kinds are the model's numbers (assumption 10). A stop bath or an abort is requested (R192, R195),
a peer's DEVICE or FATAL fault raises PEER_LOST (R196), a holdover excess withdraws the cross-device features (R292), and
learning freezes or thaws (R374). -/
def execNoticeRx (via src kind layer time arg : Nat) (s : State) : Host.Outcome State Fault Refusal :=
  whileClocked s fun s =>
  delivered s via src tyNotice [kind, layer, time, arg] (fun s =>
    match kind with
    | 0 => noticeStart s src layer time
    | 1 => requestStop s .wrongState
    | 2 => if stLoading ≤ layerSt s && layerSt s ≤ stPaused then requestAbort s ⟨1, 0⟩ else s
    | 3 => if inLayer s then raiseOnce s clsLayer 0x0203 srcDevice (leBytes 1 src) else s
    | 4 => { s with ovl := { s.ovl with excess := natSet s.ovl.excess src } }
    | 5 => burnFreeze s (arg == 1)
    | _ => s)

end Sys2Proof.Machine
end

