-- ==== Sys2Proof/Machine/Domain.lean ====
section
/-!
DEFINITION. Power domains: POWER_DOMAIN and RESET_DOMAIN with what a domain loses and keeps (R86 to R89, R93).
-/

namespace Sys2Proof.Machine

/-! ### Conditions (R86, R501) -/

/-- The switch-off condition of a domain (R86). -/
def offCond (s : State) (d : Nat) : Bool :=
  if d < 8 then !inLayer s
  else if d < 10 then (domOn s (17 - d) && !s.pwr.switching.contains (17 - d, false)) || ctxs.all (fun c => !flag s (ISP_CTX_CFG c) 31)
  else if d = 10 then true
  else if d < 13 then s.seq.job.isNone && layerSt s == stIdle
  else if d = 13 then
    !inLayer s && (List.range 8).all (fun k => !axMovingNow s k) && (List.range 4).all (fun t => !flag s (FTM_TRIG_STS t) 31)
  else !inLayer s

/-- Transfers in progress that hold a domain (R501). -/
def inUse (s : State) (d : Nat) : Bool :=
  if d = 10 then [0, 1].any (fun g => codecSt s g == 1 || codecSt s g == 2 || codecSt s g == 4)
  else if d = 11 || d = 12 then (List.range 32).any (fun c => dmaUses s c (d - 11))
  else false

/-- A domain whose switching or reset is in progress. -/
def switching (s : State) (d : Nat) : Bool := s.pwr.switching.any (fun p => p.1 == d) || s.pwr.inReset.testBit d

/-- Domains on, as a mask. -/
def domainsOn (s : State) : Nat := fld s PWR_STS 19 0

/-- `s` with domain `d` on or off. -/
def setDomain (s : State) (d : Nat) (on : Bool) : State := setFlag s PWR_STS d on

/-! ### What a domain loses (R87) -/

/-- Lane `n` loses what its quad holds: its jog, link setting and drift set end, its loops and plans are gone (R87, R357). Its
photodiode inputs belong to another domain, and when its GATE fell stays known to them (R301). -/
def laneDrop (s : State) (n : Nat) : State :=
  let s := if (lane s n).jog.isSome then endJog s n .domainOff 0 else s
  let s := finishAll (finishAll s 0x0203 n .domainOff 0 0 0 0) 0x0207 n .domainOff 0 0 0 0
  updLane (darken s n) n (fun l => { Lane.reset with afe := l.afe, pdOver := l.pdOver, gateFell := l.gateFell, gateRose := l.gateRose
                                                     gatePrev := l.gatePrev })

/-- Fabric state lost (R87): the ports leave service, what waits for another device completes, and the device keeps its
address for a rejoin (R429). The TRIG outputs are low (R52). -/
def fabricDrop (s : State) : State :=
  let a := ownAddr s
  let s := ports4.foldl (fun s p => finishRun (portOutOf s p pOff) 0x0801 p .domainOff 0 0 0 0) s
  let s := (s.fab.devs.map (·.1)).foldl (fun s d => if d = a then s else loseDevice s d) s
  { s with fab := { Fab.reset with wire := s.fab.wire, keptAddr := some a }
           ftm := { Ftm.reset with boundary := s.ftm.boundary }, pins := { s.pins with trig := 0 } }

/-- A jog of a lane of another quad that an engine of quad `q` runs ends, and its scanner stays where it is (R25). -/
def engineDrop (q : Nat) (s : State) (n : Nat) : State :=
  if engineOf s n / 4 = q && quadOf n ≠ q && (lane s n).jog.isSome then endJog (holdSent s n) n .domainOff 0 else s

/-- The datapath state of domain `d` is lost. -/
def domainDrop (s : State) (d : Nat) : State :=
  if d < 8 then
    let s := lanes24.foldl (engineDrop (d - 2)) s
    camPortOff ((List.range 4).foldl (fun s k => laneDrop s (4 * (d - 2) + k)) s) (d - 2)
  else if d < 10 then camPipeOff s (d - 8)
  else if d = 10 then codecOff s
  else if d < 13 then throttleShow (setDramCh s (d - 11) { DramCh.reset with window := s.freeCtr }) (d - 11)
  else if d = 13 then fabricDrop s
  else afeLose s (d - 14)

/-- Registers whose status a domain loses when it is switched off: not those that DRAM channels, the camera contexts and the
recording keep, nor the fabric time that the CORE counter carries on (R454). -/
def losesStatus (d a : Nat) : Bool :=
  domainOf a == d &&
  (if d < 8 then true
   else if d < 10 then decide (a < 0x190200)
   else if d = 10 then decide (CMP_G_IN_LO 0 ≤ a) && decide (a < 0x250200)
   else if d < 13 then false
   else if d = 13 then !(decide (FTM_TIME_LO ≤ a) && decide (a ≤ FTM_INCR_HI))
   else true)

/-- The bits of a register that no reset of its domain clears: RDY and ALARM show the pins, and a lane's FAILED mark stays until it is
cleared or power-on reset (R425). -/
def stickyBits (a : Nat) : Word :=
  match regAt a with
  | none => 0
  | some (r, _, _) => if r.base = LAS_STS 0 then 0xC else if r.base = FAB_P_STS 0 then 0x30000 else 0

/-- The bits of a register that its retention cells keep: its configuration fields, and the enlarger map's validity and
identity, whose map stands in SRAM (R87); RDY and ALARM follow their pins. -/
def keptMask (a : Nat) : Word :=
  match regAt a with
  | none => 0
  | some (r, _, _) =>
    let w := r.fields.foldl (fun m f => if f.acc == .rw || f.acc == .rwl then setBits m f.hi f.lo (2 ^ (f.hi - f.lo + 1) - 1) else m) 0
    if r.base = SCN_STS 0 then setBits w 10 10 1
    else if r.base = SCN_MAP_ID 0 then BitVec.allOnes 32
    else w ||| stickyBits a

/-- The status fields of domain `d` return to their reset values; configuration stays. -/
def dropStatus (s : State) (d : Nat) : State :=
  let kept (e : Nat × Word) : Nat × Word :=
    if losesStatus d e.1 then (e.1, (e.2 &&& keptMask e.1) ||| (regReset e.1 &&& ~~~keptMask e.1)) else e
  shutterShow { s with regs := s.regs.map kept }

/-- Every register of domain `d` returns to its reset value, and writes that wait are dropped (R93). Fabric time continues
(R454); a channel of the other DRAM domain keeps its state. -/
def resetRegs (s : State) (d : Nat) : State :=
  let gone (a : Nat) : Bool := domainOf a == d && !(decide (FTM_TIME_LO ≤ a) && decide (a ≤ FTM_INCR_HI)) && a != DDR_STS
  let regs := s.regs.map (fun e => if gone e.1 then (e.1, (e.2 &&& stickyBits e.1) ||| (regReset e.1 &&& ~~~stickyBits e.1)) else e)
  let s := shutterShow { s with regs := regs, shadow := s.shadow.filter (fun e => !gone e.1), live := s.live.filter (fun e => !gone e.1) }
  if d = 11 then throttleShow (setFlag (setFlag s DDR_STS 0 false) DDR_STS 8 false) 1
  else if d = 12 then setFlag s DDR_STS 9 false else s

/-- Domain `d` is on again (R87, R93): links restart, inputs wake, self-refresh ends, and the fabric forms anew with the
ports whose MODE asks for it in training (R104). -/
def domainUp (s : State) (d : Nat) : State :=
  if d < 8 then (List.range 4).foldl (fun s k => linkRestart s (4 * (d - 2) + k)) s
  else if d < 11 then s
  else if d < 13 then (if chState s (d - 11) = chSelfRefresh then setChState s (d - 11) chReadySt else s)
  else if d = 13 then
    let s := trigShow (fabricUp s)
    ports4.foldl (fun s p =>
      if fld s (FAB_P_CFG p) 1 0 = 1 || fld s (FAB_P_CFG p) 1 0 = 2 then dieTake (setPort s p pTraining) 2 p else s) s
  else afeUp s (d - 14)

/-! ### Commands and their ends -/

/-- POWER_DOMAIN (R86 to R88, R501). FORCE ends the transfers that hold the domain. -/
def execPowerDomain (h : Issue) (d st flags : Nat) (s : State) : Host.Outcome State Fault Refusal :=
  whileClocked s fun s =>
  hostCmd s h (.powerDomain h d st flags) 0x0008 48
    (fun s =>
      let same := domOn s d == (st == 1)
      [(decide (2 ≤ d) && decide (d ≤ 19) && decide (st ≤ 1) && decide (flags ≤ 1), .badParam),
       (same || st == 1 || offCond s d, .wrongState),
       (!switching s d && (same || st == 1 || flags == 1 || !inUse s d) &&
         (same || st == 1 || !isRunning s 0x0901 (d - 11) || d < 11 || decide (12 < d)), .busy)])
    (fun s =>
      if domOn s d = (st == 1) then complete s h 0x0008 .ok (domainsOn s) 0 0 0
      else
        let s := if st = 0 && flags = 1 then
                   (if d = 10 then codecOff s else if d = 11 || d = 12 then dmaForceOff s (d - 11) else s)
                 else s
        startRun { s with pwr := { s.pwr with switching := s.pwr.switching ++ [(d, st == 1)] } } h 0x0008 d [])

/-- DOMAIN_SWITCH_DONE (R88): the switching in progress of domain `d` is finished. -/
def execDomainSwitchDone (d : Nat) (s : State) : Host.Outcome State Fault Refusal :=
  whileClocked s fun s =>
    match takeFirst (fun p : Nat × Bool => p.1 == d) s.pwr.switching with
    | none => s
    | some ((_, on), rest) =>
      let s := { s with pwr := { s.pwr with switching := rest } }
      let s :=
        if on then domainUp (setDomain s d true) d
        else
          let s := if (d = 11 || d = 12) && chReady s (d - 11) then setChState s (d - 11) chSelfRefresh else s
          setDomain (dropStatus (domainDrop s d) d) d false
      finishRun s 0x0008 d .ok (domainsOn s) 0 0 0

/-- A DRAM channel under RESET_DOMAIN (R93, R473): UNCONFIGURED, its contents undefined and a training in progress ended. -/
def ddrReset (s : State) (c : Nat) : State :=
  let s := loseChannel s c
  finishRun (dieRelease (setChState s c chUnconfigured) 0 c) 0x0901 c .domainOff 0 0 0 0

/-- RESET_DOMAIN (R93): the domain is held in reset from here until its release. -/
def execResetDomain (h : Issue) (d : Nat) (s : State) : Host.Outcome State Fault Refusal :=
  whileClocked s fun s =>
  hostCmd s h (.resetDomain h d) 0x0003 48
    (fun s => [(decide (2 ≤ d) && decide (d ≤ 19), .badParam), (domOn s d, .domainOff), (offCond s d, .wrongState),
               (!switching s d && !inUse s d, .busy)])
    (fun s =>
      let s := domainDrop s d
      let s := if d = 11 || d = 12 then ddrReset s (d - 11) else s
      let s := setDomain (followMap s (resetRegs s d)) d false
      startRun { s with pwr := { s.pwr with inReset := natSet s.pwr.inReset d } } h 0x0003 d [])

/-- DOMAIN_RESET_RELEASE (R93). -/
def execDomainResetRelease (d : Nat) (s : State) : Host.Outcome State Fault Refusal :=
  whileClocked s fun s =>
    if !s.pwr.inReset.testBit d then s
    else
      let s := setDomain { s with pwr := { s.pwr with inReset := natClr s.pwr.inReset d } } d true
      let s := domainUp s d
      finishRun s 0x0003 d .ok (domainsOn s) 0 0 0

end Sys2Proof.Machine
end

