-- ==== Sys2Proof/Machine/Layer.lean ====
section
/-!
DEFINITION. The layer state machine and its commands (R178 to R200): arming, the common start, stop baths, resume, abort, the end
of a layer and its contact sheet; underruns that repeat and re-marking after an underrun (R189, R193).
-/

namespace Sys2Proof.Machine

/-! ### Arming (R182) -/

/-- Reports of the plate-group peers, one for each that gave one. -/
def groupReports (s : State) (peers : List PeerArm) : List (Option PeerArm) :=
  (groupPeers s).map (fun a => peers.find? (fun p => p.addr == a))

/-- Every peer's report satisfies `p`; a peer without a report counts as `d`. -/
def peersAll (s : State) (peers : List PeerArm) (d : Bool) (p : PeerArm → Bool) : Bool :=
  (groupReports s peers).all (fun r => match r with
    | some x => p x
    | none => d)

/-- Window cells hold the map field of lane `n` (R361). -/
def fieldInWindow (s : State) (n : Nat) : Bool :=
  let c : Int := bCell s
  let x0 := rdI s BURN_ORIGIN_X + bX0 s * c
  let y0 := rdI s BURN_ORIGIN_Y + bY0 s * c
  let w : Int := 64 * mapPitch s n
  decide (x0 ≤ mapOx s n) && decide (mapOx s n + w ≤ x0 + bW s * c) && decide (y0 ≤ mapOy s n) && decide (mapOy s n + w ≤ y0 + bH s * c)

/-- The burn map checks of R361. -/
def burnArmOk (s : State) (peers : List PeerArm) : Bool :=
  let o := ownWin s
  !burnOn s ||
  (decide (0x800000 + bLen s ≤ s.seq.devLen) && (bitList (laneMask s) 24).all (fieldInWindow s) &&
   peersAll s peers false (fun p => p.burn.enable == o.enable && p.burn.ox == o.ox && p.burn.oy == o.oy && p.burn.cell == o.cell &&
     p.burn.gw == o.gw && p.burn.gh == o.gh) && flag s BURN_STS 0)

/-- Every candidate on another device, in every lane set that the layer's records name, is in the plate group (R168). -/
def candidatesOk (s : State) : Bool :=
  match s.seq.held with
  | some l => l.sets.all (fun i => (candidates s i).all (fun c => c.1 == ownAddr s || (groupPeers s).contains c.1))
  | none => true

/-- The checks of LAYER_ARM, in order: order number, status, whether it passes for a lane of LANE_MASK, or for no single lane. -/
def armChecks (s : State) (layer : Nat) (peers : List PeerArm) : List (Nat × Status × (Nat → Bool) × Bool) :=
  let all (k : Nat) (st : Status) (b : Bool) : Nat × Status × (Nat → Bool) × Bool := (k, st, fun _ => true, b)
  let each (k : Nat) (st : Status) (p : Nat → Bool) : Nat × Status × (Nat → Bool) × Bool := (k, st, p, true)
  [all 1 .badParam (s.seq.held.isNone || layer == rdN s SEQ_LAYER),
   each 2 .domainOff (fun n => domOn s (2 + quadOf n) && domOn s (afeDom n)),
   each 3 .faultActive (fun n => !laneFaulted s n),
   all 4 .wrongState (layerSt s == stLoaded),
   all 5 .busy (chState s 0 != chTraining && chState s 1 != chTraining && !burnBusy s),
   each 6 .cfgRejected (fun n => flag s (LN_CFG n) 0),
   each 7 .cfgRejected (fun n => !portOff s n),
   each 8 .cfgRejected (mapValid s),
   each 9 .cfgRejected (fun n => decide (linkGen s n < 2) || (linkState s n == 2 && flag s (SCN_STS n) 5)),
   each 10 .cfgRejected (fun n => !flag s (LAS_STS n) 2 && flag s (LAS_STS n) 3),
   all 11 .cfgRejected (peersAll s peers true (fun p => p.rate % 3 == (fld s SEQ_CFG 1 0) % 3)),
   all 12 .cfgRejected (peersAll s peers false (fun p => p.job != 0 && s.seq.job == some p.job)),
   all 13 .cfgRejected (candidatesOk s),
   all 14 .cfgRejected (peersAll s peers false (fun p => p.plume == flag s PLM_CFG 31 && p.flow == rdN s PLM_FLOW &&
     p.length == rdN s PLM_LENGTH && p.half == rdN s PLM_HALF_WIDTH)),
   all 15 .cfgRejected (burnArmOk s peers)]

/-- The first check that fails: its order, its status and the lane. -/
def armFails (s : State) (layer : Nat) (peers : List PeerArm) : Option (Nat × Status × Nat) :=
  (armChecks s layer peers).findSome? (fun c =>
    if !c.2.2.2 then some (c.1, c.2.1, 0xFF)
    else ((bitList (laneMask s) 24).find? (fun n => !c.2.2.1 n)).map (fun n => (c.1, c.2.1, n)))

/-- Lane `n` prepared for a layer: its work, recipe and counters are cleared; its scanner, link, inputs, loops and jog stay. -/
def laneFresh (l : Lane) : Lane :=
  { l with written := 0, head := 0, refillErr := none, atEnd := false, cur := none, succ := none, recipe := none, kept := [], holdFs := 0
           claimed := [], trSum := 0, trCount := 0, gates := [], exitSpeed := 0, corner := false, startAt := none, gateWork := none
           waited := none, marker := none, energy := 0, remark := none, retarget := if l.jog.isSome then l.retarget else none, shut := false
           sheet := [], claimOut := none, trs := [], under := false, refillBad := false, passed := [], endSpeed := none, restAt := 0, loops := l.loops.map (fun p => (p.1, { p.2 with said := false })) }

/-- Lane `n` at LAYER_ARM. -/
def armLane (s : State) (n : Nat) : State :=
  let s := wrN (wrN (fillShow (updLane s n laneFresh) n) (LN_UNDERRUNS n) 0) (SCN_DEV_MAX n) 0
  if !flag s (LN_CFG n) 0 then s
  else if laneFaulted s n then setPhase s n .halted
  else
    let on := (laneMask s).testBit n
    emitRise (setPhase (updLane s n (fun l => { l with atEnd := !on })) n (if on then .priming else .ready)) n

/-- Counters that LAYER_ARM clears (R262, R295, R372; `CMP_Qq_OUT`). -/
def armCounters (s : State) : State :=
  let s := (List.range 6).foldl (fun s q => wrN s (CMP_Q_OUT q) 0) s
  [OVL_CLAIMS_LOCAL, OVL_GRANTS_REMOTE, OVL_TAKEN_REMOTE, OVL_RETURNS, OVL_CLAIM_TIMEOUTS, OVL_SPLITS, BURN_MISSES, LEDG_PEAK].foldl
    (fun s a => wrN s a 0) s

/-- Alarms that stand when the layer becomes ARMED are faults of its lanes (R228, R247). -/
def armAlarms (s : State) : State :=
  lanes24.foldl (fun s n =>
    if !laneInLayer s n then s
    else
      let s := if flag s (SCN_STS n) 6 then raiseFault s clsLane 0x0109 (srcLane n) [] else s
      if flag s (LAS_STS n) 2 then raiseFault s clsLane 0x010A (srcLane n) [] else s) s

/-- The device at LAYER_ARM (R182): ARMED, lanes prepared, EMIT up, refill under way. -/
def armNow (s : State) (peers : List PeerArm) : State :=
  let s := setLayerSt s stArmed
  let s := { s with
    ovl := { s.ovl with pool := [], claims := [] }
    burn := { s.burn with peers := peers.map (fun p => (p.addr, p.burn)) }
    cams := s.cams.map (fun p => (p.1, { p.2 with clipped := false }))
    seq := { s.seq with start := none, started := false, startTick := 0, stopReq := false, abortReq := none, stopAt := 0, lastPark := 0
                        splitMask := 0, finishMask := 0, stopBaths := 0, pausedNs := 0, holdoverTicks := 0
                        maxTemp := (List.range 16).foldl (fun m t => if m < thmTemp s t then thmTemp s t else m) (thmTemp s 0)
                        maxSensor := ((List.range 16).find? (fun t => (List.range 16).all (fun u => decide (thmTemp s u ≤ thmTemp s t)))).getD 0
                        unmapped := [], borderSeen := 0 } }
  let s := wr64 s SEQ_START_LO SEQ_START_HI 0
  armAlarms (poolShow (recArm (lanes24.foldl armLane (ledgerClear (armCounters s)))))

/-- LAYER_ARM (R182): `peers` are the reports of the plate-group members. -/
def execLayerArm (h : Issue) (layer : Nat) (peers : List PeerArm) (s : State) : Host.Outcome State Fault Refusal :=
  whileClocked s fun s =>
  hostCmd s h (.layerArm h layer peers) 0x0106 48 (fun _ => [])
    (fun s =>
      match armFails s layer peers with
      | some (k, st, n) => complete s h 0x0106 st 0 k n 0
      | none => primeDone (startRun (armNow s peers) h 0x0106 0 []))

/-! ### Starting together (R183, R184) -/

/-- LAYER matches the layer held; where none is held it is not compared (R180). -/
def layerMatch (s : State) (layer : Nat) : Bool := s.seq.held.isNone || layer == rdN s SEQ_LAYER

/-- A peer has reported the layer with another START (R184). -/
def startDiffers (s : State) (start : Nat) : Bool :=
  s.seq.peerStart.any (fun p => (groupPeers s).contains p.1 && p.2.1 == rdN s SEQ_LAYER && p.2.2 != start)

/-- A fault forbids a start (R183, R193): an entry of class LAYER or above. While the pause level holds, the entry that it raised leaves the
answer to the temperature check (R111; assumption 107). -/
def startFaulted (s : State) : Bool :=
  let pause (code : Nat) (gone : Bool) : Bool := s.thm.paused && code == 0x0201 && !gone
  fltIx.any (fun i => fld s (FLT_ENTRY_W0 i) 31 30 != 0 && decide (clsLayer ≤ fld s (FLT_ENTRY_W0 i) 29 27) &&
    !pause (fld s (FLT_ENTRY_W0 i) 15 0) (fld s (FLT_ENTRY_W0 i) 31 30 == 2)) ||
  s.evr.loose.any (fun f => decide (clsLayer ≤ f.cls) && !pause f.code f.gone)

/-- Checks that LAYER_EXPOSE and RESUME share (R183, R193). -/
def startChecks (s : State) (layer start st : Nat) : List (Bool × Status) :=
  [(layerMatch s layer, .badParam), (decide (now s + 50000 ≤ start), .badParam), (!startFaulted s, .faultActive),
   (layerSt s == st, .wrongState), (!s.thm.paused, .tempForbidden), (s.seq.start.isNone, .busy)]

/-- A start refused for a peer's (R184): reported, and the reports it was held against are over. -/
def startRefused (s : State) (start : Nat) : State := dropStart (noticeGroup s 0 start 0)

/-- A start accepted: reported to the plate group, and pending. -/
def startPend (s : State) (start : Nat) (resume : Bool) : State :=
  noticeGroup (setFlag { s with seq := { s.seq with start := some (start, resume) } } SEQ_STS 5 true) 0 start 0

/-- LAYER_EXPOSE (R183 to R185). -/
def execLayerExpose (h : Issue) (layer start : Nat) (s : State) : Host.Outcome State Fault Refusal :=
  whileClocked s fun s =>
  hostCmd s h (.layerExpose h layer start) 0x0107 48 (fun s => startChecks s layer start stArmed)
    (fun s =>
      if startDiffers s start then fail (startRefused s start) h 0x0107 .cfgRejected
      else startRun (startPend s start false) h 0x0107 0 [])

/-- The ledger at a start boundary (R256). -/
def ledgerStart (s : State) : State :=
  wrN { s with ledger := { s.ledger with still := some (tickNo s) } } LEDG_CEILING (ledgerG s)

/-- A lane of the layer looks for work, from the present boundary on; one enabled since LAYER_ARM does not (assumption 103). -/
def laneGo (s : State) (n : Nat) : State :=
  if laneInLayer s n && (lane s n).phase != .halted && (lane s n).phase != .idle then laneDecide (setPhase (findPlate s n) n .free) n else s

/-- LAYER_START (R183): the first tick boundary at or after START. -/
def execLayerStart (s : State) : Host.Outcome State Fault Refusal :=
  whileClocked s fun s =>
    match s.seq.start with
    | some (t, false) =>
      if layerSt s = stArmed && decide (t ≤ now s) then
        let s := dropStart (setLayerSt s stExposing)
        let s := wr64 s SEQ_START_LO SEQ_START_HI (now s)
        let s := { s with seq := { s.seq with started := true, startTick := tickNo s }
                          recording := { s.recording with syncDue := true } }
        lanes24.foldl laneGo (ledgerStart s)
      else s
    | _ => s

/-! ### The layer's work (R182) -/

/-- A lane of LANE_MASK has nothing left: the end of its stream executed, nothing kept, claimed, current or lit. -/
def laneResolved (s : State) (n : Nat) : Bool :=
  let l := lane s n
  l.phase == .halted || !(laneMask s).testBit n ||
  (l.phase == .ended && l.atEnd && l.cur.isNone && l.succ.isNone && l.kept.isEmpty && l.claimed.isEmpty && l.gates.all (·.settled))

/-- Work of another device that the lane has claimed and that is neither marked nor returned. -/
def claimsLeft (s : State) (n : Nat) : Bool :=
  let l := lane s n
  (l.cur.toList ++ l.succ.toList ++ l.kept ++ l.claimed ++ (l.gates.filter (fun g => !g.settled)).map (·.work)).any (fun w => w.src == 3)

/-- The layer's work is resolved (R182). -/
def resolved (s : State) : Bool :=
  lanes24.all (laneResolved s) && s.ovl.pool.isEmpty && lanes24.all (fun n => (lane s n).phase == .halted || !claimsLeft s n)

/-! ### Stop bath (R190 to R192) -/

/-- STOP_BATH (R192): in PAUSED it completes at once; with SCOPE 1 a RESUME that waits is cancelled too (R178). -/
def execStopBath (h : Issue) (scope : Nat) (s : State) : Host.Outcome State Fault Refusal :=
  whileClocked s fun s =>
  hostCmd s h (.stopBath h scope) 0x0108 48
    (fun s => [(decide (scope < 2), .badParam),
               (layerSt s == stExposing || layerSt s == stStopBath || layerSt s == stPaused, .wrongState)])
    (fun s =>
      let s := if scope = 1 then noticeGroup s 1 (now s) 0 else s
      if layerSt s = stPaused then
        let s := if scope = 1 then cancelStart s .wrongState else s
        complete s h 0x0108 .ok 0 0 0 0
      else startRun (requestStop s .wrongState) h 0x0108 0 [])

/-- Work taken off lane `n` to be kept: its current piece, then its successor. Work of other homes that has not started goes back
to its pool (R278), and a remainder stays. `hold` is what is left of a dwell. -/
def keepWork (s : State) (n : Nat) (dropJump : Bool) (hold : Option Int) : State :=
  let l := lane s n
  let cur := (l.cur.toList.filter (fun w => !(dropJump && w.rcd.ty == 1))).map (fun w => match hold with
    | some t => { w with resume := some t }
    | none => w)
  let mine := cur ++ l.succ.toList ++ l.kept
  let back (w : Work) : Bool := decide (2 ≤ w.src) && w.resume.isNone
  let s := updLane s n (fun l => { l with cur := none, succ := none, kept := mine.filter (fun w => !back w)
                                          claimed := l.claimed.filter (fun w => decide (w.src < 2)), startAt := none, endSpeed := none
                                          corner := false, under := false, waited := none })
  (mine.filter back ++ l.claimed.filter (fun w => decide (2 ≤ w.src))).foldl (fun s w => returnWork s n w none) s

/-- Lane `n` stops: it has parked once it stands with its laser off (R190). -/
def parkOrStop (s : State) (n : Nat) : State :=
  parkDue (setPhase (updLane s n (fun l => { l with restAt := nowFs s })) n .stopping) n

/-- The grants of the current mark and of the successor are released (R257). -/
def releaseWork (s : State) (n : Nat) : State := releaseSlot (releaseSlot s n 0) n 1

/-- At most FINISH µs of marking are left at the present speed (R190). -/
def finishes (s : State) (n : Nat) : Bool :=
  let (left, v, _) := leftOn s n
  decide (left * 1000000 ≤ (fld s SEQ_STOP_CFG 8 0 : Int) * v * 65536)

/-- Lane `n`, marking, finishes its mark and comes to rest. -/
def finishMarkNow (s : State) (n : Nat) : State :=
  let c := (lane s n).cur
  let s := keepWork (updLane s n (fun q => { q with cur := none })) n true none
  let s := releaseSlot (updLane s n (fun q => { q with cur := c })) n 1
  let s := match c with
    | some w => fallFollows s n w
    | none => s
  { s with seq := { s.seq with finishMask := natSet s.seq.finishMask n } }

/-- Lane `n`, marking, splits: the remainder stays with it, a claimed one as well (R278). -/
def splitMarkNow (s : State) (n : Nat) : State :=
  let s := keepWork (splitNow (releaseWork s n) n .stopping) n true none
  parkOrStop { s with seq := { s.seq with splitMask := natSet s.seq.splitMask n } } n

/-- Lane `n` leaves what it does, `hold` being what is left of a dwell; GATE stays high only for a mark that has ended. -/
def leaveWork (s : State) (n : Nat) (hold : Option Int) : State :=
  updLane (keepWork (releaseWork (gateDrop s n) n) n true hold) n (fun l => { l with holdFs := 0, retarget := none })

/-- Lane `n` at the effective boundary of a stop bath (R190). -/
def bathLane (s : State) (n : Nat) : State :=
  let l := lane s n
  match l.phase with
  | .halted => s
  | .idle => s
  | .ended => keepWork s n true none
  | .marking => if finishes s n then finishMarkNow s n else splitMarkNow s n
  | .runup => parkOrStop (stopMotion (leaveWork s n none) n) n
  | .jump => parkOrStop (stopMotion (leaveWork s n none) n) n
  | .dwell => parkOrStop (leaveWork s n (some l.holdFs)) n
  | .switching => parkOrStop (leaveWork s n (some l.holdFs)) n
  | _ => parkOrStop (leaveWork s n none) n

/-- STOP_BATH_EFFECT (R190): the first tick boundary after the request; the completion of all work and an abort that is due come
first (R179). -/
def execStopBathEffect (s : State) : Host.Outcome State Fault Refusal :=
  whileClocked s fun s =>
    if layerSt s ≠ stExposing || !s.seq.stopReq || s.seq.abortReq.isSome || resolved s then s
    else
      let s := setLayerSt { s with seq := { s.seq with stopReq := false, stopAt := now s, lastPark := now s, splitMask := 0, finishMask := 0
                                                       stopBaths := s.seq.stopBaths + 1 } } stStopBath
      poolShow (lanes24.foldl (fun s n => if laneInLayer s n then bathLane s n else s) s)

/-- Every lane of the layer has parked or halted; one at the end of its stream has parked when its laser is off. -/
def allParked (s : State) : Bool :=
  lanes24.all (fun n => !laneInLayer s n || (match (lane s n).phase with
    | .parked => true
    | .halted => true
    | .ended => !gateOf s n && (lane s n).gates.all (·.settled)
    | .idle => true
    | _ => false))

/-- STOP_BATH_END (R191): the layer becomes PAUSED and STOP_BATH completes. -/
def execStopBathEnd (s : State) : Host.Outcome State Fault Refusal :=
  whileClocked s fun s =>
    if layerSt s ≠ stStopBath || !allParked s then s
    else
      let s := ledgerShow { s with ledger := { s.ledger with grants := s.ledger.grants.filter (fun g => g.slot != 3) } }
      settle (finishAll (setLayerSt s stPaused) 0x0108 0 .ok (s.seq.lastPark - s.seq.stopAt) s.seq.splitMask s.seq.finishMask 0)

/-- STOP_TIMEOUT (R191): lanes that have not parked within TIMEOUT halt. -/
def execStopTimeout (s : State) : Host.Outcome State Fault Refusal :=
  whileClocked s fun s =>
    if layerSt s ≠ stStopBath || !reached s (s.seq.stopAt + fld s SEQ_STOP_CFG 19 16 * 1000000) then s
    else
      lanes24.foldl (fun s n =>
        let p := (lane s n).phase
        if laneInLayer s n && !(p == .parked || p == .halted || p == .ended || p == .idle) then raiseOnce s clsLane 0x0103 (srcLane n) [] else s) s

/-! ### Resume (R193, R194) -/

/-- RESUME. -/
def execResume (h : Issue) (layer start : Nat) (s : State) : Host.Outcome State Fault Refusal :=
  whileClocked s fun s =>
  hostCmd s h (.resume h layer start) 0x0109 48 (fun s => startChecks s layer start stPaused)
    (fun s =>
      if startDiffers s start then fail (startRefused s start) h 0x0109 .cfgRejected
      else startRun (startPend s start true) h 0x0109 0 [])

/-- Lane `n` at the start boundary of a RESUME: a halted lane whose fault has been cleared resumes, one still faulted stays
halted. -/
def resumeLane (s : State) (n : Nat) : State :=
  if !laneInLayer s n then s
  else if (lane s n).phase == .halted then
    if laneFaulted s n then s
    else laneGo (setPhase (emitRise (updLane (keepWork s n true none) n (fun l => { l with holdFs := 0 })) n) n .free) n
  else laneGo s n

/-- RESUME_START (R193): the first tick boundary at or after START. -/
def execResumeStart (s : State) : Host.Outcome State Fault Refusal :=
  whileClocked s fun s =>
    match s.seq.start with
    | some (t, true) =>
      if layerSt s = stPaused && decide (t ≤ now s) then
        let s := dropStart (setLayerSt s stExposing)
        let s := { s with seq := { s.seq with pausedNs := s.seq.pausedNs + (now s - s.seq.stopAt) } }
        finishRun (lanes24.foldl resumeLane (ledgerStart s)) 0x0109 0 .ok 0 0 0 0
      else s
    | _ => s

/-! ### Contact sheet (R197 to R200) -/

/-- A counter of a lane's sheet. -/
def sheetAt (s : State) (n off : Nat) : Nat := mget 0 (lane s n).sheet off

/-- A lane record (R199). -/
def sheetLane (s : State) (n : Nat) : List Byte :=
  let l := lane s n
  let sts := b2n ((laneMask s).testBit n) + 2 * b2n (l.phase == .halted) + 4 * b2n (sheetAt s n 2 == 1)
  let w (o : Nat) : List Byte := leBytes 4 (sheetAt s n o)
  let b := leBytes 1 n ++ leBytes 1 (engineOf s n) ++ leBytes 1 sts ++ zeros 1 ++
    (List.range 22).flatMap (fun i => w (4 + 4 * i)) ++ leBytes 8 (sheetAt s n 92) ++ leBytes 8 (sheetAt s n 100) ++
    leBytes 4 (rdN s (SCN_DEV_MAX n)) ++ w 112 ++ w 116 ++ w 120 ++ w 124 ++ zeros 124
  b ++ leBytes 4 (crc32c b)

/-- The header (R198). -/
def sheetHeader (s : State) (final : Nat) (c : EndCause) : List Byte :=
  let seed := (s.seq.held.map (·.seed)).getD 0
  let halted := (lanes24.filter (fun n => (lane s n).phase == .halted && laneInLayer s n)).foldl natSet 0
  let dev := ownAddr s + (if flag s FAB_STS 18 then fld s FAB_STS 17 16 * 32 else 0)
  let rate := if fld s SEQ_CFG 1 0 = 3 then 0 else fld s SEQ_CFG 1 0
  let b := leBytes 4 0x54534843 ++ leBytes 4 1 ++ leBytes 4 (rdN s SEQ_LAYER) ++ leBytes 4 (s.seq.job.getD 0) ++
    leBytes 8 (rd64 s SEQ_START_LO SEQ_START_HI) ++ leBytes 8 (now s) ++ leBytes 1 final ++ leBytes 1 c.cause ++ leBytes 1 dev ++
    leBytes 1 rate ++ leBytes 4 (laneMask s) ++ leBytes 4 halted ++ leBytes 4 s.seq.stopBaths ++ leBytes 8 s.seq.pausedNs ++
    leBytes 4 s.seq.holdoverTicks ++ leBytes 4 seed ++ leBytes 4 c.fault ++ leBytes 2 (unsgn 16 s.seq.maxTemp) ++ leBytes 1 s.seq.maxSensor ++
    zeros 437
  b ++ leBytes 4 (crc32c b)

/-- The slot of a layer's sheet. -/
def sheetSlot (dev layer : Nat) : Nat := dev + layer % 1024 * 8192

/-- The sheet written to its slot, the rest of it zero, while its memory serves (R197). -/
def sheetWrite (s : State) (final : Nat) (c : EndCause) : State :=
  let a := sheetSlot s.seq.devBase (rdN s SEQ_LAYER)
  if dramOk s a 8192 then putDram s a (sheetHeader s final c ++ lanes24.flatMap (sheetLane s) ++ zeros 1536) else s

/-- CONTACT_SHEET_READ (R200). -/
def execContactSheetRead (h : Issue) (layer addr : Nat) (s : State) : Host.Outcome State Fault Refusal :=
  whileClocked s fun s =>
  hostCmd s h (.contactSheetRead h layer addr) 0x010B 48
    (fun s => [(hostAddrOk h addr 64, .badParam), (s.seq.lastDev.isSome, .wrongState)])
    (fun s =>
      let a := sheetSlot (s.seq.lastDev.getD 0) layer
      if !dramOk s a 6656 then fail s h 0x010B .cfgRejected
      else
        let b := dramBytes s a 6656
        if leAt b 8 4 ≠ layer then fail s h 0x010B .badParam
        else
          let recOk (n : Nat) : Bool := crc32c ((b.drop (512 + 256 * n)).take 252) == leAt b (512 + 256 * n + 252) 4
          let ok := crc32c (b.take 508) == leAt b 508 4 && lanes24.all recOk
          complete (hostResult s addr b) h 0x010B (if ok then .ok else .dataCrc) 0 0 0 0)

/-! ### The end of a layer (R182, R185, R195) -/

/-- What every lane of a layer that ends becomes: dark, without work, its scanner coming to rest. -/
def endLane (s : State) (n : Nat) : State :=
  let s := stopMotion (darken s n) n
  let s := updLane s n (fun l => { l with written := 0, head := 0, refillErr := none, cur := none, succ := none, kept := [], claimed := [], trs := []
                                          holdFs := 0, startAt := none, gateWork := none, remark := none, retarget := none, claimOut := none
                                          exitSpeed := 0, corner := false, under := false, passed := [], endSpeed := none, refillBad := false })
  fillShow (setPhase s n .idle) n

/-- The results of LAYER_EXPOSE (R185); a layer aborted before its start has no start tick to report. -/
def finishExpose (s : State) (st : Status) (r0 extra : Nat) : State :=
  let t0 := if s.seq.started then s.seq.startTick else (Config.freeWord s.freeCtr).toNat
  finishRun (if s.seq.started then s else tick1 s) 0x0107 0 st r0 t0 (tickNo s) extra

/-- The device once its layer has ended: the ledger and the pools are empty, the recording stream and the burn map follow. -/
def layerOver (s : State) (st : Nat) (aborted : Bool) : State :=
  let en := lanes24.filter (fun n => flag s (LN_CFG n) 0)
  let s := ledgerClear { s with ovl := { s.ovl with pool := [], claims := [] } }
  let s := burnLayerEnd (recEnd (en.foldl endLane s)) aborted
  let s := setFlag (setLayerSt s st) SEQ_STS 5 false
  poolShow { s with seq := { s.seq with start := none, stopReq := false, abortReq := none, peerStart := [] } }

/-- Stop baths under way when the layer pauses no more. -/
def pausedSoFar (s : State) : State :=
  if layerSt s = stStopBath || layerSt s = stPaused then
    { s with seq := { s.seq with pausedNs := s.seq.pausedNs + (now s - s.seq.stopAt) } }
  else s

/-- LAYER_ABORT (R195). -/
def execLayerAbort (h : Issue) (scope : Nat) (s : State) : Host.Outcome State Fault Refusal :=
  whileClocked s fun s =>
  hostCmd s h (.layerAbort h scope) 0x010A 48
    (fun s => [(decide (scope < 2), .badParam), (decide (stLoading ≤ layerSt s) && decide (layerSt s ≤ stPaused), .wrongState)])
    (fun s =>
      let s := if scope = 1 then noticeGroup s 2 (now s) 0 else s
      startRun (requestAbort s ⟨1, 0⟩) h 0x010A 0 [])

/-- ABORT_EFFECT (R195, R178): the boundary after acceptance, or after a DEVICE or FATAL fault; the completion of all work comes before a
LAYER_ABORT (R179). -/
def execAbortEffect (s : State) : Host.Outcome State Fault Refusal :=
  whileClocked s fun s =>
    match s.seq.abortReq with
    | none => s
    | some c =>
      let was := layerSt s
      let st : Status := if c.cause = 2 then .faultActive else .wrongState
      if was < stLoading || stPaused < was then { s with seq := { s.seq with abortReq := none } }
      else if c.cause = 1 && was = stExposing && resolved s then s
      else
        let s := finishRun s 0x0105 0 .wrongState 0 0 0 0
        let s := finishRun s 0x0106 0 st (primedCount s) 0 0 0
        let s := pausedSoFar s
        let s := if s.seq.started && decide (stExposing ≤ was) then sheetWrite s 8 c else s
        let baths := s.seq.stopBaths
        let s := finishRun s 0x0109 0 st 0 0 0 0
        let s := finishExpose s st 8 (if c.cause = 2 then c.fault else baths)
        let s := if was = stLoading then loadShow { s with seq := { s.seq with loading := none, loadBad := false } } false else s
        let s := if stArmed ≤ was then layerOver s stAborted true
                 else setLayerSt { s with seq := { s.seq with abortReq := none, peerStart := [] } } stAborted
        settle (finishAll (finishAll s 0x0108 0 .wrongState 0 0 0 0) 0x010A 0 .ok 0 0 0 0)

/-- A halted lane of LANE_MASK has work left (R185). -/
def workLeft (s : State) (n : Nat) : Bool :=
  let l := lane s n
  (lane s n).phase == .halted && (laneMask s).testBit n && (!l.atEnd || l.cur.isSome || l.succ.isSome || !l.kept.isEmpty)

/-- LAYER_DONE (R178, R182, R185): all work resolved; an abort for a DEVICE or FATAL fault comes first (R179). -/
def execLayerDone (s : State) : Host.Outcome State Fault Refusal :=
  whileClocked s fun s =>
    let dev := match s.seq.abortReq with
      | some c => c.cause == 2
      | none => false
    if layerSt s ≠ stExposing || !resolved s || dev then s
    else
      let left := lanes24.filter (workLeft s)
      let halted := (lanes24.filter (fun n => laneInLayer s n && (lane s n).phase == .halted)).foldl natSet 0
      let s := sheetWrite s 7 ⟨0, 0⟩
      let s := finishExpose s (if left.isEmpty then .ok else .faultActive) 7 (if left.isEmpty then s.seq.stopBaths else halted)
      let s := layerOver s stDone false
      settle (finishAll (finishAll s 0x0108 0 .wrongState 0 0 0 0) 0x010A 0 .wrongState 0 0 0 0)

/-! ### Underruns (R189, R193) -/

/-- UNDERRUN_REPEAT (R189). -/
def execUnderrunRepeat (n : Nat) (s : State) : Host.Outcome State Fault Refusal :=
  whileClocked s fun s =>
  if inLayer s && decide (fld s SEQ_CFG 15 8 < rdN s (LN_UNDERRUNS n)) && (lane s n).phase != .halted then
           raiseOnce s clsLane 0x0102 (srcLane n) []
         else s

/-- The buffer holds 64 records or the rest of the stream (R189), or its refill waits for an own entry that the lane has taken (R275). -/
def refilled (s : State) (n : Nat) : Bool :=
  let l := lane s n
  decide (l.head + 64 ≤ l.written) || l.refillErr.isSome || l.claimed.any (fun w => w.src == 1 && w.seg == 0) || (match streamOf s n with
    | some e => l.written == e.count
    | none => true)

/-- REMARK_START (R193): an underrun lane takes its work up again. -/
def execRemarkStart (n : Nat) (s : State) : Host.Outcome State Fault Refusal :=
  whileClocked s fun s =>
    let l := lane s n
    if layerSt s = stExposing && l.phase == .underrun && decide (l.motion.dur ≤ l.motion.t) && refilled s n then setPhase s n .free else s

/-! ### COMMIT of groups SEQ and LANE (R203) -/

/-- A lane outside LANE_MASK that is disabled while the layer stands gives back what it holds and ends. -/
def laneOut (s : State) (n : Nat) : State := endLane (releaseAll (returnClaims s n) n) n

/-- A commit of group LANE takes effect. A lane newly enabled takes part from the next LAYER_ARM on (assumption 103). -/
def laneTake (old s : State) : State :=
  if !inLayer s then s
  else poolShow (lanes24.foldl (fun s n => if flag old (LN_CFG n) 0 && !flag s (LN_CFG n) 0 then laneOut s n else s) s)

/-- The checks of group SEQ. -/
def seqChecks (_s n : State) : List (Nat × Bool) :=
  [(0x0101, decide (1 ≤ fld n SEQ_CFG 15 8)), (0x0102, decide (fld n SEQ_STOP_CFG 8 0 ≤ 500)),
   (0x0103, decide (3 ≤ fld n SEQ_STOP_CFG 19 16))]

/-- The check of group LANE. -/
def laneChecks (s n : State) : List (Nat × Bool) :=
  [(0x0201, lanes24.all (fun l => !(inLayer s && (laneMask s).testBit l) || !flag s (LN_CFG l) 0 || flag n (LN_CFG l) 0))]

end Sys2Proof.Machine
end

