-- ==== Sys2Proof/Machine/Pnl.lean ====
section
/-!
DEFINITION. The operator panel and status lighting (R536 to R551).
-/

namespace Sys2Proof.Machine

/-- The panel's recurring work: sampling, pattern ticks, light sensor readings and neighbour rounds. -/
inductive PnlWork where
  | sample | pattern | colour | round
  deriving DecidableEq, Repr

/-- Its number in `Panel.times`. -/
def PnlWork.key : PnlWork → Nat
  | .sample => 0
  | .pattern => 1
  | .colour => 2
  | .round => 3

/-- Its period in ns (R536, R542, R543, R547). -/
def PnlWork.ns (s : State) : PnlWork → Nat
  | .colour => 20000000
  | .round => fld s PNL_LED_CFG 31 24 * 1000000000
  | _ => 1000000

/-- Recurring work of the panel is done where its period has passed. -/
def pnlDue (s : State) (w : PnlWork) (f : State → State) : State :=
  if periodDue s ((s.panel.times.find? (fun p => p.1 == w.key)).map (·.2)) (w.ns s) then
    f { s with panel := { s.panel with times := mset s.panel.times w.key (now s) } }
  else s

/-! ### Inputs -/

/-- Panel input `i` beyond its registers. -/
def pnlIn (s : State) (i : Nat) : PnlIn := mget PnlIn.reset s.panel.inputs i

/-- `s` with panel input `i` set. -/
def setPnlIn (s : State) (i : Nat) (p : PnlIn) : State :=
  { s with panel := { s.panel with inputs := mset s.panel.inputs i p } }

/-- The filtered state of input `i`, as `PNL_IN_STS` shows it: keys at bits 15:0, pads at 23:16, plugs at 31:24. -/
def pnlOn (s : State) (i : Nat) : Bool := flag s PNL_IN_STS i

/-- Input `i` is enabled (R536). -/
def pnlEn (s : State) (i : Nat) : Bool :=
  if i < 16 then flag s PNL_KEY_CFG (16 + i) else if i < 24 then flag s PNL_TOUCH_CFG (24 + (i - 16))
  else flag s PNL_PLUG_CFG (8 + (i - 24))

/-- A numbered panel event (R539). -/
def pnlEvent (s : State) (kind num : Nat) : State :=
  let n := rdN s PNL_EVT_COUNT + 1
  let e := n % 256 * 2 ^ 24 + kind * 2 ^ 20 + num * 256 + satN 255 s.panel.sinceEvt
  let s := wrN (wrN s (PNL_EVT ((n - 1) % 64)) e) PNL_EVT_COUNT n
  { s with panel := { s.panel with sinceEvt := 0 } }

/-- The touch decision of a pad at a count, with its baseline (R538). -/
def padSample (s : State) (p count : Nat) : State × Bool :=
  let x := pnlIn s (16 + p)
  let b0 := if x.based then fld s (PNL_TOUCH p) 31 16 else count
  let b : Int := if x.based && !x.touched then (b0 : Int) + rdiv ((count : Int) - b0) 256 else b0
  let d := (count : Int) - b
  let th := fld s PNL_TOUCH_CFG 7 0
  let hy := fld s PNL_TOUCH_CFG 15 8
  let t := if (th : Int) ≤ d then true else if d < (th : Int) - hy then false else x.touched
  let s := setPnlIn s (16 + p) { x with touched := t, based := true }
  (setFld (setFld s (PNL_TOUCH p) 31 16 b.toNat) (PNL_TOUCH p) 15 0 count, t)

/-- The debounce of input `i` at a sampled level: whether its filtered state changes at this sample (R536). -/
def debounce (s : State) (i : Nat) (level : Bool) : State × Bool :=
  let x := pnlIn s i
  if level == pnlOn s i then (setPnlIn s i { x with run := 0 }, false)
  else if x.run + 1 < fld s PNL_TIMING 7 0 then (setPnlIn s i { x with run := x.run + 1 }, false)
  else (setFlag (setPnlIn s i { x with run := 0, active := 0 }) PNL_IN_STS i level, true)

/-- One sample of key `k` (R537). -/
def keySample (s : State) (k : Nat) (level : Bool) : State :=
  let (s, chg) := debounce s k level
  if chg then pnlEvent s (if level then 0 else 1) k
  else if !pnlOn s k then s
  else
    let x := pnlIn s k
    let t := x.active + 1
    let s := setPnlIn s k { x with active := t }
    let hold := fld s PNL_TIMING 23 16 * 10
    let rep := fld s PNL_TIMING 31 24 * 10
    if hold = 0 then s
    else if t = hold then pnlEvent s 2 k
    else if rep ≠ 0 && hold < t && (t - hold) % rep == 0 then pnlEvent s 3 k
    else s

/-- One sample of pad `p` (R538). -/
def touchSample (s : State) (p count : Nat) : State :=
  let (s, t) := padSample s p count
  let (s, chg) := debounce s (16 + p) t
  if chg then pnlEvent s (if t then 4 else 5) p
  else if !pnlOn s (16 + p) then s
  else
    let x := pnlIn s (16 + p)
    let a := x.active + 1
    if fld s PNL_TOUCH_CFG 23 16 * 1000 < a then
      let s := setFld s (PNL_TOUCH p) 31 16 count
      let s := setFlag (setPnlIn s (16 + p) { x with run := 0, active := 0, touched := false }) PNL_IN_STS (16 + p) false
      pnlEvent (pnlEvent s 5 p) 6 p
    else setPnlIn s (16 + p) { x with active := a }

/-- One sample of plug input `p` (R537). -/
def plugSample (s : State) (p : Nat) (level : Bool) : State :=
  let (s, chg) := debounce s (24 + p) level
  if chg then pnlEvent s (if level then 7 else 8) p else s

/-- A disabled input reads inactive and gives no events (R536). -/
def pnlIdle (s : State) (i : Nat) : State := setFlag (setPnlIn s i PnlIn.reset) PNL_IN_STS i false

/-- PANEL_SAMPLE, every 1 ms: the levels of the keys and plug inputs, as masks, and the charge counts of the pads (R536). -/
def execPanelSample (keys plugs : Nat) (counts : List Nat) (s : State) : Host.Outcome State Fault Refusal :=
  whileClocked s fun s =>
  pnlDue s .sample fun s =>
  let s := { s with panel := { s.panel with sinceEvt := s.panel.sinceEvt + 1 } }
  let s := (List.range 16).foldl (fun s k =>
    if pnlEn s k then keySample s k (keys.testBit k != flag s PNL_KEY_CFG k) else pnlIdle s k) s
  let s := (List.range 8).foldl (fun s p =>
    if pnlEn s (16 + p) then touchSample s p (counts.getD p 0) else pnlIdle s (16 + p)) s
  (List.range 8).foldl (fun s p =>
    if pnlEn s (24 + p) then plugSample s p (plugs.testBit p != flag s PNL_PLUG_CFG p) else pnlIdle s (24 + p)) s

/-! ### Pattern engines (R542) -/

/-- Pattern engine `g`. -/
def engine (s : State) (g : Nat) : Engine := mget Engine.reset s.panel.engines g

/-- The level of a pattern at `t` ms, or at a step. -/
def patLevel (p : Pattern) (t step : Nat) : Nat :=
  match p.mode with
  | 1 => if t % (p.timeA + p.timeB) < p.timeA then p.hi else p.lo
  | 2 =>
    let a : Int := p.timeA
    let w : Int := a - (2 * ((t % p.timeA : Nat) : Int) - a).natAbs
    ((p.lo : Int) + fdiv (((p.hi : Int) - p.lo) * w * w) (p.timeA * p.timeA)).toNat
  | 3 => p.hi
  | 4 => (p.steps.getD step (0, 0)).1
  | _ => 0

/-- Position of a chase in its list. -/
def chasePos (p : Pattern) (t : Nat) : Nat := if p.list.length = 0 then 0 else t / p.timeA % p.list.length

/-- An engine one tick on (R542): a waiting pattern starts from its beginning. -/
def Engine.tick (e : Engine) : Engine :=
  match e.next with
  | some p => ⟨p, none, 0, 0, 0⟩
  | none =>
    let e := { e with t := e.t + 1 }
    if e.pat.mode ≠ 4 then e
    else if e.stepT + 1 < (e.pat.steps.getD e.step (0, 0)).2 then { e with stepT := e.stepT + 1 }
    else if e.step + 1 < e.pat.steps.length then { e with step := e.step + 1, stepT := 0 }
    else if e.pat.once then e
    else { e with step := 0, stepT := 0 }

/-- PATTERN_TICK, every 1 ms: every engine advances by 1 ms. -/
def execPatternTick (s : State) : Host.Outcome State Fault Refusal :=
  whileClocked s fun s =>
  pnlDue s .pattern fun s =>
  (List.range 4).foldl (fun s g =>
    let e := (engine s g).tick
    let s := { s with panel := { s.panel with engines := mset s.panel.engines g e } }
    let a := PNL_ENG_STS g
    let pos := if e.pat.mode = 3 then chasePos e.pat e.t else if e.pat.mode = 4 then e.step else 0
    setFld (setFld (setFld s a 31 24 e.pat.mode) a 23 16 pos) a 15 0 (patLevel e.pat e.t e.step)) s

/-- The level that engine `g` gives channel `c`. -/
def engineLevel (s : State) (g c : Nat) : Nat :=
  let e := engine s g
  if e.pat.mode = 3 then (if e.pat.list.getD (chasePos e.pat e.t) 32 = c then e.pat.hi else e.pat.lo)
  else patLevel e.pat e.t e.step

/-! ### LED channels -/

/-- LED channel `c` beyond its registers. -/
def led (s : State) (c : Nat) : Led := mget Led.reset s.panel.leds c

/-- `s` with LED channel `c` set. -/
def setLed (s : State) (c : Nat) (l : Led) : State := { s with panel := { s.panel with leds := mset s.panel.leds c l } }

/-- Duty of channel `c` from its source (R541). -/
def sourceDuty (s : State) (c : Nat) : Nat :=
  if s.pwr.safe then
    match fld s (PNL_LEDC_CFG c) 27 26 with
    | 1 => fld s (PNL_LED_DUTY c) 31 16
    | 2 => engineLevel s 3 c
    | _ => 0
  else
    let src := fld s (PNL_LEDC_CFG c) 30 28
    if 1 ≤ src && src ≤ 4 then engineLevel s (src - 1) c else fld s (PNL_LED_DUTY c) 15 0

/-- Colour scale of channel `c` (R545). -/
def colourScale (s : State) (c : Nat) : Nat :=
  match (List.range 3).find? (fun i => s.panel.chans.getD i 32 == c) with
  | some i => fld s (PNL_COLOUR i) 31 16
  | none => 32768

/-- Applied duty of channel `c` (R541); a disabled channel, and one that a short turned off, is off. -/
def appliedDuty (s : State) (c : Nat) : Nat :=
  if !flag s (PNL_LEDC_CFG c) 31 || (led s c).off then 0 else sourceDuty s c * colourScale s c / 32768

/-- The check of a sink at the end of an on-time, at `mv` mV (R547). -/
def ledCheck (s : State) (c mv : Nat) : State :=
  let a := PNL_LED_STS c
  let l := led s c
  if mv < 100 then
    let s := setLed s c { l with good := 0 }
    if flag s a 16 then s else event (setFlag s a 16 true) (srcLed c) 0x1902 []
  else
    let s := if flag s a 16 && 15 ≤ l.good then setFlag s a 16 false else s
    let s := setLed s c { l with good := satN 16 (l.good + 1) }
    if fld s PNL_LED_CFG 23 16 * 100 < mv then
      event (setFlag (setLed s c { led s c with off := true }) a 17 true) (srcLed c) 0x1903 []
    else s

/-- LED_ON_TIME: the on-time of channel `c` starts with its latest settings, and its sink reads `mv` mV at its end (R540,
R547, R548). -/
def execLedOnTime (c mv : Nat) (s : State) : Host.Outcome State Fault Refusal :=
  whileClocked s fun s =>
  let d := appliedDuty s c
  let s := setFld s (PNL_LED_STS c) 15 0 d
  let ns := d * 10 * (fld s PNL_LED_CFG 3 0 + 1)
  let l := led s c
  if d = 0 || fld s (PNL_LEDC_CFG c) 7 0 = 0 then s
    else if 2000 ≤ ns then ledCheck s c mv
    else
      let due := flag s (PNL_LED_STS c) 20 && (match l.lastTest with
                                              | some t => decide (t + 1000000000 ≤ now s)
                                              | none => true)
      if due then ledCheck (setLed s c { l with lastTest := some (now s) }) c mv
      else setFlag s (PNL_LED_STS c) 19 true

/-- The longest common off interval of channels `n` and `n + 1` within a period, in PWM counts (R540, R547). -/
def commonOff (s : State) (n : Nat) : Nat :=
  let on (d : Nat) : Nat := if d = 65535 then 65536 else d
  let a := on (appliedDuty s n)
  let b := on (appliedDuty s (n + 1))
  let w := 2048 + b - 65536
  let g1 := 2048 - (if a < w then w else a)
  let e := if a < 2048 + b then 2048 + b else a
  let g2 := 65536 - e
  if g1 < g2 then g2 else g1

/-- The pair `n`, `n + 1` can be tested: both channels are checked and share an off interval of 2 µs (R547). -/
def pairTested (s : State) (n : Nat) : Bool :=
  let on (c : Nat) : Bool := flag s (PNL_LEDC_CFG c) 31 && fld s (PNL_LEDC_CFG c) 7 0 != 0
  on n && on (n + 1) && decide (2000 ≤ commonOff s n * 10 * (fld s PNL_LED_CFG 3 0 + 1))

/-- A neighbour round in which the pairs of `shorts` (bit n: the pair n, n + 1) fail (R547). -/
def neighbourRound (s : State) (shorts : Nat) : State :=
  let tested := (List.range 31).filter (pairTested s)
  let bad := tested.filter (fun n => shorts.testBit n)
  let was (c : Nat) : Bool := flag s (PNL_LED_STS c) 18
  let fresh := bad.filter (fun n => !(was n && was (n + 1)))
  let s := (List.range 32).foldl (fun s c =>
    if bad.any (fun n => n == c || n + 1 == c) then setFlag s (PNL_LED_STS c) 18 true
    else if tested.any (fun n => n == c || n + 1 == c) then setFlag s (PNL_LED_STS c) 18 false
    else s) s
  fresh.foldl (fun s n => event s (srcLed n) 0x1904 []) s

/-- NEIGHBOUR_ROUND: the round of every DIAG_S seconds. -/
def execNeighbourRound (shorts : Nat) (s : State) : Host.Outcome State Fault Refusal :=
  whileClocked s fun s =>
  pnlDue s .round fun s =>
  neighbourRound s shorts

/-! ### Colour feedback -/

/-- COLOUR_READING: every 20 ms while the colour loop is on, the light sensor is read at SENS_ADDR and SENS_REG; `ok` is false when it does not acknowledge
(R543, R545). Scales are held in the safe state (R541). -/
def execColourReading (ok : Bool) (m : List Nat) (s : State) : Host.Outcome State Fault Refusal :=
  whileClocked s fun s =>
  if !flag s PNL_STS 2 then s
  else
    pnlDue s .colour fun s =>
    let s := { s with panel := { s.panel with sensor := some (fld s PNL_SENSOR_CFG 14 8, fld s PNL_SENSOR_CFG 7 0) } }
    if !ok then (if flag s PNL_STS 0 then s else event (setFlag s PNL_STS 0 true) (srcMaster 0x13) 0x1906 [])
    else
      let s := setFlag s PNL_STS 0 false
      (List.range 3).foldl (fun s i =>
        let r := m.getD i 0
        let s := setFld s (PNL_COLOUR i) 15 0 r
        let t := s.panel.target.getD i 0
        let c := s.panel.chans.getD i 0
        if s.pwr.safe || sourceDuty s c = 0 || t ≤ 0 then s
        else
          let k := fld s (PNL_COLOUR i) 31 16
          let k' := clampI 0 32768 ((k : Int) + rdiv ((k : Int) * s.panel.gain * (t - r)) (256 * t.toNat))
          let s := setFld s (PNL_COLOUR i) 31 16 k'.toNat
          if k' = 32768 && (r : Int) < t && !s.panel.limited then
            event (setFlag { s with panel := { s.panel with limited := true } } PNL_STS 1 true) (srcMaster 0x13) 0x1905 []
          else s) s

/-! ### Commands (R549) -/

/-- PANEL_SET: the shadows of group PNL, as register values. -/
def execPanelSet (h : Issue) (op channel v0 v1 v2 v3 : Nat) (s : State) : Host.Outcome State Fault Refusal :=
  whileClocked s fun s =>
  hostCmd s h (.panelSet h op channel v0 v1 v2 v3) 0x0A03 48
    (fun _ => [((op == 0 && channel == 0 && natBits v1 15 8 == 0 && decide (v2 < 65536)) ||
                (op == 1 && channel == 0 && natBits v0 15 4 == 0 && decide (v1 < 32768) && v2 == 0 && v3 == 0) ||
                (op == 2 && decide (channel < 32) && natBits v0 25 8 == 0 && decide (v1 < 65536) && v2 == 0 && v3 == 0),
                .badParam)])
    (fun s =>
      let s :=
        if op = 0 then
          let s := setShadow (setShadow s 14 PNL_KEY_CFG 31 0 v0) 14 PNL_TIMING 31 0 v1
          setShadow (setShadow s 14 PNL_PLUG_CFG 31 0 v2) 14 PNL_TOUCH_CFG 31 0 v3
        else if op = 1 then setShadow (setShadow s 14 PNL_LED_CFG 31 0 v0) 14 PNL_SENSOR_CFG 31 0 v1
        else setShadow (setShadow s 14 (PNL_LEDC_CFG channel) 31 0 v0) 14 (PNL_LED_DUTY channel) 31 16 v1
      complete s h 0x0A03 .ok 0 0 0 0)

/-- LED_PATTERN_LOAD: the pattern starts at the next 1 ms tick; its steps follow byte 48 of the parameter block. -/
def execLedPatternLoad (h : Issue) (engine_ mode flags nchan : Nat) (list : List Nat) (hi lo timeA timeB nsteps : Nat)
    (steps : List (Nat × Nat)) (s : State) : Host.Outcome State Fault Refusal :=
  whileClocked s fun s =>
  hostCmd s h (.ledPatternLoad h engine_ mode flags nchan list hi lo timeA timeB nsteps steps) 0x0A04 (if mode = 4 then 48 + 4 * nsteps else 48)
    (fun _ => [(decide (engine_ < 4) && decide (mode < 5) && decide (flags < 2) &&
                (mode == 0 || mode == 4 || decide (1 ≤ timeA)) && (mode != 1 || decide (1 ≤ timeB)) &&
                (mode != 3 || (decide (1 ≤ nchan) && decide (nchan ≤ 8) && (list.take nchan).all (fun c => decide (c < 32)))) &&
                (mode != 4 || (decide (1 ≤ nsteps) && decide (nsteps ≤ 64))), .badParam)])
    (fun s =>
      let p : Pattern := ⟨mode, flags == 1, if mode = 3 then list.take nchan else [], hi, lo, timeA, timeB,
        if mode = 4 then steps.take nsteps else []⟩
      let e := engine s engine_
      complete { s with panel := { s.panel with engines := mset s.panel.engines engine_ { e with next := some p } } }
        h 0x0A04 .ok 0 0 0 0)

/-- LED_COLOUR_TARGET (R544, R546): the target counts are computed from the chromaticity, luminance and matrix. -/
def execLedColourTarget (h : Issue) (op red green blue x y luma : Nat) (m : List Int) (gain : Nat) (s : State) :
    Host.Outcome State Fault Refusal :=
  whileClocked s fun s =>
  hostCmd s h (.ledColourTarget h op red green blue x y luma m gain) 0x0A05 48
    (fun _ => [((op == 0 && red == 0 && green == 0 && blue == 0 && x == 0 && y == 0 && luma == 0 && m.all (· == 0) && gain == 0) ||
                (op == 1 && decide (red < 32) && decide (green < 32) && decide (blue < 32) && red != green && green != blue &&
                 red != blue && decide (1 ≤ y) && decide (1 ≤ gain)), .badParam)])
    (fun s =>
      let scales (s : State) : State := (List.range 3).foldl (fun s i => setFld s (PNL_COLOUR i) 31 16 32768) s
      let s :=
        if op = 0 then
          let s := scales (setFlag s PNL_STS 2 false)
          { s with panel := { s.panel with chans := [], target := [], gain := 0, limited := false } }
        else
          let t (i : Nat) : Int :=
            rdiv ((m.getD (3 * i) 0 * x + m.getD (3 * i + 1) 0 * y + m.getD (3 * i + 2) 0 * (65536 - (x : Int) - y)) * luma)
              (4096 * y)
          let s := if flag s PNL_STS 2 then s
                   else setFlag (scales { s with panel := { s.panel with limited := false } }) PNL_STS 2 true
          { s with panel := { s.panel with chans := [red, green, blue], target := [t 0, t 1, t 2], gain := gain } }
      complete s h 0x0A05 .ok 0 0 0 0)

/-- LED_DIAG: OP 0 clears the masked channels' flags, OP 1 sets STRETCH, OP 2 runs a neighbour round in which the pairs of
`shorts` fail. -/
def execLedDiag (h : Issue) (op mask shorts : Nat) (s : State) : Host.Outcome State Fault Refusal :=
  whileClocked s fun s =>
  hostCmd s h (.ledDiag h op mask shorts) 0x0A06 48 (fun _ => [(decide (op < 3), .badParam)])
    (fun s =>
      if op = 0 then
        let s := (bitList mask 32).foldl (fun s c =>
          setLed (setFld s (PNL_LED_STS c) 19 16 0) c { led s c with good := 0, off := false }) s
        complete s h 0x0A06 .ok 0 0 0 0
      else if op = 1 then
        complete ((List.range 32).foldl (fun s c => setFlag s (PNL_LED_STS c) 20 (mask.testBit c)) s) h 0x0A06 .ok 0 0 0 0
      else
        let s := neighbourRound s shorts
        complete s h 0x0A06 .ok (((List.range 32).filter (fun c => flag s (PNL_LED_STS c) 18)).foldl natSet 0) 0 0 0)

/-! ### COMMIT of group PNL (R551) -/

/-- The checks of group PNL on the state that the commit would make. -/
def pnlChecks (_s n : State) : List (Nat × Bool) :=
  let chans := List.range 32
  let e3 := (engine n 3).pat
  [(0x0F01, decide (1 ≤ fld n PNL_TIMING 7 0) && decide (1 ≤ fld n PNL_TOUCH_CFG 23 16) && decide (1 ≤ fld n PNL_LED_CFG 31 24) &&
     decide (fld n PNL_TOUCH_CFG 15 8 < fld n PNL_TOUCH_CFG 7 0)),
   (0x0F02, chans.all (fun c => decide (fld n (PNL_LEDC_CFG c) 7 0 ≤ 240)) && decide (10 ≤ fld n PNL_LED_CFG 23 16) &&
     decide (fld n PNL_LED_CFG 23 16 ≤ 50)),
   (0x0F03, e3.mode != 3 || chans.all (fun c => !(flag n (PNL_LEDC_CFG c) 31 && fld n (PNL_LEDC_CFG c) 30 28 == 4 &&
     fld n (PNL_LEDC_CFG c) 27 26 == 2 && !e3.list.contains c)))]

end Sys2Proof.Machine
end

