-- ==== Sys2Proof/Machine/Thermal.lean ====
section
/-!
DEFINITION. Temperature: sensors, levels, shutdown (R108 to R116), and undervoltage of a monitored rail (R84).
-/

namespace Sys2Proof.Machine

/-- SUPPLY_UV (R84): a rail other than VDD_AON and VDD_CORE stays below its threshold; `rail` is its number. -/
def execSupplyUv (rail : Nat) (s : State) : Host.Outcome State Fault Refusal :=
  whileClocked s fun s =>
  let s := { s with pwr := { s.pwr with uvRails := natSet s.pwr.uvRails rail } }
  raiseFault s clsDevice 0x0301 srcDevice (leBytes 1 rail)

/-! ### Sensors (R108, R109) -/

/-- Neighbours of a sensor (R108). -/
def thmNbr (t : Nat) : List Nat :=
  match t with
  | 0 => [1, 8, 13]
  | 1 => [0, 2, 13]
  | 2 => [1, 9, 14]
  | 3 => [4, 8, 15]
  | 4 => [3, 5, 15]
  | 5 => [4, 9, 14]
  | 6 => [7, 12, 13]
  | 7 => [6, 14, 15]
  | 8 => [0, 3, 10]
  | 9 => [2, 5, 11]
  | 10 => [8, 13, 15]
  | 11 => [9, 12, 14]
  | 12 => [6, 11, 14]
  | 13 => [0, 1, 6]
  | 14 => [2, 11, 12]
  | _ => [3, 4, 10]

/-- Sensors. -/
def sensors : List Nat := List.range 16

/-- A sensor declared failed (R109). -/
def thmFailed (s : State) (t : Nat) : Bool := flag s (THM_TEMP t) 31

/-- The middle of three. -/
def median3 (a b c : Int) : Int :=
  if a ≤ b then (if b ≤ c then b else if a ≤ c then c else a)
  else if a ≤ c then a else if b ≤ c then c else b

/-- Readings of a sensor's healthy neighbours. -/
def nbrReads (failed : Nat → Bool) (temps : List Int) (t : Nat) : List Int :=
  ((thmNbr t).filter (fun u => !failed u)).map (fun u => temps.getD u 0)

/-- Twice the reference of a sensor: median of three, mean of two, the one (R109). -/
def thmRef2 (rs : List Int) : Option Int :=
  match rs with
  | [a, b, c] => some (2 * median3 a b c)
  | [a, b] => some (a + b)
  | [a] => some (2 * a)
  | _ => none

/-- Consecutive samples at which a sensor differed by more than 8 °C from its reference, after this sample. -/
def thmStreak (s : State) (temps : List Int) (t : Nat) : Nat :=
  match thmRef2 (nbrReads (thmFailed s) temps t) with
  | none => 0
  | some r => if 256 < (2 * temps.getD t 0 - r).natAbs then mget 0 s.thm.streak t + 1 else 0

/-- The largest of the readings of healthy sensors. -/
def hottestRead (failed : Nat → Bool) (temps : List Int) : Option Int :=
  (sensors.filter (fun t => !failed t)).foldl (fun m t =>
    match m with
    | none => some (temps.getD t 0)
    | some x => some (if x < temps.getD t 0 then temps.getD t 0 else x)) none

/-- The replacement value of a failed sensor (R109): the half of an odd mean rounds either way (assumption 1).
DESIGN CHOICE: where no sensor at all is healthy the rule gives no value, and the register keeps its own (assumption 48). -/
def thmReplace (s : State) (failed : Nat → Bool) (temps : List Int) (t : Nat) : Int :=
  match nbrReads failed temps t with
  | [a, b, c] => median3 a b c
  | [a, b] => if (a + b) % 2 = 0 then (a + b) / 2 else (a + b) / 2 + (if Config.freeBit s.freeCtr then 1 else 0)
  | _ => (hottestRead failed temps).getD (thmTemp s t)

/-- A sensor's register after a sample. -/
def setTemp (s : State) (t : Nat) (failed : Bool) (v : Int) : State :=
  setFld (setFlag (setFlag s (THM_TEMP t) 31 failed) (THM_TEMP t) 30 failed) (THM_TEMP t) 15 0 (unsgn 16 v)

/-- Failures declared at a sample and the values that follow (R109). -/
def thmValues (s : State) (temps : List Int) : State :=
  let failed (t : Nat) : Bool := thmFailed s t || decide (16 ≤ thmStreak s temps t)
  let streaks := sensors.map (fun t => (t, if failed t then 0 else thmStreak s temps t))
  let vals := sensors.map (fun t => (t, if failed t then thmReplace s failed temps t else temps.getD t 0))
  let s' := vals.foldl (fun u e => setTemp u e.1 (failed e.1) e.2) (tick1 s)
  let s' := { s' with thm := { s'.thm with streak := streaks.filter (fun e => e.2 != 0) } }
  setFld s' THM_STS 31 16 ((sensors.filter failed).foldl natSet 0)

/-- Sensors newly failed are recorded, and the fourth failure raises THM_SENSORS_LOST (R109). -/
def thmFailures (old s : State) : State :=
  let news := sensors.filter (fun t => thmFailed s t && !thmFailed old t)
  let count (u : State) : Nat := (sensors.filter (thmFailed u)).length
  let s := news.foldl (fun s t => event s (srcSensor t) 0x1101 []) s
  if count old < 4 && 4 ≤ count s then raiseFault s clsDevice 0x0302 srcDevice [] else s

/-! ### Levels (R110, R111) -/

/-- THROTTLE and PAUSE in 1/16 °C. -/
def thrT (s : State) : Int := (fld s THM_CFG 7 0 * 16 : Nat)
def thrP (s : State) : Int := (fld s THM_CFG 15 8 * 16 : Nat)

/-- The sensor with the highest value, the lowest number on a tie, and that value. -/
def hottest (s : State) : Nat × Int :=
  sensors.foldl (fun b t => if b.2 < thmTemp s t then (t, thmTemp s t) else b) (0, thmTemp s 0)

/-- The throttle level for a highest value `m` from level `lv` (R111). -/
def throttleLevel (t m : Int) (lv : Nat) : Nat :=
  if t + 64 ≤ m then 2
  else if lv = 2 && t + 16 ≤ m then 2
  else if t ≤ m then 1
  else if 1 ≤ lv && t - 48 ≤ m then 1
  else 0

/-- A healthy sensor's value lies within 5 °C of a threshold (R110). -/
def inBand (s : State) : Bool :=
  sensors.any (fun t => !thmFailed s t &&
    [thrT s, thrP s, 118 * 16].any (fun x => decide ((thmTemp s t - x).natAbs ≤ 80)))

/-- FAST sampling begins in a band and ends after 1 ms, sixteen fast samples, outside every band (R110). -/
def thmFast (s : State) : State :=
  if inBand s then setFlag { s with thm := { s.thm with calm := 0 } } THM_STS 7 true
  else if !flag s THM_STS 7 then s
  else if s.thm.calm + 1 < 16 then { s with thm := { s.thm with calm := s.thm.calm + 1 } }
  else setFlag { s with thm := { s.thm with calm := 0 } } THM_STS 7 false

/-- HOT_SENSOR, WRITE_WINDOW and the levels shown in `THM_STS` (R111, R113). -/
def thmShow (s : State) : State :=
  let (h, m) := hottest s
  let lv := throttleLevel (thrT s) m (fld s THM_STS 5 4)
  let pause := decide (thrP s ≤ m) || (flag s THM_STS 6 && decide (thrP s - 48 ≤ m))
  setFlag (setFlag (setFld (setFld s THM_STS 15 12 h) THM_STS 5 4 lv) THM_STS 6 pause) THM_STS 3 (inWindow s)

/-- Levels entered and left are recorded, and the pause level raises THM_PAUSE while it holds (R111). -/
def thmLevels (old s : State) : State :=
  let (h, m) := hottest s
  let b := leBytes 1 h ++ leBytes 2 (unsgn 16 m)
  let s := if fld s THM_STS 5 4 = fld old THM_STS 5 4 then s else event s (srcSensor h) 0x1102 b
  let was := flag old THM_STS 6
  let is := flag s THM_STS 6
  if was = is then s
  else
    let s := event { s with thm := { s.thm with paused := is } } (srcSensor h) 0x1102 b
    if is then raiseFault s clsLayer 0x0201 srcDevice b else fltShow (faultGone s 0x0201 srcDevice)

/-! ### Shutdown (R114, R115) -/

/-- The healthy sensor that reads 118 °C or more, the hottest of several. -/
def shutdownBy (s : State) (temps : List Int) : Option (Nat × Int) :=
  sensors.foldl (fun b t =>
    let v := temps.getD t 0
    if thmFailed s t || decide (v < 118 * 16) then b
    else
      match b with
      | none => some (t, v)
      | some (_, w) => if w < v then some (t, v) else b) none

/-- The AON domain shuts the device down: safe state, and the cause recorded in the registers, the retained header and the
black box. -/
def shutdown (s : State) (t : Nat) (v : Int) : State :=
  let s := enterSafe s
  let s := setFld (setFld s THM_SHUTDOWN_CAUSE 31 28 t) THM_SHUTDOWN_CAUSE 15 0 (unsgn 16 v)
  let s := wr64 s THM_SHUTDOWN_TIME_LO THM_SHUTDOWN_TIME_HI (now s)
  let b := leBytes 1 t ++ leBytes 2 (unsgn 16 v) ++ leBytes 8 (now s)
  let s := putHeader s 32 (leBytes 1 t ++ zeros 1 ++ leBytes 2 (unsgn 16 v) ++ leBytes 8 (now s))
  let e : EvRec := ⟨now s, srcSensor t, 0x1105, rdN s EVR_SEQ, padTo 14 b⟩
  putBlackBox (bump s EVR_SEQ) e.seq e.bytes

/-- The shutdown is latched: THERM_TRIP_N and SAFE_N are low and the device is in the safe state (R114, R115). -/
def latch (s : State) : State :=
  { s with pwr := { s.pwr with thermLatch := true, safe := true }, pins := { s.pins with thermTripN := false, safeN := false } }

/-- Highest temperature of the layer (R198). -/
def layerTemp (s : State) : State :=
  let (h, m) := hottest s
  if inLayer s && decide (s.seq.maxTemp < m) then { s with seq := { s.seq with maxTemp := m, maxSensor := h } } else s

/-- THM_SAMPLE (R109 to R115): `temps` are the sixteen readings in 1/16 °C. After a latched shutdown the AON domain goes on
sampling, and nothing else acts. -/
def execThmSample (temps : List Int) (s : State) : Host.Outcome State Fault Refusal :=
  let t := thmShow (thmFast (thmValues s temps))
  .next (
    if s.pwr.thermLatch then holding s t
    else
      let t := thmLevels s (thmFailures s t)
      match shutdownBy t temps with
      | some (k, v) => latch (holding s (shutdown t k v))
      | none => holding s (lanes24.foldl afeTempTrigger (layerTemp t)))

/-- The checks of group THM (R112). -/
def thmChecks (n : State) : List (Nat × Bool) :=
  let t := fld n THM_CFG 7 0
  let p := fld n THM_CFG 15 8
  [(0x1001, decide (80 ≤ t) && decide (t ≤ 104)), (0x1002, decide (100 ≤ p) && decide (p ≤ 112)), (0x1003, decide (t + 4 ≤ p))]

end Sys2Proof.Machine
end

