-- ==== Sys2Proof/Machine/Host.lean ====
section
/-!
DEFINITION. The host interface: PERST_N and Bus Master Enable (R90, R92, R95, R121), the fetch of commands (R124, R125, R129,
R130), COMMIT (R19, R20, R146), the status mirror (R142 to R144) and the other system opcodes (R145, R147).
-/

namespace Sys2Proof.Machine

/-! ### PERST_N and Bus Master Enable -/

/-- A register of a ring that belongs to the host. -/
def hostRingReg (a : Nat) : Bool := hifReg a && decide (ringOf a < 15)

/-- PERST_N (R90, R92): the PCIe link core with its configuration space, rings 0–14 and the mirror setting are reset, and
master 0x00 is reset. Commands already fetched run on without a completion. -/
def execPerstN (s : State) : Host.Outcome State Fault Refusal :=
  always s fun s =>
  let s := (List.range 15).foldl voidRing (mbxReset s 0)
  let s := { s with
    regs := s.regs.filter (fun e => !hostRingReg e.1)
    live := s.live.filter (fun e => !hostRingReg e.1)
    hif := { s.hif with bme := false, d3hot := false, intxDis := false, intLine := 0, bar0 := 0, bar2 := 0, perst := true, linkUp := false
                        sqTail := s.hif.sqTail.filter (fun e => e.1 == 15), cqHead := s.hif.cqHead.filter (fun e => e.1 == 15)
                        mirrorAddr := 0, mirrorPeriod := 0 } }
  resetCause (finishAll s 0x0006 0 .wrongState 0 0 0 0) 4

/-- PERST_N_RELEASE (R95): the link trains (R102). -/
def execPerstNRelease (s : State) : Host.Outcome State Fault Refusal :=
  always s fun s =>
  linkAdapt { s with hif := { s.hif with perst := false, linkUp := true } }

/-- BUS_MASTER_ENABLE (R118, R119, R121): the host's write of the configuration space. Bus Master Enable, the power state, INTx Disable,
Interrupt Line and the bases of BAR0 (64 MiB) and BAR2 (64 GiB) take its values; what was held back is written in order once Bus Master Enable
and the power state allow it. A link core in reset takes no write. -/
def execBusMasterEnable (bme d3hot intxDis : Bool) (line bar0 bar2 : Nat) (s : State) : Host.Outcome State Fault Refusal :=
  always s fun s =>
  if s.hif.perst then s
  else
    let s := { s with hif := { s.hif with bme := bme, d3hot := d3hot, intxDis := intxDis, intLine := line % 256
                                          bar0 := bar0 / 2 ^ 26 * 2 ^ 26 % 2 ^ 32, bar2 := bar2 / 2 ^ 36 * 2 ^ 36 % 2 ^ 64 } }
    if canRequest s then s.hif.held.foldl doHostOp { s with hif := { s.hif with held := [] } } else s

/-! ### The configuration space (R117 to R119) -/

/-- The 64-byte configuration header as 32-bit words. R117 gives the identity, R119 the base address registers; the places of the fields are
those of a PCI type 0 header, and the bits that mark a 32-bit, a 64-bit and a prefetchable BAR those of PCI (assumption 112). -/
def configHeader (s : State) : List Nat :=
  [0x1F4E + 0x0C24 * 2 ^ 16,                                      -- Vendor ID, Device ID
   2 ^ 1 + 2 ^ 2 * b2n s.hif.bme + 2 ^ 10 * b2n s.hif.intxDis + 2 ^ 20,  -- Memory Space, Bus Master, INTx Disable, Capabilities List
   0xB0 + 0x118000 * 2 ^ 8,                                       -- Revision ID, class code
   0,                                                             -- header type 0
   s.hif.bar0, 0,                                                 -- BAR0, BAR1
   s.hif.bar2 % 2 ^ 32 + 0xC, s.hif.bar2 / 2 ^ 32,                -- BAR2 and BAR3: 64-bit, prefetchable
   0, 0, 0,                                                       -- BAR4, BAR5, CardBus
   0x1F4E + 0x0C24 * 2 ^ 16,                                      -- Subsystem Vendor ID, Subsystem ID
   0, 0x40, 0,                                                    -- no expansion ROM; first capability
   s.hif.intLine]                                                 -- Interrupt Line; Interrupt Pin 0

/-- What the capabilities of the function offer (R118). A number stands for each of the table's entries. -/
structure Capabilities where
  noSoftReset : Bool
  pme : Bool
  d3hot : Bool
  maxPayload : Nat
  maxReadRequest : Nat
  tagBits : Nat
  extendedTags : Bool
  completionTimeoutRanges : List Char
  completionTimeoutDisable : Bool
  functionLevelReset : Bool
  linkMTs : List Nat
  linkWidths : List Nat
  aspmL1 : Bool
  aspmL0s : Bool
  laneReversal : Bool
  aerHeaderLogDw : Nat
  serial : Nat
  msi : Bool
  msix : Bool
  deriving DecidableEq, Repr

/-- The capabilities of R118; the Device Serial Number is the fuse serial, and D3hot is the power state the function is in. -/
def capabilities (s : State) : Capabilities :=
  { noSoftReset := true, pme := false, d3hot := s.hif.d3hot, maxPayload := 512, maxReadRequest := 4096, tagBits := 10, extendedTags := true
    completionTimeoutRanges := ['A', 'B', 'C', 'D'], completionTimeoutDisable := true, functionLevelReset := false
    linkMTs := [16000, 8000, 5000], linkWidths := [8, 4, 2, 1], aspmL1 := true, aspmL0s := false, laneReversal := true, aerHeaderLogDw := 4
    serial := s.fuses.serial, msi := false, msix := false }

/-! ### Fetching (R124, R125, R129, R130) -/

/-- Commands outstanding on all rings. -/
def outstandingAll (s : State) : Nat := sumN ((List.range 16).map (fun n => fld s (HIF_SQ_STS n) 24 16))

/-- Completion slots of a ring that hold a completion not yet returned; the service port takes its completions at once. -/
def cqHeld (s : State) (n : Nat) : Nat := if n = 15 then 0 else cqFilled s n

/-- Ring `n` has a command to be fetched and a slot for its completion. -/
def canFetch (s : State) (n : Nat) : Bool :=
  (if n = 15 then !s.svc.sq.isEmpty
   else flag s (HIF_SQ_STS n) 0 && canRequest s && fld s (HIF_SQ_HEAD n) 11 0 != sqTail s n) &&
  decide (cqHeld s n + fld s (HIF_SQ_STS n) 24 16 + 1 < cqSize s n)

/-- Commands that ring `n` may have fetched in a row (R130). -/
def ringTurn (s : State) (n : Nat) : Nat := if n = 15 then 4 else fld s (HIF_SQ_CFG n) 10 8 + 1

/-- The ring whose turn it is: the last one until its turn is used up, then the next in order. -/
def nextRing (s : State) : Option Nat :=
  let r := s.hif.turnRing
  if decide (r < 16) && decide (0 < s.hif.turnTaken) && decide (s.hif.turnTaken < ringTurn s r) && canFetch s r then some r
  else ((List.range 16).map (fun k => (r + 1 + k) % 16)).find? (canFetch s)

/-- One command of ring `n` fetched: its head advances and the command is outstanding. -/
def fetchOne (s : State) (n : Nat) : State :=
  let head := fld s (HIF_SQ_HEAD n) 11 0
  let bs :=
    if n = 15 then s.svc.sq.headD []
    else hostBytes s (rdN s (HIF_SQ_BASE_LO n) + 2 ^ 32 * rdN s (HIF_SQ_BASE_HI n) + 64 * head) 64
  let s := if n = 15 then { s with svc := { s.svc with sq := s.svc.sq.drop 1 } } else s
  let s := moreOutstanding (setFld s (HIF_SQ_HEAD n) 11 0 ((head + 1) % sqSize s n)) n
  { s with hif := { s.hif with
      fetched := s.hif.fetched ++ [⟨n, leNat ((bs.drop 4).take 4), leNat (bs.take 2), bs, false⟩]
      turnTaken := if n = s.hif.turnRing then s.hif.turnTaken + 1 else 1, turnRing := n } }

/-- The device serves the rings (R130), fewer than 256 commands outstanding. -/
def serves (s : State) : Bool := bootSt s == 5 && decide (outstandingAll s < 256)

/-- COMMAND_FETCH (R130). -/
def execCommandFetch (s : State) : Host.Outcome State Fault Refusal :=
  whileClocked s fun s =>
  if !serves s then s
    else
      match nextRing s with
      | some n => fetchOne { s with hif := { s.hif with turnTaken := if n = s.hif.turnRing && ringTurn s n ≤ s.hif.turnTaken then 0 else s.hif.turnTaken } } n
      | none => s

/-- FAILED_ENTRY_FETCH (R129): the ring stops with its entry at the head. -/
def execFailedEntryFetch (n : Nat) (s : State) : Host.Outcome State Fault Refusal :=
  whileClocked s fun s =>
  if n = 15 || !serves s || !canFetch s n then s
    else setFlag (setFlag s (HIF_SQ_STS n) 2 true) (HIF_SQ_STS n) 0 false

/-! ### Opcodes (R145) -/

/-- The opcode is in the table. -/
def opcodeKnown (op : Nat) : Bool :=
  let within (lo hi : Nat) : Bool := decide (lo ≤ op) && decide (op ≤ hi)
  within 0x0001 0x0009 || within 0x0101 0x010B || within 0x0201 0x0207 || within 0x0301 0x0304 || within 0x0401 0x0407 ||
  within 0x0501 0x0505 || within 0x0601 0x0604 || within 0x0701 0x0707 || within 0x0801 0x0807 || within 0x0901 0x0909 ||
  within 0x0A01 0x0A06 || within 0x0B01 0x0B07

/-- BAD_OPCODE (R137, order 1). -/
def execBadOpcode (h : Issue) (op : Nat) (s : State) : Host.Outcome State Fault Refusal :=
  whileClocked s fun s =>
  match nextStart s h with
  | some (p, _) => if opcodeKnown op || !headerSays h op p || fenceHolds s h then s else fail (accept s h) h op .badOpcode
  | none => s

/-! ### The status mirror (R142 to R144) -/

/-- The FAULTS word (R143): classes and number of active faults. -/
def mirrorFaults (s : State) : Nat := fld s FLT_STS 31 16 * 65536 + fld s FLT_STS 4 0

/-- The word of a lane in LANES (R143, R306: bit 24 while either input is STALE). -/
def mirrorLane (s : State) (n : Nat) : Nat :=
  let p := (lane s n).phase
  let stale := flag s (AFE_STS n) 1 || flag s (AFE_STS n) 9
  engineOf s n * 2 ^ 27 + b2n (p == .marking) * 2 ^ 26 + b2n (p == .halted) * 2 ^ 25 + b2n stale * 2 ^ 24 +
  b2n (loopState s n 1 == lpHold) * 2 ^ 23 + b2n (p == .waitGrant) * 2 ^ 22 + b2n (p == .waitPlume) * 2 ^ 21 +
  satN 16383 (fld s (LN_STS n) 14 0)

/-- The tick rate as TICK shows it; 3 is taken as 0 (R201). -/
def tickCode (s : State) : Nat := if fld s SEQ_CFG 1 0 = 3 then 0 else fld s SEQ_CFG 1 0

/-- The 1,024 bytes of a snapshot (R143). -/
def mirrorBytes (s : State) (seq : Nat) : List Byte :=
  padTo 1024 (
    leBytes 4 seq ++ leBytes 2 1 ++ leBytes 2 1024 ++ leBytes 8 (now s) ++ leBytes 4 (rdN s PWR_BOOT_STS) ++
    leBytes 4 (rdN s THM_STS) ++ leBytes 4 (mirrorFaults s) ++ leBytes 4 (headerAt s 8 4) ++
    (List.range 16).flatMap (fun n => leBytes 2 (fld s (HIF_SQ_HEAD n) 11 0)) ++
    (List.range 16).flatMap (fun n => leBytes 2 (fld s (HIF_CQ_TAIL n) 11 0 + 2 ^ 15 * fld s (HIF_CQ_TAIL n) 12 12)) ++
    leBytes 4 s.seq.lastLayer ++ leBytes 1 (layerSt s) ++
    leBytes 1 (fld s FAB_STS 17 16 + 4 * ownAddr s + 128 * b2n (flag s OVL_STS 0 || flag s FTM_STS 15)) ++ leBytes 1 (tickCode s) ++ leBytes 1 0 ++
    leBytes 8 (rd64 s SEQ_START_LO SEQ_START_HI) ++ lanes24.flatMap (fun n => leBytes 4 (mirrorLane s n)) ++
    (List.range 8).flatMap (fun k => leBytes 4 (rdN s (AX_POS k)) ++ leBytes 4 (rdN s (AX_STS k))) ++
    leBytes 4 (rdN s PNL_IN_STS) ++ leBytes 4 (rdN s PNL_EVT_COUNT) ++ leBytes 4 (rdN s DMA_ACTIVE) ++
    leBytes 4 (domainsOn s))

/-- A snapshot written to host memory at `addr` (R142): SEQ with its low bit set, bytes 4 onward, and SEQ advanced by 2 with its low bit clear. -/
def snapshotTo (s : State) (addr : Nat) : State :=
  let seq := (s.hif.mirrorSeq + 2) % 2 ^ 32
  let s := hostOp s (.write addr (leBytes 4 (s.hif.mirrorSeq + 1)))
  let s := hostOp s (.write (addr + 4) ((mirrorBytes s seq).drop 4))
  let s := hostOp s (.write addr (leBytes 4 seq))
  { s with hif := { s.hif with mirrorSeq := seq } }

/-- STATUS_MIRROR_SNAPSHOT (R142, R144): at the first tick boundary after each period has elapsed. While requests are held it is not taken, and
the write counter advances all the same. Periods follow one another from the SET_STATUS_MIRROR on (assumption 34). -/
def execStatusMirrorSnapshot (s : State) : Host.Outcome State Fault Refusal :=
  whileClocked s fun s =>
  let p := 1000 * s.hif.mirrorPeriod
  if p = 0 || now s < s.hif.mirrorDue then s
  else
    let s := { s with hif := { s.hif with mirrorDue := s.hif.mirrorDue + p * ((now s - s.hif.mirrorDue) / p + 1) } }
    if !canRequest s then { s with hif := { s.hif with mirrorSeq := (s.hif.mirrorSeq + 2) % 2 ^ 32 } }
    else finishAll (snapshotTo s s.hif.mirrorAddr) 0x0006 0 .ok 1024 s.hif.mirrorPeriod 0 0

/-- SET_STATUS_MIRROR (R147). The service port has no host memory for a mirror (R533). An earlier one that still waits for its first snapshot
completes with OK and the new period (assumption 34). -/
def execSetStatusMirror (h : Issue) (addr period : Nat) (s : State) : Host.Outcome State Fault Refusal :=
  whileClocked s fun s =>
  hostCmd s h (.setStatusMirror h addr period) 0x0006 48
    (fun _ => [(addr % 4096 == 0 && (period == 0 || (h.ring != 15 && decide (10 ≤ period) && decide (period ≤ 100000))), .badParam)])
    (fun s =>
      let s := { s with hif := { s.hif with mirrorAddr := addr, mirrorPeriod := period, mirrorDue := now s + 1000 * period } }
      let s := finishAll s 0x0006 0 .ok 1024 period 0 0
      if period = 0 then complete s h 0x0006 .ok 1024 0 0 0 else startRun s h 0x0006 0 [])

/-- READ_STATUS (R147): with a nonzero address a snapshot is written there first, and counts in SEQ as each does (R143). -/
def execReadStatus (h : Issue) (addr : Nat) (s : State) : Host.Outcome State Fault Refusal :=
  whileClocked s fun s =>
  hostCmd s h (.readStatus h addr) 0x0005 48 (fun _ => [(hostAddrOk h addr 64, .badParam)])
    (fun s =>
      let s := if addr = 0 then s else snapshotTo s addr
      complete s h 0x0005 .ok (rdN s PWR_BOOT_STS) (rdN s THM_STS) (mirrorFaults s) s.seq.lastLayer)

/-! ### COMMIT (R19, R20, R141, R146) -/

/-- Bits of the register at `a` that belong to staging groups of `mask`. -/
def groupBits (a mask : Nat) : Word :=
  match regAt a with
  | none => 0
  | some (r, _, _) =>
    r.fields.foldl (fun m f =>
      match f.cls with
      | .c g => if mask.testBit g then setBits m f.hi f.lo (2 ^ (f.hi - f.lo + 1) - 1) else m
      | _ => m) 0

/-- The shadows of the groups of `mask`. -/
def groupShadows (s : State) (mask : Nat) : List (Nat × Word) := s.shadow.filter (fun e => groupBits e.1 mask != 0)

/-- The next COMMIT that waits captures (R19 step 1, R146): commits are handled one at a time. What it captures is what the
named groups have pending (R20). -/
def captureNext (s : State) : State :=
  if s.capture.isSome then s
  else
    match s.running.find? (fun r => r.op == 0x0004) with
    | none => s
    | some r =>
      let was := r.aux.getD 0 0 &&& s.dirty
      let check := r.aux.getD 1 0 == 1
      setFlag { s with capture := some (r.from_, was, check, groupShadows s was)
                       dirty := if check then s.dirty else s.dirty - was } TOP_COMMIT_STS 30 true

/-- COMMIT (R146). -/
def execCommit (h : Issue) (mask flags : Nat) (s : State) : Host.Outcome State Fault Refusal :=
  whileClocked s fun s =>
  hostCmd s h (.commit h mask flags) 0x0004 48 (fun _ => [(decide (flags < 2), .badParam)])
    (fun s =>
      if mask = 0 then complete s h 0x0004 .ok 0 0 0 0 else captureNext (startRun s h 0x0004 0 [mask, flags]))

/-- The live values with the captured ones in their place. -/
def withCaptured (s : State) (mask : Nat) (ws : List (Nat × Word)) : State :=
  ws.foldl (fun t e =>
    let m := groupBits e.1 mask
    wr t e.1 ((rd t e.1 &&& ~~~m) ||| (e.2 &&& m))) s

/-- The checks of a staging group, each with its code: `n` has the captured values. -/
def groupChecks (s n : State) (g : Nat) : List (Nat × Bool) :=
  match g with
  | 0 => seqChecks s n
  | 1 => laneChecks s n
  | 2 => scnChecks s n
  | 3 => lasChecks s n
  | 4 => ledgChecks s n
  | 5 => ovlChecks s n
  | 6 => afeChecks s n
  | 7 => loopChecks s n
  | 8 => burnChecks s n
  | 9 => axChecks s n
  | 10 => fabChecks s n
  | 11 => ftmChecks s n
  | 12 => ddrChecks s n
  | 13 => dmaChecks s n
  | 14 => pnlChecks s n
  | _ => thmChecks n

/-- Groups of `mask` whose check fails, and the codes of the failures in group order. -/
def failedGroups (s n : State) (mask : Nat) : Nat × List Nat :=
  (bitList mask 16).foldl (fun (acc : Nat × List Nat) g =>
    let bad := (groupChecks s n g).filter (fun c => !c.2)
    if bad.isEmpty then acc else (natSet acc.1 g, acc.2 ++ bad.map (·.1))) (0, [])

/-- What a group does at its commit beyond its fields; `old` is the state before. -/
def groupTake (old s : State) (g : Nat) : State :=
  match g with
  | 1 => laneTake old s
  | 2 => scnTake old s
  | 4 => ledgTake old s
  | 6 => afeCommit old s
  | 8 => burnTake old s
  | 9 => axTake old s
  | 11 => ftmTake s
  | 12 => ddrTake old s
  | 13 => recCommit s (recEn old)
  | _ => s

/-- A shadow that holds what is live in every committed field is no longer needed. -/
def dropShadows (s : State) : State :=
  { s with shadow := s.shadow.filter (fun e => (e.2 &&& groupBits e.1 (2 ^ 16 - 1)) != (rd s e.1 &&& groupBits e.1 (2 ^ 16 - 1)) ||
      groupBits e.1 s.dirty != 0 || groupBits e.1 (2 ^ 16 - 1) == 0) }

/-- The captured commit is over; its COMMIT completes and the next one captures. -/
def commitEnd (s : State) (st : Status) (r0 r1 r2 : Nat) : State :=
  captureNext (finishRun (setFlag { s with capture := none } TOP_COMMIT_STS 30 false) 0x0004 0 st r0 r1 r2 0)

/-- COMMIT_TAKE_EFFECT (R19 steps 2 and 3, R146): the tick boundary after a capture. -/
def execCommitTakeEffect (s : State) : Host.Outcome State Fault Refusal :=
  whileClocked s fun s =>
    match s.capture with
    | none => s
    | some (_, mask, check, ws) =>
      let n := withCaptured s mask ws
      match failedGroups s n mask with
      | (0, _) =>
        if check || mask = 0 then commitEnd s .ok 0 0 0
        else
          let t := dropShadows (setFld n TOP_COMMIT_STS 15 0 mask)
          let t := (bitList mask 16).foldl (groupTake s) t
          commitEnd t .ok mask 0 (tickNo s % 2 ^ 32)
      | (bad, codes) =>
        let s := if check then s else setFlag { s with dirty := s.dirty ||| mask } TOP_COMMIT_STS 31 true
        commitEnd s .badParam 0 (bad + 65536 * codes.headD 0) 0

/-! ### The other system opcodes (R105, R147) -/

/-- NOP. -/
def execNop (h : Issue) (s : State) : Host.Outcome State Fault Refusal :=
  whileClocked s fun s =>
  hostCmd s h (.nop h) 0x0001 48 (fun _ => []) (fun s => complete s h 0x0001 .ok 0 0 0 0)

/-- IDENTIFY. -/
def execIdentify (h : Issue) (s : State) : Host.Outcome State Fault Refusal :=
  whileClocked s fun s =>
  hostCmd s h (.identify h) 0x0002 48 (fun _ => [])
    (fun s => complete s h 0x0002 .ok 0x0024B000
      (ownAddr s + 2 ^ 8 * fld s FAB_STS 17 16 + 2 ^ 15 * fld s FAB_STS 7 7 + 2 ^ 16 * fld s FAB_STS 25 20)
      (s.fuses.serial % 2 ^ 32) (s.fuses.serial / 2 ^ 32))

/-- FW_INFO. -/
def execFwInfo (h : Issue) (s : State) : Host.Outcome State Fault Refusal :=
  whileClocked s fun s =>
  hostCmd s h (.fwInfo h) 0x0007 48 (fun _ => [])
    (fun s =>
      let f := s.pwr.fw
      complete s h 0x0007 .ok f.version f.rollback f.length (f.source + 4 * f.slot))

/-- Operations of R102 that hold a grant, as a mask in table order. -/
def dieOps (s : State) : Nat := s.pwr.die.foldl (fun m g => natSet m g.op) 0

/-- DIE_LEDGER_QUERY (R105, R147): EXTRA is the budget less what is held, signed. -/
def execDieLedgerQuery (h : Issue) (s : State) : Host.Outcome State Fault Refusal :=
  whileClocked s fun s =>
  hostCmd s h (.dieLedgerQuery h) 0x0009 48 (fun _ => [])
    (fun s =>
      let budget := fld s PWR_DIE_BUDGET 7 0
      complete s h 0x0009 .ok (rdN s PWR_DIE_STS) budget (dieOps s) (unsgn 32 ((budget : Int) - dieHeld s)))

end Sys2Proof.Machine
end

