-- ==== Sys2Proof/Machine/Tick.lean ====
section
/-!
DEFINITION. The tick (R30 to R40, R186): what every engine, loop and unit does from a boundary to the next, and the decisions of the
boundary that it ends with. The state between two TICK_BOUNDARY commands is that of a boundary (assumption 23).
-/

namespace Sys2Proof.Machine

/-! ### Time (R30, R465) -/

/-- The next boundary: the first multiple of T that is at least T after the last one. Where T has changed and the last boundary is no
multiple of it, an earlier multiple is passed over (assumption 109). -/
def nextBoundary (s : State) : Nat := cdiv (s.ftm.boundary + tickNs s) (tickNs s) * tickNs s

/-- Fabric time moves on to a boundary. -/
def toBoundary (s : State) (b : Nat) : State :=
  let s := wrN (wr64 s FTM_TIME_LO FTM_TIME_HI b) FTM_FRAC 0
  let s := { s with ftm := { s.ftm with boundary := b } }
  ftmShow (wr64 s SEQ_TICK_LO SEQ_TICK_HI (tickNo s))

/-- `f` for every lane whose engine works. -/
def eachLane (f : State → Nat → State) (s : State) : State := lanes24.foldl (fun s n => if laneRuns s n then f s n else s) s

/-! ### Work before the motion of the tick -/

/-- The shutter path acted since the last boundary (R251 step 2): a marking lane records its split where GATE fell, a lane in its run-up
puts its mark back, and a mark to come is fixed in time anew. -/
def shutLane (s : State) (n : Nat) : State :=
  if !(lane s n).shut then s
  else
    let s := updLane s n (fun l => { l with shut := false })
    let p := if layerSt s = stExposing then Phase.runout else Phase.stopping
    if !laneRuns s n then s
    else
      match (lane s n).phase with
      | .marking => splitNow s n p
      | .runup => putBack s n p
      | _ => dropWindow s n

/-- A waiting lane's counters (R246, R255, R287). -/
def waitLane (s : State) (n : Nat) : State :=
  match (lane s n).phase with
  | .waitGrant =>
    let v := laneVid s n
    let s := if (lane s n).waited = some v then s else count (updLane s n (fun l => { l with waited := some v })) n 24 1
    tally s n 28 1
  | .waitEmit => tally s n 28 1
  | .waitPlume => tally s n 32 1
  | _ => s

/-- Lane `n` moves on for `dt` fs; a raw course by a tick, and one that has come to rest without a jog leaves the scanner at its counts. -/
def moveLaneOn (dt : Nat) (s : State) (n : Nat) : State :=
  if (lane s n).raw.isSome then
    let s := updLane s n (fun l => { l with raw := l.raw.map (fun r => { r with ticks := r.ticks + 1 }) })
    let l := lane s n
    if l.jog.isNone && l.raw.any (·.over) then rawEnd s n else s
  else advance n 64 s (nowFs s) dt

/-! ### Plume check (R286) -/

/-- The lanes that are blocked: GATE planned open at the boundary that the tick ends with, and inside a corridor there. `s1` is that
boundary's state before any lane is blocked, and `cs` the spots that cast corridors in it. -/
def blockedLanes (s1 : State) (cs : List (Nat × Int × Int)) : List Nat :=
  (cs.filter (fun c => decide (c.1 < 24) && inPlume s1 cs c.1 c.2.1 c.2.2)).map (·.1)

/-- A blocked lane (R286): a mark is split as for an underrun, one in its run-up is put back, and one at rest does not begin; the laser goes
off. -/
def blockLane (s : State) (n : Nat) : State :=
  let p := if layerSt s = stExposing then Phase.runout else Phase.stopping
  match (lane s n).phase with
  | .marking => splitNow s n p
  | .runup => putBack (gateLow s n) n p
  | .hold => setPhase (dropWindow (gateLow s n) n) n .waitPlume
  | _ => dropWindow (gateLow s n) n

/-- The plume check of a tick, by the plans `s1` of the boundary that it ends with: the spots that cast corridors are held for the lanes at
rest, and the blocked lanes of `s` stop (R286). -/
def plumeCheck (s1 s : State) : State :=
  let cs := castersNow s1
  let s := { s with ovl := { s.ovl with casters := cs } }
  (blockedLanes s1 cs).foldl blockLane s

/-! ### Burn factor and samples (R364 to R368) -/

/-- The tick's burn factor (R364, R366); `late`: the tile has been requested and has not arrived. -/
def burnStep (late : Bool) (s : State) (n : Nat) : State :=
  let l := lane s n
  let x := roundPlu l.px
  let y := roundPlu l.py
  let on := l.phase == .runup || l.phase == .marking || gateOf s n || !(pulses l.gates).isEmpty
  if !on then updLane s n (fun l => { l with burnF := none })
  else if burnOn s && (late || !tileHit s (engineOf s n) x y) then
    satInc (updLane s n (fun l => { l with burnF := some (l.burnF.getD one16) })) BURN_MISSES
  else
    let f := burnFactor s (engineOf s n) x y
    updLane (if burnOn s then tileUse s (engineOf s n) x y else s) n (fun l => { l with burnF := some f })

/-- The conditions of R367 for lane `n`, which stood at the boundary as `s0` has it. -/
def gathers (s0 s : State) (n : Nat) (pa8 : Int) : Bool :=
  let ramps := match gateOwner s n with
    | some w => remarkRamp s n w (along16 s n w) == one16 && stitchRamp w (along16 s n w) == one16
    | none => false
  layerSt s == stExposing && gateAtNow s0 n && decide (0 < pa8) && ramps &&
  decide ((lane s n).gateRose + startTicks s n * tickFs s ≤ nowFs s)

/-- The photodiode sample of a tick (R368), unless the tick missed its tile (R366). -/
def pdSample (miss : Bool) (s0 s : State) (n : Nat) (pb8 pa8 : Int) : State :=
  let r := match gateOwner s n with
    | some w => recipeOf s w.rcd.recipe
    | none => Recipe.none
  let sp := sgn 32 (r.setpoints.getD 0 0)
  if burnOn s && !miss && gathers s0 s n pa8 && !staleNow s n 0 && !(lane s n).pdOver.testBit 0 && decide (0 < sp) then
    let x := roundPlu (lane s0 n).px
    let y := roundPlu (lane s0 n).py
    gather s (engineOf s n) x y false (burnSample (pdVal s n 0).toNat sp.toNat pb8.toNat pa8.toNat)
  else s

/-- The boundary that the tick began with is held for camera records (R327). -/
def holdPast (s0 s : State) (n : Nat) (pb8 pa8 : Int) : State :=
  let l0 := lane s0 n
  let p : PastTick := ⟨now s0, roundPlu l0.px, roundPlu l0.py, laneVid s0 n, gateAtNow s0 n, pb8.toNat, pa8.toNat, gathers s0 s n pa8,
    match gateOwner s n with
    | some w => w.rcd.recipe
    | none => 0⟩
  updLane s n (fun l => { l with past := (p :: l.past).take 256 })

/-! ### Power (R252) -/

/-- Edges of GATE, burn factor, power and samples of lane `n` in the tick that began at `s0` and ends at `e` fs. -/
def powerLane (late : Nat) (s0 : State) (e : Nat) (s : State) (n : Nat) : State :=
  let win := (pulses (lane s n).gates).any (meets (nowFs s) e)
  let miss0 := rdN s BURN_MISSES
  let s := burnStep (late.testBit n) s n
  let miss := rdN s BURN_MISSES != miss0 || !tileHit s (engineOf s n) (roundPlu (lane s n).px) (roundPlu (lane s n).py)
  let live := win && !forcedOff s n
  let owner := gateOwner s n
  let (s, pb8, pa8) := powerStep s n win
  let s := if owner.isSome then pdSample miss s0 s n pb8 pa8 else s
  let s := powerCount (holdPast s0 s n pb8 pa8) n live pa8
  gateEdges s n (nowFs s) e

/-! ### Tick trace and recording (R512, R570) -/

/-- STALE of both photodiode inputs, bit 0 PD0. -/
def staleBits (s : State) (n : Nat) : Nat := b2n (staleNow s n 0) + 2 * b2n (staleNow s n 1)

/-- The tick trace entry of lane `n` for tick `k`; `open_` is GATE and `forced` step 1 of R252 in the tick. -/
def traceEntry (s : State) (n k : Nat) (open_ forced : Bool) : List Byte :=
  let l := lane s n
  let w := fld s (LAS_WORD n) 17 0
  let flags := b2n open_ + 2 * b2n (emitOf s n) + 4 * staleBits s n + 16 * (w / 65536) + 64 * b2n forced + 128 * b2n (flag s (LOOP_STS n) 20)
  leBytes 4 k ++ leBytes 4 (laneVid s n) ++ leBytes 4 (unsgn 32 (roundPlu l.px)) ++ leBytes 4 (unsgn 32 (roundPlu l.py)) ++
  leBytes 2 w ++ leBytes 1 (fld s (LN_STS n) 23 20) ++ leBytes 1 flags ++ leBytes 4 (rdN s (AFE_PD_VALUE n 0)) ++
  leBytes 4 (rdN s (AFE_PD_VALUE n 1)) ++ leBytes 2 (satN 65535 l.lastDev) ++ leBytes 1 (fld s (LOOP_STS n) 19 18) ++
  leBytes 1 (engineOf s n)

/-- Step 11 of lane `n`: its trace entry. -/
def traceLane (k : Nat) (s0 s : State) (n : Nat) : State :=
  if flag s EVR_STS 1 then s
  else putRet s (tickTrace + n * 0x2000 + k % 256 * 32) (traceEntry s n k (gateAtNow s0 n) (forcedOff s n))

/-- The trace freezes at the end of the tick in which a DEVICE or FATAL fault was raised (R570, R571). -/
def traceFreeze (s : State) (k : Nat) : State :=
  match s.evr.freezeNow with
  | none => s
  | some code =>
    let s := putHeader s 12 ([1, 0] ++ leBytes 2 code ++ leBytes 8 k ++ leBytes 8 (now s))
    setFlag { s with evr := { s.evr with freezeNow := none } } EVR_STS 1 true

/-- The tick record of lane `n` (R512). -/
def tickRecord (s : State) (n k : Nat) (open_ : Bool) : List Byte :=
  let l := lane s n
  let w := fld s (LAS_WORD n) 17 0
  let pd (i : Nat) : Nat := (clampI 0 65535 (fdiv (pdVal s n i) 4096)).toNat
  let um (p : Int) : Nat := unsgn 24 (fdiv (roundPlu p) 8)
  let b3 := b2n open_ + 2 * staleBits s n + 8 * (w / 65536) + 32 * b2n (flag s (LOOP_STS n) 20) + 64 * fld s (LOOP_STS n) 19 18
  leBytes 2 k ++ leBytes 1 n ++ leBytes 1 b3 ++ leBytes 2 w ++ leBytes 2 (pd 0) ++ leBytes 2 (pd 1) ++ leBytes 3 (um l.px) ++ leBytes 3 (um l.py)

/-- The records of tick `k`: the sync record first, then the tick records in ascending lane order (R512). -/
def recordTick (s0 s : State) (k : Nat) : State :=
  if !recEn s then s
  else
    let sync := s.recording.on && (s.recording.syncDue || k % 4096 == 0)
    let s := if sync then
               recPut { s with recording := { s.recording with syncDue := false } }
                 ([0, 0, 0x40, 0] ++ leBytes 8 k ++ leBytes 4 (rdN s SEQ_LAYER))
             else s
    let s := if layerSt s = stExposing || layerSt s = stStopBath then
               (bitList (fld s CMP_REC_CFG 23 0) 24).foldl (fun s n => recPut s (tickRecord s n k (gateAtNow s0 n))) s
             else s
    recDrain s

/-! ### Withdrawal (R292, R293) -/

/-- Remote work of lane `n` that has not started goes back to its owner (R278). -/
def withdrawLane (s : State) (n : Nat) : State :=
  let l := lane s n
  let far (w : Work) : Bool := w.src == 3 && w.resume.isNone
  let drop := l.cur.any far && !curStarted s n
  let away := (if drop then l.cur.toList else []) ++ l.succ.toList.filter far ++ l.claimed.filter (·.src == 3) ++ l.kept.filter far
  if away.isEmpty then s
  else
    let s := if l.succ.any far then cornerOff (releaseSlot (updLane s n (fun q => { q with succ := none })) n 1) n else s
    let s := if drop then dropCur s n else s
    let s := updLane s n (fun q => { q with claimed := q.claimed.filter (·.src != 3), kept := q.kept.filter (fun w => !far w) })
    away.foldl (fun s w => returnWork s n w w.resume) s

/-- The device withdraws at its first boundary after it learns of an excess (R292). -/
def withdrawNow (s : State) : State :=
  if s.ovl.excess = 0 then s
  else
    let s := { s with ovl := { s.ovl with excessAt := now s } }
    if withdrawn s then s else lanes24.foldl withdrawLane (setFlag s OVL_STS 0 true)

/-! ### Arbitration (R273) -/

/-- What arbitration has done so far at a boundary: the lanes granted, what each home lane's estimate has lost in µs, and the CLAIMs
that were granted. -/
structure Arb where
  st : State
  used : List Nat
  less : List (Nat × Nat)
  won : List ClaimIn
  deriving DecidableEq, Repr

/-- A requester of an entry: its E, its global lane and for a remote one its CLAIM. -/
structure Asker where
  e : Nat
  glane : Nat
  claim : Option ClaimIn
  deriving DecidableEq, Repr

/-- The requesters of an entry that qualify; `s0` is the state at the boundary before any grant. -/
def askers (s0 : State) (a : Arb) (e : PoolEntry) (tV : Nat) (eh : Option Nat) : List Asker :=
  (others s0 e.work).flatMap (fun g =>
    match openE s0 g with
    | none => []
    | some x =>
      if a.used.contains g || !fits s0 x tV eh then []
      else
        match localLane s0 g with
        | some _ => [⟨x, g, none⟩]
        | none => ((s0.ovl.claims.find? (fun c => c.lane == g && c.dev == g / 24 && c.zone == e.zone)).map (fun c => (⟨x, g, some c⟩ : Asker))).toList)

/-- The requester with the lowest E, a tie by the lower global lane. -/
def bestAsker (l : List Asker) : Option Asker :=
  l.foldl (fun m q => match m with
    | none => some q
    | some b => if q.e < b.e || (q.e == b.e && decide (q.glane < b.glane)) then some q else some b) none

/-- The claimant's work and the home segment of an entry granted (R280, R281): split when it has a valid split. `ec` is the claimant's
E and `eh` the home lane's without the entry. -/
def grantParts (s : State) (e : PoolEntry) (ec eh : Nat) : Work × Option Work :=
  match splitAt s e.zone e.work with
  | none => (e.work, none)
  | some c =>
    let homeFirst := decide (sideOf s e.zone e.work.rcd.sx e.work.rcd.sy < 0)
    let d := splitDist s e.zone e.work c (if homeFirst then eh else ec) (if homeFirst then ec else eh)
    let (a, b) := segments s e.home e.work d
    if homeFirst then (b, some a) else (a, some b)

/-- The work goes to the claimant: to a lane of this device, or as a GRANT (R276, R279). -/
def giveWork (s : State) (e : PoolEntry) (w : Work) (q : Asker) : State :=
  match q.claim with
  | none =>
    satInc (updLane s (q.glane % 24) (fun l => { l with claimed := l.claimed ++ [{ w with src := 2 }] })) OVL_CLAIMS_LOCAL
  | some c =>
    let seg := if w.resume.isSome then 3 else w.seg
    let split : Int := match w.resume with
      | some d => d
      | none => w.split
    let rec_ := leNat (sramBytes s (slotOf s e.home e.idx) 32)
    sendMsg (satInc s OVL_GRANTS_REMOTE) c.dev tyGrant [e.zone, seg, c.lane, c.req, c.req + fld s OVL_CFG2 31 16 * 1000,
      unsgn 32 w.lo, unsgn 32 w.hi, unsgn 32 split, rec_]

/-- The pool after a grant: the entry is CLAIMED with the claimant's part, for a remote one with its START_NOT_BEFORE, and the home segment
follows it as HOME_ONLY (R267, R276). -/
def poolAfter (s : State) (e : PoolEntry) (w : Work) (home : Option Work) (q : Asker) : State :=
  let w := match q.claim with
    | some c => { w with notBefore := c.req + fld s OVL_CFG2 31 16 * 1000 }
    | none => w
  let h : List PoolEntry := (home.map (fun x => { e with work := { x with src := 1 }, state := PoolState.homeOnly, holder := globalLane s e.home, grantable := false })).toList
  { s with ovl := { s.ovl with pool := s.ovl.pool.flatMap (fun p =>
      if sameEntry e.work p then { p with work := { w with src := 1 }, state := .claimed, holder := q.glane, grantable := false } :: h else [p]) } }

/-- An entry that may be granted: OPEN, or HOME_PENDING and grantable. -/
def PoolEntry.free (e : PoolEntry) : Bool := e.state == .opened || (e.state == .homePending && e.grantable)

/-- One entry is arbitrated, unless a grant before it at this boundary has made its home lane take it. -/
def arbEntry (s0 : State) (a : Arb) (e0 : PoolEntry) : Arb :=
  match a.st.ovl.pool.find? (sameEntry e0.work) with
  | none => a
  | some e =>
    if stayHome s0 e.work || !e.free then a
    else
      let tV := e.work.tr / 1000
      let cut := mget 0 a.less e.home
      let eh := (homeEst s0 e.home).map (· - cut)
      match bestAsker (askers s0 a e tV eh) with
      | none => a
      | some q =>
        let s := if e.state == .homePending then dropPending a.st e.home e.work else a.st
        let (w, home) := grantParts s e q.e (estE s0 e.home - cut - tV)
        let s := giveWork (poolAfter s e w home q) e w q
        let s := match home with
          | some x => satInc (updLane s e.home (fun l => { l with claimed := l.claimed ++ [{ x with src := 1 }] })) OVL_SPLITS
          | none => s
        ⟨s, q.glane :: a.used, mset a.less e.home (cut + tV), a.won ++ q.claim.toList⟩

/-- The entries of a zone that are arbitrated: the 64 oldest that may be granted. -/
def zoneEntries (s : State) (z : Nat) : List PoolEntry :=
  (sortBy (fun e : PoolEntry => e.work.rcd.vid) (s.ovl.pool.filter (fun e => e.zone == z && e.free))).take 64

/-- The arbitration of a boundary (R273); every CLAIM that received nothing is answered with DENY. A device that has not started gives no
pool work (R184). -/
def arbitrate (s : State) : State :=
  if s.ovl.pool.isEmpty && s.ovl.claims.isEmpty then s
  else
    let es := if s.seq.started && inLayer s then (List.range 64).flatMap (zoneEntries s) else []
    let a := es.foldl (arbEntry s) ⟨s, [], [], []⟩
    let left := s.ovl.claims.filter (fun c => !a.won.contains c)
    let t := { a.st with ovl := { a.st.ovl with claims := [] } }
    poolShow (left.foldl (fun s c => sendMsg s c.dev tyDeny [c.zone, 0, c.lane, c.req]) t)

/-! ### CLAIM and POSITION (R276, R291) -/

/-- A lane asks a remote owner for work, when it is open, has no CLAIM outstanding and qualifies by its own view (R276). -/
def sendClaim (s : State) (a : ClaimAsk) : State :=
  let n := a.lane
  let view := match remoteEst s a.home with
    | some r => if estOld s r then none else some (if r.halted then none else some (estView s r))
    | none => none
  match view with
  | none => s
  | some eh =>
    if withdrawn s || !laneOpen s n || (lane s n).claimOut.isSome || a.owner = ownAddr s || a.home / 24 ≠ a.owner ||
       !fits s (estE s n) a.dur eh then s
    else
      sendMsg (updLane s n (fun l => { l with claimOut := some (a.owner, a.zone, now s) })) a.owner tyClaim
        [a.zone, 0, globalLane s n, estE s n, estQ s n, now s]

/-- Plate-group peers with a direct link that is UP. -/
def adjacent (s : State) : List Nat :=
  (groupPeers s).filter (fun d => ports4.any (fun p => portUp s p && flag s (FAB_P_STS p) 23 && fld s (FAB_P_STS p) 28 24 == d))

/-- The border lanes' positions of the boundary go to every adjacent member. -/
def sendPositions (s : State) : State :=
  let ls := bitList (fld s PLM_BORDER_MASK 23 0) 24
  if ls.isEmpty then s
  else
    let body := ls.flatMap (fun n => [globalLane s n, b2n (!forcedOff s n && plannedHigh s n (nowFs s)), tickNo s % 2 ^ 32,
      unsgn 32 (roundPlu (lane s n).px), unsgn 32 (roundPlu (lane s n).py)])
    (adjacent s).foldl (fun s d => sendMsg s d tyPosition body) s

/-! ### The tick -/

/-- The RDY input of the lanes in a mask is high (R247). -/
def rdyRise (s : State) (rdy : Nat) : State := (bitList rdy 24).foldl (fun s n => setFlag s (LAS_STS n) 3 true) s

/-- The work of the tick that begins at the present boundary: photodiodes, the plume check, motion, and the range of scanner counts. -/
def tickMotion (s : State) (pds : List PdWin) (overrun b' : Nat) : State :=
  let s := eachLane waitLane (lanes24.foldl shutLane s)
  let s := lanes24.foldl l1Check (pdTicks s pds)
  let dt := (b' - now s) * 1000000
  let go (s : State) : State := eachLane (fun s n => if overrun.testBit n then s else moveLaneOn dt s n) s
  let s := if flag s PLM_CFG 31 then plumeCheck (toBoundary (go s) b') s else { s with ovl := { s.ovl with casters := [] } }
  eachLane rangeCheck (tick1 (go s))

/-- Power, samples, counters, trace and recording of the tick that began as `s0` and ends at `b'` ns. -/
def tickPower (s0 s : State) (late b' : Nat) : State :=
  let k := tickNo s
  let s := quadLoops (eachLane (powerLane late s0 (b' * 1000000)) s)
  let s := if withdrawn s && inLayer s then { s with seq := { s.seq with holdoverTicks := s.seq.holdoverTicks + 1 } } else s
  recordTick s0 (traceFreeze (eachLane (traceLane k s0) s) k) k

/-- The faults that the tick has shown, at the boundary that it ends with (R37, R251). -/
def tickFaults (s : State) (overrun : Nat) (shut : Bool) : State :=
  let s := (bitList overrun 24).foldl (fun s n =>
    if laneRuns s n then raiseFault (failEngine s (engineOf s n)) clsLane 0x0101 (srcLane n) [] else s) s
  if shut then
    if layerSt s = stExposing then raiseFault s clsLayer 0x0202 srcDevice [] else event s srcDevice 0x1204 []
  else s

/-- What the lanes decide at a boundary: own entries taken for the decompressor's sake, arbitration, and while the layer exposes the next
of their work; in a stop bath they park. -/
def lanesDecide (s : State) : State :=
  let s := arbitrate (eachLane takeBlocked s)
  let s := if layerSt s = stExposing then
             eachLane (fun s n => if laneInLayer s n && (lane s n).phase != .halted then laneDecide s n else s) s
           else if layerSt s = stStopBath then eachLane parkDue s
           else s
  if inLayer s then eachLane fillShow s else s

/-- What the boundary brings: scanner frames, axes, results and records taken, withdrawal, estimates, arbitration, the lanes' decisions,
CLAIMs and positions. -/
def tickEnd (s : State) (dtNs overrun : Nat) (encs : List (Nat × Int)) (asks : List ClaimAsk) : State :=
  let s := eachLane (fun s n => if overrun.testBit n then s else sendFrame s n) s
  let s := camTake (afeTake (axesTick s (dtNs * 1000000) encs))
  let s := lanesDecide (sendPositions (estShow (estRegs (withdrawNow s))))
  settle (poolShow (asks.foldl sendClaim s))

/-- TICK_BOUNDARY (R34): the work of the tick that begins at the present boundary, and the boundary that it ends with. `pds` are the
samples of the photodiode inputs, `encs` the counts of the incremental encoders, `late` the lanes whose burn tile has not arrived,
`overrun` those whose work was not complete, `rdy` those whose RDY has risen, and `asks` the claims that lanes may make. -/
def execTickBoundary (pds : List PdWin) (encs : List (Nat × Int)) (late overrun rdy : Nat) (asks : List ClaimAsk) (s : State) :
    Host.Outcome State Fault Refusal :=
  whileClocked s fun s =>
  let b' := nextBoundary s
  let dtNs := b' - now s
  let shut := lanes24.any (fun n => (lane s n).shut)
  let s0 := rdyRise s rdy
  let s := tickPower s0 (tickMotion s0 pds overrun b') late b'
  let s := tickFaults (toBoundary s b') overrun shut
  tickEnd s dtNs overrun encs asks

end Sys2Proof.Machine
end

