-- ==== Sys2Proof/Machine/Dispatch.lean ====
section
/-!
DEFINITION. The dispatch: one arm per command, each a direct call of its meaning.
-/

namespace Sys2Proof.Machine

/-- The effect of a command on everything but the queue. -/
def exec (i : Instr) (s : State) : Host.Outcome State Fault Refusal :=
  match i with
  | .badOpcode h op => Sys2Proof.Machine.execBadOpcode h op s
  | .nop h => Sys2Proof.Machine.execNop h s
  | .identify h => Sys2Proof.Machine.execIdentify h s
  | .resetDomain h d => Sys2Proof.Machine.execResetDomain h d s
  | .commit h mask flags => Sys2Proof.Machine.execCommit h mask flags s
  | .readStatus h addr => Sys2Proof.Machine.execReadStatus h addr s
  | .setStatusMirror h addr period => Sys2Proof.Machine.execSetStatusMirror h addr period s
  | .fwInfo h => Sys2Proof.Machine.execFwInfo h s
  | .powerDomain h d st flags => Sys2Proof.Machine.execPowerDomain h d st flags s
  | .dieLedgerQuery h => Sys2Proof.Machine.execDieLedgerQuery h s
  | .jobOpen h id_ hb hl db dl => Sys2Proof.Machine.execJobOpen h id_ hb hl db dl s
  | .jobClose h id_ => Sys2Proof.Machine.execJobClose h id_ s
  | .recipeLoad h first cnt source addr block => Sys2Proof.Machine.execRecipeLoad h first cnt source addr block s
  | .lanesetLoad h first cnt source addr inl block => Sys2Proof.Machine.execLanesetLoad h first cnt source addr inl block s
  | .layerLoad h addr layer => Sys2Proof.Machine.execLayerLoad h addr layer s
  | .layerArm h layer peers => Sys2Proof.Machine.execLayerArm h layer peers s
  | .layerExpose h layer start => Sys2Proof.Machine.execLayerExpose h layer start s
  | .stopBath h scope => Sys2Proof.Machine.execStopBath h scope s
  | .resume h layer start => Sys2Proof.Machine.execResume h layer start s
  | .layerAbort h scope => Sys2Proof.Machine.execLayerAbort h scope s
  | .contactSheetRead h layer addr => Sys2Proof.Machine.execContactSheetRead h layer addr s
  | .overlapSet h op margin horizon lookahead estP markOvh jumpOvh zone en lx ly nx ny first cnt map_ => Sys2Proof.Machine.execOverlapSet h op margin horizon lookahead estP markOvh jumpOvh zone en lx ly nx ny first cnt map_ s
  | .plumeSet h enable depth fx fy length half skip border => Sys2Proof.Machine.execPlumeSet h enable depth fx fy length half skip border s
  | .stitchSet h zone overlap amp => Sys2Proof.Machine.execStitchSet h zone overlap amp s
  | .laneConfig h lane_ flags vmark vjump accel jerk zv za zj winXy winZ delay count errs => Sys2Proof.Machine.execLaneConfig h lane_ flags vmark vjump accel jerk zv za zj winXy winZ delay count errs s
  | .enlargerMapLoad h lane_ source addr block => Sys2Proof.Machine.execEnlargerMapLoad h lane_ source addr block s
  | .scannerLinkSet h lane_ gen pol => Sys2Proof.Machine.execScannerLinkSet h lane_ gen pol s
  | .laneJog h lane_ mode x y z speed => Sys2Proof.Machine.execLaneJog h lane_ mode x y z speed s
  | .driftTermsSet h lane_ apply_ mask terms => Sys2Proof.Machine.execDriftTermsSet h lane_ apply_ mask terms s
  | .laserPortSet h lane_ mode flags filter pfs pmax lead => Sys2Proof.Machine.execLaserPortSet h lane_ mode flags filter pfs pmax lead s
  | .ledgerSet h budget dpdt stepMax => Sys2Proof.Machine.execLedgerSet h budget dpdt stepMax s
  | .afeSet h lane_ flags calDelta offSettle satCode darkMin => Sys2Proof.Machine.execAfeSet h lane_ flags calDelta offSettle satCode darkMin s
  | .afeCalibrate h lanes inputs mode => Sys2Proof.Machine.execAfeCalibrate h lanes inputs mode s
  | .calValuesRead h first cnt addr => Sys2Proof.Machine.execCalValuesRead h first cnt addr s
  | .calValuesWrite h cnt source addr block => Sys2Proof.Machine.execCalValuesWrite h cnt source addr block s
  | .csiPortSet h port lanes rate busMode scl => Sys2Proof.Machine.execCsiPortSet h port lanes rate busMode scl s
  | .contextSet h c op nwrites fields items => Sys2Proof.Machine.execContextSet h c op nwrites fields items s
  | .statsRoute h c lane_ routes metric => Sys2Proof.Machine.execStatsRoute h c lane_ routes metric s
  | .loopConfig h lanes lp mask limLo limHi slew flags start hold pdmin => Sys2Proof.Machine.execLoopConfig h lanes lp mask limLo limHi slew flags start hold pdmin s
  | .loopCoefWrite h lanes lp mask order kp ki kd kf => Sys2Proof.Machine.execLoopCoefWrite h lanes lp mask order kp ki kd kf s
  | .loopMode h lanes lp mode man flags => Sys2Proof.Machine.execLoopMode h lanes lp mode man flags s
  | .loopSetpoint h lanes lp op value => Sys2Proof.Machine.execLoopSetpoint h lanes lp op value s
  | .loopRead h lane_ lp => Sys2Proof.Machine.execLoopRead h lane_ lp s
  | .burnConfig h flags gain weight nMin ox oy cell gw gh x0 y0 w wh => Sys2Proof.Machine.execBurnConfig h flags gain weight nMin ox oy cell gw gh x0 y0 w wh s
  | .burnMapLoad h source content addr => Sys2Proof.Machine.execBurnMapLoad h source content addr s
  | .burnMapSave h dest addr => Sys2Proof.Machine.execBurnMapSave h dest addr s
  | .burnFreeze h op scope => Sys2Proof.Machine.execBurnFreeze h op scope s
  | .axisConfig h axis sect vals => Sys2Proof.Machine.execAxisConfig h axis sect vals s
  | .axisMove h axis flags target vmax => Sys2Proof.Machine.execAxisMove h axis flags target vmax s
  | .axisHome h axis mode value => Sys2Proof.Machine.execAxisHome h axis mode value s
  | .axisStop h mask => Sys2Proof.Machine.execAxisStop h mask s
  | .axisResume h mask flags time => Sys2Proof.Machine.execAxisResume h mask flags time s
  | .axisGroupStart h mask flags time => Sys2Proof.Machine.execAxisGroupStart h mask flags time s
  | .axisRetarget h axis flags target vmax accel decel => Sys2Proof.Machine.execAxisRetarget h axis flags target vmax accel decel s
  | .fabricPortSet h port mode flags polarity => Sys2Proof.Machine.execFabricPortSet h port mode flags polarity s
  | .fabricDiscover h op addr => Sys2Proof.Machine.execFabricDiscover h op addr s
  | .fabricRouteRead h dest addr => Sys2Proof.Machine.execFabricRouteRead h dest addr s
  | .plateGroupSet h group => Sys2Proof.Machine.execPlateGroupSet h group s
  | .remoteCommand h op target count off data inner => Sys2Proof.Machine.execRemoteCommand h op target count off data inner s
  | .timeConfig h quality domain ann sync pdelay kp ki rateLim stepThresh lockThresh lockCount limit holdRate invert => Sys2Proof.Machine.execTimeConfig h quality domain ann sync pdelay kp ki rateLim stepThresh lockThresh lockCount limit holdRate invert s
  | .triggerSet h trig op start period width count => Sys2Proof.Machine.execTriggerSet h trig op start period width count s
  | .ddrTrain h channel => Sys2Proof.Machine.execDdrTrain h channel s
  | .ddrConfig h channel type rate ranks module_ width density map scrubHours ageNs actLimit thresh scrubMs => Sys2Proof.Machine.execDdrConfig h channel type rate ranks module_ width density map scrubHours ageNs actLimit thresh scrubMs s
  | .dmaChannelSet h channel priority rate => Sys2Proof.Machine.execDmaChannelSet h channel priority rate s
  | .dmaStart h channel space addr => Sys2Proof.Machine.execDmaStart h channel space addr s
  | .dmaStop h mask => Sys2Proof.Machine.execDmaStop h mask s
  | .compressJob h codec format level rate inSpace outSpace inAddr outAddr inLen outLen => Sys2Proof.Machine.execCompressJob h codec format level rate inSpace outSpace inAddr outAddr inLen outLen s
  | .decompressJob h codec format rate inSpace outSpace inAddr outAddr inLen outLen ratio cap => Sys2Proof.Machine.execDecompressJob h codec format rate inSpace outSpace inAddr outAddr inLen outLen ratio cap s
  | .codecFlush h codec used => Sys2Proof.Machine.execCodecFlush h codec used s
  | .codecResume h codec op rate outSpace outAddr outLen => Sys2Proof.Machine.execCodecResume h codec op rate outSpace outAddr outLen s
  | .mbxBind h channel op sender receiver peer timeout => Sys2Proof.Machine.execMbxBind h channel op sender receiver peer timeout s
  | .mbxLock h mask => Sys2Proof.Machine.execMbxLock h mask s
  | .panelSet h op channel v0 v1 v2 v3 => Sys2Proof.Machine.execPanelSet h op channel v0 v1 v2 v3 s
  | .ledPatternLoad h engine_ mode flags nchan list hi lo timeA timeB nsteps steps => Sys2Proof.Machine.execLedPatternLoad h engine_ mode flags nchan list hi lo timeA timeB nsteps steps s
  | .ledColourTarget h op red green blue x y luma m gain => Sys2Proof.Machine.execLedColourTarget h op red green blue x y luma m gain s
  | .ledDiag h op mask shorts => Sys2Proof.Machine.execLedDiag h op mask shorts s
  | .faultRead h addr => Sys2Proof.Machine.execFaultRead h addr s
  | .faultClear h op code source mask => Sys2Proof.Machine.execFaultClear h op code source mask s
  | .recorderFreeze h => Sys2Proof.Machine.execRecorderFreeze h s
  | .recorderThaw h => Sys2Proof.Machine.execRecorderThaw h s
  | .blackboxRead h op count lanes addr => Sys2Proof.Machine.execBlackboxRead h op count lanes addr s
  | .laneEngineMap h op lane_ engine value => Sys2Proof.Machine.execLaneEngineMap h op lane_ engine value s
  | .repairScan h banks engines fails tests stop => Sys2Proof.Machine.execRepairScan h banks engines fails tests stop s
  | .repairFix h op stop => Sys2Proof.Machine.execRepairFix h op stop s
  | .vddAonFirstRise => Sys2Proof.Machine.execVddAonFirstRise s
  | .porNLow => Sys2Proof.Machine.execPorNLow s
  | .porNRise bootSel fabAddr refclk fails flash => Sys2Proof.Machine.execPorNRise bootSel fabAddr refclk fails flash s
  | .sysRstNLow => Sys2Proof.Machine.execSysRstNLow s
  | .sysRstNRelease fails flash => Sys2Proof.Machine.execSysRstNRelease fails flash s
  | .brownout fails flash => Sys2Proof.Machine.execBrownout fails flash s
  | .vddAonUndervoltage => Sys2Proof.Machine.execVddAonUndervoltage s
  | .supplyUv rail => Sys2Proof.Machine.execSupplyUv rail s
  | .railSequenceViolation group => Sys2Proof.Machine.execRailSequenceViolation group s
  | .vddCoreRemoval => Sys2Proof.Machine.execVddCoreRemoval s
  | .perstN => Sys2Proof.Machine.execPerstN s
  | .busMasterEnable bme d3hot intxDis line bar0 bar2 => Sys2Proof.Machine.execBusMasterEnable bme d3hot intxDis line bar0 bar2 s
  | .bootChunk v => Sys2Proof.Machine.execBootChunk v s
  | .bootFlashTimeout => Sys2Proof.Machine.execBootFlashTimeout s
  | .thmSample temps => Sys2Proof.Machine.execThmSample temps s
  | .domainSwitchDone d => Sys2Proof.Machine.execDomainSwitchDone d s
  | .domainResetRelease d => Sys2Proof.Machine.execDomainResetRelease d s
  | .dieLedgerRetry fails => Sys2Proof.Machine.execDieLedgerRetry fails s
  | .registerWrite off v full => Sys2Proof.Machine.execRegisterWrite off v full s
  | .liveFieldApply => Sys2Proof.Machine.execLiveFieldApply s
  | .offDomainAccess off write => Sys2Proof.Machine.execOffDomainAccess off write s
  | .latchingRead off ecc => Sys2Proof.Machine.execLatchingRead off ecc s
  | .apertureWrite off data => Sys2Proof.Machine.execApertureWrite off data s
  | .bar2Access addr write len data ecc => Sys2Proof.Machine.execBar2Access addr write len data ecc s
  | .hifSqTail n v => Sys2Proof.Machine.execHifSqTail n v s
  | .hifCqHead n v => Sys2Proof.Machine.execHifCqHead n v s
  | .ringBaseWrite n reg v => Sys2Proof.Machine.execRingBaseWrite n reg v s
  | .sqEnable n on => Sys2Proof.Machine.execSqEnable n on s
  | .commandFetch => Sys2Proof.Machine.execCommandFetch s
  | .statusMirrorSnapshot => Sys2Proof.Machine.execStatusMirrorSnapshot s
  | .commitTakeEffect => Sys2Proof.Machine.execCommitTakeEffect s
  | .loadPassEnd badLane badIdx => Sys2Proof.Machine.execLoadPassEnd badLane badIdx s
  | .refillChunk q bad => Sys2Proof.Machine.execRefillChunk q bad s
  | .layerStart => Sys2Proof.Machine.execLayerStart s
  | .stopBathEffect => Sys2Proof.Machine.execStopBathEffect s
  | .stopBathEnd => Sys2Proof.Machine.execStopBathEnd s
  | .stopTimeout => Sys2Proof.Machine.execStopTimeout s
  | .resumeStart => Sys2Proof.Machine.execResumeStart s
  | .abortEffect => Sys2Proof.Machine.execAbortEffect s
  | .layerDone => Sys2Proof.Machine.execLayerDone s
  | .tickBoundary pds encs late overrun rdy asks => Sys2Proof.Machine.execTickBoundary pds encs late overrun rdy asks s
  | .underrunRepeat lane_ => Sys2Proof.Machine.execUnderrunRepeat lane_ s
  | .remarkStart lane_ => Sys2Proof.Machine.execRemarkStart lane_ s
  | .ledgerGrant => Sys2Proof.Machine.execLedgerGrant s
  | .estimateSend lanes => Sys2Proof.Machine.execEstimateSend lanes s
  | .estimateToken via src flags entries => Sys2Proof.Machine.execEstimateToken via src flags entries s
  | .estStale => Sys2Proof.Machine.execEstStale s
  | .claimToken via src zone lane_ e q req => Sys2Proof.Machine.execClaimToken via src zone lane_ e q req s
  | .grantToken via src zone seg lane_ req notBefore lo hi split rec_ => Sys2Proof.Machine.execGrantToken via src zone seg lane_ req notBefore lo hi split rec_ s
  | .denyToken via src zone lane_ req => Sys2Proof.Machine.execDenyToken via src zone lane_ req s
  | .claimTimeout lane_ => Sys2Proof.Machine.execClaimTimeout lane_ s
  | .returnToken via src seg lane_ vid resumeAt => Sys2Proof.Machine.execReturnToken via src seg lane_ vid resumeAt s
  | .doneToken via src seg lane_ vid endTime => Sys2Proof.Machine.execDoneToken via src seg lane_ vid endTime s
  | .positionToken via src recs => Sys2Proof.Machine.execPositionToken via src recs s
  | .peerStale peer => Sys2Proof.Machine.execPeerStale peer s
  | .withdrawalEnd => Sys2Proof.Machine.execWithdrawalEnd s
  | .scannerLinkTimeout lane_ => Sys2Proof.Machine.execScannerLinkTimeout lane_ s
  | .jogTargetReached lane_ => Sys2Proof.Machine.execJogTargetReached lane_ s
  | .jumpRetarget lane_ => Sys2Proof.Machine.execJumpRetarget lane_ s
  | .driftApply lane_ => Sys2Proof.Machine.execDriftApply lane_ s
  | .driftTimeout lane_ => Sys2Proof.Machine.execDriftTimeout lane_ s
  | .returnFrame lane_ line => Sys2Proof.Machine.execReturnFrame lane_ line s
  | .returnFrameTimeout lane_ => Sys2Proof.Machine.execReturnFrameTimeout lane_ s
  | .linkLost lane_ => Sys2Proof.Machine.execLinkLost lane_ s
  | .scanDeviation lane_ => Sys2Proof.Machine.execScanDeviation lane_ s
  | .interlockNFall => Sys2Proof.Machine.execInterlockNFall s
  | .interlockNRise => Sys2Proof.Machine.execInterlockNRise s
  | .shutterLatchClear => Sys2Proof.Machine.execShutterLatchClear s
  | .almNChange lane_ low => Sys2Proof.Machine.execAlmNChange lane_ low s
  | .rdyFall lane_ => Sys2Proof.Machine.execRdyFall lane_ s
  | .calibrationRunStart lane_ => Sys2Proof.Machine.execCalibrationRunStart lane_ s
  | .calDeadline lane_ input => Sys2Proof.Machine.execCalDeadline lane_ input s
  | .calibrationRunEnd lane_ pd0 pd1 => Sys2Proof.Machine.execCalibrationRunEnd lane_ pd0 pd1 s
  | .frameStart port vc csi corrected phy ns => Sys2Proof.Machine.execFrameStart port vc csi corrected phy ns s
  | .longPacket port vc dt hdr crcOk data phy => Sys2Proof.Machine.execLongPacket port vc dt hdr crcOk data phy s
  | .frameEnd port vc corrected phy ns => Sys2Proof.Machine.execFrameEnd port vc corrected phy ns s
  | .pipelineLine p => Sys2Proof.Machine.execPipelineLine p s
  | .frameTimeout c => Sys2Proof.Machine.execFrameTimeout c s
  | .statsRecordReady c => Sys2Proof.Machine.execStatsRecordReady c s
  | .statsDelivery c => Sys2Proof.Machine.execStatsDelivery c s
  | .sensorWrites c acked => Sys2Proof.Machine.execSensorWrites c acked s
  | .contextWriteTimeout c => Sys2Proof.Machine.execContextWriteTimeout c s
  | .loopCoefApply => Sys2Proof.Machine.execLoopCoefApply s
  | .loopHoldLong lane_ lp => Sys2Proof.Machine.execLoopHoldLong lane_ lp s
  | .burnFill => Sys2Proof.Machine.execBurnFill s
  | .burnUpdate => Sys2Proof.Machine.execBurnUpdate s
  | .burnBorderTimeout peer => Sys2Proof.Machine.execBurnBorderTimeout peer s
  | .groupStartBoundary => Sys2Proof.Machine.execGroupStartBoundary s
  | .axisTargetReached k => Sys2Proof.Machine.execAxisTargetReached k s
  | .axisAtRest k => Sys2Proof.Machine.execAxisAtRest k s
  | .homingComplete k => Sys2Proof.Machine.execHomingComplete k s
  | .homeFail k => Sys2Proof.Machine.execHomeFail k s
  | .switchTransition k inp level ns raw => Sys2Proof.Machine.execSwitchTransition k inp level ns raw s
  | .switchDebounce k inp => Sys2Proof.Machine.execSwitchDebounce k inp s
  | .switchChatter k inp => Sys2Proof.Machine.execSwitchChatter k inp s
  | .stall k => Sys2Proof.Machine.execStall k s
  | .encErr k => Sys2Proof.Machine.execEncErr k s
  | .ssiFrame k frame ns => Sys2Proof.Machine.execSsiFrame k frame ns s
  | .portSetTimeout p => Sys2Proof.Machine.execPortSetTimeout p s
  | .blockLockLoss p spare => Sys2Proof.Machine.execBlockLockLoss p spare s
  | .laneFailed p lane errs spare => Sys2Proof.Machine.execLaneFailed p lane errs spare s
  | .swapRx p => Sys2Proof.Machine.execSwapRx p s
  | .swapAckRx p => Sys2Proof.Machine.execSwapAckRx p s
  | .helloSend p => Sys2Proof.Machine.execHelloSend p s
  | .helloRx p addr info rootSerial rootHops size dir => Sys2Proof.Machine.execHelloRx p addr info rootSerial rootHops size dir s
  | .helloMiss p => Sys2Proof.Machine.execHelloMiss p s
  | .portRetrain p => Sys2Proof.Machine.execPortRetrain p s
  | .ackFrame p ack cls credits => Sys2Proof.Machine.execAckFrame p ack cls credits s
  | .standaloneAck p => Sys2Proof.Machine.execStandaloneAck p s
  | .nakFrame p expected => Sys2Proof.Machine.execNakFrame p expected s
  | .retryTimeout p => Sys2Proof.Machine.execRetryTimeout p s
  | .linkDown p => Sys2Proof.Machine.execLinkDown p s
  | .frameDiscarded p reason cls src => Sys2Proof.Machine.execFrameDiscarded p reason cls src s
  | .frameForward p cls ty dst src hops e2e body => Sys2Proof.Machine.execFrameForward p cls ty dst src hops e2e body s
  | .addrReq p serial addr => Sys2Proof.Machine.execAddrReq p serial addr s
  | .addrAssign p serial addr => Sys2Proof.Machine.execAddrAssign p serial addr s
  | .routeUpdate => Sys2Proof.Machine.execRouteUpdate s
  | .routeUpdateRx p metrics => Sys2Proof.Machine.execRouteUpdateRx p metrics s
  | .routeHoldExpiry a => Sys2Proof.Machine.execRouteHoldExpiry a s
  | .e2eAck via src cls next => Sys2Proof.Machine.execE2eAck via src cls next s
  | .e2eResend dst cls => Sys2Proof.Machine.execE2eResend dst cls s
  | .noticeRx via src kind layer time arg => Sys2Proof.Machine.execNoticeRx via src kind layer time arg s
  | .cmdFwd via src ring packet block => Sys2Proof.Machine.execCmdFwd via src ring packet block s
  | .cmdDone via src ring tag op status r0 r1 r2 ex time => Sys2Proof.Machine.execCmdDone via src ring tag op status r0 r1 r2 ex time s
  | .cmdFwdTimeout dst ring tag => Sys2Proof.Machine.execCmdFwdTimeout dst ring tag s
  | .regRead via src off count => Sys2Proof.Machine.execRegRead via src off count s
  | .regWrite via src off vals => Sys2Proof.Machine.execRegWrite via src off vals s
  | .regData via src vals => Sys2Proof.Machine.execRegData via src vals s
  | .regAck via src => Sys2Proof.Machine.execRegAck via src s
  | .regTimeout dst => Sys2Proof.Machine.execRegTimeout dst s
  | .mbxPost via src n msg => Sys2Proof.Machine.execMbxPost via src n msg s
  | .mbxGoClear via src n kind => Sys2Proof.Machine.execMbxGoClear via src n kind s
  | .burnBorder via src layer last cells => Sys2Proof.Machine.execBurnBorder via src layer last cells s
  | .bulkRec via src offset data => Sys2Proof.Machine.execBulkRec via src offset data s
  | .triggerEdge t rise => Sys2Proof.Machine.execTriggerEdge t rise s
  | .syncSend p => Sys2Proof.Machine.execSyncSend p s
  | .syncMsg p domain twoStep origin corr upE rx => Sys2Proof.Machine.execSyncMsg p domain twoStep origin corr upE rx s
  | .ftmLocked => Sys2Proof.Machine.execFtmLocked s
  | .announceSend p => Sys2Proof.Machine.execAnnounceSend p s
  | .announceRx p domain prio serial steps => Sys2Proof.Machine.execAnnounceRx p domain prio serial steps s
  | .announceTimeout => Sys2Proof.Machine.execAnnounceTimeout s
  | .syncLoss => Sys2Proof.Machine.execSyncLoss s
  | .holdDownExpiry serial => Sys2Proof.Machine.execHoldDownExpiry serial s
  | .pdelaySend p => Sys2Proof.Machine.execPdelaySend p s
  | .pdelayReq p domain turn => Sys2Proof.Machine.execPdelayReq p domain turn s
  | .pdelayResp p domain t4 turn => Sys2Proof.Machine.execPdelayResp p domain t4 turn s
  | .pdelayTimeout p => Sys2Proof.Machine.execPdelayTimeout p s
  | .holdoverExcess => Sys2Proof.Machine.execHoldoverExcess s
  | .trainingEnd c result us step lanes => Sys2Proof.Machine.execTrainingEnd c result us step lanes s
  | .dramRequest c asks blocked ecc => Sys2Proof.Machine.execDramRequest c asks blocked ecc s
  | .throttleExpiry c => Sys2Proof.Machine.execThrottleExpiry c s
  | .disturbWindow c => Sys2Proof.Machine.execDisturbWindow c s
  | .refresh c bank => Sys2Proof.Machine.execRefresh c bank s
  | .dramTempRead c hot => Sys2Proof.Machine.execDramTempRead c hot s
  | .zqCalibration c => Sys2Proof.Machine.execZqCalibration c s
  | .patrolScrub c ecc => Sys2Proof.Machine.execPatrolScrub c ecc s
  | .sramScrub a ecc word who => Sys2Proof.Machine.execSramScrub a ecc word who s
  | .sramRepair m fails => Sys2Proof.Machine.execSramRepair m fails s
  | .descriptorFetch c => Sys2Proof.Machine.execDescriptorFetch c s
  | .dmaBurst landed => Sys2Proof.Machine.execDmaBurst landed s
  | .busErr kind space addr landed => Sys2Proof.Machine.execBusErr kind space addr landed s
  | .codecJobEnd g cause used => Sys2Proof.Machine.execCodecJobEnd g cause used s
  | .recordingFlush => Sys2Proof.Machine.execRecordingFlush s
  | .cmpRecReadHi hi => Sys2Proof.Machine.execCmpRecReadHi hi s
  | .mbxMsgWrite id n r v => Sys2Proof.Machine.execMbxMsgWrite id n r v s
  | .mbxGoWrite id n v => Sys2Proof.Machine.execMbxGoWrite id n v s
  | .mbxLastRead id n r => Sys2Proof.Machine.execMbxLastRead id n r s
  | .mbxTimeout n => Sys2Proof.Machine.execMbxTimeout n s
  | .bulkOut data => Sys2Proof.Machine.execBulkOut data s
  | .poolRead off len => Sys2Proof.Machine.execPoolRead off len s
  | .poolWrite off data => Sys2Proof.Machine.execPoolWrite off data s
  | .usbBusReset removed speed => Sys2Proof.Machine.execUsbBusReset removed speed s
  | .panelSample keys plugs counts => Sys2Proof.Machine.execPanelSample keys plugs counts s
  | .patternTick => Sys2Proof.Machine.execPatternTick s
  | .colourReading ok m => Sys2Proof.Machine.execColourReading ok m s
  | .ledOnTime c mv => Sys2Proof.Machine.execLedOnTime c mv s
  | .neighbourRound shorts => Sys2Proof.Machine.execNeighbourRound shorts s
  | .faultConditionGone code source => Sys2Proof.Machine.execFaultConditionGone code source s
  | .recoveryTimer cls source => Sys2Proof.Machine.execRecoveryTimer cls source s
  | .conductorWatchdog c cmds => Sys2Proof.Machine.execConductorWatchdog c cmds s
  | .eventDrain => Sys2Proof.Machine.execEventDrain s
  | .evrWindowRead w => Sys2Proof.Machine.execEvrWindowRead w s
  | .engineRemap => Sys2Proof.Machine.execEngineRemap s
  | .perstNRelease => Sys2Proof.Machine.execPerstNRelease s
  | .failedEntryFetch n => Sys2Proof.Machine.execFailedEntryFetch n s
  | .lane0LockTimeout p => Sys2Proof.Machine.execLane0LockTimeout p s
  | .enczIndex k ns raw => Sys2Proof.Machine.execEnczIndex k ns raw s
  | .axisResumeStart => Sys2Proof.Machine.execAxisResumeStart s

end Sys2Proof.Machine
end

