-- ==== Sys2Proof/Safety.lean ====
section
/-!
DEFINITION. The terms in which statements speak: when a command takes its effect, how it ends, and what a safe device is.
-/

namespace Sys2Proof

open Sys2Proof.Machine

/-- The clocks run: no reset is held and no thermal shutdown is latched (R90, R114). -/
abbrev Clocked (s : State) : Prop := clocksOff s = false

/-- The packet that starts next spells this command (R133, R135). -/
abbrev Spelled (s : State) (h : Issue) (op : Nat) (c : Instr) : Prop := packetSays s h op c = true

/-- The command does `P`: it answers a next state, which differs from one with `P` in nothing that the queue, the latch and
the identity fuses hold. -/
def Does (o : Host.Outcome State Fault Refusal) (s : State) (P : State → Prop) : Prop := ∃ u, o = .next (holding s u) ∧ P u

/-- The packet of `h` starts and passes orders 1 to 4 of R137 and its layout (R135): no fence holds it, its header is good,
its parameter block is read and long enough, and it is not for another device. -/
structure Starts (s : State) (h : Issue) (layout : Nat) : Prop where
  clocked : Clocked s
  fence : fenceHolds s h = false
  header : headerOk h = true
  block : blockFails h = false
  local_ : forwards s h = false
  length : layout ≤ if Issue.paramPtr h then h.ptrLen else 48
  zero : h.prsvd = 0

/-- The command of `h` completes at once with a status and results, after work that leaves a state with `P`. -/
def Completes (o : Host.Outcome State Fault Refusal) (s : State) (h : Issue) (op : Nat) (st : Status) (r0 r1 r2 ex : Nat)
    (P : State → Prop) : Prop :=
  ∃ u, o = .next (holding s (complete u h op st r0 r1 r2 ex)) ∧ P u

/-- The command of `h` runs on under a key, after work that leaves a state with `P`. -/
def RunsOn (o : Host.Outcome State Fault Refusal) (s : State) (h : Issue) (op key : Nat) (aux : List Nat) (P : State → Prop) :
    Prop :=
  ∃ u, o = .next (holding s (startRun u h op key aux)) ∧ P u

/-- Nothing but registers changed from `s` to `t`, and of those only the ones at offsets in `as`. -/
def OnlyRegs (as : List Nat) (s t : State) : Prop := (∀ a, a ∉ as → rd t a = rd s a) ∧ { t with regs := s.regs } = s

/-- The three memories are the same. -/
def SameMemory (s t : State) : Prop :=
  t.sram = s.sram ∧ t.dram = s.dram ∧ t.host = s.host ∧ t.sramLost = s.sramLost ∧ t.dramLost = s.dramLost

/-- The three memories are in canonical form. -/
def MemForm (s : State) : Prop :=
  Memory.wf (unwritten s.sramLost) s.sram = true ∧ Memory.wf (unwritten s.dramLost) s.dram = true ∧
  Memory.wf (unwritten []) s.host = true

/-- A safe device after a thermal shutdown (R106, R114, R115): THERM_TRIP_N is low exactly while the shutdown is latched, and
then the device is in the safe state with SAFE_N low. -/
def ThermalSafe (s : State) : Prop :=
  s.pins.thermTripN = !s.pwr.thermLatch ∧ (s.pwr.thermLatch = true → s.pwr.safe = true ∧ s.pins.safeN = false)

end Sys2Proof
end

