-- ==== Sys2Proof/Certificates/Slice0/Obligations.lean ====
section
/-!
DEFINITION. The statements for the provers. A statement that covers several commands is a conjunction with one clause for each.
`Does`, `Starts`, `Completes` and `RunsOn` are defined in `Sys2Proof/Safety.lean`.
-/

section Statements

open Sys2Proof Sys2Proof.Machine

/-- Every step takes one command from the front of the queue and runs it on the state with the queue's rest; on an empty queue
the block idles (the model's own rule: the row's block has no clock of its own, assumption 11). -/
def Obligations.StepRunsFront : Prop :=
  (∀ (s : State) (c : Instr) (rest : List Instr), s.pending = c :: rest → step s = exec c { s with pending := rest }) ∧
  (∀ s : State, s.pending = [] → step s = .next s)

/-- No step faults or is refused: every command has an effect or completes (R134). -/
def Obligations.StepNeverStops : Prop := ∀ s : State, ∃ t, step s = .next t

/-- A step leaves the queue with the commands behind the one it ran, in order: no command puts one into the queue. -/
def Obligations.StepKeepsQueueOrder : Prop := ∀ s t : State, step s = .next t → t.pending = s.pending.tail

/-- After reset the device is thermally safe (R73, R91). -/
def Obligations.ResetThermallySafe : Prop := ThermalSafe State.reset

/-- R114 and R115, over every command and every state: THERM_TRIP_N is low exactly while a shutdown is latched, and a latched
device stays in the safe state. -/
def Obligations.StepKeepsThermallySafe : Prop := ∀ s t : State, ThermalSafe s → step s = .next t → ThermalSafe t

/-- R115: once a shutdown is latched, no command but the loss of VDD_CORE, and the first rise of VDD_AON that comes after every
supply was gone, clears it. -/
def Obligations.LatchClearsOnlyWithSupply : Prop :=
  ∀ (s t : State) (c : Instr), s.pwr.thermLatch = true → c ≠ .vddCoreRemoval → c ≠ .vddAonFirstRise →
    exec c s = .next t → t.pwr.thermLatch = true ∧ t.pins.thermTripN = s.pins.thermTripN

/-- The identity fuses hold for good (R97): no command changes the serial number or the key hash. -/
def Obligations.IdentityFusesHold : Prop :=
  ∀ (s t : State) (c : Instr), exec c s = .next t → t.fuses.serial = s.fuses.serial ∧ t.fuses.keyHash = s.fuses.keyHash

/-- Commands that act although the clocks stand: resets and supplies, the PCIe link core, the sensors, BAR accesses and
the shutter path. -/
def outsideClocks : Instr → Bool
  | .vddAonFirstRise => true
  | .porNLow => true
  | .porNRise .. => true
  | .sysRstNLow => true
  | .sysRstNRelease .. => true
  | .brownout .. => true
  | .vddAonUndervoltage => true
  | .railSequenceViolation .. => true
  | .vddCoreRemoval => true
  | .perstN => true
  | .perstNRelease => true
  | .busMasterEnable .. => true
  | .thmSample .. => true
  | .registerWrite .. => true
  | .latchingRead .. => true
  | .bar2Access .. => true
  | .interlockNFall => true
  | .interlockNRise => true
  | _ => false

/-- R114: after a thermal shutdown the clocks of every domain but AON and the PCIe link core stand: no other command has an
effect. The same holds while a reset is held (R82, R90; assumption 114). -/
def Obligations.LatchedDeviceStands : Prop :=
  ∀ (s : State) (c : Instr), s.pwr.thermLatch = true ∨ s.pwr.held ≠ 0 → outsideClocks c = false → exec c s = .next s

/-- R137: the orders of a packet's checks that are common to all opcodes. A packet that spells another command starts nothing, and
a fenced packet that must wait changes nothing (R131); then a bad header, a parameter block that cannot be read, an unreachable
target, a block too short or a reserved parameter bit ends the command with the status of its order; a packet for another device is
forwarded with its block (R136, R437). -/
def Obligations.PacketCheckOrder : Prop :=
  ∀ (s : State) (h : Issue) (c : Instr) (op layout : Nat) (checks : State → List (Bool × Status)) (body : State → State),
    let run := hostCmd s h c op layout checks body
    let a := accept s h
    let packet := ((nextStart s h).getD ([], [])).1
    let block := if Issue.paramPtr h then hostBytes a h.ptr h.ptrLen else []
    let away := forwards s h && op != 0x0805
    (packetSays s h op c = false ∨ fenceHolds s h = true → run = s) ∧
    (packetSays s h op c = true → fenceHolds s h = false →
      (headerOk h = false → run = fail a h op .badParam) ∧
      (headerOk h = true →
        (blockFails h = true → run = fail a h op .dmaError) ∧
        (blockFails h = false →
          (away = true ∧ reachable a h.target = false → run = fail a h op .fabricUnreachable) ∧
          (away = true ∧ reachable a h.target = true →
            run = startRun (sendMsg a h.target tyCmdFwd (fwdBody h.ring packet block)) h tyCmdFwd h.target [op]) ∧
          (away = false →
            ((if Issue.paramPtr h then h.ptrLen else 48) < layout ∨ h.prsvd ≠ 0 → run = fail a h op .badParam) ∧
            (layout ≤ (if Issue.paramPtr h then h.ptrLen else 48) ∧ h.prsvd = 0 →
              (∀ st, ((checks a).find? (fun c => !c.1)).map (·.2) = some st →
                run = fail (if st = .noGrant then dieRefuse a else a) h op st) ∧
              ((checks a).all (·.1) = true → run = body a))))))

/-- R134: a command that ends at once is no longer outstanding on its ring and leaves one completion there, unless its ring was
reset before it started; one that came over the fabric is answered there (R437). -/
def Claim.CompletionGoesToIssuer : Prop :=
  ∀ (s : State) (h : Issue) (op : Nat) (st : Status) (r0 r1 r2 ex : Nat),
    (h.src = none → voided s h = true → complete s h op st r0 r1 r2 ex = unvoid s h) ∧
    (h.src = none → voided s h = false → r0 < 2 ^ 32 → r1 < 2 ^ 32 → r2 < 2 ^ 32 → ex < 2 ^ 32 →
      complete s h op st r0 r1 r2 ex =
        hostOp (unvoid s h) (.complete ⟨h.ring, h.tag, op, st, false, r0, r1, r2, ex, now s⟩)) ∧
    (∀ a, h.src = some a → (complete s h op st r0 r1 r2 ex).host = s.host ∧ (complete s h op st r0 r1 r2 ex).hif.held = s.hif.held)

/-- R126 and R133: a completion of a host ring takes the slot at the ring's tail. Its 32 bytes stand there in host memory with
the ring's phase, no other byte of host memory changes, the tail advances and wraps at the ring's size, the phase inverts at
the wrap and only there, and the command is no longer counted (R132). -/
def Claim.CompletionTakesSlot : Prop :=
  ∀ (s : State) (c : Completion), c.ring < 15 →
    let n := c.ring
    let tail := fld s (HIF_CQ_TAIL n) 11 0
    let phase := fld s (HIF_CQ_TAIL n) 12 12
    let slot := rdN s (HIF_CQ_BASE_LO n) + 2 ^ 32 * rdN s (HIF_CQ_BASE_HI n) + 32 * tail
    let t := doHostOp s (.complete c)
    hostBytes t slot 32 = c.bytes phase ∧
    (∀ a, a < slot ∨ slot + 32 ≤ a → hostBytes t a 1 = hostBytes s a 1) ∧
    (tail < cqSize s n → fld t (HIF_CQ_TAIL n) 11 0 = (tail + 1) % cqSize s n) ∧
    fld t (HIF_CQ_TAIL n) 12 12 = (if tail + 1 = cqSize s n then 1 - phase else phase) ∧
    fld t (HIF_SQ_STS n) 24 16 = fld s (HIF_SQ_STS n) 24 16 - 1 ∧
    t.sram = s.sram ∧ t.dram = s.dram ∧ t.lanes = s.lanes ∧ t.running = s.running

/-- R121: while Bus Master Enable is 0, in D3hot or under PERST_N a write to the host waits behind those that wait already, and
host memory does not change; a completion of the service port does not use the host link. -/
def Claim.WritesWaitForBusMaster : Prop :=
  ∀ (s : State) (o : HostOp), canRequest s = false → (∀ c, o = .complete c → c.ring ≠ 15) →
    hostOp s o = { s with hif := { s.hif with held := s.hif.held ++ [o] } }

/-! ### The host interface -/

/-- R124 and R128: the tail doorbell of a host ring sets the ring's tail; a value outside the ring is ignored and sets
DOORBELL_ERR, and the ring keeps its tail. -/
def Claim.SubmissionDoorbell : Prop :=
  ∀ (s : State) (n v : Nat), Clocked s → n < 15 →
    (v % 4096 < sqSize s n →
      exec (.hifSqTail n v) s = .next (holding s { s with hif := { s.hif with sqTail := mset s.hif.sqTail n (v % 4096) } })) ∧
    (sqSize s n ≤ v % 4096 → exec (.hifSqTail n v) s = .next (holding s (setFlag s (HIF_SQ_STS n) 1 true)))

/-- R126 and R128: the head doorbell of a completion ring returns the slots up to the value; a value outside the ring, or one
that would return a slot not yet written, is ignored and sets DOORBELL_ERR. -/
def Claim.CompletionDoorbell : Prop :=
  ∀ (s : State) (n v : Nat), Clocked s → n < 15 →
    let size := cqSize s n
    let ahead := (v % 4096 + size - cqHead s n) % size
    let filled := (fld s (HIF_CQ_TAIL n) 11 0 + size - cqHead s n) % size
    (v % 4096 < size ∧ ahead ≤ filled →
      exec (.hifCqHead n v) s = .next (holding s { s with hif := { s.hif with cqHead := mset s.hif.cqHead n (v % 4096) } })) ∧
    (size ≤ v % 4096 ∨ filled < ahead → exec (.hifCqHead n v) s = .next (holding s (setFlag s (HIF_SQ_STS n) 1 true)))

/-- R127: on an idle ring a write of either base address register takes its value and returns the ring's indices to 0, the phase
of a completion ring to 1; R17: on a ring that is not idle it, and a write of
the low address or of a completion ring's size, change nothing but CFG_IGNORED. -/
def Claim.RingBaseRestarts : Prop :=
  ∀ (s : State) (n reg v : Nat), Clocked s → n < 15 → reg < 6 → reg ≠ 2 → v < 2 ^ 32 →
    (ringIdle s n = true →
      (reg = 1 → Does (exec (.ringBaseWrite n reg v) s) s (fun u => rdN u (HIF_SQ_BASE_HI n) = v ∧ sqTail u n = 0 ∧
        rdN u (HIF_SQ_HEAD n) = 0 ∧ SameMemory s u ∧ u.lanes = s.lanes ∧
        ∀ a, a ≠ HIF_SQ_BASE_HI n → a ≠ HIF_SQ_HEAD n → rd u a = rd s a)) ∧
      (reg = 4 → Does (exec (.ringBaseWrite n reg v) s) s (fun u => rdN u (HIF_CQ_BASE_HI n) = v ∧ cqHead u n = 0 ∧
        fld u (HIF_CQ_TAIL n) 11 0 = 0 ∧ fld u (HIF_CQ_TAIL n) 12 12 = 1 ∧ SameMemory s u ∧ u.lanes = s.lanes ∧
        ∀ a, a ≠ HIF_CQ_BASE_HI n → a ≠ HIF_CQ_TAIL n → rd u a = rd s a))) ∧
    (ringIdle s n = false → Does (exec (.ringBaseWrite n reg v) s) s (fun u => fld u (HIF_SQ_STS n) 3 3 = 1 ∧
      (∀ a, a ≠ HIF_SQ_STS n → rd u a = rd s a) ∧ { u with regs := s.regs } = s))

/-- R132: ENABLE is class L: a write of it waits for the next tick boundary (R18) and changes no register before. -/
def Claim.RingEnableWaits : Prop :=
  ∀ (s : State) (n : Nat) (on : Bool), Clocked s → n < 15 →
    Does (exec (.sqEnable n on) s) s (fun u => (HIF_SQ_CFG n, setBits 0 15 15 1, setBits 0 15 15 (b2n on)) ∈ u.live ∧
      { u with live := s.live } = s)

/-- R130 and R124: while the device serves its rings, COMMAND_FETCH takes one command from a ring that has one and room for
its completion (R125): the head advances by one entry, the command is outstanding, and its 64 bytes are those at the head. No
other ring and no memory changes. -/
def Claim.FetchTakesOne : Prop :=
  ∀ (s : State), Clocked s → serves s = true →
    (∀ n, nextRing s = some n → fld s (HIF_SQ_STS n) 24 16 < 256 →
      canFetch s n = true ∧
      Does (exec .commandFetch s) s (fun u =>
        let head := fld s (HIF_SQ_HEAD n) 11 0
        let bs := if n = 15 then s.svc.sq.headD []
                  else hostBytes s (rdN s (HIF_SQ_BASE_LO n) + 2 ^ 32 * rdN s (HIF_SQ_BASE_HI n) + 64 * head) 64
        u.svc.sq = (if n = 15 then s.svc.sq.drop 1 else s.svc.sq) ∧
        u.hif.fetched = s.hif.fetched ++ [⟨n, leNat ((bs.drop 4).take 4), leNat (bs.take 2), bs, false⟩] ∧
        fld u (HIF_SQ_HEAD n) 11 0 = (head + 1) % sqSize s n ∧
        fld u (HIF_SQ_STS n) 24 16 = fld s (HIF_SQ_STS n) 24 16 + 1 ∧
        (∀ a, a ≠ HIF_SQ_HEAD n → a ≠ HIF_SQ_STS n → rd u a = rd s a) ∧ SameMemory s u ∧ u.running = s.running)) ∧
    (nextRing s = none → exec .commandFetch s = .next (holding s s))

/-- R125 and R130: a ring is not served while its completion ring has no slot left for one more command, and fetching stops at
256 outstanding commands. -/
def Claim.FetchNeedsRoom : Prop :=
  ∀ (s : State) (n : Nat), Clocked s →
    (nextRing s = some n → n < 15 → flag s (HIF_SQ_STS n) 0 = true ∧ canRequest s = true ∧
      cqFilled s n + fld s (HIF_SQ_STS n) 24 16 + 1 < cqSize s n) ∧
    (256 ≤ outstandingAll s → exec .commandFetch s = .next (holding s s))

/-- R129: a failed fetch of an entry stops its ring with FETCH_ERR, and the entry stays at the head. -/
def Claim.FailedFetchStopsRing : Prop :=
  ∀ (s : State) (n : Nat), Clocked s → n < 15 → serves s = true → canFetch s n = true →
    Does (exec (.failedEntryFetch n) s) s (fun u => fld u (HIF_SQ_STS n) 2 2 = 1 ∧ fld u (HIF_SQ_STS n) 0 0 = 0 ∧
      fld u (HIF_SQ_STS n) 24 16 = fld s (HIF_SQ_STS n) 24 16 ∧ (∀ a, a ≠ HIF_SQ_STS n → rd u a = rd s a) ∧
      { u with regs := s.regs } = s)

/-- R90, R92, R144: PERST_N resets the PCIe link, rings 0–14 and the mirror setting. Layers, lanes, axes, memories and ring 15's
registers stay. -/
def Claim.PerstResetsHostSide : Prop :=
  ∀ s : State, Does (exec .perstN s) s (fun u =>
    u.hif.perst = true ∧ u.hif.bme = false ∧ u.hif.d3hot = false ∧ u.hif.linkUp = false ∧ u.hif.mirrorPeriod = 0 ∧
    u.hif.intxDis = false ∧ u.hif.intLine = 0 ∧ u.hif.bar0 = 0 ∧ u.hif.bar2 = 0 ∧
    (∀ a, hostRingReg a = true → rd u a = regReset a) ∧ (∀ f ∈ u.hif.fetched, f.ring < 15 → f.dropped = true) ∧
    u.lanes = s.lanes ∧ u.seq = s.seq ∧ u.axes = s.axes ∧ u.sram = s.sram ∧ u.dram = s.dram ∧
    flag u PWR_RESET_CAUSE 4 = true)

/-- The PCIe function (R95, R118, R119, R121): PERST_N high lets the link train and changes nothing else of the host interface. A
write of the configuration space takes Bus Master Enable, the power state, INTx Disable, Interrupt Line and the bases of BAR0 and
BAR2; where it allows requests, what was held back is sent in order, and while PERST_N is low it has no effect. -/
def Claim.LinkAndBusMaster : Prop :=
  ∀ s : State,
    Does (exec .perstNRelease s) s (fun u => u.hif = { s.hif with perst := false, linkUp := true } ∧
      (∀ a, a ≠ PWR_DIE_STS → rd u a = rd s a) ∧ SameMemory s u ∧ u.lanes = s.lanes ∧ u.running = s.running) ∧
    (∀ bme d3hot intxDis line bar0 bar2,
      let run := exec (.busMasterEnable bme d3hot intxDis line bar0 bar2) s
      let hif : Hif := { s.hif with bme := bme, d3hot := d3hot, intxDis := intxDis, intLine := line % 256
                                    bar0 := bar0 / 2 ^ 26 * 2 ^ 26 % 2 ^ 32, bar2 := bar2 / 2 ^ 36 * 2 ^ 36 % 2 ^ 64 }
      (s.hif.perst = true → run = .next (holding s s)) ∧
      (s.hif.perst = false → (bme && !d3hot) = true →
        run = .next (holding s (s.hif.held.foldl doHostOp { s with hif := { hif with held := [] } }))) ∧
      (s.hif.perst = false → (bme && !d3hot) = false → run = .next (holding s { s with hif := hif })))

/-- The configuration header and the capabilities (R117 to R119; the header's places are those of a PCI type 0 header, assumption
112): the identity, no interrupt pin, BAR1, BAR4 and BAR5 reading 0, and the serial number of the fuses. -/
def Claim.ConfigSpace : Prop :=
  ∀ s : State,
    (configHeader s).getD 0 0 = 0x0C241F4E ∧ (configHeader s).getD 2 0 = 0x118000B0 ∧ (configHeader s).getD 3 0 = 0 ∧
    (configHeader s).getD 11 0 = 0x0C241F4E ∧ (configHeader s).getD 5 0 = 0 ∧ (configHeader s).getD 8 0 = 0 ∧
    (configHeader s).getD 9 0 = 0 ∧ (configHeader s).getD 15 0 = s.hif.intLine ∧ (configHeader s).length = 16 ∧
    (capabilities s).serial = s.fuses.serial ∧ (capabilities s).d3hot = s.hif.d3hot

/-- The system opcodes that only report (R147, R105), and R137 order 1: an opcode outside the table completes with
BAD_OPCODE. -/
def Claim.SystemReports : Prop :=
  ∀ (s : State) (h : Issue), Starts s h 48 →
    let a := accept s h
    (Spelled s h 0x0001 (.nop h) → exec (.nop h) s = .next (holding s (complete a h 0x0001 .ok 0 0 0 0))) ∧
    (Spelled s h 0x0002 (.identify h) → exec (.identify h) s = .next (holding s (complete a h 0x0002 .ok 0x0024B000
      (fld a FAB_STS 4 0 + 2 ^ 8 * fld a FAB_STS 17 16 + 2 ^ 15 * fld a FAB_STS 7 7 + 2 ^ 16 * fld a FAB_STS 25 20)
      (s.fuses.serial % 2 ^ 32) (s.fuses.serial / 2 ^ 32)))) ∧
    (Spelled s h 0x0007 (.fwInfo h) → exec (.fwInfo h) s = .next (holding s (complete a h 0x0007 .ok s.pwr.fw.version s.pwr.fw.rollback s.pwr.fw.length
      (s.pwr.fw.source + 4 * s.pwr.fw.slot)))) ∧
    (Spelled s h 0x0009 (.dieLedgerQuery h) → exec (.dieLedgerQuery h) s = .next (holding s (complete a h 0x0009 .ok (rdN a PWR_DIE_STS) (fld a PWR_DIE_BUDGET 7 0)
      (dieOps a) (unsgn 32 ((fld a PWR_DIE_BUDGET 7 0 : Int) - dieHeld a))))) ∧
    (∀ op p blk, nextStart s h = some (p, blk) → headerSays h op p = true → opcodeKnown op = false →
      exec (.badOpcode h op) s = .next (holding s (complete a h op .badOpcode 0 0 0 0)))

/-- R147: READ_STATUS reports BOOT, THERMAL, FAULTS and the last layer's number; with a nonzero address a snapshot is
written there first, as R142 says. SET_STATUS_MIRROR with period 0 disables the mirror and completes at once; with a period it runs
on to the first snapshot, a period later. A SET_STATUS_MIRROR that still waits completes with the new period (the model's choice,
assumption 34). -/
def Claim.StatusCommands : Prop :=
  ∀ (s : State) (h : Issue), Starts s h 48 →
    let a := accept s h
    let report (u : State) := complete u h 0x0005 .ok (rdN u PWR_BOOT_STS) (rdN u THM_STS) (mirrorFaults u) u.seq.lastLayer
    (Spelled s h 0x0005 (.readStatus h 0) → exec (.readStatus h 0) s = .next (holding s (report a))) ∧
    (∀ addr, addr ≠ 0 → addr % 64 = 0 → h.ring ≠ 15 → Spelled s h 0x0005 (.readStatus h addr) →
      exec (.readStatus h addr) s = .next (holding s (report (snapshotTo a addr)))) ∧
    (∀ addr, addr % 4096 = 0 → Spelled s h 0x0006 (.setStatusMirror h addr 0) →
      Completes (exec (.setStatusMirror h addr 0) s) s h 0x0006 .ok 1024 0 0 0 (fun u => u.hif.mirrorPeriod = 0)) ∧
    (∀ addr period, addr % 4096 = 0 → 10 ≤ period → period ≤ 100000 → h.ring ≠ 15 →
      Spelled s h 0x0006 (.setStatusMirror h addr period) →
      RunsOn (exec (.setStatusMirror h addr period) s) s h 0x0006 0 []
        (fun u => u.hif.mirrorPeriod = period ∧ u.hif.mirrorAddr = addr ∧ u.hif.mirrorDue = now s + 1000 * period ∧
          ∀ r ∈ u.running, r.op ≠ 0x0006 ∨ r.key ≠ 0))

/-- R142: a snapshot goes to the host as three writes in order: SEQ with its low bit set, the bytes from 4 onward, and SEQ advanced by
2 with its low bit clear. -/
def Claim.SnapshotWrites : Prop :=
  ∀ (s : State) (addr : Nat), canRequest s = true → s.hif.held = [] →
    let seq := (s.hif.mirrorSeq + 2) % 2 ^ 32
    snapshotTo s addr =
      let u := putHost (putHost (putHost s addr (leBytes 4 (s.hif.mirrorSeq + 1))) (addr + 4) ((mirrorBytes s seq).drop 4)) addr (leBytes 4 seq)
      { u with hif := { u.hif with mirrorSeq := seq } }

/-- R142 and R144: a snapshot is due once its period has passed, and not before; its next one is due a period after. With requests
allowed it is written at the mirror's address and the commands that wait for the first one complete; with requests held it is not
taken, and SEQ advances all the same. -/
def Claim.MirrorSnapshot : Prop :=
  ∀ s : State, Clocked s → s.hif.mirrorPeriod ≠ 0 →
    let p := 1000 * s.hif.mirrorPeriod
    let u := { s with hif := { s.hif with mirrorDue := s.hif.mirrorDue + p * ((now s - s.hif.mirrorDue) / p + 1) } }
    (now s < s.hif.mirrorDue → exec .statusMirrorSnapshot s = .next (holding s s)) ∧
    (s.hif.mirrorDue ≤ now s →
      now s < u.hif.mirrorDue ∧
      (canRequest s = false → exec .statusMirrorSnapshot s =
        .next (holding s { u with hif := { u.hif with mirrorSeq := (s.hif.mirrorSeq + 2) % 2 ^ 32 } })) ∧
      (canRequest s = true → exec .statusMirrorSnapshot s = .next (holding s
        (finishAll (snapshotTo u s.hif.mirrorAddr) 0x0006 0 .ok 1024 s.hif.mirrorPeriod 0 0))))

/-- R143: a snapshot has 1,024 bytes; its first four are SEQ, then FORMAT 1 and LENGTH 1,024, and bytes 288 to 1,023 are 0. -/
def Claim.MirrorLayout : Prop :=
  ∀ (s : State) (seq : Nat), seq < 2 ^ 32 →
    (mirrorBytes s seq).length = 1024 ∧ leAt (mirrorBytes s seq) 0 4 = seq ∧ leAt (mirrorBytes s seq) 4 2 = 1 ∧
    leAt (mirrorBytes s seq) 6 2 = 1024 ∧ (s.seq.lastLayer < 2 ^ 32 → leAt (mirrorBytes s seq) 96 4 = s.seq.lastLayer) ∧
    (mirrorBytes s seq).drop 288 = zeros 736

/-- R19 step 1, R20, R146: COMMIT with a nonzero mask captures at once when no other commit is captured: the shadows of the
named groups that are pending, which are pending no longer, except with CHECK_ONLY. A mask of 0 completes at once. -/
def Claim.CommitCaptures : Prop :=
  ∀ (s : State) (h : Issue) (mask flags : Nat), Starts s h 48 → flags < 2 → mask < 2 ^ 16 →
    let a := accept s h
    (Spelled s h 0x0004 (.commit h 0 flags) → exec (.commit h 0 flags) s = .next (holding s (complete a h 0x0004 .ok 0 0 0 0))) ∧
    (mask ≠ 0 → Spelled s h 0x0004 (.commit h mask flags) → a.capture = none → a.running.any (fun r => r.op == 0x0004) = false →
      Does (exec (.commit h mask flags) s) s (fun u =>
        (∃ f, u.capture = some (f, mask &&& a.dirty, flags == 1, groupShadows a (mask &&& a.dirty))) ∧
        u.dirty = (if flags = 1 then a.dirty else a.dirty - (mask &&& a.dirty)) ∧ u.shadow = a.shadow ∧
        flag u TOP_COMMIT_STS 30 = true ∧ (∀ r, r ≠ TOP_COMMIT_STS → rd u r = rd a r) ∧ SameMemory s u)) ∧
    (mask ≠ 0 → Spelled s h 0x0004 (.commit h mask flags) → a.capture ≠ none →
      RunsOn (exec (.commit h mask flags) s) s h 0x0004 0 [mask, flags] (fun u => u = a))

/-- R19 step 3b and R146: a commit whose check fails takes no effect: every live register keeps its value but
`TOP_COMMIT_STS`, whose REJECT sets unless it was CHECK_ONLY; the groups are pending again; and its COMMIT ends with BAD_PARAM, the failed groups and
the first code. -/
def Claim.RejectedCommit : Prop :=
  ∀ (s : State) (f : Issuer) (mask : Nat) (check : Bool) (ws : List (Nat × Word)), Clocked s →
    s.capture = some (f, mask, check, ws) → (failedGroups s (withCaptured s mask ws) mask).1 ≠ 0 →
    let bad := failedGroups s (withCaptured s mask ws) mask
    ∃ u, exec .commitTakeEffect s = .next (holding s (commitEnd u .badParam 0 (bad.1 + 65536 * bad.2.headD 0) 0)) ∧
      (∀ a, a ≠ TOP_COMMIT_STS → rd u a = rd s a) ∧ u.shadow = s.shadow ∧
      u.dirty = (if check then s.dirty else s.dirty ||| mask) ∧
      (check = false → flag u TOP_COMMIT_STS 31 = true) ∧ (check = true → u = s)

/-- R19 step 3a and R20: a commit of groups whose fields are all it changes (SEQ, LAS, OVL, LOOP, FAB, PNL, THM) that
passes its check puts every captured field into force at once and completes with OK and the groups. -/
def Claim.CommitTakesEffect : Prop :=
  ∀ (s : State) (f : Issuer) (mask : Nat) (ws : List (Nat × Word)), Clocked s →
    s.capture = some (f, mask, false, ws) → mask ≠ 0 → (∀ g, mask.testBit g = true → g ∈ [0, 3, 5, 7, 10, 14, 15]) →
    (failedGroups s (withCaptured s mask ws) mask).1 = 0 →
    ∃ u, exec .commitTakeEffect s = .next (holding s (commitEnd u .ok mask 0 (tickNo s % 2 ^ 32))) ∧
      (∀ a, a ≠ TOP_COMMIT_STS → rd u a = rd (withCaptured s mask ws) a) ∧ fld u TOP_COMMIT_STS 15 0 = mask % 2 ^ 16 ∧
      u.dirty = s.dirty ∧ SameMemory s u ∧ u.lanes = s.lanes

/-- R146: CHECK_ONLY that passes its check, and a commit of groups with nothing pending, change no live register. -/
def Claim.CheckOnlyTakesNothing : Prop :=
  ∀ (s : State) (f : Issuer) (mask : Nat) (check : Bool) (ws : List (Nat × Word)), Clocked s →
    s.capture = some (f, mask, check, ws) → check = true ∨ mask = 0 → (failedGroups s (withCaptured s mask ws) mask).1 = 0 →
    exec .commitTakeEffect s = .next (holding s (commitEnd s .ok 0 0 0))

/-! ### The fabric -/

/-- `s` with a frame that port `p` took counted (R449). -/
def got (s : State) (p : Nat) : State := satInc s (FAB_P_RX_FRAMES p)

/-- Port, type and payload of the last frame that left the device. -/
def lastSent (s : State) : Option (Nat × Nat × List Nat) := s.fab.wire.getLast?.map (fun w => (w.port, w.frame.ty, w.frame.body))

/-- Addresses (R428, R429): the root answers an address request on its port with an assignment and knows the device; another
device passes the request towards the root and remembers the port, and passes the answer back by it; a device takes the address assigned to
its own serial. -/
def Claim.AddressesAssigned : Prop :=
  ∀ (s : State) (p serial addr : Nat), Clocked s →
    (flag (got s p) FAB_STS 8 = true →
      Does (exec (.addrReq p serial addr) s) s (fun u => ∃ a i, lastSent u = some (p, tyAddrAssign, [serial, a]) ∧
        (a, i) ∈ u.fab.devs ∧ i.serial = serial)) ∧
    (∀ q, flag (got s p) FAB_STS 8 = false →
      rootPort { got s p with fab := { s.fab with reqPorts := mset s.fab.reqPorts serial p } } = some q →
      Does (exec (.addrReq p serial addr) s) s (fun u => lastSent u = some (q, tyAddrReq, [serial, addr]) ∧ (serial, p) ∈ u.fab.reqPorts)) ∧
    (serial = s.fuses.serial → exec (.addrAssign p serial addr) s = .next (holding s (setAddr (got s p) addr))) ∧
    (∀ q, serial ≠ s.fuses.serial → s.fab.reqPorts.find? (fun e => e.1 == serial) = some (serial, q) →
      Does (exec (.addrAssign p serial addr) s) s (fun u => lastSent u = some (q, tyAddrAssign, [serial, addr])))

/-- Ports that fail (R413 to R415, R420, R422 to R424): HELLO_MISS periods without a HELLO take a port out of service, as do enough
go-backs in a row; a DOWN port trains anew after 10 ms with a grant of the die ledger; lane 0 of a training port that has not locked
within 5 ms gives way to lane 1; and a port whose block lock is lost swaps to a sound spare lane or goes down. -/
def Claim.PortsFailAndRetrain : Prop :=
  ∀ (s : State) (p : Nat), Clocked s → p < 4 →
    let wait := fld s FAB_LINK_CFG 31 24 * fld s FAB_LINK_CFG 23 16 * 1000
    (reached s ((fport s p).heard + wait) = true → exec (.helloMiss p) s = .next (holding s (portDown s p))) ∧
    (reached s ((fport s p).heard + wait) = false → exec (.helloMiss p) s = .next (holding s s)) ∧
    (fld s FAB_LINK_CFG 7 0 ≤ (fport s p).goBacks → exec (.linkDown p) s = .next (holding s (portDown s p))) ∧
    (portSt s p = pDown → reached s ((fport s p).since + 10000000) = true →
      Does (exec (.portRetrain p) s) s (fun u => portSt u p = pTraining ∧ dieHolds u 2 p = true)) ∧
    (portSt s p = pTraining → fld s (FAB_P_CFG p) 7 6 ≠ 1 → fld s (FAB_P_CFG p) 7 6 ≠ 2 →
      reached s ((fport s p).since + 5000000) = true →
      Does (exec (.lane0LockTimeout p) s) s (fun u => activeLane u p = 1 ∧ ∀ a, a ≠ FAB_P_STS p → rd u a = rd s a)) ∧
    (portSt s p = pUp → laneFailed s p (1 - activeLane s p) = false →
      exec (.blockLockLoss p true) s = .next (holding s (beginSwap (moveActive s p) p))) ∧
    (portSt s p = pUp ∨ portSt s p = pIsolated → exec (.blockLockLoss p false) s = .next (holding s (portDown s p)))

/-- Lane swaps (R423 to R425): error events of a lane are counted, and more than ERR_LIMIT within ERR_WINDOW fail it; a failed active
lane with a sound spare starts a swap with a SWAP frame, and with both lanes failed an event is recorded; the neighbour's SWAP is
answered and followed; and its answer moves the port to the other lane. -/
def Claim.LaneSwaps : Prop :=
  ∀ (s : State) (p lane errs : Nat), Clocked s → p < 4 → lane < 2 →
    let counted := errEvents s p lane errs
    let failed := setFlag counted (FAB_P_STS p) (16 + lane) true
    let fails := laneFailed counted p lane = false ∧ fld s FAB_ERR_CFG 15 0 < errCount counted p lane
    rdN counted (laneErrs p lane) = satN (2 ^ 32 - 1) (rdN s (laneErrs p lane) + errs) ∧
    (¬ fails → exec (.laneFailed p lane errs true) s = .next (holding s counted)) ∧
    (fails → laneFailed failed p (1 - lane) = false → lane = activeLane failed p → portUp failed p = true →
      exec (.laneFailed p lane errs true) s = .next (holding s (beginSwap (linkOut failed p tySwap []) p))) ∧
    (fails → laneFailed failed p (1 - lane) = true →
      exec (.laneFailed p lane errs true) s = .next (holding s (event failed (srcPort p) 0x1702 []))) ∧
    (portUp (got s p) p = true →
      exec (.swapRx p) s = .next (holding s (moveActive (beginSwap (linkOut (got s p) p tySwapAck []) p) p))) ∧
    (portSt (got s p) p = pSwapping → laneFailed (got s p) p (activeLane (got s p) p) = true →
      exec (.swapAckRx p) s = .next (holding s (moveActive (got s p) p)))

/-- HELLO (R85, R427, R428): a device sends its own every HELLO µs; one heard on a training or isolated port may join the fabrics; a
training port that hears its own serial is looped back; one that is UP learns from it. Without FAB_REFCLK nothing is received. -/
def Claim.HelloFrames : Prop :=
  ∀ (s : State) (p addr : Nat) (i : DevInfo) (rootSerial rootHops size : Nat) (dir : List (Nat × DevInfo)), Clocked s →
    let h : HelloIn := ⟨addr, i, rootSerial, rootHops, size, dir⟩
    let heard := updPort (got s p) p (fun q => { q with heard := now (got s p) })
    let run := exec (.helloRx p addr i rootSerial rootHops size dir) s
    (periodDue s (fport s p).helloAt (fld s FAB_LINK_CFG 31 24 * 1000) = true →
      exec (.helloSend p) s = .next (holding s (sendHello s p))) ∧
    (s.pins.fabRefclk = false → run = .next (holding s s)) ∧
    (s.pins.fabRefclk = true →
      (portSt heard p = pTraining → i.serial = s.fuses.serial →
        run = .next (holding s (portReached
          (setPort (wr64 heard (FAB_P_PEER_SERIAL_LO p) (FAB_P_PEER_SERIAL_HI p) i.serial) p pLoopback) p))) ∧
      (portSt heard p = pTraining ∧ i.serial ≠ s.fuses.serial ∨ portSt heard p = pIsolated →
        run = .next (holding s (tryJoin heard p h))) ∧
      (portSt heard p = pUp → run = .next (holding s (pump (learn heard p h)))))

/-- Acknowledged links (R419, R420, R421): an ACK frees the retry buffer and the credits it returns, and what waited leaves; an
acknowledgement that is due, or freed space, goes out alone; a NAK, and RETRY_TO without an acknowledgement of the oldest frame, go back
to the frame expected. -/
def Claim.LinkAcknowledgements : Prop :=
  ∀ (s : State) (p ack cls credits : Nat), Clocked s →
    (let b := pump (updPort (ackTo s p ack) p (fun q => { q with used := mset q.used cls (mget 0 q.used cls - credits) }))
     exec (.ackFrame p ack cls credits) s = .next (holding s (bulkTx b ((recWrite b - b.recording.sent) / 1998 + 1)))) ∧
    (portUp s p = true → (fport s p).ackDue = true ∨ (fport s p).owed ≠ [] → p < 4 →
      Does (exec (.standaloneAck p) s) s (fun u => lastSent u = some (p, tyAck, []) ∧ (fport u p).ackDue = false)) ∧
    (portUp s p = true →
      exec (.nakFrame p ack) s = .next (holding s (pump (goBack (ackTo (got s p) p ack) p)))) ∧
    (∀ t ts, portUp s p = true → (fport s p).retryAt = t :: ts → reached s (t + fld s FAB_LINK_CFG 15 8 * 1000) = true →
      exec (.retryTimeout p) s = .next (holding s (goBack s p)))

/-- Frames in transit (R416, R418, R430): a frame for another device is taken and goes on with one hop less; without hops left it
is dropped and counted; discarded frames are counted by their reason, and an out-of-order one is answered by a NAK once. -/
def Claim.FramesInTransit : Prop :=
  ∀ (s : State) (p cls ty dst src hops : Nat) (e2e : Option Nat) (body : List Nat), Clocked s →
    (portUp s p = true → dst ≠ ownAddr s → ty ≠ tyPosition → cls ≠ clLink → 0 < hops →
      exec (.frameForward p cls ty dst src hops e2e body) s =
        .next (holding s (queueFrame (acceptOn s p ⟨cls, ty, dst, src, hops - 1, e2e, body⟩) ⟨cls, ty, dst, src, hops - 1, e2e, body⟩))) ∧
    (portUp s p = true → dst ≠ ownAddr s → ty ≠ tyPosition → cls ≠ clLink →
      exec (.frameForward p cls ty dst src 0 e2e body) s =
        .next (holding s (satInc (acceptOn s p ⟨cls, ty, dst, src, 0, e2e, body⟩) FAB_HOP_DROPS))) ∧
    exec (.frameDiscarded p 0 cls src) s = .next (holding s (errEvents (satInc s (FAB_P_FCS_ERRS p)) p (activeLane s p) 1)) ∧
    exec (.frameDiscarded p 1 cls src) s = .next (holding s (satInc s (FAB_P_FCS_ERRS p))) ∧
    exec (.frameDiscarded p 2 cls src) s = .next (holding s (satInc (dropAccepted s p cls src) FAB_HOP_DROPS)) ∧
    (portUp s p = true → (fport s p).nakSent = false → p < 4 →
      Does (exec (.frameDiscarded p 4 cls src) s) s (fun u =>
        lastSent u = some (p, tyNak, [(fport s p).seqRx]) ∧ (fport u p).nakSent = true))

/-- Routing (R430 to R432): every UPDATE µs routes go out on every port that is UP; one received sets the neighbour's metrics and the routes
follow; and an address still unreachable when its hold of 200 µs ends is lost. -/
def Claim.RoutingUpdates : Prop :=
  ∀ (s : State) (p a : Nat) (metrics : List Nat), Clocked s →
    (periodDue s s.fab.routeAt (fld s FAB_ROUTE_CFG 15 8 * 1000) = true →
      let u := { s with fab := { s.fab with routeAt := some (now s) } }
      exec .routeUpdate s = .next (holding s ((upPorts u).foldl sendRoute u))) ∧
    (portUp (got s p) p = true →
      (List.range 32).all (fun d => !(flag (got s p) (FAB_ROUTE d) 31 && fld (got s p) (FAB_ROUTE d) 27 26 == p &&
        decide (32 ≤ metrics.getD d 32) && decide (advOf (got s p) p d < 32))) = true →
      exec (.routeUpdateRx p metrics) s = .next (holding s (reroute
        (updPort (got s p) p (fun q => { q with adv := (List.range 32).map (fun d => metrics.getD d 32) }))))) ∧
    (a ≠ ownAddr s → metric s a = 32 → reached s (s.fab.linkEvent + 200000) = true →
      exec (.routeHoldExpiry a) s = .next (holding s (loseDevice s a))) ∧
    (a = ownAddr s ∨ metric s a ≠ 32 → exec (.routeHoldExpiry a) s = .next (holding s s))

/-- End-to-end delivery (R434): an acknowledgement removes the frames before the number it names, which may complete a
BURN_FREEZE of the group; after E2E_RESEND µs without one for the oldest frame they are sent again and counted. -/
def Claim.EndToEndDelivery : Prop :=
  ∀ (s : State) (via src cls next : Nat), Clocked s →
    (portUp s via = true →
      let b := frameIn s via src (tyE2eAck cls) [next]
      let e := e2eTx b src cls
      let left := (e.1 + 65536 - next) % 65536
      left ≤ e.2.length →
      exec (.e2eAck via src cls next) s = .next (holding s (freezeStep (pump { b with fab :=
        { b.fab with e2eTx := mset b.fab.e2eTx (e2eKey src cls) (e.1, e.2.drop (e.2.length - left))
                     e2eAt := mset b.fab.e2eAt (e2eKey src cls) ((mget [] b.fab.e2eAt (e2eKey src cls)).drop (e.2.length - left)) } })
        (fun _ => false)))) ∧
    (∀ t ts, mget [] s.fab.e2eAt (e2eKey src cls) = t :: ts → reached s (t + fld s FAB_ROUTE_CFG 31 24 * 1000) = true →
      let u := { s with fab := { s.fab with e2eAt := mset s.fab.e2eAt (e2eKey src cls) ((t :: ts).map (fun _ => now s)) } }
      exec (.e2eResend src cls) s = .next (holding s ((e2eTx s src cls).2.foldl queueFrame (satInc u FAB_E2E_RESENDS))))

/-- Commands over the fabric (R436, R437): one accepted waits with its packet, REMOTE clear, and its block; the 65th at once is answered
BUSY; the answer to one of this device's own is written to its ring with REMOTE_ORIGIN; 1 ms without an acknowledgement ends it. -/
def Claim.ForwardedCommands : Prop :=
  ∀ (s : State) (via src ring : Nat) (packet block : List Byte), Clocked s → portUp s via = true →
    (let b := frameIn s via src tyCmdFwd (fwdBody ring packet block)
     (b.fab.fwd.length < 64 → exec (.cmdFwd via src ring packet block) s =
       .next (holding s { b with fab := { b.fab with fwd := b.fab.fwd ++ [⟨src, ring, clearRemote packet, block, false⟩] } })) ∧
     (64 ≤ b.fab.fwd.length → exec (.cmdFwd via src ring packet block) s =
       .next (holding s (sendMsg b src tyCmdDone [ring, leAt packet 4 4, leAt packet 0 2, Status.code .busy, 0, 0, 0, 0, now b])))) ∧
    (∀ tag op status r0 r1 r2 ex time r rest,
      let b := frameIn s via src tyCmdDone [ring, tag, op, status, r0, r1, r2, ex, time]
      takeFirst (isForward src ring tag) b.running = some (r, rest) → r.dropped = false →
      exec (.cmdDone via src ring tag op status r0 r1 r2 ex time) s =
        .next (holding s (hostOp { b with running := rest } (.complete ⟨ring, tag, op, statusOf status, true, r0, r1, r2, ex, time⟩)))) ∧
    (∀ dst tag r, fwdUnacked s dst ring tag = true → r ∈ s.running → isForward dst ring tag r = true → r.since + 1000000 < now s →
      exec (.cmdFwdTimeout dst ring tag) s = .next (holding s (fwdFail s dst ring tag 0)))

/-- R441: a collector writes bulk data into the source's slice of its region, which wraps; a device that is no collector discards
it and counts it. -/
def Claim.BulkCollection : Prop :=
  ∀ (s : State) (via src offset : Nat) (data : List Byte), Clocked s → portUp s via = true →
    let b := frameIn s via src 0x30 [offset, data.length]
    let n := 2 ^ fld b FAB_BULK_CFG 4 0
    let base := rd64 b FAB_BULK_BASE_LO FAB_BULK_BASE_HI + src * n
    (flag b FAB_BULK_CFG 30 = false → exec (.bulkRec via src offset data) s = .next (holding s (satInc b FAB_HOP_DROPS))) ∧
    (flag b FAB_BULK_CFG 30 = true →
      Does (exec (.bulkRec via src offset data) s) s (fun u =>
        u.dram = (putDram (putDram b (base + offset % n) (data.take (n - offset % n))) base (data.drop (n - offset % n))).dram ∧
        u.sram = s.sram ∧ u.host = s.host ∧ u.lanes = s.lanes))

/-- The fabric's commands (R444, R445, R447, R449, R450): FABRIC_PORT_SET trains or releases a port, FABRIC_DISCOVER and
FABRIC_ROUTE_READ report, a rescan sends HELLO on every port and examines the ISOLATED links again, PLATE_GROUP_SET changes the group
while no job is open. -/
def Claim.FabricSettings : Prop :=
  ∀ (s : State) (h : Issue), Starts s h 48 →
    let a := accept s h
    domOn a 13 = true →
    (∀ port, port < 4 → portIdle a port = true → isRunning a 0x0801 port = false → Spelled s h 0x0801 (.fabricPortSet h port 0 0 0) →
      Completes (exec (.fabricPortSet h port 0 0 0) s) s h 0x0801 .ok pOff 0xFF 0 0 (fun u => portSt u port = pOff)) ∧
    (∀ port mode flags polarity, port < 4 → mode = 1 ∨ mode = 2 → flags < 16 → (flags.testBit 0 = true → mode = 2) →
      natBits flags 2 1 ≤ 2 → polarity < 16 → portIdle a port = true → dieGrants a 2 = true → isRunning a 0x0801 port = false →
      Spelled s h 0x0801 (.fabricPortSet h port mode flags polarity) →
      RunsOn (exec (.fabricPortSet h port mode flags polarity) s) s h 0x0801 port []
        (fun u => portSt u port = pTraining ∧ fld u (FAB_P_CFG port) 1 0 = mode ∧ dieHolds u 2 port = true)) ∧
    (∀ addr, hostAddrOk h addr 32 = true → Spelled s h 0x0802 (.fabricDiscover h 0 addr) →
      exec (.fabricDiscover h 0 addr) s = .next (holding s (complete (hostResult a addr ((List.range 32).flatMap (discEntry a))) h 0x0802 .ok
        (fld a FAB_STS 25 20) (rdN a FAB_MEMBERS) 0 0))) ∧
    (Spelled s h 0x0802 (.fabricDiscover h 1 0) →
      let u := ports4.foldl rescan (ports4.foldl sendHello a)
      exec (.fabricDiscover h 1 0) s = .next (holding s (complete u h 0x0802 .ok (fld u FAB_STS 25 20) (rdN u FAB_MEMBERS) 0 0))) ∧
    (∀ dest, dest < 32 → Spelled s h 0x0803 (.fabricRouteRead h dest 0) →
      exec (.fabricRouteRead h dest 0) s = .next (holding s (complete a h 0x0803 .ok (rdN a (FAB_ROUTE dest))
        ((e2eTx a dest clHandoff).2.length + (e2eTx a dest clControl).2.length) 0 0))) ∧
    (∀ addr, hostAddrOk h addr 4 = true → Spelled s h 0x0803 (.fabricRouteRead h 0xFF addr) →
      exec (.fabricRouteRead h 0xFF addr) s = .next (holding s (complete
        (hostResult a addr ((List.range 32).flatMap (fun d => leBytes 4 (rdN a (FAB_ROUTE d))))) h 0x0803 .ok 0 0 0 0))) ∧
    (a.seq.job = none → Spelled s h 0x0804 (.plateGroupSet h 0xFF) →
      ∃ u, exec (.plateGroupSet h 0xFF) s = .next (holding s (complete u h 0x0804 .ok 0 0 0 0)) ∧ u.lanes = a.lanes ∧
        u.seq = a.seq ∧ SameMemory a u) ∧
    (∀ group, group < 4 → a.seq.job = none → (bitList (natSet (groupOf a group) (ownAddr a)) 32).length ≤ 8 →
      Spelled s h 0x0804 (.plateGroupSet h group) →
      ∃ u, exec (.plateGroupSet h group) s = .next (holding s (complete u h 0x0804 .ok (rdN u (FAB_GROUP group)) 0 0 0)) ∧
        u.lanes = a.lanes ∧ u.seq = a.seq ∧ SameMemory a u)

/-- R447: a port that has not come UP within 10 ms ends FABRIC_PORT_SET with TIMEOUT; the port trains on. -/
def Claim.PortSetTimesOut : Prop :=
  ∀ (s : State) (p : Nat) (r : Running), Clocked s → findRun s 0x0801 p = some r → Running.aged s 10000000 r = true →
    exec (.portSetTimeout p) s = .next (holding s (finishRun s 0x0801 p .timeout 0 0 0 0))

/-! ### Fabric time and triggers -/

/-- Selection (R456, R459 to R461): a master port announces every Announce interval; an Announce of a neighbour in the domain is kept
with its arrival and the selection runs; a slave port without one for 3 intervals, or without Sync for 4, takes the device into
HOLDOVER; the hold-down of a lost grandmaster ends after 3 Announce intervals. -/
def Claim.GrandmasterSelection : Prop :=
  ∀ (s : State) (p domain prio serial steps : Nat), Clocked s →
    (p < 4 → timeDue s p mAnnounce (annNs s) = true →
      exec (.announceSend p) s = .next (holding s (sendAnnounce (timeSent s p mAnnounce) p))) ∧
    (timeOk s p domain = true →
      exec (.announceRx p domain prio serial steps) s = .next (holding s (ftmSelect
        (updTport (timeIn s p 2) p (fun t => { t with ann := some ⟨prio, serial, steps, now s⟩ })) false))) ∧
    (timeOk s p domain = false → exec (.announceRx p domain prio serial steps) s = .next (holding s s)) ∧
    (∀ q, s.ftm.slave = some q →
      (∀ a, (tport s q).ann = some a → reached s (a.at_ + ann3 s) = true →
        exec .announceTimeout s = .next (holding s (enterHoldover (updTport s q (fun t => { t with ann := none }))))) ∧
      (reached s (s.ftm.syncAt + 4 * syncNs s) = true → exec .syncLoss s = .next (holding s (enterHoldover s)))) ∧
    (∀ due, s.ftm.holdDown = [(serial, due)] → reached s due = true → exec (.holdDownExpiry serial) s =
      .next (holding s (ftmSelect { s with ftm := { s.ftm with holdDown := mdel s.ftm.holdDown serial } } true)))

/-- Path delay (R458): a request carries the present counter and is remembered; one received is answered with the turnaround; an
answer within 1 ms adds the delay 2d of the exchange, before the eighth; an exchange without an answer for 1 ms is dropped. -/
def Claim.PathDelay : Prop :=
  ∀ (s : State) (p domain turn t4 t1 : Nat) (back : Int), Clocked s →
    (portUp s p = true → timeDue s p mPdelayReq (pdelayNs s) = true →
      Does (exec (.pdelaySend p) s) s (fun u => (tport u p).req = some (counter32 s / 65536) ∧ u.lanes = s.lanes ∧ SameMemory s u)) ∧
    (timeOk s p domain = true →
      exec (.pdelayReq p domain turn) s = .next (holding s (timeOut (timeIn s p 2) p mPdelayResp 2 [turn]))) ∧
    (timeOk s p domain = true → (tport (timeIn s p 2) p).req = some t1 → t4 ≤ t1 + 65536000000 → (tport (timeIn s p 2) p).valid < 7 →
      Does (exec (.pdelayResp p domain t4 back) s) s (fun u =>
        (tport u p).delays = (((t4 : Int) - t1 - back) :: (tport (timeIn s p 2) p).delays).take 8 ∧
        (tport u p).valid = (tport (timeIn s p 2) p).valid + 1 ∧ (tport u p).req = none)) ∧
    (∀ t0, (tport s p).req = some t0 → reached s (t0 / 65536 + 1000000) = true →
      Does (exec (.pdelayTimeout p) s) s (fun u => (tport u p).req = none ∧ { u with ftm := s.ftm } = s))

/-- Sync (R457, R461, R463): a Sync from the slave port steers the clock, one from elsewhere does not; a master port sends its time
and error; enough Syncs below the threshold lock; the error estimate and its excess follow. -/
def Claim.SyncAndLock : Prop :=
  ∀ (s : State) (p domain origin upE rx : Nat) (corr : Int), Clocked s →
    (timeOk s p domain = true → (timeIn s p 1).ftm.slave = some p →
      exec (.syncMsg p domain false origin corr upE rx) s = .next (holding s (syncAccept (timeIn s p 1) p origin corr upE rx))) ∧
    (timeOk s p domain = true → (timeIn s p 1).ftm.slave ≠ some p →
      exec (.syncMsg p domain false origin corr upE rx) s = .next (holding s (timeIn s p 1))) ∧
    (fld s (FTM_P_STS p) 1 0 = 1 → timeDue s p mSync (syncNs s) = true →
      exec (.syncSend p) s = .next (holding s
        (timeOut (timeSent s p mSync) p mSync 1 [now s, rdN s FTM_FRAC / 65536, rdN s FTM_ERR]))) ∧
    (ftmSt s = tAcquiring → fld s FTM_LOCK 15 8 ≤ s.ftm.run →
      exec .ftmLocked s = .next (holding s (ftmShow (setFld s FTM_STS 1 0 tLocked)))) ∧
    exec .holdoverExcess s = .next (holding s (ftmShow s))

/-- Triggers and the time settings (R462, R465 to R468): TIME_CONFIG stages its fields; TRIGGER_SET arms an output with at least
10 µs of notice or disarms it; a pulse begins at its time, START + n × PERIOD, and counts, it ends WIDTH later, and the end of the
last pulse of a counted schedule disarms the trigger. -/
def Claim.TimeAndTriggers : Prop :=
  (∀ (s : State) (h : Issue), Starts s h 48 →
    let a := accept s h
    domOn a 13 = true →
    (∀ quality domain ann sync pdelay kp ki rate step lockT lockN limit hold invert,
      ann ≤ 10 → sync ≤ 10 → pdelay ≤ 10 → invert < 16 →
      Spelled s h 0x0806 (.timeConfig h quality domain ann sync pdelay kp ki rate step lockT lockN limit hold invert) →
      Completes (exec (.timeConfig h quality domain ann sync pdelay kp ki rate step lockT lockN limit hold invert) s) s h 0x0806 .ok
        0 0 0 0 (fun u => shadowOf u FTM_RATE_LIM = setBits (shadowOf a FTM_RATE_LIM) 31 0 rate ∧ u.dirty.testBit 11 = true ∧
          u.regs = a.regs ∧ SameMemory a u)) ∧
    (∀ trig, trig < 4 → s.pwr.safe = false → Spelled s h 0x0807 (.triggerSet h trig 0 0 0 0 0) →
      exec (.triggerSet h trig 0 0 0 0 0) s =
        .next (holding s (complete (setFlag a (FTM_TRIG_STS trig) 31 false) h 0x0807 .ok 0 0 0 0))) ∧
    (∀ trig start period width count, trig < 4 → s.pwr.safe = false → now a + 10000 ≤ start → 4 ≤ width → width ≤ 1000000000 →
      period = 0 ∨ width + 4 ≤ period → Spelled s h 0x0807 (.triggerSet h trig 1 start period width count) →
      exec (.triggerSet h trig 1 start period width count) s =
        .next (holding s (complete (trigArm a trig start period width count) h 0x0807 .ok start 0 0 0)))) ∧
  (∀ (s : State) (t : Nat), Clocked s →
    let start := if trigNext s t < now s then now s else trigNext s t
    (flag s (FTM_TRIG_STS t) 31 = true → s.ftm.pulse.testBit t = false → s.ftm.finite.testBit t = false → reached s (trigNext s t) = true →
      exec (.triggerEdge t true) s = .next (holding s (trigShow { bump s (FTM_TRIG_FIRED t) with
        ftm := { s.ftm with pulse := natSet s.ftm.pulse t, pulseEnd := mset s.ftm.pulseEnd t (start + rdN s (FTM_TRIG_WIDTH t)) } }))) ∧
    (flag s (FTM_TRIG_STS t) 31 = true → s.ftm.pulse.testBit t = false → s.ftm.finite.testBit t = true →
      rdN s (FTM_TRIG_COUNT t) = 0 → exec (.triggerEdge t true) s = .next (holding s s)) ∧
    (reached s (trigNext s t) = false → exec (.triggerEdge t true) s = .next (holding s s)) ∧
    (s.ftm.pulse.testBit t = true → reached s (mget 0 s.ftm.pulseEnd t) = true → s.ftm.finite.testBit t = false →
      exec (.triggerEdge t false) s = .next (holding s (trigShow { s with ftm := { s.ftm with pulse := natClr s.ftm.pulse t } }))) ∧
    (s.ftm.pulse.testBit t = true → reached s (mget 0 s.ftm.pulseEnd t) = true → s.ftm.finite.testBit t = true →
      rdN s (FTM_TRIG_COUNT t) = 0 → exec (.triggerEdge t false) s = .next (holding s
        (setFlag (trigShow { s with ftm := { s.ftm with pulse := natClr s.ftm.pulse t } }) (FTM_TRIG_STS t) 31 false))))

/-! ### Mailboxes and the service port -/

/-- R519 and R523: the sender writes the message registers of a channel while GO is clear; with GO set the write is refused with
WRITE_BUSY, from another master with the access flag, and neither changes the message. -/
def Claim.MailboxMessageWrite : Prop :=
  ∀ (s : State) (id n r v : Nat), Clocked s → mbxBound s n = true →
    (id = mbxSender s n → mbxGo s n = false → exec (.mbxMsgWrite id n r v) s = .next (holding s (wrN s (MBX_CH_MSG n r) v))) ∧
    (id = mbxSender s n → mbxGo s n = true → exec (.mbxMsgWrite id n r v) s = .next (holding s (mbxFlag s n 2))) ∧
    (id ≠ mbxSender s n → exec (.mbxMsgWrite id n r v) s = .next (holding s (mbxFlag s n 5)))

/-- R523, R524 and R522: GO with a length of 8 to 16 registers posts the message; another length is flagged; the receiver's read
of the last register returns it and clears GO. -/
def Claim.MailboxPostAndRead : Prop :=
  ∀ (s : State) (n v : Nat), Clocked s → mbxBound s n = true →
    (mbxGo s n = false → v.testBit 31 = true → 8 ≤ natBits v 4 0 → natBits v 4 0 ≤ 16 →
      exec (.mbxGoWrite (mbxSender s n) n v) s = .next (holding s (mbxPost s n (natBits v 4 0)))) ∧
    (mbxGo s n = false → v.testBit 31 = true → natBits v 4 0 < 8 ∨ 16 < natBits v 4 0 →
      exec (.mbxGoWrite (mbxSender s n) n v) s = .next (holding s (mbxFlag s n 5))) ∧
    (∀ r, mbxGo s n = true → r + 1 = fld s (MBX_CH_GO n) 4 0 → mbxSender s n / 32 ≠ 4 →
      exec (.mbxLastRead (mbxReceiver s n) n r) s =
        .next (holding s { setGo s n false with readData := rdN s (MBX_CH_MSG n r) })) ∧
    (∀ r, r + 1 ≠ fld s (MBX_CH_GO n) 4 0 →
      exec (.mbxLastRead (mbxReceiver s n) n r) s = .next (holding s { s with readData := rdN s (MBX_CH_MSG n r) }))

/-- R525: the timer starts when GO is set. If GO is still set when TIMEOUT µs have passed, the message is flagged with an event that names
the channel and both masters, once, and it stays. -/
def Obligations.MailboxTimeout : Prop :=
  ∀ (s : State) (n : Nat), Clocked s →
    (∀ len, mbxForwards s n = false → n < 16 → len < 32 →
      (mbxPost s n len).mbxDue.find? (fun p => p.1 == n) = some (n, now s + rdN s (MBX_CH_TIMEOUT n) * 1000)) ∧
    (∀ due, s.mbxDue.find? (fun p => p.1 == n) = some (n, due) → mbxGo s n = true → reached s due = true →
      exec (.mbxTimeout n) s = .next (holding s
        (event (mbxFlag { s with mbxDue := mdel s.mbxDue n } n 1) (srcMbx n) 0x1901
          (leBytes 1 n ++ leBytes 1 (mbxSender s n) ++ leBytes 1 (mbxReceiver s n)))) ∧
      (n < 16 → ∀ u, exec (.mbxTimeout n) s = .next u → mbxGo u n = true ∧ flag u (MBX_CH_STS n) 1 = true ∧
        ∀ r, r < 16 → rd u (MBX_CH_MSG n r) = rd s (MBX_CH_MSG n r))) ∧
    (mbxGo s n = false ∨ s.mbxDue.find? (fun p => p.1 == n) = none ∨
        (∃ due, s.mbxDue.find? (fun p => p.1 == n) = some (n, due) ∧ reached s due = false) →
      exec (.mbxTimeout n) s = .next (holding s s))

/-- R521 and R522: a message of a peer for a channel bound to it is taken and its GO sets; the peer's clear ends the channel that
forwards to it, and its withdrawal takes a message back. -/
def Claim.MailboxOverFabric : Prop :=
  ∀ (s : State) (via src n : Nat), Clocked s → portUp s via = true →
    (∀ msg, let b := frameIn s via src tyMbxPost (n :: msg.length :: msg)
      mbxBound b n = true → mbxSender b n = 0x80 + src → mbxGo b n = false → 8 ≤ msg.length → msg.length ≤ 16 →
      exec (.mbxPost via src n msg) s = .next (holding s (Machine.mbxPost
        ((msg.zip (List.range 16)).foldl (fun s p => wrN s (MBX_CH_MSG n p.2) p.1) b) n msg.length))) ∧
    (∀ c, let b := frameIn s via src tyMbxGoClear [n, 0]
      (List.range 16).find? (fun c => mbxForwards b c && mbxReceiver b c == 0x80 + src && mbxPeer b c == n && mbxGo b c) = some c →
      exec (.mbxGoClear via src n 0) s = .next (holding s (setGo b c false))) ∧
    (let b := frameIn s via src tyMbxGoClear [n, 1]
     mbxGo b n = true → mbxBound b n = true → mbxSender b n = 0x80 + src →
     exec (.mbxGoClear via src n 1) s = .next (holding s (mbxFlag (setGo b n false) n 4)))

/-- R528 and R529: MBX_BIND binds an unlocked idle channel and clears it, or unbinds it; MBX_LOCK locks the channels of its mask
until power-on reset; a locked channel refuses MBX_BIND. -/
def Claim.MailboxCommands : Prop :=
  ∀ (s : State) (h : Issue), Starts s h 48 →
    let a := accept s h
    (∀ n x y peer t, n < 16 → identOk x = true → identOk y = true → x ≠ y → x < 0x80 ∨ y < 0x80 → x ≠ 0x80 + ownAddr a →
      y ≠ 0x80 + ownAddr a → peer < 16 → 10 ≤ t → t ≤ 1000000 → flag a (MBX_CH_BIND n) 30 = false → mbxGo a n = false →
      Spelled s h 0x0A01 (.mbxBind h n 0 x y peer t) →
      ∃ u r, exec (.mbxBind h n 0 x y peer t) s = .next (holding s (complete u h 0x0A01 .ok r 0 0 0)) ∧
        rdN u (MBX_CH_BIND n) = 2 ^ 31 + x * 65536 + y * 256 + peer ∧ rdN u (MBX_CH_TIMEOUT n) = t ∧ rdN u (MBX_CH_STS n) = 0 ∧
        SameMemory a u ∧ u.lanes = a.lanes) ∧
    (∀ n, n < 16 → flag a (MBX_CH_BIND n) 30 = false → mbxGo a n = false → Spelled s h 0x0A01 (.mbxBind h n 1 0 0 0 0) →
      Completes (exec (.mbxBind h n 1 0 0 0 0) s) s h 0x0A01 .ok 0 0 0 0 (fun u => mbxBound u n = false)) ∧
    (∀ n, n < 16 → flag a (MBX_CH_BIND n) 30 = true → Spelled s h 0x0A01 (.mbxBind h n 1 0 0 0 0) →
      exec (.mbxBind h n 1 0 0 0 0) s = .next (holding s (complete a h 0x0A01 .locked 0 0 0 0))) ∧
    (∀ mask, 0 < mask → mask < 65536 → Spelled s h 0x0A02 (.mbxLock h mask) →
      ∃ u r, exec (.mbxLock h mask) s = .next (holding s (complete u h 0x0A02 .ok r 0 0 0)) ∧
        (∀ n, n < 16 → mask.testBit n = true → flag u (MBX_CH_BIND n) 30 = true) ∧ SameMemory a u ∧ u.lanes = a.lanes)

/-- The service port (R54, R526, R531 to R534): without VBUS it takes nothing; vendor requests read and write the general pool and stall outside it; bulk OUT hands
whole packets to ring 15 while it has room; a bus reset or removal empties the port and its ring. -/
def Claim.ServicePort : Prop :=
  ∀ (s : State) (off : Nat) (data : List Byte), Clocked s →
    (vbus s = false → (∀ len, exec (.poolRead off len) s = .next (holding s s)) ∧ exec (.poolWrite off data) s = .next (holding s s) ∧
      exec (.bulkOut data) s = .next (holding s s)) ∧
    (vbus s = true →
    (∀ len, poolRange off len = true → exec (.poolRead off len) s = .next (holding s
      { s with svc := { s.svc with ctrlIn := sramBytes s (poolBase + off * 64) len, stalled := false } })) ∧
    (∀ len, poolRange off len = false → Does (exec (.poolRead off len) s) s (fun u => u.svc.stalled = true ∧ SameMemory s u)) ∧
    (poolRange off data.length = true → Does (exec (.poolWrite off data) s) s (fun u =>
      u.sram = (putSram s (poolBase + off * 64) data).sram ∧ u.svc.stalled = false ∧ u.dram = s.dram ∧ u.regs = s.regs)) ∧
    (bootSt s = 5 → s.svc.sq.length + data.length / 64 ≤ 64 →
      Does (exec (.bulkOut data) s) s (fun u => u.svc.sq = s.svc.sq ++ packets64 (data.length / 64) data ∧ SameMemory s u)) ∧
    (bootSt s = 5 → 64 < s.svc.sq.length + data.length / 64 →
      Does (exec (.bulkOut data) s) s (fun u => u.svc = s.svc ∧ u.pwr = s.pwr ∧ SameMemory s u))) ∧
    (∀ removed speed, Does (exec (.usbBusReset removed speed) s) s (fun u => u.svc.sq = [] ∧ u.svc.bulkIn = [] ∧
      u.svc.stalled = false ∧ SameMemory s u ∧ u.lanes = s.lanes ∧ u.seq = s.seq))

/-- R41, R558 and R559: the watchdog of a conductor resets it as a master and records it; a command of its duties that it was executing
completes with INTERNAL, with an event; and a second expiry of one conductor within 1 s raises the FATAL fault
CONDUCTOR_FAILED. -/
def Claim.ConductorWatchdogFires : Prop :=
  ∀ (s : State) (c : Nat), Clocked s → c < 4 →
    let e := event (mbxReset s (0x10 + c)) (srcMaster (0x10 + c)) 0x1A02 (leBytes 1 c)
    let b : State := { e with evr := { e.evr with wdLast := mset e.evr.wdLast c (now e) } }
    (e.evr.wdLast.find? (fun p => p.1 == c) = none →
      exec (.conductorWatchdog c []) s = .next (holding s b) ∧
      (∀ op key, isRunning b op key = true → (dutyOf op).all (· == c) = true →
        exec (.conductorWatchdog c [(op, key)]) s =
          .next (holding s (event (finishRun b op key .internal 0 0 0 0) (srcMaster (0x10 + c)) 0x1104 [])))) ∧
    (∀ t, e.evr.wdLast.find? (fun p => p.1 == c) = some (c, t) → now e < t + 1000000000 →
      exec (.conductorWatchdog c []) s = .next (holding s (raiseFault b clsFatal 0x0401 (srcMaster (0x10 + c)) [])))

/-! ### The panel -/

/-- Panel commands (R549, R542, R545, R548): each stages or takes its settings and completes. -/
def Claim.PanelCommands : Prop :=
  ∀ (s : State) (h : Issue), Starts s h 48 →
    let a := accept s h
    (∀ v0 v1 v2 v3, natBits v1 15 8 = 0 → v2 < 65536 →
      Spelled s h 0x0A03 (.panelSet h 0 0 v0 v1 v2 v3) →
      Completes (exec (.panelSet h 0 0 v0 v1 v2 v3) s) s h 0x0A03 .ok 0 0 0 0 (fun u =>
        u = setShadow (setShadow (setShadow (setShadow a 14 PNL_KEY_CFG 31 0 v0) 14 PNL_TIMING 31 0 v1) 14 PNL_PLUG_CFG 31 0 v2)
          14 PNL_TOUCH_CFG 31 0 v3)) ∧
    (∀ v0 v1, natBits v0 15 4 = 0 → v1 < 32768 →
      Spelled s h 0x0A03 (.panelSet h 1 0 v0 v1 0 0) →
      Completes (exec (.panelSet h 1 0 v0 v1 0 0) s) s h 0x0A03 .ok 0 0 0 0 (fun u =>
        u = setShadow (setShadow a 14 PNL_LED_CFG 31 0 v0) 14 PNL_SENSOR_CFG 31 0 v1)) ∧
    (∀ c v0 v1, c < 32 → natBits v0 25 8 = 0 → v1 < 65536 →
      Spelled s h 0x0A03 (.panelSet h 2 c v0 v1 0 0) →
      Completes (exec (.panelSet h 2 c v0 v1 0 0) s) s h 0x0A03 .ok 0 0 0 0 (fun u =>
        u = setShadow (setShadow a 14 (PNL_LEDC_CFG c) 31 0 v0) 14 (PNL_LED_DUTY c) 31 16 v1)) ∧
    (∀ e flags nchan list hi lo tA tB n steps, e < 4 → flags < 2 → 1 ≤ tA → 1 ≤ tB →
      Spelled s h 0x0A04 (.ledPatternLoad h e 1 flags nchan list hi lo tA tB n steps) →
      Completes (exec (.ledPatternLoad h e 1 flags nchan list hi lo tA tB n steps) s) s h 0x0A04 .ok 0 0 0 0 (fun u =>
        (engine u e).next = some ⟨1, flags == 1, [], hi, lo, tA, tB, []⟩ ∧ u.regs = a.regs ∧ SameMemory a u)) ∧
    (∀ m, m.all (· == 0) = true → Spelled s h 0x0A05 (.ledColourTarget h 0 0 0 0 0 0 0 m 0) →
      ∃ u, exec (.ledColourTarget h 0 0 0 0 0 0 0 m 0) s = .next (holding s (complete u h 0x0A05 .ok 0 0 0 0)) ∧
      u.panel.chans = [] ∧ u.panel.target = [] ∧ flag u PNL_STS 2 = false) ∧
    (∀ mask shorts, Spelled s h 0x0A06 (.ledDiag h 1 mask shorts) → Completes (exec (.ledDiag h 1 mask shorts) s) s h 0x0A06 .ok 0 0 0 0 (fun u =>
      (∀ c, c < 32 → flag u (PNL_LED_STS c) 20 = mask.testBit c) ∧ SameMemory a u))

/-- Recurring work of the panel is due. -/
def panelDue (s : State) (w : PnlWork) : Bool := periodDue s ((s.panel.times.find? (fun p => p.1 == w.key)).map (·.2)) (w.ns s)

/-- `s` with recurring work of the panel done now. -/
def panelDone (s : State) (w : PnlWork) : State := { s with panel := { s.panel with times := mset s.panel.times w.key (now s) } }

/-- Panel events (R536 to R548): inputs are sampled and patterns advance every 1 ms, pairs of channels are checked every DIAG_S seconds,
and the light sensor is read every 20 ms while the colour loop runs, where a failed reading is recorded once; a dark LED channel shows
duty 0. -/
def Claim.PanelEvents : Prop :=
  ∀ s : State, Clocked s →
    (∀ keys plugs counts, Does (exec (.panelSample keys plugs counts) s) s (fun u => SameMemory s u ∧ u.lanes = s.lanes ∧ u.axes = s.axes)) ∧
    (∀ keys plugs counts, panelDue s .sample = false → exec (.panelSample keys plugs counts) s = .next (holding s s)) ∧
    (panelDue s .pattern = true → Does (exec .patternTick s) s (fun u => ∀ g, g < 4 → engine u g = (engine s g).tick)) ∧
    (∀ c mv, appliedDuty s c = 0 →
      exec (.ledOnTime c mv) s = .next (holding s (setFld s (PNL_LED_STS c) 15 0 0))) ∧
    (∀ shorts, panelDue s .round = true →
      exec (.neighbourRound shorts) s = .next (holding s (Machine.neighbourRound (panelDone s .round) shorts))) ∧
    (∀ m, flag s PNL_STS 2 = false → exec (.colourReading true m) s = .next (holding s s)) ∧
    (∀ m, flag s PNL_STS 2 = true → flag s PNL_STS 0 = false → panelDue s .colour = true →
      let u := panelDone s .colour
      let read : State := { u with panel := { u.panel with sensor := some (fld s PNL_SENSOR_CFG 14 8, fld s PNL_SENSOR_CFG 7 0) } }
      exec (.colourReading false m) s = .next (holding s (event (setFlag read PNL_STS 0 true) (srcMaster 0x13) 0x1906 [])))

/-! ### The stepper axes -/

/-- The axes' commands (R385 to R389, R396, R397, R401, R404, R406 to R408): AXIS_CONFIG stages a section and clears the greatest
deviation; outside the safe state AXIS_MOVE from IDLE plans a move to its target and leaves the axis MOVING, or ARMED with its flag; AXIS_HOME
begins homing or keeps the position to set for the boundary; AXIS_STOP marks the moving axes of its mask and no other;
AXIS_RESUME and AXIS_GROUP_START wait for their boundary; AXIS_RETARGET waits for the next boundary. No other axis and no lane changes. -/
def Obligations.AxisCommands : Prop :=
  ∀ (s : State) (h : Issue) (k : Nat), Starts s h 48 → k < 8 →
    let a := accept s h
    (∀ sect vals, sect < 4 → vals.length ≤ 7 → (vals.drop (axSection k sect).length).all (· == 0) = true →
      (∀ i, i < (axSection k sect).length → vals.getD i 0 &&& fieldBits ((axSection k sect).getD i 0) = vals.getD i 0) →
      Spelled s h 0x0701 (.axisConfig h k sect vals) →
      Completes (exec (.axisConfig h k sect vals) s) s h 0x0701 .ok 0 0 0 0 (fun u =>
        (∀ i, i < (axSection k sect).length → axApplies k ((axSection k sect).getD i 0) = true →
          shadowOf u ((axSection k sect).getD i 0) = BitVec.ofNat 32 (vals.getD i 0)) ∧
        rdN u (AX_DEV_MAX k) = 0 ∧ (∀ r, r ≠ AX_DEV_MAX k → rd u r = rd a r) ∧ u.axes = a.axes ∧ SameMemory a u)) ∧
    (∀ flags target vmax, flags = 0 ∨ flags = 2 → -(2 : Int) ^ 31 ≤ target → target < (2 : Int) ^ 31 →
      vmax ≤ rdN a (AX_VMAX k) → softOk a k target = true → axState a k = axIdle → flag a (AX_STS k) 23 = true →
      (target ≠ rdI a (AX_POS k) → axBlocked a k (decide (rdI a (AX_POS k) < target)) = false) → axLocked a k = false →
      isRunning a 0x0702 k = false → isRunning a 0x0703 k = false → a.pwr.safe = false →
      Spelled s h 0x0702 (.axisMove h k flags target vmax) →
      RunsOn (exec (.axisMove h k flags target vmax) s) s h 0x0702 k [] (fun u =>
        rdI u (AX_TARGET k) = target ∧ rdI u (AX_POS k) = rdI a (AX_POS k) ∧ rdN u (AX_REMAIN k) = 0 ∧
        flag u (AX_STS k) 21 = false ∧ axState u k = (if flags = 0 then axMoving else axArmed) ∧
        (if flags = 0 then (axis u k).plan.isSome else (axis u k).armed.isSome) = true ∧
        (∀ j, j ≠ k → axis u j = axis a j) ∧ u.lanes = a.lanes ∧ SameMemory a u)) ∧
    (axState a k = axIdle → axLocked a k = false → isRunning a 0x0703 k = false →
      (swEn a k (homeRef a k) = true → a.pwr.safe = false → Spelled s h 0x0703 (.axisHome h k 0 0) →
        RunsOn (exec (.axisHome h k 0 0) s) s h 0x0703 k [] (fun u => axState u k = axHoming ∧ (axis u k).homing = 1 ∧
          (∀ j, j ≠ k → axis u j = axis a j) ∧ u.lanes = a.lanes ∧ SameMemory a u)) ∧
      (∀ value, Spelled s h 0x0703 (.axisHome h k 1 value) → RunsOn (exec (.axisHome h k 1 value) s) s h 0x0703 k [] (fun u => (axis u k).setPos = some (1, value) ∧
          axState u k = axIdle ∧ rd u (AX_POS k) = rd a (AX_POS k) ∧ (∀ j, j ≠ k → axis u j = axis a j) ∧ SameMemory a u))) ∧
    (∀ mask, 0 < mask → mask < 256 → (∀ j, j < 8 → mask.testBit j = true → axState a j ≠ axDisabled) →
      Spelled s h 0x0704 (.axisStop h mask) →
      Does (exec (.axisStop h mask) s) s (fun u =>
        (∀ j, j < 8 → mask.testBit j = true → axState a j = axArmed ∨ axState a j = axMoving ∨ axState a j = axHoming →
          (axis u j).stopReq = true) ∧
        (∀ j, mask.testBit j = false → axis u j = axis a j) ∧ u.lanes = a.lanes ∧ u.seq = a.seq)) ∧
    (∀ mask, 0 < mask → mask < 4 → a.resumeStart = none → a.groupStart = none → a.pwr.safe = false →
      Spelled s h 0x0705 (.axisResume h mask 0 0) →
      (∀ j, j < 8 → mask.testBit j = true → axState a j = axIdle ∧ axLocked a j = false ∧ flag a (AX_STS j) 21 = true ∧
        (rdI a (AX_REMAIN j) ≠ 0 → axBlocked a j (decide (0 < rdI a (AX_REMAIN j))) = false)) →
      RunsOn (exec (.axisResume h mask 0 0) s) s h 0x0705 0 [] (fun u => u.resumeStart = some ⟨mask, false, false, 0⟩ ∧
        u.axes = a.axes ∧ u.lanes = a.lanes ∧ SameMemory a u)) ∧
    (∀ mask flags time, 0 < mask → mask < 256 → flags < 4 → (flags.testBit 1 = false → time = 0) →
      (flags.testBit 1 = true → now a + 50000 ≤ time) → a.resumeStart = none → a.groupStart = none → a.pwr.safe = false →
      Spelled s h 0x0706 (.axisGroupStart h mask flags time) →
      (∀ j, j < 8 → mask.testBit j = true → axState a j = axArmed ∧ axLocked a j = false) →
      RunsOn (exec (.axisGroupStart h mask flags time) s) s h 0x0706 0 [] (fun u =>
        u.groupStart = some ⟨mask, flags.testBit 0, flags.testBit 1, time⟩ ∧ flag u AX_GROUP_STS 16 = true ∧
        u.axes = a.axes ∧ u.lanes = a.lanes ∧ SameMemory a u)) ∧
    (∀ target vmax accel decel, vmax ≤ rdN a (AX_VMAX k) → softOk a k target = true → axState a k = axMoving →
      axLocked a k = false → flag a (AX_STS k) 23 = true → isRunning a 0x0707 k = false →
      (target ≠ rdI a (AX_POS k) → axBlocked a k (decide (rdI a (AX_POS k) < target)) = false) →
      Spelled s h 0x0707 (.axisRetarget h k 2 target vmax accel decel) →
      RunsOn (exec (.axisRetarget h k 2 target vmax accel decel) s) s h 0x0707 k [] (fun u =>
        (axis u k).retarget = some (target, vmax, accel, decel) ∧ u.regs = a.regs ∧ (∀ j, j ≠ k → axis u j = axis a j) ∧
        u.lanes = a.lanes ∧ SameMemory a u))

/-- Ends of motion and starts at a boundary (R382, R386, R396, R397, R401 to R403): a move whose profile has run leaves its axis
IDLE at the target with speed 0 and ends its command; an AXIS_STOP keeps the remainder to the target; homing sets the
position from the capture and makes it valid; a homing step that travels its limit without its switch is fault 4; and the pending
starts take effect at their boundary and not before it. -/
def Claim.AxisMotionEnds : Prop :=
  ∀ (s : State) (k : Nat) (p : AxisPlan), Clocked s → k < 8 → (axis s k).plan = some p → p.dur ≤ p.t →
    let ends (st homing : Nat) (pos : Int) (u : State) : Prop := axState u k = st ∧ (axis u k).plan = none ∧
      (axis u k).homing = homing ∧ (-(2 : Int) ^ 31 ≤ pos → pos < (2 : Int) ^ 31 → rdI u (AX_POS k) = pos) ∧ rdN u (AX_VEL k) = 0 ∧
      (∀ j, j ≠ k → axis u j = axis s j) ∧ u.lanes = s.lanes ∧ u.sram = s.sram ∧ u.dram = s.dram
    (axState s k = axMoving →
      Does (exec (.axisTargetReached k) s) s (fun u => ends axIdle (axis s k).homing p.target u)) ∧
    (axState s k = axStopping →
      Does (exec (.axisAtRest k) s) s (fun u => ends axIdle (axis s k).homing p.target u ∧ flag u (AX_STS k) 21 = true ∧
        rd u (AX_REMAIN k) = BitVec.ofInt 32 ((axis s k).stopping.getD p.target - p.target))) ∧
    (axState s k = axHoming → (axis s k).homing = 8 →
      Does (exec (.homingComplete k) s) s (fun u =>
        ends axIdle 0 (rdI s (AX_HOME_POS k) + (p.target - rdI s (AX_CAPTURE k))) u ∧ flag u (AX_STS k) 23 = true ∧
        flag u (AX_STS k) 22 = true ∧ flag u (AX_STS k) 20 = false ∧ flag u (AX_STS k) 19 = false)) ∧
    (∀ lim, axState s k = axHoming → homeLimit s k = some lim → lim ≤ (rdI s (AX_POS k) - (axis s k).homeFrom).natAbs →
      exec (.homeFail k) s = .next (holding s (axisFault s k 4))) ∧
    (∀ g, s.resumeStart = some g → startDue s 0x0705 g = true → s.pwr.safe = false → (∀ j, j < 8 → g.mask.testBit j = true → axState s j = axIdle ∧ flag s (AX_STS j) 21 = true) →
      ∃ u, exec .axisResumeStart s = .next (holding s (finishRun u 0x0705 0 .ok (tickNo u) 0 0 0)) ∧ u.resumeStart = none ∧
        (∀ j, j < 8 → g.mask.testBit j = true → axState u j = axMoving ∧ flag u (AX_STS j) 21 = false) ∧
        (∀ j, g.mask.testBit j = false → axis u j = axis s j) ∧ u.lanes = s.lanes) ∧
    (∀ g, s.groupStart = some g → startDue s 0x0706 g = true → g.sync = false →
      (∀ j, j < 8 → g.mask.testBit j = true → axState s j = axArmed ∧ (axis s j).armed.isSome = true) →
      ∃ u, exec .groupStartBoundary s = .next (holding s (finishRun u 0x0706 0 .ok (tickNo u) 0 0 0)) ∧ u.groupStart = none ∧
        (∀ j, j < 8 → g.mask.testBit j = true → axState u j = axMoving ∧ (axis u j).armed = none ∧
          (axis u j).plan = (axis s j).armed.map (fun q => { q with begun := true })) ∧
        (∀ j, g.mask.testBit j = false → axis u j = axis s j) ∧ u.lanes = s.lanes) ∧
    (∀ g, (s.resumeStart = some g → startDue s 0x0705 g = false → exec .axisResumeStart s = .next (holding s s)) ∧
      (s.groupStart = some g → startDue s 0x0706 g = false → exec .groupStartBoundary s = .next (holding s s)))

/-- Switches and encoders (R391 to R395, R399, R400, R402): a raw transition shows in the unfiltered state and is kept for chatter; after its debounce
the filtered state follows; a limit met in its own direction outside homing is fault 2, chatter fault 3, a
stall fault 1 and an encoder error fault 5; a word of an SSI encoder becomes the count; the index pulse in homing captures. -/
def Claim.AxisInputs : Prop :=
  ∀ (s : State) (k i : Nat), Clocked s → k < 8 → i < 3 →
    (∀ level ns raw, Does (exec (.switchTransition k i level ns raw) s) s (fun u =>
      (axis u k).pins.testBit i = level ∧ (swEn s k i = true → swRaw u k i = (level != flag s (AX_SW_CFG k) i)) ∧
      (∀ a, a ≠ AX_SW_STS k → rd u a = rd s a) ∧ (∀ j, j ≠ k → axis u j = axis s j) ∧ u.lanes = s.lanes ∧ SameMemory s u)) ∧
    (swEn s k i = true → swOn s k i ≠ swRaw s k i → swHeld s k i = true →
      (axState s k ≠ axHoming → ¬(i = 0 ∧ swRaw s k i = true ∧ 0 < axHeading s k) → ¬(i = 1 ∧ swRaw s k i = true ∧ axHeading s k < 0) →
        Does (exec (.switchDebounce k i) s) s (fun u => swOn u k i = swRaw s k i ∧ flag u (AX_STS k) (13 - i) = swRaw s k i ∧
          (swRaw s k i = true → i < 2 → flag u (AX_STS k) (20 - i) = true) ∧ u.axes = s.axes ∧ u.lanes = s.lanes ∧ SameMemory s u)) ∧
      (axState s k = axMoving → i = 0 → swRaw s k i = true → 0 < rdI s (AX_VEL k) →
        exec (.switchDebounce k i) s = .next (holding s (axisFault (setFlag (setSw s k i true) (AX_STS k) 20 true) k 2)))) ∧
    (swHeld s k i = false → exec (.switchDebounce k i) s = .next (holding s s)) ∧
    (swEn s k i = true → fld s (AX_SW_CFG k) 23 16 ≠ 0 →
      fld s (AX_SW_CFG k) 23 16 < ((mget [] (axis s k).edges i).filter
        (fun e => decide (now s < e.time + fld s (AX_SW_CFG k) 31 24 * 1000000))).length →
      axState s k ≠ axDisabled →
      exec (.switchChatter k i) s = .next (holding s (axisFault (setFld s (AX_SW_STS k) 7 6 i) k 3))) ∧
    (flag s (AX_CFG k) 6 = true → hasEncoder s k = true → axState s k ≠ axDisabled →
      fld s (AX_DEV_WIN k) 15 0 < (rdI s (AX_DEV k)).natAbs → stallDue s k = true → exec (.stall k) s = .next (holding s (axisFault s k 1))) ∧
    (hasEncoder s k = true → flag s (AX_CFG k) 6 = false → exec (.encErr k) s = .next (holding s (satInc s (AX_ENC_ERRS k)))) ∧
    (hasEncoder s k = true → flag s (AX_CFG k) 6 = true → axState s k ≠ axDisabled →
      exec (.encErr k) s = .next (holding s (axisFault (satInc s (AX_ENC_ERRS k)) k 5))) ∧
    (∀ frame ns, fld s (AX_CFG k) 5 4 = 2 → flag s (AX_SSI_CFG k) 31 = false →
      Does (exec (.ssiFrame k frame ns) s) s (fun u => (axis u k).encCount = frame % 2 ^ fld s (AX_SSI_CFG k) 29 24 ∧
        rdI u (AX_POS k) = rdI s (AX_POS k) ∧ (∀ j, j ≠ k → axis u j = axis s j) ∧ u.lanes = s.lanes ∧ SameMemory s u)) ∧
    (∀ ns raw, axState s k = axHoming → (axis s k).homing = 7 →
      Does (exec (.enczIndex k ns raw) s) s (fun u => rd u (AX_CAPTURE k) = BitVec.ofInt 32 (axPosAt s k ns) ∧
        rd u (AX_CAPTURE_ENC k) = BitVec.ofInt 32 raw ∧ (axis u k).homing = 8 ∧ (∀ j, j ≠ k → axis u j = axis s j)))

/-- An axis fault (R396, R405): the axis stands in FAULT with the code, speed 0 and nothing planned; axes 2 to 7 drop the move, axes
0 and 1 keep the remainder of one in progress; no other axis, no lane and no memory of the device changes. -/
def Obligations.AxisFaultHalts : Prop :=
  ∀ (s : State) (k code : Nat), k < 8 → code < 16 →
    let u := axisHalt s k code
    axState u k = axFault ∧ fld u (AX_STS k) 27 24 = code ∧ rdN u (AX_VEL k) = 0 ∧ (axis u k).plan = none ∧
    (axis u k).armed = none ∧ (axis u k).homing = 0 ∧ (axis u k).stopReq = false ∧
    (2 ≤ k → axMovingNow s k = true → rdN u (AX_REMAIN k) = 0 ∧ flag u (AX_STS k) 23 = false) ∧
    (k < 2 → hasEncoder s k = false → flag u (AX_STS k) 23 = false) ∧
    (k < 2 → axState s k = axMoving ∨ axState s k = axStopping → flag u (AX_STS k) 21 = true) ∧
    (∀ j, j ≠ k → axis u j = axis s j) ∧ u.lanes = s.lanes ∧ u.sram = s.sram ∧ u.dram = s.dram

/-! ### The burn map -/

/-- The burn map's commands (R362 to R367): BURN_CONFIG stages the map; BURN_MAP_LOAD from source 1 fills the window with unit
cells; BURN_MAP_SAVE writes the header, its CRC and the cells; BURN_FREEZE acts on this device alone, or tells the group and waits
for its members. -/
def Claim.BurnCommands : Prop :=
  ∀ (s : State) (h : Issue), Starts s h 48 →
    let a := accept s h
    (∀ flags gain weight nMin ox oy cell gw gh x0 y0 w wh, flags < 4 → gain ≤ 256 → weight ≤ 256 → 1 ≤ nMin → nMin ≤ 65535 →
      2000 ≤ cell → cell ≤ 32000 → 1 ≤ gw → gw ≤ 2048 → 1 ≤ gh → gh ≤ 2048 → x0 ≤ 2047 → y0 ≤ 2047 → 1 ≤ w → w ≤ 2048 →
      1 ≤ wh → wh ≤ 2048 → Spelled s h 0x0601 (.burnConfig h flags gain weight nMin ox oy cell gw gh x0 y0 w wh) →
      Completes (exec (.burnConfig h flags gain weight nMin ox oy cell gw gh x0 y0 w wh) s) s h 0x0601 .ok 0 0 0 0 (fun u =>
        bitsOf (shadowOf u BURN_CFG) 31 31 = b2n (flags.testBit 0) ∧ bitsOf (shadowOf u BURN_CFG) 30 30 = b2n (flags.testBit 1) ∧
        bitsOf (shadowOf u BURN_CFG) 8 0 = gain ∧ bitsOf (shadowOf u BURN_CELL) 15 0 = cell ∧
        bitsOf (shadowOf u BURN_WIN1) 11 0 = w ∧ bitsOf (shadowOf u BURN_WIN1) 27 16 = wh ∧ u.dirty.testBit 8 = true ∧
        u.regs = a.regs ∧ SameMemory a u)) ∧
    (∀ content, content < 2 → burnCmdState a = true → burnBusy a = false → Spelled s h 0x0602 (.burnMapLoad h 1 content 0) →
      exec (.burnMapLoad h 1 content 0) s =
        .next (holding s (complete (setFlag (fillWindow a) BURN_STS 0 true) h 0x0602 .ok 0 0 0 0))) ∧
    (∀ addr, addr % 64 = 0 → h.ring ≠ 15 → burnCmdState a = true → burnBusy a = false → dramOk a (bBase a) (bLen a) = true →
      Spelled s h 0x0603 (.burnMapSave h 0 addr) →
      let cells := dramBytes a (bBase a) (bLen a)
      exec (.burnMapSave h 0 addr) s =
        .next (holding s (complete (hostOp a (.write addr (mapHeader a ++ leBytes 4 (crc32c (mapHeader a ++ cells)) ++ cells)))
          h 0x0603 .ok (64 + bLen a) 0 0 0))) ∧
    (∀ op, op < 2 → Spelled s h 0x0604 (.burnFreeze h op 0) →
      exec (.burnFreeze h op 0) s = .next (holding s (complete (Machine.burnFreeze a (op == 1)) h 0x0604 .ok 0 0 0 0))) ∧
    (∀ op, op < 2 → Spelled s h 0x0604 (.burnFreeze h op 1) →
      let f := Machine.burnFreeze a (op == 1)
      let gone := ownGroup f != 0xFF && f.fab.devs.any (fun e => e.1 != ownAddr f && e.2.group == ownGroup f && !reachable f e.1)
      let b := startRun (noticeGroup f 5 (now f) op) h 0x0604 0 [now f, (groupPeers f).foldl natSet 0, b2n gone]
      exec (.burnFreeze h op 1) s = .next (holding s (freezeStep b (fun d => !reachable b d))))

/-- The burn map's work (R362, R368 to R374): the fill ends with a valid map; the border cells of a peer are kept until the
update of their layer, which a peer's silence does not hold up for more than 50 ms; the update of an aborted layer changes nothing
but its own bookkeeping and the cells; it writes no lane, no layer state and no byte outside device DRAM. -/
def Claim.BurnWork : Prop :=
  ∀ (s : State), Clocked s →
    (s.burn.fill = true → Does (exec .burnFill s) s (fun u => u.burn.fill = false ∧ flag u BURN_STS 0 = true ∧
      flag u BURN_STS 1 = s.burn.ended.isSome ∧ u.sram = s.sram ∧ u.host = s.host ∧ u.lanes = s.lanes)) ∧
    (∀ via src layer last cells, portUp s via = true →
      Does (exec (.burnBorder via src layer last cells) s) s (fun u =>
        u.burn.inbox = s.burn.inbox ++ cells.map (fun c =>
          (⟨src, layer, c.x, c.y, c.factor, ⟨c.pdSum, c.pdCount, c.camSum, c.camCount⟩, c.state⟩ : BurnIn)) ∧
        u.burn.whole = (if last then (src, layer) :: s.burn.whole else s.burn.whole) ∧ SameMemory s u ∧ u.lanes = s.lanes)) ∧
    (∀ peer, s.burn.ended ≠ none → reached s (s.burn.endedAt + 50000000) = true → borderWhole s peer = false →
      (sharers s).contains peer = true →
      exec (.burnBorderTimeout peer) s =
        .next (holding s { s with burn := { s.burn with missing := peer :: s.burn.missing } })) ∧
    (∀ layer aborted, s.burn.ended = some (layer, aborted) →
      (aborted = false → ∀ p ∈ sharers s, borderWhole s p = true ∨ s.burn.missing.contains p = true) →
      Does (exec .burnUpdate s) s (fun u => u.burn.ended = none ∧ u.burn.inner = none ∧ u.burn.missing = [] ∧
        u.burn.inbox = s.burn.inbox.filter (fun i => i.layer != layer) ∧
        u.burn.whole = s.burn.whole.filter (fun w => w.2 != layer) ∧ flag u BURN_STS 1 = s.burn.fill ∧
        (aborted = false → rd u BURN_LAST_LAYER = BitVec.ofNat 32 layer) ∧ u.sram = s.sram ∧ u.host = s.host ∧
        u.lanes = s.lanes ∧ u.seq = s.seq)) ∧
    (∀ layer, s.burn.ended = some (layer, false) →
      (∃ p ∈ sharers s, borderWhole s p = false ∧ s.burn.missing.contains p = false) →
      Does (exec .burnUpdate s) s (fun u => u.burn.ended = s.burn.ended ∧ u.burn.inbox = s.burn.inbox ∧ u.burn.inner.isSome = true ∧
        u.sram = s.sram ∧ u.host = s.host ∧ u.lanes = s.lanes ∧ u.seq = s.seq))

/-! ### The power loops -/

/-- The loops' commands (R346 to R358): LOOP_CONFIG stages the limits of its lanes; LOOP_COEF_WRITE hands the coefficients to the
loops; LOOP_MODE and LOOP_SETPOINT queue live writes for the boundary; LOOP_READ reports; a HOLD longer than its limit is
recorded once. No lane moves and no memory changes. -/
def Obligations.LoopCommands : Prop :=
  ∀ (s : State) (h : Issue), Starts s h 48 →
    let a := accept s h
    (∀ lanes lp, loopParams lanes lp = true → quadsOn a lanes = true →
      (∀ limLo limHi slew, limLo ≤ 256 → 256 ≤ limHi → limHi ≤ 1023 →
        Spelled s h 0x0501 (.loopConfig h lanes lp 1 limLo limHi slew 0 0 0 0) →
        Completes (exec (.loopConfig h lanes lp 1 limLo limHi slew 0 0 0 0) s) s h 0x0501 .ok 0 0 0 0 (fun u =>
          (∀ n ∈ lanesOf lanes, bitsOf (shadowOf u (LOOP_LIM n lp)) 8 0 = limLo ∧
            bitsOf (shadowOf u (LOOP_LIM n lp)) 25 16 = limHi ∧ shadowOf u (LOOP_SLEW n lp) = BitVec.ofNat 32 slew) ∧
          u.regs = a.regs ∧ u.dirty.testBit 7 = true ∧ SameMemory a u ∧ u.lanes = a.lanes)) ∧
      (∀ mask order kp ki kd kf, 0 < mask → mask < 16 → order < 2 →
        a.running.any (fun r => r.op == 0x0502 && r.aux.getD 0 4 == lp && r.aux.getD 1 0 &&& lanes != 0) = false →
        Spelled s h 0x0502 (.loopCoefWrite h lanes lp mask order kp ki kd kf) →
        RunsOn (exec (.loopCoefWrite h lanes lp mask order kp ki kd kf) s) s h 0x0502 (lanes * 4 + lp) [lp, lanes, 0, 0, now a] (fun u =>
          u.regs = a.regs ∧ SameMemory a u)) ∧
      (∀ mode man, mode < 3 → man < 1024 → Spelled s h 0x0503 (.loopMode h lanes lp mode man 0) →
        RunsOn (exec (.loopMode h lanes lp mode man 0) s) s h 0x0503 0 [] (fun u => u.regs = a.regs ∧ u.lanes = a.lanes ∧
          ∀ n ∈ lanesOf lanes, (LOOPK_CFG n lp, setBits 0 1 0 3, setBits 0 1 0 mode) ∈ u.live)) ∧
      (∀ value, Spelled s h 0x0504 (.loopSetpoint h lanes lp 0 value) → RunsOn (exec (.loopSetpoint h lanes lp 0 value) s) s h 0x0504 0 [] (fun u => u.regs = a.regs ∧ u.lanes = a.lanes ∧
        ∀ n ∈ lanesOf lanes, (LOOP_SP_CTL n lp, setBits 0 0 0 1, setBits 0 0 0 1) ∈ u.live))) ∧
    (∀ n k, n < 24 → k < 4 → domOn a (2 + quadOf n) = true → Spelled s h 0x0505 (.loopRead h n k) →
      ∃ r2 ex, exec (.loopRead h n k) s =
        .next (holding s (complete a h 0x0505 .ok (rdN a (LOOP_INPUT n k)) (rdN a (LOOP_SETPT n k)) r2 ex))) ∧
    exec .loopCoefApply s = .next (holding s ((s.running.filter (fun r => r.op == 0x0502)).foldl coefStep s)) ∧
    (∀ n k, fld s (LOOP_CFG n) 31 16 ≠ 0 → loopState s n k = lpHold → fld s (LOOP_CFG n) 31 16 * 1000000 < (loop s n k).holdNs →
      (loop s n k).said = false →
      exec (.loopHoldLong n k) s = .next (holding s
        (laneEvent (updLoop s n k (fun l => { l with said := true })) n 0x1404 (leBytes 1 n ++ leBytes 1 k))))

/-! ### Scanners -/

/-- The scanner commands (R213 to R215, R232, R233): LANE_CONFIG stages the limits; ENLARGER_MAP_LOAD with a good image puts it into
the slot of the lane's engine, and only there, and makes it valid; SCANNER_LINK_SET restarts the link, drops the map when the
generation changes, and ends at once without a return direction; LANE_JOG starts a jog of a lane at rest, and retargets
a jog in progress at the next boundary, whose own command then ends; DRIFT_TERMS_SET keeps the terms until they apply. -/
def Claim.ScannerCommands : Prop :=
  ∀ (s : State) (h : Issue) (n : Nat), Starts s h 48 → n < 24 →
    let a := accept s h
    domOn a (2 + quadOf n) = true →
    (∀ flags vmark vjump accel jerk zv za zj winXy winZ delay count errs, flags < 2 → 1000 ≤ vmark → vmark ≤ 20000000 →
      1000 ≤ vjump → vjump ≤ 40000000 → 100 ≤ accel → accel ≤ 1000000 → 1 ≤ jerk → jerk ≤ 4000000 → 1000 ≤ zv →
      zv ≤ 10000000 → 100 ≤ za → za ≤ 1000000 → 1 ≤ zj → zj ≤ 4000000 → 1 ≤ winXy → winXy ≤ 65535 → 1 ≤ winZ →
      winZ ≤ 65535 → delay ≤ 1023 → 1 ≤ count → count ≤ 255 → 1 ≤ errs → errs ≤ 255 →
      Spelled s h 0x0201 (.laneConfig h n flags vmark vjump accel jerk zv za zj winXy winZ delay count errs) →
      Completes (exec (.laneConfig h n flags vmark vjump accel jerk zv za zj winXy winZ delay count errs) s) s h 0x0201 .ok 0 0 0 0
        (fun u => shadowOf u (SCN_VMAX_MARK n) = BitVec.ofNat 32 vmark ∧ shadowOf u (SCN_VMAX_JUMP n) = BitVec.ofNat 32 vjump ∧
          shadowOf u (SCN_ACCEL n) = BitVec.ofNat 32 accel ∧ shadowOf u (SCN_JERK n) = BitVec.ofNat 32 jerk ∧
          bitsOf (shadowOf u (SCN_DEV_CFG n)) 7 0 = count ∧ bitsOf (shadowOf u (SCN_DEV_CFG n)) 15 8 = errs ∧
          bitsOf (shadowOf u (SCN_DEV_CFG n)) 25 16 = delay ∧ u.dirty.testBit 2 = true ∧ u.regs = a.regs ∧ SameMemory a u)) ∧
    ((lane a n).jog = none → laneInLayer a n = false →
      (∀ addr, addr % 64 = 0 → dramOk a addr 50768 = true → mapCheck (padTo 50768 (dramBytes a addr 50768)) (linkWidth (linkGen a n)) = none →
        Spelled s h 0x0202 (.enlargerMapLoad h n 1 addr []) →
        let img := padTo 50768 (dramBytes a addr 50768)
        Completes (exec (.enlargerMapLoad h n 1 addr []) s) s h 0x0202 .ok (leAt img 28 4) (engineOf a n) 0 0 (fun u =>
          mapValid u n = true ∧ rd u (SCN_MAP_ID n) = BitVec.ofNat 32 (leAt img 28 4) ∧ sramBytes u (mapBase a n) 50768 = img ∧
          (∀ b, b < mapBase a n ∨ mapBase a n + 65536 ≤ b → sramBytes u b 1 = sramBytes a b 1) ∧ u.dram = a.dram ∧
          (∀ j, j ≠ n → lane u j = lane a j))) ∧
      (∀ pol, pol < 4 → Spelled s h 0x0203 (.scannerLinkSet h n 1 pol) → Completes (exec (.scannerLinkSet h n 1 pol) s) s h 0x0203 .ok 0 0 0 0 (fun u =>
        linkGen u n = 1 ∧ fld u (SCN_LINK_CFG n) 3 2 = pol ∧ linkState u n = 2 ∧ rdN u (SCN_LINK_ERRS n) = 0 ∧
        (linkGen a n ≠ 1 → mapValid u n = false) ∧ SameMemory a u ∧ (∀ j, j ≠ n → lane u j = lane a j))) ∧
      (∀ gen pol, gen = 2 ∨ gen = 3 → pol < 4 → Spelled s h 0x0203 (.scannerLinkSet h n gen pol) → RunsOn (exec (.scannerLinkSet h n gen pol) s) s h 0x0203 n [] (fun u =>
        linkGen u n = gen ∧ linkState u n = 1 ∧ rdN u (SCN_LINK_ERRS n) = 0 ∧ (lane u n).goodRun = 0 ∧
        (linkGen a n ≠ gen → mapValid u n = false) ∧ SameMemory a u ∧ (∀ j, j ≠ n → lane u j = lane a j))) ∧
      (∀ x y z speed, 1 ≤ speed → speed ≤ 65535 → a.pwr.safe = false → Spelled s h 0x0205 (.laneJog h n 1 x y z speed) →
        RunsOn (exec (.laneJog h n 1 x y z speed) s) s h 0x0205 n [] (fun u =>
          (lane u n).jog = some ⟨true, x, y, z⟩ ∧
          (∃ r, (lane u n).raw = some r ∧ r.tx = x ∧ r.ty = y ∧ r.tz = z ∧ r.speed = speed ∧ r.ticks = 0 ∧ r.stop = false) ∧
          flag u (SCN_STS n) 11 = true ∧ (∀ r, r ≠ SCN_STS n → rd u r = rd a r) ∧ SameMemory a u ∧
          (∀ j, j ≠ n → lane u j = lane a j))) ∧
      (∀ x y z speed, mapValid a n = true → inField a n x y = true → a.pwr.safe = false →
        Spelled s h 0x0205 (.laneJog h n 0 x y z speed) →
        (plateBegin a n x y z speed = none → exec (.laneJog h n 0 x y z speed) s = .next (holding s (fail a h 0x0205 .badParam))) ∧
        ((lane a n).held = none → (lane a n).raw = none →
          (lane a n).motion.rates (lane a n).motion.t = ((0, 0, 0), (0, 0, 0)) →
          RunsOn (exec (.laneJog h n 0 x y z speed) s) s h 0x0205 n [] (fun u =>
            (lane u n).jog = some ⟨false, x, y, z⟩ ∧
            (lane u n).motion = planJump a n (lane a n).px (lane a n).py (lane a n).pf (x * 65536) (y * 65536) (z * 65536) (jogSpeed speed) ∧
            flag u (SCN_STS n) 11 = true ∧ SameMemory a u ∧ (∀ j, j ≠ n → lane u j = lane a j))))) ∧
    ((lane a n).jog.isSome = true → laneInLayer a n = false → a.pwr.safe = false →
      ∀ x y z speed, 1 ≤ speed → speed ≤ 65535 → Spelled s h 0x0205 (.laneJog h n 1 x y z speed) →
        RunsOn (exec (.laneJog h n 1 x y z speed) s) s h 0x0205 n [] (fun u =>
          isRunning u 0x0205 n = false ∧ (lane u n).retarget = some ⟨true, true, x, y, z, speed⟩ ∧ (lane u n).motion = (lane a n).motion ∧
          (∀ j, j ≠ n → lane u j = lane a j))) ∧
    (∀ apply_ mask terms, apply_ < 2 → mask < 256 → (lane a n).drift = none →
      Spelled s h 0x0207 (.driftTermsSet h n apply_ mask terms) →
      RunsOn (exec (.driftTermsSet h n apply_ mask terms) s) s h 0x0207 n [] (fun u =>
        (lane u n).drift = some ⟨apply_, mask, terms⟩ ∧ u.regs = a.regs ∧ SameMemory a u ∧ (∀ j, j ≠ n → lane u j = lane a j)))

/-- Scanner links and jogs (R207, R211, R223, R225, R227 to R230, R232, R233): what the pair of a BSL3 lane carries without the
delimiter or with a group that is no data group, and a frame with a bad CRC or number, is a link error; a good
one reports its position; no frame in time is an error; errors in a row lose the link, with a fault in a layer and an
event outside one; deviations in a row are a fault; drift terms apply, or time out after a second while the lane marks; a jog at its
target ends; a jump is planned anew to its new target, unless the new path would leave the map field. -/
def Claim.ScannerLinks : Prop :=
  ∀ (s : State) (n : Nat), Clocked s → n < 24 →
    (∀ line, linkGen s n = 3 →
      let v := if flag s (SCN_LINK_CFG n) 3 then 2 ^ 125 - 1 - line else line
      (ungroup 23 v = none → exec (.returnFrame n line) s = .next (holding s (linkError s n))) ∧
      (∀ bits, ungroup 23 v = some bits →
        let ok := crc12 (msbBits 80 (bits / 4096)) == bits % 4096 && natBits bits 19 16 == (lane s n).expFrame % 16
        (ok = false → exec (.returnFrame n line) s = .next (holding s (linkError s n))) ∧
        (ok = true → bits.testBit 12 = false →
          Does (exec (.returnFrame n line) s) s (fun u =>
            rd u (SCN_RPT_X n) = BitVec.ofInt 32 (sgn 24 (natBits bits 91 68)) ∧
            rd u (SCN_RPT_Y n) = BitVec.ofInt 32 (sgn 24 (natBits bits 67 44)) ∧
            rd u (SCN_RPT_Z n) = BitVec.ofInt 32 (sgn 24 (natBits bits 43 20)))))) ∧
    (2 ≤ linkGen s n →
      Does (exec (.returnFrameTimeout n) s) s (fun u => (lane u n).errRun = (lane s n).errRun + 1 ∧ (lane u n).goodRun = 0 ∧
        (rdN s (SCN_LINK_ERRS n) < 2 ^ 32 - 1 → rdN u (SCN_LINK_ERRS n) = rdN s (SCN_LINK_ERRS n) + 1) ∧
        (∀ r, r ≠ SCN_LINK_ERRS n → rd u r = rd s r) ∧ SameMemory s u)) ∧
    exec (.scannerLinkTimeout n) s = .next (holding s
      (if (findRun s 0x0203 n).any (Running.aged s 10000000) then finishAll s 0x0203 n .timeout 0 0 0 0 else s)) ∧
    (linkState s n = 2 → 2 ≤ linkGen s n → fld s (SCN_DEV_CFG n) 15 8 ≤ (lane s n).errRun →
      let lost := updLane (setFld s (SCN_STS n) 1 0 3) n (fun l => { l with goodRun := 0 })
      exec (.linkLost n) s = .next (holding s (if laneInLayer lost n then raiseFault lost clsLane 0x0107 (srcLane n) []
        else laneEvent lost n 0x1201 []))) ∧
    (flag s (SCN_DEV_CFG n) 31 = true → fld s (SCN_DEV_CFG n) 7 0 < (lane s n).devRun → (lane s n).devRaised = false →
      laneInLayer s n = true ∨ (lane s n).jog.isSome = true →
      exec (.scanDeviation n) s = .next (holding s
        (raiseFault (updLane s n (fun l => { l with devRaised := true })) clsLane 0x0106 (srcLane n) []))) ∧
    (∀ d, (lane s n).drift = some d → d.apply ≠ 1 ∨ marking s n = false →
      ∃ u, exec (.driftApply n) s = .next (holding s (finishRun u 0x0207 n .ok (tickNo s) 0 0 0)) ∧ (lane u n).drift = none ∧
        (∀ i, i < 8 → rd u ((driftRegs n).getD i 0) = (if d.mask.testBit i then BitVec.ofInt 32 (d.terms.getD i 0)
          else rd s ((driftRegs n).getD i 0))) ∧ SameMemory s u) ∧
    (∀ d, (lane s n).drift = some d → d.apply = 1 → (findRun s 0x0207 n).all (Running.aged s 1000000000) = true →
      exec (.driftTimeout n) s =
        .next (holding s (finishRun (updLane s n (fun l => { l with drift := none })) 0x0207 n .timeout 0 0 0 0))) ∧
    (jogDone s n = true → exec (.jogTargetReached n) s = .next (holding s (endJog (rawEnd s n) n .ok 0))) ∧
    (jogDone s n = false → exec (.jogTargetReached n) s = .next (holding s s)) ∧
    ((lane s n).retarget = none → exec (.jumpRetarget n) s = .next (holding s s)) ∧
    (∀ q, (lane s n).retarget = some q → q.jog = false → (lane s n).phase = .jump →
      let b := updLane s n (fun l => { l with retarget := none })
      let m := planTo b n ((lane s n).motion.rates (lane s n).motion.t) q.x q.y q.f q.v
      exec (.jumpRetarget n) s = .next (holding s (if leavesField b n m then b else updLane b n (fun l => { l with motion := m })))) ∧
    (∀ q, (lane s n).retarget = some q → q.jog = true → q.raw = true →
      Does (exec (.jumpRetarget n) s) s (fun u => (lane u n).retarget = none ∧ (lane u n).jog = some ⟨true, q.x, q.y, q.f⟩ ∧
        (∃ r, (lane u n).raw = some r ∧ r.tx = q.x ∧ r.ty = q.y ∧ r.tz = q.f ∧ r.speed = q.v ∧ r.ticks = 0) ∧
        u.regs = s.regs ∧ SameMemory s u ∧ (∀ j, j ≠ n → lane u j = lane s j)))

/-! ### Laser ports, the shutter path and the ledger -/

/-- Laser commands (R242, R260): LASER_PORT_SET takes MODE and the polarity at once, an OFF port is dark, and stages the rest;
LEDGER_SET stages the three limits and reports the granted total. -/
def Claim.LaserCommands : Prop :=
  ∀ (s : State) (h : Issue), Starts s h 48 →
    let a := accept s h
    (∀ n mode flags filter pfs pmax lead, n < 24 → domOn a (2 + quadOf n) = true → laneInLayer a n = false → mode ≤ 2 → flags < 4 →
      1 ≤ filter → filter < 256 → 1 ≤ pfs → pfs < 65536 → pmax < 2 ^ 32 → lead < 65536 →
      Spelled s h 0x0204 (.laserPortSet h n mode flags filter pfs pmax lead) →
      Completes (exec (.laserPortSet h n mode flags filter pfs pmax lead) s) s h 0x0204 .ok 0 0 0 0 (fun u =>
        fld u (LAS_CFG n) 1 0 = mode ∧ flag u (LAS_CFG n) 4 = flags.testBit 1 ∧
        (mode = 0 → gateOf u n = false ∧ emitOf u n = false) ∧ bitsOf (shadowOf u (LAS_CFG n)) 31 24 = filter ∧
        bitsOf (shadowOf u (LAS_CFG n)) 8 8 = b2n (flags.testBit 0) ∧ bitsOf (shadowOf u (LAS_PFS n)) 15 0 = pfs ∧
        shadowOf u (LAS_PMAX n) = BitVec.ofNat 32 pmax ∧ u.dirty.testBit 3 = true ∧
        (∀ j, j ≠ n → lane u j = lane a j) ∧ SameMemory a u)) ∧
    (∀ budget dpdt stepMax, dpdt ≤ 1000000 → Spelled s h 0x0301 (.ledgerSet h budget dpdt stepMax) →
      Completes (exec (.ledgerSet h budget dpdt stepMax) s) s h 0x0301 .ok (ledgerG a) 0 0 0 (fun u =>
        shadowOf u LEDG_BUDGET = BitVec.ofNat 32 budget ∧ shadowOf u LEDG_DPDT = BitVec.ofNat 32 dpdt ∧
        shadowOf u LEDG_STEP_MAX = BitVec.ofNat 32 stepMax ∧ u.dirty.testBit 4 = true ∧ u.regs = a.regs ∧ u.ledger = a.ledger ∧
        SameMemory a u))

/-- The shutter path (R249 to R251): the fall of INTERLOCK_N forces GATE and EMIT of every lane low without any clock, sets
the latch and counts; its rise only shows the input; clearing the latch is ignored while INTERLOCK_N is low, and opens no GATE. -/
def Obligations.ShutterPath : Prop :=
  ∀ s : State,
    Does (exec .interlockNFall s) s (fun u => (∀ n, n < 24 → gateOf u n = false ∧ emitOf u n = false) ∧
      u.pins.interlockN = false ∧ shutterHolds u = true ∧ flag u LEDG_SHUTTER 31 = true ∧ flag u LEDG_SHUTTER 30 = true ∧
      fld u LEDG_SHUTTER 15 0 = satN 65535 (fld s LEDG_SHUTTER 15 0 + 1) ∧ SameMemory s u ∧ u.axes = s.axes ∧ u.seq = s.seq) ∧
    Does (exec .interlockNRise s) s (fun u => u.pins.interlockN = true ∧ flag u LEDG_SHUTTER 30 = false ∧
      flag u LEDG_SHUTTER 31 = flag s LEDG_SHUTTER 31 ∧ (∀ n, n < 24 → gateOf u n = gateOf s n ∧ emitOf u n = emitOf s n) ∧
      u.lanes = s.lanes ∧ SameMemory s u) ∧
    (Clocked s → s.pins.interlockN = false → exec .shutterLatchClear s = .next (holding s s)) ∧
    (Clocked s → s.pins.interlockN = true →
      Does (exec .shutterLatchClear s) s (fun u => flag u LEDG_SHUTTER 31 = false ∧ (∀ n, n < 24 → gateOf u n = gateOf s n) ∧
        (∀ n, n < 24 → laneInLayer s n = false → emitOf u n = emitOf s n) ∧ SameMemory s u ∧ u.axes = s.axes ∧ u.seq = s.seq))

/-- A lane whose laser is forced off (R242, R250, R252 order 1) has GATE low after its edges, and sends the power word 0. -/
def Obligations.ForcedOffIsDark : Prop :=
  ∀ (s : State) (n b e : Nat) (win : Bool), n < 24 → forcedOff s n = true →
    gateOf (gateEdges s n b e) n = false ∧
    fld (powerStep s n win).1 (LAS_WORD n) 15 0 = 0 ∧ rdN (powerStep s n win).1 (LAS_APPLIED n) = 0 ∧ (powerStep s n win).2 = (0, 0)

/-- Laser pins and the ledger's boundary work (R247, R253 to R256): ALM_N low is a fault of a lane in a layer or with EMIT high and an
event otherwise; RDY falling under EMIT is a fault; released grants are taken out at the boundary, a request that fits under the ceiling is granted, and the
first in age order that does not fit ends the pass. -/
def Claim.LaserPinsAndGrants : Prop :=
  ∀ (s : State) (n : Nat), Clocked s → n < 24 →
    (flag s (LAS_STS n) 2 = false →
      let u := setFlag s (LAS_STS n) 2 true
      exec (.almNChange n true) s = .next (holding s (if laneInLayer u n || emitOf u n then raiseFault u clsLane 0x010A (srcLane n) []
        else laneEvent u n 0x1203 []))) ∧
    exec (.almNChange n false) s = .next (holding s (setFlag s (LAS_STS n) 2 false)) ∧
    (emitOf s n = true → exec (.rdyFall n) s =
      .next (holding s (raiseFault (setFlag s (LAS_STS n) 3 false) clsLane 0x010B (srcLane n) []))) ∧
    (emitOf s n = false → exec (.rdyFall n) s = .next (holding s (setFlag s (LAS_STS n) 3 false))) ∧
    (layerSt s ≠ stExposing → layerSt s ≠ stStopBath → exec .ledgerGrant s = .next (holding s s)) ∧
    (layerSt s = stExposing ∨ layerSt s = stStopBath →
      let kept := s.ledger.grants.filter (fun g => g.slot != 3)
      let b := ledgerShow { s with ledger := { s.ledger with grants := kept } }
      (s.ledger.waiting = [] → Does (exec .ledgerGrant s) s (fun u => u.ledger.grants = kept ∧
        rd u LEDG_CEILING = BitVec.ofNat 32 (ceilingOf b) ∧ u.lanes = s.lanes ∧ SameMemory s u)) ∧
      (∀ q, s.ledger.waiting = [q] → rdN s LEDG_DPDT = 0 → q.mw ≤ rdN s LEDG_BUDGET → sumN (kept.map (·.mw)) + q.mw ≤ rdN s LEDG_BUDGET →
        q.slot ≠ 1 → (lane s q.lane).phase ≠ .waitGrant →
        Does (exec .ledgerGrant s) s (fun u => u.ledger.grants = kept ++ [{ q with tick := tickNo s }] ∧ u.ledger.waiting = [] ∧
          (∀ j, j ≠ q.lane → lane u j = lane s j) ∧ SameMemory s u)) ∧
      (∀ q, s.ledger.waiting = [q] → rdN s LEDG_DPDT = 0 → q.mw ≤ rdN s LEDG_BUDGET → rdN s LEDG_BUDGET < sumN (kept.map (·.mw)) + q.mw →
        Does (exec .ledgerGrant s) s (fun u => u.ledger.grants = kept ∧ u.ledger.waiting = [q] ∧ u.lanes = s.lanes ∧ SameMemory s u)))

/-- A tick boundary (R31, R40, R182): the motion and the power of the tick that ends, then its faults at the boundary, then what
starts there; the inputs that the command carries (photodiode windows, encoder counts, lateness, RDY levels, claims) enter in that order. -/
def Obligations.TickOrder : Prop :=
  ∀ (s : State) (pds : List PdWin) (encs : List (Nat × Int)) (late overrun rdy : Nat) (asks : List ClaimAsk), Clocked s →
    let b := nextBoundary s
    let moved := tickMotion (rdyRise s rdy) pds overrun b
    let powered := tickPower (rdyRise s rdy) moved late b
    let faulted := tickFaults (toBoundary powered b) overrun (lanes24.any (fun n => (lane s n).shut))
    exec (.tickBoundary pds encs late overrun rdy asks) s = .next (holding s (tickEnd faulted (b - now s) overrun encs asks))

/-! ### Overlap, handoff and plume -/

/-- Handoff tokens (R271, R273, R276 to R279, R291 to R293): estimates of a peer's lanes are kept with their arrival; a CLAIM waits for the boundary; a
GRANT for a waiting lane gives it the work and one that is late goes back; DENY ends the wait, as 20 µs without an
answer do, counted; RETURN reopens the entry that the lane holds; DONE resolves it and no other; positions are kept, and a peer whose
positions stop for 20 µs is STALE. -/
def Claim.HandoffTokens : Prop :=
  ∀ (s : State) (via src : Nat), Clocked s → portUp s via = true →
    (∀ flags entries, Does (exec (.estimateToken via src flags entries) s) s (fun u =>
      (∀ e, estEntries entries = [e] → mget ⟨0, 0, 0, false, false, false⟩ u.ovl.ests e.1 =
        ⟨e.2.1, e.2.2.1, now s, e.2.2.2.testBit 0, e.2.2.2.testBit 1, flags.testBit 1⟩) ∧
      u.ovl.excess.testBit src = flags.testBit 0 ∧ u.ovl.pool = s.ovl.pool ∧ u.lanes = s.lanes ∧ SameMemory s u)) ∧
    (∀ zone lane_ e q req, Does (exec (.claimToken via src zone lane_ e q req) s) s (fun u =>
      u.ovl.claims = s.ovl.claims ++ [⟨src, zone, lane_, e, q, req⟩] ∧ u.lanes = s.lanes ∧ SameMemory s u)) ∧
    (∀ zone seg lane_ req notBefore lo hi split rec_, recCrcOk (recBytes32 rec_) = true → withdrawn s = false →
      takesClaims s (lane_ % 24) = true → (∃ z, (lane s (lane_ % 24)).claimOut = some (src, z, req)) →
      Does (exec (.grantToken via src zone seg lane_ req notBefore lo hi split rec_) s) s (fun u =>
        (lane u (lane_ % 24)).claimOut = none ∧
        (∃ w, (lane u (lane_ % 24)).claimed = (lane s (lane_ % 24)).claimed ++ [w] ∧ w.rcd = recOf (recBytes32 rec_) ∧ w.lo = (lo : Int) ∧
          w.hi = (hi : Int) ∧ w.src = 3 ∧ w.home = src ∧ w.zone = zone ∧ w.notBefore = notBefore) ∧
        (∀ j, j ≠ lane_ % 24 → lane u j = lane s j) ∧ SameMemory s u)) ∧
    (∀ zone seg lane_ req notBefore lo hi split rec_, (lane s (lane_ % 24)).claimOut = none →
      Does (exec (.grantToken via src zone seg lane_ req notBefore lo hi split rec_) s) s (fun u =>
        u.lanes = s.lanes ∧ u.ovl = s.ovl ∧ SameMemory s u)) ∧
    (∀ zone lane_ req z, (lane s (lane_ % 24)).claimOut = some (src, z, req) →
      Does (exec (.denyToken via src zone lane_ req) s) s (fun u => (lane u (lane_ % 24)).claimOut = none ∧ u.ovl = s.ovl ∧
        (∀ j, j ≠ lane_ % 24 → lane u j = lane s j) ∧ SameMemory s u)) ∧
    (∀ n, (lane s n).claimOut.any (fun c => reached s (c.2.2 + 20000)) = true →
      exec (.claimTimeout n) s =
        .next (holding s (satInc (updLane s n (fun l => { l with claimOut := none })) OVL_CLAIM_TIMEOUTS))) ∧
    (∀ n, (lane s n).claimOut.any (fun c => reached s (c.2.2 + 20000)) = false → exec (.claimTimeout n) s = .next (holding s s)) ∧
    (∀ seg lane_ vid resumeAt, s.ovl.pool.any (heldBy lane_ vid seg) = true →
      Does (exec (.returnToken via src seg lane_ vid resumeAt) s) s (fun u => u.ovl.pool.any (heldBy lane_ vid seg) = false ∧
        u.ovl.pool.length = s.ovl.pool.length ∧ u.lanes = s.lanes ∧ SameMemory s u)) ∧
    (∀ seg lane_ vid endTime e, s.ovl.pool.find? (heldBy lane_ vid seg) = some e →
      Does (exec (.doneToken via src seg lane_ vid endTime) s) s (fun u =>
        u.ovl.pool = s.ovl.pool.filter (fun e => !heldBy lane_ vid seg e) ∧ SameMemory s u)) ∧
    (∀ recs, Does (exec (.positionToken via src recs) s) s (fun u => u.ovl.border = mset s.ovl.border src (posRecords recs) ∧
      u.ovl.stale.testBit src = false ∧ u.lanes = s.lanes ∧ SameMemory s u)) ∧
    (∀ peer, (mget [] s.ovl.border peer).isEmpty = false → s.ovl.stale.testBit peer = false →
      reached s (mget 0 s.ovl.heard peer + 20000) = true →
      exec (.peerStale peer) s = .next (holding s (event (staleShow s (natSet s.ovl.stale peer)) srcDevice 0x1304 (leBytes 1 peer))))

/-- The device's own estimates and the overlap settings (R271, R280, R292 to R294): ESTIMATE_SEND tells every peer; estimates that have grown old
show; a withdrawal ends when no device has had an excessive error for 1 ms; OVERLAP_SET, PLUME_SET and STITCH_SET stage their
fields. -/
def Claim.OverlapCommands : Prop :=
  (∀ s : State, Clocked s →
    (∀ lanes, Does (exec (.estimateSend lanes) s) s (fun u => u.lanes = s.lanes ∧ u.ovl = s.ovl ∧ SameMemory s u)) ∧
    exec .estStale s = .next (holding s (estShow s)) ∧
    (s.ovl.excess = 0 → s.ovl.excessAt + 1000000 ≤ now s → Does (exec .withdrawalEnd s) s (fun u => withdrawn u = false ∧ (∀ a, a ≠ OVL_STS → rd u a = rd s a) ∧
      { u with regs := s.regs } = s)) ∧
    (s.ovl.excess ≠ 0 ∨ now s < s.ovl.excessAt + 1000000 → exec .withdrawalEnd s = .next (holding s s))) ∧
  (∀ (s : State) (h : Issue), Starts s h 48 →
    let a := accept s h
    (∀ margin horizon lookahead estP markOvh jumpOvh, margin < 65536 → horizon < 65536 → lookahead < 65536 → estP < 256 →
      Spelled s h 0x0302 (.overlapSet h 0 margin horizon lookahead estP markOvh jumpOvh 0 0 0 0 0 0 0 0 []) →
      Completes (exec (.overlapSet h 0 margin horizon lookahead estP markOvh jumpOvh 0 0 0 0 0 0 0 0 []) s) s h 0x0302 .ok 0 0 0 0 (fun u =>
        bitsOf (shadowOf u OVL_CFG) 31 16 = margin ∧ bitsOf (shadowOf u OVL_CFG) 15 0 = horizon ∧
        bitsOf (shadowOf u OVL_CFG2) 31 16 = lookahead ∧ bitsOf (shadowOf u OVL_CFG2) 7 0 = estP ∧
        shadowOf u OVL_MARK_OVH = BitVec.ofNat 32 markOvh ∧ shadowOf u OVL_JUMP_OVH = BitVec.ofNat 32 jumpOvh ∧
        u.dirty.testBit 5 = true ∧ u.regs = a.regs ∧ SameMemory a u)) ∧
    (∀ zone en lx ly, zone < 64 → en < 2 →
      Spelled s h 0x0302 (.overlapSet h 1 0 0 0 0 0 0 zone en lx ly 0 0 0 0 []) →
      Completes (exec (.overlapSet h 1 0 0 0 0 0 0 zone en lx ly 0 0 0 0 []) s) s h 0x0302 .ok 0 0 0 0 (fun u =>
        bitsOf (shadowOf u (ZONE_CFG zone)) 31 31 = en ∧ shadowOf u (ZONE_LINE_X zone) = BitVec.ofInt 32 lx ∧
        shadowOf u (ZONE_LINE_Y zone) = BitVec.ofInt 32 ly ∧ u.dirty.testBit 5 = true ∧ u.regs = a.regs ∧ SameMemory a u)) ∧
    (∀ enable depth length half skip border, enable < 2 → 1 ≤ depth → depth ≤ 64 → skip < 2 ^ 24 → border < 2 ^ 24 →
      Spelled s h 0x0303 (.plumeSet h enable depth 0 0 length half skip border) →
      Completes (exec (.plumeSet h enable depth 0 0 length half skip border) s) s h 0x0303 .ok 0 0 0 0 (fun u =>
        bitsOf (shadowOf u PLM_CFG) 31 31 = enable ∧ bitsOf (shadowOf u PLM_CFG) 6 0 = depth ∧
        shadowOf u PLM_LENGTH = BitVec.ofNat 32 length ∧ shadowOf u PLM_HALF_WIDTH = BitVec.ofNat 32 half ∧
        bitsOf (shadowOf u PLM_SKIP_MASK) 23 0 = skip ∧ bitsOf (shadowOf u PLM_BORDER_MASK) 23 0 = border ∧
        u.dirty.testBit 5 = true ∧ u.regs = a.regs ∧ SameMemory a u)) ∧
    (∀ zone overlap amp, zone < 64 → 1 ≤ overlap → overlap ≤ 255 → amp ≤ 1023 →
      Spelled s h 0x0304 (.stitchSet h zone overlap amp) →
      Completes (exec (.stitchSet h zone overlap amp) s) s h 0x0304 .ok 0 0 0 0 (fun u =>
        bitsOf (shadowOf u (ZONE_CFG zone)) 7 0 = overlap ∧ bitsOf (shadowOf u (ZONE_CFG zone)) 25 16 = amp ∧
        u.dirty.testBit 5 = true ∧ u.regs = a.regs ∧ SameMemory a u)))

/-! ### Photodiode inputs -/

/-- Photodiode commands (R307 to R309): AFE_SET stages; AFE_CALIBRATE makes every named input's run pending and waits; the values are read as records of
32 bytes and written at the boundary when every record is good. -/
def Claim.AfeCommands : Prop :=
  ∀ (s : State) (h : Issue), Starts s h 48 →
    let a := accept s h
    (∀ n flags calDelta offSettle satCode darkMin, n < 24 → domOn a (afeDom n) = true → flags < 8 → 1 ≤ calDelta → calDelta ≤ 30 →
      offSettle < 256 → 32768 ≤ satCode → satCode < 65536 → 16 ≤ darkMin → darkMin < 65536 → Spelled s h 0x0401 (.afeSet h n flags calDelta offSettle satCode darkMin) →
      Completes (exec (.afeSet h n flags calDelta offSettle satCode darkMin) s) s h 0x0401 .ok 0 0 0 0 (fun u =>
        bitsOf (shadowOf u (AFE_CFG n)) 31 24 = calDelta ∧ bitsOf (shadowOf u (AFE_CFG n)) 23 16 = offSettle ∧
        bitsOf (shadowOf u (AFE_CFG n)) 2 0 = flags ∧ bitsOf (shadowOf u (AFE_LIMITS n)) 15 0 = satCode ∧
        bitsOf (shadowOf u (AFE_LIMITS n)) 31 16 = darkMin ∧ u.dirty.testBit 6 = true ∧ u.regs = a.regs ∧ SameMemory a u)) ∧
    (∀ n i mode, n < 24 → i < 2 → mode < 2 → domOn a (afeDom n) = true → afeEn a n i = true → (afeIn a n i).run = none →
      (afeIn a n i).pend = none → Spelled s h 0x0402 (.afeCalibrate h (1 <<< n) (1 <<< i) mode) →
      ∃ u aux, exec (.afeCalibrate h (1 <<< n) (1 <<< i) mode) s = .next (holding s (startRun u h 0x0402 0 aux)) ∧
        (afeIn u n i).pend = some (now a) ∧ (afeIn u n i).now1 = (mode == 1) ∧ afeBit u n i 2 = true ∧ SameMemory a u) ∧
    (∀ first cnt addr, first < 24 → 1 ≤ cnt → first + cnt ≤ 24 → hostAddrOk h addr 32 = true →
      Spelled s h 0x0403 (.calValuesRead h first cnt addr) →
      exec (.calValuesRead h first cnt addr) s = .next (holding s (complete (hostResult a addr
        ((List.range cnt).flatMap (fun k => afeRecord a (first + k) 0 ++ afeRecord a (first + k) 1))) h 0x0403 .ok (2 * cnt) 0 0 0))) ∧
    (∀ cnt addr, 1 ≤ cnt → cnt ≤ 48 → addr % 32 = 0 → inHostArea a addr (32 * cnt) = true → dramOk a addr (32 * cnt) = true →
      let rs := (List.range cnt).map (fun j => ((dramBytes a addr (32 * cnt)).drop (32 * j)).take 32)
      afePass1 rs [] 0 = none → (∀ r ∈ rs, domOn a (afeDom (leAt r 0 1)) = true) →
      Spelled s h 0x0404 (.calValuesWrite h cnt 1 addr []) →
      RunsOn (exec (.calValuesWrite h cnt 1 addr []) s) s h 0x0404 0 (rs.flatMap afeVals) (fun u => u = a))

/-- Calibration runs (R302, R305, R306): a pending run starts with MODE 1 at once and at its deadline of 50 ms whatever the lane does; its
start clears PENDING and sets RUNNING; the sums of a run that ends, 64 µs after its start, give its results. -/
def Claim.CalibrationRuns : Prop :=
  ∀ (s : State) (n i : Nat), Clocked s → n < 24 → i < 2 → domOn s (afeDom n) = true →
    let started (u : State) : Prop := (afeIn u n i).run = some (now s) ∧ (afeIn u n i).pend = none ∧ afeBit u n i 2 = false ∧
      afeBit u n i 3 = true ∧ (∀ j, j ≠ n → lane u j = lane s j) ∧ SameMemory s u
    ((afeIn s n i).pend.isSome = true → (afeIn s n i).now1 = true → Does (exec (.calibrationRunStart n) s) s started) ∧
    ((afeIn s n i).pend.any (fun t => decide (t + 50000000 ≤ now s)) = true → Does (exec (.calDeadline n i) s) s started) ∧
    (∀ r, (afeIn s n 0).run = some r → reached s (r + 64000) = true → (afeIn s n 0).result = none → (afeIn s n 1).run = none →
      ∀ pd0 pd1, exec (.calibrationRunEnd n pd0 pd1) s = .next (holding s (afeCompute s n 0 pd0)))

/-! ### Cameras -/

/-- Camera commands (R324, R329, R330, R333): CSI_PORT_SET sets an idle port; CONTEXT_SET and STATS_ROUTE check the settings and
capture them for the context's next frame, and a failed check reports its code and changes nothing. -/
def Claim.CameraCommands : Prop :=
  ∀ (s : State) (h : Issue), Starts s h 48 →
    let a := accept s h
    (∀ port lanes rate scl, port < 6 → 1 ≤ lanes → lanes ≤ 4 → 80 ≤ rate → rate ≤ 2500 → 100 ≤ scl → scl ≤ 1000 →
      domOn a (2 + port) = true → camIdle a port = true →
      Spelled s h 0x0405 (.csiPortSet h port lanes rate 0 scl) →
      Completes (exec (.csiPortSet h port lanes rate 0 scl) s) s h 0x0405 .ok 0 0 0 0 (fun u =>
        fld u (CAM_CFG port) 27 16 = rate ∧ fld u (CAM_CFG port) 1 0 = lanes - 1 ∧ fld u (CAM_BUS_CFG port) 15 0 = scl ∧
        flag u (CAM_BUS_CFG port) 31 = false ∧ (∀ r, r ≠ CAM_CFG port → r ≠ CAM_BUS_CFG port → rd u r = rd a r) ∧ SameMemory a u)) ∧
    (∀ c fields, c < 32 → fields.all (· == 0) = true → (ctx a c).commit = none → Spelled s h 0x0406 (.contextSet h c 0 0 fields []) →
      ((ctxChecks a c (ctxShadow a c)).all (·.2) = true →
        RunsOn (exec (.contextSet h c 0 0 fields []) s) s h 0x0406 c [0] (fun u =>
          (ctx u c).commit = some ((fld a (ISP_CTX_STS c) 15 0 + 1) % 65536, ctxShadow a c) ∧ flag u (ISP_CTX_STS2 c) 3 = true ∧
          (∀ r, r ≠ ISP_CTX_STS2 c → rd u r = rd a r) ∧ (∀ j, j ≠ c → ctx u j = ctx a j) ∧ SameMemory a u)) ∧
      (∀ k, (ctxChecks a c (ctxShadow a c)).find? (fun k => !k.2) = some k →
        exec (.contextSet h c 0 0 fields []) s = .next (holding s (complete a h 0x0406 .badParam 0 (k.1 * 65536) 0 0)))) ∧
    (∀ c n routes metric, c < 32 → n < 24 → routes < 8 → metric < 4 → (ctx a c).commit = none →
      let b := { a with shadow := mset a.shadow (ISP_CTX_ROUTE c) (BitVec.ofNat 32 (n * 256 + metric * 64 + routes)) }
      (ctxChecks b c (ctxShadow b c)).all (·.2) = true → Spelled s h 0x0407 (.statsRoute h c n routes metric) →
      RunsOn (exec (.statsRoute h c n routes metric) s) s h 0x0407 c [0] (fun u =>
        (ctx u c).commit = some ((fld a (ISP_CTX_STS c) 15 0 + 1) % 65536, ctxShadow b c) ∧ SameMemory a u))

/-- Frames (R312, R315, R316, R319 to R321, R330): a packet shows the state of the PHY; a Frame Start, a Frame End or a line on a channel
without a context is counted; a Frame Start on one with a context begins the next frame at its time; a packet with an uncorrectable
header or a bad CRC truncates the frame; a line joins it; Frame End closes it with its time. -/
def Claim.CameraFrames : Prop :=
  ∀ (s : State) (port vc phy : Nat), Clocked s → port < 6 → domOn s (2 + port) = true →
    let b := phyShow s port phy
    (framesVc s port vc = [] →
      (∀ csi ns, exec (.frameStart port vc csi false phy ns) s = .next (holding s (satInc b (CAM_IGNORED port)))) ∧
      (∀ ns, exec (.frameEnd port vc false phy ns) s = .next (holding s (satInc b (CAM_IGNORED port)))) ∧
      (∀ dt data, exec (.longPacket port vc dt 0 true data phy) s = .next (holding s (satInc b (CAM_IGNORED port))))) ∧
    (∀ c, framesVc s port vc = [c] → boundVc s port vc = [c] → (ctx s c).commit = none → openFrame s c = none →
      ∀ csi ns, exec (.frameStart port vc csi false phy ns) s = .next (holding s (newFrame b c csi (eventNs s ns)))) ∧
    (∀ c f, openVc s port vc = [c] → openFrame s c = some f →
      (∀ dt data, csDt f.set = dt →
        exec (.longPacket port vc dt 0 true data phy) s = .next (holding s (lineIn b c f data)) ∧
        exec (.longPacket port vc dt 0 false data phy) s = .next (holding s (truncate (satInc b (CAM_CRC_ERR port)) c 2))) ∧
      (framesVc s port vc = [c] → f.lines = csHeight f.set → ∀ ns,
        Does (exec (.frameEnd port vc false phy ns) s) s (fun u => u.regs = b.regs ∧ SameMemory s u ∧
          (ctx u c).lastEnd = rdN s (ISP_CTX_FRAME c) ∧
          (ctx u c).frames.getLast?.map (·.feTime) = some (some (eventNs s ns))))) ∧
    (∀ dt data, Does (exec (.longPacket port vc dt 2 true data phy) s) s (fun u =>
      (∀ c f, c < 32 → openFrame s c = some f → csPort f.set = port → openFrame u c = none) ∧ SameMemory s u ∧ u.lanes = s.lanes))

/-- The camera pipeline and its records (R314, R317, R320, R322, R323, R325 to R329): while the lines taken last no further one than to the
next boundary a line in an input buffer is served in turn; a frame that is ready
writes its record of 4 KiB to its context's slot in SRAM and nowhere else; its oldest undelivered record is delivered at a boundary after
it; a frame that does not come in time gives L1 a held sample; sensor writes that were acknowledged take effect from a later frame,
one that was not ends them; writes not sent within 100 ms mark the commit. -/
def Claim.CameraRecords : Prop :=
  ∀ (s : State) (c : Nat), Clocked s → c < 32 →
    (∀ p, domOn s (8 + p) = true → ctxs.any (hasLine s p) = true →
      ((pipe s p).busyTo < nowFs s + tickFs s → exec (.pipelineLine p) s = .next (holding s (drr p 1152 s (pipe s p).turn))) ∧
      (nowFs s + tickFs s ≤ (pipe s p).busyTo → exec (.pipelineLine p) s = .next (holding s s))) ∧
    (∀ f fs, (ctx s c).frames = f :: fs → frameReady f = true → sampled s f = true →
      Does (exec (.statsRecordReady c) s) s (fun u =>
        let slot := 0x1500000 + c * 0x4000 + f.frame % 4 * 0x1000
        (∀ b, b < slot ∨ slot + 4096 ≤ b → sramBytes u b 1 = sramBytes s b 1) ∧ leNat (sramBytes u slot 4) = f.frame % 2 ^ 32 ∧
        (ctx u c).frames = fs ∧ u.dram = s.dram ∧ u.host = s.host ∧ u.lanes = s.lanes)) ∧
    (∀ r rs, (ctx s c).out = r :: rs → r.ready < now s → r.routes = 0 →
      Does (exec (.statsDelivery c) s) s (fun u => (ctx u c).out = rs ∧ u.regs = s.regs ∧ u.lanes = s.lanes ∧ SameMemory s u)) ∧
    (∀ r rs, (ctx s c).out = r :: rs → r.ready < now s → r.routes = 1 →
      Does (exec (.statsDelivery c) s) s (fun u => (ctx u c).out = rs ∧
        (lane u r.lane).l1In = some (recUsable r.status && r.status.testBit 5, (r.metric : Int)) ∧ u.regs = s.regs ∧ SameMemory s u)) ∧
    (watchOver s c = true → (ctx s c).commit = none →
      Does (exec (.frameTimeout c) s) s (fun u => flag u (ISP_CTX_STS2 c) 0 = true ∧ SameMemory s u ∧
        (flag s (ISP_CTX_ROUTE c) 0 = true → fld s (ISP_CTX_ROUTE c) 15 8 < 24 →
          (lane u (fld s (ISP_CTX_ROUTE c) 15 8)).l1In = some (false, 0)))) ∧
    (watchOver s c = false → exec (.frameTimeout c) s = .next (holding s s)) ∧
    (∀ b base acked, (ctx s c).writes = [b] → b.first = none → b.base = some base →
      domOn s (2 + fld s (ISP_CTX_CFG c) 25 23) = true →
      (b.items.length ≤ acked → Does (exec (.sensorWrites c acked) s) s (fun u => flag u (ISP_CTX_STS2 c) 2 = false ∧ SameMemory s u ∧
        (ctx u c).writes = [{ b with first := some (base + 1 + fld s (ISP_CTX_TIMING c) 31 30 +
          b2n (flag s (ISP_CTX_CFG c) 31 && decide (base < rdN s (ISP_CTX_FRAME c)))) }])) ∧
      (acked < b.items.length → Does (exec (.sensorWrites c acked) s) s (fun u => flag u (ISP_CTX_STS2 c) 2 = true ∧
        (ctx u c).writes = [] ∧ SameMemory s u))) ∧
    (∀ gen ws b, (ctx s c).commit = some (gen, ws) → (ctx s c).writes = [b] → b.gen = gen → b.first = none →
      reached s ((ctx s c).commitAt + 100000000) = true →
      exec (.contextWriteTimeout c) s = .next (holding s (updCtx s c (fun x => { x with overdue := true }))))

/-! ### Jobs and layer images -/

/-- Jobs and their tables (R148 to R150, R161, R165, R166): JOB_OPEN takes the areas, empties the tables, begins the
fill of the burn map and leaves the layer IDLE; JOB_CLOSE drops all of
it; RECIPE_LOAD, whose table lies in SRAM, and LANESET_LOAD take every entry or, when one fails its check, none, and name
the first that failed. -/
def Claim.JobsAndTables : Prop :=
  ∀ (s : State) (h : Issue), Starts s h 48 →
    let a := accept s h
    (∀ id hb hl db dl, 1 ≤ id → hb % 2 ^ 20 = 0 → hl % 2 ^ 20 = 0 → db % 2 ^ 20 = 0 → dl % 2 ^ 20 = 0 → 2 ^ 20 ≤ hl → 2 ^ 24 ≤ dl →
      hb + hl ≤ db ∨ db + dl ≤ hb → a.seq.job = none → areaOk a hb hl = true → areaOk a db dl = true →
      Spelled s h 0x0101 (.jobOpen h id hb hl db dl) →
      Completes (exec (.jobOpen h id hb hl db dl) s) s h 0x0101 .ok id 0 0 0 (fun u => u.seq.job = some id ∧ u.seq.hostBase = hb ∧
        u.seq.hostLen = hl ∧ u.seq.devBase = db ∧ u.seq.devLen = dl ∧ u.seq.recipes = [] ∧ u.seq.laneSets = [] ∧
        layerSt u = stIdle ∧ u.burn.fill = true ∧ burnBusy u = true ∧ (∀ r, r ≠ SEQ_STS → r ≠ BURN_STS → rd u r = rd a r) ∧
        u.lanes = a.lanes ∧ SameMemory a u)) ∧
    (∀ id, a.seq.job = some id → layerSt a = stIdle ∨ layerSt a = stDone ∨ layerSt a = stAborted →
      Spelled s h 0x0102 (.jobClose h id) →
      Completes (exec (.jobClose h id) s) s h 0x0102 .ok 0 0 0 0 (fun u => u.seq.job = none ∧ u.seq.recipes = [] ∧ u.seq.laneSets = [] ∧
        u.seq.held = none ∧ layerSt u = stIdle ∧ rdN u SEQ_LAYER = 0 ∧ u.lanes = a.lanes ∧ SameMemory a u)) ∧
    (∀ first cnt addr, first < 1024 → 1 ≤ cnt → first + cnt ≤ 1024 → addr % 64 = 0 → inHostArea a addr (64 * cnt) = true →
      tablesOpen a = true → dramOk a addr (64 * cnt) = true →
      Spelled s h 0x0103 (.recipeLoad h first cnt 1 addr []) →
      let b := dramBytes a addr (64 * cnt)
      (∀ i, (List.range cnt).find? (fun i => !recipeOk (slice b i 64) (first + i)) = some i →
        exec (.recipeLoad h first cnt 1 addr []) s = .next (holding s (complete a h 0x0103 .badParam 0 i 0 0))) ∧
      ((List.range cnt).find? (fun i => !recipeOk (slice b i 64) (first + i)) = none →
        ∃ r0, Completes (exec (.recipeLoad h first cnt 1 addr []) s) s h 0x0103 .ok r0 0 0 0 (fun u =>
          (∀ i, i < cnt → recipeOf u (first + i) = recipeAt (slice b i 64)) ∧
          (∀ k, k < first ∨ first + cnt ≤ k → recipeOf u k = recipeOf a k) ∧ sramBytes u (recipeTable + 64 * first) (64 * cnt) = b ∧
          (∀ x, x < recipeTable + 64 * first ∨ recipeTable + 64 * (first + cnt) ≤ x → sramBytes u x 1 = sramBytes a x 1) ∧
          u.regs = a.regs ∧ u.lanes = a.lanes ∧ u.dram = a.dram ∧ u.host = a.host))) ∧
    (∀ first cnt inl, 1 ≤ first → 1 ≤ cnt → cnt ≤ 4 → first + cnt ≤ 256 → tablesOpen a = true →
      Spelled s h 0x0104 (.lanesetLoad h first cnt 2 0 inl []) →
      let sets (i : Nat) : List Nat := (List.range 4).map (fun c => leAt (inl.map (BitVec.ofNat 8)) (8 * i + 2 * c) 2)
      (∀ i, (List.range cnt).find? (fun i => !laneSetOk (ownAddr a) (sets i)) = some i →
        exec (.lanesetLoad h first cnt 2 0 inl []) s = .next (holding s (complete a h 0x0104 .badParam 0 i 0 0))) ∧
      ((List.range cnt).find? (fun i => !laneSetOk (ownAddr a) (sets i)) = none →
        ∃ r0, Completes (exec (.lanesetLoad h first cnt 2 0 inl []) s) s h 0x0104 .ok r0 0 0 0 (fun u =>
          (∀ i, i < cnt → mget [] u.seq.laneSets (first + i) = sets i) ∧ u.regs = a.regs ∧ u.lanes = a.lanes ∧ SameMemory a u)))

/-- Loading and refill (R171, R176, R180, R181): LAYER_LOAD drops the layer held and runs; the end of the pass reports what it found, and the layer is held
and LOADED exactly when every check passed; a refill chunk adds to one lane of its quad, the one with the fewest records left. -/
def Claim.LoadingAndRefill : Prop :=
  (∀ (s : State) (h : Issue), Starts s h 48 →
    let a := accept s h
    ∀ addr layer, a.seq.job.isSome = true → quietLayer a = true → Spelled s h 0x0105 (.layerLoad h addr layer) →
      RunsOn (exec (.layerLoad h addr layer) s) s h 0x0105 0 [layer] (fun u => layerSt u = stLoading ∧ u.seq.held = none ∧
        u.seq.loading = some addr ∧ rdN u SEQ_LAYER = 0 ∧ u.lanes = a.lanes ∧ SameMemory a u)) ∧
  (∀ (s : State), Clocked s →
    (∀ addr r badLane badIdx, s.seq.loading = some addr → findRun s 0x0105 0 = some r → layerSt s = stLoading → s.seq.loadBad = false →
      let e := loadPass s addr (r.aux.headD 0)
      ∃ u, exec (.loadPassEnd badLane badIdx) s = .next (holding s (finishRun u 0x0105 0 e.st e.code e.lane e.idx e.total)) ∧
        layerSt u = (if e.st = .ok then stLoaded else stIdle) ∧ u.seq.loading = none ∧
        (e.st = .ok → ∃ l, u.seq.held = some l ∧ l.laneMask = leAt (dramBytes s addr 1024) 12 4 ∧
          rd u SEQ_LAYER = BitVec.ofNat 32 (leAt (dramBytes s addr 1024) 8 4)) ∧
        (e.st ≠ .ok → u.seq.held = s.seq.held) ∧ u.lanes = s.lanes ∧ SameMemory s u) ∧
    (∀ q bad n e l, inLayer s = true → refillLane s q = some n → streamOf s n = some e → s.seq.held = some l →
      ∃ u, exec (.refillChunk q bad) s = .next (holding s (primeDone (poolShow (fillShow u n)))) ∧
        (∀ j, j ≠ n → lane u j = lane s j) ∧ fld u (CMP_Q_STS q) 7 0 = n % 256) ∧
    (∀ q bad, inLayer s = true → refillLane s q = none →
      exec (.refillChunk q bad) s = .next (holding s (setFld s (CMP_Q_STS q) 7 0 0xFF))))

/-! ### Layer sequencing -/

/-- The layer commands (R178, R182 to R184, R190, R193, R195): LAYER_ARM reports the first check that fails with its order and lane, or prepares the layer; LAYER_EXPOSE
and RESUME report their START to the group and wait for it, or are rejected when a peer has reported another; STOP_BATH and LAYER_ABORT wait for their boundary; a
STOP_BATH in PAUSED has nothing to do. -/
def Obligations.LayerCommands : Prop :=
  ∀ (s : State) (h : Issue), Starts s h 48 →
    let a := accept s h
    (∀ layer peers k st n, armFails a layer peers = some (k, st, n) → Spelled s h 0x0106 (.layerArm h layer peers) →
      exec (.layerArm h layer peers) s = .next (holding s (complete a h 0x0106 st 0 k n 0))) ∧
    (∀ layer peers, armFails a layer peers = none → Spelled s h 0x0106 (.layerArm h layer peers) →
      exec (.layerArm h layer peers) s = .next (holding s (primeDone (startRun (armNow a peers) h 0x0106 0 [])))) ∧
    (∀ layer start, layerMatch a layer = true → now a + 50000 ≤ start → startFaulted a = false → a.thm.paused = false →
      a.seq.start = none →
      (startDiffers a start = true → layerSt a = stArmed → Spelled s h 0x0107 (.layerExpose h layer start) →
        exec (.layerExpose h layer start) s = .next (holding s (fail (startRefused a start) h 0x0107 .cfgRejected))) ∧
      (startDiffers a start = false → layerSt a = stArmed → Spelled s h 0x0107 (.layerExpose h layer start) →
        RunsOn (exec (.layerExpose h layer start) s) s h 0x0107 0 [] (fun u =>
        u.seq.start = some (start, false) ∧ flag u SEQ_STS 5 = true ∧ layerSt u = stArmed ∧ u.lanes = a.lanes ∧ SameMemory a u)) ∧
      (startDiffers a start = false → layerSt a = stPaused → Spelled s h 0x0109 (.resume h layer start) →
        RunsOn (exec (.resume h layer start) s) s h 0x0109 0 [] (fun u =>
        u.seq.start = some (start, true) ∧ flag u SEQ_STS 5 = true ∧ layerSt u = stPaused ∧ u.lanes = a.lanes ∧ SameMemory a u))) ∧
    (layerSt a = stExposing → Spelled s h 0x0108 (.stopBath h 0) → exec (.stopBath h 0) s =
      .next (holding s (startRun { a with seq := { a.seq with stopReq := true } } h 0x0108 0 []))) ∧
    (layerSt a = stPaused → Spelled s h 0x0108 (.stopBath h 0) → exec (.stopBath h 0) s = .next (holding s (complete a h 0x0108 .ok 0 0 0 0))) ∧
    (stLoading ≤ layerSt a → layerSt a ≤ stPaused → a.seq.abortReq = none → Spelled s h 0x010A (.layerAbort h 0) →
      RunsOn (exec (.layerAbort h 0) s) s h 0x010A 0 [] (fun u => u = { a with seq := { a.seq with abortReq := some ⟨1, 0⟩ } })) ∧
    (∀ layer addr dev, Spelled s h 0x010B (.contactSheetRead h layer addr) → a.seq.lastDev = some dev → hostAddrOk h addr 64 = true → dramOk a (sheetSlot dev layer) 6656 = true →
      let b := dramBytes a (sheetSlot dev layer) 6656
      leAt b 8 4 = layer → crc32c (b.take 508) ≠ leAt b 508 4 →
      exec (.contactSheetRead h layer addr) s = .next (holding s (complete (hostResult a addr b) h 0x010B .dataCrc 0 0 0 0)))

/-- The layer's boundaries (R178, R183, R190 to R193): a start that is due takes every lane of the layer to work from the same boundary with the ledger's ceiling at
its total; a stop bath takes each lane as its phase asks; it ends in PAUSED when all have parked, with its results; and it may not
last too long. -/
def Claim.LayerBoundaries : Prop :=
  ∀ s : State, Clocked s →
    (∀ t, s.seq.start = some (t, false) → layerSt s = stArmed → t ≤ now s →
      ∃ u, exec .layerStart s = .next (holding s (lanes24.foldl laneGo (ledgerStart u))) ∧ layerSt u = stExposing ∧
        flag u SEQ_STS 5 = false ∧ u.seq.start = none ∧ u.seq.started = true ∧ u.seq.startTick = tickNo s ∧
        rd u SEQ_START_LO = BitVec.ofNat 32 (now s) ∧ u.lanes = s.lanes ∧ SameMemory s u) ∧
    (∀ t, s.seq.start = some (t, true) → layerSt s = stPaused → t ≤ now s →
      ∃ u, exec .resumeStart s = .next (holding s (finishRun (lanes24.foldl resumeLane (ledgerStart u)) 0x0109 0 .ok 0 0 0 0)) ∧
        layerSt u = stExposing ∧ flag u SEQ_STS 5 = false ∧ u.seq.start = none ∧
        u.seq.pausedNs = s.seq.pausedNs + (now s - s.seq.stopAt) ∧ u.lanes = s.lanes ∧ SameMemory s u) ∧
    (layerSt s = stExposing → s.seq.stopReq = true → s.seq.abortReq = none → resolved s = false →
      ∃ u, exec .stopBathEffect s =
          .next (holding s (poolShow (lanes24.foldl (fun s n => if laneInLayer s n then bathLane s n else s) u))) ∧
        layerSt u = stStopBath ∧ u.seq.stopReq = false ∧ u.seq.stopAt = now s ∧ u.seq.stopBaths = s.seq.stopBaths + 1 ∧
        u.lanes = s.lanes ∧ SameMemory s u) ∧
    (layerSt s = stStopBath → allParked s = true →
      Does (exec .stopBathEnd s) s (fun u => layerSt u = stPaused ∧ u.lanes = s.lanes ∧ u.sram = s.sram ∧ u.dram = s.dram ∧
        u.ledger.grants = s.ledger.grants.filter (fun g => g.slot != 3))) ∧
    (layerSt s = stStopBath → allParked s = true → exec .stopTimeout s = .next (holding s s)) ∧
    (layerSt s = stStopBath → reached s (s.seq.stopAt + fld s SEQ_STOP_CFG 19 16 * 1000000) = false →
      exec .stopTimeout s = .next (holding s s)) ∧
    (layerSt s = stStopBath → reached s (s.seq.stopAt + fld s SEQ_STOP_CFG 19 16 * 1000000) = true →
      exec .stopTimeout s = .next (holding s (lanes24.foldl (fun s n =>
        if laneInLayer s n && !((lane s n).phase == .parked || (lane s n).phase == .halted || (lane s n).phase == .ended ||
          (lane s n).phase == .idle) then raiseOnce s clsLane 0x0103 (srcLane n) [] else s) s)))

/-- Ends of a layer (R179, R182, R185, R189, R193, R195): an abort that is due leaves the layer ABORTED and one whose work is resolved DONE, with
nothing in the ledger's grants or the pools and no start pending; repeated underruns are a fault of their lane; and a
lane at rest after an underrun goes on once its buffer holds enough. -/
def Claim.LayerEnds : Prop :=
  ∀ s : State, Clocked s →
    (∀ c, s.seq.abortReq = some c → stLoading ≤ layerSt s → layerSt s ≤ stPaused →
      c.cause ≠ 1 ∨ layerSt s ≠ stExposing ∨ resolved s = false →
      Does (exec .abortEffect s) s (fun u => layerSt u = stAborted ∧ u.seq.abortReq = none ∧
        (stArmed ≤ layerSt s → u.ovl.pool = [] ∧ u.ovl.claims = [] ∧ u.seq.start = none))) ∧
    (layerSt s = stExposing → resolved s = true → (∀ c, s.seq.abortReq = some c → c.cause ≠ 2) →
      Does (exec .layerDone s) s (fun u => layerSt u = stDone ∧ u.ovl.pool = [] ∧ u.seq.start = none ∧ u.seq.abortReq = none)) ∧
    (∀ n, inLayer s = true → fld s SEQ_CFG 15 8 < rdN s (LN_UNDERRUNS n) → (lane s n).phase ≠ .halted →
      exec (.underrunRepeat n) s = .next (holding s (raiseOnce s clsLane 0x0102 (srcLane n) []))) ∧
    (∀ n, layerSt s = stExposing → (lane s n).phase = .underrun → (lane s n).motion.dur ≤ (lane s n).motion.t → refilled s n = true →
      exec (.remarkStart n) s = .next (holding s (setPhase s n .free)))

/-! ### DMA, codecs and recording -/

/-- DMA commands (R493, R497, R502, R515): DMA_CHANNEL_SET waits for the boundary; DMA_START makes an idle channel ACTIVE at its first descriptor; DMA_STOP
ends the channels of its mask that have nothing in flight and lets the others finish, and touches no other. -/
def Claim.DmaCommands : Prop :=
  ∀ (s : State) (h : Issue), Starts s h 48 →
    let a := accept s h
    (∀ c priority rate, c < 32 → priority < 4 → rate < 256 → Spelled s h 0x0903 (.dmaChannelSet h c priority rate) →
      RunsOn (exec (.dmaChannelSet h c priority rate) s) s h 0x0903 c [] (fun u => u.regs = a.regs ∧ SameMemory a u ∧
        (DMA_CH_CFG c, setBits 0 1 0 3, setBits 0 1 0 priority) ∈ u.live ∧ (DMA_CH_CFG c, setBits 0 15 8 255, setBits 0 15 8 rate) ∈ u.live)) ∧
    (∀ c space addr, c < 32 → space < 3 → addr % 32 = 0 → addr < 2 ^ 64 → (space = 0 → h.ring ≠ 15) → flag a DMA_STS 0 = false → dmaState a c = 0 →
      Spelled s h 0x0904 (.dmaStart h c space addr) →
      ∃ u, exec (.dmaStart h c space addr) s = .next (holding s (dmaShow (startRun u h 0x0904 c []))) ∧ dmaState u c = 1 ∧
        rd64 u (DMA_CH_DESC_LO c) (DMA_CH_DESC_HI c) = addr ∧ rdN u (DMA_CH_REMAIN c) = 0 ∧ (dmaCh u c).space = space ∧
        (dmaCh u c).cur = none ∧ (dmaCh u c).flight = [] ∧ (∀ j, j < 32 → j ≠ c → dmaState u j = dmaState a j) ∧ SameMemory a u) ∧
    (∀ mask, 0 < mask → mask < 2 ^ 32 → Spelled s h 0x0905 (.dmaStop h mask) → Does (exec (.dmaStop h mask) s) s (fun u =>
      (∀ c, c < 32 → mask.testBit c = true → dmaState a c = 1 → dmaState u c = if (dmaCh a c).flight = [] then 0 else 2) ∧
      (∀ c, c < 32 → mask.testBit c = false ∨ dmaState a c ≠ 1 → dmaState u c = dmaState a c) ∧ u.sram = a.sram ∧ u.dram = a.dram))

/-- The DMA engine at work (R494 to R502): a good descriptor is taken and a bad one ends the chain with ending 6; a burst is issued for the channel
whose turn it is, in the next slot that its rate leaves it; one that lands is written, and waits where the host may not be written; a bus error stops every channel and records what failed. -/
def Claim.DmaWork : Prop :=
  ∀ (s : State) (c : Nat), Clocked s → c < 32 →
    (∀ bs, (dmaCh s c).cur = none → (dmaCh s c).pre = none → dmaState s c = 1 → ((dmaCh s c).space = 0 → canRequest s = true) →
      spaceRead s (dmaCh s c).space (rd64 s (DMA_CH_DESC_LO c) (DMA_CH_DESC_HI c)) 32 = some bs →
      (∀ k, dmaDesc bs = some k → dmaDescOk s (dmaCh s c).ring15 k = true → k.len < 2 ^ 32 →
        Does (exec (.descriptorFetch c) s) s (fun u => (dmaCh u c).cur = some k ∧ rdN u (DMA_CH_REMAIN c) = k.len ∧
          (∀ j, j ≠ c → dmaCh u j = dmaCh s j) ∧ SameMemory s u ∧ u.lanes = s.lanes)) ∧
      (dmaDesc bs = none → exec (.descriptorFetch c) s = .next (holding s (dmaEnd s c 6 false .badParam)))) ∧
    (dmaSlot s = none ∨ (∃ t, dmaSlot s = some t ∧ reached s t = false) →
      exec (.dmaBurst []) s = .next (holding s s) ∧ exec (.dmaBurst [c]) s = .next (holding s (dmaLand s c))) ∧
    (∀ t, dmaSlot s = some t → reached s t = true → dmaPick s t = some c → exec (.dmaBurst []) s = .next (holding s (dmaIssue s c t))) ∧
    (∀ b cur, (dmaCh s c).flight = [b] → (dmaCh s c).cur = some cur → b.space = 2 → dmaSlot s = none →
      Does (exec (.dmaBurst [c]) s) s (fun u => u.sram = (putSram s b.addr b.data).sram ∧ u.dram = s.dram ∧ u.lanes = s.lanes ∧ u.seq = s.seq)) ∧
    (∀ b rest cur, (dmaCh s c).flight = b :: rest → (dmaCh s c).cur = some cur → b.space = 0 → canRequest s = false → dmaSlot s = none →
      exec (.dmaBurst [c]) s = .next (holding s s)) ∧
    (∀ kind space addr, kind < 16 → space < 4 → addr < 2 ^ 64 → Does (exec (.busErr kind space addr []) s) s (fun u =>
      (∀ j, j < 32 → dmaState u j = 0) ∧ flag u DMA_STS 0 = true ∧ fld u DMA_STS 7 4 = kind ∧ fld u DMA_STS 3 2 = space ∧
      rd64 u DMA_ERR_ADDR_LO DMA_ERR_ADDR_HI = addr ∧ u.sram = s.sram ∧ u.dram = s.dram ∧ u.lanes = s.lanes))

/-- Codec commands (R507 to R509, R514, R515): a job starts on an idle codec, with a grant of the die ledger at full rate; CODEC_FLUSH ends a
segment of a recording; CODEC_RESUME continues a suspended job into new space or drops it. -/
def Claim.CodecCommands : Prop :=
  ∀ (s : State) (h : Issue) (g : Nat), Starts s h 48 → g < 2 →
    let a := accept s h
    domOn a 10 = true →
    (∀ format level rate inSpace outSpace inAddr outAddr inLen outLen,
      let j : Job := ⟨true, format, level, rate, inSpace, outSpace, inAddr, outAddr, inLen, outLen, 0, 0, [], [], 0⟩
      jobParams h j = true → (rate = 0 → dieGrants a 3 = true) → codecSt a g = 0 → (inSpace = 1 → dramOk a inAddr inLen = true) →
      (outSpace = 1 → dramOk a outAddr outLen = true) →
      Spelled s h 0x0906 (.compressJob h g format level rate inSpace outSpace inAddr outAddr inLen outLen) →
      RunsOn (exec (.compressJob h g format level rate inSpace outSpace inAddr outAddr inLen outLen) s) s h 0x0906 g [] (fun u =>
        codecSt u g = 1 ∧ jobOf u g = some j ∧ (rate = 0 → dieHolds u 3 g = true) ∧ SameMemory a u ∧ u.lanes = a.lanes)) ∧
    (∀ format rate inSpace outSpace inAddr outAddr inLen outLen ratio cap,
      let j : Job := ⟨false, format, 0, rate, inSpace, outSpace, inAddr, outAddr, inLen, outLen, ratio, cap, [], [], 0⟩
      jobParams h j = true → (rate = 0 → dieGrants a 3 = true) → codecSt a g = 0 → (inSpace = 1 → dramOk a inAddr inLen = true) →
      (outSpace = 1 → dramOk a outAddr outLen = true) →
      Spelled s h 0x0907 (.decompressJob h g format rate inSpace outSpace inAddr outAddr inLen outLen ratio cap) →
      RunsOn (exec (.decompressJob h g format rate inSpace outSpace inAddr outAddr inLen outLen ratio cap) s) s h 0x0907 g [] (fun u =>
        codecSt u g = 2 ∧ jobOf u g = some j ∧ (rate = 0 → dieHolds u 3 g = true) ∧ SameMemory a u ∧ u.lanes = a.lanes)) ∧
    (∀ used, codecSt a g = 4 → a.recording.stream = true → Spelled s h 0x0908 (.codecFlush h g used) →
      let b := recSegment a false
      exec (.codecFlush h g used) s =
        .next (holding s (complete b h 0x0908 .ok b.recording.input.length (recWrite b + b.recording.out.length) 0 0))) ∧
    (∀ used j data, codecSt a g = 1 → jobOf a g = some j → jobInput a j = some data → j.flushes = [] → j.written = 0 → j.outSpace = 1 →
      used ≤ j.inLen → Spelled s h 0x0908 (.codecFlush h g used) →
      let segs := j.segs ++ Config.deflated j.level (data.take used) [] false
      (frameHead j.format j.level ++ segs).length ≤ j.outLen → dramOk a j.outAddr (frameHead j.format j.level ++ segs).length = true →
      Completes (exec (.codecFlush h g used) s) s h 0x0908 .ok used (frameHead j.format j.level ++ segs).length 0 0 (fun u =>
        jobOf u g = some { j with segs := segs, flushes := [used] } ∧ codecSt u g = 1 ∧
        u.dram = (putDram a j.outAddr (frameHead j.format j.level ++ segs)).dram ∧ u.sram = a.sram ∧ u.lanes = a.lanes)) ∧
    (∀ j, codecSt a g = 3 → jobOf a g = some j →
      (Spelled s h 0x0909 (.codecResume h g 1 0 0 0 0) → Completes (exec (.codecResume h g 1 0 0 0 0) s) s h 0x0909 .ok (rdN a (CMP_G_IN_LO g)) (rdN a (CMP_G_OUT_LO g)) 0 0 (fun u =>
        codecSt u g = 0 ∧ (∀ r, r ≠ CMP_STS → rd u r = rd a r) ∧ SameMemory a u)) ∧
      (∀ outAddr outLen, 1 ≤ outLen → dramOk a outAddr outLen = true →
        Spelled s h 0x0909 (.codecResume h g 0 1 1 outAddr outLen) →
        RunsOn (exec (.codecResume h g 0 1 1 outAddr outLen) s) s h 0x0909 g [] (fun u => codecSt u g = (if j.comp then 1 else 2) ∧
          jobOf u g = some { j with rate := 1, outSpace := 1, outAddr := outAddr, outLen := outLen } ∧ SameMemory a u)))

/-- Codecs and recording at work (R504 to R508, R511, R513): a compress job whose output fits writes exactly it and ends OK; one
whose input cannot be read breaks off; every FLUSH_US the recording's flush ends a segment; the host's read offset frees the ring up to it. -/
def Claim.CodecWork : Prop :=
  ∀ (s : State) (g : Nat), Clocked s → g < 2 →
    (∀ j data used, jobOf s g = some j → codecSt s g = 1 ∨ codecSt s g = 2 → (j.inSpace = 0 ∨ j.outSpace = 0 → canRequest s = true) →
      jobInput s j = some data → exec (.codecJobEnd g 0 used) s = .next (holding s (jobRun s g j data))) ∧
    (∀ j data, jobOf s g = some j → codecSt s g = 1 → j.inSpace = 1 → j.outSpace = 1 → jobInput s j = some data → j.comp = true →
      j.written = 0 → (compAll j data).length ≤ j.outLen → dramOk s j.outAddr (compAll j data).length = true →
      Does (exec (.codecJobEnd g 0 0) s) s (fun u => codecSt u g = 0 ∧ dieHolds u 3 g = false ∧
        u.dram = (putDram s j.outAddr (compAll j data)).dram ∧ u.sram = s.sram ∧ u.lanes = s.lanes ∧ u.seq = s.seq)) ∧
    (∀ j cause used, jobOf s g = some j → codecRuns s g = true → (j.inSpace = 0 ∨ j.outSpace = 0 → canRequest s = true) →
      jobInput s j = none → exec (.codecJobEnd g cause used) s = .next (holding s (jobBreak s g .dmaError))) ∧
    (recDeflate s = true → s.recording.stream = true → reached s (s.recording.flushAt + fld s CMP_REC_FLUSH 15 0 * 1000) = true →
      exec .recordingFlush s = .next (holding s (recSegment { s with recording := { s.recording with flushAt := now s } } false))) ∧
    (reached s (s.recording.flushAt + fld s CMP_REC_FLUSH 15 0 * 1000) = false → exec .recordingFlush s = .next (holding s s)) ∧
    (∀ hi, domOn s 10 = true → exec (.cmpRecReadHi hi) s = .next (holding s (recReadHi s hi))) ∧
    (∀ hi, domOn s 10 = false → exec (.cmpRecReadHi hi) s = .next (holding s (setFlag s PWR_STS 31 true)))

/-! ### DRAM -/

/-- DRAM commands and training (R471 to R474, R487): DDR_TRAIN takes a grant, its channel's contents are lost and it trains; the end of training releases the
grant and leaves the channel TRAINED, or FAILED with what failed; DDR_CONFIG stages a channel's or the device's fields. -/
def Claim.DramCommands : Prop :=
  (∀ (s : State) (h : Issue), Starts s h 48 →
    let a := accept s h
    (∀ c, c < 2 → domOn a (11 + c) = true → chState a c ≠ chUnconfigured → chState a c ≠ chSelfRefresh → chState a c ≠ chTraining →
      a.seq.job = none → dieGrants a 0 = true → Spelled s h 0x0901 (.ddrTrain h c) →
      RunsOn (exec (.ddrTrain h c) s) s h 0x0901 c [] (fun u => chState u c = chTraining ∧ dieHolds u 0 c = true ∧
        flag u (DDR_CH_TRAIN c) 31 = false ∧ u.sram = a.sram ∧ u.host = a.host ∧ u.lanes = a.lanes)) ∧
    (∀ c rate ranks module_ width density, c < 2 → (ratesOf 1 ++ ratesOf 2).contains rate = true → ranks = 1 ∨ ranks = 2 → module_ < 2 →
      width = 8 ∨ width = 16 → (densitiesOf 1 ++ densitiesOf 2).contains density = true →
      Spelled s h 0x0902 (.ddrConfig h c 2 rate ranks module_ width density 0 0 0 0 0 0) →
      Completes (exec (.ddrConfig h c 2 rate ranks module_ width density 0 0 0 0 0 0) s) s h 0x0902 .ok 0 0 0 0 (fun u =>
        bitsOf (shadowOf u (DDR_CH_CFG c)) 31 16 = rate ∧ bitsOf (shadowOf u (DDR_CH_CFG c)) 13 12 = 2 ∧
        bitsOf (shadowOf u (DDR_CH_CFG c)) 8 8 = ranks - 1 ∧ bitsOf (shadowOf u (DDR_CH_CFG c)) 5 0 = density ∧
        u.dirty.testBit 12 = true ∧ u.regs = a.regs ∧ SameMemory a u)) ∧
    (∀ map_ scrubHours ageNs actLimit thresh scrubMs, map_ < 2 → 1 ≤ scrubHours → scrubHours < 256 → 250 ≤ ageNs → ageNs < 65536 →
      512 ≤ actLimit → actLimit < 65536 → 1 ≤ thresh → thresh < 256 → 100 ≤ scrubMs → scrubMs ≤ 60000 →
      Spelled s h 0x0902 (.ddrConfig h 0xFF 0 0 0 0 0 0 map_ scrubHours ageNs actLimit thresh scrubMs) →
      Completes (exec (.ddrConfig h 0xFF 0 0 0 0 0 0 map_ scrubHours ageNs actLimit thresh scrubMs) s) s h 0x0902 .ok 0 0 0 0 (fun u =>
        bitsOf (shadowOf u DDR_CFG) 31 24 = scrubHours ∧ bitsOf (shadowOf u DDR_CFG) 16 16 = map_ ∧ bitsOf (shadowOf u DDR_CFG) 15 0 = ageNs ∧
        bitsOf (shadowOf u DDR_RD_CFG) 15 0 = actLimit ∧ bitsOf (shadowOf u SRAM_CFG) 23 16 = thresh ∧
        bitsOf (shadowOf u SRAM_CFG) 15 0 = scrubMs ∧ u.regs = a.regs ∧ SameMemory a u))) ∧
  (∀ (s : State) (c us step lanes : Nat), Clocked s → c < 2 → chState s c = chTraining →
    (∃ u, exec (.trainingEnd c 0 us step lanes) s = .next (holding s (finishRun u 0x0901 c .ok us 0 (rdN s (DDR_CH_CAP c)) 0)) ∧
      chState u c = chTrained ∧ flag u (DDR_CH_TRAIN c) 31 = true ∧ dieHolds u 0 c = false ∧ u.dirty.testBit 12 = true ∧ SameMemory s u) ∧
    (step < 256 → lanes < 512 → ∃ u, exec (.trainingEnd c 1 us step lanes) s =
        .next (holding s (finishRun u 0x0901 c .cfgRejected us (step * 65536 + lanes) (rdN s (DDR_CH_CAP c)) 0)) ∧
      chState u c = chFailed ∧ fld u (DDR_CH_TRAIN c) 23 16 = step ∧ fld u (DDR_CH_TRAIN c) 8 0 = lanes ∧ dieHolds u 0 c = false))

/-- The DRAM controller at work (R473, R478 to R484): a channel that is not READY discards writes and gives no read data; a write on its requester's port is visible at once; refresh,
temperature reads, throttles, windows and scrubbing do their parts, and calibration changes nothing that software sees. -/
def Claim.DramWork : Prop :=
  ∀ (s : State) (c : Nat), Clocked s → c < 2 →
    (∀ q ecc, chReady s c = false → q.isWrite = true → exec (.dramRequest c [q] [] ecc) s = .next (holding s s)) ∧
    (∀ q ecc, chReady s c = false → q.isWrite = false → exec (.dramRequest c [q] [] ecc) s = .next (holding s (uncorrectable s q.who q.addr))) ∧
    (∀ q, chReady s c = true → (dramCh s c).reqs = [] → q.isWrite = true → chanOf s q.addr = c → portOf q.who true = some q.port →
      Does (exec (.dramRequest c [q] [0] 0) s) s (fun u => u.dram = (putDram s q.addr q.data).dram ∧ u.sram = s.sram ∧
        (dramCh u c).reqs = [⟨q.port, true, q.addr, now s, 0, q.who⟩] ∧ u.lanes = s.lanes)) ∧
    Does (exec (.throttleExpiry c) s) s (fun u => (dramCh u c).throttles = (dramCh s c).throttles.filter (fun t => decide (now s < t.until_)) ∧
      (∀ r, r ≠ DDR_THROTTLE_ACT → rd u r = rd s r) ∧ SameMemory s u) ∧
    (reached s ((dramCh s c).winAt + 32000000) = false → exec (.disturbWindow c) s = .next (holding s s)) ∧
    (reached s ((dramCh s c).winAt + 32000000) = true → Does (exec (.disturbWindow c) s) s (fun u => (dramCh u c).counts = [] ∧ (dramCh u c).throttles = [] ∧
      (∀ r, r ≠ DDR_THROTTLE_ACT → rd u r = rd s r) ∧ SameMemory s u)) ∧
    (∀ bank, chReady s c = true → (dramCh s c).reqs = [] → Does (exec (.refresh c bank) s) s (fun u => (dramCh u c).owed = 0 ∧
      (chType s c = 1 → (dramCh u c).openRows = []) ∧ u.regs = s.regs ∧ SameMemory s u)) ∧
    (∀ hot, chReady s c = true → fld s (DDR_CH_CFG c) 8 8 = 0 → Does (exec (.dramTempRead c hot) s) s (fun u =>
      flag u DDR_STS (8 + c) = hot.testBit 0 ∧ fld u (DDR_CH_TEMP c) 1 0 = b2n (hot.testBit 0) ∧ SameMemory s u ∧ u.lanes = s.lanes)) ∧
    exec (.zqCalibration c) s = .next (holding s s) ∧
    (chReady s c = true → Does (exec (.patrolScrub c 0) s) s (fun u =>
      (dramCh u c).scrubAt = (if (dramCh s c).scrubAt + 64 < chCap s c then (dramCh s c).scrubAt + 64 else 0) ∧ u.regs = s.regs ∧ SameMemory s u)) ∧
    (chReady s c = true → flag s DDR_STS 0 = false → c = 0 → Does (exec (.patrolScrub c 1) s) s (fun u =>
      rd u (DDR_CH_CE_ADDR_LO 0) = BitVec.ofNat 32 (dramCh s 0).scrubAt ∧ SameMemory s u))

/-! ### Faults and the recorder -/

/-- Events (R561, R565): an event takes the next SEQ whether or not it is kept; it enters the intake with its time, source and code while there is room, and
is counted lost otherwise. Nothing outside the recorder changes. -/
def Obligations.EventsAreNumbered : Prop :=
  ∀ (s : State) (source code : Nat) (payload : List Byte),
    let t := event s source code payload
    (rdN s EVR_SEQ < 2 ^ 32 - 1 → rdN t EVR_SEQ = rdN s EVR_SEQ + 1) ∧
    (s.evr.fifo.length < 128 → t.evr.fifo = s.evr.fifo ++ [⟨now s, source, code, rdN s EVR_SEQ, padTo 14 payload⟩] ∧
      fld t EVR_STS 23 16 = s.evr.fifo.length + 1 ∧ rd t EVR_LOST = rd s EVR_LOST) ∧
    (128 ≤ s.evr.fifo.length → t.evr.fifo = s.evr.fifo ∧ (rdN s EVR_LOST < 2 ^ 32 - 1 → rdN t EVR_LOST = rdN s EVR_LOST + 1)) ∧
    (∀ a, a ≠ EVR_SEQ → a ≠ EVR_STS → a ≠ EVR_LOST → rd t a = rd s a) ∧ { t with regs := s.regs, evr := s.evr, freeCtr := s.freeCtr } = s

/-- The safe state (R106, R107, R467): every GATE and EMIT low and every power word 0, SAFE_N low, EN of every axis low, no axis moving, no trigger armed, and
SRAM and DRAM as they were. -/
def Obligations.SafeStateIsSafe : Prop :=
  ∀ s : State,
    let t := enterSafe s
    t.pwr.safe = true ∧ t.pins.safeN = false ∧ t.pins.trig = 0 ∧
    (∀ n, n < 24 → gateOf t n = false ∧ emitOf t n = false ∧ fld t (LAS_WORD n) 15 0 = 0) ∧
    (∀ k, k < 8 → flag t (AX_STS k) 15 = false ∧ axMovingNow t k = false) ∧
    (∀ g, g < 4 → flag t (FTM_TRIG_STS g) 31 = false) ∧ t.sram = s.sram ∧ t.dram = s.dram ∧ t.pwr.thermLatch = s.pwr.thermLatch

/-- A fault is raised (R552 to R554, R579): a new one takes a free entry with its code, source, class and time, ACTIVE; a repeat of an ACTIVE one is counted in its
entry; and when its condition goes the entry passes to GONE. -/
def Claim.FaultEntries : Prop :=
  ∀ (s : State) (cls code source : Nat), cls < 5 → code < 2 ^ 16 → source < 2 ^ 16 →
    (∀ i, fltFree s cls = some i →
      let t := (fltEnter s cls code source).1
      i < 64 ∧ fld t (FLT_ENTRY_W0 i) 31 30 = 1 ∧ fld t (FLT_ENTRY_W0 i) 29 27 = cls ∧ fld t (FLT_ENTRY_W0 i) 15 0 = code ∧
      fld t (FLT_ENTRY_W1 i) 15 0 = source ∧ rd t (FLT_ENTRY_TIME_LO i) = BitVec.ofNat 32 (now s) ∧ (cls < 3 → i < 60) ∧
      (∀ j, j < 64 → j ≠ i → rd t (FLT_ENTRY_W0 j) = rd s (FLT_ENTRY_W0 j)) ∧ { t with regs := s.regs } = s) ∧
    (fltFree s cls = none → flag (fltEnter s cls code source).1 FLT_STS 5 = true ∧ (fltEnter s cls code source).2 = none) ∧
    (∀ i payload, fltFind s code source 1 = some i →
      raiseFault s cls code source payload = faultEvent (satIncF s (FLT_ENTRY_W1 i) 31 16) cls code source (some i) payload) ∧
    (∀ i, fltFind s code source 1 = some i → fld (faultGone s code source) (FLT_ENTRY_W0 i) 31 30 = 2)

/-- Fault and recorder commands (R555, R560, R567, R571, R572): FAULT_READ reports the table; FAULT_CLEAR frees the GONE entries it names that are not FATAL; freeze and thaw of the
main ring; BLACKBOX_READ of the header. -/
def Claim.FaultCommands : Prop :=
  ∀ (s : State) (h : Issue), Starts s h 48 →
    let a := accept s h
    (∀ addr, hostAddrOk h addr 16 = true → Spelled s h 0x0B01 (.faultRead h addr) → exec (.faultRead h addr) s =
      .next (holding s (complete (hostResult a addr (fltIx.flatMap (entryBytes a))) h 0x0B01 .ok (rdN a FLT_STS) 0 0 0))) ∧
    (∀ i, i < 64 → entrySt a i = 2 → fld a (FLT_ENTRY_W0 i) 29 27 ≠ clsFatal → a.pwr.safe = false →
      Spelled s h 0x0B02 (.faultClear h 0 0 0 (1 <<< i)) →
      Completes (exec (.faultClear h 0 0 0 (1 <<< i)) s) s h 0x0B02 .ok 1 0 0 0 (fun u => rdN u (FLT_ENTRY_W0 i) = 0 ∧
        rdN u (FLT_ENTRY_W1 i) = 0 ∧ (∀ j, j < 64 → j ≠ i → rd u (FLT_ENTRY_W0 j) = rd a (FLT_ENTRY_W0 j)) ∧
        u.lanes = a.lanes ∧ u.axes = a.axes ∧ SameMemory a u)) ∧
    (Spelled s h 0x0B03 (.recorderFreeze h) →
      exec (.recorderFreeze h) s = .next (holding s (complete (setFlag a EVR_STS 0 true) h 0x0B03 .ok (fld a EVR_NEXT 15 0) 0 0 0))) ∧
    (Spelled s h 0x0B04 (.recorderThaw h) → Completes (exec (.recorderThaw h) s) s h 0x0B04 .ok (fld a EVR_NEXT 15 0) 0 0 0 (fun u => ringFrozen u = false ∧
      (∀ r, r ≠ EVR_STS → rd u r = rd a r) ∧ (ringFrozen a = true → rdN a EVR_LOST ≠ 0 → u.evr.thawLost = true) ∧ SameMemory a u)) ∧
    (∀ addr, hostAddrOk h addr 32 = true → Spelled s h 0x0B07 (.blackboxRead h 3 0 0 addr) →
      let ok := headerAt a 60 4 == crc32c (sramBytes a retHeader 60) && !retDamaged a retHeader && !retDamaged a (retHeader + 32)
      exec (.blackboxRead h 3 0 0 addr) s = .next (holding s (complete (hostResult a addr (sramBytes a retHeader 64)) h 0x0B07 (if ok then .ok else .dataCrc) 64 (b2n (!ok)) 0 0)))

/-- The recorder at work (R555, R553, R565 to R567): the oldest event of the intake goes to the black box and, unless the ring is frozen, to the next slot of the main ring;
a read of the window returns the record's word and moves the cursor at its end; a condition that went lets its entry go; a recovery whose timer has run
out escalates, and no timer acts before its time. -/
def Claim.RecorderWork : Prop :=
  ∀ s : State, Clocked s →
    (s.evr.thawLost = false → s.evr.fifo = [] → exec .eventDrain s = .next (holding s s)) ∧
    (∀ e rest, s.evr.thawLost = false → s.evr.fifo = e :: rest → ringFrozen s = false → rdN s EVR_LOST = 0 → s.evr.bad = [] →
      Does (exec .eventDrain s) s (fun u => u.evr.fifo = rest ∧ fld u EVR_NEXT 15 0 = (fld s EVR_NEXT 15 0 + 1) % 65536 ∧
        sramBytes u (mainRing + fld s EVR_NEXT 15 0 * 32) 32 = e.bytes ∧ sramBytes u (blackBox + e.seq % 8192 * 32) 32 = e.bytes ∧
        u.dram = s.dram ∧ u.host = s.host ∧ u.lanes = s.lanes)) ∧
    (∀ e rest, s.evr.thawLost = false → s.evr.fifo = e :: rest → ringFrozen s = true →
      Does (exec .eventDrain s) s (fun u => u.evr.fifo = rest ∧ fld u EVR_NEXT 15 0 = fld s EVR_NEXT 15 0 ∧ u.dram = s.dram ∧ u.lanes = s.lanes)) ∧
    (∀ w, w < 512 → Does (exec (.evrWindowRead w) s) s (fun u =>
      u.readData = leNat (sramBytes s (mainRing + (fld s EVR_CURSOR 15 0 + w / 8) % 65536 * 32 + w % 8 * 4) 4) ∧
      (w ≠ 511 → u.regs = s.regs) ∧
      (w = 511 → flag s EVR_CURSOR 31 = true → fld u EVR_CURSOR 15 0 = (fld s EVR_CURSOR 15 0 + 64) % 65536) ∧ SameMemory s u)) ∧
    (∀ code source, code ≠ 0x0301 → conditionHolds s code source = false →
      exec (.faultConditionGone code source) s = .next (holding s (fltShow (faultGone s code source)))) ∧
    (∀ code source, code ≠ 0x0301 → conditionHolds s code source = true → exec (.faultConditionGone code source) s = .next (holding s s)) ∧
    (∀ cls source, settle s = s → s.evr.recov.any (fun r => r.timers.any (fun t => t.cls == cls && t.source == source && reached s t.due)) = true →
      let drop (r : Recovery) : Recovery := { r with timers := r.timers.filter (fun t => !(t.cls == cls && t.source == source && reached s t.due)) }
      let b := { s with evr := { s.evr with recov := s.evr.recov.map drop } }
      (cls = clsLane → exec (.recoveryTimer cls source) s = .next (holding s (raiseOnce b clsLayer 0x0204 source []))) ∧
      (cls = clsLayer → exec (.recoveryTimer cls source) s = .next (holding s (raiseOnce b clsDevice 0x0304 srcDevice []))) ∧
      (cls = clsDevice → exec (.recoveryTimer cls source) s = .next (holding s (raiseFault b clsFatal 0x0402 srcDevice [])))) ∧
    (∀ cls source, settle s = s → s.evr.recov.any (fun r => r.timers.any (fun t => t.cls == cls && t.source == source && reached s t.due)) = false →
      exec (.recoveryTimer cls source) s = .next (holding s s))

/-! ### Self repair -/

/-- Repair and spares (R103, R489 to R491, R573 to R578): LANE_ENGINE_MAP moves a lane to a free engine; REPAIR_SCAN of nothing reports nothing; REPAIR_FIX programs no more
entries than there is room and, in OP 1, only counts; scrubbing counts and repairs its macro when quiet, and retries what the die ledger refused. -/
def Obligations.RepairCommands : Prop :=
  (∀ (s : State) (h : Issue), Starts s h 48 →
    let a := accept s h
    (∀ n e, n < 24 → e < 26 → inLayer a = false → laneOn a e = none → engineFailed a e = false → flag a (SCN_STS n) 10 = false →
      Spelled s h 0x0206 (.laneEngineMap h 0 n e 0) →
      Completes (exec (.laneEngineMap h 0 n e 0) s) s h 0x0206 .ok (rdN a TOP_ENGINE_STS) (rdN a TOP_ENGINE_CFG) 0 0 (fun u =>
        engineOf u n = e ∧ fld u (LN_STS n) 31 27 = e ∧ (∀ j, j < 24 → j ≠ n → engineOf u j = engineOf a j) ∧ (lane u n).written = 0 ∧ (lane u n).head = 0 ∧
        SameMemory a u)) ∧
    (∀ banks, inLayer a = false → banks = 0 ∨ dieGrants a 1 = true → Spelled s h 0x0B05 (.repairScan h banks 0 [] 0 none) →
      exec (.repairScan h banks 0 [] 0 none) s =
      .next (holding s (complete a h 0x0B05 .ok 0 0 (rdN a TOP_ENGINE_STS) 0))) ∧
    (∀ m x, m < 504 → inLayer a = false → dieGrants a 1 = true → fld a (SRAM_MACRO m) 25 23 < 4 →
      Spelled s h 0x0B05 (.repairScan h (1 <<< (m / 16)) 0 [(m, false, x)] 0 none) →
      Completes (exec (.repairScan h (1 <<< (m / 16)) 0 [(m, false, x)] 0 none) s) s h 0x0B05 .ok (1 <<< (m / 16)) 0 (rdN a TOP_ENGINE_STS) 0 (fun u =>
        fld u (SRAM_MACRO m) 25 23 = fld a (SRAM_MACRO m) 25 23 + 1 ∧
        u.evr.soft = a.evr.soft ++ [fuseWord m 0 (fld a (SRAM_MACRO m) 25 23) x] ∧ SameMemory a u ∧ u.lanes = a.lanes)) ∧
    (inLayer a = false → Spelled s h 0x0B06 (.repairFix h 1 none) → exec (.repairFix h 1 none) s =
      .next (holding s (complete a h 0x0B06 .ok 0 a.evr.soft.length (256 - a.fuses.entries.length) 0))) ∧
    (inLayer a = false → inWindow a = true → dieGrants a 4 = true → Spelled s h 0x0B06 (.repairFix h 0 none) →
      let room := 256 - a.fuses.entries.length
      let k := satN room a.evr.soft.length
      Completes (exec (.repairFix h 0 none) s) s h 0x0B06 (if a.evr.soft.length = k then .ok else .cfgRejected) k (a.evr.soft.length - k) (room - k) 0
        (fun u => u.fuses.entries = a.fuses.entries ++ a.evr.soft.take k ∧ u.evr.soft = a.evr.soft.drop k ∧ u.lanes = a.lanes ∧ SameMemory a u))) ∧
  (∀ s : State, Clocked s →
    (flag s TOP_ENGINE_CFG 31 = true → quietLayer s = true → exec .engineRemap s = .next (holding s (remap s engineFailed))) ∧
    (∀ a, fld s (SRAM_MACRO (a / 0x10000)) 7 0 + 1 < fld s SRAM_CFG 23 16 → a < 0x2000000 →
      Does (exec (.sramScrub a 1 [] .scrub) s) s (fun u => fld u SRAM_CE_ADDR 24 0 = a ∧
        fld u (SRAM_MACRO (a / 0x10000)) 7 0 = fld s (SRAM_MACRO (a / 0x10000)) 7 0 + 1 ∧ SameMemory s u ∧ u.lanes = s.lanes)) ∧
    (∀ m, m < 512 → quietLayer s = true → flag s (SRAM_MACRO m) 30 = true → dieGrants s 1 = true →
      Does (exec (.sramRepair m []) s) s (fun u => fld u (SRAM_MACRO m) 7 0 = 0 ∧ flag u (SRAM_MACRO m) 30 = false ∧ SameMemory s u ∧ u.lanes = s.lanes)) ∧
    (quietLayer s = true → ∀ g, s.pwr.dieRetry = [g] → exec (.dieLedgerRetry []) s = .next (holding s (repairMacro g.unit [] s))))

/-! ### Other devices -/

/-- Remote access (R436 to R438, R447): a register transaction of a peer reads or writes in order and is answered; an answer completes the oldest transaction with that device;
no answer in time ends it; REMOTE_COMMAND of this device's own register is served here, of another waits for its answer, and is refused when it cannot be reached; notices stop, abort and withdraw. -/
def Obligations.RemoteAccess : Prop :=
  (∀ (s : State) (via src : Nat), Clocked s → portUp s via = true →
    (∀ off count,
      let r := regReads (frameIn s via src tyRegRead [off, count]) (0x80 + src) off count
      exec (.regRead via src off count) s = .next (holding s (sendMsg r.1 src tyRegData r.2))) ∧
    (∀ off vals, exec (.regWrite via src off vals) s =
      .next (holding s (sendMsg (regWrites (frameIn s via src tyRegWrite (off :: vals)) (0x80 + src) off vals) src tyRegAck []))) ∧
    (∀ vals, exec (.regData via src vals) s = .next (holding s (regDone (frameIn s via src tyRegData vals) src
      (fun r => r.aux.getD 0 0 == 0) .ok (vals.getD 0 0) (vals.getD 1 0) (vals.getD 2 0) (vals.getD 3 0)))) ∧
    exec (.regAck via src) s =
      .next (holding s (regDone (frameIn s via src tyRegAck []) src (fun r => r.aux.getD 0 0 == 1) .ok 0 0 0 0)) ∧
    exec (.regTimeout src) s = .next (holding s (regDone s src (Running.aged s 100000) .timeout 0 0 0 0)) ∧
    (∀ layer time arg,
      (layerSt s = stExposing → Does (exec (.noticeRx via src 1 layer time arg) s) s (fun u => u.seq.stopReq = true ∧ u.lanes = s.lanes ∧ SameMemory s u)) ∧
      (stLoading ≤ layerSt s → layerSt s ≤ stPaused → s.seq.abortReq = none →
        Does (exec (.noticeRx via src 2 layer time arg) s) s (fun u => u.seq.abortReq = some ⟨1, 0⟩ ∧ u.lanes = s.lanes ∧ SameMemory s u)) ∧
      Does (exec (.noticeRx via src 4 layer time arg) s) s (fun u => u.ovl.excess.testBit src = true ∧ u.lanes = s.lanes ∧ SameMemory s u))) ∧
  (∀ (s : State) (h : Issue), Starts s h 48 → Issue.remote h = false →
    let a := accept s h
    (∀ off, off % 4 = 0 → off < 0x1000000 →
      (Spelled s h 0x0805 (.remoteCommand h 0 (ownAddr a) 1 off [] []) →
       let r := regRead a (localId h) off
       exec (.remoteCommand h 0 (ownAddr a) 1 off [] []) s = .next (holding s (complete r.1 h 0x0805 .ok r.2 0 0 0))) ∧
      (∀ v, Spelled s h 0x0805 (.remoteCommand h 1 (ownAddr a) 1 off [v] []) →
        exec (.remoteCommand h 1 (ownAddr a) 1 off [v] []) s =
          .next (holding s (complete (regWrite a (localId h) off v) h 0x0805 .ok 0 0 0 0))) ∧
      (∀ target, target < 32 → target ≠ ownAddr a → domOn a 13 = true → Spelled s h 0x0805 (.remoteCommand h 0 target 1 off [] []) →
        (reachable a target = false → exec (.remoteCommand h 0 target 1 off [] []) s =
          .next (holding s (fail a h 0x0805 .fabricUnreachable))) ∧
        (reachable a target = true → exec (.remoteCommand h 0 target 1 off [] []) s =
          .next (holding s (sendMsg (startRun a h 0x0805 target [0]) target tyRegRead [off, 1]))))) ∧
    (∀ inner, 112 ≤ (if Issue.paramPtr h then h.ptrLen else 48) → innerOk inner = true → domOn a 13 = true →
      Spelled s h 0x0805 (.remoteCommand h 2 0 0 0 [] inner) →
      exec (.remoteCommand h 2 0 0 0 [] inner) s = .next (holding s (fanOut a h inner)) ∧
      (groupPeers a = [] → fanOut a h inner = complete a h 0x0805 .ok 0 0 0 0)))

/-! ### Domains, temperature and resets -/

/-- Power domains (R86, R87, R93): a domain already in the state asked for completes at once; else it switches, and the end of the switching leaves it so; RESET_DOMAIN takes a domain
out of service until its release. Refused while its condition fails. -/
def Obligations.PowerDomains : Prop :=
  (∀ (s : State) (h : Issue) (d : Nat), Starts s h 48 → 2 ≤ d → d ≤ 19 →
    let a := accept s h
    (∀ st flags, st < 2 → flags < 2 → switching a d = false → domOn a d = (st == 1) → Spelled s h 0x0008 (.powerDomain h d st flags) →
      exec (.powerDomain h d st flags) s = .next (holding s (complete a h 0x0008 .ok (domainsOn a) 0 0 0))) ∧
    (∀ flags, flags < 2 → switching a d = false → domOn a d = false → Spelled s h 0x0008 (.powerDomain h d 1 flags) →
      exec (.powerDomain h d 1 flags) s = .next (holding s (startRun
        { a with pwr := { a.pwr with switching := a.pwr.switching ++ [(d, true)] } } h 0x0008 d []))) ∧
    (switching a d = false → domOn a d = true → offCond a d = true → inUse a d = false → d ≠ 11 → d ≠ 12 →
      Spelled s h 0x0008 (.powerDomain h d 0 0) →
      exec (.powerDomain h d 0 0) s = .next (holding s (startRun
        { a with pwr := { a.pwr with switching := a.pwr.switching ++ [(d, false)] } } h 0x0008 d []))) ∧
    (domOn a d = true → offCond a d = false → Spelled s h 0x0008 (.powerDomain h d 0 0) → exec (.powerDomain h d 0 0) s = .next (holding s (fail a h 0x0008 .wrongState))) ∧
    (domOn a d = true → offCond a d = true → switching a d = false → inUse a d = false → d = 10 → codecSt a 1 ≠ 4 → a.jobs = [] →
      Spelled s h 0x0003 (.resetDomain h d) →
      RunsOn (exec (.resetDomain h d) s) s h 0x0003 d [] (fun u => domOn u d = false ∧ u.pwr.inReset.testBit d = true ∧
        (∀ r, domainOf r = 10 → rd u r = regReset r) ∧ u.lanes = a.lanes ∧ SameMemory a u)) ∧
    (domOn a d = false → Spelled s h 0x0003 (.resetDomain h d) → exec (.resetDomain h d) s = .next (holding s (fail a h 0x0003 .domainOff)))) ∧
  (∀ (s : State) (d : Nat), Clocked s → 8 ≤ d → d ≤ 10 →
    (∀ rest, takeFirst (fun p : Nat × Bool => p.1 == d) s.pwr.switching = some ((d, true), rest) →
      ∃ u, exec (.domainSwitchDone d) s = .next (holding s (finishRun u 0x0008 d .ok (domainsOn u) 0 0 0)) ∧ domOn u d = true ∧
        u.pwr.switching = rest ∧ (∀ r, r ≠ PWR_STS → rd u r = rd s r) ∧ u.lanes = s.lanes ∧ SameMemory s u) ∧
    (s.pwr.inReset.testBit d = true →
      ∃ u, exec (.domainResetRelease d) s = .next (holding s (finishRun u 0x0003 d .ok (domainsOn u) 0 0 0)) ∧ domOn u d = true ∧
        u.pwr.inReset.testBit d = false ∧ (∀ r, r ≠ PWR_STS → rd u r = rd s r) ∧ u.lanes = s.lanes ∧ SameMemory s u))

/-- Temperature and supplies (R84, R114, R115): a healthy sensor at 118 °C or more latches the shutdown with THERM_TRIP_N and SAFE_N low and the device in the safe state; a sample that
finds none does not; a monitored rail in undervoltage raises SUPPLY_UV for its rail. -/
def Obligations.ThermalShutdown : Prop :=
  ∀ (s : State) (temps : List Int), s.pwr.thermLatch = false →
    let t := thmLevels s (thmFailures s (thmShow (thmFast (thmValues s temps))))
    (∀ k v, shutdownBy t temps = some (k, v) → ∃ u, exec (.thmSample temps) s = .next u ∧ u.pwr.thermLatch = true ∧
      u.pins.thermTripN = false ∧ u.pins.safeN = false ∧ u.pwr.safe = true ∧ (∀ n, n < 24 → gateOf u n = false ∧ emitOf u n = false) ∧
      u.pending = s.pending) ∧
    (shutdownBy t temps = none → ∃ u, exec (.thmSample temps) s = .next u ∧ u.pwr.thermLatch = false ∧ u.pins.thermTripN = s.pins.thermTripN ∧
      u.pending = s.pending) ∧
    (∀ i v, i < 16 → temps.getD i 0 = v → 118 * 16 ≤ v → thmFailed t i = false → (shutdownBy t temps).isSome = true) ∧
    (Clocked s → ∀ rail, exec (.supplyUv rail) s = .next (holding s (raiseFault
      { s with pwr := { s.pwr with uvRails := natSet s.pwr.uvRails rail } } clsDevice 0x0301 srcDevice (leBytes 1 rail))))

/-- Resets (R73, R83, R90, R91, R94, R114): POR_N, SYS_RST_N and every loss of supply leave the device in the safe state with every
laser port dark and every lane, layer and axis as after reset; SYS_RST_N keeps the registers of the AON domain but the domain
status, boot status, die ledger and reset cause; POR_N keeps the record of a shutdown; retained SRAM stays; the first violation
of the rail order is kept; the loss of VDD_CORE clears the shutdown latch. -/
def Claim.ResetsAreSafe : Prop :=
  ∀ s : State,
    let safe (u : State) : Prop := u.pwr.safe = true ∧ u.pins.safeN = false ∧ u.lanes = [] ∧ u.axes = [] ∧ u.seq = State.reset.seq ∧
      layerSt u = stIdle ∧ (∀ n, n < 24 → gateOf u n = false ∧ emitOf u n = false)
    Does (exec .porNLow s) s (fun u => safe u ∧ flag u PWR_RESET_CAUSE 2 = true ∧ flag u PWR_RESET_CAUSE 0 = flag s PWR_RESET_CAUSE 0 ∧
      rd u THM_SHUTDOWN_CAUSE = rd s THM_SHUTDOWN_CAUSE ∧ (∀ a, blackBox ≤ a → sramBytes u a 1 = sramBytes s a 1) ∧ u.host = s.host) ∧
    Does (exec .sysRstNLow s) s (fun u => safe u ∧ flag u PWR_RESET_CAUSE 3 = true ∧
      (∀ a, domainOf a = 0 → (a < 0x260000 ∨ 0x270000 ≤ a) → a ≠ PWR_STS → a ≠ PWR_BOOT_STS → a ≠ PWR_DIE_STS → a ≠ PWR_RESET_CAUSE → rd u a = rd s a) ∧
      u.hif.bme = s.hif.bme ∧ (∀ a, blackBox ≤ a → sramBytes u a 1 = sramBytes s a 1) ∧ u.host = s.host) ∧
    (∃ u, exec .vddCoreRemoval s = .next u ∧ safe u ∧ u.pwr.thermLatch = false ∧ u.pins.thermTripN = true ∧ u.hif.bme = false ∧
      u.pending = s.pending ∧ (∀ a, blackBox ≤ a → sramBytes u a 1 = sramBytes s a 1)) ∧
    (∃ u, exec .vddAonFirstRise s = .next u ∧ safe u ∧ u.pwr.thermLatch = false ∧ u.pins.thermTripN = true ∧
      flag u PWR_RESET_CAUSE 1 = true ∧ flag u PWR_RESET_CAUSE 0 = false ∧ u.pending = s.pending) ∧
    Does (exec .vddAonUndervoltage s) s (fun u => safe u ∧ flag u PWR_RESET_CAUSE 0 = false ∧ u.host = s.host) ∧
    (∀ g, g < 16 → flag s PWR_SEQ_STS 31 = false → Does (exec (.railSequenceViolation g) s) s (fun u => flag u PWR_SEQ_STS 31 = true ∧
      fld u PWR_SEQ_STS 3 0 = g ∧ (∀ a, a ≠ PWR_SEQ_STS → rd u a = rd s a) ∧ { u with regs := s.regs } = s)) ∧
    (∀ g, flag s PWR_SEQ_STS 31 = true → exec (.railSequenceViolation g) s = .next (holding s s))

/-- Boot (R71, R90, R95, R98 to R101): a release of reset or a brownout starts the boot ROM with what the flash answers; a latched shutdown or a reset that still stands lets nothing boot; a boot strapped to
another source waits for its image; a flash that does not answer fails over to waiting; the first whole header claims the image for its source. -/
def Claim.BootStarts : Prop :=
  ∀ (s : State) (fails : List (Nat × Bool × Nat)) (flash : Option (List Byte × List Byte)),
    (∀ sel addr refclk, exec (.porNRise sel addr refclk fails flash) s = .next (holding s (bootUp
      (linkAdapt (endReset { s with pins := { s.pins with bootSel := sel, fabAddr := addr, fabRefclk := refclk }, hif := { s.hif with linkUp := !s.hif.perst } } 2)) fails flash))) ∧
    exec (.sysRstNRelease fails flash) s = .next (holding s (bootUp (endReset s 1) fails flash)) ∧
    exec (.brownout fails flash) s = .next (holding s (bootUp (resetCause (resetCore s (keptLink s)) 5) fails flash)) ∧
    (clocksOff s = true → bootUp s fails flash = s) ∧
    (Clocked s → strapSource s ≠ 0 → bootSt (bootUp s fails flash) = 2 ∧ flag (bootUp s fails flash) PWR_BOOT_STS 11 = true) ∧
    (Clocked s → bootSt s = 1 → Does (exec .bootFlashTimeout s) s (fun u => bootSt u = 2 ∧ fld u PWR_BOOT_STS 23 16 = 6 ∧
      (∀ a, a ≠ PWR_BOOT_STS → rd u a = rd s a) ∧ SameMemory s u ∧ u.lanes = s.lanes)) ∧
    (Clocked s → bootSt s ≠ 2 → ∀ v, exec (.bootChunk v) s = .next (holding s s)) ∧
    (Clocked s → bootSt s = 2 → s.pwr.imageFrom ≠ 2 → ∀ v, v % 2 ^ 21 = 0 → Does (exec (.bootChunk v) s) s (fun u =>
      bootSt u = 2 ∧ fld u PWR_BOOT_STS 23 16 = 7 ∧ u.pwr.image = [] ∧ SameMemory s u ∧ u.lanes = s.lanes)) ∧
    (Clocked s → bootSt s = 2 → s.pwr.imageFrom = 1 → ∀ v, 0 < v → v < 1048576 → 256 + 3145728 ≥ s.pwr.image.length + v →
      Does (exec (.bootChunk v) s) s (fun u => u.pwr.image = s.pwr.image ++ sramBytes s poolBase v ∧ bootSt u = 2 ∧ SameMemory s u)) ∧
    (Clocked s → bootSt s = 2 → s.pwr.imageFrom = 0 → ∀ v, 0 < v → v < 1048576 → 256 + 3145728 ≥ s.pwr.image.length + v →
      Does (exec (.bootChunk v) s) s (fun u => u.pwr.imageFrom = (if 256 ≤ s.pwr.image.length + v then 1 else 0) ∧
        (256 ≤ s.pwr.image.length + v → fld u PWR_BOOT_STS 9 8 = 1) ∧ bootSt u = 2 ∧ SameMemory s u))

/-! ### BAR0 and BAR2 -/

/-- Register accesses (R16, R17, R18, R596, R597): a write that is not one whole aligned word changes nothing; any other is the register's write, and logic that stands
in reset takes none; nothing stands from 0x0200_0000 on; a read of the low word of fabric time latches the high one; a class L write takes effect
at the boundary, where the last write to its bits stands; a class S field of a block that is not idle keeps its value and CFG_IGNORED sets. -/
def Obligations.RegisterAccess : Prop :=
  ∀ s : State,
    (∀ off v, off % 4 ≠ 0 → exec (.registerWrite off v true) s = .next (holding s s)) ∧
    (∀ off v, exec (.registerWrite off v false) s = .next (holding s s)) ∧
    (∀ off v, off % 4 = 0 → exec (.registerWrite off v true) s = .next (holding s (regWrite s 0 off v))) ∧
    (∀ off v, s.pwr.thermLatch = false → s.pwr.held ≠ 0 → s.pwr.held = 2 ∨ 0x1000000 ≤ off ∨ domainOf off ≠ 0 → regWrite s 0 off v = s) ∧
    (∀ off v ecc, 0x2000000 ≤ off → exec (.registerWrite off v true) s = .next (holding s s) ∧
      exec (.latchingRead off ecc) s = .next (holding s { s with readData := 0 })) ∧
    (Clocked s → domOn s (domainOf FTM_TIME_LO) = true → Does (exec (.latchingRead FTM_TIME_LO 0) s) s (fun u =>
      u.readData = (mget (rd s FTM_TIME_LO) s.latched FTM_TIME_LO).toNat ∧ mget 0 u.latched FTM_TIME_HI = rd s FTM_TIME_HI ∧ u.regs = s.regs ∧ SameMemory s u)) ∧
    (Clocked s → ∀ a m w, s.live = [(a, m, w)] → hifReg a = false → a ≠ TOP_SRAM_APERTURE →
      (∀ r ∈ s.running, r.op ≠ 0x0503 ∧ r.op ≠ 0x0504 ∧ r.op ≠ 0x0903) →
      loopTakes s = s → Does (exec .liveFieldApply s) s (fun u => u.live = [] ∧ rd u a = (rd s a &&& ~~~m) ||| w ∧
        (∀ b, b ≠ a → rd u b = rd s b) ∧ SameMemory s u ∧ u.lanes = s.lanes)) ∧
    (∀ a hi lo v, let m := setBits 0 hi lo (2 ^ (hi - lo + 1) - 1)
      (setLive s a hi lo v).live.filter (fun e => e.1 == a && e.2.1 == m) = [(a, m, setBits 0 hi lo v)] ∧ (setLive s a hi lo v).regs = s.regs) ∧
    (∀ a v f gate, f.acc = .rw → f.cls = .s → gate.1 = false → fieldWrite s a v gate f = setFlag s gate.2.1 gate.2.2 true)

/-- R120: a read of a word beyond the populated DRAM, or in a channel that does not serve, returns all ones; a write there is
discarded; a read of a word with an uncorrectable error returns the stored data and records the error with its address. A
longer read takes each word on its own, and a write where a channel serves stores its word. -/
def Obligations.Bar2Words : Prop :=
  ∀ (s : State) (addr : Nat), Clocked s → addr % 4 = 0 →
    (dramSize s < addr + 4 ∨ chReady s (chanOf s addr) = false → dramOk s addr 4 = false) ∧
    (dramOk s addr 4 = false →
      (∀ ecc, exec (.bar2Access addr false 1 [] ecc) s = .next (holding s { s with readData := 0xFFFFFFFF })) ∧
      (∀ data ecc, exec (.bar2Access addr true 1 data ecc) s = .next (holding s s))) ∧
    (dramOk s addr 4 = true →
      exec (.bar2Access addr false 1 [] 2) s = .next (holding s
        { eccCheck s (chanOf s addr) addr 2 .bar2 with readData := leNat (dramBytes s addr 4) })) ∧
    (∀ c, c < 2 → let u := eccCheck s c addr 2 .bar2
      (rdN s (DDR_CH_ECC_UNCORR c) < 2 ^ 32 - 1 → rdN u (DDR_CH_ECC_UNCORR c) = rdN s (DDR_CH_ECC_UNCORR c) + 1) ∧
      (flag s (DDR_CH_UE_ADDR_HI c) 31 = false → rd u (DDR_CH_UE_ADDR_LO c) = BitVec.ofNat 32 addr ∧ flag u (DDR_CH_UE_ADDR_HI c) 31 = true) ∧
      u.dram = s.dram) ∧
    (∀ data, dramOk s addr 4 = true → exec (.bar2Access addr true 1 data 0) s = .next (holding s (putDram s addr (data.take 4)))) ∧
    (∀ len, Does (exec (.bar2Access addr false len [] 0) s) s (fun u => u.readData = leNat (bar2Words s addr len) ∧ u.regs = s.regs ∧ SameMemory s u)) ∧
    (∀ k, bar2Words s addr (k + 1) = (if dramOk s addr 4 then dramBytes s addr 4 else leBytes 4 0xFFFFFFFF) ++ bar2Words s (addr + 4) k)

/-- R89: while a domain is off, a read in its blocks returns all ones and a write is discarded, and each sets OFF_ACCESS; the AFE
window of a lane belongs to its AFE domain and the lane's other blocks to its quad. -/
def Obligations.OffDomain : Prop :=
  (∀ (s : State) (off : Nat), Clocked s → off < 0x1000000 → domOn s (domainOf off) = false →
    exec (.offDomainAccess off false) s = .next (holding s { setFlag s PWR_STS 31 true with readData := 0xFFFFFFFF }) ∧
    exec (.offDomainAccess off true) s = .next (holding s (setFlag s PWR_STS 31 true)) ∧
    (∀ id, regRead s id off = (setFlag s PWR_STS 31 true, 0xFFFFFFFF)) ∧
    (∀ id v, regWrite s id off v = setFlag s PWR_STS 31 true)) ∧
  (∀ n o, n < 24 → o < 0x4000 →
    domainOf (0x100000 + n * 0x4000 + o) = (if 0x1000 ≤ o ∧ o < 0x1800 then 14 else 2) + n / 4)

/-- R47, R48: the aperture starts at the register's value times 1 MiB, a value above 16 taken as 16, and shows 16 MiB of SRAM; a read returns
the stored word of any region, and records an uncorrectable error of it; a write lands in the general pool alone, and is discarded elsewhere: every
other byte of SRAM, all of DRAM and host memory, and every register stay. -/
def Obligations.ApertureWritesPoolOnly : Prop :=
  (∀ s m w, fld (liveApply s (TOP_SRAM_APERTURE, m, w)) TOP_SRAM_APERTURE 4 0 =
    (let v := bitsOf ((rd s TOP_SRAM_APERTURE &&& ~~~m) ||| w) 4 0; if v < 16 then v else 16)) ∧
  ∀ (s : State) (off : Nat) (data : List Byte), Clocked s →
    (0x1000000 ≤ off → off < 0x2000000 → off % 4 = 0 →
      let a := fld s TOP_SRAM_APERTURE 4 0 * 2 ^ 20 + (off - 0x1000000)
      exec (.latchingRead off 0) s = .next (holding s { s with readData := leNat (sramBytes s a 4) }) ∧
      Does (exec (.latchingRead off 2) s) s (fun u => u.readData = leNat (sramBytes s a 4) ∧ u = { sramEcc s a 2 .aperture with readData := u.readData })) ∧
    (∀ a, a < 0x1F00000 → 0x1700000 ≤ a → a < 0x1CE0000 ∨ 0x1E80000 ≤ a → let u := sramEcc s a 2 .aperture
      fld u SRAM_UE_ADDR 24 0 = a ∧ flag u SRAM_STS 0 = true ∧ SameMemory s u) ∧
    Does (exec (.apertureWrite off data) s) s (fun u =>
      (∀ a, a < poolBase ∨ 0x1CE0000 ≤ a → sramBytes u a 1 = sramBytes s a 1) ∧ u.dram = s.dram ∧ u.host = s.host ∧ u.regs = s.regs ∧
      u.lanes = s.lanes) ∧
    (0x1000000 ≤ off → off + data.length ≤ 0x2000000 → poolBase ≤ apertureBase s + (off - 0x1000000) →
      apertureBase s + (off - 0x1000000) + data.length ≤ 0x1CE0000 →
      Does (exec (.apertureWrite off data) s) s (fun u => sramBytes u (apertureBase s + (off - 0x1000000)) data.length = data))

/-- Commands that write memory keep its canonical form (the model's own form of memory: addresses rise, and no byte is listed that
reads the same unlisted): the aperture, BAR2, the pool through the service port, bulk data and the unit burn map. -/
def Obligations.MemoryWrites : Prop :=
  MemForm State.reset ∧
  ∀ s : State, Clocked s → MemForm s →
    (∀ off data, Does (exec (.apertureWrite off data) s) s MemForm) ∧
    (∀ addr write len data, Does (exec (.bar2Access addr write len data 0) s) s MemForm) ∧
    (∀ off data, Does (exec (.poolWrite off data) s) s MemForm) ∧
    (∀ via src offset data, portUp s via = true → Does (exec (.bulkRec via src offset data) s) s MemForm) ∧
    Does (exec .burnFill s) s MemForm

/-! ### Every form completes -/

/-- Every command of these forms completes (R135, R137): when its packet starts, spells it and passes its checks, it ends with OK, or
runs on under its key, having done what it is for. The forms are those of jobs, tables and images, overlap, scanners, laser ports,
photodiode inputs and cameras. -/
def Claim.LaneCommandsComplete : Prop :=
  ∀ (s : State) (h : Issue), Starts s h 48 →
    let a := accept s h
    (∀ id hb hl db dl, 1 ≤ id → hb % 2 ^ 20 = 0 → hl % 2 ^ 20 = 0 → db % 2 ^ 20 = 0 → dl % 2 ^ 20 = 0 → 2 ^ 20 ≤ hl → 2 ^ 24 ≤ dl →
      hb + hl ≤ db ∨ db + dl ≤ hb → a.seq.job = none → areaOk a hb hl = true → areaOk a db dl = true →
      Spelled s h 0x0101 (.jobOpen h id hb hl db dl) →
      Completes (exec (.jobOpen h id hb hl db dl) s) s h 0x0101 .ok id 0 0 0 (fun u => u.seq.job = some id)) ∧
    (∀ id, a.seq.job = some id → layerSt a = stIdle ∨ layerSt a = stDone ∨ layerSt a = stAborted →
      Spelled s h 0x0102 (.jobClose h id) →
      Completes (exec (.jobClose h id) s) s h 0x0102 .ok 0 0 0 0 (fun u => u.seq.job = none)) ∧
    (∀ first addr, first < 1024 → addr % 64 = 0 → inHostArea a addr 64 = true → tablesOpen a = true → dramOk a addr 64 = true →
      recipeOk (dramBytes a addr 64) first = true → Spelled s h 0x0103 (.recipeLoad h first 1 1 addr []) →
      ∃ r0, Completes (exec (.recipeLoad h first 1 1 addr []) s) s h 0x0103 .ok r0 0 0 0 (fun u =>
        recipeOf u first = recipeAt (dramBytes a addr 64))) ∧
    (∀ first inl, 1 ≤ first → first < 256 → tablesOpen a = true → Spelled s h 0x0104 (.lanesetLoad h first 1 2 0 inl []) →
      let set := (List.range 4).map (fun c => leAt (inl.map (BitVec.ofNat 8)) (2 * c) 2)
      laneSetOk (ownAddr a) set = true →
      ∃ r0, Completes (exec (.lanesetLoad h first 1 2 0 inl []) s) s h 0x0104 .ok r0 0 0 0 (fun u =>
        mget [] u.seq.laneSets first = set)) ∧
    (∀ addr layer, a.seq.job.isSome = true → quietLayer a = true → Spelled s h 0x0105 (.layerLoad h addr layer) →
      RunsOn (exec (.layerLoad h addr layer) s) s h 0x0105 0 [layer] (fun u => layerSt u = stLoading)) ∧
    (∀ zone en, zone < 64 → en < 2 → Spelled s h 0x0302 (.overlapSet h 1 0 0 0 0 0 0 zone en 0 0 0 0 0 0 []) →
      Completes (exec (.overlapSet h 1 0 0 0 0 0 0 zone en 0 0 0 0 0 0 []) s) s h 0x0302 .ok 0 0 0 0 (fun u =>
        bitsOf (shadowOf u (ZONE_CFG zone)) 31 31 = en)) ∧
    (∀ depth length half, 1 ≤ depth → depth ≤ 64 → Spelled s h 0x0303 (.plumeSet h 1 depth 0 0 length half 0 0) →
      Completes (exec (.plumeSet h 1 depth 0 0 length half 0 0) s) s h 0x0303 .ok 0 0 0 0 (fun u =>
        bitsOf (shadowOf u PLM_CFG) 31 31 = 1 ∧ bitsOf (shadowOf u PLM_CFG) 6 0 = depth)) ∧
    (∀ zone overlap amp, zone < 64 → 1 ≤ overlap → overlap ≤ 255 → amp ≤ 1023 → Spelled s h 0x0304 (.stitchSet h zone overlap amp) →
      Completes (exec (.stitchSet h zone overlap amp) s) s h 0x0304 .ok 0 0 0 0 (fun u =>
        bitsOf (shadowOf u (ZONE_CFG zone)) 7 0 = overlap)) ∧
    (∀ n, n < 24 → domOn a (2 + quadOf n) = true →
      (∀ v, 1000 ≤ v → v ≤ 10000000 → Spelled s h 0x0201 (.laneConfig h n 0 v v 100 1 v 100 1 1 1 0 1 1) →
        Completes (exec (.laneConfig h n 0 v v 100 1 v 100 1 1 1 0 1 1) s) s h 0x0201 .ok 0 0 0 0 (fun u =>
          shadowOf u (SCN_VMAX_MARK n) = BitVec.ofNat 32 v ∧ u.dirty.testBit 2 = true)) ∧
      ((lane a n).jog = none → laneInLayer a n = false →
        (∀ addr, addr % 64 = 0 → dramOk a addr 50768 = true → mapCheck (padTo 50768 (dramBytes a addr 50768)) (linkWidth (linkGen a n)) = none →
          Spelled s h 0x0202 (.enlargerMapLoad h n 1 addr []) → ∃ id e,
          Completes (exec (.enlargerMapLoad h n 1 addr []) s) s h 0x0202 .ok id e 0 0 (fun u => mapValid u n = true)) ∧
        (Spelled s h 0x0203 (.scannerLinkSet h n 1 0) → Completes (exec (.scannerLinkSet h n 1 0) s) s h 0x0203 .ok 0 0 0 0 (fun u =>
          linkGen u n = 1 ∧ linkState u n = 2)) ∧
        (∀ x y z, a.pwr.safe = false → Spelled s h 0x0205 (.laneJog h n 1 x y z 1) →
          RunsOn (exec (.laneJog h n 1 x y z 1) s) s h 0x0205 n [] (fun u => (lane u n).jog = some ⟨true, x, y, z⟩)) ∧
        (∀ mode, mode ≤ 2 → Spelled s h 0x0204 (.laserPortSet h n mode 0 1 1 0 0) →
          Completes (exec (.laserPortSet h n mode 0 1 1 0 0) s) s h 0x0204 .ok 0 0 0 0 (fun u => fld u (LAS_CFG n) 1 0 = mode))) ∧
      (∀ mask terms, mask < 256 → (lane a n).drift = none → Spelled s h 0x0207 (.driftTermsSet h n 0 mask terms) →
        RunsOn (exec (.driftTermsSet h n 0 mask terms) s) s h 0x0207 n [] (fun u => (lane u n).drift = some ⟨0, mask, terms⟩))) ∧
    (∀ budget, Spelled s h 0x0301 (.ledgerSet h budget 0 0) →
      Completes (exec (.ledgerSet h budget 0 0) s) s h 0x0301 .ok (ledgerG a) 0 0 0 (fun u => shadowOf u LEDG_BUDGET = BitVec.ofNat 32 budget)) ∧
    (∀ n, n < 24 → domOn a (afeDom n) = true →
      (∀ d, 1 ≤ d → d ≤ 30 → Spelled s h 0x0401 (.afeSet h n 0 d 0 32768 16) →
        Completes (exec (.afeSet h n 0 d 0 32768 16) s) s h 0x0401 .ok 0 0 0 0 (fun u => bitsOf (shadowOf u (AFE_CFG n)) 31 24 = d)) ∧
      (afeEn a n 0 = true → (afeIn a n 0).run = none → (afeIn a n 0).pend = none → Spelled s h 0x0402 (.afeCalibrate h (1 <<< n) 1 0) →
        ∃ u aux, exec (.afeCalibrate h (1 <<< n) 1 0) s = .next (holding s (startRun u h 0x0402 0 aux)) ∧ afeBit u n 0 2 = true)) ∧
    (∀ addr, hostAddrOk h addr 32 = true → Spelled s h 0x0403 (.calValuesRead h 0 1 addr) →
      exec (.calValuesRead h 0 1 addr) s =
        .next (holding s (complete (hostResult a addr (afeRecord a 0 0 ++ afeRecord a 0 1)) h 0x0403 .ok 2 0 0 0))) ∧
    (∀ addr, addr % 32 = 0 → inHostArea a addr 32 = true → dramOk a addr 32 = true → afePass1 [dramBytes a addr 32] [] 0 = none →
      domOn a (afeDom (leAt (dramBytes a addr 32) 0 1)) = true → Spelled s h 0x0404 (.calValuesWrite h 1 1 addr []) →
      exec (.calValuesWrite h 1 1 addr []) s = .next (holding s (startRun a h 0x0404 0 (afeVals (dramBytes a addr 32))))) ∧
    (∀ port rate, port < 6 → 80 ≤ rate → rate ≤ 2500 → domOn a (2 + port) = true → camIdle a port = true →
      Spelled s h 0x0405 (.csiPortSet h port 1 rate 0 100) →
      Completes (exec (.csiPortSet h port 1 rate 0 100) s) s h 0x0405 .ok 0 0 0 0 (fun u => fld u (CAM_CFG port) 27 16 = rate)) ∧
    (∀ c, c < 32 → (ctx a c).commit = none →
      (∀ fields, fields.all (· == 0) = true → (ctxChecks a c (ctxShadow a c)).all (·.2) = true → Spelled s h 0x0406 (.contextSet h c 0 0 fields []) →
        RunsOn (exec (.contextSet h c 0 0 fields []) s) s h 0x0406 c [0] (fun u => (ctx u c).commit.isSome = true)) ∧
      (∀ n, n < 24 →
        let b := { a with shadow := mset a.shadow (ISP_CTX_ROUTE c) (BitVec.ofNat 32 (n * 256)) }
        (ctxChecks b c (ctxShadow b c)).all (·.2) = true → Spelled s h 0x0407 (.statsRoute h c n 0 0) →
        RunsOn (exec (.statsRoute h c n 0 0) s) s h 0x0407 c [0] (fun u => (ctx u c).commit.isSome = true)))

/-- Every command of these forms completes (R135, R137), as those of `Claim.LaneCommandsComplete`: the burn map, DRAM, DMA, codecs, faults and the recorder, and
the writes of registers. -/
def Claim.UnitCommandsComplete : Prop :=
  ∀ (s : State) (h : Issue), Starts s h 48 →
    let a := accept s h
    (∀ cell, 2000 ≤ cell → cell ≤ 32000 → Spelled s h 0x0601 (.burnConfig h 0 0 0 1 0 0 cell 1 1 0 0 1 1) →
      Completes (exec (.burnConfig h 0 0 0 1 0 0 cell 1 1 0 0 1 1) s) s h 0x0601 .ok 0 0 0 0 (fun u =>
        bitsOf (shadowOf u BURN_CELL) 15 0 = cell)) ∧
    (burnCmdState a = true → burnBusy a = false → Spelled s h 0x0602 (.burnMapLoad h 1 0 0) →
      exec (.burnMapLoad h 1 0 0) s = .next (holding s (complete (setFlag (fillWindow a) BURN_STS 0 true) h 0x0602 .ok 0 0 0 0))) ∧
    (∀ addr, addr % 64 = 0 → h.ring ≠ 15 → burnCmdState a = true → burnBusy a = false → dramOk a (bBase a) (bLen a) = true →
      Spelled s h 0x0603 (.burnMapSave h 0 addr) →
      ∃ u, exec (.burnMapSave h 0 addr) s = .next (holding s (complete u h 0x0603 .ok (64 + bLen a) 0 0 0))) ∧
    (∀ op, op < 2 → Spelled s h 0x0604 (.burnFreeze h op 0) →
      exec (.burnFreeze h op 0) s = .next (holding s (complete (Machine.burnFreeze a (op == 1)) h 0x0604 .ok 0 0 0 0))) ∧
    (∀ c, c < 2 → domOn a (11 + c) = true → chState a c ≠ chUnconfigured → chState a c ≠ chSelfRefresh → chState a c ≠ chTraining →
      a.seq.job = none → dieGrants a 0 = true → Spelled s h 0x0901 (.ddrTrain h c) →
      RunsOn (exec (.ddrTrain h c) s) s h 0x0901 c [] (fun u => chState u c = chTraining)) ∧
    (∀ hours, 1 ≤ hours → hours < 256 → Spelled s h 0x0902 (.ddrConfig h 0xFF 0 0 0 0 0 0 0 hours 250 512 1 100) →
      Completes (exec (.ddrConfig h 0xFF 0 0 0 0 0 0 0 hours 250 512 1 100) s) s h 0x0902 .ok 0 0 0 0 (fun u =>
        bitsOf (shadowOf u DDR_CFG) 31 24 = hours)) ∧
    (∀ c rate, c < 32 → rate < 256 → Spelled s h 0x0903 (.dmaChannelSet h c 0 rate) →
      RunsOn (exec (.dmaChannelSet h c 0 rate) s) s h 0x0903 c [] (fun u => (DMA_CH_CFG c, setBits 0 15 8 255, setBits 0 15 8 rate) ∈ u.live)) ∧
    (∀ c addr, c < 32 → addr % 32 = 0 → addr < 2 ^ 64 → flag a DMA_STS 0 = false → dmaState a c = 0 →
      Spelled s h 0x0904 (.dmaStart h c 1 addr) →
      ∃ u, exec (.dmaStart h c 1 addr) s = .next (holding s (dmaShow (startRun u h 0x0904 c []))) ∧ dmaState u c = 1) ∧
    (∀ c, c < 32 → dmaState a c = 1 → (dmaCh a c).flight = [] → Spelled s h 0x0905 (.dmaStop h (1 <<< c)) →
      Does (exec (.dmaStop h (1 <<< c)) s) s (fun u => dmaState u c = 0)) ∧
    (∀ g, g < 2 → domOn a 10 = true → codecSt a g = 0 → ∀ format outAddr inLen outLen,
      (let j : Job := ⟨true, format, 0, 1, 1, 1, 0, outAddr, inLen, outLen, 0, 0, [], [], 0⟩
       jobParams h j = true → dramOk a 0 inLen = true → dramOk a outAddr outLen = true →
       Spelled s h 0x0906 (.compressJob h g format 0 1 1 1 0 outAddr inLen outLen) →
       RunsOn (exec (.compressJob h g format 0 1 1 1 0 outAddr inLen outLen) s) s h 0x0906 g [] (fun u => codecSt u g = 1 ∧ jobOf u g = some j)) ∧
      (∀ cap, let j : Job := ⟨false, format, 0, 1, 1, 1, 0, outAddr, inLen, outLen, 0, cap, [], [], 0⟩
       jobParams h j = true → dramOk a 0 inLen = true → dramOk a outAddr outLen = true →
       Spelled s h 0x0907 (.decompressJob h g format 1 1 1 0 outAddr inLen outLen 0 cap) →
       RunsOn (exec (.decompressJob h g format 1 1 1 0 outAddr inLen outLen 0 cap) s) s h 0x0907 g [] (fun u => codecSt u g = 2 ∧ jobOf u g = some j))) ∧
    (∀ g, g < 2 → domOn a 10 = true →
      (∀ used, codecSt a g = 4 → a.recording.stream = true → Spelled s h 0x0908 (.codecFlush h g used) → ∃ r0 r1,
        exec (.codecFlush h g used) s = .next (holding s (complete (recSegment a false) h 0x0908 .ok r0 r1 0 0))) ∧
      (∀ j, codecSt a g = 3 → jobOf a g = some j → Spelled s h 0x0909 (.codecResume h g 1 0 0 0 0) → ∃ r0 r1,
        Completes (exec (.codecResume h g 1 0 0 0 0) s) s h 0x0909 .ok r0 r1 0 0 (fun u => codecSt u g = 0))) ∧
    (∀ addr, hostAddrOk h addr 16 = true → Spelled s h 0x0B01 (.faultRead h addr) →
      exec (.faultRead h addr) s =
        .next (holding s (complete (hostResult a addr (fltIx.flatMap (entryBytes a))) h 0x0B01 .ok (rdN a FLT_STS) 0 0 0))) ∧
    (∀ i, i < 64 → entrySt a i = 2 → fld a (FLT_ENTRY_W0 i) 29 27 ≠ clsFatal → Spelled s h 0x0B02 (.faultClear h 0 0 0 (1 <<< i)) →
      Completes (exec (.faultClear h 0 0 0 (1 <<< i)) s) s h 0x0B02 .ok 1 0 0 0 (fun u => entrySt u i = 0)) ∧
    (Spelled s h 0x0B03 (.recorderFreeze h) → ∃ r0,
      Completes (exec (.recorderFreeze h) s) s h 0x0B03 .ok r0 0 0 0 (fun u => ringFrozen u = true)) ∧
    (Spelled s h 0x0B04 (.recorderThaw h) → ∃ r0,
      Completes (exec (.recorderThaw h) s) s h 0x0B04 .ok r0 0 0 0 (fun u => ringFrozen u = false)) ∧
    (Spelled s h 0x0B07 (.blackboxRead h 2 0 0 0) → faultAtLeast a clsDevice = false → hostAddrOk h 0 32 = true →
      Completes (exec (.blackboxRead h 2 0 0 0) s) s h 0x0B07 .ok 0 0 0 0 (fun u => flag u EVR_STS 1 = false))

/-- Every event of these forms takes effect where its conditions hold: the layer, the ledger, the overlap unit, the scanners, the laser
pins, the photodiode inputs and the burn map (R18, R178 to R195, R221 to R233, R247, R254, R267 to R294, R302 to R306, R370 to R373). -/
def Claim.LaneEventsComplete : Prop :=
  ∀ (s : State) (n : Nat), Clocked s → n < 24 →
    (∀ addr r, s.seq.loading = some addr → findRun s 0x0105 0 = some r → layerSt s = stLoading → s.seq.loadBad = false →
      Does (exec (.loadPassEnd 0 0) s) s (fun u => u.seq.loading = none)) ∧
    (∀ q bad, inLayer s = true → refillLane s q = none →
      exec (.refillChunk q bad) s = .next (holding s (setFld s (CMP_Q_STS q) 7 0 0xFF))) ∧
    (∀ t, s.seq.start = some (t, false) → layerSt s = stArmed → t ≤ now s →
      ∃ u, exec .layerStart s = .next (holding s (lanes24.foldl laneGo (ledgerStart u))) ∧ layerSt u = stExposing) ∧
    (∀ t, s.seq.start = some (t, true) → layerSt s = stPaused → t ≤ now s →
      ∃ u, exec .resumeStart s = .next (holding s (finishRun (lanes24.foldl resumeLane (ledgerStart u)) 0x0109 0 .ok 0 0 0 0)) ∧
        layerSt u = stExposing) ∧
    (layerSt s = stExposing → s.seq.stopReq = true → s.seq.abortReq = none → resolved s = false →
      ∃ u, exec .stopBathEffect s =
          .next (holding s (poolShow (lanes24.foldl (fun s n => if laneInLayer s n then bathLane s n else s) u))) ∧ layerSt u = stStopBath) ∧
    (layerSt s = stStopBath → allParked s = true → Does (exec .stopBathEnd s) s (fun u => layerSt u = stPaused)) ∧
    (layerSt s = stStopBath → reached s (s.seq.stopAt + fld s SEQ_STOP_CFG 19 16 * 1000000) = true →
      exec .stopTimeout s = .next (holding s (lanes24.foldl (fun s n =>
        if laneInLayer s n && !((lane s n).phase == .parked || (lane s n).phase == .halted || (lane s n).phase == .ended ||
          (lane s n).phase == .idle) then raiseOnce s clsLane 0x0103 (srcLane n) [] else s) s))) ∧
    (s.seq.abortReq = some ⟨2, 0⟩ → stLoading ≤ layerSt s → layerSt s ≤ stPaused →
      Does (exec .abortEffect s) s (fun u => layerSt u = stAborted)) ∧
    (layerSt s = stExposing → resolved s = true → s.seq.abortReq = none → Does (exec .layerDone s) s (fun u => layerSt u = stDone)) ∧
    (inLayer s = true → fld s SEQ_CFG 15 8 < rdN s (LN_UNDERRUNS n) → (lane s n).phase ≠ .halted →
      exec (.underrunRepeat n) s = .next (holding s (raiseOnce s clsLane 0x0102 (srcLane n) []))) ∧
    (layerSt s = stExposing → (lane s n).phase = .underrun → (lane s n).motion.dur ≤ (lane s n).motion.t → refilled s n = true →
      exec (.remarkStart n) s = .next (holding s (setPhase s n .free))) ∧
    (layerSt s = stExposing → s.ledger.waiting = [] → Does (exec .ledgerGrant s) s (fun u =>
      u.ledger.grants = s.ledger.grants.filter (fun g => g.slot != 3))) ∧
    (∀ lanes, Does (exec (.estimateSend lanes) s) s (fun u => u.ovl = s.ovl)) ∧
    exec .estStale s = .next (holding s (estShow s)) ∧
    (∀ via src, portUp s via = true →
      (∀ flags entries, Does (exec (.estimateToken via src flags entries) s) s (fun u => u.ovl.excess.testBit src = flags.testBit 0)) ∧
      (∀ zone lane_ e q req, Does (exec (.claimToken via src zone lane_ e q req) s) s (fun u =>
        u.ovl.claims = s.ovl.claims ++ [⟨src, zone, lane_, e, q, req⟩])) ∧
      (∀ zone seg lane_ req notBefore lo hi split rec_, recCrcOk (recBytes32 rec_) = true → withdrawn s = false →
        takesClaims s (lane_ % 24) = true → (∃ z, (lane s (lane_ % 24)).claimOut = some (src, z, req)) →
        Does (exec (.grantToken via src zone seg lane_ req notBefore lo hi split rec_) s) s (fun u =>
          (lane u (lane_ % 24)).claimed.length = (lane s (lane_ % 24)).claimed.length + 1)) ∧
      (∀ zone lane_ req z, (lane s (lane_ % 24)).claimOut = some (src, z, req) →
        Does (exec (.denyToken via src zone lane_ req) s) s (fun u => (lane u (lane_ % 24)).claimOut = none)) ∧
      (∀ seg lane_ vid resumeAt, s.ovl.pool.any (heldBy lane_ vid seg) = true →
        Does (exec (.returnToken via src seg lane_ vid resumeAt) s) s (fun u => u.ovl.pool.any (heldBy lane_ vid seg) = false)) ∧
      (∀ seg lane_ vid endTime e, s.ovl.pool.find? (heldBy lane_ vid seg) = some e →
        Does (exec (.doneToken via src seg lane_ vid endTime) s) s (fun u => u.ovl.pool.any (heldBy lane_ vid seg) = false)) ∧
      (∀ recs, Does (exec (.positionToken via src recs) s) s (fun u => u.ovl.stale.testBit src = false)) ∧
      (∀ layer last cells, Does (exec (.burnBorder via src layer last cells) s) s (fun u =>
        u.burn.inbox.length = s.burn.inbox.length + cells.length))) ∧
    ((lane s n).claimOut.any (fun c => reached s (c.2.2 + 20000)) = true →
      Does (exec (.claimTimeout n) s) s (fun u => (lane u n).claimOut = none)) ∧
    (∀ peer, (mget [] s.ovl.border peer).isEmpty = false → s.ovl.stale.testBit peer = false →
      reached s (mget 0 s.ovl.heard peer + 20000) = true → Does (exec (.peerStale peer) s) s (fun u => u.ovl.stale.testBit peer = true)) ∧
    (s.ovl.excess = 0 → s.ovl.excessAt + 1000000 ≤ now s → Does (exec .withdrawalEnd s) s (fun u => withdrawn u = false)) ∧
    ((findRun s 0x0203 n).any (Running.aged s 10000000) = true →
      exec (.scannerLinkTimeout n) s = .next (holding s (finishAll s 0x0203 n .timeout 0 0 0 0))) ∧
    (jogDone s n = true → exec (.jogTargetReached n) s = .next (holding s (endJog (rawEnd s n) n .ok 0))) ∧
    (∀ q, (lane s n).retarget = some q → q.jog = false → (lane s n).phase = .jump →
      Does (exec (.jumpRetarget n) s) s (fun u => (lane u n).retarget = none)) ∧
    (∀ d, (lane s n).drift = some d → d.apply = 0 → Does (exec (.driftApply n) s) s (fun u => (lane u n).drift = none)) ∧
    (∀ d, (lane s n).drift = some d → d.apply = 1 → (findRun s 0x0207 n).all (Running.aged s 1000000000) = true →
      Does (exec (.driftTimeout n) s) s (fun u => (lane u n).drift = none)) ∧
    (∀ line, linkGen s n = 3 → flag s (SCN_LINK_CFG n) 3 = false → ungroup 23 line = none →
      exec (.returnFrame n line) s = .next (holding s (linkError s n))) ∧
    (2 ≤ linkGen s n → Does (exec (.returnFrameTimeout n) s) s (fun u => (lane u n).errRun = (lane s n).errRun + 1)) ∧
    (linkState s n = 2 → 2 ≤ linkGen s n → fld s (SCN_DEV_CFG n) 15 8 ≤ (lane s n).errRun → laneInLayer s n = false →
      Does (exec (.linkLost n) s) s (fun u => linkState u n = 3)) ∧
    (flag s (SCN_DEV_CFG n) 31 = true → fld s (SCN_DEV_CFG n) 7 0 < (lane s n).devRun → (lane s n).devRaised = false →
      laneInLayer s n = true → exec (.scanDeviation n) s = .next (holding s
        (raiseFault (updLane s n (fun l => { l with devRaised := true })) clsLane 0x0106 (srcLane n) []))) ∧
    Does (exec (.almNChange n false) s) s (fun u => flag u (LAS_STS n) 2 = false) ∧
    (emitOf s n = false → Does (exec (.rdyFall n) s) s (fun u => flag u (LAS_STS n) 3 = false)) ∧
    (domOn s (afeDom n) = true →
      ((afeIn s n 0).pend.isSome = true → (afeIn s n 0).now1 = true →
        Does (exec (.calibrationRunStart n) s) s (fun u => (afeIn u n 0).run = some (now s))) ∧
      (∀ i, i < 2 → (afeIn s n i).pend.any (fun t => decide (t + 50000000 ≤ now s)) = true →
        Does (exec (.calDeadline n i) s) s (fun u => (afeIn u n i).run = some (now s))) ∧
      (∀ r pd0 pd1, (afeIn s n 0).run = some r → reached s (r + 64000) = true → (afeIn s n 0).result = none → (afeIn s n 1).run = none →
        exec (.calibrationRunEnd n pd0 pd1) s = .next (holding s (afeCompute s n 0 pd0)))) ∧
    (∀ layer, s.burn.ended = some (layer, true) → Does (exec .burnUpdate s) s (fun u => u.burn.ended = none)) ∧
    (∀ peer, s.burn.ended ≠ none → reached s (s.burn.endedAt + 50000000) = true → borderWhole s peer = false →
      (sharers s).contains peer = true → Does (exec (.burnBorderTimeout peer) s) s (fun u => u.burn.missing.contains peer = true))

/-- Every event of these forms takes effect where its conditions hold: the cameras, the axes, DRAM, DMA, codecs, faults and registers (R312 to R329, R382 to R403,
R471 to R484, R494 to R513, R553, R555, R565 to R567, R18, R596). -/
def Claim.UnitEventsComplete : Prop :=
  ∀ s : State, Clocked s →
    (∀ off v, off % 4 = 0 → exec (.registerWrite off v true) s = .next (holding s (regWrite s 0 off v))) ∧
    (s.live ≠ [] → ∃ u, exec .liveFieldApply s = .next (holding s u) ∧ u.live = []) ∧
    (∀ port vc phy, port < 6 → domOn s (2 + port) = true → framesVc s port vc = [] →
      let b := phyShow s port phy
      (∀ csi ns, exec (.frameStart port vc csi false phy ns) s = .next (holding s (satInc b (CAM_IGNORED port)))) ∧
      (∀ ns, exec (.frameEnd port vc false phy ns) s = .next (holding s (satInc b (CAM_IGNORED port)))) ∧
      (∀ dt data, exec (.longPacket port vc dt 0 true data phy) s = .next (holding s (satInc b (CAM_IGNORED port))))) ∧
    (∀ p, domOn s (8 + p) = true → ctxs.any (hasLine s p) = true → (pipe s p).busyTo < nowFs s + tickFs s →
      exec (.pipelineLine p) s = .next (holding s (drr p 1152 s (pipe s p).turn))) ∧
    (∀ c, c < 32 →
      (watchOver s c = true → (ctx s c).commit = none → Does (exec (.frameTimeout c) s) s (fun u => flag u (ISP_CTX_STS2 c) 0 = true)) ∧
      (∀ f fs, (ctx s c).frames = f :: fs → frameReady f = true → sampled s f = true →
        Does (exec (.statsRecordReady c) s) s (fun u => (ctx u c).frames = fs)) ∧
      (∀ r rs, (ctx s c).out = r :: rs → r.ready < now s → r.routes = 0 →
        Does (exec (.statsDelivery c) s) s (fun u => (ctx u c).out = rs)) ∧
      (∀ b base, (ctx s c).writes = [b] → b.first = none → b.base = some base → domOn s (2 + fld s (ISP_CTX_CFG c) 25 23) = true →
        ∀ acked, acked < b.items.length → Does (exec (.sensorWrites c acked) s) s (fun u => flag u (ISP_CTX_STS2 c) 2 = true)) ∧
      (∀ gen ws b, (ctx s c).commit = some (gen, ws) → (ctx s c).writes = [b] → b.gen = gen → b.first = none →
        reached s ((ctx s c).commitAt + 100000000) = true →
        exec (.contextWriteTimeout c) s = .next (holding s (updCtx s c (fun x => { x with overdue := true }))))) ∧
    (∀ k, k < 8 →
      (∀ p, (axis s k).plan = some p → p.dur ≤ p.t →
        (axState s k = axMoving → Does (exec (.axisTargetReached k) s) s (fun u => axState u k = axIdle)) ∧
        (axState s k = axStopping → Does (exec (.axisAtRest k) s) s (fun u => axState u k = axIdle)) ∧
        (axState s k = axHoming → (axis s k).homing = 8 → Does (exec (.homingComplete k) s) s (fun u => axState u k = axIdle))) ∧
      (∀ lim, axState s k = axHoming → homeLimit s k = some lim → lim ≤ (rdI s (AX_POS k) - (axis s k).homeFrom).natAbs →
        exec (.homeFail k) s = .next (holding s (axisFault s k 4))) ∧
      (∀ i, i < 3 →
        (∀ level ns raw, Does (exec (.switchTransition k i level ns raw) s) s (fun u => (axis u k).pins.testBit i = level)) ∧
        (swEn s k i = true → swOn s k i = true → swRaw s k i = false → swHeld s k i = true → axState s k ≠ axHoming →
          Does (exec (.switchDebounce k i) s) s (fun u => swOn u k i = false)) ∧
        (swEn s k i = true → fld s (AX_SW_CFG k) 23 16 ≠ 0 →
          fld s (AX_SW_CFG k) 23 16 < ((mget [] (axis s k).edges i).filter
            (fun e => decide (now s < e.time + fld s (AX_SW_CFG k) 31 24 * 1000000))).length → axState s k ≠ axDisabled →
          exec (.switchChatter k i) s = .next (holding s (axisFault (setFld s (AX_SW_STS k) 7 6 i) k 3)))) ∧
      (flag s (AX_CFG k) 6 = true → hasEncoder s k = true → axState s k ≠ axDisabled →
        fld s (AX_DEV_WIN k) 15 0 < (rdI s (AX_DEV k)).natAbs → stallDue s k = true → exec (.stall k) s = .next (holding s (axisFault s k 1))) ∧
      (hasEncoder s k = true → flag s (AX_CFG k) 6 = false → exec (.encErr k) s = .next (holding s (satInc s (AX_ENC_ERRS k)))) ∧
      (∀ frame ns, fld s (AX_CFG k) 5 4 = 2 → flag s (AX_SSI_CFG k) 31 = false →
        Does (exec (.ssiFrame k frame ns) s) s (fun u => (axis u k).encCount = frame % 2 ^ fld s (AX_SSI_CFG k) 29 24)) ∧
      (∀ ns raw, axState s k = axHoming → (axis s k).homing = 7 → Does (exec (.enczIndex k ns raw) s) s (fun u => (axis u k).homing = 8))) ∧
    (∀ g, s.groupStart = some g → startDue s 0x0706 g = true → g.sync = false →
      (∀ j, j < 8 → g.mask.testBit j = true → axState s j = axArmed ∧ (axis s j).armed.isSome = true) →
      ∃ u, exec .groupStartBoundary s = .next (holding s (finishRun u 0x0706 0 .ok (tickNo u) 0 0 0)) ∧ u.groupStart = none) ∧
    (∀ g, s.resumeStart = some g → startDue s 0x0705 g = true → s.pwr.safe = false →
      (∀ j, j < 8 → g.mask.testBit j = true → axState s j = axIdle ∧ flag s (AX_STS j) 21 = true) →
      ∃ u, exec .axisResumeStart s = .next (holding s (finishRun u 0x0705 0 .ok (tickNo u) 0 0 0)) ∧ u.resumeStart = none) ∧
    (∀ c, c < 2 →
      (chState s c = chTraining → ∀ us, ∃ u, exec (.trainingEnd c 0 us 0 0) s =
        .next (holding s (finishRun u 0x0901 c .ok us 0 (rdN s (DDR_CH_CAP c)) 0)) ∧ chState u c = chTrained) ∧
      (∀ q, chReady s c = true → (dramCh s c).reqs = [] → q.isWrite = true → chanOf s q.addr = c → portOf q.who true = some q.port →
        Does (exec (.dramRequest c [q] [0] 0) s) s (fun u => u.dram = (putDram s q.addr q.data).dram)) ∧
      Does (exec (.throttleExpiry c) s) s (fun u =>
        (dramCh u c).throttles = (dramCh s c).throttles.filter (fun t => decide (now s < t.until_))) ∧
      (reached s ((dramCh s c).winAt + 32000000) = true → Does (exec (.disturbWindow c) s) s (fun u => (dramCh u c).counts = [])) ∧
      (∀ bank, chReady s c = true → (dramCh s c).reqs = [] → Does (exec (.refresh c bank) s) s (fun u => (dramCh u c).owed = 0)) ∧
      (∀ hot, chReady s c = true → fld s (DDR_CH_CFG c) 8 8 = 0 →
        Does (exec (.dramTempRead c hot) s) s (fun u => flag u DDR_STS (8 + c) = hot.testBit 0)) ∧
      exec (.zqCalibration c) s = .next (holding s s) ∧
      (chReady s c = true → Does (exec (.patrolScrub c 0) s) s (fun u =>
        (dramCh u c).scrubAt = (if (dramCh s c).scrubAt + 64 < chCap s c then (dramCh s c).scrubAt + 64 else 0)))) ∧
    (∀ c, c < 32 →
      (∀ bs, (dmaCh s c).cur = none → (dmaCh s c).pre = none → dmaState s c = 1 → (dmaCh s c).space = 1 →
        spaceRead s 1 (rd64 s (DMA_CH_DESC_LO c) (DMA_CH_DESC_HI c)) 32 = some bs → dmaDesc bs = none →
        exec (.descriptorFetch c) s = .next (holding s (dmaEnd s c 6 false .badParam))) ∧
      (∀ t, dmaSlot s = some t → reached s t = true → dmaPick s t = some c → exec (.dmaBurst []) s = .next (holding s (dmaIssue s c t)))) ∧
    (∀ kind space addr, kind < 16 → space < 4 → addr < 2 ^ 64 → Does (exec (.busErr kind space addr []) s) s (fun u =>
      flag u DMA_STS 0 = true ∧ fld u DMA_STS 7 4 = kind)) ∧
    (∀ g, g < 2 → ∀ j data used, jobOf s g = some j → codecSt s g = 1 ∨ codecSt s g = 2 → j.inSpace = 1 → j.outSpace = 1 →
      jobInput s j = some data → exec (.codecJobEnd g 0 used) s = .next (holding s (jobRun s g j data))) ∧
    (recDeflate s = true → s.recording.stream = true → reached s (s.recording.flushAt + fld s CMP_REC_FLUSH 15 0 * 1000) = true →
      exec .recordingFlush s = .next (holding s (recSegment { s with recording := { s.recording with flushAt := now s } } false))) ∧
    (∀ hi, domOn s 10 = true → exec (.cmpRecReadHi hi) s = .next (holding s (recReadHi s hi))) ∧
    (∀ code source, code ≠ 0x0301 → conditionHolds s code source = false →
      exec (.faultConditionGone code source) s = .next (holding s (fltShow (faultGone s code source)))) ∧
    (settle s = s → ∀ source, s.evr.recov.any (fun r => r.timers.any (fun t => t.cls == clsDevice && t.source == source && reached s t.due)) = true →
      let drop (r : Recovery) : Recovery := { r with timers := r.timers.filter (fun t => !(t.cls == clsDevice && t.source == source && reached s t.due)) }
      exec (.recoveryTimer clsDevice source) s =
        .next (holding s (raiseFault { s with evr := { s.evr with recov := s.evr.recov.map drop } } clsFatal 0x0402 srcDevice []))) ∧
    (∀ e rest, s.evr.thawLost = false → s.evr.fifo = e :: rest → ringFrozen s = true →
      Does (exec .eventDrain s) s (fun u => u.evr.fifo = rest)) ∧
    (∀ w, w < 511 → Does (exec (.evrWindowRead w) s) s (fun u =>
      u.readData = leNat (sramBytes s (mainRing + (fld s EVR_CURSOR 15 0 + w / 8) % 65536 * 32 + w % 8 * 4) 4)))

/-! ### Statements of several parts -/

/-- Completions (R121, R126, R132 to R134, R437): where a completion goes, the slot it takes in host memory, and what waits while
the device may not request. -/
def Obligations.CompletionsReachTheirRing : Prop := Claim.CompletionGoesToIssuer ∧ Claim.CompletionTakesSlot ∧ Claim.WritesWaitForBusMaster

/-- R128: the doorbells of a host ring. A value outside the ring, or one that would return a slot not yet written, is ignored and
sets DOORBELL_ERR, and the ring keeps its index; any other value is the new index. -/
def Obligations.Doorbells : Prop := Claim.SubmissionDoorbell ∧ Claim.CompletionDoorbell

/-- The registers of a host ring (R17, R18, R127, R132). -/
def Obligations.RingRegisters : Prop := Claim.RingBaseRestarts ∧ Claim.RingEnableWaits

/-- Fetching commands (R124, R125, R129, R130). -/
def Obligations.RingsFetch : Prop := Claim.FetchTakesOne ∧ Claim.FetchNeedsRoom ∧ Claim.FailedFetchStopsRing

/-- The PCIe link and its configuration space (R90, R92, R95, R117 to R119, R121, R144). -/
def Obligations.HostLink : Prop := Claim.PerstResetsHostSide ∧ Claim.LinkAndBusMaster ∧ Claim.ConfigSpace

/-- The system opcodes that report (R105, R137, R147). -/
def Obligations.SystemCommands : Prop := Claim.SystemReports ∧ Claim.StatusCommands

/-- The status mirror (R142 to R144). -/
def Obligations.StatusMirror : Prop := Claim.SnapshotWrites ∧ Claim.MirrorSnapshot ∧ Claim.MirrorLayout

/-- COMMIT from its capture to its effect or rejection (R19, R20, R146). -/
def Obligations.Commits : Prop := Claim.CommitCaptures ∧ Claim.RejectedCommit ∧ Claim.CommitTakesEffect ∧ Claim.CheckOnlyTakesNothing

/-- How a fabric forms (R427 to R432). -/
def Obligations.FabricForms : Prop := Claim.AddressesAssigned ∧ Claim.HelloFrames ∧ Claim.RoutingUpdates

/-- The links of a fabric (R414, R415, R419 to R425). -/
def Obligations.FabricLinks : Prop := Claim.PortsFailAndRetrain ∧ Claim.LaneSwaps ∧ Claim.LinkAcknowledgements

/-- What frames carry over a fabric (R416, R418, R430, R434, R436, R437, R441). -/
def Obligations.FabricTransport : Prop := Claim.FramesInTransit ∧ Claim.EndToEndDelivery ∧ Claim.ForwardedCommands ∧ Claim.BulkCollection

/-- The commands of the fabric (R444 to R450). -/
def Obligations.FabricCommands : Prop := Claim.FabricSettings ∧ Claim.PortSetTimesOut

/-- Fabric time and triggers (R457 to R468). -/
def Obligations.FabricTime : Prop := Claim.GrandmasterSelection ∧ Claim.PathDelay ∧ Claim.SyncAndLock ∧ Claim.TimeAndTriggers

/-- Mailbox channels (R519 to R524, R528, R529). -/
def Obligations.Mailboxes : Prop := Claim.MailboxMessageWrite ∧ Claim.MailboxPostAndRead ∧ Claim.MailboxOverFabric ∧ Claim.MailboxCommands

/-- The service port and the watchdog of a conductor (R526, R531 to R534, R558, R559). -/
def Obligations.ServicePortAndWatchdog : Prop := Claim.ServicePort ∧ Claim.ConductorWatchdogFires

/-- The operator panel and its lighting (R536 to R549). -/
def Obligations.Panel : Prop := Claim.PanelCommands ∧ Claim.PanelEvents

/-- What ends the motion of an axis and what its pins report (R382 to R403). -/
def Obligations.AxisEvents : Prop := Claim.AxisMotionEnds ∧ Claim.AxisInputs

/-- The burn map (R362 to R374). -/
def Obligations.BurnMap : Prop := Claim.BurnCommands ∧ Claim.BurnWork

/-- Scanners and their links (R207 to R233). -/
def Obligations.Scanners : Prop := Claim.ScannerCommands ∧ Claim.ScannerLinks

/-- Laser ports and the power ledger (R242 to R260). -/
def Obligations.LaserPorts : Prop := Claim.LaserCommands ∧ Claim.LaserPinsAndGrants

/-- Overlap, handoff and plume (R271 to R294). -/
def Obligations.Overlap : Prop := Claim.HandoffTokens ∧ Claim.OverlapCommands

/-- Photodiode inputs and their calibration (R302 to R309). -/
def Obligations.PhotodiodeInputs : Prop := Claim.AfeCommands ∧ Claim.CalibrationRuns

/-- Cameras from the command to the record (R312 to R333). -/
def Obligations.Cameras : Prop := Claim.CameraCommands ∧ Claim.CameraFrames ∧ Claim.CameraRecords

/-- Jobs, their tables and layer images (R148 to R181). -/
def Obligations.JobsAndImages : Prop := Claim.JobsAndTables ∧ Claim.LoadingAndRefill

/-- A layer from its start to its end (R178 to R195). -/
def Obligations.LayerSequence : Prop := Claim.LayerBoundaries ∧ Claim.LayerEnds

/-- The DMA engine (R493 to R502, R515). -/
def Obligations.DmaEngine : Prop := Claim.DmaCommands ∧ Claim.DmaWork

/-- Codecs and recording (R504 to R515). -/
def Obligations.Codecs : Prop := Claim.CodecCommands ∧ Claim.CodecWork

/-- The DRAM channels (R471 to R487). -/
def Obligations.Dram : Prop := Claim.DramCommands ∧ Claim.DramWork

/-- Faults and the event recorder (R552 to R572, R579). -/
def Obligations.FaultTable : Prop := Claim.FaultEntries ∧ Claim.FaultCommands ∧ Claim.RecorderWork

/-- Every command of these forms completes (R135, R137): when its packet starts, spells it and passes its checks, it ends with OK, or
runs on under its key, having done what it is for. -/
def Obligations.CommandsComplete : Prop := Claim.LaneCommandsComplete ∧ Claim.UnitCommandsComplete

/-- Every event of these forms takes effect where its conditions hold. -/
def Obligations.EventsComplete : Prop := Claim.LaneEventsComplete ∧ Claim.UnitEventsComplete

/-- Resets, supplies and boot (R71, R73, R83, R90 to R101, R114). -/
def Obligations.ResetsAndBoot : Prop := Claim.ResetsAreSafe ∧ Claim.BootStarts

end Statements
end

