-- ==== Sys2Proof/Laws/Bits.lean ====
section
/-!
SUPPORT. Lemmas about bit fields, little-endian bytes and the keyed lists of the state.
-/

namespace Sys2Proof.Laws

open Sys2Proof.Machine

/-! ### Bit fields -/

theorem natBits_testBit (n hi lo i : Nat) :
    (natBits n hi lo).testBit i = (decide (i < hi - lo + 1) && n.testBit (lo + i)) := by
  simp [natBits, Nat.testBit_mod_two_pow, Nat.testBit_shiftRight]

theorem natBits_lt (n hi lo : Nat) : natBits n hi lo < 2 ^ (hi - lo + 1) := Nat.mod_lt _ (by positivity)

theorem setBits_getLsbD (w : Word) (hi lo v i : Nat) :
    (setBits w hi lo v).getLsbD i =
      (decide (i < 32) && if lo ≤ i ∧ i - lo < hi - lo + 1 then v.testBit (i - lo) else w.getLsbD i) := by
  simp only [setBits, BitVec.getLsbD_or, BitVec.getLsbD_and, BitVec.getLsbD_not, BitVec.getLsbD_ofNat, Nat.testBit_shiftLeft,
    Nat.testBit_two_pow_sub_one]
  by_cases h : i < 32
  · by_cases h1 : lo ≤ i
    · by_cases h2 : i - lo < hi - lo + 1 <;> simp [h, h1, h2]
    · simp [h, h1]
  · have : w.getLsbD i = false := BitVec.getLsbD_of_ge _ _ (by omega)
    simp [h]

/-- A field reads back the low bits of what was put into it. -/
theorem bitsOf_setBits_same (w : Word) (hi lo v : Nat) (h : hi < 32) (hl : lo ≤ hi) :
    bitsOf (setBits w hi lo v) hi lo = v % 2 ^ (hi - lo + 1) := by
  apply Nat.eq_of_testBit_eq
  intro i
  rw [bitsOf, natBits_testBit, ← BitVec.getLsbD, setBits_getLsbD, Nat.testBit_mod_two_pow]
  by_cases hi' : i < hi - lo + 1
  · have h3 : lo + i < 32 := by omega
    simp [hi', h3]
  · simp [hi']

/-- A field that does not meet the one written keeps its value. -/
theorem bitsOf_setBits_other (w : Word) (hi lo v h l : Nat) (hw : lo ≤ hi) (hl : l ≤ h) (hd : h < lo ∨ hi < l) :
    bitsOf (setBits w hi lo v) h l = bitsOf w h l := by
  apply Nat.eq_of_testBit_eq
  intro i
  rw [bitsOf, bitsOf, natBits_testBit, natBits_testBit, ← BitVec.getLsbD, ← BitVec.getLsbD, setBits_getLsbD]
  by_cases hi' : i < h - l + 1
  · have h3 : ¬ (lo ≤ l + i ∧ l + i - lo < hi - lo + 1) := by omega
    rw [if_neg h3]
    by_cases h4 : l + i < 32
    · simp [hi', h4]
    · have : w.getLsbD (l + i) = false := BitVec.getLsbD_of_ge _ _ (by omega)
      simp [h4, this]
  · simp [hi']

theorem bitsOf_lt (w : Word) (hi lo : Nat) : bitsOf w hi lo < 2 ^ (hi - lo + 1) := natBits_lt _ _ _

/-- The whole word as a field is its number. -/
theorem bitsOf_full (w : Word) : bitsOf w 31 0 = w.toNat := by
  simpa [bitsOf, natBits] using w.isLt

theorem natSet_testBit (n i j : Nat) : (natSet n i).testBit j = (n.testBit j || decide (i = j)) := by
  simp [natSet, Nat.testBit_or, Nat.one_shiftLeft, Nat.testBit_two_pow]

theorem natClr_testBit (n i j : Nat) : (natClr n i).testBit j = (n.testBit j && decide (i ≠ j)) := by
  unfold natClr
  split
  · rename_i h
    have hlt : n % 2 ^ i < 2 ^ i := Nat.mod_lt _ (by positivity)
    have hn : n = 2 ^ i * (n / 2 ^ i) + n % 2 ^ i := (Nat.div_add_mod _ _).symm
    have hodd : (n / 2 ^ i) % 2 = 1 := by
      simpa [Nat.testBit, Nat.shiftRight_eq_div_pow] using h
    have hs : n - 1 <<< i = 2 ^ i * (n / 2 ^ i - 1) + n % 2 ^ i := by
      rw [Nat.one_shiftLeft]
      generalize n / 2 ^ i = q at *
      obtain ⟨q, rfl⟩ : ∃ r, q = r + 1 := ⟨q - 1, by omega⟩
      rw [Nat.mul_add] at hn
      simp only [Nat.add_sub_cancel]
      omega
    rw [hs, Nat.testBit_two_pow_mul_add _ hlt]
    conv_rhs => rw [hn, Nat.testBit_two_pow_mul_add _ hlt]
    by_cases h1 : j < i
    · simp [h1]; omega
    · rw [if_neg h1, if_neg h1]
      generalize n / 2 ^ i = q at *
      obtain ⟨k, rfl⟩ : ∃ k, j = i + k := ⟨j - i, by omega⟩
      rw [Nat.add_sub_cancel_left]
      cases k with
      | zero => simp; omega
      | succ k =>
        rw [Nat.testBit_succ, Nat.testBit_succ]
        have : (q - 1) / 2 = q / 2 := by omega
        simp [this]
  · rename_i h
    by_cases hk : i = j
    · subst hk; simpa using h
    · simp [hk]

@[simp] theorem b2n_true : b2n true = 1 := rfl
@[simp] theorem b2n_false : b2n false = 0 := rfl

theorem b2n_lt (b : Bool) : b2n b < 2 := by cases b <;> decide

/-! ### Bytes -/

@[simp] theorem leBytes_length (k n : Nat) : (leBytes k n).length = k := by
  induction k generalizing n with
  | zero => rfl
  | succ k ih => simp [leBytes, ih]

/-- Little-endian bytes read back their number, modulo their width. -/
theorem leNat_leBytes (k n : Nat) : leNat (leBytes k n) = n % 256 ^ k := by
  induction k generalizing n with
  | zero => simp [leBytes, leNat, Nat.mod_one]
  | succ k ih =>
    simp only [leBytes, leNat, ih, BitVec.toNat_ofNat]
    rw [Nat.pow_succ 256 k, Nat.mul_comm (256 ^ k) 256, Nat.mod_mul, show (2 : Nat) ^ 8 = 256 from rfl]

theorem leNat_lt (bs : List Byte) : leNat bs < 256 ^ bs.length := by
  induction bs with
  | nil => simp [leNat]
  | cons b bs ih =>
    simp only [leNat, List.length_cons, Nat.pow_succ]
    have := b.isLt
    omega

@[simp] theorem zeros_length (k : Nat) : (zeros k).length = k := by simp [zeros]

/-! ### Keyed lists -/

section Keyed
variable {α : Type} (d : α) (m : List (Nat × α)) (k j : Nat) (v : α)

@[simp] theorem mget_mset_same : mget d (mset m k v) k = v := by
  induction m with
  | nil => simp [mset, mget]
  | cons e m ih =>
    obtain ⟨i, w⟩ := e
    unfold mset
    by_cases h1 : k < i
    · simp [h1, mget]
    · by_cases h2 : k = i
      · simp [h2, mget]
      · have h3 : i ≠ k := fun h => h2 h.symm
        simp [h1, h2, mget, h3, ih]

theorem mget_mset_other (h : j ≠ k) : mget d (mset m k v) j = mget d m j := by
  induction m with
  | nil => simp [mset, mget, Ne.symm h]
  | cons e m ih =>
    obtain ⟨i, w⟩ := e
    unfold mset
    by_cases h1 : k < i
    · simp [h1, mget, Ne.symm h]
    · by_cases h2 : k = i
      · subst h2; simp [mget, Ne.symm h]
      · by_cases h3 : i = j
        · subst h3; simp [h1, h2, mget]
        · simp [h1, h2, mget, h3, ih]

theorem mget_mset : mget d (mset m k v) j = if j = k then v else mget d m j := by
  by_cases h : j = k
  · subst h; simp
  · rw [if_neg h, mget_mset_other _ _ _ _ _ h]

end Keyed

/-- An observation that every step of a fold keeps is kept by the fold. -/
theorem foldl_keeps {σ β γ : Type} (g : σ → γ) (f : σ → β → σ) (h : ∀ s x, g (f s x) = g s) (l : List β) (s : σ) :
    g (l.foldl f s) = g s := by
  induction l generalizing s with
  | nil => rfl
  | cons x l ih => simp [ih, h]

/-- A relation that every step of a fold has is the fold's, if it is reflexive and transitive. -/
theorem foldl_rel {σ β : Type} (R : σ → σ → Prop) (refl : ∀ s, R s s) (trans : ∀ s t u, R s t → R t u → R s u)
    (f : σ → β → σ) (h : ∀ s x, R s (f s x)) (l : List β) (s : σ) : R s (l.foldl f s) := by
  induction l generalizing s with
  | nil => exact refl s
  | cons x l ih => exact trans _ _ _ (h s x) (ih _)

/-- An invariant that every step of a fold keeps holds after it. -/
theorem foldl_inv {σ β : Type} (P : σ → Prop) (f : σ → β → σ) (l : List β) (h : ∀ s, ∀ x ∈ l, P s → P (f s x)) (s : σ) (hs : P s) :
    P (l.foldl f s) := by
  induction l generalizing s with
  | nil => exact hs
  | cons x l ih =>
    exact ih (fun s y hy => h s y (List.mem_cons_of_mem _ hy)) _ (h s x (List.mem_cons_self) hs)

end Sys2Proof.Laws
end

