-- ==== Sys2Proof/Laws/State.lean ====
section
/-!
SUPPORT. What each plain update of the state leaves alone, field by field; registers and fields read back; and `Same`, which says
once for an operation which parts of the state it can change.
-/

namespace Sys2Proof.Laws

open Sys2Proof.Machine

/-! ### One lemma per field per update -/

variable (s t : State)

@[simp] theorem wr_shadow (a : Nat) (w : Word) : (wr s a w).shadow = s.shadow := rfl
@[simp] theorem wr_dirty (a : Nat) (w : Word) : (wr s a w).dirty = s.dirty := rfl
@[simp] theorem wr_capture (a : Nat) (w : Word) : (wr s a w).capture = s.capture := rfl
@[simp] theorem wr_live (a : Nat) (w : Word) : (wr s a w).live = s.live := rfl
@[simp] theorem wr_latched (a : Nat) (w : Word) : (wr s a w).latched = s.latched := rfl
@[simp] theorem wr_readData (a : Nat) (w : Word) : (wr s a w).readData = s.readData := rfl
@[simp] theorem wr_fuses (a : Nat) (w : Word) : (wr s a w).fuses = s.fuses := rfl
@[simp] theorem wr_pins (a : Nat) (w : Word) : (wr s a w).pins = s.pins := rfl
@[simp] theorem wr_pwr (a : Nat) (w : Word) : (wr s a w).pwr = s.pwr := rfl
@[simp] theorem wr_thm (a : Nat) (w : Word) : (wr s a w).thm = s.thm := rfl
@[simp] theorem wr_hif (a : Nat) (w : Word) : (wr s a w).hif = s.hif := rfl
@[simp] theorem wr_evr (a : Nat) (w : Word) : (wr s a w).evr = s.evr := rfl
@[simp] theorem wr_seq (a : Nat) (w : Word) : (wr s a w).seq = s.seq := rfl
@[simp] theorem wr_lanes (a : Nat) (w : Word) : (wr s a w).lanes = s.lanes := rfl
@[simp] theorem wr_ledger (a : Nat) (w : Word) : (wr s a w).ledger = s.ledger := rfl
@[simp] theorem wr_ovl (a : Nat) (w : Word) : (wr s a w).ovl = s.ovl := rfl
@[simp] theorem wr_fab (a : Nat) (w : Word) : (wr s a w).fab = s.fab := rfl
@[simp] theorem wr_ftm (a : Nat) (w : Word) : (wr s a w).ftm = s.ftm := rfl
@[simp] theorem wr_svc (a : Nat) (w : Word) : (wr s a w).svc = s.svc := rfl
@[simp] theorem wr_mbxDue (a : Nat) (w : Word) : (wr s a w).mbxDue = s.mbxDue := rfl
@[simp] theorem wr_axes (a : Nat) (w : Word) : (wr s a w).axes = s.axes := rfl
@[simp] theorem wr_groupStart (a : Nat) (w : Word) : (wr s a w).groupStart = s.groupStart := rfl
@[simp] theorem wr_resumeStart (a : Nat) (w : Word) : (wr s a w).resumeStart = s.resumeStart := rfl
@[simp] theorem wr_dma (a : Nat) (w : Word) : (wr s a w).dma = s.dma := rfl
@[simp] theorem wr_dmaTurn (a : Nat) (w : Word) : (wr s a w).dmaTurn = s.dmaTurn := rfl
@[simp] theorem wr_dmaNext (a : Nat) (w : Word) : (wr s a w).dmaNext = s.dmaNext := rfl
@[simp] theorem wr_jobs (a : Nat) (w : Word) : (wr s a w).jobs = s.jobs := rfl
@[simp] theorem wr_recording (a : Nat) (w : Word) : (wr s a w).recording = s.recording := rfl
@[simp] theorem wr_dramCh (a : Nat) (w : Word) : (wr s a w).dramCh = s.dramCh := rfl
@[simp] theorem wr_sramLost (a : Nat) (w : Word) : (wr s a w).sramLost = s.sramLost := rfl
@[simp] theorem wr_dramLost (a : Nat) (w : Word) : (wr s a w).dramLost = s.dramLost := rfl
@[simp] theorem wr_burnBad (a : Nat) (w : Word) : (wr s a w).burnBad = s.burnBad := rfl
@[simp] theorem wr_burn (a : Nat) (w : Word) : (wr s a w).burn = s.burn := rfl
@[simp] theorem wr_cams (a : Nat) (w : Word) : (wr s a w).cams = s.cams := rfl
@[simp] theorem wr_pipes (a : Nat) (w : Word) : (wr s a w).pipes = s.pipes := rfl
@[simp] theorem wr_camBus (a : Nat) (w : Word) : (wr s a w).camBus = s.camBus := rfl
@[simp] theorem wr_panel (a : Nat) (w : Word) : (wr s a w).panel = s.panel := rfl
@[simp] theorem wr_sram (a : Nat) (w : Word) : (wr s a w).sram = s.sram := rfl
@[simp] theorem wr_dram (a : Nat) (w : Word) : (wr s a w).dram = s.dram := rfl
@[simp] theorem wr_host (a : Nat) (w : Word) : (wr s a w).host = s.host := rfl
@[simp] theorem wr_running (a : Nat) (w : Word) : (wr s a w).running = s.running := rfl
@[simp] theorem wr_freeCtr (a : Nat) (w : Word) : (wr s a w).freeCtr = s.freeCtr := rfl
@[simp] theorem wr_pending (a : Nat) (w : Word) : (wr s a w).pending = s.pending := rfl

@[simp] theorem wrN_shadow (a n : Nat) : (wrN s a n).shadow = s.shadow := rfl
@[simp] theorem wrN_dirty (a n : Nat) : (wrN s a n).dirty = s.dirty := rfl
@[simp] theorem wrN_capture (a n : Nat) : (wrN s a n).capture = s.capture := rfl
@[simp] theorem wrN_live (a n : Nat) : (wrN s a n).live = s.live := rfl
@[simp] theorem wrN_latched (a n : Nat) : (wrN s a n).latched = s.latched := rfl
@[simp] theorem wrN_readData (a n : Nat) : (wrN s a n).readData = s.readData := rfl
@[simp] theorem wrN_fuses (a n : Nat) : (wrN s a n).fuses = s.fuses := rfl
@[simp] theorem wrN_pins (a n : Nat) : (wrN s a n).pins = s.pins := rfl
@[simp] theorem wrN_pwr (a n : Nat) : (wrN s a n).pwr = s.pwr := rfl
@[simp] theorem wrN_thm (a n : Nat) : (wrN s a n).thm = s.thm := rfl
@[simp] theorem wrN_hif (a n : Nat) : (wrN s a n).hif = s.hif := rfl
@[simp] theorem wrN_evr (a n : Nat) : (wrN s a n).evr = s.evr := rfl
@[simp] theorem wrN_seq (a n : Nat) : (wrN s a n).seq = s.seq := rfl
@[simp] theorem wrN_lanes (a n : Nat) : (wrN s a n).lanes = s.lanes := rfl
@[simp] theorem wrN_ledger (a n : Nat) : (wrN s a n).ledger = s.ledger := rfl
@[simp] theorem wrN_ovl (a n : Nat) : (wrN s a n).ovl = s.ovl := rfl
@[simp] theorem wrN_fab (a n : Nat) : (wrN s a n).fab = s.fab := rfl
@[simp] theorem wrN_ftm (a n : Nat) : (wrN s a n).ftm = s.ftm := rfl
@[simp] theorem wrN_svc (a n : Nat) : (wrN s a n).svc = s.svc := rfl
@[simp] theorem wrN_mbxDue (a n : Nat) : (wrN s a n).mbxDue = s.mbxDue := rfl
@[simp] theorem wrN_axes (a n : Nat) : (wrN s a n).axes = s.axes := rfl
@[simp] theorem wrN_groupStart (a n : Nat) : (wrN s a n).groupStart = s.groupStart := rfl
@[simp] theorem wrN_resumeStart (a n : Nat) : (wrN s a n).resumeStart = s.resumeStart := rfl
@[simp] theorem wrN_dma (a n : Nat) : (wrN s a n).dma = s.dma := rfl
@[simp] theorem wrN_dmaTurn (a n : Nat) : (wrN s a n).dmaTurn = s.dmaTurn := rfl
@[simp] theorem wrN_dmaNext (a n : Nat) : (wrN s a n).dmaNext = s.dmaNext := rfl
@[simp] theorem wrN_jobs (a n : Nat) : (wrN s a n).jobs = s.jobs := rfl
@[simp] theorem wrN_recording (a n : Nat) : (wrN s a n).recording = s.recording := rfl
@[simp] theorem wrN_dramCh (a n : Nat) : (wrN s a n).dramCh = s.dramCh := rfl
@[simp] theorem wrN_sramLost (a n : Nat) : (wrN s a n).sramLost = s.sramLost := rfl
@[simp] theorem wrN_dramLost (a n : Nat) : (wrN s a n).dramLost = s.dramLost := rfl
@[simp] theorem wrN_burnBad (a n : Nat) : (wrN s a n).burnBad = s.burnBad := rfl
@[simp] theorem wrN_burn (a n : Nat) : (wrN s a n).burn = s.burn := rfl
@[simp] theorem wrN_cams (a n : Nat) : (wrN s a n).cams = s.cams := rfl
@[simp] theorem wrN_pipes (a n : Nat) : (wrN s a n).pipes = s.pipes := rfl
@[simp] theorem wrN_camBus (a n : Nat) : (wrN s a n).camBus = s.camBus := rfl
@[simp] theorem wrN_panel (a n : Nat) : (wrN s a n).panel = s.panel := rfl
@[simp] theorem wrN_sram (a n : Nat) : (wrN s a n).sram = s.sram := rfl
@[simp] theorem wrN_dram (a n : Nat) : (wrN s a n).dram = s.dram := rfl
@[simp] theorem wrN_host (a n : Nat) : (wrN s a n).host = s.host := rfl
@[simp] theorem wrN_running (a n : Nat) : (wrN s a n).running = s.running := rfl
@[simp] theorem wrN_freeCtr (a n : Nat) : (wrN s a n).freeCtr = s.freeCtr := rfl
@[simp] theorem wrN_pending (a n : Nat) : (wrN s a n).pending = s.pending := rfl

@[simp] theorem wrI_shadow (a : Nat) (i : Int) : (wrI s a i).shadow = s.shadow := rfl
@[simp] theorem wrI_dirty (a : Nat) (i : Int) : (wrI s a i).dirty = s.dirty := rfl
@[simp] theorem wrI_capture (a : Nat) (i : Int) : (wrI s a i).capture = s.capture := rfl
@[simp] theorem wrI_live (a : Nat) (i : Int) : (wrI s a i).live = s.live := rfl
@[simp] theorem wrI_latched (a : Nat) (i : Int) : (wrI s a i).latched = s.latched := rfl
@[simp] theorem wrI_readData (a : Nat) (i : Int) : (wrI s a i).readData = s.readData := rfl
@[simp] theorem wrI_fuses (a : Nat) (i : Int) : (wrI s a i).fuses = s.fuses := rfl
@[simp] theorem wrI_pins (a : Nat) (i : Int) : (wrI s a i).pins = s.pins := rfl
@[simp] theorem wrI_pwr (a : Nat) (i : Int) : (wrI s a i).pwr = s.pwr := rfl
@[simp] theorem wrI_thm (a : Nat) (i : Int) : (wrI s a i).thm = s.thm := rfl
@[simp] theorem wrI_hif (a : Nat) (i : Int) : (wrI s a i).hif = s.hif := rfl
@[simp] theorem wrI_evr (a : Nat) (i : Int) : (wrI s a i).evr = s.evr := rfl
@[simp] theorem wrI_seq (a : Nat) (i : Int) : (wrI s a i).seq = s.seq := rfl
@[simp] theorem wrI_lanes (a : Nat) (i : Int) : (wrI s a i).lanes = s.lanes := rfl
@[simp] theorem wrI_ledger (a : Nat) (i : Int) : (wrI s a i).ledger = s.ledger := rfl
@[simp] theorem wrI_ovl (a : Nat) (i : Int) : (wrI s a i).ovl = s.ovl := rfl
@[simp] theorem wrI_fab (a : Nat) (i : Int) : (wrI s a i).fab = s.fab := rfl
@[simp] theorem wrI_ftm (a : Nat) (i : Int) : (wrI s a i).ftm = s.ftm := rfl
@[simp] theorem wrI_svc (a : Nat) (i : Int) : (wrI s a i).svc = s.svc := rfl
@[simp] theorem wrI_mbxDue (a : Nat) (i : Int) : (wrI s a i).mbxDue = s.mbxDue := rfl
@[simp] theorem wrI_axes (a : Nat) (i : Int) : (wrI s a i).axes = s.axes := rfl
@[simp] theorem wrI_groupStart (a : Nat) (i : Int) : (wrI s a i).groupStart = s.groupStart := rfl
@[simp] theorem wrI_resumeStart (a : Nat) (i : Int) : (wrI s a i).resumeStart = s.resumeStart := rfl
@[simp] theorem wrI_dma (a : Nat) (i : Int) : (wrI s a i).dma = s.dma := rfl
@[simp] theorem wrI_dmaTurn (a : Nat) (i : Int) : (wrI s a i).dmaTurn = s.dmaTurn := rfl
@[simp] theorem wrI_dmaNext (a : Nat) (i : Int) : (wrI s a i).dmaNext = s.dmaNext := rfl
@[simp] theorem wrI_jobs (a : Nat) (i : Int) : (wrI s a i).jobs = s.jobs := rfl
@[simp] theorem wrI_recording (a : Nat) (i : Int) : (wrI s a i).recording = s.recording := rfl
@[simp] theorem wrI_dramCh (a : Nat) (i : Int) : (wrI s a i).dramCh = s.dramCh := rfl
@[simp] theorem wrI_sramLost (a : Nat) (i : Int) : (wrI s a i).sramLost = s.sramLost := rfl
@[simp] theorem wrI_dramLost (a : Nat) (i : Int) : (wrI s a i).dramLost = s.dramLost := rfl
@[simp] theorem wrI_burnBad (a : Nat) (i : Int) : (wrI s a i).burnBad = s.burnBad := rfl
@[simp] theorem wrI_burn (a : Nat) (i : Int) : (wrI s a i).burn = s.burn := rfl
@[simp] theorem wrI_cams (a : Nat) (i : Int) : (wrI s a i).cams = s.cams := rfl
@[simp] theorem wrI_pipes (a : Nat) (i : Int) : (wrI s a i).pipes = s.pipes := rfl
@[simp] theorem wrI_camBus (a : Nat) (i : Int) : (wrI s a i).camBus = s.camBus := rfl
@[simp] theorem wrI_panel (a : Nat) (i : Int) : (wrI s a i).panel = s.panel := rfl
@[simp] theorem wrI_sram (a : Nat) (i : Int) : (wrI s a i).sram = s.sram := rfl
@[simp] theorem wrI_dram (a : Nat) (i : Int) : (wrI s a i).dram = s.dram := rfl
@[simp] theorem wrI_host (a : Nat) (i : Int) : (wrI s a i).host = s.host := rfl
@[simp] theorem wrI_running (a : Nat) (i : Int) : (wrI s a i).running = s.running := rfl
@[simp] theorem wrI_freeCtr (a : Nat) (i : Int) : (wrI s a i).freeCtr = s.freeCtr := rfl
@[simp] theorem wrI_pending (a : Nat) (i : Int) : (wrI s a i).pending = s.pending := rfl

@[simp] theorem wr64_shadow (l h n : Nat) : (wr64 s l h n).shadow = s.shadow := rfl
@[simp] theorem wr64_dirty (l h n : Nat) : (wr64 s l h n).dirty = s.dirty := rfl
@[simp] theorem wr64_capture (l h n : Nat) : (wr64 s l h n).capture = s.capture := rfl
@[simp] theorem wr64_live (l h n : Nat) : (wr64 s l h n).live = s.live := rfl
@[simp] theorem wr64_latched (l h n : Nat) : (wr64 s l h n).latched = s.latched := rfl
@[simp] theorem wr64_readData (l h n : Nat) : (wr64 s l h n).readData = s.readData := rfl
@[simp] theorem wr64_fuses (l h n : Nat) : (wr64 s l h n).fuses = s.fuses := rfl
@[simp] theorem wr64_pins (l h n : Nat) : (wr64 s l h n).pins = s.pins := rfl
@[simp] theorem wr64_pwr (l h n : Nat) : (wr64 s l h n).pwr = s.pwr := rfl
@[simp] theorem wr64_thm (l h n : Nat) : (wr64 s l h n).thm = s.thm := rfl
@[simp] theorem wr64_hif (l h n : Nat) : (wr64 s l h n).hif = s.hif := rfl
@[simp] theorem wr64_evr (l h n : Nat) : (wr64 s l h n).evr = s.evr := rfl
@[simp] theorem wr64_seq (l h n : Nat) : (wr64 s l h n).seq = s.seq := rfl
@[simp] theorem wr64_lanes (l h n : Nat) : (wr64 s l h n).lanes = s.lanes := rfl
@[simp] theorem wr64_ledger (l h n : Nat) : (wr64 s l h n).ledger = s.ledger := rfl
@[simp] theorem wr64_ovl (l h n : Nat) : (wr64 s l h n).ovl = s.ovl := rfl
@[simp] theorem wr64_fab (l h n : Nat) : (wr64 s l h n).fab = s.fab := rfl
@[simp] theorem wr64_ftm (l h n : Nat) : (wr64 s l h n).ftm = s.ftm := rfl
@[simp] theorem wr64_svc (l h n : Nat) : (wr64 s l h n).svc = s.svc := rfl
@[simp] theorem wr64_mbxDue (l h n : Nat) : (wr64 s l h n).mbxDue = s.mbxDue := rfl
@[simp] theorem wr64_axes (l h n : Nat) : (wr64 s l h n).axes = s.axes := rfl
@[simp] theorem wr64_groupStart (l h n : Nat) : (wr64 s l h n).groupStart = s.groupStart := rfl
@[simp] theorem wr64_resumeStart (l h n : Nat) : (wr64 s l h n).resumeStart = s.resumeStart := rfl
@[simp] theorem wr64_dma (l h n : Nat) : (wr64 s l h n).dma = s.dma := rfl
@[simp] theorem wr64_dmaTurn (l h n : Nat) : (wr64 s l h n).dmaTurn = s.dmaTurn := rfl
@[simp] theorem wr64_dmaNext (l h n : Nat) : (wr64 s l h n).dmaNext = s.dmaNext := rfl
@[simp] theorem wr64_jobs (l h n : Nat) : (wr64 s l h n).jobs = s.jobs := rfl
@[simp] theorem wr64_recording (l h n : Nat) : (wr64 s l h n).recording = s.recording := rfl
@[simp] theorem wr64_dramCh (l h n : Nat) : (wr64 s l h n).dramCh = s.dramCh := rfl
@[simp] theorem wr64_sramLost (l h n : Nat) : (wr64 s l h n).sramLost = s.sramLost := rfl
@[simp] theorem wr64_dramLost (l h n : Nat) : (wr64 s l h n).dramLost = s.dramLost := rfl
@[simp] theorem wr64_burnBad (l h n : Nat) : (wr64 s l h n).burnBad = s.burnBad := rfl
@[simp] theorem wr64_burn (l h n : Nat) : (wr64 s l h n).burn = s.burn := rfl
@[simp] theorem wr64_cams (l h n : Nat) : (wr64 s l h n).cams = s.cams := rfl
@[simp] theorem wr64_pipes (l h n : Nat) : (wr64 s l h n).pipes = s.pipes := rfl
@[simp] theorem wr64_camBus (l h n : Nat) : (wr64 s l h n).camBus = s.camBus := rfl
@[simp] theorem wr64_panel (l h n : Nat) : (wr64 s l h n).panel = s.panel := rfl
@[simp] theorem wr64_sram (l h n : Nat) : (wr64 s l h n).sram = s.sram := rfl
@[simp] theorem wr64_dram (l h n : Nat) : (wr64 s l h n).dram = s.dram := rfl
@[simp] theorem wr64_host (l h n : Nat) : (wr64 s l h n).host = s.host := rfl
@[simp] theorem wr64_running (l h n : Nat) : (wr64 s l h n).running = s.running := rfl
@[simp] theorem wr64_freeCtr (l h n : Nat) : (wr64 s l h n).freeCtr = s.freeCtr := rfl
@[simp] theorem wr64_pending (l h n : Nat) : (wr64 s l h n).pending = s.pending := rfl

@[simp] theorem setFld_shadow (a hi lo v : Nat) : (setFld s a hi lo v).shadow = s.shadow := rfl
@[simp] theorem setFld_dirty (a hi lo v : Nat) : (setFld s a hi lo v).dirty = s.dirty := rfl
@[simp] theorem setFld_capture (a hi lo v : Nat) : (setFld s a hi lo v).capture = s.capture := rfl
@[simp] theorem setFld_live (a hi lo v : Nat) : (setFld s a hi lo v).live = s.live := rfl
@[simp] theorem setFld_latched (a hi lo v : Nat) : (setFld s a hi lo v).latched = s.latched := rfl
@[simp] theorem setFld_readData (a hi lo v : Nat) : (setFld s a hi lo v).readData = s.readData := rfl
@[simp] theorem setFld_fuses (a hi lo v : Nat) : (setFld s a hi lo v).fuses = s.fuses := rfl
@[simp] theorem setFld_pins (a hi lo v : Nat) : (setFld s a hi lo v).pins = s.pins := rfl
@[simp] theorem setFld_pwr (a hi lo v : Nat) : (setFld s a hi lo v).pwr = s.pwr := rfl
@[simp] theorem setFld_thm (a hi lo v : Nat) : (setFld s a hi lo v).thm = s.thm := rfl
@[simp] theorem setFld_hif (a hi lo v : Nat) : (setFld s a hi lo v).hif = s.hif := rfl
@[simp] theorem setFld_evr (a hi lo v : Nat) : (setFld s a hi lo v).evr = s.evr := rfl
@[simp] theorem setFld_seq (a hi lo v : Nat) : (setFld s a hi lo v).seq = s.seq := rfl
@[simp] theorem setFld_lanes (a hi lo v : Nat) : (setFld s a hi lo v).lanes = s.lanes := rfl
@[simp] theorem setFld_ledger (a hi lo v : Nat) : (setFld s a hi lo v).ledger = s.ledger := rfl
@[simp] theorem setFld_ovl (a hi lo v : Nat) : (setFld s a hi lo v).ovl = s.ovl := rfl
@[simp] theorem setFld_fab (a hi lo v : Nat) : (setFld s a hi lo v).fab = s.fab := rfl
@[simp] theorem setFld_ftm (a hi lo v : Nat) : (setFld s a hi lo v).ftm = s.ftm := rfl
@[simp] theorem setFld_svc (a hi lo v : Nat) : (setFld s a hi lo v).svc = s.svc := rfl
@[simp] theorem setFld_mbxDue (a hi lo v : Nat) : (setFld s a hi lo v).mbxDue = s.mbxDue := rfl
@[simp] theorem setFld_axes (a hi lo v : Nat) : (setFld s a hi lo v).axes = s.axes := rfl
@[simp] theorem setFld_groupStart (a hi lo v : Nat) : (setFld s a hi lo v).groupStart = s.groupStart := rfl
@[simp] theorem setFld_resumeStart (a hi lo v : Nat) : (setFld s a hi lo v).resumeStart = s.resumeStart := rfl
@[simp] theorem setFld_dma (a hi lo v : Nat) : (setFld s a hi lo v).dma = s.dma := rfl
@[simp] theorem setFld_dmaTurn (a hi lo v : Nat) : (setFld s a hi lo v).dmaTurn = s.dmaTurn := rfl
@[simp] theorem setFld_dmaNext (a hi lo v : Nat) : (setFld s a hi lo v).dmaNext = s.dmaNext := rfl
@[simp] theorem setFld_jobs (a hi lo v : Nat) : (setFld s a hi lo v).jobs = s.jobs := rfl
@[simp] theorem setFld_recording (a hi lo v : Nat) : (setFld s a hi lo v).recording = s.recording := rfl
@[simp] theorem setFld_dramCh (a hi lo v : Nat) : (setFld s a hi lo v).dramCh = s.dramCh := rfl
@[simp] theorem setFld_sramLost (a hi lo v : Nat) : (setFld s a hi lo v).sramLost = s.sramLost := rfl
@[simp] theorem setFld_dramLost (a hi lo v : Nat) : (setFld s a hi lo v).dramLost = s.dramLost := rfl
@[simp] theorem setFld_burnBad (a hi lo v : Nat) : (setFld s a hi lo v).burnBad = s.burnBad := rfl
@[simp] theorem setFld_burn (a hi lo v : Nat) : (setFld s a hi lo v).burn = s.burn := rfl
@[simp] theorem setFld_cams (a hi lo v : Nat) : (setFld s a hi lo v).cams = s.cams := rfl
@[simp] theorem setFld_pipes (a hi lo v : Nat) : (setFld s a hi lo v).pipes = s.pipes := rfl
@[simp] theorem setFld_camBus (a hi lo v : Nat) : (setFld s a hi lo v).camBus = s.camBus := rfl
@[simp] theorem setFld_panel (a hi lo v : Nat) : (setFld s a hi lo v).panel = s.panel := rfl
@[simp] theorem setFld_sram (a hi lo v : Nat) : (setFld s a hi lo v).sram = s.sram := rfl
@[simp] theorem setFld_dram (a hi lo v : Nat) : (setFld s a hi lo v).dram = s.dram := rfl
@[simp] theorem setFld_host (a hi lo v : Nat) : (setFld s a hi lo v).host = s.host := rfl
@[simp] theorem setFld_running (a hi lo v : Nat) : (setFld s a hi lo v).running = s.running := rfl
@[simp] theorem setFld_freeCtr (a hi lo v : Nat) : (setFld s a hi lo v).freeCtr = s.freeCtr := rfl
@[simp] theorem setFld_pending (a hi lo v : Nat) : (setFld s a hi lo v).pending = s.pending := rfl

@[simp] theorem setFlag_shadow (a i : Nat) (b : Bool) : (setFlag s a i b).shadow = s.shadow := rfl
@[simp] theorem setFlag_dirty (a i : Nat) (b : Bool) : (setFlag s a i b).dirty = s.dirty := rfl
@[simp] theorem setFlag_capture (a i : Nat) (b : Bool) : (setFlag s a i b).capture = s.capture := rfl
@[simp] theorem setFlag_live (a i : Nat) (b : Bool) : (setFlag s a i b).live = s.live := rfl
@[simp] theorem setFlag_latched (a i : Nat) (b : Bool) : (setFlag s a i b).latched = s.latched := rfl
@[simp] theorem setFlag_readData (a i : Nat) (b : Bool) : (setFlag s a i b).readData = s.readData := rfl
@[simp] theorem setFlag_fuses (a i : Nat) (b : Bool) : (setFlag s a i b).fuses = s.fuses := rfl
@[simp] theorem setFlag_pins (a i : Nat) (b : Bool) : (setFlag s a i b).pins = s.pins := rfl
@[simp] theorem setFlag_pwr (a i : Nat) (b : Bool) : (setFlag s a i b).pwr = s.pwr := rfl
@[simp] theorem setFlag_thm (a i : Nat) (b : Bool) : (setFlag s a i b).thm = s.thm := rfl
@[simp] theorem setFlag_hif (a i : Nat) (b : Bool) : (setFlag s a i b).hif = s.hif := rfl
@[simp] theorem setFlag_evr (a i : Nat) (b : Bool) : (setFlag s a i b).evr = s.evr := rfl
@[simp] theorem setFlag_seq (a i : Nat) (b : Bool) : (setFlag s a i b).seq = s.seq := rfl
@[simp] theorem setFlag_lanes (a i : Nat) (b : Bool) : (setFlag s a i b).lanes = s.lanes := rfl
@[simp] theorem setFlag_ledger (a i : Nat) (b : Bool) : (setFlag s a i b).ledger = s.ledger := rfl
@[simp] theorem setFlag_ovl (a i : Nat) (b : Bool) : (setFlag s a i b).ovl = s.ovl := rfl
@[simp] theorem setFlag_fab (a i : Nat) (b : Bool) : (setFlag s a i b).fab = s.fab := rfl
@[simp] theorem setFlag_ftm (a i : Nat) (b : Bool) : (setFlag s a i b).ftm = s.ftm := rfl
@[simp] theorem setFlag_svc (a i : Nat) (b : Bool) : (setFlag s a i b).svc = s.svc := rfl
@[simp] theorem setFlag_mbxDue (a i : Nat) (b : Bool) : (setFlag s a i b).mbxDue = s.mbxDue := rfl
@[simp] theorem setFlag_axes (a i : Nat) (b : Bool) : (setFlag s a i b).axes = s.axes := rfl
@[simp] theorem setFlag_groupStart (a i : Nat) (b : Bool) : (setFlag s a i b).groupStart = s.groupStart := rfl
@[simp] theorem setFlag_resumeStart (a i : Nat) (b : Bool) : (setFlag s a i b).resumeStart = s.resumeStart := rfl
@[simp] theorem setFlag_dma (a i : Nat) (b : Bool) : (setFlag s a i b).dma = s.dma := rfl
@[simp] theorem setFlag_dmaTurn (a i : Nat) (b : Bool) : (setFlag s a i b).dmaTurn = s.dmaTurn := rfl
@[simp] theorem setFlag_dmaNext (a i : Nat) (b : Bool) : (setFlag s a i b).dmaNext = s.dmaNext := rfl
@[simp] theorem setFlag_jobs (a i : Nat) (b : Bool) : (setFlag s a i b).jobs = s.jobs := rfl
@[simp] theorem setFlag_recording (a i : Nat) (b : Bool) : (setFlag s a i b).recording = s.recording := rfl
@[simp] theorem setFlag_dramCh (a i : Nat) (b : Bool) : (setFlag s a i b).dramCh = s.dramCh := rfl
@[simp] theorem setFlag_sramLost (a i : Nat) (b : Bool) : (setFlag s a i b).sramLost = s.sramLost := rfl
@[simp] theorem setFlag_dramLost (a i : Nat) (b : Bool) : (setFlag s a i b).dramLost = s.dramLost := rfl
@[simp] theorem setFlag_burnBad (a i : Nat) (b : Bool) : (setFlag s a i b).burnBad = s.burnBad := rfl
@[simp] theorem setFlag_burn (a i : Nat) (b : Bool) : (setFlag s a i b).burn = s.burn := rfl
@[simp] theorem setFlag_cams (a i : Nat) (b : Bool) : (setFlag s a i b).cams = s.cams := rfl
@[simp] theorem setFlag_pipes (a i : Nat) (b : Bool) : (setFlag s a i b).pipes = s.pipes := rfl
@[simp] theorem setFlag_camBus (a i : Nat) (b : Bool) : (setFlag s a i b).camBus = s.camBus := rfl
@[simp] theorem setFlag_panel (a i : Nat) (b : Bool) : (setFlag s a i b).panel = s.panel := rfl
@[simp] theorem setFlag_sram (a i : Nat) (b : Bool) : (setFlag s a i b).sram = s.sram := rfl
@[simp] theorem setFlag_dram (a i : Nat) (b : Bool) : (setFlag s a i b).dram = s.dram := rfl
@[simp] theorem setFlag_host (a i : Nat) (b : Bool) : (setFlag s a i b).host = s.host := rfl
@[simp] theorem setFlag_running (a i : Nat) (b : Bool) : (setFlag s a i b).running = s.running := rfl
@[simp] theorem setFlag_freeCtr (a i : Nat) (b : Bool) : (setFlag s a i b).freeCtr = s.freeCtr := rfl
@[simp] theorem setFlag_pending (a i : Nat) (b : Bool) : (setFlag s a i b).pending = s.pending := rfl

@[simp] theorem setLayerSt_shadow (v : Nat) : (setLayerSt s v).shadow = s.shadow := rfl
@[simp] theorem setLayerSt_dirty (v : Nat) : (setLayerSt s v).dirty = s.dirty := rfl
@[simp] theorem setLayerSt_capture (v : Nat) : (setLayerSt s v).capture = s.capture := rfl
@[simp] theorem setLayerSt_live (v : Nat) : (setLayerSt s v).live = s.live := rfl
@[simp] theorem setLayerSt_latched (v : Nat) : (setLayerSt s v).latched = s.latched := rfl
@[simp] theorem setLayerSt_readData (v : Nat) : (setLayerSt s v).readData = s.readData := rfl
@[simp] theorem setLayerSt_fuses (v : Nat) : (setLayerSt s v).fuses = s.fuses := rfl
@[simp] theorem setLayerSt_pins (v : Nat) : (setLayerSt s v).pins = s.pins := rfl
@[simp] theorem setLayerSt_pwr (v : Nat) : (setLayerSt s v).pwr = s.pwr := rfl
@[simp] theorem setLayerSt_thm (v : Nat) : (setLayerSt s v).thm = s.thm := rfl
@[simp] theorem setLayerSt_hif (v : Nat) : (setLayerSt s v).hif = s.hif := rfl
@[simp] theorem setLayerSt_evr (v : Nat) : (setLayerSt s v).evr = s.evr := rfl
@[simp] theorem setLayerSt_seq (v : Nat) : (setLayerSt s v).seq = s.seq := rfl
@[simp] theorem setLayerSt_lanes (v : Nat) : (setLayerSt s v).lanes = s.lanes := rfl
@[simp] theorem setLayerSt_ledger (v : Nat) : (setLayerSt s v).ledger = s.ledger := rfl
@[simp] theorem setLayerSt_ovl (v : Nat) : (setLayerSt s v).ovl = s.ovl := rfl
@[simp] theorem setLayerSt_fab (v : Nat) : (setLayerSt s v).fab = s.fab := rfl
@[simp] theorem setLayerSt_ftm (v : Nat) : (setLayerSt s v).ftm = s.ftm := rfl
@[simp] theorem setLayerSt_svc (v : Nat) : (setLayerSt s v).svc = s.svc := rfl
@[simp] theorem setLayerSt_mbxDue (v : Nat) : (setLayerSt s v).mbxDue = s.mbxDue := rfl
@[simp] theorem setLayerSt_axes (v : Nat) : (setLayerSt s v).axes = s.axes := rfl
@[simp] theorem setLayerSt_groupStart (v : Nat) : (setLayerSt s v).groupStart = s.groupStart := rfl
@[simp] theorem setLayerSt_resumeStart (v : Nat) : (setLayerSt s v).resumeStart = s.resumeStart := rfl
@[simp] theorem setLayerSt_dma (v : Nat) : (setLayerSt s v).dma = s.dma := rfl
@[simp] theorem setLayerSt_dmaTurn (v : Nat) : (setLayerSt s v).dmaTurn = s.dmaTurn := rfl
@[simp] theorem setLayerSt_dmaNext (v : Nat) : (setLayerSt s v).dmaNext = s.dmaNext := rfl
@[simp] theorem setLayerSt_jobs (v : Nat) : (setLayerSt s v).jobs = s.jobs := rfl
@[simp] theorem setLayerSt_recording (v : Nat) : (setLayerSt s v).recording = s.recording := rfl
@[simp] theorem setLayerSt_dramCh (v : Nat) : (setLayerSt s v).dramCh = s.dramCh := rfl
@[simp] theorem setLayerSt_sramLost (v : Nat) : (setLayerSt s v).sramLost = s.sramLost := rfl
@[simp] theorem setLayerSt_dramLost (v : Nat) : (setLayerSt s v).dramLost = s.dramLost := rfl
@[simp] theorem setLayerSt_burnBad (v : Nat) : (setLayerSt s v).burnBad = s.burnBad := rfl
@[simp] theorem setLayerSt_burn (v : Nat) : (setLayerSt s v).burn = s.burn := rfl
@[simp] theorem setLayerSt_cams (v : Nat) : (setLayerSt s v).cams = s.cams := rfl
@[simp] theorem setLayerSt_pipes (v : Nat) : (setLayerSt s v).pipes = s.pipes := rfl
@[simp] theorem setLayerSt_camBus (v : Nat) : (setLayerSt s v).camBus = s.camBus := rfl
@[simp] theorem setLayerSt_panel (v : Nat) : (setLayerSt s v).panel = s.panel := rfl
@[simp] theorem setLayerSt_sram (v : Nat) : (setLayerSt s v).sram = s.sram := rfl
@[simp] theorem setLayerSt_dram (v : Nat) : (setLayerSt s v).dram = s.dram := rfl
@[simp] theorem setLayerSt_host (v : Nat) : (setLayerSt s v).host = s.host := rfl
@[simp] theorem setLayerSt_running (v : Nat) : (setLayerSt s v).running = s.running := rfl
@[simp] theorem setLayerSt_freeCtr (v : Nat) : (setLayerSt s v).freeCtr = s.freeCtr := rfl
@[simp] theorem setLayerSt_pending (v : Nat) : (setLayerSt s v).pending = s.pending := rfl

@[simp] theorem setShadow_regs (g a hi lo v : Nat) : (setShadow s g a hi lo v).regs = s.regs := rfl
@[simp] theorem setShadow_capture (g a hi lo v : Nat) : (setShadow s g a hi lo v).capture = s.capture := rfl
@[simp] theorem setShadow_live (g a hi lo v : Nat) : (setShadow s g a hi lo v).live = s.live := rfl
@[simp] theorem setShadow_latched (g a hi lo v : Nat) : (setShadow s g a hi lo v).latched = s.latched := rfl
@[simp] theorem setShadow_readData (g a hi lo v : Nat) : (setShadow s g a hi lo v).readData = s.readData := rfl
@[simp] theorem setShadow_fuses (g a hi lo v : Nat) : (setShadow s g a hi lo v).fuses = s.fuses := rfl
@[simp] theorem setShadow_pins (g a hi lo v : Nat) : (setShadow s g a hi lo v).pins = s.pins := rfl
@[simp] theorem setShadow_pwr (g a hi lo v : Nat) : (setShadow s g a hi lo v).pwr = s.pwr := rfl
@[simp] theorem setShadow_thm (g a hi lo v : Nat) : (setShadow s g a hi lo v).thm = s.thm := rfl
@[simp] theorem setShadow_hif (g a hi lo v : Nat) : (setShadow s g a hi lo v).hif = s.hif := rfl
@[simp] theorem setShadow_evr (g a hi lo v : Nat) : (setShadow s g a hi lo v).evr = s.evr := rfl
@[simp] theorem setShadow_seq (g a hi lo v : Nat) : (setShadow s g a hi lo v).seq = s.seq := rfl
@[simp] theorem setShadow_lanes (g a hi lo v : Nat) : (setShadow s g a hi lo v).lanes = s.lanes := rfl
@[simp] theorem setShadow_ledger (g a hi lo v : Nat) : (setShadow s g a hi lo v).ledger = s.ledger := rfl
@[simp] theorem setShadow_ovl (g a hi lo v : Nat) : (setShadow s g a hi lo v).ovl = s.ovl := rfl
@[simp] theorem setShadow_fab (g a hi lo v : Nat) : (setShadow s g a hi lo v).fab = s.fab := rfl
@[simp] theorem setShadow_ftm (g a hi lo v : Nat) : (setShadow s g a hi lo v).ftm = s.ftm := rfl
@[simp] theorem setShadow_svc (g a hi lo v : Nat) : (setShadow s g a hi lo v).svc = s.svc := rfl
@[simp] theorem setShadow_mbxDue (g a hi lo v : Nat) : (setShadow s g a hi lo v).mbxDue = s.mbxDue := rfl
@[simp] theorem setShadow_axes (g a hi lo v : Nat) : (setShadow s g a hi lo v).axes = s.axes := rfl
@[simp] theorem setShadow_groupStart (g a hi lo v : Nat) : (setShadow s g a hi lo v).groupStart = s.groupStart := rfl
@[simp] theorem setShadow_resumeStart (g a hi lo v : Nat) : (setShadow s g a hi lo v).resumeStart = s.resumeStart := rfl
@[simp] theorem setShadow_dma (g a hi lo v : Nat) : (setShadow s g a hi lo v).dma = s.dma := rfl
@[simp] theorem setShadow_dmaTurn (g a hi lo v : Nat) : (setShadow s g a hi lo v).dmaTurn = s.dmaTurn := rfl
@[simp] theorem setShadow_dmaNext (g a hi lo v : Nat) : (setShadow s g a hi lo v).dmaNext = s.dmaNext := rfl
@[simp] theorem setShadow_jobs (g a hi lo v : Nat) : (setShadow s g a hi lo v).jobs = s.jobs := rfl
@[simp] theorem setShadow_recording (g a hi lo v : Nat) : (setShadow s g a hi lo v).recording = s.recording := rfl
@[simp] theorem setShadow_dramCh (g a hi lo v : Nat) : (setShadow s g a hi lo v).dramCh = s.dramCh := rfl
@[simp] theorem setShadow_sramLost (g a hi lo v : Nat) : (setShadow s g a hi lo v).sramLost = s.sramLost := rfl
@[simp] theorem setShadow_dramLost (g a hi lo v : Nat) : (setShadow s g a hi lo v).dramLost = s.dramLost := rfl
@[simp] theorem setShadow_burnBad (g a hi lo v : Nat) : (setShadow s g a hi lo v).burnBad = s.burnBad := rfl
@[simp] theorem setShadow_burn (g a hi lo v : Nat) : (setShadow s g a hi lo v).burn = s.burn := rfl
@[simp] theorem setShadow_cams (g a hi lo v : Nat) : (setShadow s g a hi lo v).cams = s.cams := rfl
@[simp] theorem setShadow_pipes (g a hi lo v : Nat) : (setShadow s g a hi lo v).pipes = s.pipes := rfl
@[simp] theorem setShadow_camBus (g a hi lo v : Nat) : (setShadow s g a hi lo v).camBus = s.camBus := rfl
@[simp] theorem setShadow_panel (g a hi lo v : Nat) : (setShadow s g a hi lo v).panel = s.panel := rfl
@[simp] theorem setShadow_sram (g a hi lo v : Nat) : (setShadow s g a hi lo v).sram = s.sram := rfl
@[simp] theorem setShadow_dram (g a hi lo v : Nat) : (setShadow s g a hi lo v).dram = s.dram := rfl
@[simp] theorem setShadow_host (g a hi lo v : Nat) : (setShadow s g a hi lo v).host = s.host := rfl
@[simp] theorem setShadow_running (g a hi lo v : Nat) : (setShadow s g a hi lo v).running = s.running := rfl
@[simp] theorem setShadow_freeCtr (g a hi lo v : Nat) : (setShadow s g a hi lo v).freeCtr = s.freeCtr := rfl
@[simp] theorem setShadow_pending (g a hi lo v : Nat) : (setShadow s g a hi lo v).pending = s.pending := rfl

@[simp] theorem setLive_regs (a hi lo v : Nat) : (setLive s a hi lo v).regs = s.regs := rfl
@[simp] theorem setLive_shadow (a hi lo v : Nat) : (setLive s a hi lo v).shadow = s.shadow := rfl
@[simp] theorem setLive_dirty (a hi lo v : Nat) : (setLive s a hi lo v).dirty = s.dirty := rfl
@[simp] theorem setLive_capture (a hi lo v : Nat) : (setLive s a hi lo v).capture = s.capture := rfl
@[simp] theorem setLive_latched (a hi lo v : Nat) : (setLive s a hi lo v).latched = s.latched := rfl
@[simp] theorem setLive_readData (a hi lo v : Nat) : (setLive s a hi lo v).readData = s.readData := rfl
@[simp] theorem setLive_fuses (a hi lo v : Nat) : (setLive s a hi lo v).fuses = s.fuses := rfl
@[simp] theorem setLive_pins (a hi lo v : Nat) : (setLive s a hi lo v).pins = s.pins := rfl
@[simp] theorem setLive_pwr (a hi lo v : Nat) : (setLive s a hi lo v).pwr = s.pwr := rfl
@[simp] theorem setLive_thm (a hi lo v : Nat) : (setLive s a hi lo v).thm = s.thm := rfl
@[simp] theorem setLive_hif (a hi lo v : Nat) : (setLive s a hi lo v).hif = s.hif := rfl
@[simp] theorem setLive_evr (a hi lo v : Nat) : (setLive s a hi lo v).evr = s.evr := rfl
@[simp] theorem setLive_seq (a hi lo v : Nat) : (setLive s a hi lo v).seq = s.seq := rfl
@[simp] theorem setLive_lanes (a hi lo v : Nat) : (setLive s a hi lo v).lanes = s.lanes := rfl
@[simp] theorem setLive_ledger (a hi lo v : Nat) : (setLive s a hi lo v).ledger = s.ledger := rfl
@[simp] theorem setLive_ovl (a hi lo v : Nat) : (setLive s a hi lo v).ovl = s.ovl := rfl
@[simp] theorem setLive_fab (a hi lo v : Nat) : (setLive s a hi lo v).fab = s.fab := rfl
@[simp] theorem setLive_ftm (a hi lo v : Nat) : (setLive s a hi lo v).ftm = s.ftm := rfl
@[simp] theorem setLive_svc (a hi lo v : Nat) : (setLive s a hi lo v).svc = s.svc := rfl
@[simp] theorem setLive_mbxDue (a hi lo v : Nat) : (setLive s a hi lo v).mbxDue = s.mbxDue := rfl
@[simp] theorem setLive_axes (a hi lo v : Nat) : (setLive s a hi lo v).axes = s.axes := rfl
@[simp] theorem setLive_groupStart (a hi lo v : Nat) : (setLive s a hi lo v).groupStart = s.groupStart := rfl
@[simp] theorem setLive_resumeStart (a hi lo v : Nat) : (setLive s a hi lo v).resumeStart = s.resumeStart := rfl
@[simp] theorem setLive_dma (a hi lo v : Nat) : (setLive s a hi lo v).dma = s.dma := rfl
@[simp] theorem setLive_dmaTurn (a hi lo v : Nat) : (setLive s a hi lo v).dmaTurn = s.dmaTurn := rfl
@[simp] theorem setLive_dmaNext (a hi lo v : Nat) : (setLive s a hi lo v).dmaNext = s.dmaNext := rfl
@[simp] theorem setLive_jobs (a hi lo v : Nat) : (setLive s a hi lo v).jobs = s.jobs := rfl
@[simp] theorem setLive_recording (a hi lo v : Nat) : (setLive s a hi lo v).recording = s.recording := rfl
@[simp] theorem setLive_dramCh (a hi lo v : Nat) : (setLive s a hi lo v).dramCh = s.dramCh := rfl
@[simp] theorem setLive_sramLost (a hi lo v : Nat) : (setLive s a hi lo v).sramLost = s.sramLost := rfl
@[simp] theorem setLive_dramLost (a hi lo v : Nat) : (setLive s a hi lo v).dramLost = s.dramLost := rfl
@[simp] theorem setLive_burnBad (a hi lo v : Nat) : (setLive s a hi lo v).burnBad = s.burnBad := rfl
@[simp] theorem setLive_burn (a hi lo v : Nat) : (setLive s a hi lo v).burn = s.burn := rfl
@[simp] theorem setLive_cams (a hi lo v : Nat) : (setLive s a hi lo v).cams = s.cams := rfl
@[simp] theorem setLive_pipes (a hi lo v : Nat) : (setLive s a hi lo v).pipes = s.pipes := rfl
@[simp] theorem setLive_camBus (a hi lo v : Nat) : (setLive s a hi lo v).camBus = s.camBus := rfl
@[simp] theorem setLive_panel (a hi lo v : Nat) : (setLive s a hi lo v).panel = s.panel := rfl
@[simp] theorem setLive_sram (a hi lo v : Nat) : (setLive s a hi lo v).sram = s.sram := rfl
@[simp] theorem setLive_dram (a hi lo v : Nat) : (setLive s a hi lo v).dram = s.dram := rfl
@[simp] theorem setLive_host (a hi lo v : Nat) : (setLive s a hi lo v).host = s.host := rfl
@[simp] theorem setLive_running (a hi lo v : Nat) : (setLive s a hi lo v).running = s.running := rfl
@[simp] theorem setLive_freeCtr (a hi lo v : Nat) : (setLive s a hi lo v).freeCtr = s.freeCtr := rfl
@[simp] theorem setLive_pending (a hi lo v : Nat) : (setLive s a hi lo v).pending = s.pending := rfl

@[simp] theorem tick1_regs : (tick1 s).regs = s.regs := rfl
@[simp] theorem tick1_shadow : (tick1 s).shadow = s.shadow := rfl
@[simp] theorem tick1_dirty : (tick1 s).dirty = s.dirty := rfl
@[simp] theorem tick1_capture : (tick1 s).capture = s.capture := rfl
@[simp] theorem tick1_live : (tick1 s).live = s.live := rfl
@[simp] theorem tick1_latched : (tick1 s).latched = s.latched := rfl
@[simp] theorem tick1_readData : (tick1 s).readData = s.readData := rfl
@[simp] theorem tick1_fuses : (tick1 s).fuses = s.fuses := rfl
@[simp] theorem tick1_pins : (tick1 s).pins = s.pins := rfl
@[simp] theorem tick1_pwr : (tick1 s).pwr = s.pwr := rfl
@[simp] theorem tick1_thm : (tick1 s).thm = s.thm := rfl
@[simp] theorem tick1_hif : (tick1 s).hif = s.hif := rfl
@[simp] theorem tick1_evr : (tick1 s).evr = s.evr := rfl
@[simp] theorem tick1_seq : (tick1 s).seq = s.seq := rfl
@[simp] theorem tick1_lanes : (tick1 s).lanes = s.lanes := rfl
@[simp] theorem tick1_ledger : (tick1 s).ledger = s.ledger := rfl
@[simp] theorem tick1_ovl : (tick1 s).ovl = s.ovl := rfl
@[simp] theorem tick1_fab : (tick1 s).fab = s.fab := rfl
@[simp] theorem tick1_ftm : (tick1 s).ftm = s.ftm := rfl
@[simp] theorem tick1_svc : (tick1 s).svc = s.svc := rfl
@[simp] theorem tick1_mbxDue : (tick1 s).mbxDue = s.mbxDue := rfl
@[simp] theorem tick1_axes : (tick1 s).axes = s.axes := rfl
@[simp] theorem tick1_groupStart : (tick1 s).groupStart = s.groupStart := rfl
@[simp] theorem tick1_resumeStart : (tick1 s).resumeStart = s.resumeStart := rfl
@[simp] theorem tick1_dma : (tick1 s).dma = s.dma := rfl
@[simp] theorem tick1_dmaTurn : (tick1 s).dmaTurn = s.dmaTurn := rfl
@[simp] theorem tick1_dmaNext : (tick1 s).dmaNext = s.dmaNext := rfl
@[simp] theorem tick1_jobs : (tick1 s).jobs = s.jobs := rfl
@[simp] theorem tick1_recording : (tick1 s).recording = s.recording := rfl
@[simp] theorem tick1_dramCh : (tick1 s).dramCh = s.dramCh := rfl
@[simp] theorem tick1_sramLost : (tick1 s).sramLost = s.sramLost := rfl
@[simp] theorem tick1_dramLost : (tick1 s).dramLost = s.dramLost := rfl
@[simp] theorem tick1_burnBad : (tick1 s).burnBad = s.burnBad := rfl
@[simp] theorem tick1_burn : (tick1 s).burn = s.burn := rfl
@[simp] theorem tick1_cams : (tick1 s).cams = s.cams := rfl
@[simp] theorem tick1_pipes : (tick1 s).pipes = s.pipes := rfl
@[simp] theorem tick1_camBus : (tick1 s).camBus = s.camBus := rfl
@[simp] theorem tick1_panel : (tick1 s).panel = s.panel := rfl
@[simp] theorem tick1_sram : (tick1 s).sram = s.sram := rfl
@[simp] theorem tick1_dram : (tick1 s).dram = s.dram := rfl
@[simp] theorem tick1_host : (tick1 s).host = s.host := rfl
@[simp] theorem tick1_running : (tick1 s).running = s.running := rfl
@[simp] theorem tick1_pending : (tick1 s).pending = s.pending := rfl

@[simp] theorem setLane_regs (n : Nat) (l : Lane) : (setLane s n l).regs = s.regs := rfl
@[simp] theorem setLane_shadow (n : Nat) (l : Lane) : (setLane s n l).shadow = s.shadow := rfl
@[simp] theorem setLane_dirty (n : Nat) (l : Lane) : (setLane s n l).dirty = s.dirty := rfl
@[simp] theorem setLane_capture (n : Nat) (l : Lane) : (setLane s n l).capture = s.capture := rfl
@[simp] theorem setLane_live (n : Nat) (l : Lane) : (setLane s n l).live = s.live := rfl
@[simp] theorem setLane_latched (n : Nat) (l : Lane) : (setLane s n l).latched = s.latched := rfl
@[simp] theorem setLane_readData (n : Nat) (l : Lane) : (setLane s n l).readData = s.readData := rfl
@[simp] theorem setLane_fuses (n : Nat) (l : Lane) : (setLane s n l).fuses = s.fuses := rfl
@[simp] theorem setLane_pins (n : Nat) (l : Lane) : (setLane s n l).pins = s.pins := rfl
@[simp] theorem setLane_pwr (n : Nat) (l : Lane) : (setLane s n l).pwr = s.pwr := rfl
@[simp] theorem setLane_thm (n : Nat) (l : Lane) : (setLane s n l).thm = s.thm := rfl
@[simp] theorem setLane_hif (n : Nat) (l : Lane) : (setLane s n l).hif = s.hif := rfl
@[simp] theorem setLane_evr (n : Nat) (l : Lane) : (setLane s n l).evr = s.evr := rfl
@[simp] theorem setLane_seq (n : Nat) (l : Lane) : (setLane s n l).seq = s.seq := rfl
@[simp] theorem setLane_ledger (n : Nat) (l : Lane) : (setLane s n l).ledger = s.ledger := rfl
@[simp] theorem setLane_ovl (n : Nat) (l : Lane) : (setLane s n l).ovl = s.ovl := rfl
@[simp] theorem setLane_fab (n : Nat) (l : Lane) : (setLane s n l).fab = s.fab := rfl
@[simp] theorem setLane_ftm (n : Nat) (l : Lane) : (setLane s n l).ftm = s.ftm := rfl
@[simp] theorem setLane_svc (n : Nat) (l : Lane) : (setLane s n l).svc = s.svc := rfl
@[simp] theorem setLane_mbxDue (n : Nat) (l : Lane) : (setLane s n l).mbxDue = s.mbxDue := rfl
@[simp] theorem setLane_axes (n : Nat) (l : Lane) : (setLane s n l).axes = s.axes := rfl
@[simp] theorem setLane_groupStart (n : Nat) (l : Lane) : (setLane s n l).groupStart = s.groupStart := rfl
@[simp] theorem setLane_resumeStart (n : Nat) (l : Lane) : (setLane s n l).resumeStart = s.resumeStart := rfl
@[simp] theorem setLane_dma (n : Nat) (l : Lane) : (setLane s n l).dma = s.dma := rfl
@[simp] theorem setLane_dmaTurn (n : Nat) (l : Lane) : (setLane s n l).dmaTurn = s.dmaTurn := rfl
@[simp] theorem setLane_dmaNext (n : Nat) (l : Lane) : (setLane s n l).dmaNext = s.dmaNext := rfl
@[simp] theorem setLane_jobs (n : Nat) (l : Lane) : (setLane s n l).jobs = s.jobs := rfl
@[simp] theorem setLane_recording (n : Nat) (l : Lane) : (setLane s n l).recording = s.recording := rfl
@[simp] theorem setLane_dramCh (n : Nat) (l : Lane) : (setLane s n l).dramCh = s.dramCh := rfl
@[simp] theorem setLane_sramLost (n : Nat) (l : Lane) : (setLane s n l).sramLost = s.sramLost := rfl
@[simp] theorem setLane_dramLost (n : Nat) (l : Lane) : (setLane s n l).dramLost = s.dramLost := rfl
@[simp] theorem setLane_burnBad (n : Nat) (l : Lane) : (setLane s n l).burnBad = s.burnBad := rfl
@[simp] theorem setLane_burn (n : Nat) (l : Lane) : (setLane s n l).burn = s.burn := rfl
@[simp] theorem setLane_cams (n : Nat) (l : Lane) : (setLane s n l).cams = s.cams := rfl
@[simp] theorem setLane_pipes (n : Nat) (l : Lane) : (setLane s n l).pipes = s.pipes := rfl
@[simp] theorem setLane_camBus (n : Nat) (l : Lane) : (setLane s n l).camBus = s.camBus := rfl
@[simp] theorem setLane_panel (n : Nat) (l : Lane) : (setLane s n l).panel = s.panel := rfl
@[simp] theorem setLane_sram (n : Nat) (l : Lane) : (setLane s n l).sram = s.sram := rfl
@[simp] theorem setLane_dram (n : Nat) (l : Lane) : (setLane s n l).dram = s.dram := rfl
@[simp] theorem setLane_host (n : Nat) (l : Lane) : (setLane s n l).host = s.host := rfl
@[simp] theorem setLane_running (n : Nat) (l : Lane) : (setLane s n l).running = s.running := rfl
@[simp] theorem setLane_freeCtr (n : Nat) (l : Lane) : (setLane s n l).freeCtr = s.freeCtr := rfl
@[simp] theorem setLane_pending (n : Nat) (l : Lane) : (setLane s n l).pending = s.pending := rfl

@[simp] theorem updLane_regs (n : Nat) (f : Lane → Lane) : (updLane s n f).regs = s.regs := rfl
@[simp] theorem updLane_shadow (n : Nat) (f : Lane → Lane) : (updLane s n f).shadow = s.shadow := rfl
@[simp] theorem updLane_dirty (n : Nat) (f : Lane → Lane) : (updLane s n f).dirty = s.dirty := rfl
@[simp] theorem updLane_capture (n : Nat) (f : Lane → Lane) : (updLane s n f).capture = s.capture := rfl
@[simp] theorem updLane_live (n : Nat) (f : Lane → Lane) : (updLane s n f).live = s.live := rfl
@[simp] theorem updLane_latched (n : Nat) (f : Lane → Lane) : (updLane s n f).latched = s.latched := rfl
@[simp] theorem updLane_readData (n : Nat) (f : Lane → Lane) : (updLane s n f).readData = s.readData := rfl
@[simp] theorem updLane_fuses (n : Nat) (f : Lane → Lane) : (updLane s n f).fuses = s.fuses := rfl
@[simp] theorem updLane_pins (n : Nat) (f : Lane → Lane) : (updLane s n f).pins = s.pins := rfl
@[simp] theorem updLane_pwr (n : Nat) (f : Lane → Lane) : (updLane s n f).pwr = s.pwr := rfl
@[simp] theorem updLane_thm (n : Nat) (f : Lane → Lane) : (updLane s n f).thm = s.thm := rfl
@[simp] theorem updLane_hif (n : Nat) (f : Lane → Lane) : (updLane s n f).hif = s.hif := rfl
@[simp] theorem updLane_evr (n : Nat) (f : Lane → Lane) : (updLane s n f).evr = s.evr := rfl
@[simp] theorem updLane_seq (n : Nat) (f : Lane → Lane) : (updLane s n f).seq = s.seq := rfl
@[simp] theorem updLane_ledger (n : Nat) (f : Lane → Lane) : (updLane s n f).ledger = s.ledger := rfl
@[simp] theorem updLane_ovl (n : Nat) (f : Lane → Lane) : (updLane s n f).ovl = s.ovl := rfl
@[simp] theorem updLane_fab (n : Nat) (f : Lane → Lane) : (updLane s n f).fab = s.fab := rfl
@[simp] theorem updLane_ftm (n : Nat) (f : Lane → Lane) : (updLane s n f).ftm = s.ftm := rfl
@[simp] theorem updLane_svc (n : Nat) (f : Lane → Lane) : (updLane s n f).svc = s.svc := rfl
@[simp] theorem updLane_mbxDue (n : Nat) (f : Lane → Lane) : (updLane s n f).mbxDue = s.mbxDue := rfl
@[simp] theorem updLane_axes (n : Nat) (f : Lane → Lane) : (updLane s n f).axes = s.axes := rfl
@[simp] theorem updLane_groupStart (n : Nat) (f : Lane → Lane) : (updLane s n f).groupStart = s.groupStart := rfl
@[simp] theorem updLane_resumeStart (n : Nat) (f : Lane → Lane) : (updLane s n f).resumeStart = s.resumeStart := rfl
@[simp] theorem updLane_dma (n : Nat) (f : Lane → Lane) : (updLane s n f).dma = s.dma := rfl
@[simp] theorem updLane_dmaTurn (n : Nat) (f : Lane → Lane) : (updLane s n f).dmaTurn = s.dmaTurn := rfl
@[simp] theorem updLane_dmaNext (n : Nat) (f : Lane → Lane) : (updLane s n f).dmaNext = s.dmaNext := rfl
@[simp] theorem updLane_jobs (n : Nat) (f : Lane → Lane) : (updLane s n f).jobs = s.jobs := rfl
@[simp] theorem updLane_recording (n : Nat) (f : Lane → Lane) : (updLane s n f).recording = s.recording := rfl
@[simp] theorem updLane_dramCh (n : Nat) (f : Lane → Lane) : (updLane s n f).dramCh = s.dramCh := rfl
@[simp] theorem updLane_sramLost (n : Nat) (f : Lane → Lane) : (updLane s n f).sramLost = s.sramLost := rfl
@[simp] theorem updLane_dramLost (n : Nat) (f : Lane → Lane) : (updLane s n f).dramLost = s.dramLost := rfl
@[simp] theorem updLane_burnBad (n : Nat) (f : Lane → Lane) : (updLane s n f).burnBad = s.burnBad := rfl
@[simp] theorem updLane_burn (n : Nat) (f : Lane → Lane) : (updLane s n f).burn = s.burn := rfl
@[simp] theorem updLane_cams (n : Nat) (f : Lane → Lane) : (updLane s n f).cams = s.cams := rfl
@[simp] theorem updLane_pipes (n : Nat) (f : Lane → Lane) : (updLane s n f).pipes = s.pipes := rfl
@[simp] theorem updLane_camBus (n : Nat) (f : Lane → Lane) : (updLane s n f).camBus = s.camBus := rfl
@[simp] theorem updLane_panel (n : Nat) (f : Lane → Lane) : (updLane s n f).panel = s.panel := rfl
@[simp] theorem updLane_sram (n : Nat) (f : Lane → Lane) : (updLane s n f).sram = s.sram := rfl
@[simp] theorem updLane_dram (n : Nat) (f : Lane → Lane) : (updLane s n f).dram = s.dram := rfl
@[simp] theorem updLane_host (n : Nat) (f : Lane → Lane) : (updLane s n f).host = s.host := rfl
@[simp] theorem updLane_running (n : Nat) (f : Lane → Lane) : (updLane s n f).running = s.running := rfl
@[simp] theorem updLane_freeCtr (n : Nat) (f : Lane → Lane) : (updLane s n f).freeCtr = s.freeCtr := rfl
@[simp] theorem updLane_pending (n : Nat) (f : Lane → Lane) : (updLane s n f).pending = s.pending := rfl

@[simp] theorem putSram_regs (a : Nat) (bs : List Byte) : (putSram s a bs).regs = s.regs := rfl
@[simp] theorem putSram_shadow (a : Nat) (bs : List Byte) : (putSram s a bs).shadow = s.shadow := rfl
@[simp] theorem putSram_dirty (a : Nat) (bs : List Byte) : (putSram s a bs).dirty = s.dirty := rfl
@[simp] theorem putSram_capture (a : Nat) (bs : List Byte) : (putSram s a bs).capture = s.capture := rfl
@[simp] theorem putSram_live (a : Nat) (bs : List Byte) : (putSram s a bs).live = s.live := rfl
@[simp] theorem putSram_latched (a : Nat) (bs : List Byte) : (putSram s a bs).latched = s.latched := rfl
@[simp] theorem putSram_readData (a : Nat) (bs : List Byte) : (putSram s a bs).readData = s.readData := rfl
@[simp] theorem putSram_fuses (a : Nat) (bs : List Byte) : (putSram s a bs).fuses = s.fuses := rfl
@[simp] theorem putSram_pins (a : Nat) (bs : List Byte) : (putSram s a bs).pins = s.pins := rfl
@[simp] theorem putSram_pwr (a : Nat) (bs : List Byte) : (putSram s a bs).pwr = s.pwr := rfl
@[simp] theorem putSram_thm (a : Nat) (bs : List Byte) : (putSram s a bs).thm = s.thm := rfl
@[simp] theorem putSram_hif (a : Nat) (bs : List Byte) : (putSram s a bs).hif = s.hif := rfl
@[simp] theorem putSram_evr (a : Nat) (bs : List Byte) : (putSram s a bs).evr = s.evr := rfl
@[simp] theorem putSram_seq (a : Nat) (bs : List Byte) : (putSram s a bs).seq = s.seq := rfl
@[simp] theorem putSram_lanes (a : Nat) (bs : List Byte) : (putSram s a bs).lanes = s.lanes := rfl
@[simp] theorem putSram_ledger (a : Nat) (bs : List Byte) : (putSram s a bs).ledger = s.ledger := rfl
@[simp] theorem putSram_ovl (a : Nat) (bs : List Byte) : (putSram s a bs).ovl = s.ovl := rfl
@[simp] theorem putSram_fab (a : Nat) (bs : List Byte) : (putSram s a bs).fab = s.fab := rfl
@[simp] theorem putSram_ftm (a : Nat) (bs : List Byte) : (putSram s a bs).ftm = s.ftm := rfl
@[simp] theorem putSram_svc (a : Nat) (bs : List Byte) : (putSram s a bs).svc = s.svc := rfl
@[simp] theorem putSram_mbxDue (a : Nat) (bs : List Byte) : (putSram s a bs).mbxDue = s.mbxDue := rfl
@[simp] theorem putSram_axes (a : Nat) (bs : List Byte) : (putSram s a bs).axes = s.axes := rfl
@[simp] theorem putSram_groupStart (a : Nat) (bs : List Byte) : (putSram s a bs).groupStart = s.groupStart := rfl
@[simp] theorem putSram_resumeStart (a : Nat) (bs : List Byte) : (putSram s a bs).resumeStart = s.resumeStart := rfl
@[simp] theorem putSram_dma (a : Nat) (bs : List Byte) : (putSram s a bs).dma = s.dma := rfl
@[simp] theorem putSram_dmaTurn (a : Nat) (bs : List Byte) : (putSram s a bs).dmaTurn = s.dmaTurn := rfl
@[simp] theorem putSram_dmaNext (a : Nat) (bs : List Byte) : (putSram s a bs).dmaNext = s.dmaNext := rfl
@[simp] theorem putSram_jobs (a : Nat) (bs : List Byte) : (putSram s a bs).jobs = s.jobs := rfl
@[simp] theorem putSram_recording (a : Nat) (bs : List Byte) : (putSram s a bs).recording = s.recording := rfl
@[simp] theorem putSram_dramCh (a : Nat) (bs : List Byte) : (putSram s a bs).dramCh = s.dramCh := rfl
@[simp] theorem putSram_sramLost (a : Nat) (bs : List Byte) : (putSram s a bs).sramLost = s.sramLost := rfl
@[simp] theorem putSram_dramLost (a : Nat) (bs : List Byte) : (putSram s a bs).dramLost = s.dramLost := rfl
@[simp] theorem putSram_burnBad (a : Nat) (bs : List Byte) : (putSram s a bs).burnBad = s.burnBad := rfl
@[simp] theorem putSram_burn (a : Nat) (bs : List Byte) : (putSram s a bs).burn = s.burn := rfl
@[simp] theorem putSram_cams (a : Nat) (bs : List Byte) : (putSram s a bs).cams = s.cams := rfl
@[simp] theorem putSram_pipes (a : Nat) (bs : List Byte) : (putSram s a bs).pipes = s.pipes := rfl
@[simp] theorem putSram_camBus (a : Nat) (bs : List Byte) : (putSram s a bs).camBus = s.camBus := rfl
@[simp] theorem putSram_panel (a : Nat) (bs : List Byte) : (putSram s a bs).panel = s.panel := rfl
@[simp] theorem putSram_dram (a : Nat) (bs : List Byte) : (putSram s a bs).dram = s.dram := rfl
@[simp] theorem putSram_host (a : Nat) (bs : List Byte) : (putSram s a bs).host = s.host := rfl
@[simp] theorem putSram_running (a : Nat) (bs : List Byte) : (putSram s a bs).running = s.running := rfl
@[simp] theorem putSram_freeCtr (a : Nat) (bs : List Byte) : (putSram s a bs).freeCtr = s.freeCtr := rfl
@[simp] theorem putSram_pending (a : Nat) (bs : List Byte) : (putSram s a bs).pending = s.pending := rfl

@[simp] theorem putDram_regs (a : Nat) (bs : List Byte) : (putDram s a bs).regs = s.regs := rfl
@[simp] theorem putDram_shadow (a : Nat) (bs : List Byte) : (putDram s a bs).shadow = s.shadow := rfl
@[simp] theorem putDram_dirty (a : Nat) (bs : List Byte) : (putDram s a bs).dirty = s.dirty := rfl
@[simp] theorem putDram_capture (a : Nat) (bs : List Byte) : (putDram s a bs).capture = s.capture := rfl
@[simp] theorem putDram_live (a : Nat) (bs : List Byte) : (putDram s a bs).live = s.live := rfl
@[simp] theorem putDram_latched (a : Nat) (bs : List Byte) : (putDram s a bs).latched = s.latched := rfl
@[simp] theorem putDram_readData (a : Nat) (bs : List Byte) : (putDram s a bs).readData = s.readData := rfl
@[simp] theorem putDram_fuses (a : Nat) (bs : List Byte) : (putDram s a bs).fuses = s.fuses := rfl
@[simp] theorem putDram_pins (a : Nat) (bs : List Byte) : (putDram s a bs).pins = s.pins := rfl
@[simp] theorem putDram_pwr (a : Nat) (bs : List Byte) : (putDram s a bs).pwr = s.pwr := rfl
@[simp] theorem putDram_thm (a : Nat) (bs : List Byte) : (putDram s a bs).thm = s.thm := rfl
@[simp] theorem putDram_hif (a : Nat) (bs : List Byte) : (putDram s a bs).hif = s.hif := rfl
@[simp] theorem putDram_evr (a : Nat) (bs : List Byte) : (putDram s a bs).evr = s.evr := rfl
@[simp] theorem putDram_seq (a : Nat) (bs : List Byte) : (putDram s a bs).seq = s.seq := rfl
@[simp] theorem putDram_lanes (a : Nat) (bs : List Byte) : (putDram s a bs).lanes = s.lanes := rfl
@[simp] theorem putDram_ledger (a : Nat) (bs : List Byte) : (putDram s a bs).ledger = s.ledger := rfl
@[simp] theorem putDram_ovl (a : Nat) (bs : List Byte) : (putDram s a bs).ovl = s.ovl := rfl
@[simp] theorem putDram_fab (a : Nat) (bs : List Byte) : (putDram s a bs).fab = s.fab := rfl
@[simp] theorem putDram_ftm (a : Nat) (bs : List Byte) : (putDram s a bs).ftm = s.ftm := rfl
@[simp] theorem putDram_svc (a : Nat) (bs : List Byte) : (putDram s a bs).svc = s.svc := rfl
@[simp] theorem putDram_mbxDue (a : Nat) (bs : List Byte) : (putDram s a bs).mbxDue = s.mbxDue := rfl
@[simp] theorem putDram_axes (a : Nat) (bs : List Byte) : (putDram s a bs).axes = s.axes := rfl
@[simp] theorem putDram_groupStart (a : Nat) (bs : List Byte) : (putDram s a bs).groupStart = s.groupStart := rfl
@[simp] theorem putDram_resumeStart (a : Nat) (bs : List Byte) : (putDram s a bs).resumeStart = s.resumeStart := rfl
@[simp] theorem putDram_dma (a : Nat) (bs : List Byte) : (putDram s a bs).dma = s.dma := rfl
@[simp] theorem putDram_dmaTurn (a : Nat) (bs : List Byte) : (putDram s a bs).dmaTurn = s.dmaTurn := rfl
@[simp] theorem putDram_dmaNext (a : Nat) (bs : List Byte) : (putDram s a bs).dmaNext = s.dmaNext := rfl
@[simp] theorem putDram_jobs (a : Nat) (bs : List Byte) : (putDram s a bs).jobs = s.jobs := rfl
@[simp] theorem putDram_recording (a : Nat) (bs : List Byte) : (putDram s a bs).recording = s.recording := rfl
@[simp] theorem putDram_dramCh (a : Nat) (bs : List Byte) : (putDram s a bs).dramCh = s.dramCh := rfl
@[simp] theorem putDram_sramLost (a : Nat) (bs : List Byte) : (putDram s a bs).sramLost = s.sramLost := rfl
@[simp] theorem putDram_dramLost (a : Nat) (bs : List Byte) : (putDram s a bs).dramLost = s.dramLost := rfl
@[simp] theorem putDram_burnBad (a : Nat) (bs : List Byte) : (putDram s a bs).burnBad = s.burnBad := rfl
@[simp] theorem putDram_burn (a : Nat) (bs : List Byte) : (putDram s a bs).burn = s.burn := rfl
@[simp] theorem putDram_cams (a : Nat) (bs : List Byte) : (putDram s a bs).cams = s.cams := rfl
@[simp] theorem putDram_pipes (a : Nat) (bs : List Byte) : (putDram s a bs).pipes = s.pipes := rfl
@[simp] theorem putDram_camBus (a : Nat) (bs : List Byte) : (putDram s a bs).camBus = s.camBus := rfl
@[simp] theorem putDram_panel (a : Nat) (bs : List Byte) : (putDram s a bs).panel = s.panel := rfl
@[simp] theorem putDram_sram (a : Nat) (bs : List Byte) : (putDram s a bs).sram = s.sram := rfl
@[simp] theorem putDram_host (a : Nat) (bs : List Byte) : (putDram s a bs).host = s.host := rfl
@[simp] theorem putDram_running (a : Nat) (bs : List Byte) : (putDram s a bs).running = s.running := rfl
@[simp] theorem putDram_freeCtr (a : Nat) (bs : List Byte) : (putDram s a bs).freeCtr = s.freeCtr := rfl
@[simp] theorem putDram_pending (a : Nat) (bs : List Byte) : (putDram s a bs).pending = s.pending := rfl

@[simp] theorem putHost_regs (a : Nat) (bs : List Byte) : (putHost s a bs).regs = s.regs := rfl
@[simp] theorem putHost_shadow (a : Nat) (bs : List Byte) : (putHost s a bs).shadow = s.shadow := rfl
@[simp] theorem putHost_dirty (a : Nat) (bs : List Byte) : (putHost s a bs).dirty = s.dirty := rfl
@[simp] theorem putHost_capture (a : Nat) (bs : List Byte) : (putHost s a bs).capture = s.capture := rfl
@[simp] theorem putHost_live (a : Nat) (bs : List Byte) : (putHost s a bs).live = s.live := rfl
@[simp] theorem putHost_latched (a : Nat) (bs : List Byte) : (putHost s a bs).latched = s.latched := rfl
@[simp] theorem putHost_readData (a : Nat) (bs : List Byte) : (putHost s a bs).readData = s.readData := rfl
@[simp] theorem putHost_fuses (a : Nat) (bs : List Byte) : (putHost s a bs).fuses = s.fuses := rfl
@[simp] theorem putHost_pins (a : Nat) (bs : List Byte) : (putHost s a bs).pins = s.pins := rfl
@[simp] theorem putHost_pwr (a : Nat) (bs : List Byte) : (putHost s a bs).pwr = s.pwr := rfl
@[simp] theorem putHost_thm (a : Nat) (bs : List Byte) : (putHost s a bs).thm = s.thm := rfl
@[simp] theorem putHost_hif (a : Nat) (bs : List Byte) : (putHost s a bs).hif = s.hif := rfl
@[simp] theorem putHost_evr (a : Nat) (bs : List Byte) : (putHost s a bs).evr = s.evr := rfl
@[simp] theorem putHost_seq (a : Nat) (bs : List Byte) : (putHost s a bs).seq = s.seq := rfl
@[simp] theorem putHost_lanes (a : Nat) (bs : List Byte) : (putHost s a bs).lanes = s.lanes := rfl
@[simp] theorem putHost_ledger (a : Nat) (bs : List Byte) : (putHost s a bs).ledger = s.ledger := rfl
@[simp] theorem putHost_ovl (a : Nat) (bs : List Byte) : (putHost s a bs).ovl = s.ovl := rfl
@[simp] theorem putHost_fab (a : Nat) (bs : List Byte) : (putHost s a bs).fab = s.fab := rfl
@[simp] theorem putHost_ftm (a : Nat) (bs : List Byte) : (putHost s a bs).ftm = s.ftm := rfl
@[simp] theorem putHost_svc (a : Nat) (bs : List Byte) : (putHost s a bs).svc = s.svc := rfl
@[simp] theorem putHost_mbxDue (a : Nat) (bs : List Byte) : (putHost s a bs).mbxDue = s.mbxDue := rfl
@[simp] theorem putHost_axes (a : Nat) (bs : List Byte) : (putHost s a bs).axes = s.axes := rfl
@[simp] theorem putHost_groupStart (a : Nat) (bs : List Byte) : (putHost s a bs).groupStart = s.groupStart := rfl
@[simp] theorem putHost_resumeStart (a : Nat) (bs : List Byte) : (putHost s a bs).resumeStart = s.resumeStart := rfl
@[simp] theorem putHost_dma (a : Nat) (bs : List Byte) : (putHost s a bs).dma = s.dma := rfl
@[simp] theorem putHost_dmaTurn (a : Nat) (bs : List Byte) : (putHost s a bs).dmaTurn = s.dmaTurn := rfl
@[simp] theorem putHost_dmaNext (a : Nat) (bs : List Byte) : (putHost s a bs).dmaNext = s.dmaNext := rfl
@[simp] theorem putHost_jobs (a : Nat) (bs : List Byte) : (putHost s a bs).jobs = s.jobs := rfl
@[simp] theorem putHost_recording (a : Nat) (bs : List Byte) : (putHost s a bs).recording = s.recording := rfl
@[simp] theorem putHost_dramCh (a : Nat) (bs : List Byte) : (putHost s a bs).dramCh = s.dramCh := rfl
@[simp] theorem putHost_sramLost (a : Nat) (bs : List Byte) : (putHost s a bs).sramLost = s.sramLost := rfl
@[simp] theorem putHost_dramLost (a : Nat) (bs : List Byte) : (putHost s a bs).dramLost = s.dramLost := rfl
@[simp] theorem putHost_burnBad (a : Nat) (bs : List Byte) : (putHost s a bs).burnBad = s.burnBad := rfl
@[simp] theorem putHost_burn (a : Nat) (bs : List Byte) : (putHost s a bs).burn = s.burn := rfl
@[simp] theorem putHost_cams (a : Nat) (bs : List Byte) : (putHost s a bs).cams = s.cams := rfl
@[simp] theorem putHost_pipes (a : Nat) (bs : List Byte) : (putHost s a bs).pipes = s.pipes := rfl
@[simp] theorem putHost_camBus (a : Nat) (bs : List Byte) : (putHost s a bs).camBus = s.camBus := rfl
@[simp] theorem putHost_panel (a : Nat) (bs : List Byte) : (putHost s a bs).panel = s.panel := rfl
@[simp] theorem putHost_sram (a : Nat) (bs : List Byte) : (putHost s a bs).sram = s.sram := rfl
@[simp] theorem putHost_dram (a : Nat) (bs : List Byte) : (putHost s a bs).dram = s.dram := rfl
@[simp] theorem putHost_running (a : Nat) (bs : List Byte) : (putHost s a bs).running = s.running := rfl
@[simp] theorem putHost_freeCtr (a : Nat) (bs : List Byte) : (putHost s a bs).freeCtr = s.freeCtr := rfl
@[simp] theorem putHost_pending (a : Nat) (bs : List Byte) : (putHost s a bs).pending = s.pending := rfl

@[simp] theorem loseSram_regs (lo hi : Nat) : (loseSram s lo hi).regs = s.regs := rfl
@[simp] theorem loseSram_shadow (lo hi : Nat) : (loseSram s lo hi).shadow = s.shadow := rfl
@[simp] theorem loseSram_dirty (lo hi : Nat) : (loseSram s lo hi).dirty = s.dirty := rfl
@[simp] theorem loseSram_capture (lo hi : Nat) : (loseSram s lo hi).capture = s.capture := rfl
@[simp] theorem loseSram_live (lo hi : Nat) : (loseSram s lo hi).live = s.live := rfl
@[simp] theorem loseSram_latched (lo hi : Nat) : (loseSram s lo hi).latched = s.latched := rfl
@[simp] theorem loseSram_readData (lo hi : Nat) : (loseSram s lo hi).readData = s.readData := rfl
@[simp] theorem loseSram_fuses (lo hi : Nat) : (loseSram s lo hi).fuses = s.fuses := rfl
@[simp] theorem loseSram_pins (lo hi : Nat) : (loseSram s lo hi).pins = s.pins := rfl
@[simp] theorem loseSram_pwr (lo hi : Nat) : (loseSram s lo hi).pwr = s.pwr := rfl
@[simp] theorem loseSram_thm (lo hi : Nat) : (loseSram s lo hi).thm = s.thm := rfl
@[simp] theorem loseSram_hif (lo hi : Nat) : (loseSram s lo hi).hif = s.hif := rfl
@[simp] theorem loseSram_evr (lo hi : Nat) : (loseSram s lo hi).evr = s.evr := rfl
@[simp] theorem loseSram_seq (lo hi : Nat) : (loseSram s lo hi).seq = s.seq := rfl
@[simp] theorem loseSram_lanes (lo hi : Nat) : (loseSram s lo hi).lanes = s.lanes := rfl
@[simp] theorem loseSram_ledger (lo hi : Nat) : (loseSram s lo hi).ledger = s.ledger := rfl
@[simp] theorem loseSram_ovl (lo hi : Nat) : (loseSram s lo hi).ovl = s.ovl := rfl
@[simp] theorem loseSram_fab (lo hi : Nat) : (loseSram s lo hi).fab = s.fab := rfl
@[simp] theorem loseSram_ftm (lo hi : Nat) : (loseSram s lo hi).ftm = s.ftm := rfl
@[simp] theorem loseSram_svc (lo hi : Nat) : (loseSram s lo hi).svc = s.svc := rfl
@[simp] theorem loseSram_mbxDue (lo hi : Nat) : (loseSram s lo hi).mbxDue = s.mbxDue := rfl
@[simp] theorem loseSram_axes (lo hi : Nat) : (loseSram s lo hi).axes = s.axes := rfl
@[simp] theorem loseSram_groupStart (lo hi : Nat) : (loseSram s lo hi).groupStart = s.groupStart := rfl
@[simp] theorem loseSram_resumeStart (lo hi : Nat) : (loseSram s lo hi).resumeStart = s.resumeStart := rfl
@[simp] theorem loseSram_dma (lo hi : Nat) : (loseSram s lo hi).dma = s.dma := rfl
@[simp] theorem loseSram_dmaTurn (lo hi : Nat) : (loseSram s lo hi).dmaTurn = s.dmaTurn := rfl
@[simp] theorem loseSram_dmaNext (lo hi : Nat) : (loseSram s lo hi).dmaNext = s.dmaNext := rfl
@[simp] theorem loseSram_jobs (lo hi : Nat) : (loseSram s lo hi).jobs = s.jobs := rfl
@[simp] theorem loseSram_recording (lo hi : Nat) : (loseSram s lo hi).recording = s.recording := rfl
@[simp] theorem loseSram_dramCh (lo hi : Nat) : (loseSram s lo hi).dramCh = s.dramCh := rfl
@[simp] theorem loseSram_dramLost (lo hi : Nat) : (loseSram s lo hi).dramLost = s.dramLost := rfl
@[simp] theorem loseSram_burnBad (lo hi : Nat) : (loseSram s lo hi).burnBad = s.burnBad := rfl
@[simp] theorem loseSram_burn (lo hi : Nat) : (loseSram s lo hi).burn = s.burn := rfl
@[simp] theorem loseSram_cams (lo hi : Nat) : (loseSram s lo hi).cams = s.cams := rfl
@[simp] theorem loseSram_pipes (lo hi : Nat) : (loseSram s lo hi).pipes = s.pipes := rfl
@[simp] theorem loseSram_camBus (lo hi : Nat) : (loseSram s lo hi).camBus = s.camBus := rfl
@[simp] theorem loseSram_panel (lo hi : Nat) : (loseSram s lo hi).panel = s.panel := rfl
@[simp] theorem loseSram_dram (lo hi : Nat) : (loseSram s lo hi).dram = s.dram := rfl
@[simp] theorem loseSram_host (lo hi : Nat) : (loseSram s lo hi).host = s.host := rfl
@[simp] theorem loseSram_running (lo hi : Nat) : (loseSram s lo hi).running = s.running := rfl
@[simp] theorem loseSram_pending (lo hi : Nat) : (loseSram s lo hi).pending = s.pending := rfl

@[simp] theorem loseDram_regs (lo hi par : Nat) : (loseDram s lo hi par).regs = s.regs := rfl
@[simp] theorem loseDram_shadow (lo hi par : Nat) : (loseDram s lo hi par).shadow = s.shadow := rfl
@[simp] theorem loseDram_dirty (lo hi par : Nat) : (loseDram s lo hi par).dirty = s.dirty := rfl
@[simp] theorem loseDram_capture (lo hi par : Nat) : (loseDram s lo hi par).capture = s.capture := rfl
@[simp] theorem loseDram_live (lo hi par : Nat) : (loseDram s lo hi par).live = s.live := rfl
@[simp] theorem loseDram_latched (lo hi par : Nat) : (loseDram s lo hi par).latched = s.latched := rfl
@[simp] theorem loseDram_readData (lo hi par : Nat) : (loseDram s lo hi par).readData = s.readData := rfl
@[simp] theorem loseDram_fuses (lo hi par : Nat) : (loseDram s lo hi par).fuses = s.fuses := rfl
@[simp] theorem loseDram_pins (lo hi par : Nat) : (loseDram s lo hi par).pins = s.pins := rfl
@[simp] theorem loseDram_pwr (lo hi par : Nat) : (loseDram s lo hi par).pwr = s.pwr := rfl
@[simp] theorem loseDram_thm (lo hi par : Nat) : (loseDram s lo hi par).thm = s.thm := rfl
@[simp] theorem loseDram_hif (lo hi par : Nat) : (loseDram s lo hi par).hif = s.hif := rfl
@[simp] theorem loseDram_evr (lo hi par : Nat) : (loseDram s lo hi par).evr = s.evr := rfl
@[simp] theorem loseDram_seq (lo hi par : Nat) : (loseDram s lo hi par).seq = s.seq := rfl
@[simp] theorem loseDram_lanes (lo hi par : Nat) : (loseDram s lo hi par).lanes = s.lanes := rfl
@[simp] theorem loseDram_ledger (lo hi par : Nat) : (loseDram s lo hi par).ledger = s.ledger := rfl
@[simp] theorem loseDram_ovl (lo hi par : Nat) : (loseDram s lo hi par).ovl = s.ovl := rfl
@[simp] theorem loseDram_fab (lo hi par : Nat) : (loseDram s lo hi par).fab = s.fab := rfl
@[simp] theorem loseDram_ftm (lo hi par : Nat) : (loseDram s lo hi par).ftm = s.ftm := rfl
@[simp] theorem loseDram_svc (lo hi par : Nat) : (loseDram s lo hi par).svc = s.svc := rfl
@[simp] theorem loseDram_mbxDue (lo hi par : Nat) : (loseDram s lo hi par).mbxDue = s.mbxDue := rfl
@[simp] theorem loseDram_axes (lo hi par : Nat) : (loseDram s lo hi par).axes = s.axes := rfl
@[simp] theorem loseDram_groupStart (lo hi par : Nat) : (loseDram s lo hi par).groupStart = s.groupStart := rfl
@[simp] theorem loseDram_resumeStart (lo hi par : Nat) : (loseDram s lo hi par).resumeStart = s.resumeStart := rfl
@[simp] theorem loseDram_dma (lo hi par : Nat) : (loseDram s lo hi par).dma = s.dma := rfl
@[simp] theorem loseDram_dmaTurn (lo hi par : Nat) : (loseDram s lo hi par).dmaTurn = s.dmaTurn := rfl
@[simp] theorem loseDram_dmaNext (lo hi par : Nat) : (loseDram s lo hi par).dmaNext = s.dmaNext := rfl
@[simp] theorem loseDram_jobs (lo hi par : Nat) : (loseDram s lo hi par).jobs = s.jobs := rfl
@[simp] theorem loseDram_recording (lo hi par : Nat) : (loseDram s lo hi par).recording = s.recording := rfl
@[simp] theorem loseDram_dramCh (lo hi par : Nat) : (loseDram s lo hi par).dramCh = s.dramCh := rfl
@[simp] theorem loseDram_sramLost (lo hi par : Nat) : (loseDram s lo hi par).sramLost = s.sramLost := rfl
@[simp] theorem loseDram_burnBad (lo hi par : Nat) : (loseDram s lo hi par).burnBad = s.burnBad := rfl
@[simp] theorem loseDram_burn (lo hi par : Nat) : (loseDram s lo hi par).burn = s.burn := rfl
@[simp] theorem loseDram_cams (lo hi par : Nat) : (loseDram s lo hi par).cams = s.cams := rfl
@[simp] theorem loseDram_pipes (lo hi par : Nat) : (loseDram s lo hi par).pipes = s.pipes := rfl
@[simp] theorem loseDram_camBus (lo hi par : Nat) : (loseDram s lo hi par).camBus = s.camBus := rfl
@[simp] theorem loseDram_panel (lo hi par : Nat) : (loseDram s lo hi par).panel = s.panel := rfl
@[simp] theorem loseDram_sram (lo hi par : Nat) : (loseDram s lo hi par).sram = s.sram := rfl
@[simp] theorem loseDram_host (lo hi par : Nat) : (loseDram s lo hi par).host = s.host := rfl
@[simp] theorem loseDram_running (lo hi par : Nat) : (loseDram s lo hi par).running = s.running := rfl
@[simp] theorem loseDram_pending (lo hi par : Nat) : (loseDram s lo hi par).pending = s.pending := rfl

@[simp] theorem fillUnit_regs (lo hi : Nat) : (fillUnit s lo hi).regs = s.regs := rfl
@[simp] theorem fillUnit_shadow (lo hi : Nat) : (fillUnit s lo hi).shadow = s.shadow := rfl
@[simp] theorem fillUnit_dirty (lo hi : Nat) : (fillUnit s lo hi).dirty = s.dirty := rfl
@[simp] theorem fillUnit_capture (lo hi : Nat) : (fillUnit s lo hi).capture = s.capture := rfl
@[simp] theorem fillUnit_live (lo hi : Nat) : (fillUnit s lo hi).live = s.live := rfl
@[simp] theorem fillUnit_latched (lo hi : Nat) : (fillUnit s lo hi).latched = s.latched := rfl
@[simp] theorem fillUnit_readData (lo hi : Nat) : (fillUnit s lo hi).readData = s.readData := rfl
@[simp] theorem fillUnit_fuses (lo hi : Nat) : (fillUnit s lo hi).fuses = s.fuses := rfl
@[simp] theorem fillUnit_pins (lo hi : Nat) : (fillUnit s lo hi).pins = s.pins := rfl
@[simp] theorem fillUnit_pwr (lo hi : Nat) : (fillUnit s lo hi).pwr = s.pwr := rfl
@[simp] theorem fillUnit_thm (lo hi : Nat) : (fillUnit s lo hi).thm = s.thm := rfl
@[simp] theorem fillUnit_hif (lo hi : Nat) : (fillUnit s lo hi).hif = s.hif := rfl
@[simp] theorem fillUnit_evr (lo hi : Nat) : (fillUnit s lo hi).evr = s.evr := rfl
@[simp] theorem fillUnit_seq (lo hi : Nat) : (fillUnit s lo hi).seq = s.seq := rfl
@[simp] theorem fillUnit_lanes (lo hi : Nat) : (fillUnit s lo hi).lanes = s.lanes := rfl
@[simp] theorem fillUnit_ledger (lo hi : Nat) : (fillUnit s lo hi).ledger = s.ledger := rfl
@[simp] theorem fillUnit_ovl (lo hi : Nat) : (fillUnit s lo hi).ovl = s.ovl := rfl
@[simp] theorem fillUnit_fab (lo hi : Nat) : (fillUnit s lo hi).fab = s.fab := rfl
@[simp] theorem fillUnit_ftm (lo hi : Nat) : (fillUnit s lo hi).ftm = s.ftm := rfl
@[simp] theorem fillUnit_svc (lo hi : Nat) : (fillUnit s lo hi).svc = s.svc := rfl
@[simp] theorem fillUnit_mbxDue (lo hi : Nat) : (fillUnit s lo hi).mbxDue = s.mbxDue := rfl
@[simp] theorem fillUnit_axes (lo hi : Nat) : (fillUnit s lo hi).axes = s.axes := rfl
@[simp] theorem fillUnit_groupStart (lo hi : Nat) : (fillUnit s lo hi).groupStart = s.groupStart := rfl
@[simp] theorem fillUnit_resumeStart (lo hi : Nat) : (fillUnit s lo hi).resumeStart = s.resumeStart := rfl
@[simp] theorem fillUnit_dma (lo hi : Nat) : (fillUnit s lo hi).dma = s.dma := rfl
@[simp] theorem fillUnit_dmaTurn (lo hi : Nat) : (fillUnit s lo hi).dmaTurn = s.dmaTurn := rfl
@[simp] theorem fillUnit_dmaNext (lo hi : Nat) : (fillUnit s lo hi).dmaNext = s.dmaNext := rfl
@[simp] theorem fillUnit_jobs (lo hi : Nat) : (fillUnit s lo hi).jobs = s.jobs := rfl
@[simp] theorem fillUnit_recording (lo hi : Nat) : (fillUnit s lo hi).recording = s.recording := rfl
@[simp] theorem fillUnit_dramCh (lo hi : Nat) : (fillUnit s lo hi).dramCh = s.dramCh := rfl
@[simp] theorem fillUnit_sramLost (lo hi : Nat) : (fillUnit s lo hi).sramLost = s.sramLost := rfl
@[simp] theorem fillUnit_burnBad (lo hi : Nat) : (fillUnit s lo hi).burnBad = s.burnBad := rfl
@[simp] theorem fillUnit_burn (lo hi : Nat) : (fillUnit s lo hi).burn = s.burn := rfl
@[simp] theorem fillUnit_cams (lo hi : Nat) : (fillUnit s lo hi).cams = s.cams := rfl
@[simp] theorem fillUnit_pipes (lo hi : Nat) : (fillUnit s lo hi).pipes = s.pipes := rfl
@[simp] theorem fillUnit_camBus (lo hi : Nat) : (fillUnit s lo hi).camBus = s.camBus := rfl
@[simp] theorem fillUnit_panel (lo hi : Nat) : (fillUnit s lo hi).panel = s.panel := rfl
@[simp] theorem fillUnit_sram (lo hi : Nat) : (fillUnit s lo hi).sram = s.sram := rfl
@[simp] theorem fillUnit_host (lo hi : Nat) : (fillUnit s lo hi).host = s.host := rfl
@[simp] theorem fillUnit_running (lo hi : Nat) : (fillUnit s lo hi).running = s.running := rfl
@[simp] theorem fillUnit_freeCtr (lo hi : Nat) : (fillUnit s lo hi).freeCtr = s.freeCtr := rfl
@[simp] theorem fillUnit_pending (lo hi : Nat) : (fillUnit s lo hi).pending = s.pending := rfl

@[simp] theorem unvoid_regs (h : Issue) : (unvoid s h).regs = s.regs := rfl
@[simp] theorem unvoid_shadow (h : Issue) : (unvoid s h).shadow = s.shadow := rfl
@[simp] theorem unvoid_dirty (h : Issue) : (unvoid s h).dirty = s.dirty := rfl
@[simp] theorem unvoid_capture (h : Issue) : (unvoid s h).capture = s.capture := rfl
@[simp] theorem unvoid_live (h : Issue) : (unvoid s h).live = s.live := rfl
@[simp] theorem unvoid_latched (h : Issue) : (unvoid s h).latched = s.latched := rfl
@[simp] theorem unvoid_readData (h : Issue) : (unvoid s h).readData = s.readData := rfl
@[simp] theorem unvoid_fuses (h : Issue) : (unvoid s h).fuses = s.fuses := rfl
@[simp] theorem unvoid_pins (h : Issue) : (unvoid s h).pins = s.pins := rfl
@[simp] theorem unvoid_pwr (h : Issue) : (unvoid s h).pwr = s.pwr := rfl
@[simp] theorem unvoid_thm (h : Issue) : (unvoid s h).thm = s.thm := rfl
@[simp] theorem unvoid_evr (h : Issue) : (unvoid s h).evr = s.evr := rfl
@[simp] theorem unvoid_seq (h : Issue) : (unvoid s h).seq = s.seq := rfl
@[simp] theorem unvoid_lanes (h : Issue) : (unvoid s h).lanes = s.lanes := rfl
@[simp] theorem unvoid_ledger (h : Issue) : (unvoid s h).ledger = s.ledger := rfl
@[simp] theorem unvoid_ovl (h : Issue) : (unvoid s h).ovl = s.ovl := rfl
@[simp] theorem unvoid_fab (h : Issue) : (unvoid s h).fab = s.fab := rfl
@[simp] theorem unvoid_ftm (h : Issue) : (unvoid s h).ftm = s.ftm := rfl
@[simp] theorem unvoid_svc (h : Issue) : (unvoid s h).svc = s.svc := rfl
@[simp] theorem unvoid_mbxDue (h : Issue) : (unvoid s h).mbxDue = s.mbxDue := rfl
@[simp] theorem unvoid_axes (h : Issue) : (unvoid s h).axes = s.axes := rfl
@[simp] theorem unvoid_groupStart (h : Issue) : (unvoid s h).groupStart = s.groupStart := rfl
@[simp] theorem unvoid_resumeStart (h : Issue) : (unvoid s h).resumeStart = s.resumeStart := rfl
@[simp] theorem unvoid_dma (h : Issue) : (unvoid s h).dma = s.dma := rfl
@[simp] theorem unvoid_dmaTurn (h : Issue) : (unvoid s h).dmaTurn = s.dmaTurn := rfl
@[simp] theorem unvoid_dmaNext (h : Issue) : (unvoid s h).dmaNext = s.dmaNext := rfl
@[simp] theorem unvoid_jobs (h : Issue) : (unvoid s h).jobs = s.jobs := rfl
@[simp] theorem unvoid_recording (h : Issue) : (unvoid s h).recording = s.recording := rfl
@[simp] theorem unvoid_dramCh (h : Issue) : (unvoid s h).dramCh = s.dramCh := rfl
@[simp] theorem unvoid_sramLost (h : Issue) : (unvoid s h).sramLost = s.sramLost := rfl
@[simp] theorem unvoid_dramLost (h : Issue) : (unvoid s h).dramLost = s.dramLost := rfl
@[simp] theorem unvoid_burnBad (h : Issue) : (unvoid s h).burnBad = s.burnBad := rfl
@[simp] theorem unvoid_burn (h : Issue) : (unvoid s h).burn = s.burn := rfl
@[simp] theorem unvoid_cams (h : Issue) : (unvoid s h).cams = s.cams := rfl
@[simp] theorem unvoid_pipes (h : Issue) : (unvoid s h).pipes = s.pipes := rfl
@[simp] theorem unvoid_camBus (h : Issue) : (unvoid s h).camBus = s.camBus := rfl
@[simp] theorem unvoid_panel (h : Issue) : (unvoid s h).panel = s.panel := rfl
@[simp] theorem unvoid_sram (h : Issue) : (unvoid s h).sram = s.sram := rfl
@[simp] theorem unvoid_dram (h : Issue) : (unvoid s h).dram = s.dram := rfl
@[simp] theorem unvoid_host (h : Issue) : (unvoid s h).host = s.host := rfl
@[simp] theorem unvoid_running (h : Issue) : (unvoid s h).running = s.running := rfl
@[simp] theorem unvoid_freeCtr (h : Issue) : (unvoid s h).freeCtr = s.freeCtr := rfl
@[simp] theorem unvoid_pending (h : Issue) : (unvoid s h).pending = s.pending := rfl

@[simp] theorem startRun_regs (h : Issue) (op key : Nat) (aux : List Nat) : (startRun s h op key aux).regs = s.regs := rfl
@[simp] theorem startRun_shadow (h : Issue) (op key : Nat) (aux : List Nat) : (startRun s h op key aux).shadow = s.shadow := rfl
@[simp] theorem startRun_dirty (h : Issue) (op key : Nat) (aux : List Nat) : (startRun s h op key aux).dirty = s.dirty := rfl
@[simp] theorem startRun_capture (h : Issue) (op key : Nat) (aux : List Nat) : (startRun s h op key aux).capture = s.capture := rfl
@[simp] theorem startRun_live (h : Issue) (op key : Nat) (aux : List Nat) : (startRun s h op key aux).live = s.live := rfl
@[simp] theorem startRun_latched (h : Issue) (op key : Nat) (aux : List Nat) : (startRun s h op key aux).latched = s.latched := rfl
@[simp] theorem startRun_readData (h : Issue) (op key : Nat) (aux : List Nat) : (startRun s h op key aux).readData = s.readData := rfl
@[simp] theorem startRun_fuses (h : Issue) (op key : Nat) (aux : List Nat) : (startRun s h op key aux).fuses = s.fuses := rfl
@[simp] theorem startRun_pins (h : Issue) (op key : Nat) (aux : List Nat) : (startRun s h op key aux).pins = s.pins := rfl
@[simp] theorem startRun_pwr (h : Issue) (op key : Nat) (aux : List Nat) : (startRun s h op key aux).pwr = s.pwr := rfl
@[simp] theorem startRun_thm (h : Issue) (op key : Nat) (aux : List Nat) : (startRun s h op key aux).thm = s.thm := rfl
@[simp] theorem startRun_evr (h : Issue) (op key : Nat) (aux : List Nat) : (startRun s h op key aux).evr = s.evr := rfl
@[simp] theorem startRun_seq (h : Issue) (op key : Nat) (aux : List Nat) : (startRun s h op key aux).seq = s.seq := rfl
@[simp] theorem startRun_lanes (h : Issue) (op key : Nat) (aux : List Nat) : (startRun s h op key aux).lanes = s.lanes := rfl
@[simp] theorem startRun_ledger (h : Issue) (op key : Nat) (aux : List Nat) : (startRun s h op key aux).ledger = s.ledger := rfl
@[simp] theorem startRun_ovl (h : Issue) (op key : Nat) (aux : List Nat) : (startRun s h op key aux).ovl = s.ovl := rfl
@[simp] theorem startRun_fab (h : Issue) (op key : Nat) (aux : List Nat) : (startRun s h op key aux).fab = s.fab := rfl
@[simp] theorem startRun_ftm (h : Issue) (op key : Nat) (aux : List Nat) : (startRun s h op key aux).ftm = s.ftm := rfl
@[simp] theorem startRun_svc (h : Issue) (op key : Nat) (aux : List Nat) : (startRun s h op key aux).svc = s.svc := rfl
@[simp] theorem startRun_mbxDue (h : Issue) (op key : Nat) (aux : List Nat) : (startRun s h op key aux).mbxDue = s.mbxDue := rfl
@[simp] theorem startRun_axes (h : Issue) (op key : Nat) (aux : List Nat) : (startRun s h op key aux).axes = s.axes := rfl
@[simp] theorem startRun_groupStart (h : Issue) (op key : Nat) (aux : List Nat) : (startRun s h op key aux).groupStart = s.groupStart := rfl
@[simp] theorem startRun_resumeStart (h : Issue) (op key : Nat) (aux : List Nat) : (startRun s h op key aux).resumeStart = s.resumeStart := rfl
@[simp] theorem startRun_dma (h : Issue) (op key : Nat) (aux : List Nat) : (startRun s h op key aux).dma = s.dma := rfl
@[simp] theorem startRun_dmaTurn (h : Issue) (op key : Nat) (aux : List Nat) : (startRun s h op key aux).dmaTurn = s.dmaTurn := rfl
@[simp] theorem startRun_dmaNext (h : Issue) (op key : Nat) (aux : List Nat) : (startRun s h op key aux).dmaNext = s.dmaNext := rfl
@[simp] theorem startRun_jobs (h : Issue) (op key : Nat) (aux : List Nat) : (startRun s h op key aux).jobs = s.jobs := rfl
@[simp] theorem startRun_recording (h : Issue) (op key : Nat) (aux : List Nat) : (startRun s h op key aux).recording = s.recording := rfl
@[simp] theorem startRun_dramCh (h : Issue) (op key : Nat) (aux : List Nat) : (startRun s h op key aux).dramCh = s.dramCh := rfl
@[simp] theorem startRun_sramLost (h : Issue) (op key : Nat) (aux : List Nat) : (startRun s h op key aux).sramLost = s.sramLost := rfl
@[simp] theorem startRun_dramLost (h : Issue) (op key : Nat) (aux : List Nat) : (startRun s h op key aux).dramLost = s.dramLost := rfl
@[simp] theorem startRun_burnBad (h : Issue) (op key : Nat) (aux : List Nat) : (startRun s h op key aux).burnBad = s.burnBad := rfl
@[simp] theorem startRun_burn (h : Issue) (op key : Nat) (aux : List Nat) : (startRun s h op key aux).burn = s.burn := rfl
@[simp] theorem startRun_cams (h : Issue) (op key : Nat) (aux : List Nat) : (startRun s h op key aux).cams = s.cams := rfl
@[simp] theorem startRun_pipes (h : Issue) (op key : Nat) (aux : List Nat) : (startRun s h op key aux).pipes = s.pipes := rfl
@[simp] theorem startRun_camBus (h : Issue) (op key : Nat) (aux : List Nat) : (startRun s h op key aux).camBus = s.camBus := rfl
@[simp] theorem startRun_panel (h : Issue) (op key : Nat) (aux : List Nat) : (startRun s h op key aux).panel = s.panel := rfl
@[simp] theorem startRun_sram (h : Issue) (op key : Nat) (aux : List Nat) : (startRun s h op key aux).sram = s.sram := rfl
@[simp] theorem startRun_dram (h : Issue) (op key : Nat) (aux : List Nat) : (startRun s h op key aux).dram = s.dram := rfl
@[simp] theorem startRun_host (h : Issue) (op key : Nat) (aux : List Nat) : (startRun s h op key aux).host = s.host := rfl
@[simp] theorem startRun_freeCtr (h : Issue) (op key : Nat) (aux : List Nat) : (startRun s h op key aux).freeCtr = s.freeCtr := rfl
@[simp] theorem startRun_pending (h : Issue) (op key : Nat) (aux : List Nat) : (startRun s h op key aux).pending = s.pending := rfl

@[simp] theorem holding_regs : (holding s t).regs = t.regs := rfl
@[simp] theorem holding_shadow : (holding s t).shadow = t.shadow := rfl
@[simp] theorem holding_dirty : (holding s t).dirty = t.dirty := rfl
@[simp] theorem holding_capture : (holding s t).capture = t.capture := rfl
@[simp] theorem holding_live : (holding s t).live = t.live := rfl
@[simp] theorem holding_latched : (holding s t).latched = t.latched := rfl
@[simp] theorem holding_readData : (holding s t).readData = t.readData := rfl
@[simp] theorem holding_fuses : (holding s t).fuses = { t.fuses with serial := s.fuses.serial, keyHash := s.fuses.keyHash } := rfl
@[simp] theorem holding_pins : (holding s t).pins = { t.pins with thermTripN := s.pins.thermTripN } := rfl
@[simp] theorem holding_pwr : (holding s t).pwr = { t.pwr with thermLatch := s.pwr.thermLatch } := rfl
@[simp] theorem holding_thm : (holding s t).thm = t.thm := rfl
@[simp] theorem holding_hif : (holding s t).hif = t.hif := rfl
@[simp] theorem holding_evr : (holding s t).evr = t.evr := rfl
@[simp] theorem holding_seq : (holding s t).seq = t.seq := rfl
@[simp] theorem holding_lanes : (holding s t).lanes = t.lanes := rfl
@[simp] theorem holding_ledger : (holding s t).ledger = t.ledger := rfl
@[simp] theorem holding_ovl : (holding s t).ovl = t.ovl := rfl
@[simp] theorem holding_fab : (holding s t).fab = t.fab := rfl
@[simp] theorem holding_ftm : (holding s t).ftm = t.ftm := rfl
@[simp] theorem holding_svc : (holding s t).svc = t.svc := rfl
@[simp] theorem holding_mbxDue : (holding s t).mbxDue = t.mbxDue := rfl
@[simp] theorem holding_axes : (holding s t).axes = t.axes := rfl
@[simp] theorem holding_groupStart : (holding s t).groupStart = t.groupStart := rfl
@[simp] theorem holding_resumeStart : (holding s t).resumeStart = t.resumeStart := rfl
@[simp] theorem holding_dma : (holding s t).dma = t.dma := rfl
@[simp] theorem holding_dmaTurn : (holding s t).dmaTurn = t.dmaTurn := rfl
@[simp] theorem holding_dmaNext : (holding s t).dmaNext = t.dmaNext := rfl
@[simp] theorem holding_jobs : (holding s t).jobs = t.jobs := rfl
@[simp] theorem holding_recording : (holding s t).recording = t.recording := rfl
@[simp] theorem holding_dramCh : (holding s t).dramCh = t.dramCh := rfl
@[simp] theorem holding_sramLost : (holding s t).sramLost = t.sramLost := rfl
@[simp] theorem holding_dramLost : (holding s t).dramLost = t.dramLost := rfl
@[simp] theorem holding_burnBad : (holding s t).burnBad = t.burnBad := rfl
@[simp] theorem holding_burn : (holding s t).burn = t.burn := rfl
@[simp] theorem holding_cams : (holding s t).cams = t.cams := rfl
@[simp] theorem holding_pipes : (holding s t).pipes = t.pipes := rfl
@[simp] theorem holding_camBus : (holding s t).camBus = t.camBus := rfl
@[simp] theorem holding_panel : (holding s t).panel = t.panel := rfl
@[simp] theorem holding_sram : (holding s t).sram = t.sram := rfl
@[simp] theorem holding_dram : (holding s t).dram = t.dram := rfl
@[simp] theorem holding_host : (holding s t).host = t.host := rfl
@[simp] theorem holding_running : (holding s t).running = t.running := rfl
@[simp] theorem holding_freeCtr : (holding s t).freeCtr = t.freeCtr := rfl
@[simp] theorem holding_pending : (holding s t).pending = s.pending := rfl

/-! ### Parts of the state, and what an operation can change -/

/-- A part of the state: one constructor per field. -/
inductive Part where
  | regs
  | shadow
  | dirty
  | capture
  | live
  | latched
  | readData
  | fuses
  | pins
  | pwr
  | thm
  | hif
  | evr
  | seq
  | lanes
  | ledger
  | ovl
  | fab
  | ftm
  | svc
  | mbxDue
  | axes
  | groupStart
  | resumeStart
  | dma
  | dmaTurn
  | dmaNext
  | jobs
  | recording
  | dramCh
  | sramLost
  | dramLost
  | burnBad
  | burn
  | cams
  | pipes
  | camBus
  | panel
  | sram
  | dram
  | host
  | running
  | freeCtr
  | pending
  deriving DecidableEq, Repr

/-- The part is the same in two states. -/
def Part.same : Part → State → State → Prop
  | .regs, s, t => t.regs = s.regs
  | .shadow, s, t => t.shadow = s.shadow
  | .dirty, s, t => t.dirty = s.dirty
  | .capture, s, t => t.capture = s.capture
  | .live, s, t => t.live = s.live
  | .latched, s, t => t.latched = s.latched
  | .readData, s, t => t.readData = s.readData
  | .fuses, s, t => t.fuses = s.fuses
  | .pins, s, t => t.pins = s.pins
  | .pwr, s, t => t.pwr = s.pwr
  | .thm, s, t => t.thm = s.thm
  | .hif, s, t => t.hif = s.hif
  | .evr, s, t => t.evr = s.evr
  | .seq, s, t => t.seq = s.seq
  | .lanes, s, t => t.lanes = s.lanes
  | .ledger, s, t => t.ledger = s.ledger
  | .ovl, s, t => t.ovl = s.ovl
  | .fab, s, t => t.fab = s.fab
  | .ftm, s, t => t.ftm = s.ftm
  | .svc, s, t => t.svc = s.svc
  | .mbxDue, s, t => t.mbxDue = s.mbxDue
  | .axes, s, t => t.axes = s.axes
  | .groupStart, s, t => t.groupStart = s.groupStart
  | .resumeStart, s, t => t.resumeStart = s.resumeStart
  | .dma, s, t => t.dma = s.dma
  | .dmaTurn, s, t => t.dmaTurn = s.dmaTurn
  | .dmaNext, s, t => t.dmaNext = s.dmaNext
  | .jobs, s, t => t.jobs = s.jobs
  | .recording, s, t => t.recording = s.recording
  | .dramCh, s, t => t.dramCh = s.dramCh
  | .sramLost, s, t => t.sramLost = s.sramLost
  | .dramLost, s, t => t.dramLost = s.dramLost
  | .burnBad, s, t => t.burnBad = s.burnBad
  | .burn, s, t => t.burn = s.burn
  | .cams, s, t => t.cams = s.cams
  | .pipes, s, t => t.pipes = s.pipes
  | .camBus, s, t => t.camBus = s.camBus
  | .panel, s, t => t.panel = s.panel
  | .sram, s, t => t.sram = s.sram
  | .dram, s, t => t.dram = s.dram
  | .host, s, t => t.host = s.host
  | .running, s, t => t.running = s.running
  | .freeCtr, s, t => t.freeCtr = s.freeCtr
  | .pending, s, t => t.pending = s.pending

/-- From `s` to `t` nothing changed but the parts in `ps`. -/
def Same (ps : List Part) (s t : State) : Prop := ∀ p, p ∉ ps → p.same s t

theorem Same.refl (ps : List Part) (s : State) : Same ps s s := by intro p _; cases p <;> rfl

theorem Same.trans {ps : List Part} {s t u : State} (h1 : Same ps s t) (h2 : Same ps t u) : Same ps s u := by
  intro p hp
  have a := h1 p hp
  have b := h2 p hp
  cases p <;> exact Eq.trans b a

theorem Same.mono {ps qs : List Part} {s t : State} (h : Same ps s t) (hs : ∀ p ∈ ps, p ∈ qs) : Same qs s t :=
  fun p hp => h p (fun hq => hp (hs p hq))

/-- A fold of an operation that changes only some parts changes only them. -/
theorem Same.foldl {β : Type} {ps : List Part} (f : State → β → State) (h : ∀ s x, Same ps s (f s x)) (l : List β) (s : State) :
    Same ps s (l.foldl f s) := foldl_rel _ (Same.refl ps) (fun _ _ _ => Same.trans) f h l s

theorem Same.regs {ps : List Part} {s t : State} (h : Same ps s t) (hp : Part.regs ∉ ps := by decide) : t.regs = s.regs := h .regs hp
theorem Same.shadow {ps : List Part} {s t : State} (h : Same ps s t) (hp : Part.shadow ∉ ps := by decide) : t.shadow = s.shadow := h .shadow hp
theorem Same.dirty {ps : List Part} {s t : State} (h : Same ps s t) (hp : Part.dirty ∉ ps := by decide) : t.dirty = s.dirty := h .dirty hp
theorem Same.capture {ps : List Part} {s t : State} (h : Same ps s t) (hp : Part.capture ∉ ps := by decide) : t.capture = s.capture := h .capture hp
theorem Same.live {ps : List Part} {s t : State} (h : Same ps s t) (hp : Part.live ∉ ps := by decide) : t.live = s.live := h .live hp
theorem Same.latched {ps : List Part} {s t : State} (h : Same ps s t) (hp : Part.latched ∉ ps := by decide) : t.latched = s.latched := h .latched hp
theorem Same.readData {ps : List Part} {s t : State} (h : Same ps s t) (hp : Part.readData ∉ ps := by decide) : t.readData = s.readData := h .readData hp
theorem Same.fuses {ps : List Part} {s t : State} (h : Same ps s t) (hp : Part.fuses ∉ ps := by decide) : t.fuses = s.fuses := h .fuses hp
theorem Same.pins {ps : List Part} {s t : State} (h : Same ps s t) (hp : Part.pins ∉ ps := by decide) : t.pins = s.pins := h .pins hp
theorem Same.pwr {ps : List Part} {s t : State} (h : Same ps s t) (hp : Part.pwr ∉ ps := by decide) : t.pwr = s.pwr := h .pwr hp
theorem Same.thm {ps : List Part} {s t : State} (h : Same ps s t) (hp : Part.thm ∉ ps := by decide) : t.thm = s.thm := h .thm hp
theorem Same.hif {ps : List Part} {s t : State} (h : Same ps s t) (hp : Part.hif ∉ ps := by decide) : t.hif = s.hif := h .hif hp
theorem Same.evr {ps : List Part} {s t : State} (h : Same ps s t) (hp : Part.evr ∉ ps := by decide) : t.evr = s.evr := h .evr hp
theorem Same.seq {ps : List Part} {s t : State} (h : Same ps s t) (hp : Part.seq ∉ ps := by decide) : t.seq = s.seq := h .seq hp
theorem Same.lanes {ps : List Part} {s t : State} (h : Same ps s t) (hp : Part.lanes ∉ ps := by decide) : t.lanes = s.lanes := h .lanes hp
theorem Same.ledger {ps : List Part} {s t : State} (h : Same ps s t) (hp : Part.ledger ∉ ps := by decide) : t.ledger = s.ledger := h .ledger hp
theorem Same.ovl {ps : List Part} {s t : State} (h : Same ps s t) (hp : Part.ovl ∉ ps := by decide) : t.ovl = s.ovl := h .ovl hp
theorem Same.fab {ps : List Part} {s t : State} (h : Same ps s t) (hp : Part.fab ∉ ps := by decide) : t.fab = s.fab := h .fab hp
theorem Same.ftm {ps : List Part} {s t : State} (h : Same ps s t) (hp : Part.ftm ∉ ps := by decide) : t.ftm = s.ftm := h .ftm hp
theorem Same.svc {ps : List Part} {s t : State} (h : Same ps s t) (hp : Part.svc ∉ ps := by decide) : t.svc = s.svc := h .svc hp
theorem Same.mbxDue {ps : List Part} {s t : State} (h : Same ps s t) (hp : Part.mbxDue ∉ ps := by decide) : t.mbxDue = s.mbxDue := h .mbxDue hp
theorem Same.axes {ps : List Part} {s t : State} (h : Same ps s t) (hp : Part.axes ∉ ps := by decide) : t.axes = s.axes := h .axes hp
theorem Same.groupStart {ps : List Part} {s t : State} (h : Same ps s t) (hp : Part.groupStart ∉ ps := by decide) : t.groupStart = s.groupStart := h .groupStart hp
theorem Same.resumeStart {ps : List Part} {s t : State} (h : Same ps s t) (hp : Part.resumeStart ∉ ps := by decide) : t.resumeStart = s.resumeStart := h .resumeStart hp
theorem Same.dma {ps : List Part} {s t : State} (h : Same ps s t) (hp : Part.dma ∉ ps := by decide) : t.dma = s.dma := h .dma hp
theorem Same.dmaTurn {ps : List Part} {s t : State} (h : Same ps s t) (hp : Part.dmaTurn ∉ ps := by decide) : t.dmaTurn = s.dmaTurn := h .dmaTurn hp
theorem Same.dmaNext {ps : List Part} {s t : State} (h : Same ps s t) (hp : Part.dmaNext ∉ ps := by decide) : t.dmaNext = s.dmaNext := h .dmaNext hp
theorem Same.jobs {ps : List Part} {s t : State} (h : Same ps s t) (hp : Part.jobs ∉ ps := by decide) : t.jobs = s.jobs := h .jobs hp
theorem Same.recording {ps : List Part} {s t : State} (h : Same ps s t) (hp : Part.recording ∉ ps := by decide) : t.recording = s.recording := h .recording hp
theorem Same.dramCh {ps : List Part} {s t : State} (h : Same ps s t) (hp : Part.dramCh ∉ ps := by decide) : t.dramCh = s.dramCh := h .dramCh hp
theorem Same.sramLost {ps : List Part} {s t : State} (h : Same ps s t) (hp : Part.sramLost ∉ ps := by decide) : t.sramLost = s.sramLost := h .sramLost hp
theorem Same.dramLost {ps : List Part} {s t : State} (h : Same ps s t) (hp : Part.dramLost ∉ ps := by decide) : t.dramLost = s.dramLost := h .dramLost hp
theorem Same.burnBad {ps : List Part} {s t : State} (h : Same ps s t) (hp : Part.burnBad ∉ ps := by decide) : t.burnBad = s.burnBad := h .burnBad hp
theorem Same.burn {ps : List Part} {s t : State} (h : Same ps s t) (hp : Part.burn ∉ ps := by decide) : t.burn = s.burn := h .burn hp
theorem Same.cams {ps : List Part} {s t : State} (h : Same ps s t) (hp : Part.cams ∉ ps := by decide) : t.cams = s.cams := h .cams hp
theorem Same.pipes {ps : List Part} {s t : State} (h : Same ps s t) (hp : Part.pipes ∉ ps := by decide) : t.pipes = s.pipes := h .pipes hp
theorem Same.camBus {ps : List Part} {s t : State} (h : Same ps s t) (hp : Part.camBus ∉ ps := by decide) : t.camBus = s.camBus := h .camBus hp
theorem Same.panel {ps : List Part} {s t : State} (h : Same ps s t) (hp : Part.panel ∉ ps := by decide) : t.panel = s.panel := h .panel hp
theorem Same.sram {ps : List Part} {s t : State} (h : Same ps s t) (hp : Part.sram ∉ ps := by decide) : t.sram = s.sram := h .sram hp
theorem Same.dram {ps : List Part} {s t : State} (h : Same ps s t) (hp : Part.dram ∉ ps := by decide) : t.dram = s.dram := h .dram hp
theorem Same.host {ps : List Part} {s t : State} (h : Same ps s t) (hp : Part.host ∉ ps := by decide) : t.host = s.host := h .host hp
theorem Same.running {ps : List Part} {s t : State} (h : Same ps s t) (hp : Part.running ∉ ps := by decide) : t.running = s.running := h .running hp
theorem Same.freeCtr {ps : List Part} {s t : State} (h : Same ps s t) (hp : Part.freeCtr ∉ ps := by decide) : t.freeCtr = s.freeCtr := h .freeCtr hp
theorem Same.pending {ps : List Part} {s t : State} (h : Same ps s t) (hp : Part.pending ∉ ps := by decide) : t.pending = s.pending := h .pending hp

theorem wr_same (a : Nat) (w : Word) : Same [.regs] s (wr s a w) := by
  intro p hp; cases p <;> first | rfl | exact absurd (by decide) hp
theorem wrN_same (a n : Nat) : Same [.regs] s (wrN s a n) := by
  intro p hp; cases p <;> first | rfl | exact absurd (by decide) hp
theorem wrI_same (a : Nat) (i : Int) : Same [.regs] s (wrI s a i) := by
  intro p hp; cases p <;> first | rfl | exact absurd (by decide) hp
theorem wr64_same (l h n : Nat) : Same [.regs] s (wr64 s l h n) := by
  intro p hp; cases p <;> first | rfl | exact absurd (by decide) hp
theorem setFld_same (a hi lo v : Nat) : Same [.regs] s (setFld s a hi lo v) := by
  intro p hp; cases p <;> first | rfl | exact absurd (by decide) hp
theorem setFlag_same (a i : Nat) (b : Bool) : Same [.regs] s (setFlag s a i b) := by
  intro p hp; cases p <;> first | rfl | exact absurd (by decide) hp
theorem setLayerSt_same (v : Nat) : Same [.regs] s (setLayerSt s v) := by
  intro p hp; cases p <;> first | rfl | exact absurd (by decide) hp
theorem setShadow_same (g a hi lo v : Nat) : Same [.shadow, .dirty] s (setShadow s g a hi lo v) := by
  intro p hp; cases p <;> first | rfl | exact absurd (by decide) hp
theorem setLive_same (a hi lo v : Nat) : Same [.live] s (setLive s a hi lo v) := by
  intro p hp; cases p <;> first | rfl | exact absurd (by decide) hp
theorem tick1_same : Same [.freeCtr] s (tick1 s) := by
  intro p hp; cases p <;> first | rfl | exact absurd (by decide) hp
theorem setLane_same (n : Nat) (l : Lane) : Same [.lanes] s (setLane s n l) := by
  intro p hp; cases p <;> first | rfl | exact absurd (by decide) hp
theorem updLane_same (n : Nat) (f : Lane → Lane) : Same [.lanes] s (updLane s n f) := by
  intro p hp; cases p <;> first | rfl | exact absurd (by decide) hp
theorem putSram_same (a : Nat) (bs : List Byte) : Same [.sram] s (putSram s a bs) := by
  intro p hp; cases p <;> first | rfl | exact absurd (by decide) hp
theorem putDram_same (a : Nat) (bs : List Byte) : Same [.dram] s (putDram s a bs) := by
  intro p hp; cases p <;> first | rfl | exact absurd (by decide) hp
theorem putHost_same (a : Nat) (bs : List Byte) : Same [.host] s (putHost s a bs) := by
  intro p hp; cases p <;> first | rfl | exact absurd (by decide) hp
theorem loseSram_same (lo hi : Nat) : Same [.sramLost, .sram, .freeCtr] s (loseSram s lo hi) := by
  intro p hp; cases p <;> first | rfl | exact absurd (by decide) hp
theorem loseDram_same (lo hi par : Nat) : Same [.dramLost, .dram, .freeCtr] s (loseDram s lo hi par) := by
  intro p hp; cases p <;> first | rfl | exact absurd (by decide) hp
theorem fillUnit_same (lo hi : Nat) : Same [.dramLost, .dram] s (fillUnit s lo hi) := by
  intro p hp; cases p <;> first | rfl | exact absurd (by decide) hp
theorem unvoid_same (h : Issue) : Same [.hif] s (unvoid s h) := by
  intro p hp; cases p <;> first | rfl | exact absurd (by decide) hp
theorem startRun_same (h : Issue) (op key : Nat) (aux : List Nat) : Same [.hif, .running] s (startRun s h op key aux) := by
  intro p hp; cases p <;> first | rfl | exact absurd (by decide) hp

/-! ### Registers and fields -/

section Registers
variable {s}

theorem rd_wr (a b : Nat) (w : Word) : rd (wr s a w) b = if b = a then w else rd s b := by
  unfold rd wr
  rw [mget_mset]

@[simp] theorem rd_wr_same (a : Nat) (w : Word) : rd (wr s a w) a = w := by simp [rd_wr]

theorem rd_wr_other {a b : Nat} (w : Word) (h : b ≠ a) : rd (wr s a w) b = rd s b := by simp [rd_wr, h]

theorem rd_wrN_other {a b : Nat} (n : Nat) (h : b ≠ a) : rd (wrN s a n) b = rd s b := rd_wr_other _ h
theorem rd_wrI_other {a b : Nat} (i : Int) (h : b ≠ a) : rd (wrI s a i) b = rd s b := rd_wr_other _ h
theorem rd_setFld_other {a b : Nat} (hi lo v : Nat) (h : b ≠ a) : rd (setFld s a hi lo v) b = rd s b := rd_wr_other _ h
theorem rd_setFlag_other {a b : Nat} (i : Nat) (v : Bool) (h : b ≠ a) : rd (setFlag s a i v) b = rd s b := rd_wr_other _ h
theorem rd_wr64_other {l h b : Nat} (n : Nat) (h1 : b ≠ l) (h2 : b ≠ h) : rd (wr64 s l h n) b = rd s b := by
  rw [wr64, rd_wrN_other _ h2, rd_wrN_other _ h1]

@[simp] theorem rd_wrN_same (a n : Nat) : rd (wrN s a n) a = BitVec.ofNat 32 n := rd_wr_same _ _
@[simp] theorem rd_wrI_same (a : Nat) (i : Int) : rd (wrI s a i) a = BitVec.ofInt 32 i := rd_wr_same _ _
@[simp] theorem rd_setFld_same (a hi lo v : Nat) : rd (setFld s a hi lo v) a = setBits (rd s a) hi lo v := rd_wr_same _ _
@[simp] theorem rd_setFlag_same (a i : Nat) (b : Bool) : rd (setFlag s a i b) a = setBits (rd s a) i i (b2n b) := rd_wr_same _ _
@[simp] theorem rdN_wrN_same (a n : Nat) : rdN (wrN s a n) a = n % 2 ^ 32 := by simp [rdN]

theorem fld_setFld_same (a hi lo v : Nat) (h : hi < 32) (hl : lo ≤ hi) : fld (setFld s a hi lo v) a hi lo = v % 2 ^ (hi - lo + 1) := by
  simp [fld, bitsOf_setBits_same, h, hl]

/-- Another field of the register written keeps its value. -/
theorem fld_setFld_apart (a hi lo v h l : Nat) (hw : lo ≤ hi) (hl : l ≤ h) (hd : h < lo ∨ hi < l) :
    fld (setFld s a hi lo v) a h l = fld s a h l := by simp [fld, bitsOf_setBits_other _ _ _ _ _ _ hw hl hd]

theorem flag_setFlag_same (a i : Nat) (b : Bool) (h : i < 32) : flag (setFlag s a i b) a i = b := by
  rw [flag, setFlag, fld_setFld_same _ _ _ _ h (le_refl _)]
  cases b <;> simp

/-- A field's value depends on its register alone. -/
theorem fld_congr {t : State} {a : Nat} (h : rd t a = rd s a) (hi lo : Nat) : fld t a hi lo = fld s a hi lo := by rw [fld, fld, h]
theorem flag_congr {t : State} {a : Nat} (h : rd t a = rd s a) (i : Nat) : flag t a i = flag s a i := by rw [flag, flag, fld_congr h]
theorem rdN_congr {t : State} {a : Nat} (h : rd t a = rd s a) : rdN t a = rdN s a := by rw [rdN, rdN, h]
theorem rdI_congr {t : State} {a : Nat} (h : rd t a = rd s a) : rdI t a = rdI s a := by rw [rdI, rdI, h]

theorem rd_regs {t : State} (h : t.regs = s.regs) (a : Nat) : rd t a = rd s a := by rw [rd, rd, h]

theorem Same.rd {ps : List Part} {s t : State} (h : Same ps s t) (a : Nat) (hp : Part.regs ∉ ps := by decide) :
    Machine.rd t a = Machine.rd s a := rd_regs (h.regs hp) a

theorem fld_lt (a hi lo : Nat) : fld s a hi lo < 2 ^ (hi - lo + 1) := bitsOf_lt _ _ _

theorem rdN_lt (a : Nat) : rdN s a < 2 ^ 32 := (rd s a).isLt

end Registers

/-! ### Lanes -/

@[simp] theorem lane_setLane_same (n : Nat) (l : Lane) : lane (setLane s n l) n = l := by simp [lane, setLane]
theorem lane_setLane_other {n j : Nat} (l : Lane) (h : j ≠ n) : lane (setLane s n l) j = lane s j := by
  simp [lane, setLane, mget_mset_other _ _ _ _ _ h]
@[simp] theorem lane_updLane_same (n : Nat) (f : Lane → Lane) : lane (updLane s n f) n = f (lane s n) := by simp [updLane]
theorem lane_updLane_other {n j : Nat} (f : Lane → Lane) (h : j ≠ n) : lane (updLane s n f) j = lane s j := lane_setLane_other s _ h

/-! ### The queue, the latch and the identity fuses -/

@[simp] theorem holding_holding : holding s (holding s t) = holding s t := rfl
@[simp] theorem rd_holding (a : Nat) : rd (holding s t) a = rd t a := rfl

end Sys2Proof.Laws
end

