-- ==== Sys2Proof/Laws/Memory.lean ====
section
/-!
SUPPORT. Memories: a byte written reads back, no other byte changes, and every operation keeps the canonical form.
-/

namespace Sys2Proof.Laws

open Sys2Proof.Machine

variable (d : Nat → Byte)

/-! ### One byte -/

theorem memWfFrom_mono {m : List Host.Cell} {lo lo' : Nat} (h : memWfFrom d lo m = true) (hl : lo' ≤ lo) : memWfFrom d lo' m = true := by
  cases m with
  | nil => rfl
  | cons c m =>
    obtain ⟨i, b⟩ := c
    simp only [memWfFrom, Bool.and_eq_true, decide_eq_true_eq] at h ⊢
    exact ⟨⟨le_trans hl h.1.1, h.1.2⟩, h.2⟩

theorem memWfFrom_filter {m : List Host.Cell} {lo : Nat} (p : Host.Cell → Bool) (h : memWfFrom d lo m = true) :
    memWfFrom d lo (m.filter p) = true := by
  induction m generalizing lo with
  | nil => rfl
  | cons c m ih =>
    obtain ⟨i, b⟩ := c
    simp only [memWfFrom, Bool.and_eq_true, decide_eq_true_eq] at h
    by_cases hp : p (i, b) = true
    · rw [List.filter_cons_of_pos hp]
      simp only [memWfFrom, Bool.and_eq_true, decide_eq_true_eq]
      exact ⟨h.1, ih h.2⟩
    · rw [List.filter_cons_of_neg hp]
      exact memWfFrom_mono d (ih h.2) (by omega)

theorem insertCell_wf {m : List Host.Cell} {lo a : Nat} {b : Byte} (h : memWfFrom d lo m = true) (hl : lo ≤ a) (hb : b ≠ d a)
    (ha : ∀ c ∈ m, c.1 ≠ a) : memWfFrom d lo (insertCell m a b) = true := by
  induction m generalizing lo with
  | nil => simp [insertCell, memWfFrom, hl, hb]
  | cons c m ih =>
    obtain ⟨i, w⟩ := c
    simp only [memWfFrom, Bool.and_eq_true, decide_eq_true_eq] at h
    have hi : i ≠ a := ha (i, w) (List.mem_cons_self)
    unfold insertCell
    by_cases h1 : a < i
    · rw [if_pos h1]
      simp only [memWfFrom, Bool.and_eq_true, decide_eq_true_eq]
      exact ⟨⟨hl, hb⟩, ⟨by omega, h.1.2⟩, h.2⟩
    · rw [if_neg h1]
      simp only [memWfFrom, Bool.and_eq_true, decide_eq_true_eq]
      exact ⟨h.1, ih h.2 (by omega) (fun c hc => ha c (List.mem_cons_of_mem _ hc))⟩

/-- Writing a byte keeps the canonical form. -/
theorem putByte_wf {m : List Host.Cell} (a : Nat) (b : Byte) (h : Memory.wf d m = true) : Memory.wf d (putByte d m a b) = true := by
  unfold Memory.wf putByte at *
  have hf := memWfFrom_filter d (fun c => c.1 != a) h
  by_cases hb : b = d a
  · simp [hb, hf]
  · simp only [hb, if_false]
    exact insertCell_wf d hf (Nat.zero_le _) hb (fun c hc => by simpa using (List.mem_filter.mp hc).2)

theorem byteAt_of_not_mem {m : List Host.Cell} {a : Nat} (h : ∀ c ∈ m, c.1 ≠ a) : byteAt d m a = d a := by
  induction m with
  | nil => rfl
  | cons c m ih =>
    obtain ⟨i, w⟩ := c
    have hi : i ≠ a := h (i, w) (List.mem_cons_self)
    simp [byteAt, hi, ih (fun c hc => h c (List.mem_cons_of_mem _ hc))]

theorem byteAt_filter_other {m : List Host.Cell} {a x : Nat} (h : x ≠ a) : byteAt d (m.filter (fun c => c.1 != a)) x = byteAt d m x := by
  induction m with
  | nil => rfl
  | cons c m ih =>
    obtain ⟨i, w⟩ := c
    by_cases hi : i = a
    · subst hi
      simp [List.filter, byteAt, Ne.symm h, ih]
    · have : ((i, w) : Host.Cell).1 != a := by simpa using hi
      rw [List.filter_cons_of_pos (by simpa using hi)]
      simp [byteAt, ih]

theorem byteAt_insertCell {m : List Host.Cell} {a : Nat} (b : Byte) (h : ∀ c ∈ m, c.1 ≠ a) (x : Nat) :
    byteAt d (insertCell m a b) x = if x = a then b else byteAt d m x := by
  induction m with
  | nil => simp [insertCell, byteAt, eq_comm]
  | cons c m ih =>
    obtain ⟨i, w⟩ := c
    have hi : i ≠ a := h (i, w) (List.mem_cons_self)
    have ih := ih (fun c hc => h c (List.mem_cons_of_mem _ hc))
    unfold insertCell
    split
    · simp [byteAt, eq_comm]
    · by_cases hx : i = x
      · subst hx; simp [byteAt, hi]
      · simp [byteAt, hx, ih]

/-- The byte written reads back, and no other byte changes. -/
theorem byteAt_putByte (m : List Host.Cell) (a : Nat) (b : Byte) (x : Nat) :
    byteAt d (putByte d m a b) x = if x = a then b else byteAt d m x := by
  have hn : ∀ c ∈ m.filter (fun c => c.1 != a), c.1 ≠ a := fun c hc => by simpa using (List.mem_filter.mp hc).2
  unfold putByte
  by_cases hb : b = d a
  · simp only [hb, if_true]
    by_cases hx : x = a
    · subst hx; simp [byteAt_of_not_mem d hn]
    · simp [hx, byteAt_filter_other d hx]
  · simp only [hb, if_false]
    rw [byteAt_insertCell d b hn]
    by_cases hx : x = a
    · simp [hx]
    · simp [hx, byteAt_filter_other d hx]

/-! ### Runs of bytes -/

theorem putBytes_wf {m : List Host.Cell} (a : Nat) (bs : List Byte) (h : Memory.wf d m = true) : Memory.wf d (putBytes d m a bs) = true := by
  induction bs generalizing m a with
  | nil => exact h
  | cons b bs ih => exact ih (a + 1) (putByte_wf d a b h)

/-- Bytes outside a run written keep their values. -/
theorem byteAt_putBytes_other (m : List Host.Cell) (a : Nat) (bs : List Byte) {x : Nat} (h : x < a ∨ a + bs.length ≤ x) :
    byteAt d (putBytes d m a bs) x = byteAt d m x := by
  induction bs generalizing m a with
  | nil => rfl
  | cons b bs ih =>
    simp only [List.length_cons] at h
    rw [putBytes, ih _ _ (by omega), byteAt_putByte, if_neg (by omega)]

theorem byteAt_putBytes (m : List Host.Cell) (a : Nat) (bs : List Byte) (x : Nat) :
    byteAt d (putBytes d m a bs) x = if a ≤ x ∧ x < a + bs.length then bs.getD (x - a) 0 else byteAt d m x := by
  induction bs generalizing m a with
  | nil => simp [putBytes]
  | cons b bs ih =>
    rw [putBytes, ih, byteAt_putByte]
    by_cases h : x = a
    · subst h; simp
    · by_cases h1 : a + 1 ≤ x ∧ x < a + 1 + bs.length
      · have h2 : a ≤ x ∧ x < a + (b :: bs).length := by simp only [List.length_cons]; omega
        rw [if_pos h1, if_pos h2]
        obtain ⟨k, rfl⟩ : ∃ k, x = a + 1 + k := ⟨x - (a + 1), by omega⟩
        simp [show a + 1 + k - a = k + 1 by omega, show a + 1 + k - (a + 1) = k by omega]
      · have h2 : ¬ (a ≤ x ∧ x < a + (b :: bs).length) := by simp only [List.length_cons]; omega
        rw [if_neg h1, if_neg h2, if_neg h]

theorem bytesAt_congr {d' : Nat → Byte} {m m' : List Host.Cell} {a : Nat} (k : Nat)
    (h : ∀ x, a ≤ x → x < a + k → byteAt d m x = byteAt d' m' x) : bytesAt d m a k = bytesAt d' m' a k := by
  induction k generalizing a with
  | zero => rfl
  | succ k ih => rw [bytesAt, bytesAt, h a (le_refl _) (by omega), ih (fun x h1 h2 => h x (by omega) (by omega))]

@[simp] theorem bytesAt_length (m : List Host.Cell) (a k : Nat) : (bytesAt d m a k).length = k := by
  induction k generalizing a with
  | zero => rfl
  | succ k ih => simp [bytesAt, ih]

/-- A run written reads back. -/
theorem bytesAt_putBytes_same (m : List Host.Cell) (a : Nat) (bs : List Byte) : bytesAt d (putBytes d m a bs) a bs.length = bs := by
  induction bs generalizing m a with
  | nil => rfl
  | cons b bs ih =>
    rw [List.length_cons, bytesAt, putBytes, ih]
    congr 1
    rw [byteAt_putBytes_other _ _ _ _ (Or.inl (by omega)), byteAt_putByte, if_pos rfl]

theorem bytesAt_putBytes_other (m : List Host.Cell) (a : Nat) (bs : List Byte) {x k : Nat} (h : x + k ≤ a ∨ a + bs.length ≤ x) :
    bytesAt d (putBytes d m a bs) x k = bytesAt d m x k :=
  bytesAt_congr d k (fun y h1 h2 => byteAt_putBytes_other d m a bs (by omega))

/-- A loss of contents keeps the canonical form of what stays. -/
theorem lose_wf {ls : List Lost} {m : List Host.Cell} (l : Lost) (hp : l.par < 3) (h : Memory.wf (unwritten ls) m = true) :
    Memory.wf (unwritten (l :: ls)) (m.filter (fun c => !l.covers c.1)) = true := by
  unfold Memory.wf at *
  generalize 0 = lo at *
  induction m generalizing lo with
  | nil => rfl
  | cons c m ih =>
    obtain ⟨i, b⟩ := c
    simp only [memWfFrom, Bool.and_eq_true, decide_eq_true_eq] at h
    by_cases hc : l.covers i = true
    · rw [List.filter_cons_of_neg (by simp [hc])]
      exact memWfFrom_mono _ (ih _ h.2) (by omega)
    · rw [List.filter_cons_of_pos (by simp [hc])]
      simp only [memWfFrom, Bool.and_eq_true, decide_eq_true_eq]
      refine ⟨⟨h.1.1, ?_⟩, ih _ h.2⟩
      have : unwritten (l :: ls) i = unwritten ls i := by simp [unwritten, hc, Nat.not_le.mpr hp]
      rw [this]; exact h.1.2

/-! ### The three memories of the device -/

/-- Every memory of the device is in canonical form. -/
def MemoryWf (s : State) : Prop :=
  Memory.wf (unwritten s.sramLost) s.sram = true ∧ Memory.wf (unwritten s.dramLost) s.dram = true ∧
  Memory.wf (unwritten []) s.host = true

theorem reset_memoryWf : MemoryWf State.reset := ⟨rfl, rfl, rfl⟩

section Device
variable {s : State}

theorem MemoryWf.of_same {ps : List Part} {t : State} (h : MemoryWf s) (hs : Same ps s t)
    (h1 : Part.sram ∉ ps ∧ Part.dram ∉ ps ∧ Part.host ∉ ps ∧ Part.sramLost ∉ ps ∧ Part.dramLost ∉ ps := by decide) : MemoryWf t := by
  unfold MemoryWf
  rw [hs.sram h1.1, hs.dram h1.2.1, hs.host h1.2.2.1, hs.sramLost h1.2.2.2.1, hs.dramLost h1.2.2.2.2]
  exact h

theorem putSram_memoryWf (a : Nat) (bs : List Byte) (h : MemoryWf s) : MemoryWf (putSram s a bs) := ⟨putBytes_wf _ a bs h.1, h.2⟩
theorem putDram_memoryWf (a : Nat) (bs : List Byte) (h : MemoryWf s) : MemoryWf (putDram s a bs) := ⟨h.1, putBytes_wf _ a bs h.2.1, h.2.2⟩
theorem putHost_memoryWf (a : Nat) (bs : List Byte) (h : MemoryWf s) : MemoryWf (putHost s a bs) := ⟨h.1, h.2.1, putBytes_wf _ a bs h.2.2⟩
theorem loseSram_memoryWf (lo hi : Nat) (h : MemoryWf s) : MemoryWf (loseSram s lo hi) := ⟨lose_wf _ (by decide : 2 < 3) h.1, h.2⟩
theorem loseDram_memoryWf (lo hi par : Nat) (h : MemoryWf s) : MemoryWf (loseDram s lo hi par) :=
  ⟨h.1, lose_wf _ (show satN 2 par < 3 by unfold satN; split <;> omega) h.2.1, h.2.2⟩
theorem fillUnit_memoryWf (lo hi : Nat) (h : MemoryWf s) : MemoryWf (fillUnit s lo hi) :=
  ⟨h.1, lose_wf _ (by decide : 2 < 3) h.2.1, h.2.2⟩

/-- Bytes put one by one keep the canonical form. -/
theorem putEach_wf (d : Nat → Byte) (f : Host.Cell → Nat) (cs : List Host.Cell) {m : List Host.Cell} (h : Memory.wf d m = true) :
    Memory.wf d (cs.foldl (fun m c => putByte d m (f c) c.2) m) = true := by
  induction cs generalizing m with
  | nil => exact h
  | cons c cs ih => exact ih (putByte_wf d _ _ h)

theorem moveDram_memoryWf (m0 c0 m1 c1 : Nat) (h : MemoryWf s) : MemoryWf (moveDram s m0 c0 m1 c1) := by
  unfold moveDram
  split
  · exact h
  · exact ⟨h.1, putEach_wf _ _ _ rfl, h.2.2⟩

theorem sramBytes_putSram_same (a : Nat) (bs : List Byte) : sramBytes (putSram s a bs) a bs.length = bs := bytesAt_putBytes_same _ _ _ _
theorem sramBytes_putSram_other (a : Nat) (bs : List Byte) {x k : Nat} (h : x + k ≤ a ∨ a + bs.length ≤ x) :
    sramBytes (putSram s a bs) x k = sramBytes s x k := bytesAt_putBytes_other _ _ _ _ h
theorem hostBytes_putHost_same (a : Nat) (bs : List Byte) : hostBytes (putHost s a bs) a bs.length = bs := bytesAt_putBytes_same _ _ _ _
theorem hostBytes_putHost_other (a : Nat) (bs : List Byte) {x k : Nat} (h : x + k ≤ a ∨ a + bs.length ≤ x) :
    hostBytes (putHost s a bs) x k = hostBytes s x k := bytesAt_putBytes_other _ _ _ _ h
theorem dramBytes_putDram_same (a : Nat) (bs : List Byte) : dramBytes (putDram s a bs) a bs.length = bs := bytesAt_putBytes_same _ _ _ _
theorem dramBytes_putDram_other (a : Nat) (bs : List Byte) {x k : Nat} (h : x + k ≤ a ∨ a + bs.length ≤ x) :
    dramBytes (putDram s a bs) x k = dramBytes s x k := bytesAt_putBytes_other _ _ _ _ h

theorem sramBytes_congr {t : State} (h : t.sram = s.sram) (h' : t.sramLost = s.sramLost) (a k : Nat) : sramBytes t a k = sramBytes s a k := by
  rw [sramBytes, sramBytes, h, h']
theorem dramBytes_congr {t : State} (h : t.dram = s.dram) (h' : t.dramLost = s.dramLost) (a k : Nat) : dramBytes t a k = dramBytes s a k := by
  rw [dramBytes, dramBytes, h, h']
theorem hostBytes_congr {t : State} (h : t.host = s.host) (a k : Nat) : hostBytes t a k = hostBytes s a k := by
  rw [hostBytes, hostBytes, h]

@[simp] theorem sramBytes_length (a k : Nat) : (sramBytes s a k).length = k := bytesAt_length _ _ _ _
@[simp] theorem dramBytes_length (a k : Nat) : (dramBytes s a k).length = k := bytesAt_length _ _ _ _
@[simp] theorem hostBytes_length (a k : Nat) : (hostBytes s a k).length = k := bytesAt_length _ _ _ _

end Device

end Sys2Proof.Laws
end

