-- ==== Sys2Proof/Laws/Ops.lean ====
section
/-!
SUPPORT. What the shared operations of `Machine/Ops.lean` can do: counters, events, frames to the fabric, writes to host memory and
completions. Each says once, as `Same` and `RegsKept`, which parts of the state and which registers the operation can change.
-/

namespace Sys2Proof.Laws

open Sys2Proof.Machine

/-- Registers outside `p` keep their words. -/
def RegsKept (p : Nat → Bool) (s t : State) : Prop := ∀ a, p a = false → rd t a = rd s a

theorem RegsKept.refl (p : Nat → Bool) (s : State) : RegsKept p s s := fun _ _ => rfl
theorem RegsKept.trans {p : Nat → Bool} {s t u : State} (h1 : RegsKept p s t) (h2 : RegsKept p t u) : RegsKept p s u :=
  fun a h => (h2 a h).trans (h1 a h)
theorem RegsKept.mono {p q : Nat → Bool} {s t : State} (h : RegsKept p s t) (hq : ∀ a, p a = true → q a = true) : RegsKept q s t := by
  intro a ha
  apply h
  cases hp : p a
  · rfl
  · rw [hq a hp] at ha; cases ha
theorem RegsKept.of_regs {p : Nat → Bool} {s t : State} (h : t.regs = s.regs) : RegsKept p s t := fun a _ => rd_regs h a
theorem RegsKept.foldl {β : Type} {p : Nat → Bool} (f : State → β → State) (h : ∀ s x, RegsKept p s (f s x)) (l : List β) (s : State) :
    RegsKept p s (l.foldl f s) := foldl_rel _ (RegsKept.refl p) (fun _ _ _ => RegsKept.trans) f h l s
theorem RegsKept.wr {p : Nat → Bool} (s : State) {a : Nat} (w : Word) (h : p a = true) : RegsKept p s (Machine.wr s a w) := by
  intro b hb
  refine rd_wr_other _ ?_
  rintro rfl
  rw [h] at hb; cases hb

/-! ### Counters -/

theorem satInc_same (s : State) (a : Nat) : Same [.regs] s (satInc s a) := by
  unfold satInc; split
  · exact Same.refl _ _
  · exact wrN_same s _ _

theorem satIncF_same (s : State) (a hi lo : Nat) : Same [.regs] s (satIncF s a hi lo) := by
  unfold satIncF; simp only; split
  · exact Same.refl _ _
  · exact setFld_same s _ _ _ _

theorem bumpBy_same (s : State) (a k : Nat) : Same [.regs, .freeCtr] s (bumpBy s a k) := by
  unfold bumpBy; split
  · exact (wrN_same s _ _).mono (by decide)
  · exact ((wr_same s _ _).mono (by decide)).trans ((tick1_same _).mono (by decide))

theorem bump_same (s : State) (a : Nat) : Same [.regs, .freeCtr] s (bump s a) := bumpBy_same s a 1

theorem rd_satInc_other {s : State} {a b : Nat} (h : b ≠ a) : rd (satInc s a) b = rd s b := by
  unfold satInc; split
  · rfl
  · exact rd_wrN_other _ h

theorem rd_satIncF_other {s : State} {a b : Nat} (hi lo : Nat) (h : b ≠ a) : rd (satIncF s a hi lo) b = rd s b := by
  unfold satIncF; simp only; split
  · rfl
  · exact rd_setFld_other _ _ _ h

@[simp] theorem rd_tick1 (s : State) (a : Nat) : rd (tick1 s) a = rd s a := rfl

theorem rd_bumpBy_other {s : State} {a b : Nat} (k : Nat) (h : b ≠ a) : rd (bumpBy s a k) b = rd s b := by
  unfold bumpBy; split
  · exact rd_wrN_other _ h
  · exact rd_wr_other _ h

theorem rd_bump_other {s : State} {a b : Nat} (h : b ≠ a) : rd (bump s a) b = rd s b := rd_bumpBy_other 1 h

/-- A counter below its greatest value counts. -/
theorem rdN_bumpBy {s : State} {a k : Nat} (h : rdN s a + k < 2 ^ 32) : rdN (bumpBy s a k) a = rdN s a + k := by
  rw [bumpBy, if_pos h, rdN_wrN_same, Nat.mod_eq_of_lt h]

theorem rdN_satInc {s : State} {a : Nat} (h : rdN s a < 2 ^ 32 - 1) : rdN (satInc s a) a = rdN s a + 1 := by
  have h2 := rdN_lt (s := s) a
  rw [satInc, if_neg (by omega), rdN_wrN_same, Nat.mod_eq_of_lt (by omega)]

/-! ### Events -/

/-- An event changes the recorder's intake and its registers, and nothing else. -/
theorem event_same (s : State) (src code : Nat) (p : List Byte) : Same [.regs, .evr, .freeCtr] s (event s src code p) := by
  unfold event
  simp only
  have hb := (bump_same s EVR_SEQ).mono (qs := [.regs, .evr, .freeCtr]) (by decide)
  split
  · refine hb.trans ?_
    intro q hq
    cases q <;> first | rfl | exact absurd (by decide) hq
  · exact hb.trans ((bump_same _ EVR_LOST).mono (by decide))

/-- The registers of the recorder that an event writes. -/
def evrReg (a : Nat) : Bool := a == EVR_SEQ || a == EVR_STS || a == EVR_LOST

theorem event_regs (s : State) (src code : Nat) (p : List Byte) : RegsKept evrReg s (event s src code p) := by
  intro a ha
  simp only [evrReg, Bool.or_eq_false_iff, beq_eq_false_iff_ne] at ha
  unfold event
  simp only
  split
  · rw [rd_setFld_other _ _ _ ha.1.2]
    exact rd_bump_other ha.1.1
  · rw [rd_bump_other ha.2, rd_bump_other ha.1.1]

theorem laneEvent_same (s : State) (n code : Nat) (p : List Byte) : Same [.regs, .evr, .freeCtr] s (laneEvent s n code p) :=
  event_same _ _ _ _
theorem laneEvent_regs (s : State) (n code : Nat) (p : List Byte) : RegsKept evrReg s (laneEvent s n code p) := event_regs _ _ _ _

/-! ### Frames to the fabric -/

/-- The registers that sending a frame writes: the transmit counters of the four ports. -/
def txReg (a : Nat) : Bool := a == FAB_P_TX_FRAMES 0 || a == FAB_P_TX_FRAMES 1 || a == FAB_P_TX_FRAMES 2 || a == FAB_P_TX_FRAMES 3

theorem txReg_of_lt {p : Nat} (h : p < 4) : txReg (FAB_P_TX_FRAMES p) = true := by
  have : p = 0 ∨ p = 1 ∨ p = 2 ∨ p = 3 := by omega
  rcases this with rfl | rfl | rfl | rfl <;> rfl

theorem portInc_same (s : State) (p a : Nat) : Same [.regs] s (portInc s p a) := by
  unfold portInc; split
  · exact satInc_same _ _
  · exact Same.refl _ _

theorem updPort_same (s : State) (p : Nat) (f : FabPort → FabPort) : Same [.fab] s (updPort s p f) := by
  intro q hq; cases q <;> first | rfl | exact absurd (by decide) hq

@[simp] theorem rd_updPort (s : State) (p : Nat) (f : FabPort → FabPort) (a : Nat) : rd (updPort s p f) a = rd s a := rfl

theorem wireOut_same (s : State) (p : Nat) (n : Option Nat) (f : Frame) : Same [.regs, .fab] s (wireOut s p n f) := by
  unfold wireOut
  simp only
  refine Same.trans ?_ ((portInc_same _ _ _).mono (by decide))
  intro q hq; cases q <;> first | rfl | exact absurd (by decide) hq

theorem wireOut_regs (s : State) (p : Nat) (n : Option Nat) (f : Frame) : RegsKept txReg s (wireOut s p n f) := by
  intro a ha
  unfold wireOut
  simp only
  unfold portInc
  split
  · rename_i h
    rw [rd_satInc_other]
    · rfl
    · rintro rfl; rw [txReg_of_lt h] at ha; cases ha
  · rfl

theorem sendOn_same (s : State) (p : Nat) (f : Frame) : Same [.regs, .fab] s (sendOn s p f) := by
  unfold sendOn; simp only; split
  · exact (wireOut_same _ _ _ _).trans ((updPort_same _ _ _).mono (by decide))
  · exact wireOut_same _ _ _ _

theorem sendOn_regs (s : State) (p : Nat) (f : Frame) : RegsKept txReg s (sendOn s p f) := by
  unfold sendOn; simp only; split
  · exact (wireOut_regs _ _ _ _).trans (fun _ _ => rfl)
  · exact wireOut_regs _ _ _ _

theorem sendOne_same (st : State × List Frame × List (Nat × Nat)) (f : Frame) : Same [.regs, .fab] st.1 (sendOne st f).1 := by
  obtain ⟨s, kept, held⟩ := st
  unfold sendOne
  simp only
  split
  · exact Same.refl _ _
  · split
    · exact Same.refl _ _
    · split
      · exact Same.refl _ _
      · refine Same.trans ?_ (sendOn_same _ _ _)
        split
        · intro q hq; cases q <;> first | rfl | exact absurd (by decide) hq
        · exact Same.refl _ _

theorem sendOne_regs (st : State × List Frame × List (Nat × Nat)) (f : Frame) : RegsKept txReg st.1 (sendOne st f).1 := by
  obtain ⟨s, kept, held⟩ := st
  unfold sendOne
  simp only
  split
  · exact RegsKept.refl _ _
  · split
    · exact RegsKept.refl _ _
    · split
      · exact RegsKept.refl _ _
      · refine RegsKept.trans ?_ (sendOn_regs _ _ _)
        split
        · exact fun _ _ => rfl
        · exact RegsKept.refl _ _

/-- Sending what is queued changes the fabric's state and the transmit counters. -/
theorem pump_same (s : State) : Same [.regs, .fab] s (pump s) := by
  unfold pump
  simp only
  have h := foldl_rel (fun a b : State × List Frame × List (Nat × Nat) => Same [.regs, .fab] a.1 b.1) (fun _ => Same.refl _ _)
    (fun _ _ _ => Same.trans) sendOne sendOne_same (sortBy Frame.rank s.fab.out) (s, [], [])
  refine Same.trans h ?_
  intro q hq; cases q <;> first | rfl | exact absurd (by decide) hq

theorem pump_regs (s : State) : RegsKept txReg s (pump s) := by
  unfold pump
  simp only
  have h := foldl_rel (fun a b : State × List Frame × List (Nat × Nat) => RegsKept txReg a.1 b.1) (fun _ => RegsKept.refl _ _)
    (fun _ _ _ => RegsKept.trans) sendOne sendOne_regs (sortBy Frame.rank s.fab.out) (s, [], [])
  exact RegsKept.trans h (fun _ _ => rfl)

theorem queueFrame_same (s : State) (f : Frame) : Same [.regs, .fab] s (queueFrame s f) := by
  refine Same.trans ?_ (pump_same _)
  intro q hq; cases q <;> first | rfl | exact absurd (by decide) hq
theorem queueFrame_regs (s : State) (f : Frame) : RegsKept txReg s (queueFrame s f) := RegsKept.trans (fun _ _ => rfl) (pump_regs _)

theorem sendMsg_same (s : State) (d ty : Nat) (b : List Nat) : Same [.regs, .fab] s (sendMsg s d ty b) := queueFrame_same _ _
theorem sendMsg_regs (s : State) (d ty : Nat) (b : List Nat) : RegsKept txReg s (sendMsg s d ty b) := queueFrame_regs _ _
theorem sendGroup_same (s : State) (ty : Nat) (b : List Nat) : Same [.regs, .fab] s (sendGroup s ty b) :=
  Same.foldl _ (fun s d => sendMsg_same s d ty b) _ _
theorem sendGroup_regs (s : State) (ty : Nat) (b : List Nat) : RegsKept txReg s (sendGroup s ty b) :=
  RegsKept.foldl _ (fun s d => sendMsg_regs s d ty b) _ _

/-- The registers that taking a frame writes: the counters of the four ports. -/
def portReg (a : Nat) : Bool := txReg a || a == FAB_P_RX_FRAMES 0 || a == FAB_P_RX_FRAMES 1 || a == FAB_P_RX_FRAMES 2 || a == FAB_P_RX_FRAMES 3

theorem portReg_rx {p : Nat} (h : p < 4) : portReg (FAB_P_RX_FRAMES p) = true := by
  have : p = 0 ∨ p = 1 ∨ p = 2 ∨ p = 3 := by omega
  rcases this with rfl | rfl | rfl | rfl <;> rfl
theorem portReg_tx {a : Nat} (h : txReg a = true) : portReg a = true := by simp [portReg, h]

theorem acceptOn_same (s : State) (p : Nat) (f : Frame) : Same [.regs, .fab] s (acceptOn s p f) :=
  ((portInc_same s p _).mono (by decide)).trans ((updPort_same _ _ _).mono (by decide))
theorem acceptOn_regs (s : State) (p : Nat) (f : Frame) : RegsKept portReg s (acceptOn s p f) := by
  intro a ha
  rw [acceptOn, rd_updPort, portInc]
  split
  · rename_i h
    exact rd_satInc_other (by rintro rfl; rw [portReg_rx h] at ha; cases ha)
  · rfl

/-- A message delivered changes the fabric's state and the counters of its ports. -/
theorem frameIn_same (s : State) (v src ty : Nat) (b : List Nat) : Same [.regs, .fab] s (frameIn s v src ty b) := by
  unfold frameIn; simp only; split
  · refine (acceptOn_same s v ⟨classOf ty, ty, ownAddr s, src, 0, none, b⟩).trans (Same.trans ?_ (queueFrame_same _ _))
    intro q hq; cases q <;> first | rfl | exact absurd (by decide) hq
  · exact acceptOn_same _ _ _
theorem frameIn_regs (s : State) (v src ty : Nat) (b : List Nat) : RegsKept portReg s (frameIn s v src ty b) := by
  unfold frameIn; simp only; split
  · refine (acceptOn_regs s v ⟨classOf ty, ty, ownAddr s, src, 0, none, b⟩).trans ?_
    exact RegsKept.trans (fun _ _ => rfl) ((queueFrame_regs _ _).mono (fun _ h => portReg_tx h))
  · exact acceptOn_regs _ _ _

/-! ### Host memory and completions -/

/-- The registers of the rings that completions and fetches write. -/
def ringReg (a : Nat) : Bool := (List.range 16).any (fun n => a == HIF_SQ_STS n || a == HIF_CQ_TAIL n)

theorem ringReg_sts {n : Nat} (h : n < 16) : ringReg (HIF_SQ_STS n) = true :=
  List.any_eq_true.mpr ⟨n, List.mem_range.mpr h, by simp⟩
theorem ringReg_tail {n : Nat} (h : n < 16) : ringReg (HIF_CQ_TAIL n) = true :=
  List.any_eq_true.mpr ⟨n, List.mem_range.mpr h, by simp⟩

theorem lessOutstanding_same (s : State) (n : Nat) : Same [.regs] s (lessOutstanding s n) := by
  unfold lessOutstanding; split
  · exact setFld_same _ _ _ _ _
  · exact Same.refl _ _
theorem lessOutstanding_regs (s : State) (n : Nat) : RegsKept ringReg s (lessOutstanding s n) := by
  unfold lessOutstanding; split
  · exact RegsKept.wr _ _ (ringReg_sts (by assumption))
  · exact RegsKept.refl _ _
theorem moreOutstanding_same (s : State) (n : Nat) : Same [.regs] s (moreOutstanding s n) := by
  unfold moreOutstanding; split
  · exact setFld_same _ _ _ _ _
  · exact Same.refl _ _
theorem moreOutstanding_regs (s : State) (n : Nat) : RegsKept ringReg s (moreOutstanding s n) := by
  unfold moreOutstanding; split
  · exact RegsKept.wr _ _ (ringReg_sts (by assumption))
  · exact RegsKept.refl _ _

/-- A completion written changes host memory or the service port's bulk IN, and the registers of its ring. -/
theorem cqWrite_same (s : State) (c : Completion) : Same [.regs, .host, .svc] s (cqWrite s c) := by
  unfold cqWrite
  simp only
  have h1 := (lessOutstanding_same s c.ring).mono (qs := [.regs, .host, .svc]) (by decide)
  refine h1.trans ?_
  generalize lessOutstanding s c.ring = t
  have h2 : ∀ u : State, Same [.regs, .host, .svc] t u → Same [.regs, .host, .svc] t
      (if 16 ≤ c.ring then u
       else if fld t (HIF_CQ_TAIL c.ring) 11 0 + 1 = cqSize u c.ring then
         setFld (setFld u (HIF_CQ_TAIL c.ring) 11 0 0) (HIF_CQ_TAIL c.ring) 12 12 (1 - fld t (HIF_CQ_TAIL c.ring) 12 12)
       else setFld u (HIF_CQ_TAIL c.ring) 11 0 (fld t (HIF_CQ_TAIL c.ring) 11 0 + 1)) := by
    intro u hu
    split
    · exact hu
    · split
      · exact (hu.trans ((setFld_same _ _ _ _ _).mono (by decide))).trans ((setFld_same _ _ _ _ _).mono (by decide))
      · exact hu.trans ((setFld_same _ _ _ _ _).mono (by decide))
  apply h2
  split
  · intro q hq; cases q <;> first | rfl | exact absurd (by decide) hq
  · exact (putHost_same _ _ _).mono (by decide)

theorem cqWrite_regs (s : State) (c : Completion) : RegsKept ringReg s (cqWrite s c) := by
  unfold cqWrite
  simp only
  refine (lessOutstanding_regs s c.ring).trans ?_
  generalize lessOutstanding s c.ring = t
  have h2 : ∀ u : State, t.regs = u.regs → RegsKept ringReg t
      (if 16 ≤ c.ring then u
       else if fld t (HIF_CQ_TAIL c.ring) 11 0 + 1 = cqSize u c.ring then
         setFld (setFld u (HIF_CQ_TAIL c.ring) 11 0 0) (HIF_CQ_TAIL c.ring) 12 12 (1 - fld t (HIF_CQ_TAIL c.ring) 12 12)
       else setFld u (HIF_CQ_TAIL c.ring) 11 0 (fld t (HIF_CQ_TAIL c.ring) 11 0 + 1)) := by
    intro u hu
    have h0 : RegsKept ringReg t u := RegsKept.of_regs hu.symm
    split
    · exact h0
    · have hr : ringReg (HIF_CQ_TAIL c.ring) = true := ringReg_tail (by omega)
      split
      · exact (h0.trans (RegsKept.wr _ _ hr)).trans (RegsKept.wr _ _ hr)
      · exact h0.trans (RegsKept.wr _ _ hr)
  apply h2
  split <;> rfl

theorem doHostOp_same (s : State) (o : HostOp) : Same [.regs, .host, .svc] s (doHostOp s o) := by
  cases o with
  | write a bs => exact (putHost_same _ _ _).mono (by decide)
  | complete c => exact cqWrite_same _ _
theorem doHostOp_regs (s : State) (o : HostOp) : RegsKept ringReg s (doHostOp s o) := by
  cases o with
  | write a bs => exact fun _ _ => rfl
  | complete c => exact cqWrite_regs _ _

/-- A write to the host changes host memory, the writes held back, bulk IN and the rings' registers. -/
theorem hostOp_same (s : State) (o : HostOp) : Same [.regs, .host, .svc, .hif] s (hostOp s o) := by
  have h := (doHostOp_same s o).mono (qs := [.regs, .host, .svc, .hif]) (by decide)
  have h' : Same [.regs, .host, .svc, .hif] s { s with hif := { s.hif with held := s.hif.held ++ [o] } } := by
    intro q hq; cases q <;> first | rfl | exact absurd (by decide) hq
  unfold hostOp
  cases o <;> (simp only; split <;> assumption)
theorem hostOp_regs (s : State) (o : HostOp) : RegsKept ringReg s (hostOp s o) := by
  have h := doHostOp_regs s o
  have h' : RegsKept ringReg s { s with hif := { s.hif with held := s.hif.held ++ [o] } } := fun _ _ => rfl
  unfold hostOp
  cases o <;> (simp only; split <;> assumption)

theorem hostResult_same (s : State) (a : Nat) (bs : List Byte) : Same [.regs, .host, .svc, .hif, .sram] s (hostResult s a bs) := by
  unfold hostResult; split
  · exact (putSram_same _ _ _).mono (by decide)
  · exact (hostOp_same _ _).mono (by decide)
theorem hostResult_regs (s : State) (a : Nat) (bs : List Byte) : RegsKept ringReg s (hostResult s a bs) := by
  unfold hostResult; split
  · exact fun _ _ => rfl
  · exact hostOp_regs _ _

/-- The registers that the end of a command writes. -/
def endReg (a : Nat) : Bool := ringReg a || txReg a

theorem endReg_ring {a : Nat} (h : ringReg a = true) : endReg a = true := by simp [endReg, h]
theorem endReg_tx {a : Nat} (h : txReg a = true) : endReg a = true := by simp [endReg, h]

/-- Parts of the state that the end of a command changes: the host's memory and queues, bulk IN and the fabric. -/
abbrev endParts : List Part := [.regs, .host, .svc, .hif, .fab]

theorem completeAs_same (s : State) (f : Issuer) (d : Bool) (op : Nat) (st : Status) (r0 r1 r2 ex : Nat) :
    Same endParts s (completeAs s f d op st r0 r1 r2 ex) := by
  unfold completeAs
  split
  · simp only
    refine Same.trans ?_ ((sendMsg_same _ _ _ _).mono (by decide))
    split <;> (intro q hq; cases q <;> first | rfl | exact absurd (by decide) hq)
  · split
    · exact Same.refl _ _
    · exact (hostOp_same _ _).mono (by decide)
theorem completeAs_regs (s : State) (f : Issuer) (d : Bool) (op : Nat) (st : Status) (r0 r1 r2 ex : Nat) :
    RegsKept endReg s (completeAs s f d op st r0 r1 r2 ex) := by
  unfold completeAs
  split
  · simp only
    refine RegsKept.trans ?_ ((sendMsg_regs _ _ _ _).mono (fun _ => endReg_tx))
    split <;> exact fun _ _ => rfl
  · split
    · exact RegsKept.refl _ _
    · exact (hostOp_regs _ _).mono (fun _ => endReg_ring)

theorem complete_same (s : State) (h : Issue) (op : Nat) (st : Status) (r0 r1 r2 ex : Nat) :
    Same endParts s (complete s h op st r0 r1 r2 ex) :=
  ((unvoid_same s h).mono (by decide)).trans (completeAs_same _ _ _ _ _ _ _ _ _)
theorem complete_regs (s : State) (h : Issue) (op : Nat) (st : Status) (r0 r1 r2 ex : Nat) :
    RegsKept endReg s (complete s h op st r0 r1 r2 ex) :=
  RegsKept.trans (fun _ _ => rfl) (completeAs_regs _ _ _ _ _ _ _ _ _)

theorem fail_same (s : State) (h : Issue) (op : Nat) (st : Status) : Same endParts s (fail s h op st) := complete_same _ _ _ _ _ _ _ _
theorem fail_regs (s : State) (h : Issue) (op : Nat) (st : Status) : RegsKept endReg s (fail s h op st) := complete_regs _ _ _ _ _ _ _ _

/-- A running command that ends leaves the running list and completes; nothing else changes. -/
theorem finishRun_same (s : State) (op key : Nat) (st : Status) (r0 r1 r2 ex : Nat) :
    Same (.running :: endParts) s (finishRun s op key st r0 r1 r2 ex) := by
  unfold finishRun
  split
  · exact Same.refl _ _
  · refine Same.trans ?_ ((completeAs_same _ _ _ _ _ _ _ _ _).mono (by decide))
    intro q hq; cases q <;> first | rfl | exact absurd (by decide) hq
theorem finishRun_regs (s : State) (op key : Nat) (st : Status) (r0 r1 r2 ex : Nat) :
    RegsKept endReg s (finishRun s op key st r0 r1 r2 ex) := by
  unfold finishRun
  split
  · exact RegsKept.refl _ _
  · exact RegsKept.trans (fun _ _ => rfl) (completeAs_regs _ _ _ _ _ _ _ _ _)

/-- With no such command running nothing happens. -/
theorem finishRun_none {s : State} {op key : Nat} (h : takeFirst (fun r : Running => r.op == op && r.key == key) s.running = none)
    (st : Status) (r0 r1 r2 ex : Nat) : finishRun s op key st r0 r1 r2 ex = s := by
  rw [finishRun, h]

theorem finishAll_same (s : State) (op key : Nat) (st : Status) (r0 r1 r2 ex : Nat) :
    Same (.running :: endParts) s (finishAll s op key st r0 r1 r2 ex) := by
  unfold finishAll
  simp only
  refine Same.trans ?_ (Same.foldl _ (fun s r => (completeAs_same s _ _ _ _ _ _ _ _).mono (by decide)) _ _)
  intro q hq; cases q <;> first | rfl | exact absurd (by decide) hq
theorem finishAll_regs (s : State) (op key : Nat) (st : Status) (r0 r1 r2 ex : Nat) :
    RegsKept endReg s (finishAll s op key st r0 r1 r2 ex) := by
  unfold finishAll
  simp only
  exact RegsKept.trans (fun _ _ => rfl) (RegsKept.foldl _ (fun s r => completeAs_regs s _ _ _ _ _ _ _ _) _ _)

/-! ### The start of a command -/

/-- What taking a packet up changes: the host's queues or the fabric's. -/
theorem accept_same (s : State) (h : Issue) : Same [.hif, .fab] s (accept s h) := by
  unfold accept
  split
  · intro q hq; cases q <;> first | rfl | exact absurd (by decide) hq
  · split
    · intro q hq; cases q <;> first | rfl | exact absurd (by decide) hq
    · exact Same.refl _ _
@[simp] theorem accept_regs (s : State) (h : Issue) : (accept s h).regs = s.regs := accept_same s h .regs (by decide)

/-- The packet says nothing else, so nothing starts. -/
theorem hostCmd_other {s : State} {h : Issue} {c : Instr} {op layout : Nat} {checks : State → List (Bool × Status)}
    {body : State → State} (hp : packetSays s h op c = false) : hostCmd s h c op layout checks body = s := by
  simp [hostCmd, hp]

/-- A packet that starts, passes the common orders and the checks of its opcode runs its body on the state that took it up. -/
theorem hostCmd_body {s : State} {h : Issue} {c : Instr} {op layout : Nat} {checks : State → List (Bool × Status)}
    {body : State → State} (hp : packetSays s h op c = true) (hf : fenceHolds s h = false) (hh : headerOk h = true)
    (hr : blockFails h = false) (hl : forwards s h = false) (hn : layout ≤ if Issue.paramPtr h then h.ptrLen else 48)
    (hz : h.prsvd = 0) (hc : ∀ c ∈ checks (accept s h), c.1 = true) :
    hostCmd s h c op layout checks body = body (accept s h) := by
  have h2 : (checks (accept s h)).find? (fun c => !c.1) = none := by
    rw [List.find?_eq_none]
    intro c hm
    simp [hc c hm]
  have h3 : ¬ (if Issue.paramPtr h = true then h.ptrLen else 48) < layout := Nat.not_lt.mpr hn
  simp only [hostCmd, hp, hf, hh, hr, hl, hz, h2]
  simp [h3]

/-- A packet whose first failed check has a status ends with it. -/
theorem hostCmd_fails {s : State} {h : Issue} {c : Instr} {op layout : Nat} {checks : State → List (Bool × Status)}
    {body : State → State} (hp : packetSays s h op c = true) (hf : fenceHolds s h = false) (hh : headerOk h = true)
    (hr : blockFails h = false) (hl : forwards s h = false) (hn : layout ≤ if Issue.paramPtr h then h.ptrLen else 48)
    (hz : h.prsvd = 0) {k : Bool × Status} (hc : (checks (accept s h)).find? (fun c => !c.1) = some k) :
    hostCmd s h c op layout checks body = fail (if k.2 == .noGrant then dieRefuse (accept s h) else accept s h) h op k.2 := by
  have h3 : ¬ (if Issue.paramPtr h = true then h.ptrLen else 48) < layout := Nat.not_lt.mpr hn
  simp only [hostCmd, hp, hf, hh, hr, hl, hz, hc]
  simp [h3]

end Sys2Proof.Laws
end

