-- ==== Sys2Proof/Laws/Lanes.lean ====
section
/-!
SUPPORT. What the shared operations on lanes, axes and faults (`Machine/LaneOps.lean`, `Machine/FaultOps.lean`) can change.
-/

namespace Sys2Proof.Laws

open Sys2Proof.Machine

/-! ### Phase, GATE and EMIT -/

theorem setPhase_same (s : State) (n : Nat) (p : Phase) : Same [.regs, .lanes] s (setPhase s n p) :=
  ((updLane_same s n _).mono (by decide)).trans ((setFld_same _ _ _ _ _).mono (by decide))

theorem setGate_same (s : State) (n : Nat) (b : Bool) (t : Nat) : Same [.regs, .lanes] s (setGate s n b t) := by
  unfold setGate; split
  · exact Same.refl _ _
  · exact ((updLane_same s n _).mono (by decide)).trans ((setFlag_same _ _ _ _).mono (by decide))

/-- A bit of a register that is cleared or left. -/
theorem flagIf_same {ps : List Part} {s u : State} (h : Same ps s u) (hp : Part.regs ∈ ps) {c : Prop} [Decidable c] {a i : Nat}
    {b : Bool} : Same ps s (if c then setFlag u a i b else u) := by
  split
  · exact h.trans ((setFlag_same _ _ _ _).mono (by simpa using hp))
  · exact h

theorem gateLow_same (s : State) (n : Nat) : Same [.regs, .lanes] s (gateLow s n) := by
  unfold gateLow
  exact flagIf_same (((updLane_same s n _).mono (by decide)).trans (setGate_same _ _ _ _)) (by decide)

theorem darken_same (s : State) (n : Nat) : Same [.regs, .lanes] s (darken s n) :=
  (gateLow_same s n).trans ((setFlag_same _ _ _ _).mono (by decide))

theorem emitRise_same (s : State) (n : Nat) : Same [.regs, .lanes] s (emitRise s n) := by
  unfold emitRise; split
  · exact Same.refl _ _
  · exact ((updLane_same s n _).mono (by decide)).trans ((setFlag_same _ _ _ _).mono (by decide))

theorem count_same (s : State) (n o k : Nat) : Same [.lanes] s (count s n o k) := by unfold count; exact updLane_same s n _
theorem tally_same (s : State) (n o k : Nat) : Same [.lanes] s (tally s n o k) := by
  unfold tally; split
  · exact count_same _ _ _ _
  · exact Same.refl _ _
theorem record_same (s : State) (n o v : Nat) : Same [.lanes] s (record s n o v) := updLane_same s n _

theorem setGate_rd {s : State} {n a : Nat} (b : Bool) (t : Nat) (h : a ≠ LAS_STS n) : rd (setGate s n b t) a = rd s a := by
  unfold setGate; split
  · rfl
  · rw [rd_setFlag_other _ _ h]; rfl
theorem gateLow_rd {s : State} {n a : Nat} (h : a ≠ LAS_STS n) : rd (gateLow s n) a = rd s a := by
  unfold gateLow
  simp only
  split
  · rw [rd_setFlag_other _ _ h, setGate_rd _ _ h]; rfl
  · rw [setGate_rd _ _ h]; rfl
theorem darken_rd {s : State} {n a : Nat} (h : a ≠ LAS_STS n) : rd (darken s n) a = rd s a := by
  rw [darken, rd_setFlag_other _ _ h, gateLow_rd h]

theorem gateOf_setGate (s : State) (n : Nat) (b : Bool) (t : Nat) : gateOf (setGate s n b t) n = b := by
  unfold setGate; split
  · rename_i h; exact eq_of_beq h
  · exact flag_setFlag_same _ _ _ (by decide)

/-- EMIT is another bit than GATE. -/
theorem gateOf_setEmit (s : State) (n : Nat) (b : Bool) : gateOf (setFlag s (LAS_STS n) 5 b) n = gateOf s n := by
  unfold gateOf flag setFlag
  rw [fld_setFld_apart _ _ _ _ _ _ (by decide) (by decide) (by decide)]

theorem gateLow_dark (s : State) (n : Nat) : gateOf (gateLow s n) n = false := by
  unfold gateLow
  simp only
  split
  · rw [gateOf_setEmit, gateOf_setGate]
  · rw [gateOf_setGate]

/-- After `darken` GATE and EMIT of the lane are low. -/
theorem darken_dark (s : State) (n : Nat) : gateOf (darken s n) n = false ∧ emitOf (darken s n) n = false :=
  ⟨by rw [darken, gateOf_setEmit, gateLow_dark], flag_setFlag_same _ _ _ (by decide)⟩

/-! ### Ledger -/

theorem ledgerShow_same (s : State) : Same [.regs] s (ledgerShow s) := by
  unfold ledgerShow; simp only
  have h := ((wrN_same s LEDG_GRANTED (ledgerG s)).trans (setFld_same _ LEDG_STS 31 16 s.ledger.waiting.length)).trans
    (setFlag_same _ LEDG_STS 1 (decide (rdN (setFld (wrN s LEDG_GRANTED (ledgerG s)) LEDG_STS 31 16 s.ledger.waiting.length) LEDG_BUDGET < ledgerG s)))
  split
  · exact h.trans (wrN_same _ _ _)
  · exact h

theorem grantShow_same (s : State) (n : Nat) : Same [.regs] s (grantShow s n) :=
  ((wrN_same s _ _).trans (setFlag_same _ _ _ _)).trans (setFlag_same _ _ _ _)

theorem releaseAll_same (s : State) (n : Nat) : Same [.regs, .ledger] s (releaseAll s n) := by
  refine Same.trans ?_ ((grantShow_same _ _).mono (by decide))
  refine Same.trans ?_ ((ledgerShow_same _).mono (by decide))
  intro q hq; cases q <;> first | rfl | exact absurd (by decide) hq

theorem ledgerClear_same (s : State) : Same [.regs, .ledger] s (ledgerClear s) := by
  refine Same.trans ?_ (Same.foldl _ (fun s n => ?_) _ _)
  · refine Same.trans ?_ ((ledgerShow_same _).mono (by decide))
    intro q hq; cases q <;> first | rfl | exact absurd (by decide) hq
  · split
    · exact Same.refl _ _
    · exact (grantShow_same _ _).mono (by decide)

theorem moveSlot_same (s : State) (n a b : Nat) : Same [.regs, .ledger] s (moveSlot s n a b) := by
  refine Same.trans ?_ ((grantShow_same _ _).mono (by decide))
  intro q hq; cases q <;> first | rfl | exact absurd (by decide) hq

theorem releaseSlot_same (s : State) (n a : Nat) : Same [.regs, .ledger] s (releaseSlot s n a) := by
  refine Same.trans ?_ ((ledgerShow_same _).mono (by decide))
  refine Same.trans ?_ (moveSlot_same _ _ _ _)
  intro q hq; cases q <;> first | rfl | exact absurd (by decide) hq

theorem requestGrant_same (s : State) (n a : Nat) (r : VRec) : Same [.regs, .ledger] s (requestGrant s n a r) := by
  unfold requestGrant; simp only; split
  · intro q hq; cases q <;> first | rfl | exact absurd (by decide) hq
  · refine Same.trans ?_ ((grantShow_same _ _).mono (by decide))
    refine Same.trans ?_ ((ledgerShow_same _).mono (by decide))
    intro q hq; cases q <;> first | rfl | exact absurd (by decide) hq

/-! ### Pools -/

theorem poolShow_same (s : State) : Same [.regs] s (poolShow s) := by
  refine Same.trans (setFld_same s OVL_STS 31 16 s.ovl.pool.length) (Same.foldl _ (fun t z => ?_) _ _)
  simp only
  split
  · exact Same.refl _ _
  · exact (setFld_same _ _ _ _ _).trans (setFld_same _ _ _ _ _)

theorem returnWork_same (s : State) (n : Nat) (w : Work) (d : Option Int) : Same [.regs, .fab, .ovl] s (returnWork s n w d) := by
  unfold returnWork; split
  · exact (sendMsg_same _ _ _ _).mono (by decide)
  · split
    · refine ((satInc_same s OVL_RETURNS).mono (by decide)).trans ?_
      intro q hq; cases q <;> first | rfl | exact absurd (by decide) hq
    · exact Same.refl _ _

theorem returnClaims_same (s : State) (n : Nat) : Same [.regs, .fab, .ovl, .lanes] s (returnClaims s n) := by
  have hf (d : Work → Option Int) (ws : List Work) (t : State) :
      Same [.regs, .fab, .ovl, .lanes] t (ws.foldl (fun t w => returnWork t n w (d w)) t) :=
    Same.foldl _ (fun t w => (returnWork_same t n w (d w)).mono (by decide)) ws t
  unfold returnClaims
  exact (((updLane_same s n _).mono (by decide)).trans (hf _ _ _)).trans (hf _ _ _)

/-! ### Motion, split and halt -/

theorem stopMotion_same (s : State) (n : Nat) : Same [.lanes] s (stopMotion s n) := by
  unfold stopMotion; simp only
  split
  · exact updLane_same _ _ _
  · split <;> exact updLane_same _ _ _

theorem holdSent_same (s : State) (n : Nat) : Same [.lanes] s (holdSent s n) := by
  unfold holdSent; exact updLane_same s n _
theorem rawStop_same (s : State) (n : Nat) : Same [.lanes] s (rawStop s n) := by
  unfold rawStop; exact updLane_same s n _

theorem restFor_same (s : State) (n code : Nat) : Same [.lanes] s (restFor s n code) := by
  unfold restFor; split
  · exact (record_same _ _ _ _).trans (holdSent_same _ _)
  · exact (stopMotion_same _ _).trans (rawStop_same _ _)

theorem splitMark_same (s : State) (n : Nat) : Same [.regs, .lanes] s (splitMark s n) := by
  unfold splitMark; simp only; split
  · exact gateLow_same _ _
  · refine Same.trans ?_ (gateLow_same _ _)
    refine Same.trans ?_ ((updLane_same _ _ _).mono (by decide))
    exact (((wrN_same s _ _).trans (wrI_same _ _ _)).trans (wrI_same _ _ _)).mono (by decide)

theorem endJog_same (s : State) (n : Nat) (st : Status) (ex : Nat) : Same (.lanes :: .running :: endParts) s (endJog s n st ex) :=
  (((updLane_same s n _).mono (by decide)).trans ((setFlag_same _ _ _ _).mono (by decide))).trans
    ((finishRun_same _ _ _ _ _ _ _ _).mono (by decide))

/-- Parts of the state that a halt of a lane changes. -/
abbrev haltParts : List Part := .lanes :: .ledger :: .ovl :: .running :: endParts

theorem haltLane_same (s : State) (n code : Nat) : Same haltParts s (haltLane s n code) := by
  have hj (b : Bool) (u : State) : Same haltParts u (if b = true then endJog u n .faultActive 0 else u) := by
    split
    · exact (endJog_same _ _ _ _).mono (by decide)
    · exact Same.refl _ _
  have hr (u : State) : Same haltParts u (restFor u n code) := (restFor_same _ _ _).mono (by decide)
  unfold haltLane
  simp only
  split
  · refine Same.trans ((darken_same s n).mono (by decide)) ?_
    split
    · exact (hr _).trans ((endJog_same _ _ _ _).mono (by decide))
    · split
      · exact hr _
      · exact Same.refl _ _
  · have h0 : Same haltParts s (record (record s n 116 code) n 120 (laneVid s n)) :=
      ((record_same _ _ _ _).mono (by decide)).trans ((record_same _ _ _ _).mono (by decide))
    refine h0.trans ?_
    generalize record (record s n 116 code) n 120 (laneVid s n) = t0
    have h1 : Same haltParts t0 (if ((lane s n).phase == Phase.marking) = true then splitMark t0 n else t0) := by
      split
      · exact (splitMark_same _ _).mono (by decide)
      · exact Same.refl _ _
    refine h1.trans ?_
    refine Same.trans ?_ ((setPhase_same _ _ _).mono (by decide))
    refine Same.trans ?_ ((poolShow_same _).mono (by decide))
    refine Same.trans ?_ (hj _ _)
    refine Same.trans ?_ (hr _)
    refine Same.trans ?_ ((releaseAll_same _ _).mono (by decide))
    refine Same.trans ?_ ((darken_same _ _).mono (by decide))
    refine Same.trans ?_ ((returnClaims_same _ _).mono (by decide))
    exact (updLane_same _ _ _).mono (by decide)

/-! ### Axes -/

theorem setAxis_same (s : State) (k : Nat) (a : Axis) : Same [.axes] s (setAxis s k a) := by
  intro q hq; cases q <;> first | rfl | exact absurd (by decide) hq
theorem updAxis_same (s : State) (k : Nat) (f : Axis → Axis) : Same [.axes] s (updAxis s k f) := setAxis_same _ _ _
@[simp] theorem rd_setAxis (s : State) (k : Nat) (a : Axis) (b : Nat) : rd (setAxis s k a) b = rd s b := rfl
@[simp] theorem rd_updAxis (s : State) (k : Nat) (f : Axis → Axis) (b : Nat) : rd (updAxis s k f) b = rd s b := rfl
@[simp] theorem axis_updAxis_same (s : State) (k : Nat) (f : Axis → Axis) : axis (updAxis s k f) k = f (axis s k) := by
  simp [axis, updAxis, setAxis]
theorem axis_updAxis_other {s : State} {k j : Nat} (f : Axis → Axis) (h : j ≠ k) : axis (updAxis s k f) j = axis s j := by
  simp [axis, updAxis, setAxis, mget_mset_other _ _ _ _ _ h]
theorem axis_congr {s t : State} (h : t.axes = s.axes) (k : Nat) : axis t k = axis s k := by rw [axis, axis, h]

theorem armedShow_same (s : State) : Same [.regs] s (armedShow s) := setFld_same _ _ _ _ _
theorem setAxState_same (s : State) (k v : Nat) : Same [.regs] s (setAxState s k v) := (setFld_same s _ _ _ _).trans (armedShow_same _)
theorem setAxState_rd {s : State} {k a : Nat} (v : Nat) (h1 : a ≠ AX_STS k) (h2 : a ≠ AX_GROUP_STS) : rd (setAxState s k v) a = rd s a := by
  rw [setAxState, armedShow, rd_setFld_other _ _ _ h2, rd_setFld_other _ _ _ h1]

theorem finishMove_same (s : State) (k : Nat) (st : Status) (e c : Nat) : Same (.running :: endParts) s (finishMove s k st e c) :=
  finishRun_same _ _ _ _ _ _ _ _
theorem finishMove_regs (s : State) (k : Nat) (st : Status) (e c : Nat) : RegsKept endReg s (finishMove s k st e c) :=
  finishRun_regs _ _ _ _ _ _ _ _
theorem finishStops_same (s : State) : Same (.running :: endParts) s (finishStops s) := by
  refine Same.foldl _ (fun t r => ?_) _ _
  split
  · exact finishRun_same _ _ _ _ _ _ _ _
  · exact Same.refl _ _
theorem finishStops_regs (s : State) : RegsKept endReg s (finishStops s) := by
  refine RegsKept.foldl _ (fun t r => ?_) _ _
  split
  · exact finishRun_regs _ _ _ _ _ _ _ _
  · exact RegsKept.refl _ _

end Sys2Proof.Laws
end

