-- ==== Sys2Proof/Laws/Faults.lean ====
section
/-!
SUPPORT. Axes that halt, the safe state, and taking a fault: what they can change, and what holds after them.
-/

namespace Sys2Proof.Laws

open Sys2Proof.Machine

/-! ### Axes -/

/-- The registers of axis `k` that its halt writes. -/
def axReg (k a : Nat) : Bool := a == AX_STS k || a == AX_POS k || a == AX_REMAIN k || a == AX_VEL k || a == AX_GROUP_STS

theorem axReg_iff {k a : Nat} : axReg k a = false ↔ a ≠ AX_STS k ∧ a ≠ AX_POS k ∧ a ≠ AX_REMAIN k ∧ a ≠ AX_VEL k ∧ a ≠ AX_GROUP_STS := by
  simp [axReg, Bool.or_eq_false_iff, and_assoc]

/-- Parts of the state that a halt of an axis changes. -/
abbrev axParts : List Part := .axes :: .running :: endParts

/-- The state of axis `k` just before its commands complete in `axisHalt`. -/
def axisHalted (s : State) (k code : Nat) : State :=
  let moving := axMovingNow s k
  let a := axis s k
  let homing := axState s k == axHoming
  let s := if homing then setFlag s (AX_STS k) 23 false else s
  let target := match a.stopping with
                | some t => t
                | none => rdI s (AX_TARGET k)
  let s :=
    if k < 2 then
      let s := if hasEncoder s k then wrI s (AX_POS k) (rdI s (AX_ENC_POS k)) else setFlag s (AX_STS k) 23 false
      if moving && !homing then
        setFlag (wrI s (AX_REMAIN k) (target - rdI s (AX_POS k))) (AX_STS k) 21 true
      else s
    else if moving then wrN (setFlag s (AX_STS k) 23 false) (AX_REMAIN k) 0
    else s
  let s := updAxis s k (fun a => { a with plan := none, armed := none, retarget := none, stopReq := false
                                          stopping := none, homing := 0, setPos := none, safeOnly := code == 6 })
  let s := wrN s (AX_VEL k) 0
  setAxState (setFld s (AX_STS k) 27 24 code) k axFault

theorem axisHalt_eq (s : State) (k code : Nat) : axisHalt s k code =
    finishStops (finishRun (finishRun (finishMove (axisHalted s k code) k .faultActive 2 code) 0x0703 k .faultActive
      (rdN (finishMove (axisHalted s k code) k .faultActive 2 code) (AX_CAPTURE k))
      (rdN (finishMove (axisHalted s k code) k .faultActive 2 code) (AX_CAPTURE_ENC k)) 0 0) 0x0707 k .wrongState 0 0 0 0) := rfl

theorem axisHalted_same (s : State) (k code : Nat) : Same [.regs, .axes] s (axisHalted s k code) := by
  unfold axisHalted
  simp only
  refine Same.trans ?_ ((setAxState_same _ _ _).mono (by decide))
  refine Same.trans ?_ ((setFld_same _ _ _ _ _).mono (by decide))
  refine Same.trans ?_ ((wrN_same _ _ _).mono (by decide))
  refine Same.trans ?_ ((updAxis_same _ _ _).mono (by decide))
  refine Same.mono (ps := [.regs]) ?_ (by decide)
  have h0 : Same [.regs] s (if (axState s k == axHoming) = true then setFlag s (AX_STS k) 23 false else s) := by
    split
    · exact setFlag_same _ _ _ _
    · exact Same.refl _ _
  generalize (if (axState s k == axHoming) = true then setFlag s (AX_STS k) 23 false else s) = t at *
  split
  · have h1 : Same [.regs] t (if hasEncoder t k = true then wrI t (AX_POS k) (rdI t (AX_ENC_POS k)) else setFlag t (AX_STS k) 23 false) := by
      split
      · exact wrI_same _ _ _
      · exact setFlag_same _ _ _ _
    split
    · exact h0.trans (h1.trans ((wrI_same _ _ _).trans (setFlag_same _ _ _ _)))
    · exact h0.trans h1
  · split
    · exact h0.trans ((setFlag_same _ _ _ _).trans (wrN_same _ _ _))
    · exact h0

theorem axisHalted_regs (s : State) (k code : Nat) : RegsKept (axReg k) s (axisHalted s k code) := by
  intro a ha
  obtain ⟨h1, h2, h3, h4, h5⟩ := axReg_iff.mp ha
  unfold axisHalted
  simp only
  rw [setAxState_rd _ h1 h5, rd_setFld_other _ _ _ h1, rd_wrN_other _ h4, rd_updAxis]
  have h0 : rd (if (axState s k == axHoming) = true then setFlag s (AX_STS k) 23 false else s) a = rd s a := by
    split
    · exact rd_setFlag_other _ _ h1
    · rfl
  generalize (if (axState s k == axHoming) = true then setFlag s (AX_STS k) 23 false else s) = t at *
  split
  · have h6 : rd (if hasEncoder t k = true then wrI t (AX_POS k) (rdI t (AX_ENC_POS k)) else setFlag t (AX_STS k) 23 false) a = rd t a := by
      split
      · exact rd_wrI_other _ h2
      · exact rd_setFlag_other _ _ h1
    split
    · rw [rd_setFlag_other _ _ h1, rd_wrI_other _ h3, h6, h0]
    · rw [h6, h0]
  · split
    · rw [rd_wrN_other _ h3, rd_setFlag_other _ _ h1, h0]
    · exact h0

/-- A halt of an axis changes the axis, its registers and what its commands' completions change. -/
theorem axisHalt_same (s : State) (k code : Nat) : Same axParts s (axisHalt s k code) := by
  rw [axisHalt_eq]
  refine Same.trans ?_ ((finishStops_same _).mono (by decide))
  refine Same.trans ?_ ((finishRun_same _ _ _ _ _ _ _ _).mono (by decide))
  refine Same.trans ?_ ((finishRun_same _ _ _ _ _ _ _ _).mono (by decide))
  refine Same.trans ?_ ((finishMove_same _ _ _ _ _).mono (by decide))
  exact (axisHalted_same _ _ _).mono (by decide)

/-- What the completions after a halt leave of the halted axis's state. -/
theorem axisHalt_after (s : State) (k code : Nat) : Same (.running :: endParts) (axisHalted s k code) (axisHalt s k code) := by
  rw [axisHalt_eq]
  exact (((finishMove_same _ _ _ _ _).trans (finishRun_same _ _ _ _ _ _ _ _)).trans (finishRun_same _ _ _ _ _ _ _ _)).trans (finishStops_same _)
theorem axisHalt_after_regs (s : State) (k code : Nat) : RegsKept endReg (axisHalted s k code) (axisHalt s k code) := by
  rw [axisHalt_eq]
  exact (((finishMove_regs _ _ _ _ _).trans (finishRun_regs _ _ _ _ _ _ _ _)).trans (finishRun_regs _ _ _ _ _ _ _ _)).trans (finishStops_regs _)

theorem axisHalt_regs (s : State) (k code : Nat) : RegsKept (fun a => axReg k a || endReg a) s (axisHalt s k code) :=
  ((axisHalted_regs s k code).mono (fun a h => by simp [h])).trans ((axisHalt_after_regs s k code).mono (fun a h => by simp [h]))

/-- A register of the AX block, or any other outside the rings and the fabric's ports, is none that a completion writes. -/
theorem endReg_ax {a : Nat} (h : 0x201000 ≤ a ∨ a < 0x30000 ∨ (0x30500 ≤ a ∧ a < 0x200000)) : endReg a = false := by
  simp only [endReg, ringReg, txReg, Bool.or_eq_false_iff, List.any_eq_false, beq_iff_eq, beq_eq_false_iff_ne, List.mem_range,
    HIF_SQ_STS, HIF_CQ_TAIL, FAB_P_TX_FRAMES, Bool.or_eq_true, not_or]
  refine ⟨fun n hn => ⟨by omega, by omega⟩, ⟨⟨?_, ?_⟩, ?_⟩, ?_⟩ <;> omega

/-! ### The safe state -/

/-- Parts of the state that a lane's entry into the safe state changes. -/
abbrev laneSafeParts : List Part := .lanes :: .running :: endParts

theorem laneSafe_same (s : State) (n : Nat) : Same laneSafeParts s (laneSafe s n) := by
  have h : Same laneSafeParts s (setFld (darken (holdSent s n) n) (LAS_WORD n) 15 0 0) :=
    (((holdSent_same s n).mono (by decide)).trans ((darken_same _ _).mono (by decide))).trans ((setFld_same _ _ _ _ _).mono (by decide))
  unfold laneSafe
  simp only
  split
  · exact h.trans ((endJog_same _ _ _ _).mono (by decide))
  · exact h

theorem endJog_rd {s : State} {n a : Nat} (st : Status) (ex : Nat) (h1 : a ≠ SCN_STS n) (h2 : endReg a = false) :
    rd (endJog s n st ex) a = rd s a := by
  unfold endJog
  rw [(finishRun_regs _ _ _ _ _ _ _ _) a h2, rd_setFlag_other _ _ h1]; rfl

theorem laneSafe_rd {s : State} {n a : Nat} (h1 : a ≠ LAS_STS n) (h2 : a ≠ LAS_WORD n) (h3 : a ≠ SCN_STS n)
    (h4 : endReg a = false) : rd (laneSafe s n) a = rd s a := by
  have h : rd (setFld (darken (holdSent s n) n) (LAS_WORD n) 15 0 0) a = rd s a := by
    rw [rd_setFld_other _ _ _ h2, darken_rd h1, (holdSent_same s n).rd a]
  unfold laneSafe
  simp only
  split
  · rw [endJog_rd _ _ h3 h4, h]
  · exact h

theorem trigShow_same (s : State) : Same [.pins] s (trigShow s) := by
  intro q hq; cases q <;> first | rfl | exact absurd (by decide) hq
@[simp] theorem rd_trigShow (s : State) (a : Nat) : rd (trigShow s) a = rd s a := rfl

/-- Disarming the triggers changes their registers, the pulses, the pins and, with its event, the recorder. -/
theorem trigSafe_same (s : State) : Same [.regs, .evr, .freeCtr, .ftm, .pins] s (trigSafe s) := by
  unfold trigSafe; simp only
  have h : Same [.regs, .evr, .freeCtr, .ftm, .pins] s
      ((List.range 4).foldl (fun s t => setFlag s (FTM_TRIG_STS t) 31 false) s) :=
    Same.foldl _ (fun t x => (setFlag_same _ _ _ _).mono (by decide)) _ _
  generalize (List.range 4).foldl (fun s t => setFlag s (FTM_TRIG_STS t) 31 false) s = t at *
  have h2 : Same [.regs, .evr, .freeCtr, .ftm, .pins] s (trigShow { t with ftm := { t.ftm with pulse := 0 } }) := by
    refine h.trans (Same.trans ?_ ((trigShow_same _).mono (by decide)))
    intro q hq; cases q <;> first | rfl | exact absurd (by decide) hq
  split
  · exact h2.trans ((event_same _ _ _ _).mono (by decide))
  · exact h2

/-- Parts of the state that entry into the safe state changes. -/
abbrev safeParts : List Part := .lanes :: .evr :: .freeCtr :: .ftm :: .pins :: .pwr :: axParts

theorem enterSafe_same (s : State) : Same safeParts s (enterSafe s) := by
  unfold enterSafe; simp only
  refine Same.trans ?_ ((trigSafe_same _).mono (by decide))
  refine Same.trans ?_ (Same.foldl _ (fun t k => ?_) _ _)
  · refine Same.trans ?_ (Same.foldl _ (fun t n => (laneSafe_same t n).mono (qs := safeParts) (by decide)) _ _)
    intro q hq; cases q <;> first | rfl | exact absurd (by decide) hq
  · refine Same.trans ?_ ((setFlag_same _ _ _ _).mono (by decide))
    split
    · exact (axisHalt_same _ _ _).mono (by decide)
    · exact Same.refl _ _

/-! ### Faults -/

theorem fltShow_same (s : State) : Same [.regs] s (fltShow s) :=
  (((setFld_same s _ _ _ _).trans (setFld_same _ _ _ _ _)).trans (setFld_same _ _ _ _ _)).trans (setFlag_same _ _ _ _)
theorem fltShow_rd {s : State} {a : Nat} (h : a ≠ FLT_STS) : rd (fltShow s) a = rd s a := by
  simp only [fltShow, rd_setFlag_other _ _ h, rd_setFld_other _ _ _ h]

theorem settle_same (s : State) : Same [.regs, .evr] s (settle s) := by
  refine Same.trans ?_ ((fltShow_same _).mono (by decide))
  intro q hq; cases q <;> first | rfl | exact absurd (by decide) hq
theorem settle_rd {s : State} {a : Nat} (h : a ≠ FLT_STS) : rd (settle s) a = rd s a := by
  rw [settle, fltShow_rd h]; rfl

theorem joinRecovery_same (s : State) (c src : Nat) : Same [.evr] s (joinRecovery s c src) := by
  unfold joinRecovery; split
  · exact Same.refl _ _
  · intro q hq; cases q <;> first | rfl | exact absurd (by decide) hq

theorem fltEnter_same (s : State) (c code src : Nat) : Same [.regs, .evr] s (fltEnter s c code src).1 := by
  unfold fltEnter; split
  · refine Same.mono (ps := [.regs]) ?_ (by decide)
    exact ((((setFld_same s _ _ _ _).trans (setFld_same _ _ _ _ _)).trans (setFld_same _ _ _ _ _)).trans (wrN_same _ _ _)).trans (wr64_same _ _ _ _)
  · refine Same.trans ?_ ((setFlag_same _ _ _ _).mono (by decide))
    intro q hq; cases q <;> first | rfl | exact absurd (by decide) hq

theorem faultEvent_same (s : State) (c code src : Nat) (e : Option Nat) (p : List Byte) :
    Same [.regs, .evr, .freeCtr] s (faultEvent s c code src e p) := event_same _ _ _ _

theorem cancelStart_same (s : State) (st : Status) : Same (.seq :: .running :: endParts) s (cancelStart s st) := by
  unfold cancelStart; split
  · exact Same.refl _ _
  · refine Same.trans ?_ ((finishRun_same _ _ _ _ _ _ _ _).mono (by decide))
    refine Same.trans ?_ ((setFlag_same _ _ _ _).mono (by decide))
    intro q hq; cases q <;> first | rfl | exact absurd (by decide) hq

theorem dropStart_same (s : State) : Same [.regs, .seq] s (dropStart s) := by
  refine Same.trans ?_ ((setFlag_same _ _ _ _).mono (by decide))
  intro q hq; cases q <;> first | rfl | exact absurd (by decide) hq

theorem loseStart_same (s : State) : Same (.seq :: .running :: endParts) s (loseStart s) := by
  unfold loseStart; split
  · exact cancelStart_same _ _
  · exact (dropStart_same _).mono (by decide)
  · exact Same.refl _ _

theorem requestStop_same (s : State) (st : Status) : Same (.seq :: .running :: endParts) s (requestStop s st) := by
  unfold requestStop; split
  · intro q hq; cases q <;> first | rfl | exact absurd (by decide) hq
  · split
    · exact cancelStart_same _ _
    · exact Same.refl _ _

theorem requestAbort_same (s : State) (c : EndCause) : Same [.seq] s (requestAbort s c) := by
  unfold requestAbort; split
  · split
    · intro q hq; cases q <;> first | rfl | exact absurd (by decide) hq
    · exact Same.refl _ _
  · intro q hq; cases q <;> first | rfl | exact absurd (by decide) hq

theorem noticeGroup_same (s : State) (k t a : Nat) : Same [.regs, .fab] s (noticeGroup s k t a) := sendGroup_same _ _ _

/-- Parts of the state that a fault changes: the memories, the jobs and channels and what belongs to no lane stay. -/
abbrev faultParts : List Part := .ledger :: .ovl :: .seq :: safeParts

theorem faultActions_same (s : State) (c code src : Nat) : Same faultParts s (faultActions s c code src) := by
  unfold faultActions; simp only
  split
  · have h := (haltLane_same s (src % 0x1000) code).mono (qs := faultParts) (by decide)
    split
    · exact h.trans (((requestStop_same _ _).mono (by decide)).trans ((noticeGroup_same _ _ _ _).mono (by decide)))
    · exact h
  · split
    · exact ((noticeGroup_same _ _ _ _).mono (by decide)).trans ((requestStop_same _ _).mono (by decide))
    · split
      · have h : Same faultParts s (loseStart (enterSafe s)) :=
          ((enterSafe_same s).mono (by decide)).trans ((loseStart_same _).mono (by decide))
        refine h.trans ?_
        generalize loseStart (enterSafe s) = t
        have h2 : Same faultParts t (if inLayer s = true then noticeGroup (requestAbort t ⟨2, code⟩) 3 (now t) code else t) := by
          split
          · exact ((requestAbort_same _ _).mono (by decide)).trans ((noticeGroup_same _ _ _ _).mono (by decide))
          · exact Same.refl _ _
        refine h2.trans ?_
        generalize (if inLayer s = true then noticeGroup (requestAbort t ⟨2, code⟩) 3 (now t) code else t) = u at *
        split
        · exact Same.refl _ _
        · intro q hq; cases q <;> first | rfl | exact absurd (by decide) hq
      · exact Same.refl _ _

/-- What raising a fault can change. -/
theorem raiseFault_same (s : State) (c code src : Nat) (p : List Byte) : Same faultParts s (raiseFault s c code src p) := by
  unfold raiseFault
  split
  · exact ((satIncF_same _ _ _ _).mono (by decide)).trans ((faultEvent_same _ _ _ _ _ _).mono (by decide))
  · refine Same.trans ?_ ((settle_same _).mono (by decide))
    refine Same.trans ?_ (faultActions_same _ _ _ _)
    refine Same.trans ?_ ((joinRecovery_same _ _ _).mono (by decide))
    exact ((fltEnter_same _ _ _ _).mono (by decide)).trans ((faultEvent_same _ _ _ _ _ _).mono (by decide))

theorem faultGone_same (s : State) (code src : Nat) : Same [.regs, .evr] s (faultGone s code src) := by
  unfold faultGone; simp only
  have h : Same [.regs, .evr] s (match fltFind s code src 1 with
    | some i => setFld s (FLT_ENTRY_W0 i) 31 30 2
    | none => s) := by
    split
    · exact (setFld_same _ _ _ _ _).mono (by decide)
    · exact Same.refl _ _
  refine h.trans ?_
  intro q hq; cases q <;> first | rfl | exact absurd (by decide) hq

theorem raiseOnce_same (s : State) (c code src : Nat) (p : List Byte) : Same faultParts s (raiseOnce s c code src p) :=
  ((raiseFault_same s c code src p).trans ((faultGone_same _ _ _).mono (by decide))).trans ((fltShow_same _).mono (by decide))

theorem axisFault_same (s : State) (k code : Nat) : Same faultParts s (axisFault s k code) :=
  ((axisHalt_same s k code).mono (by decide)).trans (raiseOnce_same _ _ _ _ _)

theorem leaveSafe_same (s : State) : Same [.regs, .axes, .pwr, .pins] s (leaveSafe s) := by
  unfold leaveSafe; split
  · refine Same.trans (t := trigShow { s with pwr := { s.pwr with safe := false }, pins := { s.pins with safeN := true } }) ?_
      (Same.foldl _ (fun t k => ?_) _ _)
    · intro q hq; cases q <;> first | rfl | exact absurd (by decide) hq
    · have h := (setFlag_same t (AX_STS k) 15 (flag t (AX_CFG k) 0)).mono (qs := [.regs, .axes, .pwr, .pins]) (by decide)
      simp only
      split
      · refine h.trans (Same.trans ?_ ((setAxState_same _ _ _).mono (by decide)))
        exact ((updAxis_same _ _ _).mono (by decide)).trans ((setFld_same _ _ _ _ _).mono (by decide))
      · exact h
  · exact Same.refl _ _

end Sys2Proof.Laws
end

