-- ==== Sys2Proof/Laws/Step.lean ====
section
/-!
SUPPORT. The shape of every command's meaning: all but three run under `always` or `whileClocked`, so that the queue, the
shutdown latch with its pin and the identity fuses are held.
-/

namespace Sys2Proof.Laws

open Sys2Proof.Machine

/-- The commands that run whatever the state of the device, and the three that change what the others hold. -/
def unclocked : Instr → Bool
  | .porNLow .. => true
  | .porNRise .. => true
  | .sysRstNLow .. => true
  | .sysRstNRelease .. => true
  | .brownout .. => true
  | .vddAonUndervoltage .. => true
  | .railSequenceViolation .. => true
  | .perstN .. => true
  | .perstNRelease .. => true
  | .busMasterEnable .. => true
  | .registerWrite .. => true
  | .latchingRead .. => true
  | .bar2Access .. => true
  | .interlockNFall .. => true
  | .interlockNRise .. => true
  | .vddAonFirstRise .. => true
  | .vddCoreRemoval .. => true
  | .thmSample .. => true
  | _ => false

/-- Any other command has no effect while the clocks are stopped, and holds what `holding` holds. -/
theorem exec_clocked (c : Instr) (s : State) (hc : unclocked c = false) : ∃ f, exec c s = whileClocked s f := by
  cases c
  case badOpcode h op => show ∃ f, execBadOpcode h op s = whileClocked s f; unfold execBadOpcode; exact ⟨_, rfl⟩
  case nop h => show ∃ f, execNop h s = whileClocked s f; unfold execNop; exact ⟨_, rfl⟩
  case identify h => show ∃ f, execIdentify h s = whileClocked s f; unfold execIdentify; exact ⟨_, rfl⟩
  case resetDomain h d => show ∃ f, execResetDomain h d s = whileClocked s f; unfold execResetDomain; exact ⟨_, rfl⟩
  case commit h mask flags => show ∃ f, execCommit h mask flags s = whileClocked s f; unfold execCommit; exact ⟨_, rfl⟩
  case readStatus h addr => show ∃ f, execReadStatus h addr s = whileClocked s f; unfold execReadStatus; exact ⟨_, rfl⟩
  case setStatusMirror h addr period => show ∃ f, execSetStatusMirror h addr period s = whileClocked s f; unfold execSetStatusMirror; exact ⟨_, rfl⟩
  case fwInfo h => show ∃ f, execFwInfo h s = whileClocked s f; unfold execFwInfo; exact ⟨_, rfl⟩
  case powerDomain h d st flags => show ∃ f, execPowerDomain h d st flags s = whileClocked s f; unfold execPowerDomain; exact ⟨_, rfl⟩
  case dieLedgerQuery h => show ∃ f, execDieLedgerQuery h s = whileClocked s f; unfold execDieLedgerQuery; exact ⟨_, rfl⟩
  case jobOpen h id_ hb hl db dl => show ∃ f, execJobOpen h id_ hb hl db dl s = whileClocked s f; unfold execJobOpen; exact ⟨_, rfl⟩
  case jobClose h id_ => show ∃ f, execJobClose h id_ s = whileClocked s f; unfold execJobClose; exact ⟨_, rfl⟩
  case recipeLoad h first cnt source addr block => show ∃ f, execRecipeLoad h first cnt source addr block s = whileClocked s f; unfold execRecipeLoad; exact ⟨_, rfl⟩
  case lanesetLoad h first cnt source addr inl block => show ∃ f, execLanesetLoad h first cnt source addr inl block s = whileClocked s f; unfold execLanesetLoad; exact ⟨_, rfl⟩
  case layerLoad h addr layer => show ∃ f, execLayerLoad h addr layer s = whileClocked s f; unfold execLayerLoad; exact ⟨_, rfl⟩
  case layerArm h layer peers => show ∃ f, execLayerArm h layer peers s = whileClocked s f; unfold execLayerArm; exact ⟨_, rfl⟩
  case layerExpose h layer start => show ∃ f, execLayerExpose h layer start s = whileClocked s f; unfold execLayerExpose; exact ⟨_, rfl⟩
  case stopBath h scope => show ∃ f, execStopBath h scope s = whileClocked s f; unfold execStopBath; exact ⟨_, rfl⟩
  case resume h layer start => show ∃ f, execResume h layer start s = whileClocked s f; unfold execResume; exact ⟨_, rfl⟩
  case layerAbort h scope => show ∃ f, execLayerAbort h scope s = whileClocked s f; unfold execLayerAbort; exact ⟨_, rfl⟩
  case contactSheetRead h layer addr => show ∃ f, execContactSheetRead h layer addr s = whileClocked s f; unfold execContactSheetRead; exact ⟨_, rfl⟩
  case overlapSet h op margin horizon lookahead estP markOvh jumpOvh zone en lx ly nx ny first cnt map_ => show ∃ f, execOverlapSet h op margin horizon lookahead estP markOvh jumpOvh zone en lx ly nx ny first cnt map_ s = whileClocked s f; unfold execOverlapSet; exact ⟨_, rfl⟩
  case plumeSet h enable depth fx fy length half skip border => show ∃ f, execPlumeSet h enable depth fx fy length half skip border s = whileClocked s f; unfold execPlumeSet; exact ⟨_, rfl⟩
  case stitchSet h zone overlap amp => show ∃ f, execStitchSet h zone overlap amp s = whileClocked s f; unfold execStitchSet; exact ⟨_, rfl⟩
  case laneConfig h lane_ flags vmark vjump accel jerk zv za zj winXy winZ delay count errs => show ∃ f, execLaneConfig h lane_ flags vmark vjump accel jerk zv za zj winXy winZ delay count errs s = whileClocked s f; unfold execLaneConfig; exact ⟨_, rfl⟩
  case enlargerMapLoad h lane_ source addr block => show ∃ f, execEnlargerMapLoad h lane_ source addr block s = whileClocked s f; unfold execEnlargerMapLoad; exact ⟨_, rfl⟩
  case scannerLinkSet h lane_ gen pol => show ∃ f, execScannerLinkSet h lane_ gen pol s = whileClocked s f; unfold execScannerLinkSet; exact ⟨_, rfl⟩
  case laneJog h lane_ mode x y z speed => show ∃ f, execLaneJog h lane_ mode x y z speed s = whileClocked s f; unfold execLaneJog; exact ⟨_, rfl⟩
  case driftTermsSet h lane_ apply_ mask terms => show ∃ f, execDriftTermsSet h lane_ apply_ mask terms s = whileClocked s f; unfold execDriftTermsSet; exact ⟨_, rfl⟩
  case laserPortSet h lane_ mode flags filter pfs pmax lead => show ∃ f, execLaserPortSet h lane_ mode flags filter pfs pmax lead s = whileClocked s f; unfold execLaserPortSet; exact ⟨_, rfl⟩
  case ledgerSet h budget dpdt stepMax => show ∃ f, execLedgerSet h budget dpdt stepMax s = whileClocked s f; unfold execLedgerSet; exact ⟨_, rfl⟩
  case afeSet h lane_ flags calDelta offSettle satCode darkMin => show ∃ f, execAfeSet h lane_ flags calDelta offSettle satCode darkMin s = whileClocked s f; unfold execAfeSet; exact ⟨_, rfl⟩
  case afeCalibrate h lanes inputs mode => show ∃ f, execAfeCalibrate h lanes inputs mode s = whileClocked s f; unfold execAfeCalibrate; exact ⟨_, rfl⟩
  case calValuesRead h first cnt addr => show ∃ f, execCalValuesRead h first cnt addr s = whileClocked s f; unfold execCalValuesRead; exact ⟨_, rfl⟩
  case calValuesWrite h cnt source addr block => show ∃ f, execCalValuesWrite h cnt source addr block s = whileClocked s f; unfold execCalValuesWrite; exact ⟨_, rfl⟩
  case csiPortSet h port lanes rate busMode scl => show ∃ f, execCsiPortSet h port lanes rate busMode scl s = whileClocked s f; unfold execCsiPortSet; exact ⟨_, rfl⟩
  case contextSet h c op nwrites fields items => show ∃ f, execContextSet h c op nwrites fields items s = whileClocked s f; unfold execContextSet; exact ⟨_, rfl⟩
  case statsRoute h c lane_ routes metric => show ∃ f, execStatsRoute h c lane_ routes metric s = whileClocked s f; unfold execStatsRoute; exact ⟨_, rfl⟩
  case loopConfig h lanes lp mask limLo limHi slew flags start hold pdmin => show ∃ f, execLoopConfig h lanes lp mask limLo limHi slew flags start hold pdmin s = whileClocked s f; unfold execLoopConfig; exact ⟨_, rfl⟩
  case loopCoefWrite h lanes lp mask order kp ki kd kf => show ∃ f, execLoopCoefWrite h lanes lp mask order kp ki kd kf s = whileClocked s f; unfold execLoopCoefWrite; exact ⟨_, rfl⟩
  case loopMode h lanes lp mode man flags => show ∃ f, execLoopMode h lanes lp mode man flags s = whileClocked s f; unfold execLoopMode; exact ⟨_, rfl⟩
  case loopSetpoint h lanes lp op value => show ∃ f, execLoopSetpoint h lanes lp op value s = whileClocked s f; unfold execLoopSetpoint; exact ⟨_, rfl⟩
  case loopRead h lane_ lp => show ∃ f, execLoopRead h lane_ lp s = whileClocked s f; unfold execLoopRead; exact ⟨_, rfl⟩
  case burnConfig h flags gain weight nMin ox oy cell gw gh x0 y0 w wh => show ∃ f, execBurnConfig h flags gain weight nMin ox oy cell gw gh x0 y0 w wh s = whileClocked s f; unfold execBurnConfig; exact ⟨_, rfl⟩
  case burnMapLoad h source content addr => show ∃ f, execBurnMapLoad h source content addr s = whileClocked s f; unfold execBurnMapLoad; exact ⟨_, rfl⟩
  case burnMapSave h dest addr => show ∃ f, execBurnMapSave h dest addr s = whileClocked s f; unfold execBurnMapSave; exact ⟨_, rfl⟩
  case burnFreeze h op scope => show ∃ f, execBurnFreeze h op scope s = whileClocked s f; unfold execBurnFreeze; exact ⟨_, rfl⟩
  case axisConfig h axis sect vals => show ∃ f, execAxisConfig h axis sect vals s = whileClocked s f; unfold execAxisConfig; exact ⟨_, rfl⟩
  case axisMove h axis flags target vmax => show ∃ f, execAxisMove h axis flags target vmax s = whileClocked s f; unfold execAxisMove; exact ⟨_, rfl⟩
  case axisHome h axis mode value => show ∃ f, execAxisHome h axis mode value s = whileClocked s f; unfold execAxisHome; exact ⟨_, rfl⟩
  case axisStop h mask => show ∃ f, execAxisStop h mask s = whileClocked s f; unfold execAxisStop; exact ⟨_, rfl⟩
  case axisResume h mask flags time => show ∃ f, execAxisResume h mask flags time s = whileClocked s f; unfold execAxisResume; exact ⟨_, rfl⟩
  case axisGroupStart h mask flags time => show ∃ f, execAxisGroupStart h mask flags time s = whileClocked s f; unfold execAxisGroupStart; exact ⟨_, rfl⟩
  case axisRetarget h axis flags target vmax accel decel => show ∃ f, execAxisRetarget h axis flags target vmax accel decel s = whileClocked s f; unfold execAxisRetarget; exact ⟨_, rfl⟩
  case fabricPortSet h port mode flags polarity => show ∃ f, execFabricPortSet h port mode flags polarity s = whileClocked s f; unfold execFabricPortSet; exact ⟨_, rfl⟩
  case fabricDiscover h op addr => show ∃ f, execFabricDiscover h op addr s = whileClocked s f; unfold execFabricDiscover; exact ⟨_, rfl⟩
  case fabricRouteRead h dest addr => show ∃ f, execFabricRouteRead h dest addr s = whileClocked s f; unfold execFabricRouteRead; exact ⟨_, rfl⟩
  case plateGroupSet h group => show ∃ f, execPlateGroupSet h group s = whileClocked s f; unfold execPlateGroupSet; exact ⟨_, rfl⟩
  case remoteCommand h op target count off data inner => show ∃ f, execRemoteCommand h op target count off data inner s = whileClocked s f; unfold execRemoteCommand; exact ⟨_, rfl⟩
  case timeConfig h quality domain ann sync pdelay kp ki rateLim stepThresh lockThresh lockCount limit holdRate invert => show ∃ f, execTimeConfig h quality domain ann sync pdelay kp ki rateLim stepThresh lockThresh lockCount limit holdRate invert s = whileClocked s f; unfold execTimeConfig; exact ⟨_, rfl⟩
  case triggerSet h trig op start period width count => show ∃ f, execTriggerSet h trig op start period width count s = whileClocked s f; unfold execTriggerSet; exact ⟨_, rfl⟩
  case ddrTrain h channel => show ∃ f, execDdrTrain h channel s = whileClocked s f; unfold execDdrTrain; exact ⟨_, rfl⟩
  case ddrConfig h channel type rate ranks module_ width density map scrubHours ageNs actLimit thresh scrubMs => show ∃ f, execDdrConfig h channel type rate ranks module_ width density map scrubHours ageNs actLimit thresh scrubMs s = whileClocked s f; unfold execDdrConfig; exact ⟨_, rfl⟩
  case dmaChannelSet h channel priority rate => show ∃ f, execDmaChannelSet h channel priority rate s = whileClocked s f; unfold execDmaChannelSet; exact ⟨_, rfl⟩
  case dmaStart h channel space addr => show ∃ f, execDmaStart h channel space addr s = whileClocked s f; unfold execDmaStart; exact ⟨_, rfl⟩
  case dmaStop h mask => show ∃ f, execDmaStop h mask s = whileClocked s f; unfold execDmaStop; exact ⟨_, rfl⟩
  case compressJob h codec format level rate inSpace outSpace inAddr outAddr inLen outLen => show ∃ f, execCompressJob h codec format level rate inSpace outSpace inAddr outAddr inLen outLen s = whileClocked s f; unfold execCompressJob; exact ⟨_, rfl⟩
  case decompressJob h codec format rate inSpace outSpace inAddr outAddr inLen outLen ratio cap => show ∃ f, execDecompressJob h codec format rate inSpace outSpace inAddr outAddr inLen outLen ratio cap s = whileClocked s f; unfold execDecompressJob; exact ⟨_, rfl⟩
  case codecFlush h codec used => show ∃ f, execCodecFlush h codec used s = whileClocked s f; unfold execCodecFlush; exact ⟨_, rfl⟩
  case codecResume h codec op rate outSpace outAddr outLen => show ∃ f, execCodecResume h codec op rate outSpace outAddr outLen s = whileClocked s f; unfold execCodecResume; exact ⟨_, rfl⟩
  case mbxBind h channel op sender receiver peer timeout => show ∃ f, execMbxBind h channel op sender receiver peer timeout s = whileClocked s f; unfold execMbxBind; exact ⟨_, rfl⟩
  case mbxLock h mask => show ∃ f, execMbxLock h mask s = whileClocked s f; unfold execMbxLock; exact ⟨_, rfl⟩
  case panelSet h op channel v0 v1 v2 v3 => show ∃ f, execPanelSet h op channel v0 v1 v2 v3 s = whileClocked s f; unfold execPanelSet; exact ⟨_, rfl⟩
  case ledPatternLoad h engine_ mode flags nchan list hi lo timeA timeB nsteps steps => show ∃ f, execLedPatternLoad h engine_ mode flags nchan list hi lo timeA timeB nsteps steps s = whileClocked s f; unfold execLedPatternLoad; exact ⟨_, rfl⟩
  case ledColourTarget h op red green blue x y luma m gain => show ∃ f, execLedColourTarget h op red green blue x y luma m gain s = whileClocked s f; unfold execLedColourTarget; exact ⟨_, rfl⟩
  case ledDiag h op mask shorts => show ∃ f, execLedDiag h op mask shorts s = whileClocked s f; unfold execLedDiag; exact ⟨_, rfl⟩
  case faultRead h addr => show ∃ f, execFaultRead h addr s = whileClocked s f; unfold execFaultRead; exact ⟨_, rfl⟩
  case faultClear h op code source mask => show ∃ f, execFaultClear h op code source mask s = whileClocked s f; unfold execFaultClear; exact ⟨_, rfl⟩
  case recorderFreeze h => show ∃ f, execRecorderFreeze h s = whileClocked s f; unfold execRecorderFreeze; exact ⟨_, rfl⟩
  case recorderThaw h => show ∃ f, execRecorderThaw h s = whileClocked s f; unfold execRecorderThaw; exact ⟨_, rfl⟩
  case blackboxRead h op count lanes addr => show ∃ f, execBlackboxRead h op count lanes addr s = whileClocked s f; unfold execBlackboxRead; exact ⟨_, rfl⟩
  case laneEngineMap h op lane_ engine value => show ∃ f, execLaneEngineMap h op lane_ engine value s = whileClocked s f; unfold execLaneEngineMap; exact ⟨_, rfl⟩
  case repairScan h banks engines fails tests stop => show ∃ f, execRepairScan h banks engines fails tests stop s = whileClocked s f; unfold execRepairScan; exact ⟨_, rfl⟩
  case repairFix h op stop => show ∃ f, execRepairFix h op stop s = whileClocked s f; unfold execRepairFix; exact ⟨_, rfl⟩
  case supplyUv rail => show ∃ f, execSupplyUv rail s = whileClocked s f; unfold execSupplyUv; exact ⟨_, rfl⟩
  case bootChunk v => show ∃ f, execBootChunk v s = whileClocked s f; unfold execBootChunk; exact ⟨_, rfl⟩
  case bootFlashTimeout => show ∃ f, execBootFlashTimeout s = whileClocked s f; unfold execBootFlashTimeout; exact ⟨_, rfl⟩
  case domainSwitchDone d => show ∃ f, execDomainSwitchDone d s = whileClocked s f; unfold execDomainSwitchDone; exact ⟨_, rfl⟩
  case domainResetRelease d => show ∃ f, execDomainResetRelease d s = whileClocked s f; unfold execDomainResetRelease; exact ⟨_, rfl⟩
  case dieLedgerRetry fails => show ∃ f, execDieLedgerRetry fails s = whileClocked s f; unfold execDieLedgerRetry; exact ⟨_, rfl⟩
  case liveFieldApply => show ∃ f, execLiveFieldApply s = whileClocked s f; unfold execLiveFieldApply; exact ⟨_, rfl⟩
  case offDomainAccess off write => show ∃ f, execOffDomainAccess off write s = whileClocked s f; unfold execOffDomainAccess; exact ⟨_, rfl⟩
  case apertureWrite off data => show ∃ f, execApertureWrite off data s = whileClocked s f; unfold execApertureWrite; exact ⟨_, rfl⟩
  case hifSqTail n v => show ∃ f, execHifSqTail n v s = whileClocked s f; unfold execHifSqTail; exact ⟨_, rfl⟩
  case hifCqHead n v => show ∃ f, execHifCqHead n v s = whileClocked s f; unfold execHifCqHead; exact ⟨_, rfl⟩
  case ringBaseWrite n reg v => show ∃ f, execRingBaseWrite n reg v s = whileClocked s f; unfold execRingBaseWrite; exact ⟨_, rfl⟩
  case sqEnable n on => show ∃ f, execSqEnable n on s = whileClocked s f; unfold execSqEnable; exact ⟨_, rfl⟩
  case commandFetch => show ∃ f, execCommandFetch s = whileClocked s f; unfold execCommandFetch; exact ⟨_, rfl⟩
  case statusMirrorSnapshot => show ∃ f, execStatusMirrorSnapshot s = whileClocked s f; unfold execStatusMirrorSnapshot; exact ⟨_, rfl⟩
  case commitTakeEffect => show ∃ f, execCommitTakeEffect s = whileClocked s f; unfold execCommitTakeEffect; exact ⟨_, rfl⟩
  case loadPassEnd badLane badIdx => show ∃ f, execLoadPassEnd badLane badIdx s = whileClocked s f; unfold execLoadPassEnd; exact ⟨_, rfl⟩
  case refillChunk q bad => show ∃ f, execRefillChunk q bad s = whileClocked s f; unfold execRefillChunk; exact ⟨_, rfl⟩
  case layerStart => show ∃ f, execLayerStart s = whileClocked s f; unfold execLayerStart; exact ⟨_, rfl⟩
  case stopBathEffect => show ∃ f, execStopBathEffect s = whileClocked s f; unfold execStopBathEffect; exact ⟨_, rfl⟩
  case stopBathEnd => show ∃ f, execStopBathEnd s = whileClocked s f; unfold execStopBathEnd; exact ⟨_, rfl⟩
  case stopTimeout => show ∃ f, execStopTimeout s = whileClocked s f; unfold execStopTimeout; exact ⟨_, rfl⟩
  case resumeStart => show ∃ f, execResumeStart s = whileClocked s f; unfold execResumeStart; exact ⟨_, rfl⟩
  case abortEffect => show ∃ f, execAbortEffect s = whileClocked s f; unfold execAbortEffect; exact ⟨_, rfl⟩
  case layerDone => show ∃ f, execLayerDone s = whileClocked s f; unfold execLayerDone; exact ⟨_, rfl⟩
  case tickBoundary pds encs late overrun rdy asks => show ∃ f, execTickBoundary pds encs late overrun rdy asks s = whileClocked s f; unfold execTickBoundary; exact ⟨_, rfl⟩
  case underrunRepeat lane_ => show ∃ f, execUnderrunRepeat lane_ s = whileClocked s f; unfold execUnderrunRepeat; exact ⟨_, rfl⟩
  case remarkStart lane_ => show ∃ f, execRemarkStart lane_ s = whileClocked s f; unfold execRemarkStart; exact ⟨_, rfl⟩
  case ledgerGrant => show ∃ f, execLedgerGrant s = whileClocked s f; unfold execLedgerGrant; exact ⟨_, rfl⟩
  case estimateSend lanes => show ∃ f, execEstimateSend lanes s = whileClocked s f; unfold execEstimateSend; exact ⟨_, rfl⟩
  case estimateToken via src flags entries => show ∃ f, execEstimateToken via src flags entries s = whileClocked s f; unfold execEstimateToken; exact ⟨_, rfl⟩
  case estStale => show ∃ f, execEstStale s = whileClocked s f; unfold execEstStale; exact ⟨_, rfl⟩
  case claimToken via src zone lane_ e q req => show ∃ f, execClaimToken via src zone lane_ e q req s = whileClocked s f; unfold execClaimToken; exact ⟨_, rfl⟩
  case grantToken via src zone seg lane_ req notBefore lo hi split rec_ => show ∃ f, execGrantToken via src zone seg lane_ req notBefore lo hi split rec_ s = whileClocked s f; unfold execGrantToken; exact ⟨_, rfl⟩
  case denyToken via src zone lane_ req => show ∃ f, execDenyToken via src zone lane_ req s = whileClocked s f; unfold execDenyToken; exact ⟨_, rfl⟩
  case claimTimeout lane_ => show ∃ f, execClaimTimeout lane_ s = whileClocked s f; unfold execClaimTimeout; exact ⟨_, rfl⟩
  case returnToken via src seg lane_ vid resumeAt => show ∃ f, execReturnToken via src seg lane_ vid resumeAt s = whileClocked s f; unfold execReturnToken; exact ⟨_, rfl⟩
  case doneToken via src seg lane_ vid endTime => show ∃ f, execDoneToken via src seg lane_ vid endTime s = whileClocked s f; unfold execDoneToken; exact ⟨_, rfl⟩
  case positionToken via src recs => show ∃ f, execPositionToken via src recs s = whileClocked s f; unfold execPositionToken; exact ⟨_, rfl⟩
  case peerStale peer => show ∃ f, execPeerStale peer s = whileClocked s f; unfold execPeerStale; exact ⟨_, rfl⟩
  case withdrawalEnd => show ∃ f, execWithdrawalEnd s = whileClocked s f; unfold execWithdrawalEnd; exact ⟨_, rfl⟩
  case scannerLinkTimeout lane_ => show ∃ f, execScannerLinkTimeout lane_ s = whileClocked s f; unfold execScannerLinkTimeout; exact ⟨_, rfl⟩
  case jogTargetReached lane_ => show ∃ f, execJogTargetReached lane_ s = whileClocked s f; unfold execJogTargetReached; exact ⟨_, rfl⟩
  case jumpRetarget lane_ => show ∃ f, execJumpRetarget lane_ s = whileClocked s f; unfold execJumpRetarget; exact ⟨_, rfl⟩
  case driftApply lane_ => show ∃ f, execDriftApply lane_ s = whileClocked s f; unfold execDriftApply; exact ⟨_, rfl⟩
  case driftTimeout lane_ => show ∃ f, execDriftTimeout lane_ s = whileClocked s f; unfold execDriftTimeout; exact ⟨_, rfl⟩
  case returnFrame lane_ line => show ∃ f, execReturnFrame lane_ line s = whileClocked s f; unfold execReturnFrame; exact ⟨_, rfl⟩
  case returnFrameTimeout lane_ => show ∃ f, execReturnFrameTimeout lane_ s = whileClocked s f; unfold execReturnFrameTimeout; exact ⟨_, rfl⟩
  case linkLost lane_ => show ∃ f, execLinkLost lane_ s = whileClocked s f; unfold execLinkLost; exact ⟨_, rfl⟩
  case scanDeviation lane_ => show ∃ f, execScanDeviation lane_ s = whileClocked s f; unfold execScanDeviation; exact ⟨_, rfl⟩
  case shutterLatchClear => show ∃ f, execShutterLatchClear s = whileClocked s f; unfold execShutterLatchClear; exact ⟨_, rfl⟩
  case almNChange lane_ low => show ∃ f, execAlmNChange lane_ low s = whileClocked s f; unfold execAlmNChange; exact ⟨_, rfl⟩
  case rdyFall lane_ => show ∃ f, execRdyFall lane_ s = whileClocked s f; unfold execRdyFall; exact ⟨_, rfl⟩
  case calibrationRunStart lane_ => show ∃ f, execCalibrationRunStart lane_ s = whileClocked s f; unfold execCalibrationRunStart; exact ⟨_, rfl⟩
  case calDeadline lane_ input => show ∃ f, execCalDeadline lane_ input s = whileClocked s f; unfold execCalDeadline; exact ⟨_, rfl⟩
  case calibrationRunEnd lane_ pd0 pd1 => show ∃ f, execCalibrationRunEnd lane_ pd0 pd1 s = whileClocked s f; unfold execCalibrationRunEnd; exact ⟨_, rfl⟩
  case frameStart port vc csi corrected phy ns => show ∃ f, execFrameStart port vc csi corrected phy ns s = whileClocked s f; unfold execFrameStart; exact ⟨_, rfl⟩
  case longPacket port vc dt hdr crcOk data phy => show ∃ f, execLongPacket port vc dt hdr crcOk data phy s = whileClocked s f; unfold execLongPacket; exact ⟨_, rfl⟩
  case frameEnd port vc corrected phy ns => show ∃ f, execFrameEnd port vc corrected phy ns s = whileClocked s f; unfold execFrameEnd; exact ⟨_, rfl⟩
  case pipelineLine p => show ∃ f, execPipelineLine p s = whileClocked s f; unfold execPipelineLine; exact ⟨_, rfl⟩
  case frameTimeout c => show ∃ f, execFrameTimeout c s = whileClocked s f; unfold execFrameTimeout; exact ⟨_, rfl⟩
  case statsRecordReady c => show ∃ f, execStatsRecordReady c s = whileClocked s f; unfold execStatsRecordReady; exact ⟨_, rfl⟩
  case statsDelivery c => show ∃ f, execStatsDelivery c s = whileClocked s f; unfold execStatsDelivery; exact ⟨_, rfl⟩
  case sensorWrites c acked => show ∃ f, execSensorWrites c acked s = whileClocked s f; unfold execSensorWrites; exact ⟨_, rfl⟩
  case contextWriteTimeout c => show ∃ f, execContextWriteTimeout c s = whileClocked s f; unfold execContextWriteTimeout; exact ⟨_, rfl⟩
  case loopCoefApply => show ∃ f, execLoopCoefApply s = whileClocked s f; unfold execLoopCoefApply; exact ⟨_, rfl⟩
  case loopHoldLong lane_ lp => show ∃ f, execLoopHoldLong lane_ lp s = whileClocked s f; unfold execLoopHoldLong; exact ⟨_, rfl⟩
  case burnFill => show ∃ f, execBurnFill s = whileClocked s f; unfold execBurnFill; exact ⟨_, rfl⟩
  case burnUpdate => show ∃ f, execBurnUpdate s = whileClocked s f; unfold execBurnUpdate; exact ⟨_, rfl⟩
  case burnBorderTimeout peer => show ∃ f, execBurnBorderTimeout peer s = whileClocked s f; unfold execBurnBorderTimeout; exact ⟨_, rfl⟩
  case groupStartBoundary => show ∃ f, execGroupStartBoundary s = whileClocked s f; unfold execGroupStartBoundary; exact ⟨_, rfl⟩
  case axisTargetReached k => show ∃ f, execAxisTargetReached k s = whileClocked s f; unfold execAxisTargetReached; exact ⟨_, rfl⟩
  case axisAtRest k => show ∃ f, execAxisAtRest k s = whileClocked s f; unfold execAxisAtRest; exact ⟨_, rfl⟩
  case homingComplete k => show ∃ f, execHomingComplete k s = whileClocked s f; unfold execHomingComplete; exact ⟨_, rfl⟩
  case homeFail k => show ∃ f, execHomeFail k s = whileClocked s f; unfold execHomeFail; exact ⟨_, rfl⟩
  case switchTransition k inp level ns raw => show ∃ f, execSwitchTransition k inp level ns raw s = whileClocked s f; unfold execSwitchTransition; exact ⟨_, rfl⟩
  case switchDebounce k inp => show ∃ f, execSwitchDebounce k inp s = whileClocked s f; unfold execSwitchDebounce; exact ⟨_, rfl⟩
  case switchChatter k inp => show ∃ f, execSwitchChatter k inp s = whileClocked s f; unfold execSwitchChatter; exact ⟨_, rfl⟩
  case stall k => show ∃ f, execStall k s = whileClocked s f; unfold execStall; exact ⟨_, rfl⟩
  case encErr k => show ∃ f, execEncErr k s = whileClocked s f; unfold execEncErr; exact ⟨_, rfl⟩
  case ssiFrame k frame ns => show ∃ f, execSsiFrame k frame ns s = whileClocked s f; unfold execSsiFrame; exact ⟨_, rfl⟩
  case portSetTimeout p => show ∃ f, execPortSetTimeout p s = whileClocked s f; unfold execPortSetTimeout; exact ⟨_, rfl⟩
  case blockLockLoss p spare => show ∃ f, execBlockLockLoss p spare s = whileClocked s f; unfold execBlockLockLoss; exact ⟨_, rfl⟩
  case laneFailed p lane errs spare => show ∃ f, execLaneFailed p lane errs spare s = whileClocked s f; unfold execLaneFailed; exact ⟨_, rfl⟩
  case swapRx p => show ∃ f, execSwapRx p s = whileClocked s f; unfold execSwapRx; exact ⟨_, rfl⟩
  case swapAckRx p => show ∃ f, execSwapAckRx p s = whileClocked s f; unfold execSwapAckRx; exact ⟨_, rfl⟩
  case helloSend p => show ∃ f, execHelloSend p s = whileClocked s f; unfold execHelloSend; exact ⟨_, rfl⟩
  case helloRx p addr info rootSerial rootHops size dir => show ∃ f, execHelloRx p addr info rootSerial rootHops size dir s = whileClocked s f; unfold execHelloRx; exact ⟨_, rfl⟩
  case helloMiss p => show ∃ f, execHelloMiss p s = whileClocked s f; unfold execHelloMiss; exact ⟨_, rfl⟩
  case portRetrain p => show ∃ f, execPortRetrain p s = whileClocked s f; unfold execPortRetrain; exact ⟨_, rfl⟩
  case ackFrame p ack cls credits => show ∃ f, execAckFrame p ack cls credits s = whileClocked s f; unfold execAckFrame; exact ⟨_, rfl⟩
  case standaloneAck p => show ∃ f, execStandaloneAck p s = whileClocked s f; unfold execStandaloneAck; exact ⟨_, rfl⟩
  case nakFrame p expected => show ∃ f, execNakFrame p expected s = whileClocked s f; unfold execNakFrame; exact ⟨_, rfl⟩
  case retryTimeout p => show ∃ f, execRetryTimeout p s = whileClocked s f; unfold execRetryTimeout; exact ⟨_, rfl⟩
  case linkDown p => show ∃ f, execLinkDown p s = whileClocked s f; unfold execLinkDown; exact ⟨_, rfl⟩
  case frameDiscarded p reason cls src => show ∃ f, execFrameDiscarded p reason cls src s = whileClocked s f; unfold execFrameDiscarded; exact ⟨_, rfl⟩
  case frameForward p cls ty dst src hops e2e body => show ∃ f, execFrameForward p cls ty dst src hops e2e body s = whileClocked s f; unfold execFrameForward; exact ⟨_, rfl⟩
  case addrReq p serial addr => show ∃ f, execAddrReq p serial addr s = whileClocked s f; unfold execAddrReq; exact ⟨_, rfl⟩
  case addrAssign p serial addr => show ∃ f, execAddrAssign p serial addr s = whileClocked s f; unfold execAddrAssign; exact ⟨_, rfl⟩
  case routeUpdate => show ∃ f, execRouteUpdate s = whileClocked s f; unfold execRouteUpdate; exact ⟨_, rfl⟩
  case routeUpdateRx p metrics => show ∃ f, execRouteUpdateRx p metrics s = whileClocked s f; unfold execRouteUpdateRx; exact ⟨_, rfl⟩
  case routeHoldExpiry a => show ∃ f, execRouteHoldExpiry a s = whileClocked s f; unfold execRouteHoldExpiry; exact ⟨_, rfl⟩
  case e2eAck via src cls next => show ∃ f, execE2eAck via src cls next s = whileClocked s f; unfold execE2eAck; exact ⟨_, rfl⟩
  case e2eResend dst cls => show ∃ f, execE2eResend dst cls s = whileClocked s f; unfold execE2eResend; exact ⟨_, rfl⟩
  case noticeRx via src kind layer time arg => show ∃ f, execNoticeRx via src kind layer time arg s = whileClocked s f; unfold execNoticeRx; exact ⟨_, rfl⟩
  case cmdFwd via src ring packet block => show ∃ f, execCmdFwd via src ring packet block s = whileClocked s f; unfold execCmdFwd; exact ⟨_, rfl⟩
  case cmdDone via src ring tag op status r0 r1 r2 ex time => show ∃ f, execCmdDone via src ring tag op status r0 r1 r2 ex time s = whileClocked s f; unfold execCmdDone; exact ⟨_, rfl⟩
  case cmdFwdTimeout dst ring tag => show ∃ f, execCmdFwdTimeout dst ring tag s = whileClocked s f; unfold execCmdFwdTimeout; exact ⟨_, rfl⟩
  case regRead via src off count => show ∃ f, execRegRead via src off count s = whileClocked s f; unfold execRegRead; exact ⟨_, rfl⟩
  case regWrite via src off vals => show ∃ f, execRegWrite via src off vals s = whileClocked s f; unfold execRegWrite; exact ⟨_, rfl⟩
  case regData via src vals => show ∃ f, execRegData via src vals s = whileClocked s f; unfold execRegData; exact ⟨_, rfl⟩
  case regAck via src => show ∃ f, execRegAck via src s = whileClocked s f; unfold execRegAck; exact ⟨_, rfl⟩
  case regTimeout dst => show ∃ f, execRegTimeout dst s = whileClocked s f; unfold execRegTimeout; exact ⟨_, rfl⟩
  case mbxPost via src n msg => show ∃ f, execMbxPost via src n msg s = whileClocked s f; unfold execMbxPost; exact ⟨_, rfl⟩
  case mbxGoClear via src n kind => show ∃ f, execMbxGoClear via src n kind s = whileClocked s f; unfold execMbxGoClear; exact ⟨_, rfl⟩
  case burnBorder via src layer last cells => show ∃ f, execBurnBorder via src layer last cells s = whileClocked s f; unfold execBurnBorder; exact ⟨_, rfl⟩
  case bulkRec via src offset data => show ∃ f, execBulkRec via src offset data s = whileClocked s f; unfold execBulkRec; exact ⟨_, rfl⟩
  case triggerEdge t rise => show ∃ f, execTriggerEdge t rise s = whileClocked s f; unfold execTriggerEdge; exact ⟨_, rfl⟩
  case syncSend p => show ∃ f, execSyncSend p s = whileClocked s f; unfold execSyncSend; exact ⟨_, rfl⟩
  case syncMsg p domain twoStep origin corr upE rx => show ∃ f, execSyncMsg p domain twoStep origin corr upE rx s = whileClocked s f; unfold execSyncMsg; exact ⟨_, rfl⟩
  case ftmLocked => show ∃ f, execFtmLocked s = whileClocked s f; unfold execFtmLocked; exact ⟨_, rfl⟩
  case announceSend p => show ∃ f, execAnnounceSend p s = whileClocked s f; unfold execAnnounceSend; exact ⟨_, rfl⟩
  case announceRx p domain prio serial steps => show ∃ f, execAnnounceRx p domain prio serial steps s = whileClocked s f; unfold execAnnounceRx; exact ⟨_, rfl⟩
  case announceTimeout => show ∃ f, execAnnounceTimeout s = whileClocked s f; unfold execAnnounceTimeout; exact ⟨_, rfl⟩
  case syncLoss => show ∃ f, execSyncLoss s = whileClocked s f; unfold execSyncLoss; exact ⟨_, rfl⟩
  case holdDownExpiry serial => show ∃ f, execHoldDownExpiry serial s = whileClocked s f; unfold execHoldDownExpiry; exact ⟨_, rfl⟩
  case pdelaySend p => show ∃ f, execPdelaySend p s = whileClocked s f; unfold execPdelaySend; exact ⟨_, rfl⟩
  case pdelayReq p domain turn => show ∃ f, execPdelayReq p domain turn s = whileClocked s f; unfold execPdelayReq; exact ⟨_, rfl⟩
  case pdelayResp p domain t4 turn => show ∃ f, execPdelayResp p domain t4 turn s = whileClocked s f; unfold execPdelayResp; exact ⟨_, rfl⟩
  case pdelayTimeout p => show ∃ f, execPdelayTimeout p s = whileClocked s f; unfold execPdelayTimeout; exact ⟨_, rfl⟩
  case holdoverExcess => show ∃ f, execHoldoverExcess s = whileClocked s f; unfold execHoldoverExcess; exact ⟨_, rfl⟩
  case trainingEnd c result us step lanes => show ∃ f, execTrainingEnd c result us step lanes s = whileClocked s f; unfold execTrainingEnd; exact ⟨_, rfl⟩
  case dramRequest c asks blocked ecc => show ∃ f, execDramRequest c asks blocked ecc s = whileClocked s f; unfold execDramRequest; exact ⟨_, rfl⟩
  case throttleExpiry c => show ∃ f, execThrottleExpiry c s = whileClocked s f; unfold execThrottleExpiry; exact ⟨_, rfl⟩
  case disturbWindow c => show ∃ f, execDisturbWindow c s = whileClocked s f; unfold execDisturbWindow; exact ⟨_, rfl⟩
  case refresh c bank => show ∃ f, execRefresh c bank s = whileClocked s f; unfold execRefresh; exact ⟨_, rfl⟩
  case dramTempRead c hot => show ∃ f, execDramTempRead c hot s = whileClocked s f; unfold execDramTempRead; exact ⟨_, rfl⟩
  case zqCalibration c => show ∃ f, execZqCalibration c s = whileClocked s f; unfold execZqCalibration; exact ⟨_, rfl⟩
  case patrolScrub c ecc => show ∃ f, execPatrolScrub c ecc s = whileClocked s f; unfold execPatrolScrub; exact ⟨_, rfl⟩
  case sramScrub a ecc word who => show ∃ f, execSramScrub a ecc word who s = whileClocked s f; unfold execSramScrub; exact ⟨_, rfl⟩
  case sramRepair m fails => show ∃ f, execSramRepair m fails s = whileClocked s f; unfold execSramRepair; exact ⟨_, rfl⟩
  case descriptorFetch c => show ∃ f, execDescriptorFetch c s = whileClocked s f; unfold execDescriptorFetch; exact ⟨_, rfl⟩
  case dmaBurst landed => show ∃ f, execDmaBurst landed s = whileClocked s f; unfold execDmaBurst; exact ⟨_, rfl⟩
  case busErr kind space addr landed => show ∃ f, execBusErr kind space addr landed s = whileClocked s f; unfold execBusErr; exact ⟨_, rfl⟩
  case codecJobEnd g cause used => show ∃ f, execCodecJobEnd g cause used s = whileClocked s f; unfold execCodecJobEnd; exact ⟨_, rfl⟩
  case recordingFlush => show ∃ f, execRecordingFlush s = whileClocked s f; unfold execRecordingFlush; exact ⟨_, rfl⟩
  case cmpRecReadHi hi => show ∃ f, execCmpRecReadHi hi s = whileClocked s f; unfold execCmpRecReadHi; exact ⟨_, rfl⟩
  case mbxMsgWrite id n r v => show ∃ f, execMbxMsgWrite id n r v s = whileClocked s f; unfold execMbxMsgWrite; exact ⟨_, rfl⟩
  case mbxGoWrite id n v => show ∃ f, execMbxGoWrite id n v s = whileClocked s f; unfold execMbxGoWrite; exact ⟨_, rfl⟩
  case mbxLastRead id n r => show ∃ f, execMbxLastRead id n r s = whileClocked s f; unfold execMbxLastRead; exact ⟨_, rfl⟩
  case mbxTimeout n => show ∃ f, execMbxTimeout n s = whileClocked s f; unfold execMbxTimeout; exact ⟨_, rfl⟩
  case bulkOut data => show ∃ f, execBulkOut data s = whileClocked s f; unfold execBulkOut; exact ⟨_, rfl⟩
  case poolRead off len => show ∃ f, execPoolRead off len s = whileClocked s f; unfold execPoolRead; exact ⟨_, rfl⟩
  case poolWrite off data => show ∃ f, execPoolWrite off data s = whileClocked s f; unfold execPoolWrite; exact ⟨_, rfl⟩
  case usbBusReset removed speed => show ∃ f, execUsbBusReset removed speed s = whileClocked s f; unfold execUsbBusReset; exact ⟨_, rfl⟩
  case panelSample keys plugs counts => show ∃ f, execPanelSample keys plugs counts s = whileClocked s f; unfold execPanelSample; exact ⟨_, rfl⟩
  case patternTick => show ∃ f, execPatternTick s = whileClocked s f; unfold execPatternTick; exact ⟨_, rfl⟩
  case colourReading ok m => show ∃ f, execColourReading ok m s = whileClocked s f; unfold execColourReading; exact ⟨_, rfl⟩
  case ledOnTime c mv => show ∃ f, execLedOnTime c mv s = whileClocked s f; unfold execLedOnTime; exact ⟨_, rfl⟩
  case neighbourRound shorts => show ∃ f, execNeighbourRound shorts s = whileClocked s f; unfold execNeighbourRound; exact ⟨_, rfl⟩
  case faultConditionGone code source => show ∃ f, execFaultConditionGone code source s = whileClocked s f; unfold execFaultConditionGone; exact ⟨_, rfl⟩
  case recoveryTimer cls source => show ∃ f, execRecoveryTimer cls source s = whileClocked s f; unfold execRecoveryTimer; exact ⟨_, rfl⟩
  case conductorWatchdog c cmds => show ∃ f, execConductorWatchdog c cmds s = whileClocked s f; unfold execConductorWatchdog; exact ⟨_, rfl⟩
  case eventDrain => show ∃ f, execEventDrain s = whileClocked s f; unfold execEventDrain; exact ⟨_, rfl⟩
  case evrWindowRead w => show ∃ f, execEvrWindowRead w s = whileClocked s f; unfold execEvrWindowRead; exact ⟨_, rfl⟩
  case engineRemap => show ∃ f, execEngineRemap s = whileClocked s f; unfold execEngineRemap; exact ⟨_, rfl⟩
  case failedEntryFetch n => show ∃ f, execFailedEntryFetch n s = whileClocked s f; unfold execFailedEntryFetch; exact ⟨_, rfl⟩
  case lane0LockTimeout p => show ∃ f, execLane0LockTimeout p s = whileClocked s f; unfold execLane0LockTimeout; exact ⟨_, rfl⟩
  case enczIndex k ns raw => show ∃ f, execEnczIndex k ns raw s = whileClocked s f; unfold execEnczIndex; exact ⟨_, rfl⟩
  case axisResumeStart => show ∃ f, execAxisResumeStart s = whileClocked s f; unfold execAxisResumeStart; exact ⟨_, rfl⟩
  case porNLow => exact Bool.noConfusion hc
  case porNRise => exact Bool.noConfusion hc
  case sysRstNLow => exact Bool.noConfusion hc
  case sysRstNRelease => exact Bool.noConfusion hc
  case brownout => exact Bool.noConfusion hc
  case vddAonUndervoltage => exact Bool.noConfusion hc
  case railSequenceViolation => exact Bool.noConfusion hc
  case perstN => exact Bool.noConfusion hc
  case perstNRelease => exact Bool.noConfusion hc
  case busMasterEnable => exact Bool.noConfusion hc
  case registerWrite => exact Bool.noConfusion hc
  case latchingRead => exact Bool.noConfusion hc
  case bar2Access => exact Bool.noConfusion hc
  case interlockNFall => exact Bool.noConfusion hc
  case interlockNRise => exact Bool.noConfusion hc
  case vddAonFirstRise => exact Bool.noConfusion hc
  case vddCoreRemoval => exact Bool.noConfusion hc
  case thmSample => exact Bool.noConfusion hc

theorem exec_always (c : Instr) (s : State) (hc : unclocked c = true) (h1 : c ≠ .vddAonFirstRise) (h2 : c ≠ .vddCoreRemoval)
    (h3 : ∀ l, c ≠ .thmSample l) : ∃ f, exec c s = always s f := by
  cases c
  case porNLow => show ∃ f, execPorNLow s = always s f; unfold execPorNLow; exact ⟨_, rfl⟩
  case porNRise bootSel fabAddr refclk fails flash => show ∃ f, execPorNRise bootSel fabAddr refclk fails flash s = always s f; unfold execPorNRise; exact ⟨_, rfl⟩
  case sysRstNLow => show ∃ f, execSysRstNLow s = always s f; unfold execSysRstNLow; exact ⟨_, rfl⟩
  case sysRstNRelease fails flash => show ∃ f, execSysRstNRelease fails flash s = always s f; unfold execSysRstNRelease; exact ⟨_, rfl⟩
  case brownout fails flash => show ∃ f, execBrownout fails flash s = always s f; unfold execBrownout; exact ⟨_, rfl⟩
  case vddAonUndervoltage => show ∃ f, execVddAonUndervoltage s = always s f; unfold execVddAonUndervoltage; exact ⟨_, rfl⟩
  case railSequenceViolation group => show ∃ f, execRailSequenceViolation group s = always s f; unfold execRailSequenceViolation; exact ⟨_, rfl⟩
  case perstN => show ∃ f, execPerstN s = always s f; unfold execPerstN; exact ⟨_, rfl⟩
  case busMasterEnable bme d3hot intxDis line bar0 bar2 => show ∃ f, execBusMasterEnable bme d3hot intxDis line bar0 bar2 s = always s f; unfold execBusMasterEnable; exact ⟨_, rfl⟩
  case registerWrite off v full => show ∃ f, execRegisterWrite off v full s = always s f; unfold execRegisterWrite; exact ⟨_, rfl⟩
  case latchingRead off ecc => show ∃ f, execLatchingRead off ecc s = always s f; unfold execLatchingRead; exact ⟨_, rfl⟩
  case bar2Access addr write len data ecc => show ∃ f, execBar2Access addr write len data ecc s = always s f; unfold execBar2Access; exact ⟨_, rfl⟩
  case interlockNFall => show ∃ f, execInterlockNFall s = always s f; unfold execInterlockNFall; exact ⟨_, rfl⟩
  case interlockNRise => show ∃ f, execInterlockNRise s = always s f; unfold execInterlockNRise; exact ⟨_, rfl⟩
  case perstNRelease => show ∃ f, execPerstNRelease s = always s f; unfold execPerstNRelease; exact ⟨_, rfl⟩
  case vddAonFirstRise => exact absurd rfl h1
  case vddCoreRemoval => exact absurd rfl h2
  case thmSample l => exact absurd rfl (h3 l)
  all_goals exact Bool.noConfusion hc

theorem whileClocked_running {s : State} (f : State → State) (h : clocksOff s = false) : whileClocked s f = .next (holding s (f s)) := by
  simp [whileClocked, h]

theorem whileClocked_stopped {s : State} (f : State → State) (h : clocksOff s = true) : whileClocked s f = .next s := by
  simp [whileClocked, h]

/-- What every command but three holds from `s` to `t`. -/
structure Held (s t : State) : Prop where
  queue : t.pending = s.pending
  latch : t.pwr.thermLatch = s.pwr.thermLatch
  trip : t.pins.thermTripN = s.pins.thermTripN
  serial : t.fuses.serial = s.fuses.serial
  key : t.fuses.keyHash = s.fuses.keyHash

theorem held_always {s t : State} {f : State → State} (h : always s f = .next t) : Held s t := by cases h; exact ⟨rfl, rfl, rfl, rfl, rfl⟩

theorem held_clocked {s t : State} {f : State → State} (h : whileClocked s f = .next t) : Held s t := by
  cases hl : clocksOff s
  · rw [whileClocked_running f hl] at h; cases h; exact ⟨rfl, rfl, rfl, rfl, rfl⟩
  · rw [whileClocked_stopped f hl] at h; cases h; exact ⟨rfl, rfl, rfl, rfl, rfl⟩

end Sys2Proof.Laws
end

