-- ==== Sys2Proof/Laws/Host.lean ====
section
/-!
SUPPORT. Register accesses, mailboxes, resets and the host interface: what their operations can change.
-/

namespace Sys2Proof.Laws

open Sys2Proof.Machine

/-! ### Commands that start -/

/-- A command that starts and passes its opcode's checks runs its body. -/
theorem starts_body {s : State} {h : Issue} {c : Instr} {op layout : Nat} {checks : State → List (Bool × Status)} {body : State → State}
    (hs : Starts s h layout) (hp : Spelled s h op c) (hc : ∀ c ∈ checks (accept s h), c.1 = true) :
    whileClocked s (fun s => hostCmd s h c op layout checks body) = .next (holding s (body (accept s h))) := by
  rw [whileClocked_running _ hs.clocked, hostCmd_body hp hs.fence hs.header hs.block hs.local_ hs.length hs.zero hc]

/-- A command that starts and fails a check other than the die ledger's ends with that check's status. -/
theorem starts_fails {s : State} {h : Issue} {c : Instr} {op layout : Nat} {checks : State → List (Bool × Status)} {body : State → State}
    (hs : Starts s h layout) (hp : Spelled s h op c) {st : Status} (hn : st ≠ .noGrant) {k : Bool}
    (hc : (checks (accept s h)).find? (fun c => !c.1) = some (k, st)) :
    whileClocked s (fun s => hostCmd s h c op layout checks body) = .next (holding s (fail (accept s h) h op st)) := by
  rw [whileClocked_running _ hs.clocked, hostCmd_fails hp hs.fence hs.header hs.block hs.local_ hs.length hs.zero hc]
  have : (st == Status.noGrant) = false := by simpa using hn
  simp [this]

/-! ### Plain register accesses -/

/-- Parts of the state that a plain register write changes. -/
abbrev writeParts : List Part := [.regs, .live, .shadow, .dirty]

theorem fieldWrite_same (s : State) (a v : Nat) (g : Bool × Nat × Nat) (f : Field) : Same writeParts s (fieldWrite s a v g f) := by
  unfold fieldWrite; simp only
  split
  · exact Same.refl _ _
  · exact Same.refl _ _
  · exact (setFld_same _ _ _ _ _).mono (by decide)
  · exact (setFld_same _ _ _ _ _).mono (by decide)
  all_goals
    split
    · exact (setFld_same _ _ _ _ _).mono (by decide)
    · split
      · exact (setFld_same _ _ _ _ _).mono (by decide)
      · exact (setFlag_same _ _ _ _).mono (by decide)
    · exact (setLive_same _ _ _ _ _).mono (by decide)
    · exact (setShadow_same _ _ _ _ _ _).mono (by decide)
    · intro q hq; cases q <;> first | rfl | exact absurd (by decide) hq

theorem plainWrite_same (s : State) (a v : Nat) : Same writeParts s (plainWrite s a v) := by
  unfold plainWrite; split
  · exact Same.refl _ _
  · exact Same.foldl _ (fun t f => fieldWrite_same _ _ _ _ _) _ _

theorem plainRead_same (s : State) (a : Nat) : Same [.latched] s (plainRead s a).1 := by
  unfold plainRead; split
  · exact Same.refl _ _
  · intro q hq; cases q <;> first | rfl | exact absurd (by decide) hq

/-- After a thermal shutdown a write of BAR0 is a plain one, or nothing. -/
theorem regWrite_latched (s : State) (id a v : Nat) (h : s.pwr.thermLatch = true) : Same writeParts s (regWrite s id a v) := by
  unfold regWrite; rw [h]; simp only [if_true]
  split
  · exact Same.refl _ _
  · split
    · exact plainWrite_same _ _ _
    · exact Same.refl _ _

theorem regRead_latched (s : State) (id a : Nat) (h : s.pwr.thermLatch = true) : Same [.latched] s (regRead s id a).1 := by
  unfold regRead; rw [h]; simp only [if_true]
  split
  · exact Same.refl _ _
  · split
    · exact plainRead_same _ _
    · exact Same.refl _ _

theorem bar2Put_same (s : State) (a k : Nat) (d : List Byte) : Same [.dram] s (bar2Put s a k d) := by
  induction k generalizing s a d with
  | zero => exact Same.refl _ _
  | succ k ih =>
    rw [bar2Put]
    refine Same.trans ?_ (ih _ _ _)
    split
    · exact putDram_same _ _ _
    · exact Same.refl _ _

theorem liveApply_same (s : State) (e : Nat × Word × Word) : Same [.regs] s (liveApply s e) := by
  unfold liveApply; simp only; split
  · exact (wr_same _ _ _).trans (setFlag_same _ _ _ _)
  · exact wr_same _ _ _

/-! ### Mailboxes -/

theorem setGo_same (s : State) (n : Nat) (b : Bool) : Same [.regs, .mbxDue] s (setGo s n b) := by
  intro q hq; cases q <;> first | rfl | exact absurd (by decide) hq
theorem mbxFlag_same (s : State) (n i : Nat) : Same [.regs] s (mbxFlag s n i) := setFlag_same _ _ _ _

theorem mbxPost_same (s : State) (n l : Nat) : Same [.regs, .fab, .mbxDue] s (mbxPost s n l) := by
  have h : Same [.regs, .fab, .mbxDue] s (setGo (setFld (setFld s (MBX_CH_STS n) 4 1 0) (MBX_CH_GO n) 4 0 l) n true) :=
    (((setFld_same s _ _ _ _).trans (setFld_same _ _ _ _ _)).mono (by decide)).trans ((setGo_same _ _ _).mono (by decide))
  unfold mbxPost; simp only; split
  · exact h.trans ((sendMsg_same _ _ _ _).mono (by decide))
  · exact h

theorem mbxReset_same (s : State) (id : Nat) : Same [.regs, .fab, .mbxDue] s (mbxReset s id) := by
  refine Same.foldl _ (fun t n => ?_) _ _
  split
  · exact Same.refl _ _
  · split
    · have h : Same [.regs, .fab, .mbxDue] t (mbxFlag (setGo t n false) n 4) := ((setGo_same _ _ _).mono (by decide)).trans ((mbxFlag_same _ _ _).mono (by decide))
      simp only
      split
      · exact h.trans ((sendMsg_same _ _ _ _).mono (by decide))
      · exact h
    · split
      · exact ((setGo_same _ _ _).mono (by decide)).trans ((mbxFlag_same _ _ _).mono (by decide))
      · exact Same.refl _ _

theorem mbxWriteMsg_same (s : State) (id n r v : Nat) : Same [.regs] s (mbxWriteMsg s id n r v) := by
  unfold mbxWriteMsg
  split
  · exact Same.refl _ _
  · split
    · exact mbxFlag_same _ _ _
    · split
      · exact mbxFlag_same _ _ _
      · exact wrN_same _ _ _

theorem mbxWriteGo_same (s : State) (id n v : Nat) : Same [.regs, .fab, .mbxDue] s (mbxWriteGo s id n v) := by
  unfold mbxWriteGo; simp only
  repeat' split
  all_goals first
    | exact Same.refl _ _
    | exact (mbxFlag_same _ _ _).mono (by decide)
    | exact mbxPost_same _ _ _

theorem mbxRead_same (s : State) (id n r : Nat) : Same [.regs, .fab, .mbxDue] s (mbxRead s id n r).1 := by
  unfold mbxRead; simp only
  repeat' split
  all_goals first
    | exact Same.refl _ _
    | exact (mbxFlag_same _ _ _).mono (by decide)
    | exact ((setGo_same _ _ _).mono (by decide)).trans ((sendMsg_same _ _ _ _).mono (by decide))
    | exact (setGo_same _ _ _).mono (by decide)

/-! ### The shutter path -/

theorem shutterShow_same (s : State) : Same [.regs] s (shutterShow s) := by
  unfold shutterShow
  refine Same.foldl _ (fun t n => ?_) _ _
  split
  · exact Same.refl _ _
  · exact setFlag_same _ _ _ _

/-! ### Rings and resets -/

theorem voidRing_same (s : State) (n : Nat) : Same [.running, .hif] s (voidRing s n) := by
  intro q hq; cases q <;> first | rfl | exact absurd (by decide) hq

theorem sqRestart_same (s : State) (n : Nat) : Same [.regs, .hif] s (sqRestart s n) := by
  refine Same.trans ?_ ((wrN_same _ _ _).mono (by decide))
  intro q hq; cases q <;> first | rfl | exact absurd (by decide) hq
theorem cqRestart_same (s : State) (n : Nat) : Same [.regs, .hif] s (cqRestart s n) := by
  refine Same.trans ?_ ((wr_same _ _ _).mono (by decide))
  intro q hq; cases q <;> first | rfl | exact absurd (by decide) hq

theorem strapShow_same (s : State) : Same [.regs] s (strapShow s) := by
  unfold strapShow
  simp only
  refine Same.trans ?_ (wrN_same _ _ _)
  refine Same.trans ?_ (wr64_same _ _ _ _)
  refine Same.trans ?_ (wr64_same _ _ _ _)
  refine Same.trans ?_ (setFlag_same _ _ _ _)
  refine Same.trans ?_ (setFld_same _ _ _ _ _)
  refine Same.trans ?_ (setFld_same _ _ _ _ _)
  refine Same.trans ?_ (setFld_same _ _ _ _ _)
  refine Same.trans ?_ (setFld_same _ _ _ _ _)
  refine Same.trans ?_ (setFld_same _ _ _ _ _)
  exact wr64_same _ _ _ _

theorem resetKeep_safe (s : State) (k : Nat → Bool) (d : Nat) (h : Hif) (v : Svc) (t : Thm) :
    (resetKeep s k d h v t).pwr.safe = true ∧ (resetKeep s k d h v t).pins.safeN = false := by
  unfold resetKeep
  simp only
  rw [(shutterShow_same _).pwr, (strapShow_same _).pwr, (shutterShow_same _).pins, (strapShow_same _).pins]
  exact ⟨rfl, rfl⟩

/-- The latch of a thermal shutdown and its pin outlast a reset. -/
theorem resetKeep_latch (s : State) (k : Nat → Bool) (d : Nat) (h : Hif) (v : Svc) (t : Thm) :
    (resetKeep s k d h v t).pwr.thermLatch = s.pwr.thermLatch ∧ (resetKeep s k d h v t).pins.thermTripN = s.pins.thermTripN := by
  unfold resetKeep
  simp only
  rw [(shutterShow_same _).pwr, (strapShow_same _).pwr, (shutterShow_same _).pins, (strapShow_same _).pins]
  exact ⟨rfl, rfl⟩

/-- A reset leaves the device in the safe state. -/
theorem resetPor_safe (s : State) : (resetPor s).pwr.safe = true ∧ (resetPor s).pins.safeN = false := by
  unfold resetPor
  simp only [setFlag_pwr, setFlag_pins]
  exact resetKeep_safe _ _ _ _ _ _

/-- What `resetCore` does after the reset of its registers and units leaves everything else. -/
theorem resetCore_same (s : State) (h : Hif) : let r := [0x10, 0x11, 0x12, 0x13].foldl mbxReset s
    Same [.regs, .mbxDue] (resetKeep r (fun a => aonReg a || svcReg a || a == LEDG_SHUTTER) (r.dirty &&& 2 ^ 15) h
      { r.svc with sq := [] } r.thm) (resetCore s h) := by
  intro r
  unfold resetCore
  simp only
  refine Same.trans ?_ ((strapShow_same _).mono (by decide))
  refine Same.trans ?_ (((wr_same _ _ _).trans (wr_same _ _ _)).mono (by decide))
  refine Same.trans ?_ (Same.foldl _ (fun t p => (setFld_same _ _ _ _ _).mono (by decide)) _ _)
  refine Same.trans ?_ ((setFld_same _ _ _ _ _).mono (by decide))
  intro q hq; cases q <;> first | rfl | exact absurd (by decide) hq

theorem resetCore_safe (s : State) (h : Hif) : (resetCore s h).pwr.safe = true ∧ (resetCore s h).pins.safeN = false := by
  rw [(resetCore_same s h).pwr, (resetCore_same s h).pins]
  exact resetKeep_safe _ _ _ _ _ _

theorem resetCore_latch (s : State) (h : Hif) : (resetCore s h).pwr.thermLatch = s.pwr.thermLatch := by
  rw [(resetCore_same s h).pwr, (resetKeep_latch _ _ _ _ _ _).1, (Same.foldl mbxReset mbxReset_same _ s).pwr]

/-! ### Temperature -/

theorem thmShow_same (s : State) : Same [.regs] s (thmShow s) := by
  unfold thmShow
  exact (((setFld_same s _ _ _ _).trans (setFld_same _ _ _ _ _)).trans (setFlag_same _ _ _ _)).trans (setFlag_same _ _ _ _)
theorem thmFast_same (s : State) : Same [.regs, .thm] s (thmFast s) := by
  unfold thmFast; split
  · refine Same.trans ?_ ((setFlag_same _ _ _ _).mono (by decide))
    intro q hq; cases q <;> first | rfl | exact absurd (by decide) hq
  · split
    · exact Same.refl _ _
    · split
      · intro q hq; cases q <;> first | rfl | exact absurd (by decide) hq
      · refine Same.trans ?_ ((setFlag_same _ _ _ _).mono (by decide))
        intro q hq; cases q <;> first | rfl | exact absurd (by decide) hq
theorem setTemp_same (s : State) (t : Nat) (f : Bool) (v : Int) : Same [.regs] s (setTemp s t f v) :=
  ((setFlag_same s _ _ _).trans (setFlag_same _ _ _ _)).trans (setFld_same _ _ _ _ _)
theorem thmValues_same (s : State) (temps : List Int) : Same [.regs, .thm, .freeCtr] s (thmValues s temps) := by
  unfold thmValues; simp only
  refine Same.trans ?_ ((setFld_same _ _ _ _ _).mono (by decide))
  generalize hx : (List.map _ _ : List (Nat × Int)) = l
  refine Same.trans (t := l.foldl (fun u e => setTemp u e.1 (thmFailed s e.1 || decide (16 ≤ thmStreak s temps e.1)) e.2) (tick1 s)) ?_ ?_
  · exact ((tick1_same s).mono (by decide)).trans (Same.foldl _ (fun t e => (setTemp_same _ _ _ _).mono (by decide)) _ _)
  · intro q hq; cases q <;> first | rfl | exact absurd (by decide) hq

/-- The fall of INTERLOCK_N changes registers, lanes and its pin. -/
theorem interlockFall_same (s : State) : Same [.regs, .lanes] s
    (shutterShow (lanes24.foldl (fun s n => updLane (setFlag (setGate s n false (nowFs s)) (LAS_STS n) 5 false) n
      (fun l => { l with shut := true })) s)) := by
  refine Same.trans ?_ ((shutterShow_same _).mono (by decide))
  refine Same.foldl _ (fun t n => ?_) _ _
  exact ((setGate_same _ _ _ _).trans ((setFlag_same _ _ _ _).mono (by decide))).trans ((updLane_same _ _ _).mono (by decide))

end Sys2Proof.Laws
end

