-- ==== Sys2Proof/Machine/PinLevels.lean ====
section
/-!
DEFINITION. The levels of the output balls (R51, R52): during a reset and while the domain of an output is off its reset state, else what
the state of the block shows between two commands.
-/

namespace Sys2Proof.Machine

/-- The outputs of R51; a differential pair is one output, and so are the balls of a DDR channel other than RESET_N. -/
inductive OutPin where
  | lp (n : Nat)
  | gate (n : Nat)
  | emit (n : Nat)
  | stx (n : Nat)
  | csiScl (q : Nat)
  | csiSda (q : Nat)
  | ddrResetN (c : Nat)
  | ddr (c : Nat)
  | pcieTx (i : Nat)
  | fabTx (p : Nat) (a : Nat)
  | axStep (k : Nat)
  | axDir (k : Nat)
  | axEn (k : Nat)
  | axEncz (k : Nat)
  | xspiClk
  | xspiCsN
  | xspiResetN
  | xspiDq
  | usb
  | tdo
  | touch (i : Nat)
  | led (c : Nat)
  | lsScl
  | lsSda
  | safeN
  | thermTripN
  | trig (t : Nat)
  deriving DecidableEq, Repr

/-- What a ball shows: a level, nothing driven (released, high impedance, off, electrical idle), or traffic of its interface. -/
inductive Level where
  | low
  | high
  | released
  | traffic
  deriving DecidableEq, Repr

/-- A driven level. -/
def Level.of (b : Bool) : Level := if b then .high else .low

/-- The state during reset (R51). -/
def OutPin.resting : OutPin → Level
  | .csiScl _ | .csiSda _ | .ddr _ | .pcieTx _ | .fabTx _ _ | .axEncz _ | .xspiDq | .usb | .tdo | .touch _ | .led _ | .lsScl | .lsSda
  | .thermTripN => .released
  | .xspiCsN => .high
  | _ => .low

/-- The domain of the logic that drives an output (R52). -/
def OutPin.domain : OutPin → Nat
  | .lp n | .gate n | .emit n | .stx n => 2 + quadOf n
  | .csiScl q | .csiSda q => 2 + q
  | .ddrResetN c | .ddr c => 11 + c
  | .fabTx _ _ | .trig _ => 13
  | .thermTripN => 0
  | _ => 1

/-- What an output shows once it is configured. Serial outputs are at rest between two commands: LP at its resting level, a bus released.
STEP rests at its inactive level. XSPI_RESET_N is released once the boot ROM reads the flash or firmware runs. -/
def OutPin.live (s : State) : OutPin → Level
  | .lp n => Level.of (lane s n).lpRest
  | .gate n => Level.of (gateOf s n)
  | .emit n => Level.of (emitOf s n)
  | .stx n => if fld s (SCN_STS n) 1 0 = 0 then .low else .traffic
  | .ddrResetN c => Level.of (chState s c != chUnconfigured)
  | .ddr c => if chState s c = chUnconfigured then .released else .traffic
  | .pcieTx _ => if s.hif.linkUp then .traffic else .released
  | .fabTx p _ => if portSt s p = 0 then .released else .traffic
  | .axStep k => Level.of (flag s (AX_CFG k) 2)
  | .axDir k => Level.of (flag s (AX_STS k) 14)
  | .axEn k => Level.of (flag s (AX_STS k) 15)
  | .axEncz k => if fld s (AX_CFG k) 5 4 = 2 then .high else .released
  | .xspiCsN => .high
  | .xspiResetN => Level.of (fld s PWR_BOOT_STS 3 0 != 0)
  | .usb => if vbus s then .traffic else .released
  | .led c => if fld s (PNL_LED_STS c) 15 0 = 0 then .released else .low
  | .safeN => Level.of s.pins.safeN
  | .thermTripN => if s.pins.thermTripN then .released else .low
  | .trig t => Level.of (s.pins.trig.testBit t)
  | p => p.resting

/-- The level of an output. -/
def pinShow (s : State) (p : OutPin) : Level :=
  match p with
  | .thermTripN => OutPin.live s p
  | _ => if s.pwr.held != 0 || !domOn s p.domain then p.resting else OutPin.live s p

end Sys2Proof.Machine
end

