-- ==== Sys2Proof/WellFormed.lean ====
section
/-!
DEFINITION. Well-formed commands: every operand within the width that its packet field, register, pin or message has.
-/

namespace Sys2Proof

/-- A packet header within its widths (R133, R135, R436): 16 rings, a 32-bit TAG, 16-bit FLAGS, an 8-bit TARGET, seven reserved bytes. -/
def Issue.wf (h : Issue) : Bool :=
  decide (h.ring < 16) && decide (h.tag < 2 ^ 32) && decide (h.flags < 65536) && decide (h.target < 256) &&
  decide (h.rsvd < 2 ^ 56) && decide (h.ptr < 2 ^ 64) && decide (h.ptrLen < 2 ^ 32) &&
  (match h.src with
   | some a => decide (a < 32)
   | none => true) && decide (h.ptrTail < 2 ^ 288)

/-- A number of `k` bits. -/
def natFits (k n : Nat) : Bool := decide (n < 2 ^ k)

/-- A signed number of `k` bits. -/
def intFits (k : Nat) (i : Int) : Bool := decide (-(2 : Int) ^ (k - 1) ≤ i) && decide (i < (2 : Int) ^ (k - 1))

/-- Numbers of `k` bits. -/
def natsFit (k : Nat) (ns : List Nat) : Bool := ns.all (natFits k)

/-- Signed numbers of `k` bits. -/
def intsFit (k : Nat) (is : List Int) : Bool := is.all (intFits k)

/-- A number of `k` bits, where there is one. -/
def optFits (k : Nat) : Option Nat → Bool
  | some n => natFits k n
  | none => true

/-- What a HELLO carries (R427). -/
def DevInfo.wf (d : DevInfo) : Bool := natFits 64 d.serial && natFits 8 d.group && natsFit 8 d.nbrs

/-- A cell of a BURN_BORDER frame (R363, R440). -/
def BorderCell.wf (c : BorderCell) : Bool :=
  natFits 16 c.x && natFits 16 c.y && natFits 32 c.factor && natFits 48 c.pdSum && natFits 32 c.pdCount && natFits 48 c.camSum &&
  natFits 32 c.camCount && decide (c.state < 3)

/-- A DRAM request (R478): eight ports, a device address of 36 bits. -/
def DramAsk.wf (a : DramAsk) : Bool := decide (a.port < 8) && natFits 36 a.addr

/-- Sums of 512 codes of 16 bits (R302). -/
def AfeSums.wf (a : AfeSums) : Bool :=
  decide (a.zaH ≤ 512 * 65535) && decide (a.zaL ≤ 512 * 65535) && decide (a.zbH ≤ 512 * 65535) && decide (a.zbL ≤ 512 * 65535) &&
  decide (a.top < 65536)

/-- The burn map settings of a peer, as its registers hold them (R361, R376). -/
def BurnWin.wf (b : BurnWin) : Bool :=
  intFits 32 b.ox && intFits 32 b.oy && natFits 16 b.cell && natFits 16 b.gw && natFits 16 b.gh && natFits 16 b.x0 && natFits 16 b.y0 &&
  natFits 16 b.w && natFits 16 b.h

/-- A peer at LAYER_ARM (R152): address, rate code and the registers it reports. -/
def PeerArm.wf (p : PeerArm) : Bool :=
  decide (p.addr < 32) && natFits 2 p.rate && natFits 32 p.job && natFits 32 p.flow && natFits 32 p.length && natFits 32 p.half && p.burn.wf

/-- Every operand of the command is within its width. -/
def Instr.wf : Instr → Bool
  | .badOpcode h op => Issue.wf h && natFits 16 op
  | .nop h => Issue.wf h
  | .identify h => Issue.wf h
  | .resetDomain h d => Issue.wf h && natFits 8 d
  | .commit h mask flags => Issue.wf h && natFits 16 mask && natFits 8 flags
  | .readStatus h addr => Issue.wf h && natFits 64 addr
  | .setStatusMirror h addr period => Issue.wf h && natFits 64 addr && natFits 32 period
  | .fwInfo h => Issue.wf h
  | .powerDomain h d st flags => Issue.wf h && natFits 8 d && natFits 8 st && natFits 8 flags
  | .dieLedgerQuery h => Issue.wf h
  | .jobOpen h id_ hb hl db dl => Issue.wf h && natFits 32 id_ && natFits 64 hb && natFits 64 hl && natFits 64 db && natFits 64 dl
  | .jobClose h id_ => Issue.wf h && natFits 32 id_
  | .recipeLoad h first cnt source addr block => Issue.wf h && natFits 16 first && natFits 16 cnt && natFits 8 source && natFits 64 addr && natsFit 8 block
  | .lanesetLoad h first cnt source addr inl block => Issue.wf h && natFits 8 first && natFits 8 cnt && natFits 8 source && natFits 64 addr && natsFit 8 inl && natsFit 8 block
  | .layerLoad h addr layer => Issue.wf h && natFits 64 addr && natFits 32 layer
  | .layerArm h layer peers => Issue.wf h && natFits 32 layer && peers.all PeerArm.wf
  | .layerExpose h layer start => Issue.wf h && natFits 32 layer && natFits 64 start
  | .stopBath h scope => Issue.wf h && natFits 8 scope
  | .resume h layer start => Issue.wf h && natFits 32 layer && natFits 64 start
  | .layerAbort h scope => Issue.wf h && natFits 8 scope
  | .contactSheetRead h layer addr => Issue.wf h && natFits 32 layer && natFits 64 addr
  | .overlapSet h op margin horizon lookahead estP markOvh jumpOvh zone en lx ly nx ny first cnt map_ => Issue.wf h && natFits 8 op && natFits 16 margin && natFits 16 horizon && natFits 16 lookahead && natFits 8 estP && natFits 32 markOvh && natFits 32 jumpOvh && natFits 8 zone && natFits 8 en && intFits 32 lx && intFits 32 ly && intFits 16 nx && intFits 16 ny && natFits 8 first && natFits 8 cnt && natsFit 8 map_
  | .plumeSet h enable depth fx fy length half skip border => Issue.wf h && natFits 8 enable && natFits 8 depth && intFits 16 fx && intFits 16 fy && natFits 32 length && natFits 32 half && natFits 32 skip && natFits 32 border
  | .stitchSet h zone overlap amp => Issue.wf h && natFits 8 zone && natFits 8 overlap && natFits 16 amp
  | .laneConfig h lane_ flags vmark vjump accel jerk zv za zj winXy winZ delay count errs => Issue.wf h && natFits 8 lane_ && natFits 8 flags && natFits 32 vmark && natFits 32 vjump && natFits 32 accel && natFits 32 jerk && natFits 32 zv && natFits 32 za && natFits 32 zj && natFits 16 winXy && natFits 16 winZ && natFits 16 delay && natFits 8 count && natFits 8 errs
  | .enlargerMapLoad h lane_ source addr block => Issue.wf h && natFits 8 lane_ && natFits 8 source && natFits 64 addr && natsFit 8 block
  | .scannerLinkSet h lane_ gen pol => Issue.wf h && natFits 8 lane_ && natFits 8 gen && natFits 8 pol
  | .laneJog h lane_ mode x y z speed => Issue.wf h && natFits 8 lane_ && natFits 8 mode && intFits 32 x && intFits 32 y && intFits 32 z && natFits 32 speed
  | .driftTermsSet h lane_ apply_ mask terms => Issue.wf h && natFits 8 lane_ && natFits 8 apply_ && natFits 8 mask && intsFit 32 terms
  | .laserPortSet h lane_ mode flags filter pfs pmax lead => Issue.wf h && natFits 8 lane_ && natFits 8 mode && natFits 8 flags && natFits 8 filter && natFits 16 pfs && natFits 32 pmax && natFits 16 lead
  | .ledgerSet h budget dpdt stepMax => Issue.wf h && natFits 32 budget && natFits 32 dpdt && natFits 32 stepMax
  | .afeSet h lane_ flags calDelta offSettle satCode darkMin => Issue.wf h && natFits 8 lane_ && natFits 8 flags && natFits 8 calDelta && natFits 8 offSettle && natFits 16 satCode && natFits 16 darkMin
  | .afeCalibrate h lanes inputs mode => Issue.wf h && natFits 32 lanes && natFits 8 inputs && natFits 8 mode
  | .calValuesRead h first cnt addr => Issue.wf h && natFits 8 first && natFits 8 cnt && natFits 64 addr
  | .calValuesWrite h cnt source addr block => Issue.wf h && natFits 8 cnt && natFits 8 source && natFits 64 addr && block.all (fun b => decide (b < 256))
  | .csiPortSet h port lanes rate busMode scl => Issue.wf h && natFits 8 port && natFits 8 lanes && natFits 16 rate && natFits 8 busMode && natFits 16 scl
  | .contextSet h c op nwrites fields items => Issue.wf h && natFits 8 c && natFits 8 op && natFits 8 nwrites && natsFit 32 fields && natsFit 8 items
  | .statsRoute h c lane_ routes metric => Issue.wf h && natFits 8 c && natFits 8 lane_ && natFits 8 routes && natFits 8 metric
  | .loopConfig h lanes lp mask limLo limHi slew flags start hold pdmin => Issue.wf h && natFits 32 lanes && natFits 8 lp && natFits 8 mask && natFits 16 limLo && natFits 16 limHi && natFits 32 slew && natFits 8 flags && natFits 8 start && natFits 16 hold && intFits 32 pdmin
  | .loopCoefWrite h lanes lp mask order kp ki kd kf => Issue.wf h && natFits 32 lanes && natFits 8 lp && natFits 8 mask && natFits 8 order && intFits 32 kp && intFits 32 ki && intFits 32 kd && natFits 16 kf
  | .loopMode h lanes lp mode man flags => Issue.wf h && natFits 32 lanes && natFits 8 lp && natFits 8 mode && natFits 16 man && natFits 8 flags
  | .loopSetpoint h lanes lp op value => Issue.wf h && natFits 32 lanes && natFits 8 lp && natFits 8 op && intFits 32 value
  | .loopRead h lane_ lp => Issue.wf h && natFits 8 lane_ && natFits 8 lp
  | .burnConfig h flags gain weight nMin ox oy cell gw gh x0 y0 w wh => Issue.wf h && natFits 8 flags && natFits 16 gain && natFits 16 weight && natFits 16 nMin && intFits 32 ox && intFits 32 oy && natFits 16 cell && natFits 16 gw && natFits 16 gh && natFits 16 x0 && natFits 16 y0 && natFits 16 w && natFits 16 wh
  | .burnMapLoad h source content addr => Issue.wf h && natFits 8 source && natFits 8 content && natFits 64 addr
  | .burnMapSave h dest addr => Issue.wf h && natFits 8 dest && natFits 64 addr
  | .burnFreeze h op scope => Issue.wf h && natFits 8 op && natFits 8 scope
  | .axisConfig h axis sect vals => Issue.wf h && natFits 8 axis && natFits 8 sect && natsFit 32 vals
  | .axisMove h axis flags target vmax => Issue.wf h && natFits 8 axis && natFits 8 flags && intFits 32 target && natFits 32 vmax
  | .axisHome h axis mode value => Issue.wf h && natFits 8 axis && natFits 8 mode && intFits 32 value
  | .axisStop h mask => Issue.wf h && natFits 8 mask
  | .axisResume h mask flags time => Issue.wf h && natFits 8 mask && natFits 8 flags && natFits 64 time
  | .axisGroupStart h mask flags time => Issue.wf h && natFits 8 mask && natFits 8 flags && natFits 64 time
  | .axisRetarget h axis flags target vmax accel decel => Issue.wf h && natFits 8 axis && natFits 8 flags && intFits 32 target && natFits 32 vmax && natFits 32 accel && natFits 32 decel
  | .fabricPortSet h port mode flags polarity => Issue.wf h && natFits 8 port && natFits 8 mode && natFits 8 flags && natFits 8 polarity
  | .fabricDiscover h op addr => Issue.wf h && natFits 8 op && natFits 64 addr
  | .fabricRouteRead h dest addr => Issue.wf h && natFits 8 dest && natFits 64 addr
  | .plateGroupSet h group => Issue.wf h && natFits 8 group
  | .remoteCommand h op target count off data inner => Issue.wf h && natFits 8 op && natFits 8 target && natFits 8 count && natFits 32 off && natsFit 32 data && (inner.length == 64 || inner.isEmpty)
  | .timeConfig h quality domain ann sync pdelay kp ki rateLim stepThresh lockThresh lockCount limit holdRate invert => Issue.wf h && natFits 8 quality && natFits 8 domain && natFits 8 ann && natFits 8 sync && natFits 8 pdelay && natFits 16 kp && natFits 16 ki && natFits 32 rateLim && natFits 32 stepThresh && natFits 8 lockThresh && natFits 8 lockCount && natFits 16 limit && natFits 16 holdRate && natFits 8 invert
  | .triggerSet h trig op start period width count => Issue.wf h && natFits 8 trig && natFits 8 op && natFits 64 start && natFits 32 period && natFits 32 width && natFits 32 count
  | .ddrTrain h channel => Issue.wf h && natFits 8 channel
  | .ddrConfig h channel type rate ranks module_ width density map scrubHours ageNs actLimit thresh scrubMs => Issue.wf h && natFits 8 channel && natFits 8 type && natFits 16 rate && natFits 8 ranks && natFits 8 module_ && natFits 8 width && natFits 8 density && natFits 8 map && natFits 8 scrubHours && natFits 16 ageNs && natFits 16 actLimit && natFits 8 thresh && natFits 16 scrubMs
  | .dmaChannelSet h channel priority rate => Issue.wf h && natFits 8 channel && natFits 8 priority && natFits 8 rate
  | .dmaStart h channel space addr => Issue.wf h && natFits 8 channel && natFits 8 space && natFits 64 addr
  | .dmaStop h mask => Issue.wf h && natFits 32 mask
  | .compressJob h codec format level rate inSpace outSpace inAddr outAddr inLen outLen => Issue.wf h && natFits 8 codec && natFits 8 format && natFits 8 level && natFits 8 rate && natFits 1 inSpace && natFits 1 outSpace && natFits 64 inAddr && natFits 64 outAddr && natFits 32 inLen && natFits 32 outLen
  | .decompressJob h codec format rate inSpace outSpace inAddr outAddr inLen outLen ratio cap => Issue.wf h && natFits 8 codec && natFits 8 format && natFits 8 rate && natFits 1 inSpace && natFits 1 outSpace && natFits 64 inAddr && natFits 64 outAddr && natFits 32 inLen && natFits 32 outLen && natFits 16 ratio && natFits 32 cap
  | .codecFlush h codec used => Issue.wf h && natFits 8 codec && natFits 32 used
  | .codecResume h codec op rate outSpace outAddr outLen => Issue.wf h && natFits 8 codec && natFits 8 op && natFits 8 rate && natFits 8 outSpace && natFits 64 outAddr && natFits 32 outLen
  | .mbxBind h channel op sender receiver peer timeout => Issue.wf h && natFits 8 channel && natFits 8 op && natFits 8 sender && natFits 8 receiver && natFits 8 peer && natFits 32 timeout
  | .mbxLock h mask => Issue.wf h && natFits 16 mask
  | .panelSet h op channel v0 v1 v2 v3 => Issue.wf h && natFits 8 op && natFits 8 channel && natFits 32 v0 && natFits 32 v1 && natFits 32 v2 && natFits 32 v3
  | .ledPatternLoad h engine_ mode flags nchan list hi lo timeA timeB nsteps _ => Issue.wf h && natFits 8 engine_ && natFits 8 mode && natFits 8 flags && natFits 8 nchan && natsFit 8 list && natFits 16 hi && natFits 16 lo && natFits 16 timeA && natFits 16 timeB && natFits 8 nsteps
  | .ledColourTarget h op red green blue x y luma m gain => Issue.wf h && natFits 8 op && natFits 8 red && natFits 8 green && natFits 8 blue && natFits 16 x && natFits 16 y && natFits 16 luma && intsFit 16 m && natFits 8 gain
  | .ledDiag h op mask shorts => Issue.wf h && natFits 8 op && natFits 32 mask && natFits 31 shorts
  | .faultRead h addr => Issue.wf h && natFits 64 addr
  | .faultClear h op code source mask => Issue.wf h && natFits 8 op && natFits 16 code && natFits 16 source && natFits 64 mask
  | .recorderFreeze h => Issue.wf h
  | .recorderThaw h => Issue.wf h
  | .blackboxRead h op count lanes addr => Issue.wf h && natFits 8 op && natFits 16 count && natFits 32 lanes && natFits 64 addr
  | .laneEngineMap h op lane_ engine value => Issue.wf h && natFits 8 op && natFits 8 lane_ && natFits 8 engine && natFits 8 value
  | .repairScan h banks engines _ tests _ => Issue.wf h && natFits 32 banks && natFits 32 engines && natFits 26 tests
  | .repairFix h op _ => Issue.wf h && natFits 8 op
  | .vddAonFirstRise => true
  | .porNLow => true
  | .porNRise bootSel fabAddr _ _ _ => natFits 2 bootSel && natFits 5 fabAddr
  | .sysRstNLow => true
  | .sysRstNRelease _ _ => true
  | .brownout _ _ => true
  | .vddAonUndervoltage => true
  | .supplyUv rail => natFits 4 rail
  | .railSequenceViolation group => natFits 4 group
  | .vddCoreRemoval => true
  | .perstN => true
  | .busMasterEnable _ _ _ line bar0 bar2 => natFits 8 line && natFits 32 bar0 && natFits 64 bar2
  | .bootChunk v => natFits 32 v
  | .bootFlashTimeout => true
  | .thmSample temps => temps.length == 16 && intsFit 16 temps
  | .domainSwitchDone d => decide (d < 20)
  | .domainResetRelease d => decide (d < 20)
  | .dieLedgerRetry _ => true
  | .registerWrite off v _ => natFits 26 off && natFits 32 v
  | .liveFieldApply => true
  | .offDomainAccess off _ => natFits 26 off
  | .latchingRead off ecc => natFits 26 off && decide (ecc < 3)
  | .apertureWrite off _ => natFits 26 off
  | .bar2Access addr _ len _ ecc => natFits 36 addr && natFits 8 len && natFits 2 ecc
  | .hifSqTail n v => natFits 4 n && natFits 32 v
  | .hifCqHead n v => natFits 4 n && natFits 32 v
  | .ringBaseWrite n reg v => natFits 4 n && decide (reg < 6) && natFits 32 v
  | .sqEnable n _ => natFits 4 n
  | .commandFetch => true
  | .statusMirrorSnapshot => true
  | .commitTakeEffect => true
  | .loadPassEnd badLane badIdx => decide (badLane < 24) && natFits 32 badIdx
  | .refillChunk q bad => decide (q < 6) && optFits 32 bad
  | .layerStart => true
  | .stopBathEffect => true
  | .stopBathEnd => true
  | .stopTimeout => true
  | .resumeStart => true
  | .abortEffect => true
  | .layerDone => true
  | .tickBoundary pds encs late overrun rdy asks => pds.all (fun w => decide (w.lane < 24) && decide (w.input < 2) && decide (w.high.length = 8) && decide (w.low.length = 8) && (w.high ++ w.low).all (fun c => decide (c < 65536))) && encs.all (fun e => decide (e.1 < 8)) && natFits 24 late && natFits 24 overrun && natFits 24 rdy && asks.all (fun a => decide (a.lane < 24) && decide (a.owner < 32) && decide (a.zone < 64) && decide (a.home < 768))
  | .underrunRepeat lane_ => decide (lane_ < 24)
  | .remarkStart lane_ => decide (lane_ < 24)
  | .ledgerGrant => true
  | .estimateSend lanes => natFits 24 lanes
  | .estimateToken via src flags entries => natFits 2 via && natFits 5 src && natFits 8 flags && natsFit 32 entries
  | .estStale => true
  | .claimToken via src zone lane_ e q req => natFits 2 via && natFits 5 src && natFits 6 zone && natFits 10 lane_ && natFits 32 e && natFits 32 q && natFits 64 req
  | .grantToken via src zone seg lane_ req notBefore lo hi split rec_ => natFits 2 via && natFits 5 src && natFits 6 zone && natFits 2 seg && natFits 10 lane_ && natFits 64 req && natFits 64 notBefore && natFits 32 lo && natFits 32 hi && natFits 32 split && natFits 256 rec_
  | .denyToken via src zone lane_ req => natFits 2 via && natFits 5 src && natFits 6 zone && natFits 10 lane_ && natFits 64 req
  | .claimTimeout lane_ => decide (lane_ < 24)
  | .returnToken via src seg lane_ vid resumeAt => natFits 2 via && natFits 5 src && natFits 2 seg && natFits 10 lane_ && natFits 32 vid && natFits 32 resumeAt
  | .doneToken via src seg lane_ vid endTime => natFits 2 via && natFits 5 src && natFits 2 seg && natFits 10 lane_ && natFits 32 vid && natFits 64 endTime
  | .positionToken via src recs => natFits 2 via && natFits 5 src && intsFit 33 recs
  | .peerStale peer => natFits 5 peer
  | .withdrawalEnd => true
  | .scannerLinkTimeout lane_ => decide (lane_ < 24)
  | .jogTargetReached lane_ => decide (lane_ < 24)
  | .jumpRetarget lane_ => decide (lane_ < 24)
  | .driftApply lane_ => decide (lane_ < 24)
  | .driftTimeout lane_ => decide (lane_ < 24)
  | .returnFrame lane_ line => decide (lane_ < 24) && natFits 125 line
  | .returnFrameTimeout lane_ => decide (lane_ < 24)
  | .linkLost lane_ => decide (lane_ < 24)
  | .scanDeviation lane_ => decide (lane_ < 24)
  | .interlockNFall => true
  | .interlockNRise => true
  | .shutterLatchClear => true
  | .almNChange lane_ _ => decide (lane_ < 24)
  | .rdyFall lane_ => decide (lane_ < 24)
  | .calibrationRunStart lane_ => decide (lane_ < 24)
  | .calDeadline lane_ input => decide (lane_ < 24) && decide (input < 2)
  | .calibrationRunEnd lane_ pd0 pd1 => decide (lane_ < 24) && AfeSums.wf pd0 && AfeSums.wf pd1
  | .frameStart port vc csi _ phy ns => decide (port < 6) && natFits 4 vc && natFits 16 csi && natFits 5 phy && natFits 11 ns
  | .longPacket port vc dt hdr _ data phy => decide (port < 6) && natFits 4 vc && natFits 6 dt && natFits 2 hdr && natsFit 16 data && natFits 5 phy
  | .frameEnd port vc _ phy ns => decide (port < 6) && natFits 4 vc && natFits 5 phy && natFits 11 ns
  | .pipelineLine p => natFits 1 p
  | .frameTimeout c => decide (c < 32)
  | .statsRecordReady c => decide (c < 32)
  | .statsDelivery c => decide (c < 32)
  | .sensorWrites c acked => decide (c < 32) && natFits 4 acked
  | .contextWriteTimeout c => decide (c < 32)
  | .loopCoefApply => true
  | .loopHoldLong lane_ lp => decide (lane_ < 24) && natFits 2 lp
  | .burnFill => true
  | .burnUpdate => true
  | .burnBorderTimeout peer => natFits 5 peer
  | .groupStartBoundary => true
  | .axisTargetReached k => natFits 3 k
  | .axisAtRest k => natFits 3 k
  | .homingComplete k => natFits 3 k
  | .homeFail k => natFits 3 k
  | .switchTransition k inp _ ns raw => natFits 3 k && natFits 2 inp && natFits 12 ns && intFits 32 raw
  | .switchDebounce k inp => natFits 3 k && natFits 2 inp
  | .switchChatter k inp => natFits 3 k && natFits 2 inp
  | .stall k => natFits 3 k
  | .encErr k => natFits 3 k
  | .ssiFrame k frame ns => natFits 3 k && natFits 32 frame && natFits 12 ns
  | .portSetTimeout p => natFits 2 p
  | .blockLockLoss p _ => natFits 2 p
  | .laneFailed p lane errs _ => natFits 2 p && natFits 1 lane && natFits 32 errs
  | .swapRx p => natFits 2 p
  | .swapAckRx p => natFits 2 p
  | .helloSend p => natFits 2 p
  | .helloRx p addr info rootSerial rootHops size dir => natFits 2 p && natFits 5 addr && DevInfo.wf info && natFits 64 rootSerial && natFits 5 rootHops && natFits 6 size && dir.all (fun d => natFits 5 d.1 && DevInfo.wf d.2)
  | .helloMiss p => natFits 2 p
  | .portRetrain p => natFits 2 p
  | .ackFrame p ack cls credits => natFits 2 p && natFits 8 ack && natFits 2 cls && natFits 14 credits
  | .standaloneAck p => natFits 2 p
  | .nakFrame p expected => natFits 2 p && natFits 8 expected
  | .retryTimeout p => natFits 2 p
  | .linkDown p => natFits 2 p
  | .frameDiscarded p reason cls src => natFits 2 p && natFits 3 reason && natFits 2 cls && natFits 5 src
  | .frameForward p cls ty dst src hops e2e _ => natFits 2 p && natFits 2 cls && natFits 8 ty && natFits 5 dst && natFits 5 src && natFits 8 hops && optFits 16 e2e
  | .addrReq p serial addr => natFits 2 p && natFits 64 serial && natFits 5 addr
  | .addrAssign p serial addr => natFits 2 p && natFits 64 serial && natFits 5 addr
  | .routeUpdate => true
  | .routeUpdateRx p metrics => natFits 2 p && natsFit 8 metrics
  | .routeHoldExpiry a => natFits 5 a
  | .e2eAck via src cls next => natFits 2 via && natFits 5 src && natFits 2 cls && natFits 16 next
  | .e2eResend dst cls => natFits 5 dst && natFits 2 cls
  | .noticeRx via src kind layer time arg => natFits 2 via && natFits 5 src && natFits 8 kind && natFits 32 layer && natFits 64 time && natFits 32 arg
  | .cmdFwd via src ring packet block => natFits 2 via && natFits 5 src && natFits 4 ring && packet.length == 64 && decide (block.length ≤ 1024)
  | .cmdDone via src ring tag op status r0 r1 r2 ex time => natFits 2 via && natFits 5 src && natFits 4 ring && natFits 32 tag && natFits 16 op && natFits 8 status && natFits 32 r0 && natFits 32 r1 && natFits 32 r2 && natFits 32 ex && natFits 64 time
  | .cmdFwdTimeout dst ring tag => natFits 5 dst && natFits 4 ring && natFits 32 tag
  | .regRead via src off count => natFits 2 via && natFits 5 src && natFits 24 off && decide (1 ≤ count) && decide (count ≤ 8)
  | .regWrite via src off vals => natFits 2 via && natFits 5 src && natFits 24 off && natsFit 32 vals
  | .regData via src vals => natFits 2 via && natFits 5 src && natsFit 32 vals
  | .regAck via src => natFits 2 via && natFits 5 src
  | .regTimeout dst => natFits 5 dst
  | .mbxPost via src n msg => natFits 2 via && natFits 5 src && natFits 4 n && natsFit 32 msg
  | .mbxGoClear via src n kind => natFits 2 via && natFits 5 src && natFits 4 n && natFits 8 kind
  | .burnBorder via src layer _ cells => natFits 2 via && natFits 5 src && natFits 32 layer && cells.all BorderCell.wf
  | .bulkRec via src offset _ => natFits 2 via && natFits 5 src && natFits 64 offset
  | .triggerEdge t _ => natFits 2 t
  | .syncSend p => natFits 2 p
  | .syncMsg p domain _ origin corr upE rx => natFits 2 p && natFits 8 domain && natFits 64 origin && intFits 64 corr && natFits 32 upE && natFits 80 rx
  | .ftmLocked => true
  | .announceSend p => natFits 2 p
  | .announceRx p domain prio serial steps => natFits 2 p && natFits 8 domain && natFits 8 prio && natFits 64 serial && natFits 16 steps
  | .announceTimeout => true
  | .syncLoss => true
  | .holdDownExpiry serial => natFits 64 serial
  | .pdelaySend p => natFits 2 p
  | .pdelayReq p domain turn => natFits 2 p && natFits 8 domain && natFits 32 turn
  | .pdelayResp p domain t4 turn => natFits 2 p && natFits 8 domain && natFits 80 t4 && intFits 64 turn
  | .pdelayTimeout p => natFits 2 p
  | .holdoverExcess => true
  | .trainingEnd c result us step lanes => natFits 1 c && natFits 2 result && natFits 32 us && natFits 8 step && natFits 9 lanes
  | .dramRequest c asks blocked ecc => natFits 1 c && asks.all DramAsk.wf && natsFit 7 blocked && natFits 2 ecc
  | .throttleExpiry c => natFits 1 c
  | .disturbWindow c => natFits 1 c
  | .refresh c bank => natFits 1 c && natFits 2 bank
  | .dramTempRead c hot => natFits 1 c && natFits 2 hot
  | .zqCalibration c => natFits 1 c
  | .patrolScrub c ecc => natFits 1 c && natFits 2 ecc
  | .sramScrub a ecc _ _ => natFits 25 a && natFits 2 ecc
  | .sramRepair m _ => natFits 9 m
  | .descriptorFetch c => natFits 5 c
  | .dmaBurst landed => natsFit 5 landed
  | .busErr kind space addr landed => natFits 4 kind && natFits 2 space && natFits 64 addr && natsFit 5 landed
  | .codecJobEnd g cause used => natFits 1 g && natFits 2 cause && natFits 32 used
  | .recordingFlush => true
  | .cmpRecReadHi hi => natFits 32 hi
  | .mbxMsgWrite id n r v => natFits 8 id && natFits 4 n && natFits 4 r && natFits 32 v
  | .mbxGoWrite id n v => natFits 8 id && natFits 4 n && natFits 32 v
  | .mbxLastRead id n r => natFits 8 id && natFits 4 n && natFits 4 r
  | .mbxTimeout n => natFits 4 n
  | .bulkOut _ => true
  | .poolRead off len => natFits 16 off && natFits 16 len
  | .poolWrite off _ => natFits 16 off
  | .usbBusReset _ speed => natFits 2 speed
  | .panelSample keys plugs counts => natFits 16 keys && natFits 8 plugs && natsFit 16 counts
  | .patternTick => true
  | .colourReading _ m => natsFit 16 m
  | .ledOnTime c mv => natFits 5 c && natFits 16 mv
  | .neighbourRound shorts => natFits 31 shorts
  | .faultConditionGone code source => natFits 16 code && natFits 16 source
  | .recoveryTimer cls source => natFits 3 cls && natFits 16 source
  | .conductorWatchdog c _ => natFits 2 c
  | .eventDrain => true
  | .evrWindowRead w => natFits 9 w
  | .engineRemap => true
  | .perstNRelease => true
  | .failedEntryFetch n => natFits 4 n
  | .lane0LockTimeout p => natFits 2 p
  | .enczIndex k ns raw => natFits 3 k && natFits 12 ns && intFits 32 raw
  | .axisResumeStart => true

end Sys2Proof
end

