-- ==== Sys2Proof/Tests/Slice0.lean ====
section
/-!
SUPPORT. The model's own tests: ill-formed commands, small facts of each command with figures from the spec, and for every statement
a state and operands that meet its hypotheses (`witness_<part>`, clause by clause).
-/

namespace Sys2Proof.Tests

open Sys2Proof.Machine

set_option Elab.async false

/-! ### States -/

/-- `s` with registers written as they are held. -/
def put (s : State) (ws : List (Nat × Nat)) : State := ws.foldl (fun s w => wrN s w.1 w.2) s

/-- A device that runs: booted, out of the safe state, the host link up, ring 0 enabled, channel 0 READY with 1 GiB, port 1 of the
fabric UP, address 3, and 1 ms of fabric time. -/
def dev : State := put
  { State.reset with
    pwr := { Pwr.reset with safe := false }, pins := { Pins.reset with safeN := true }
    hif := { Hif.reset with bme := true, linkUp := true } }
  [(PWR_BOOT_STS, 5), (FTM_TIME_LO, 1000000), (HIF_SQ_CFG 0, 0x8004), (HIF_SQ_STS 0, 1), (DDR_STS, 0x4000), (DDR_CH_CAP 0, 1024),
   (FAB_P_STS 1, 2), (FAB_STS, 3)]

/-- `dev` after a thermal shutdown. -/
def hotDev : State := { dev with pwr := { Pwr.reset with thermLatch := true }, pins := { Pins.reset with thermTripN := false } }

/-- A packet on ring 0 with TAG 7 and no flags. -/
def cmd : Issue := ⟨0, 7, 0, 0, 0, 0, 0, 0, 0, true, none⟩

/-- Whether a packet starts. -/
def starts (s : State) (h : Issue) (layout : Nat) : Bool :=
  !clocksOff s && !fenceHolds s h && headerOk h && !blockFails h && !forwards s h &&
  decide (layout ≤ if Issue.paramPtr h then h.ptrLen else 48) && h.prsvd == 0

theorem starts_of {s : State} {h : Issue} {layout : Nat} (w : starts s h layout = true) : Starts s h layout := by
  unfold starts at w
  simp only [Bool.and_eq_true, Bool.not_eq_true', decide_eq_true_eq, beq_iff_eq] at w
  obtain ⟨⟨⟨⟨⟨⟨a, b⟩, c⟩, d⟩, e⟩, f⟩, g⟩ := w
  exact ⟨a, b, c, d, e, f, g⟩

/-! ### Packets -/

/-- The 64 bytes of the packet of opcode `op` and command `c` under `cmd` (R133). -/
def packetOf (op : Nat) (c : Instr) : List Byte :=
  (paramsOf c).foldl (fun (img : List Byte) p => img.take p.1 ++ p.2.2 ++ img.drop (p.1 + p.2.2.length))
    (leBytes 2 op ++ leBytes 2 0 ++ leBytes 4 7 ++ zeros 56)

/-- `s` with the packet of `c` fetched from ring 0. -/
def spelling (s : State) (op : Nat) (c : Instr) : State := { s with hif := { s.hif with fetched := [⟨0, 7, op, packetOf op c, false⟩] } }

/-- The packet of `c` starts there and spells it. -/
def spells (s : State) (op : Nat) (c : Instr) : Bool := starts (spelling s op c) cmd 48 && packetSays (spelling s op c) cmd op c

/-- What `spells` says, and that `s` is what stands when the packet has been taken up: facts about `accept s cmd` or `s` below are facts about
the state in which the command's conditions are read. -/
theorem spelling_meets {s : State} {op : Nat} {c : Instr} (w : spells s op c = true) (f : s.hif.fetched = []) :
    Starts (spelling s op c) cmd 48 ∧ Spelled (spelling s op c) cmd op c ∧ accept (spelling s op c) cmd = s := by
  unfold spells at w
  rw [Bool.and_eq_true] at w
  refine ⟨starts_of w.1, w.2, ?_⟩
  obtain ⟨_⟩ := s
  simp only [spelling, accept, cmd, takeFirst] at f ⊢
  simp [← f]

/-- Every command of the list starts and is spelled in its state, where nothing else was fetched. -/
def allSpelled (l : List (State × Nat × Instr)) : Bool := l.all (fun p => spells p.1 p.2.1 p.2.2 && p.1.hif.fetched.isEmpty)

/-- The state that a command answers. -/
def next (o : Host.Outcome State Fault Refusal) : State :=
  match o with
  | .next t => t
  | _ => State.reset

/-! ### The block as a whole -/

theorem witness_StepRunsFront : ({ dev with pending := [.porNLow, .nop cmd] }).pending = .porNLow :: [.nop cmd] ∧ dev.pending = [] := by
  decide

theorem witness_StepKeepsThermallySafe : ThermalSafe dev ∧ ThermalSafe hotDev := by
  unfold ThermalSafe; decide

theorem witness_LatchClearsOnlyWithSupply : hotDev.pwr.thermLatch = true ∧ Instr.nop cmd ≠ .vddCoreRemoval ∧ Instr.nop cmd ≠ .vddAonFirstRise := by
  decide

theorem witness_LatchedDeviceStands :
    hotDev.pwr.thermLatch = true ∧ ({ dev with pwr := { dev.pwr with held := 1 } }).pwr.held ≠ 0 ∧ outsideClocks (.nop cmd) = false := by decide

/-- Packets for each order of R137: one that spells another command, one fenced behind a running command, FLAGS 8, a block that could not be
read, an unreachable target, a reachable one, a block too short, a nonzero reserved byte, and one that passes, with checks that fail and that pass. -/
theorem witness_PacketCheckOrder :
    let with_ (s : State) (flags target ptrLen : Nat) (bs : List Byte) : State :=
      { s with hif := { s.hif with fetched := [⟨0, 7, 1, leBytes 2 1 ++ leBytes 2 flags ++ leBytes 4 7 ++ leBytes 1 target ++ zeros 15 ++ leBytes 4 ptrLen ++ bs, false⟩] } }
    let there := put dev [(FAB_ROUTE 9, 0x80000001)]
    packetSays dev cmd 1 (.nop cmd) = false ∧
    fenceHolds { dev with running := [⟨0x0901, ⟨0, 6, none⟩, 0, false, [], 0⟩] } { cmd with flags := 1 } = true ∧
    (let h := { cmd with flags := 8 }; let s := with_ dev 8 0 0 (zeros 36)
     packetSays s h 1 (.nop h) = true ∧ fenceHolds s h = false ∧ headerOk h = false) ∧
    (let h := { cmd with flags := 4, ptrLen := 64, readOk := false }; let s := with_ dev 4 0 64 (zeros 36)
     packetSays s h 1 (.nop h) = true ∧ fenceHolds s h = false ∧ headerOk h = true ∧ blockFails h = true) ∧
    (let h := { cmd with flags := 2, target := 9 }
     packetSays (with_ dev 2 9 0 (zeros 36)) h 1 (.nop h) = true ∧ headerOk h = true ∧ blockFails h = false ∧
     (forwards (with_ dev 2 9 0 (zeros 36)) h && 1 != 0x0805) = true ∧ reachable (accept dev h) h.target = false ∧
     packetSays (with_ there 2 9 0 (zeros 36)) h 1 (.nop h) = true ∧ reachable (accept there h) h.target = true) ∧
    (packetSays (with_ dev 0 0 0 (zeros 36)) cmd 1 (.nop cmd) = true ∧ (forwards dev cmd && 1 != 0x0805) = false ∧ 48 < 112) ∧
    (let h := { cmd with prsvd := 1 }; let s := with_ dev 0 0 0 (zeros 35 ++ [1])
     packetSays s h 1 (.nop h) = true ∧ headerOk h = true ∧ h.prsvd ≠ 0) ∧
    ((([(false, .busy)] : List (Bool × Status)).find? (fun c => !c.1)).map (·.2) = some .busy ∧ ([] : List (Bool × Status)).all (·.1) = true) := by
  decide +kernel

/-! ### The host interface -/

theorem witness_CompletionGoesToIssuer :
    let gone := { dev with hif := { dev.hif with voided := [(0, 7)] } }
    (cmd.src = none ∧ voided gone cmd = true) ∧ voided dev cmd = false ∧ ({ cmd with src := some 5 }).src = some 5 := by decide

/-- The last slot of a ring, and one before it. -/
theorem witness_CompletionTakesSlot :
    let full := put dev [(HIF_CQ_TAIL 0, 0x100F)]
    (fld full (HIF_CQ_TAIL 0) 11 0 < cqSize full 0 ∧ fld full (HIF_CQ_TAIL 0) 11 0 + 1 = cqSize full 0) ∧
    fld dev (HIF_CQ_TAIL 0) 11 0 < cqSize dev 0 := by decide +kernel

theorem witness_WritesWaitForBusMaster :
    canRequest { dev with hif := { dev.hif with bme := false } } = false ∧ canRequest { dev with hif := { dev.hif with d3hot := true } } = false ∧
    canRequest { dev with hif := { dev.hif with perst := true } } = false := by decide

/-- Tail values at both sides of the ring's size. -/
theorem witness_SubmissionDoorbell : Clocked dev ∧ 0 < 15 ∧ 15 % 4096 < sqSize dev 0 ∧ sqSize dev 0 ≤ 16 % 4096 := by decide +kernel

/-- Two completions written: the host may return two, not three, and no index of 16. -/
theorem witness_CompletionDoorbell :
    let s := put dev [(HIF_CQ_TAIL 0, 0x1002)]
    Clocked s ∧ (2 % 4096 < cqSize s 0 ∧ (2 % 4096 + cqSize s 0 - cqHead s 0) % cqSize s 0 ≤ (fld s (HIF_CQ_TAIL 0) 11 0 + cqSize s 0 - cqHead s 0) % cqSize s 0) ∧
    (fld s (HIF_CQ_TAIL 0) 11 0 + cqSize s 0 - cqHead s 0) % cqSize s 0 < (3 % 4096 + cqSize s 0 - cqHead s 0) % cqSize s 0 ∧
    cqSize s 0 ≤ 16 % 4096 := by decide +kernel

theorem witness_RingBaseRestarts : ringIdle dev 1 = true ∧ ringIdle dev 0 = false ∧ 0x1000 < 2 ^ 32 := by decide +kernel

/-- A command in ring 0. -/
def oneCmd : State := { dev with hif := { dev.hif with sqTail := [(0, 1)] } }

theorem witness_FetchTakesOne :
    (Clocked oneCmd ∧ serves oneCmd = true ∧ nextRing oneCmd = some 0 ∧ fld oneCmd (HIF_SQ_STS 0) 24 16 < 256) ∧ nextRing dev = none := by
  decide +kernel

theorem witness_FetchNeedsRoom : nextRing oneCmd = some 0 ∧ 0 < 15 ∧ 256 ≤ outstandingAll (put oneCmd [(HIF_SQ_STS 0, 0x1000001)]) := by
  decide +kernel

theorem witness_FailedFetchStopsRing : serves oneCmd = true ∧ canFetch oneCmd 0 = true := by decide +kernel

theorem witness_LinkAndBusMaster : (true && !false && !dev.hif.perst) = true ∧ (false && !false && !dev.hif.perst) = false := by decide

theorem witness_SystemReports :
    allSpelled [(dev, 0x0001, .nop cmd), (dev, 0x0002, .identify cmd), (dev, 0x0007, .fwInfo cmd), (dev, 0x0009, .dieLedgerQuery cmd)] = true ∧
    (let s := spelling dev 0 (.nop cmd)
     starts s cmd 48 = true ∧ nextStart s cmd = some (packetOf 0 (.nop cmd), []) ∧ headerSays cmd 0 (packetOf 0 (.nop cmd)) = true ∧
     opcodeKnown 0 = false) := by decide +kernel

theorem witness_StatusCommands :
    allSpelled [(dev, 0x0005, .readStatus cmd 0), (dev, 0x0005, .readStatus cmd 64), (dev, 0x0006, .setStatusMirror cmd 4096 0),
      (dev, 0x0006, .setStatusMirror cmd 4096 10), (dev, 0x0006, .setStatusMirror cmd 0 100000)] = true ∧ cmd.ring ≠ 15 := by decide +kernel

theorem witness_SnapshotWrites : canRequest dev = true ∧ dev.hif.held = [] := by decide

/-- A snapshot due at the present boundary, and one due 1 ns after it, with requests allowed and held back. -/
theorem witness_MirrorSnapshot :
    let on (due : Nat) : State := { dev with hif := { dev.hif with mirrorPeriod := 10, mirrorAddr := 4096, mirrorDue := due } }
    let off := { on 1000000 with hif := { (on 1000000).hif with bme := false } }
    Clocked (on 0) ∧ (on 0).hif.mirrorPeriod ≠ 0 ∧ now (on 1000001) < (on 1000001).hif.mirrorDue ∧
    ((on 1000000).hif.mirrorDue ≤ now (on 1000000) ∧ canRequest (on 1000000) = true) ∧ (off.hif.mirrorDue ≤ now off ∧ canRequest off = false) := by
  decide +kernel

theorem witness_MirrorLayout : 2 ^ 32 - 1 < 2 ^ 32 ∧ dev.seq.lastLayer < 2 ^ 32 := by decide

/-- `dev` with a pending setting of the axes' group: SOFT limits of axis 0. -/
def staged : State := setShadow dev 9 (AX_SOFT_MAX 0) 31 0 1000

/-- The capture of group 9 and of group 14. -/
def captured (g a v : Nat) (check : Bool) : State :=
  { dev with capture := some (⟨0, 7, none⟩, 2 ^ g, check, [(a, BitVec.ofNat 32 v)]) }

theorem witness_CommitCaptures :
    let busy := captured 14 PNL_LED_CFG 0 false
    allSpelled [(dev, 0x0004, .commit cmd 0 1), (staged, 0x0004, .commit cmd (2 ^ 9) 1), (staged, 0x0004, .commit cmd (2 ^ 16 - 1) 0),
      (busy, 0x0004, .commit cmd 1 0)] = true ∧
    (accept staged cmd).capture = none ∧ (accept staged cmd).running.any (fun r => r.op == 0x0004) = false ∧ (accept busy cmd).capture ≠ none := by
  decide +kernel

/-! ### Ill-formed commands: for each row its zero operands, and each operand alone out of its range -/

/-- The first command is well formed and none of the others is. -/
def onlyFirst (p : Instr × List Instr) : Bool := p.1.wf && p.2.all (fun i => !i.wf)

/-- A header with each field alone out of its range. -/
theorem test_issue_ill_formed :
    Issue.wf cmd = true ∧
    [({ cmd with ring := 16 } : Issue), { cmd with tag := 2 ^ 32 }, { cmd with flags := 65536 }, { cmd with target := 256 }, { cmd with rsvd := 2 ^ 56 },
     { cmd with ptr := 2 ^ 64 }, { cmd with ptrLen := 2 ^ 32 }, { cmd with ptrTail := 2 ^ 288 }, { cmd with src := some 32 }].all
      (fun h => !Issue.wf h) = true := by decide +kernel

theorem test_ill_formed_0 : ([
    (.badOpcode cmd 0, [.badOpcode { cmd with ring := 16 } 0, .badOpcode cmd (2 ^ 16)]),
    (.nop cmd, [.nop { cmd with ring := 16 }]),
    (.identify cmd, [.identify { cmd with ring := 16 }]),
    (.resetDomain cmd 0, [.resetDomain { cmd with ring := 16 } 0, .resetDomain cmd (2 ^ 8)]),
    (.commit cmd 0 0, [.commit { cmd with ring := 16 } 0 0, .commit cmd (2 ^ 16) 0, .commit cmd 0 (2 ^ 8)]),
    (.readStatus cmd 0, [.readStatus { cmd with ring := 16 } 0, .readStatus cmd (2 ^ 64)]),
    (.setStatusMirror cmd 0 0, [.setStatusMirror { cmd with ring := 16 } 0 0, .setStatusMirror cmd (2 ^ 64) 0, .setStatusMirror cmd 0 (2 ^ 32)]),
    (.fwInfo cmd, [.fwInfo { cmd with ring := 16 }]),
    (.powerDomain cmd 0 0 0, [.powerDomain { cmd with ring := 16 } 0 0 0, .powerDomain cmd (2 ^ 8) 0 0, .powerDomain cmd 0 (2 ^ 8) 0, .powerDomain cmd
      0 0 (2 ^ 8)]),
    (.dieLedgerQuery cmd, [.dieLedgerQuery { cmd with ring := 16 }]),
    (.jobOpen cmd 0 0 0 0 0, [.jobOpen { cmd with ring := 16 } 0 0 0 0 0, .jobOpen cmd (2 ^ 32) 0 0 0 0, .jobOpen cmd 0 (2 ^ 64) 0 0 0, .jobOpen cmd 0
      0 (2 ^ 64) 0 0, .jobOpen cmd 0 0 0 (2 ^ 64) 0, .jobOpen cmd 0 0 0 0 (2 ^ 64)]),
    (.jobClose cmd 0, [.jobClose { cmd with ring := 16 } 0, .jobClose cmd (2 ^ 32)])] :
    List (Instr × List Instr)).all onlyFirst = true := by decide +kernel

theorem test_ill_formed_1 : ([
    (.recipeLoad cmd 0 0 0 0 [], [.recipeLoad { cmd with ring := 16 } 0 0 0 0 [], .recipeLoad cmd (2 ^ 16) 0 0 0 [], .recipeLoad cmd 0 (2 ^ 16) 0 0
      [], .recipeLoad cmd 0 0 (2 ^ 8) 0 [], .recipeLoad cmd 0 0 0 (2 ^ 64) [], .recipeLoad cmd 0 0 0 0 [2 ^ 8]]),
    (.lanesetLoad cmd 0 0 0 0 [] [], [.lanesetLoad { cmd with ring := 16 } 0 0 0 0 [] [], .lanesetLoad cmd (2 ^ 8) 0 0 0 [] [], .lanesetLoad cmd 0 (2
      ^ 8) 0 0 [] [], .lanesetLoad cmd 0 0 (2 ^ 8) 0 [] [], .lanesetLoad cmd 0 0 0 (2 ^ 64) [] [], .lanesetLoad cmd 0 0 0 0 [2 ^ 8] [], .lanesetLoad
      cmd 0 0 0 0 [] [2 ^ 8]]),
    (.layerLoad cmd 0 0, [.layerLoad { cmd with ring := 16 } 0 0, .layerLoad cmd (2 ^ 64) 0, .layerLoad cmd 0 (2 ^ 32)]),
    (.layerArm cmd 0 [], [.layerArm { cmd with ring := 16 } 0 [], .layerArm cmd (2 ^ 32) [], .layerArm cmd 0 [⟨32, 0, 0, true, 0, 0, 0, ⟨true, 0, 0,
      0, 0, 0, 0, 0, 0, 0⟩⟩], .layerArm cmd 0 [⟨0, 4, 0, true, 0, 0, 0, ⟨true, 0, 0, 0, 0, 0, 0, 0, 0, 0⟩⟩], .layerArm cmd 0 [⟨0, 0, 2 ^ 32, true, 0,
      0, 0, ⟨true, 0, 0, 0, 0, 0, 0, 0, 0, 0⟩⟩], .layerArm cmd 0 [⟨0, 0, 0, true, 2 ^ 32, 0, 0, ⟨true, 0, 0, 0, 0, 0, 0, 0, 0, 0⟩⟩], .layerArm cmd 0
      [⟨0, 0, 0, true, 0, 2 ^ 32, 0, ⟨true, 0, 0, 0, 0, 0, 0, 0, 0, 0⟩⟩], .layerArm cmd 0 [⟨0, 0, 0, true, 0, 0, 2 ^ 32, ⟨true, 0, 0, 0, 0, 0, 0, 0,
      0, 0⟩⟩], .layerArm cmd 0 [⟨0, 0, 0, true, 0, 0, 0, ⟨true, 2 ^ 31, 0, 0, 0, 0, 0, 0, 0, 0⟩⟩], .layerArm cmd 0 [⟨0, 0, 0, true, 0, 0, 0, ⟨true, 0,
      2 ^ 31, 0, 0, 0, 0, 0, 0, 0⟩⟩], .layerArm cmd 0 [⟨0, 0, 0, true, 0, 0, 0, ⟨true, 0, 0, 65536, 0, 0, 0, 0, 0, 0⟩⟩], .layerArm cmd 0 [⟨0, 0, 0,
      true, 0, 0, 0, ⟨true, 0, 0, 0, 65536, 0, 0, 0, 0, 0⟩⟩], .layerArm cmd 0 [⟨0, 0, 0, true, 0, 0, 0, ⟨true, 0, 0, 0, 0, 65536, 0, 0, 0, 0⟩⟩],
      .layerArm cmd 0 [⟨0, 0, 0, true, 0, 0, 0, ⟨true, 0, 0, 0, 0, 0, 65536, 0, 0, 0⟩⟩], .layerArm cmd 0 [⟨0, 0, 0, true, 0, 0, 0, ⟨true, 0, 0, 0, 0,
      0, 0, 65536, 0, 0⟩⟩], .layerArm cmd 0 [⟨0, 0, 0, true, 0, 0, 0, ⟨true, 0, 0, 0, 0, 0, 0, 0, 65536, 0⟩⟩], .layerArm cmd 0 [⟨0, 0, 0, true, 0, 0,
      0, ⟨true, 0, 0, 0, 0, 0, 0, 0, 0, 65536⟩⟩]]),
    (.layerExpose cmd 0 0, [.layerExpose { cmd with ring := 16 } 0 0, .layerExpose cmd (2 ^ 32) 0, .layerExpose cmd 0 (2 ^ 64)]),
    (.stopBath cmd 0, [.stopBath { cmd with ring := 16 } 0, .stopBath cmd (2 ^ 8)]),
    (.resume cmd 0 0, [.resume { cmd with ring := 16 } 0 0, .resume cmd (2 ^ 32) 0, .resume cmd 0 (2 ^ 64)]),
    (.layerAbort cmd 0, [.layerAbort { cmd with ring := 16 } 0, .layerAbort cmd (2 ^ 8)]),
    (.contactSheetRead cmd 0 0, [.contactSheetRead { cmd with ring := 16 } 0 0, .contactSheetRead cmd (2 ^ 32) 0, .contactSheetRead cmd 0 (2 ^ 64)]),
    (.overlapSet cmd 0 0 0 0 0 0 0 0 0 0 0 0 0 0 0 [], [.overlapSet { cmd with ring := 16 } 0 0 0 0 0 0 0 0 0 0 0 0 0 0 0 [], .overlapSet cmd (2 ^ 8)
      0 0 0 0 0 0 0 0 0 0 0 0 0 0 [], .overlapSet cmd 0 (2 ^ 16) 0 0 0 0 0 0 0 0 0 0 0 0 0 [], .overlapSet cmd 0 0 (2 ^ 16) 0 0 0 0 0 0 0 0 0 0 0 0
      [], .overlapSet cmd 0 0 0 (2 ^ 16) 0 0 0 0 0 0 0 0 0 0 0 [], .overlapSet cmd 0 0 0 0 (2 ^ 8) 0 0 0 0 0 0 0 0 0 0 [], .overlapSet cmd 0 0 0 0 0
      (2 ^ 32) 0 0 0 0 0 0 0 0 0 [], .overlapSet cmd 0 0 0 0 0 0 (2 ^ 32) 0 0 0 0 0 0 0 0 [], .overlapSet cmd 0 0 0 0 0 0 0 (2 ^ 8) 0 0 0 0 0 0 0 [],
      .overlapSet cmd 0 0 0 0 0 0 0 0 (2 ^ 8) 0 0 0 0 0 0 [], .overlapSet cmd 0 0 0 0 0 0 0 0 0 (2 ^ 31) 0 0 0 0 0 [], .overlapSet cmd 0 0 0 0 0 0 0 0
      0 (-(2 ^ 31) - 1) 0 0 0 0 0 [], .overlapSet cmd 0 0 0 0 0 0 0 0 0 0 (2 ^ 31) 0 0 0 0 [], .overlapSet cmd 0 0 0 0 0 0 0 0 0 0 (-(2 ^ 31) - 1) 0 0
      0 0 [], .overlapSet cmd 0 0 0 0 0 0 0 0 0 0 0 (2 ^ 15) 0 0 0 [], .overlapSet cmd 0 0 0 0 0 0 0 0 0 0 0 (-(2 ^ 15) - 1) 0 0 0 [], .overlapSet cmd
      0 0 0 0 0 0 0 0 0 0 0 0 (2 ^ 15) 0 0 [], .overlapSet cmd 0 0 0 0 0 0 0 0 0 0 0 0 (-(2 ^ 15) - 1) 0 0 [], .overlapSet cmd 0 0 0 0 0 0 0 0 0 0 0 0
      0 (2 ^ 8) 0 [], .overlapSet cmd 0 0 0 0 0 0 0 0 0 0 0 0 0 0 (2 ^ 8) [], .overlapSet cmd 0 0 0 0 0 0 0 0 0 0 0 0 0 0 0 [2 ^ 8]]),
    (.plumeSet cmd 0 0 0 0 0 0 0 0, [.plumeSet { cmd with ring := 16 } 0 0 0 0 0 0 0 0, .plumeSet cmd (2 ^ 8) 0 0 0 0 0 0 0, .plumeSet cmd 0 (2 ^ 8) 0
      0 0 0 0 0, .plumeSet cmd 0 0 (2 ^ 15) 0 0 0 0 0, .plumeSet cmd 0 0 (-(2 ^ 15) - 1) 0 0 0 0 0, .plumeSet cmd 0 0 0 (2 ^ 15) 0 0 0 0, .plumeSet
      cmd 0 0 0 (-(2 ^ 15) - 1) 0 0 0 0, .plumeSet cmd 0 0 0 0 (2 ^ 32) 0 0 0, .plumeSet cmd 0 0 0 0 0 (2 ^ 32) 0 0, .plumeSet cmd 0 0 0 0 0 0 (2 ^
      32) 0, .plumeSet cmd 0 0 0 0 0 0 0 (2 ^ 32)]),
    (.stitchSet cmd 0 0 0, [.stitchSet { cmd with ring := 16 } 0 0 0, .stitchSet cmd (2 ^ 8) 0 0, .stitchSet cmd 0 (2 ^ 8) 0, .stitchSet cmd 0 0 (2 ^
      16)])] :
    List (Instr × List Instr)).all onlyFirst = true := by decide +kernel

theorem test_ill_formed_2 : ([
    (.laneConfig cmd 0 0 0 0 0 0 0 0 0 0 0 0 0 0, [.laneConfig { cmd with ring := 16 } 0 0 0 0 0 0 0 0 0 0 0 0 0 0, .laneConfig cmd (2 ^ 8) 0 0 0 0 0
      0 0 0 0 0 0 0 0, .laneConfig cmd 0 (2 ^ 8) 0 0 0 0 0 0 0 0 0 0 0 0, .laneConfig cmd 0 0 (2 ^ 32) 0 0 0 0 0 0 0 0 0 0 0, .laneConfig cmd 0 0 0 (2
      ^ 32) 0 0 0 0 0 0 0 0 0 0, .laneConfig cmd 0 0 0 0 (2 ^ 32) 0 0 0 0 0 0 0 0 0, .laneConfig cmd 0 0 0 0 0 (2 ^ 32) 0 0 0 0 0 0 0 0, .laneConfig
      cmd 0 0 0 0 0 0 (2 ^ 32) 0 0 0 0 0 0 0, .laneConfig cmd 0 0 0 0 0 0 0 (2 ^ 32) 0 0 0 0 0 0, .laneConfig cmd 0 0 0 0 0 0 0 0 (2 ^ 32) 0 0 0 0 0,
      .laneConfig cmd 0 0 0 0 0 0 0 0 0 (2 ^ 16) 0 0 0 0, .laneConfig cmd 0 0 0 0 0 0 0 0 0 0 (2 ^ 16) 0 0 0, .laneConfig cmd 0 0 0 0 0 0 0 0 0 0 0 (2
      ^ 16) 0 0, .laneConfig cmd 0 0 0 0 0 0 0 0 0 0 0 0 (2 ^ 8) 0, .laneConfig cmd 0 0 0 0 0 0 0 0 0 0 0 0 0 (2 ^ 8)]),
    (.enlargerMapLoad cmd 0 0 0 [], [.enlargerMapLoad { cmd with ring := 16 } 0 0 0 [], .enlargerMapLoad cmd (2 ^ 8) 0 0 [], .enlargerMapLoad cmd 0 (2
      ^ 8) 0 [], .enlargerMapLoad cmd 0 0 (2 ^ 64) [], .enlargerMapLoad cmd 0 0 0 [2 ^ 8]]),
    (.scannerLinkSet cmd 0 0 0, [.scannerLinkSet { cmd with ring := 16 } 0 0 0, .scannerLinkSet cmd (2 ^ 8) 0 0, .scannerLinkSet cmd 0 (2 ^ 8) 0,
      .scannerLinkSet cmd 0 0 (2 ^ 8)]),
    (.laneJog cmd 0 0 0 0 0 0, [.laneJog { cmd with ring := 16 } 0 0 0 0 0 0, .laneJog cmd (2 ^ 8) 0 0 0 0 0, .laneJog cmd 0 (2 ^ 8) 0 0 0 0, .laneJog
      cmd 0 0 (2 ^ 31) 0 0 0, .laneJog cmd 0 0 (-(2 ^ 31) - 1) 0 0 0, .laneJog cmd 0 0 0 (2 ^ 31) 0 0, .laneJog cmd 0 0 0 (-(2 ^ 31) - 1) 0 0,
      .laneJog cmd 0 0 0 0 (2 ^ 31) 0, .laneJog cmd 0 0 0 0 (-(2 ^ 31) - 1) 0, .laneJog cmd 0 0 0 0 0 (2 ^ 32)]),
    (.driftTermsSet cmd 0 0 0 [], [.driftTermsSet { cmd with ring := 16 } 0 0 0 [], .driftTermsSet cmd (2 ^ 8) 0 0 [], .driftTermsSet cmd 0 (2 ^ 8) 0
      [], .driftTermsSet cmd 0 0 (2 ^ 8) [], .driftTermsSet cmd 0 0 0 [2 ^ 31]]),
    (.laserPortSet cmd 0 0 0 0 0 0 0, [.laserPortSet { cmd with ring := 16 } 0 0 0 0 0 0 0, .laserPortSet cmd (2 ^ 8) 0 0 0 0 0 0, .laserPortSet cmd 0
      (2 ^ 8) 0 0 0 0 0, .laserPortSet cmd 0 0 (2 ^ 8) 0 0 0 0, .laserPortSet cmd 0 0 0 (2 ^ 8) 0 0 0, .laserPortSet cmd 0 0 0 0 (2 ^ 16) 0 0,
      .laserPortSet cmd 0 0 0 0 0 (2 ^ 32) 0, .laserPortSet cmd 0 0 0 0 0 0 (2 ^ 16)]),
    (.ledgerSet cmd 0 0 0, [.ledgerSet { cmd with ring := 16 } 0 0 0, .ledgerSet cmd (2 ^ 32) 0 0, .ledgerSet cmd 0 (2 ^ 32) 0, .ledgerSet cmd 0 0 (2
      ^ 32)]),
    (.afeSet cmd 0 0 0 0 0 0, [.afeSet { cmd with ring := 16 } 0 0 0 0 0 0, .afeSet cmd (2 ^ 8) 0 0 0 0 0, .afeSet cmd 0 (2 ^ 8) 0 0 0 0, .afeSet cmd
      0 0 (2 ^ 8) 0 0 0, .afeSet cmd 0 0 0 (2 ^ 8) 0 0, .afeSet cmd 0 0 0 0 (2 ^ 16) 0, .afeSet cmd 0 0 0 0 0 (2 ^ 16)]),
    (.afeCalibrate cmd 0 0 0, [.afeCalibrate { cmd with ring := 16 } 0 0 0, .afeCalibrate cmd (2 ^ 32) 0 0, .afeCalibrate cmd 0 (2 ^ 8) 0,
      .afeCalibrate cmd 0 0 (2 ^ 8)]),
    (.calValuesRead cmd 0 0 0, [.calValuesRead { cmd with ring := 16 } 0 0 0, .calValuesRead cmd (2 ^ 8) 0 0, .calValuesRead cmd 0 (2 ^ 8) 0,
      .calValuesRead cmd 0 0 (2 ^ 64)]),
    (.calValuesWrite cmd 0 0 0 [], [.calValuesWrite { cmd with ring := 16 } 0 0 0 [], .calValuesWrite cmd (2 ^ 8) 0 0 [], .calValuesWrite cmd 0 (2 ^
      8) 0 [], .calValuesWrite cmd 0 0 (2 ^ 64) [], .calValuesWrite cmd 0 0 0 [256]]),
    (.csiPortSet cmd 0 0 0 0 0, [.csiPortSet { cmd with ring := 16 } 0 0 0 0 0, .csiPortSet cmd (2 ^ 8) 0 0 0 0, .csiPortSet cmd 0 (2 ^ 8) 0 0 0,
      .csiPortSet cmd 0 0 (2 ^ 16) 0 0, .csiPortSet cmd 0 0 0 (2 ^ 8) 0, .csiPortSet cmd 0 0 0 0 (2 ^ 16)])] :
    List (Instr × List Instr)).all onlyFirst = true := by decide +kernel

theorem test_ill_formed_3 : ([
    (.contextSet cmd 0 0 0 [] [], [.contextSet { cmd with ring := 16 } 0 0 0 [] [], .contextSet cmd (2 ^ 8) 0 0 [] [], .contextSet cmd 0 (2 ^ 8) 0 []
      [], .contextSet cmd 0 0 (2 ^ 8) [] [], .contextSet cmd 0 0 0 [2 ^ 32] [], .contextSet cmd 0 0 0 [] [2 ^ 8]]),
    (.statsRoute cmd 0 0 0 0, [.statsRoute { cmd with ring := 16 } 0 0 0 0, .statsRoute cmd (2 ^ 8) 0 0 0, .statsRoute cmd 0 (2 ^ 8) 0 0, .statsRoute
      cmd 0 0 (2 ^ 8) 0, .statsRoute cmd 0 0 0 (2 ^ 8)]),
    (.loopConfig cmd 0 0 0 0 0 0 0 0 0 0, [.loopConfig { cmd with ring := 16 } 0 0 0 0 0 0 0 0 0 0, .loopConfig cmd (2 ^ 32) 0 0 0 0 0 0 0 0 0,
      .loopConfig cmd 0 (2 ^ 8) 0 0 0 0 0 0 0 0, .loopConfig cmd 0 0 (2 ^ 8) 0 0 0 0 0 0 0, .loopConfig cmd 0 0 0 (2 ^ 16) 0 0 0 0 0 0, .loopConfig
      cmd 0 0 0 0 (2 ^ 16) 0 0 0 0 0, .loopConfig cmd 0 0 0 0 0 (2 ^ 32) 0 0 0 0, .loopConfig cmd 0 0 0 0 0 0 (2 ^ 8) 0 0 0, .loopConfig cmd 0 0 0 0 0
      0 0 (2 ^ 8) 0 0, .loopConfig cmd 0 0 0 0 0 0 0 0 (2 ^ 16) 0, .loopConfig cmd 0 0 0 0 0 0 0 0 0 (2 ^ 31), .loopConfig cmd 0 0 0 0 0 0 0 0 0 (-(2
      ^ 31) - 1)]),
    (.loopCoefWrite cmd 0 0 0 0 0 0 0 0, [.loopCoefWrite { cmd with ring := 16 } 0 0 0 0 0 0 0 0, .loopCoefWrite cmd (2 ^ 32) 0 0 0 0 0 0 0,
      .loopCoefWrite cmd 0 (2 ^ 8) 0 0 0 0 0 0, .loopCoefWrite cmd 0 0 (2 ^ 8) 0 0 0 0 0, .loopCoefWrite cmd 0 0 0 (2 ^ 8) 0 0 0 0, .loopCoefWrite cmd
      0 0 0 0 (2 ^ 31) 0 0 0, .loopCoefWrite cmd 0 0 0 0 (-(2 ^ 31) - 1) 0 0 0, .loopCoefWrite cmd 0 0 0 0 0 (2 ^ 31) 0 0, .loopCoefWrite cmd 0 0 0 0
      0 (-(2 ^ 31) - 1) 0 0, .loopCoefWrite cmd 0 0 0 0 0 0 (2 ^ 31) 0, .loopCoefWrite cmd 0 0 0 0 0 0 (-(2 ^ 31) - 1) 0, .loopCoefWrite cmd 0 0 0 0 0
      0 0 (2 ^ 16)]),
    (.loopMode cmd 0 0 0 0 0, [.loopMode { cmd with ring := 16 } 0 0 0 0 0, .loopMode cmd (2 ^ 32) 0 0 0 0, .loopMode cmd 0 (2 ^ 8) 0 0 0, .loopMode
      cmd 0 0 (2 ^ 8) 0 0, .loopMode cmd 0 0 0 (2 ^ 16) 0, .loopMode cmd 0 0 0 0 (2 ^ 8)]),
    (.loopSetpoint cmd 0 0 0 0, [.loopSetpoint { cmd with ring := 16 } 0 0 0 0, .loopSetpoint cmd (2 ^ 32) 0 0 0, .loopSetpoint cmd 0 (2 ^ 8) 0 0,
      .loopSetpoint cmd 0 0 (2 ^ 8) 0, .loopSetpoint cmd 0 0 0 (2 ^ 31), .loopSetpoint cmd 0 0 0 (-(2 ^ 31) - 1)]),
    (.loopRead cmd 0 0, [.loopRead { cmd with ring := 16 } 0 0, .loopRead cmd (2 ^ 8) 0, .loopRead cmd 0 (2 ^ 8)]),
    (.burnConfig cmd 0 0 0 0 0 0 0 0 0 0 0 0 0, [.burnConfig { cmd with ring := 16 } 0 0 0 0 0 0 0 0 0 0 0 0 0, .burnConfig cmd (2 ^ 8) 0 0 0 0 0 0 0
      0 0 0 0 0, .burnConfig cmd 0 (2 ^ 16) 0 0 0 0 0 0 0 0 0 0 0, .burnConfig cmd 0 0 (2 ^ 16) 0 0 0 0 0 0 0 0 0 0, .burnConfig cmd 0 0 0 (2 ^ 16) 0
      0 0 0 0 0 0 0 0, .burnConfig cmd 0 0 0 0 (2 ^ 31) 0 0 0 0 0 0 0 0, .burnConfig cmd 0 0 0 0 (-(2 ^ 31) - 1) 0 0 0 0 0 0 0 0, .burnConfig cmd 0 0
      0 0 0 (2 ^ 31) 0 0 0 0 0 0 0, .burnConfig cmd 0 0 0 0 0 (-(2 ^ 31) - 1) 0 0 0 0 0 0 0, .burnConfig cmd 0 0 0 0 0 0 (2 ^ 16) 0 0 0 0 0 0,
      .burnConfig cmd 0 0 0 0 0 0 0 (2 ^ 16) 0 0 0 0 0, .burnConfig cmd 0 0 0 0 0 0 0 0 (2 ^ 16) 0 0 0 0, .burnConfig cmd 0 0 0 0 0 0 0 0 0 (2 ^ 16) 0
      0 0, .burnConfig cmd 0 0 0 0 0 0 0 0 0 0 (2 ^ 16) 0 0, .burnConfig cmd 0 0 0 0 0 0 0 0 0 0 0 (2 ^ 16) 0, .burnConfig cmd 0 0 0 0 0 0 0 0 0 0 0 0
      (2 ^ 16)]),
    (.burnMapLoad cmd 0 0 0, [.burnMapLoad { cmd with ring := 16 } 0 0 0, .burnMapLoad cmd (2 ^ 8) 0 0, .burnMapLoad cmd 0 (2 ^ 8) 0, .burnMapLoad cmd
      0 0 (2 ^ 64)]),
    (.burnMapSave cmd 0 0, [.burnMapSave { cmd with ring := 16 } 0 0, .burnMapSave cmd (2 ^ 8) 0, .burnMapSave cmd 0 (2 ^ 64)]),
    (.burnFreeze cmd 0 0, [.burnFreeze { cmd with ring := 16 } 0 0, .burnFreeze cmd (2 ^ 8) 0, .burnFreeze cmd 0 (2 ^ 8)]),
    (.axisConfig cmd 0 0 [], [.axisConfig { cmd with ring := 16 } 0 0 [], .axisConfig cmd (2 ^ 8) 0 [], .axisConfig cmd 0 (2 ^ 8) [], .axisConfig cmd
      0 0 [2 ^ 32]])] :
    List (Instr × List Instr)).all onlyFirst = true := by decide +kernel

theorem test_ill_formed_4 : ([
    (.axisMove cmd 0 0 0 0, [.axisMove { cmd with ring := 16 } 0 0 0 0, .axisMove cmd (2 ^ 8) 0 0 0, .axisMove cmd 0 (2 ^ 8) 0 0, .axisMove cmd 0 0 (2
      ^ 31) 0, .axisMove cmd 0 0 (-(2 ^ 31) - 1) 0, .axisMove cmd 0 0 0 (2 ^ 32)]),
    (.axisHome cmd 0 0 0, [.axisHome { cmd with ring := 16 } 0 0 0, .axisHome cmd (2 ^ 8) 0 0, .axisHome cmd 0 (2 ^ 8) 0, .axisHome cmd 0 0 (2 ^ 31),
      .axisHome cmd 0 0 (-(2 ^ 31) - 1)]),
    (.axisStop cmd 0, [.axisStop { cmd with ring := 16 } 0, .axisStop cmd (2 ^ 8)]),
    (.axisResume cmd 0 0 0, [.axisResume { cmd with ring := 16 } 0 0 0, .axisResume cmd (2 ^ 8) 0 0, .axisResume cmd 0 (2 ^ 8) 0, .axisResume cmd 0 0
      (2 ^ 64)]),
    (.axisGroupStart cmd 0 0 0, [.axisGroupStart { cmd with ring := 16 } 0 0 0, .axisGroupStart cmd (2 ^ 8) 0 0, .axisGroupStart cmd 0 (2 ^ 8) 0,
      .axisGroupStart cmd 0 0 (2 ^ 64)]),
    (.axisRetarget cmd 0 0 0 0 0 0, [.axisRetarget { cmd with ring := 16 } 0 0 0 0 0 0, .axisRetarget cmd (2 ^ 8) 0 0 0 0 0, .axisRetarget cmd 0 (2 ^
      8) 0 0 0 0, .axisRetarget cmd 0 0 (2 ^ 31) 0 0 0, .axisRetarget cmd 0 0 (-(2 ^ 31) - 1) 0 0 0, .axisRetarget cmd 0 0 0 (2 ^ 32) 0 0,
      .axisRetarget cmd 0 0 0 0 (2 ^ 32) 0, .axisRetarget cmd 0 0 0 0 0 (2 ^ 32)]),
    (.fabricPortSet cmd 0 0 0 0, [.fabricPortSet { cmd with ring := 16 } 0 0 0 0, .fabricPortSet cmd (2 ^ 8) 0 0 0, .fabricPortSet cmd 0 (2 ^ 8) 0 0,
      .fabricPortSet cmd 0 0 (2 ^ 8) 0, .fabricPortSet cmd 0 0 0 (2 ^ 8)]),
    (.fabricDiscover cmd 0 0, [.fabricDiscover { cmd with ring := 16 } 0 0, .fabricDiscover cmd (2 ^ 8) 0, .fabricDiscover cmd 0 (2 ^ 64)]),
    (.fabricRouteRead cmd 0 0, [.fabricRouteRead { cmd with ring := 16 } 0 0, .fabricRouteRead cmd (2 ^ 8) 0, .fabricRouteRead cmd 0 (2 ^ 64)]),
    (.plateGroupSet cmd 0, [.plateGroupSet { cmd with ring := 16 } 0, .plateGroupSet cmd (2 ^ 8)]),
    (.remoteCommand cmd 0 0 0 0 [] [], [.remoteCommand { cmd with ring := 16 } 0 0 0 0 [] [], .remoteCommand cmd (2 ^ 8) 0 0 0 [] [], .remoteCommand
      cmd 0 (2 ^ 8) 0 0 [] [], .remoteCommand cmd 0 0 (2 ^ 8) 0 [] [], .remoteCommand cmd 0 0 0 (2 ^ 32) [] [], .remoteCommand cmd 0 0 0 0 [2 ^ 32]
      [], .remoteCommand cmd 0 0 0 0 [] [0]]),
    (.timeConfig cmd 0 0 0 0 0 0 0 0 0 0 0 0 0 0, [.timeConfig { cmd with ring := 16 } 0 0 0 0 0 0 0 0 0 0 0 0 0 0, .timeConfig cmd (2 ^ 8) 0 0 0 0 0
      0 0 0 0 0 0 0 0, .timeConfig cmd 0 (2 ^ 8) 0 0 0 0 0 0 0 0 0 0 0 0, .timeConfig cmd 0 0 (2 ^ 8) 0 0 0 0 0 0 0 0 0 0 0, .timeConfig cmd 0 0 0 (2
      ^ 8) 0 0 0 0 0 0 0 0 0 0, .timeConfig cmd 0 0 0 0 (2 ^ 8) 0 0 0 0 0 0 0 0 0, .timeConfig cmd 0 0 0 0 0 (2 ^ 16) 0 0 0 0 0 0 0 0, .timeConfig cmd
      0 0 0 0 0 0 (2 ^ 16) 0 0 0 0 0 0 0, .timeConfig cmd 0 0 0 0 0 0 0 (2 ^ 32) 0 0 0 0 0 0, .timeConfig cmd 0 0 0 0 0 0 0 0 (2 ^ 32) 0 0 0 0 0,
      .timeConfig cmd 0 0 0 0 0 0 0 0 0 (2 ^ 8) 0 0 0 0, .timeConfig cmd 0 0 0 0 0 0 0 0 0 0 (2 ^ 8) 0 0 0, .timeConfig cmd 0 0 0 0 0 0 0 0 0 0 0 (2 ^
      16) 0 0, .timeConfig cmd 0 0 0 0 0 0 0 0 0 0 0 0 (2 ^ 16) 0, .timeConfig cmd 0 0 0 0 0 0 0 0 0 0 0 0 0 (2 ^ 8)])] :
    List (Instr × List Instr)).all onlyFirst = true := by decide +kernel

theorem test_ill_formed_5 : ([
    (.triggerSet cmd 0 0 0 0 0 0, [.triggerSet { cmd with ring := 16 } 0 0 0 0 0 0, .triggerSet cmd (2 ^ 8) 0 0 0 0 0, .triggerSet cmd 0 (2 ^ 8) 0 0 0
      0, .triggerSet cmd 0 0 (2 ^ 64) 0 0 0, .triggerSet cmd 0 0 0 (2 ^ 32) 0 0, .triggerSet cmd 0 0 0 0 (2 ^ 32) 0, .triggerSet cmd 0 0 0 0 0 (2 ^
      32)]),
    (.ddrTrain cmd 0, [.ddrTrain { cmd with ring := 16 } 0, .ddrTrain cmd (2 ^ 8)]),
    (.ddrConfig cmd 0 0 0 0 0 0 0 0 0 0 0 0 0, [.ddrConfig { cmd with ring := 16 } 0 0 0 0 0 0 0 0 0 0 0 0 0, .ddrConfig cmd (2 ^ 8) 0 0 0 0 0 0 0 0 0
      0 0 0, .ddrConfig cmd 0 (2 ^ 8) 0 0 0 0 0 0 0 0 0 0 0, .ddrConfig cmd 0 0 (2 ^ 16) 0 0 0 0 0 0 0 0 0 0, .ddrConfig cmd 0 0 0 (2 ^ 8) 0 0 0 0 0 0
      0 0 0, .ddrConfig cmd 0 0 0 0 (2 ^ 8) 0 0 0 0 0 0 0 0, .ddrConfig cmd 0 0 0 0 0 (2 ^ 8) 0 0 0 0 0 0 0, .ddrConfig cmd 0 0 0 0 0 0 (2 ^ 8) 0 0 0
      0 0 0, .ddrConfig cmd 0 0 0 0 0 0 0 (2 ^ 8) 0 0 0 0 0, .ddrConfig cmd 0 0 0 0 0 0 0 0 (2 ^ 8) 0 0 0 0, .ddrConfig cmd 0 0 0 0 0 0 0 0 0 (2 ^ 16)
      0 0 0, .ddrConfig cmd 0 0 0 0 0 0 0 0 0 0 (2 ^ 16) 0 0, .ddrConfig cmd 0 0 0 0 0 0 0 0 0 0 0 (2 ^ 8) 0, .ddrConfig cmd 0 0 0 0 0 0 0 0 0 0 0 0
      (2 ^ 16)]),
    (.dmaChannelSet cmd 0 0 0, [.dmaChannelSet { cmd with ring := 16 } 0 0 0, .dmaChannelSet cmd (2 ^ 8) 0 0, .dmaChannelSet cmd 0 (2 ^ 8) 0,
      .dmaChannelSet cmd 0 0 (2 ^ 8)]),
    (.dmaStart cmd 0 0 0, [.dmaStart { cmd with ring := 16 } 0 0 0, .dmaStart cmd (2 ^ 8) 0 0, .dmaStart cmd 0 (2 ^ 8) 0, .dmaStart cmd 0 0 (2 ^
      64)]),
    (.dmaStop cmd 0, [.dmaStop { cmd with ring := 16 } 0, .dmaStop cmd (2 ^ 32)]),
    (.compressJob cmd 0 0 0 0 0 0 0 0 0 0, [.compressJob { cmd with ring := 16 } 0 0 0 0 0 0 0 0 0 0, .compressJob cmd (2 ^ 8) 0 0 0 0 0 0 0 0 0,
      .compressJob cmd 0 (2 ^ 8) 0 0 0 0 0 0 0 0, .compressJob cmd 0 0 (2 ^ 8) 0 0 0 0 0 0 0, .compressJob cmd 0 0 0 (2 ^ 8) 0 0 0 0 0 0, .compressJob
      cmd 0 0 0 0 (2 ^ 1) 0 0 0 0 0, .compressJob cmd 0 0 0 0 0 (2 ^ 1) 0 0 0 0, .compressJob cmd 0 0 0 0 0 0 (2 ^ 64) 0 0 0, .compressJob cmd 0 0 0 0
      0 0 0 (2 ^ 64) 0 0, .compressJob cmd 0 0 0 0 0 0 0 0 (2 ^ 32) 0, .compressJob cmd 0 0 0 0 0 0 0 0 0 (2 ^ 32)]),
    (.decompressJob cmd 0 0 0 0 0 0 0 0 0 0 0, [.decompressJob { cmd with ring := 16 } 0 0 0 0 0 0 0 0 0 0 0, .decompressJob cmd (2 ^ 8) 0 0 0 0 0 0 0
      0 0 0, .decompressJob cmd 0 (2 ^ 8) 0 0 0 0 0 0 0 0 0, .decompressJob cmd 0 0 (2 ^ 8) 0 0 0 0 0 0 0 0, .decompressJob cmd 0 0 0 (2 ^ 1) 0 0 0 0
      0 0 0, .decompressJob cmd 0 0 0 0 (2 ^ 1) 0 0 0 0 0 0, .decompressJob cmd 0 0 0 0 0 (2 ^ 64) 0 0 0 0 0, .decompressJob cmd 0 0 0 0 0 0 (2 ^ 64)
      0 0 0 0, .decompressJob cmd 0 0 0 0 0 0 0 (2 ^ 32) 0 0 0, .decompressJob cmd 0 0 0 0 0 0 0 0 (2 ^ 32) 0 0, .decompressJob cmd 0 0 0 0 0 0 0 0 0
      (2 ^ 16) 0, .decompressJob cmd 0 0 0 0 0 0 0 0 0 0 (2 ^ 32)]),
    (.codecFlush cmd 0 0, [.codecFlush { cmd with ring := 16 } 0 0, .codecFlush cmd (2 ^ 8) 0, .codecFlush cmd 0 (2 ^ 32)]),
    (.codecResume cmd 0 0 0 0 0 0, [.codecResume { cmd with ring := 16 } 0 0 0 0 0 0, .codecResume cmd (2 ^ 8) 0 0 0 0 0, .codecResume cmd 0 (2 ^ 8) 0
      0 0 0, .codecResume cmd 0 0 (2 ^ 8) 0 0 0, .codecResume cmd 0 0 0 (2 ^ 8) 0 0, .codecResume cmd 0 0 0 0 (2 ^ 64) 0, .codecResume cmd 0 0 0 0 0
      (2 ^ 32)]),
    (.mbxBind cmd 0 0 0 0 0 0, [.mbxBind { cmd with ring := 16 } 0 0 0 0 0 0, .mbxBind cmd (2 ^ 8) 0 0 0 0 0, .mbxBind cmd 0 (2 ^ 8) 0 0 0 0, .mbxBind
      cmd 0 0 (2 ^ 8) 0 0 0, .mbxBind cmd 0 0 0 (2 ^ 8) 0 0, .mbxBind cmd 0 0 0 0 (2 ^ 8) 0, .mbxBind cmd 0 0 0 0 0 (2 ^ 32)]),
    (.mbxLock cmd 0, [.mbxLock { cmd with ring := 16 } 0, .mbxLock cmd (2 ^ 16)])] :
    List (Instr × List Instr)).all onlyFirst = true := by decide +kernel

theorem test_ill_formed_6 : ([
    (.panelSet cmd 0 0 0 0 0 0, [.panelSet { cmd with ring := 16 } 0 0 0 0 0 0, .panelSet cmd (2 ^ 8) 0 0 0 0 0, .panelSet cmd 0 (2 ^ 8) 0 0 0 0,
      .panelSet cmd 0 0 (2 ^ 32) 0 0 0, .panelSet cmd 0 0 0 (2 ^ 32) 0 0, .panelSet cmd 0 0 0 0 (2 ^ 32) 0, .panelSet cmd 0 0 0 0 0 (2 ^ 32)]),
    (.ledPatternLoad cmd 0 0 0 0 [] 0 0 0 0 0 [], [.ledPatternLoad { cmd with ring := 16 } 0 0 0 0 [] 0 0 0 0 0 [], .ledPatternLoad cmd (2 ^ 8) 0 0 0
      [] 0 0 0 0 0 [], .ledPatternLoad cmd 0 (2 ^ 8) 0 0 [] 0 0 0 0 0 [], .ledPatternLoad cmd 0 0 (2 ^ 8) 0 [] 0 0 0 0 0 [], .ledPatternLoad cmd 0 0 0
      (2 ^ 8) [] 0 0 0 0 0 [], .ledPatternLoad cmd 0 0 0 0 [2 ^ 8] 0 0 0 0 0 [], .ledPatternLoad cmd 0 0 0 0 [] (2 ^ 16) 0 0 0 0 [], .ledPatternLoad
      cmd 0 0 0 0 [] 0 (2 ^ 16) 0 0 0 [], .ledPatternLoad cmd 0 0 0 0 [] 0 0 (2 ^ 16) 0 0 [], .ledPatternLoad cmd 0 0 0 0 [] 0 0 0 (2 ^ 16) 0 [],
      .ledPatternLoad cmd 0 0 0 0 [] 0 0 0 0 (2 ^ 8) []]),
    (.ledColourTarget cmd 0 0 0 0 0 0 0 [] 0, [.ledColourTarget { cmd with ring := 16 } 0 0 0 0 0 0 0 [] 0, .ledColourTarget cmd (2 ^ 8) 0 0 0 0 0 0
      [] 0, .ledColourTarget cmd 0 (2 ^ 8) 0 0 0 0 0 [] 0, .ledColourTarget cmd 0 0 (2 ^ 8) 0 0 0 0 [] 0, .ledColourTarget cmd 0 0 0 (2 ^ 8) 0 0 0 []
      0, .ledColourTarget cmd 0 0 0 0 (2 ^ 16) 0 0 [] 0, .ledColourTarget cmd 0 0 0 0 0 (2 ^ 16) 0 [] 0, .ledColourTarget cmd 0 0 0 0 0 0 (2 ^ 16) []
      0, .ledColourTarget cmd 0 0 0 0 0 0 0 [2 ^ 15] 0, .ledColourTarget cmd 0 0 0 0 0 0 0 [] (2 ^ 8)]),
    (.ledDiag cmd 0 0 0, [.ledDiag { cmd with ring := 16 } 0 0 0, .ledDiag cmd (2 ^ 8) 0 0, .ledDiag cmd 0 (2 ^ 32) 0, .ledDiag cmd 0 0 (2 ^ 31)]),
    (.faultRead cmd 0, [.faultRead { cmd with ring := 16 } 0, .faultRead cmd (2 ^ 64)]),
    (.faultClear cmd 0 0 0 0, [.faultClear { cmd with ring := 16 } 0 0 0 0, .faultClear cmd (2 ^ 8) 0 0 0, .faultClear cmd 0 (2 ^ 16) 0 0, .faultClear
      cmd 0 0 (2 ^ 16) 0, .faultClear cmd 0 0 0 (2 ^ 64)]),
    (.recorderFreeze cmd, [.recorderFreeze { cmd with ring := 16 }]),
    (.recorderThaw cmd, [.recorderThaw { cmd with ring := 16 }]),
    (.blackboxRead cmd 0 0 0 0, [.blackboxRead { cmd with ring := 16 } 0 0 0 0, .blackboxRead cmd (2 ^ 8) 0 0 0, .blackboxRead cmd 0 (2 ^ 16) 0 0,
      .blackboxRead cmd 0 0 (2 ^ 32) 0, .blackboxRead cmd 0 0 0 (2 ^ 64)]),
    (.laneEngineMap cmd 0 0 0 0, [.laneEngineMap { cmd with ring := 16 } 0 0 0 0, .laneEngineMap cmd (2 ^ 8) 0 0 0, .laneEngineMap cmd 0 (2 ^ 8) 0 0,
      .laneEngineMap cmd 0 0 (2 ^ 8) 0, .laneEngineMap cmd 0 0 0 (2 ^ 8)]),
    (.repairScan cmd 0 0 [] 0 none, [.repairScan { cmd with ring := 16 } 0 0 [] 0 none, .repairScan cmd (2 ^ 32) 0 [] 0 none, .repairScan cmd 0 (2 ^
      32) [] 0 none, .repairScan cmd 0 0 [] (2 ^ 26) none]),
    (.repairFix cmd 0 none, [.repairFix { cmd with ring := 16 } 0 none, .repairFix cmd (2 ^ 8) none])] :
    List (Instr × List Instr)).all onlyFirst = true := by decide +kernel

theorem test_ill_formed_7 : ([
    (.porNRise 0 0 false [] none, [.porNRise (2 ^ 2) 0 false [] none, .porNRise 0 (2 ^ 5) false [] none]),
    (.supplyUv 0, [.supplyUv (2 ^ 4)]),
    (.railSequenceViolation 0, [.railSequenceViolation (2 ^ 4)]),
    (.busMasterEnable false false false 0 0 0, [.busMasterEnable false false false (2 ^ 8) 0 0, .busMasterEnable false false false 0 (2 ^ 32) 0,
      .busMasterEnable false false false 0 0 (2 ^ 64)]),
    (.bootChunk 0, [.bootChunk (2 ^ 32)]),
    (.thmSample [0, 0, 0, 0, 0, 0, 0, 0, 0, 0, 0, 0, 0, 0, 0, 0], [.thmSample [], .thmSample [2 ^ 15, 0, 0, 0, 0, 0, 0, 0, 0, 0, 0, 0, 0, 0, 0, 0]]),
    (.domainSwitchDone 0, [.domainSwitchDone 20]),
    (.domainResetRelease 0, [.domainResetRelease 20]),
    (.registerWrite 0 0 false, [.registerWrite (2 ^ 26) 0 false, .registerWrite 0 (2 ^ 32) false]),
    (.offDomainAccess 0 false, [.offDomainAccess (2 ^ 26) false]),
    (.latchingRead 0 0, [.latchingRead (2 ^ 26) 0, .latchingRead 0 3]),
    (.apertureWrite 0 [], [.apertureWrite (2 ^ 26) []])] :
    List (Instr × List Instr)).all onlyFirst = true := by decide +kernel

theorem test_ill_formed_8 : ([
    (.bar2Access 0 false 0 [] 0, [.bar2Access (2 ^ 36) false 0 [] 0, .bar2Access 0 false (2 ^ 8) [] 0, .bar2Access 0 false 0 [] (2 ^ 2)]),
    (.hifSqTail 0 0, [.hifSqTail (2 ^ 4) 0, .hifSqTail 0 (2 ^ 32)]),
    (.hifCqHead 0 0, [.hifCqHead (2 ^ 4) 0, .hifCqHead 0 (2 ^ 32)]),
    (.ringBaseWrite 0 0 0, [.ringBaseWrite (2 ^ 4) 0 0, .ringBaseWrite 0 6 0, .ringBaseWrite 0 0 (2 ^ 32)]),
    (.sqEnable 0 false, [.sqEnable (2 ^ 4) false]),
    (.loadPassEnd 0 0, [.loadPassEnd 24 0, .loadPassEnd 0 (2 ^ 32)]),
    (.refillChunk 0 none, [.refillChunk 6 none, .refillChunk 0 (some (2 ^ 32))]),
    (.tickBoundary [] [] 0 0 0 [], [.tickBoundary [⟨24, 0, [0, 0, 0, 0, 0, 0, 0, 0], [0, 0, 0, 0, 0, 0, 0, 0]⟩] [] 0 0 0 [], .tickBoundary [⟨0, 2, [0,
      0, 0, 0, 0, 0, 0, 0], [0, 0, 0, 0, 0, 0, 0, 0]⟩] [] 0 0 0 [], .tickBoundary [⟨0, 0, [], [0, 0, 0, 0, 0, 0, 0, 0]⟩] [] 0 0 0 [], .tickBoundary
      [⟨0, 0, [0, 0, 0, 0, 0, 0, 0, 0], []⟩] [] 0 0 0 [], .tickBoundary [⟨0, 0, [65536, 0, 0, 0, 0, 0, 0, 0], [0, 0, 0, 0, 0, 0, 0, 0]⟩] [] 0 0 0 [],
      .tickBoundary [] [(8, 0)] 0 0 0 [], .tickBoundary [] [] (2 ^ 24) 0 0 [], .tickBoundary [] [] 0 (2 ^ 24) 0 [], .tickBoundary [] [] 0 0 (2 ^ 24)
      [], .tickBoundary [] [] 0 0 0 [⟨24, 0, 0, 0, 0⟩], .tickBoundary [] [] 0 0 0 [⟨0, 32, 0, 0, 0⟩], .tickBoundary [] [] 0 0 0 [⟨0, 0, 64, 0, 0⟩],
      .tickBoundary [] [] 0 0 0 [⟨0, 0, 0, 768, 0⟩]]),
    (.underrunRepeat 0, [.underrunRepeat 24]),
    (.remarkStart 0, [.remarkStart 24]),
    (.estimateSend 0, [.estimateSend (2 ^ 24)]),
    (.estimateToken 0 0 0 [], [.estimateToken (2 ^ 2) 0 0 [], .estimateToken 0 (2 ^ 5) 0 [], .estimateToken 0 0 (2 ^ 8) [], .estimateToken 0 0 0 [2 ^
      32]])] :
    List (Instr × List Instr)).all onlyFirst = true := by decide +kernel

theorem test_ill_formed_9 : ([
    (.claimToken 0 0 0 0 0 0 0, [.claimToken (2 ^ 2) 0 0 0 0 0 0, .claimToken 0 (2 ^ 5) 0 0 0 0 0, .claimToken 0 0 (2 ^ 6) 0 0 0 0, .claimToken 0 0 0
      (2 ^ 10) 0 0 0, .claimToken 0 0 0 0 (2 ^ 32) 0 0, .claimToken 0 0 0 0 0 (2 ^ 32) 0, .claimToken 0 0 0 0 0 0 (2 ^ 64)]),
    (.grantToken 0 0 0 0 0 0 0 0 0 0 0, [.grantToken (2 ^ 2) 0 0 0 0 0 0 0 0 0 0, .grantToken 0 (2 ^ 5) 0 0 0 0 0 0 0 0 0, .grantToken 0 0 (2 ^ 6) 0 0
      0 0 0 0 0 0, .grantToken 0 0 0 (2 ^ 2) 0 0 0 0 0 0 0, .grantToken 0 0 0 0 (2 ^ 10) 0 0 0 0 0 0, .grantToken 0 0 0 0 0 (2 ^ 64) 0 0 0 0 0,
      .grantToken 0 0 0 0 0 0 (2 ^ 64) 0 0 0 0, .grantToken 0 0 0 0 0 0 0 (2 ^ 32) 0 0 0, .grantToken 0 0 0 0 0 0 0 0 (2 ^ 32) 0 0, .grantToken 0 0 0
      0 0 0 0 0 0 (2 ^ 32) 0, .grantToken 0 0 0 0 0 0 0 0 0 0 (2 ^ 256)]),
    (.denyToken 0 0 0 0 0, [.denyToken (2 ^ 2) 0 0 0 0, .denyToken 0 (2 ^ 5) 0 0 0, .denyToken 0 0 (2 ^ 6) 0 0, .denyToken 0 0 0 (2 ^ 10) 0,
      .denyToken 0 0 0 0 (2 ^ 64)]),
    (.claimTimeout 0, [.claimTimeout 24]),
    (.returnToken 0 0 0 0 0 0, [.returnToken (2 ^ 2) 0 0 0 0 0, .returnToken 0 (2 ^ 5) 0 0 0 0, .returnToken 0 0 (2 ^ 2) 0 0 0, .returnToken 0 0 0 (2
      ^ 10) 0 0, .returnToken 0 0 0 0 (2 ^ 32) 0, .returnToken 0 0 0 0 0 (2 ^ 32)]),
    (.doneToken 0 0 0 0 0 0, [.doneToken (2 ^ 2) 0 0 0 0 0, .doneToken 0 (2 ^ 5) 0 0 0 0, .doneToken 0 0 (2 ^ 2) 0 0 0, .doneToken 0 0 0 (2 ^ 10) 0 0,
      .doneToken 0 0 0 0 (2 ^ 32) 0, .doneToken 0 0 0 0 0 (2 ^ 64)]),
    (.positionToken 0 0 [], [.positionToken (2 ^ 2) 0 [], .positionToken 0 (2 ^ 5) [], .positionToken 0 0 [2 ^ 32]]),
    (.peerStale 0, [.peerStale (2 ^ 5)]),
    (.scannerLinkTimeout 0, [.scannerLinkTimeout 24]),
    (.jogTargetReached 0, [.jogTargetReached 24]),
    (.jumpRetarget 0, [.jumpRetarget 24]),
    (.driftApply 0, [.driftApply 24])] :
    List (Instr × List Instr)).all onlyFirst = true := by decide +kernel

theorem test_ill_formed_10 : ([
    (.driftTimeout 0, [.driftTimeout 24]),
    (.returnFrame 0 0, [.returnFrame 24 0, .returnFrame 0 (2 ^ 125)]),
    (.returnFrameTimeout 0, [.returnFrameTimeout 24]),
    (.linkLost 0, [.linkLost 24]),
    (.scanDeviation 0, [.scanDeviation 24]),
    (.almNChange 0 false, [.almNChange 24 false]),
    (.rdyFall 0, [.rdyFall 24]),
    (.calibrationRunStart 0, [.calibrationRunStart 24]),
    (.calDeadline 0 0, [.calDeadline 24 0, .calDeadline 0 2]),
    (.calibrationRunEnd 0 ⟨0, 0, 0, 0, 0⟩ ⟨0, 0, 0, 0, 0⟩, [.calibrationRunEnd 24 ⟨0, 0, 0, 0, 0⟩ ⟨0, 0, 0, 0, 0⟩, .calibrationRunEnd 0 ⟨512 * 65535 +
      1, 0, 0, 0, 0⟩ ⟨0, 0, 0, 0, 0⟩, .calibrationRunEnd 0 ⟨0, 512 * 65535 + 1, 0, 0, 0⟩ ⟨0, 0, 0, 0, 0⟩, .calibrationRunEnd 0 ⟨0, 0, 512 * 65535 + 1,
      0, 0⟩ ⟨0, 0, 0, 0, 0⟩, .calibrationRunEnd 0 ⟨0, 0, 0, 512 * 65535 + 1, 0⟩ ⟨0, 0, 0, 0, 0⟩, .calibrationRunEnd 0 ⟨0, 0, 0, 0, 65536⟩ ⟨0, 0, 0, 0,
      0⟩, .calibrationRunEnd 0 ⟨0, 0, 0, 0, 0⟩ ⟨512 * 65535 + 1, 0, 0, 0, 0⟩, .calibrationRunEnd 0 ⟨0, 0, 0, 0, 0⟩ ⟨0, 512 * 65535 + 1, 0, 0, 0⟩,
      .calibrationRunEnd 0 ⟨0, 0, 0, 0, 0⟩ ⟨0, 0, 512 * 65535 + 1, 0, 0⟩, .calibrationRunEnd 0 ⟨0, 0, 0, 0, 0⟩ ⟨0, 0, 0, 512 * 65535 + 1, 0⟩,
      .calibrationRunEnd 0 ⟨0, 0, 0, 0, 0⟩ ⟨0, 0, 0, 0, 65536⟩]),
    (.frameStart 0 0 0 false 0 0, [.frameStart 6 0 0 false 0 0, .frameStart 0 (2 ^ 4) 0 false 0 0, .frameStart 0 0 (2 ^ 16) false 0 0, .frameStart 0 0
      0 false (2 ^ 5) 0, .frameStart 0 0 0 false 0 (2 ^ 11)]),
    (.longPacket 0 0 0 0 false [] 0, [.longPacket 6 0 0 0 false [] 0, .longPacket 0 (2 ^ 4) 0 0 false [] 0, .longPacket 0 0 (2 ^ 6) 0 false [] 0,
      .longPacket 0 0 0 (2 ^ 2) false [] 0, .longPacket 0 0 0 0 false [2 ^ 16] 0, .longPacket 0 0 0 0 false [] (2 ^ 5)])] :
    List (Instr × List Instr)).all onlyFirst = true := by decide +kernel

theorem test_ill_formed_11 : ([
    (.frameEnd 0 0 false 0 0, [.frameEnd 6 0 false 0 0, .frameEnd 0 (2 ^ 4) false 0 0, .frameEnd 0 0 false (2 ^ 5) 0, .frameEnd 0 0 false 0 (2 ^
      11)]),
    (.pipelineLine 0, [.pipelineLine (2 ^ 1)]),
    (.frameTimeout 0, [.frameTimeout 32]),
    (.statsRecordReady 0, [.statsRecordReady 32]),
    (.statsDelivery 0, [.statsDelivery 32]),
    (.sensorWrites 0 0, [.sensorWrites 32 0, .sensorWrites 0 (2 ^ 4)]),
    (.contextWriteTimeout 0, [.contextWriteTimeout 32]),
    (.loopHoldLong 0 0, [.loopHoldLong 24 0, .loopHoldLong 0 (2 ^ 2)]),
    (.burnBorderTimeout 0, [.burnBorderTimeout (2 ^ 5)]),
    (.axisTargetReached 0, [.axisTargetReached (2 ^ 3)]),
    (.axisAtRest 0, [.axisAtRest (2 ^ 3)]),
    (.homingComplete 0, [.homingComplete (2 ^ 3)])] :
    List (Instr × List Instr)).all onlyFirst = true := by decide +kernel

theorem test_ill_formed_12 : ([
    (.homeFail 0, [.homeFail (2 ^ 3)]),
    (.switchTransition 0 0 false 0 0, [.switchTransition (2 ^ 3) 0 false 0 0, .switchTransition 0 (2 ^ 2) false 0 0, .switchTransition 0 0 false (2 ^
      12) 0, .switchTransition 0 0 false 0 (2 ^ 31), .switchTransition 0 0 false 0 (-(2 ^ 31) - 1)]),
    (.switchDebounce 0 0, [.switchDebounce (2 ^ 3) 0, .switchDebounce 0 (2 ^ 2)]),
    (.switchChatter 0 0, [.switchChatter (2 ^ 3) 0, .switchChatter 0 (2 ^ 2)]),
    (.stall 0, [.stall (2 ^ 3)]),
    (.encErr 0, [.encErr (2 ^ 3)]),
    (.ssiFrame 0 0 0, [.ssiFrame (2 ^ 3) 0 0, .ssiFrame 0 (2 ^ 32) 0, .ssiFrame 0 0 (2 ^ 12)]),
    (.portSetTimeout 0, [.portSetTimeout (2 ^ 2)]),
    (.blockLockLoss 0 false, [.blockLockLoss (2 ^ 2) false]),
    (.laneFailed 0 0 0 false, [.laneFailed (2 ^ 2) 0 0 false, .laneFailed 0 (2 ^ 1) 0 false, .laneFailed 0 0 (2 ^ 32) false]),
    (.swapRx 0, [.swapRx (2 ^ 2)]),
    (.swapAckRx 0, [.swapAckRx (2 ^ 2)])] :
    List (Instr × List Instr)).all onlyFirst = true := by decide +kernel

theorem test_ill_formed_13 : ([
    (.helloSend 0, [.helloSend (2 ^ 2)]),
    (.helloRx 0 0 ⟨0, false, false, false, false, 0, []⟩ 0 0 0 [], [.helloRx (2 ^ 2) 0 ⟨0, false, false, false, false, 0, []⟩ 0 0 0 [], .helloRx 0 (2
      ^ 5) ⟨0, false, false, false, false, 0, []⟩ 0 0 0 [], .helloRx 0 0 ⟨2 ^ 64, false, false, false, false, 0, []⟩ 0 0 0 [], .helloRx 0 0 ⟨0, false,
      false, false, false, 256, []⟩ 0 0 0 [], .helloRx 0 0 ⟨0, false, false, false, false, 0, [256]⟩ 0 0 0 [], .helloRx 0 0 ⟨0, false, false, false,
      false, 0, []⟩ (2 ^ 64) 0 0 [], .helloRx 0 0 ⟨0, false, false, false, false, 0, []⟩ 0 (2 ^ 5) 0 [], .helloRx 0 0 ⟨0, false, false, false, false,
      0, []⟩ 0 0 (2 ^ 6) [], .helloRx 0 0 ⟨0, false, false, false, false, 0, []⟩ 0 0 0 [(32, ⟨0, false, false, false, false, 0, []⟩)], .helloRx 0 0
      ⟨0, false, false, false, false, 0, []⟩ 0 0 0 [(0, ⟨0, false, false, false, false, 256, []⟩)]]),
    (.helloMiss 0, [.helloMiss (2 ^ 2)]),
    (.portRetrain 0, [.portRetrain (2 ^ 2)]),
    (.ackFrame 0 0 0 0, [.ackFrame (2 ^ 2) 0 0 0, .ackFrame 0 (2 ^ 8) 0 0, .ackFrame 0 0 (2 ^ 2) 0, .ackFrame 0 0 0 (2 ^ 14)]),
    (.standaloneAck 0, [.standaloneAck (2 ^ 2)]),
    (.nakFrame 0 0, [.nakFrame (2 ^ 2) 0, .nakFrame 0 (2 ^ 8)]),
    (.retryTimeout 0, [.retryTimeout (2 ^ 2)]),
    (.linkDown 0, [.linkDown (2 ^ 2)]),
    (.frameDiscarded 0 0 0 0, [.frameDiscarded (2 ^ 2) 0 0 0, .frameDiscarded 0 (2 ^ 3) 0 0, .frameDiscarded 0 0 (2 ^ 2) 0, .frameDiscarded 0 0 0 (2 ^
      5)]),
    (.frameForward 0 0 0 0 0 0 none [], [.frameForward (2 ^ 2) 0 0 0 0 0 none [], .frameForward 0 (2 ^ 2) 0 0 0 0 none [], .frameForward 0 0 (2 ^ 8) 0
      0 0 none [], .frameForward 0 0 0 (2 ^ 5) 0 0 none [], .frameForward 0 0 0 0 (2 ^ 5) 0 none [], .frameForward 0 0 0 0 0 (2 ^ 8) none [],
      .frameForward 0 0 0 0 0 0 (some 65536) []]),
    (.addrReq 0 0 0, [.addrReq (2 ^ 2) 0 0, .addrReq 0 (2 ^ 64) 0, .addrReq 0 0 (2 ^ 5)])] :
    List (Instr × List Instr)).all onlyFirst = true := by decide +kernel

theorem test_ill_formed_14 : ([
    (.addrAssign 0 0 0, [.addrAssign (2 ^ 2) 0 0, .addrAssign 0 (2 ^ 64) 0, .addrAssign 0 0 (2 ^ 5)]),
    (.routeUpdateRx 0 [], [.routeUpdateRx (2 ^ 2) [], .routeUpdateRx 0 [2 ^ 8]]),
    (.routeHoldExpiry 0, [.routeHoldExpiry (2 ^ 5)]),
    (.e2eAck 0 0 0 0, [.e2eAck (2 ^ 2) 0 0 0, .e2eAck 0 (2 ^ 5) 0 0, .e2eAck 0 0 (2 ^ 2) 0, .e2eAck 0 0 0 (2 ^ 16)]),
    (.e2eResend 0 0, [.e2eResend (2 ^ 5) 0, .e2eResend 0 (2 ^ 2)]),
    (.noticeRx 0 0 0 0 0 0, [.noticeRx (2 ^ 2) 0 0 0 0 0, .noticeRx 0 (2 ^ 5) 0 0 0 0, .noticeRx 0 0 (2 ^ 8) 0 0 0, .noticeRx 0 0 0 (2 ^ 32) 0 0,
      .noticeRx 0 0 0 0 (2 ^ 64) 0, .noticeRx 0 0 0 0 0 (2 ^ 32)]),
    (.cmdFwd 0 0 0 (List.replicate 64 0) [], [.cmdFwd (2 ^ 2) 0 0 (List.replicate 64 0) [], .cmdFwd 0 (2 ^ 5) 0 (List.replicate 64 0) [], .cmdFwd 0 0
      (2 ^ 4) (List.replicate 64 0) [], .cmdFwd 0 0 0 [] [], .cmdFwd 0 0 0 (List.replicate 65 0) [], .cmdFwd 0 0 0 (List.replicate 64 0)
      ((List.replicate 1025 0))]),
    (.cmdDone 0 0 0 0 0 0 0 0 0 0 0, [.cmdDone (2 ^ 2) 0 0 0 0 0 0 0 0 0 0, .cmdDone 0 (2 ^ 5) 0 0 0 0 0 0 0 0 0, .cmdDone 0 0 (2 ^ 4) 0 0 0 0 0 0 0
      0, .cmdDone 0 0 0 (2 ^ 32) 0 0 0 0 0 0 0, .cmdDone 0 0 0 0 (2 ^ 16) 0 0 0 0 0 0, .cmdDone 0 0 0 0 0 (2 ^ 8) 0 0 0 0 0, .cmdDone 0 0 0 0 0 0 (2 ^
      32) 0 0 0 0, .cmdDone 0 0 0 0 0 0 0 (2 ^ 32) 0 0 0, .cmdDone 0 0 0 0 0 0 0 0 (2 ^ 32) 0 0, .cmdDone 0 0 0 0 0 0 0 0 0 (2 ^ 32) 0, .cmdDone 0 0 0
      0 0 0 0 0 0 0 (2 ^ 64)]),
    (.cmdFwdTimeout 0 0 0, [.cmdFwdTimeout (2 ^ 5) 0 0, .cmdFwdTimeout 0 (2 ^ 4) 0, .cmdFwdTimeout 0 0 (2 ^ 32)]),
    (.regRead 0 0 0 1, [.regRead (2 ^ 2) 0 0 1, .regRead 0 (2 ^ 5) 0 1, .regRead 0 0 (2 ^ 24) 1, .regRead 0 0 0 0, .regRead 0 0 0 9]),
    (.regWrite 0 0 0 [], [.regWrite (2 ^ 2) 0 0 [], .regWrite 0 (2 ^ 5) 0 [], .regWrite 0 0 (2 ^ 24) [], .regWrite 0 0 0 [2 ^ 32]]),
    (.regData 0 0 [], [.regData (2 ^ 2) 0 [], .regData 0 (2 ^ 5) [], .regData 0 0 [2 ^ 32]])] :
    List (Instr × List Instr)).all onlyFirst = true := by decide +kernel

theorem test_ill_formed_15 : ([
    (.regAck 0 0, [.regAck (2 ^ 2) 0, .regAck 0 (2 ^ 5)]),
    (.regTimeout 0, [.regTimeout (2 ^ 5)]),
    (.mbxPost 0 0 0 [], [.mbxPost (2 ^ 2) 0 0 [], .mbxPost 0 (2 ^ 5) 0 [], .mbxPost 0 0 (2 ^ 4) [], .mbxPost 0 0 0 [2 ^ 32]]),
    (.mbxGoClear 0 0 0 0, [.mbxGoClear (2 ^ 2) 0 0 0, .mbxGoClear 0 (2 ^ 5) 0 0, .mbxGoClear 0 0 (2 ^ 4) 0, .mbxGoClear 0 0 0 (2 ^ 8)]),
    (.burnBorder 0 0 0 false [], [.burnBorder (2 ^ 2) 0 0 false [], .burnBorder 0 (2 ^ 5) 0 false [], .burnBorder 0 0 (2 ^ 32) false [], .burnBorder 0
      0 0 false [⟨65536, 0, 0, 0, 0, 0, 0, 0⟩], .burnBorder 0 0 0 false [⟨0, 65536, 0, 0, 0, 0, 0, 0⟩], .burnBorder 0 0 0 false [⟨0, 0, 2 ^ 32, 0, 0,
      0, 0, 0⟩], .burnBorder 0 0 0 false [⟨0, 0, 0, 2 ^ 48, 0, 0, 0, 0⟩], .burnBorder 0 0 0 false [⟨0, 0, 0, 0, 2 ^ 32, 0, 0, 0⟩], .burnBorder 0 0 0
      false [⟨0, 0, 0, 0, 0, 2 ^ 48, 0, 0⟩], .burnBorder 0 0 0 false [⟨0, 0, 0, 0, 0, 0, 2 ^ 32, 0⟩], .burnBorder 0 0 0 false [⟨0, 0, 0, 0, 0, 0, 0,
      3⟩]]),
    (.bulkRec 0 0 0 [], [.bulkRec (2 ^ 2) 0 0 [], .bulkRec 0 (2 ^ 5) 0 [], .bulkRec 0 0 (2 ^ 64) []]),
    (.triggerEdge 0 false, [.triggerEdge (2 ^ 2) false]),
    (.syncSend 0, [.syncSend (2 ^ 2)]),
    (.syncMsg 0 0 false 0 0 0 0, [.syncMsg (2 ^ 2) 0 false 0 0 0 0, .syncMsg 0 (2 ^ 8) false 0 0 0 0, .syncMsg 0 0 false (2 ^ 64) 0 0 0, .syncMsg 0 0
      false 0 (2 ^ 63) 0 0, .syncMsg 0 0 false 0 (-(2 ^ 63) - 1) 0 0, .syncMsg 0 0 false 0 0 (2 ^ 32) 0, .syncMsg 0 0 false 0 0 0 (2 ^ 80)]),
    (.announceSend 0, [.announceSend (2 ^ 2)]),
    (.announceRx 0 0 0 0 0, [.announceRx (2 ^ 2) 0 0 0 0, .announceRx 0 (2 ^ 8) 0 0 0, .announceRx 0 0 (2 ^ 8) 0 0, .announceRx 0 0 0 (2 ^ 64) 0,
      .announceRx 0 0 0 0 (2 ^ 16)]),
    (.holdDownExpiry 0, [.holdDownExpiry (2 ^ 64)])] :
    List (Instr × List Instr)).all onlyFirst = true := by decide +kernel

theorem test_ill_formed_16 : ([
    (.pdelaySend 0, [.pdelaySend (2 ^ 2)]),
    (.pdelayReq 0 0 0, [.pdelayReq (2 ^ 2) 0 0, .pdelayReq 0 (2 ^ 8) 0, .pdelayReq 0 0 (2 ^ 32)]),
    (.pdelayResp 0 0 0 0, [.pdelayResp (2 ^ 2) 0 0 0, .pdelayResp 0 (2 ^ 8) 0 0, .pdelayResp 0 0 (2 ^ 80) 0, .pdelayResp 0 0 0 (2 ^ 63), .pdelayResp 0
      0 0 (-(2 ^ 63) - 1)]),
    (.pdelayTimeout 0, [.pdelayTimeout (2 ^ 2)]),
    (.trainingEnd 0 0 0 0 0, [.trainingEnd (2 ^ 1) 0 0 0 0, .trainingEnd 0 (2 ^ 2) 0 0 0, .trainingEnd 0 0 (2 ^ 32) 0 0, .trainingEnd 0 0 0 (2 ^ 8) 0,
      .trainingEnd 0 0 0 0 (2 ^ 9)]),
    (.dramRequest 0 [] [] 0, [.dramRequest (2 ^ 1) [] [] 0, .dramRequest 0 [⟨8, false, 0, [], .image⟩] [] 0, .dramRequest 0 [⟨0, false, 2 ^ 36, [],
      .image⟩] [] 0, .dramRequest 0 [] [2 ^ 7] 0, .dramRequest 0 [] [] (2 ^ 2)]),
    (.throttleExpiry 0, [.throttleExpiry (2 ^ 1)]),
    (.disturbWindow 0, [.disturbWindow (2 ^ 1)]),
    (.refresh 0 0, [.refresh (2 ^ 1) 0, .refresh 0 (2 ^ 2)]),
    (.dramTempRead 0 0, [.dramTempRead (2 ^ 1) 0, .dramTempRead 0 (2 ^ 2)]),
    (.zqCalibration 0, [.zqCalibration (2 ^ 1)]),
    (.patrolScrub 0 0, [.patrolScrub (2 ^ 1) 0, .patrolScrub 0 (2 ^ 2)])] :
    List (Instr × List Instr)).all onlyFirst = true := by decide +kernel

theorem test_ill_formed_17 : ([
    (.sramScrub 0 0 [] .image, [.sramScrub (2 ^ 25) 0 [] .image, .sramScrub 0 (2 ^ 2) [] .image]),
    (.sramRepair 0 [], [.sramRepair (2 ^ 9) []]),
    (.descriptorFetch 0, [.descriptorFetch (2 ^ 5)]),
    (.dmaBurst [], [.dmaBurst [2 ^ 5]]),
    (.busErr 0 0 0 [], [.busErr (2 ^ 4) 0 0 [], .busErr 0 (2 ^ 2) 0 [], .busErr 0 0 (2 ^ 64) [], .busErr 0 0 0 [2 ^ 5]]),
    (.codecJobEnd 0 0 0, [.codecJobEnd (2 ^ 1) 0 0, .codecJobEnd 0 (2 ^ 2) 0, .codecJobEnd 0 0 (2 ^ 32)]),
    (.cmpRecReadHi 0, [.cmpRecReadHi (2 ^ 32)]),
    (.mbxMsgWrite 0 0 0 0, [.mbxMsgWrite (2 ^ 8) 0 0 0, .mbxMsgWrite 0 (2 ^ 4) 0 0, .mbxMsgWrite 0 0 (2 ^ 4) 0, .mbxMsgWrite 0 0 0 (2 ^ 32)]),
    (.mbxGoWrite 0 0 0, [.mbxGoWrite (2 ^ 8) 0 0, .mbxGoWrite 0 (2 ^ 4) 0, .mbxGoWrite 0 0 (2 ^ 32)]),
    (.mbxLastRead 0 0 0, [.mbxLastRead (2 ^ 8) 0 0, .mbxLastRead 0 (2 ^ 4) 0, .mbxLastRead 0 0 (2 ^ 4)]),
    (.mbxTimeout 0, [.mbxTimeout (2 ^ 4)]),
    (.poolRead 0 0, [.poolRead (2 ^ 16) 0, .poolRead 0 (2 ^ 16)])] :
    List (Instr × List Instr)).all onlyFirst = true := by decide +kernel

theorem test_ill_formed_18 : ([
    (.poolWrite 0 [], [.poolWrite (2 ^ 16) []]),
    (.usbBusReset false 0, [.usbBusReset false (2 ^ 2)]),
    (.panelSample 0 0 [], [.panelSample (2 ^ 16) 0 [], .panelSample 0 (2 ^ 8) [], .panelSample 0 0 [2 ^ 16]]),
    (.colourReading false [], [.colourReading false [2 ^ 16]]),
    (.ledOnTime 0 0, [.ledOnTime (2 ^ 5) 0, .ledOnTime 0 (2 ^ 16)]),
    (.neighbourRound 0, [.neighbourRound (2 ^ 31)]),
    (.faultConditionGone 0 0, [.faultConditionGone (2 ^ 16) 0, .faultConditionGone 0 (2 ^ 16)]),
    (.recoveryTimer 0 0, [.recoveryTimer (2 ^ 3) 0, .recoveryTimer 0 (2 ^ 16)]),
    (.conductorWatchdog 0 [], [.conductorWatchdog (2 ^ 2) []]),
    (.evrWindowRead 0, [.evrWindowRead (2 ^ 9)]),
    (.failedEntryFetch 0, [.failedEntryFetch (2 ^ 4)]),
    (.lane0LockTimeout 0, [.lane0LockTimeout (2 ^ 2)])] :
    List (Instr × List Instr)).all onlyFirst = true := by decide +kernel

theorem test_ill_formed_19 : ([
    (.enczIndex 0 0 0, [.enczIndex (2 ^ 3) 0 0, .enczIndex 0 (2 ^ 12) 0, .enczIndex 0 0 (2 ^ 31), .enczIndex 0 0 (-(2 ^ 31) - 1)])] :
    List (Instr × List Instr)).all onlyFirst = true := by decide +kernel


/-- A pause limit of 110 °C fails its check (R116); 100 °C and 108 °C pass. -/
theorem witness_RejectedCommit :
    let s := captured 15 THM_CFG (110 + 256 * 112) false
    Clocked s ∧ s.capture = some (⟨0, 7, none⟩, 2 ^ 15, false, [(THM_CFG, BitVec.ofNat 32 (110 + 256 * 112))]) ∧
    (failedGroups s (withCaptured s (2 ^ 15) [(THM_CFG, BitVec.ofNat 32 (110 + 256 * 112))]) (2 ^ 15)).1 ≠ 0 := by decide +kernel

theorem witness_CommitTakesEffect :
    let s := captured 15 THM_CFG (100 + 256 * 108) false
    Clocked s ∧ s.capture = some (⟨0, 7, none⟩, 2 ^ 15, false, [(THM_CFG, BitVec.ofNat 32 (100 + 256 * 108))]) ∧ 2 ^ 15 ≠ 0 ∧
    bitList (2 ^ 15) 16 = [15] ∧ 15 ∈ [0, 3, 5, 7, 10, 14, 15] ∧
    (failedGroups s (withCaptured s (2 ^ 15) [(THM_CFG, BitVec.ofNat 32 (100 + 256 * 108))]) (2 ^ 15)).1 = 0 := by decide +kernel

theorem witness_CheckOnlyTakesNothing :
    let s := captured 15 THM_CFG (100 + 256 * 108) true
    (failedGroups s (withCaptured s (2 ^ 15) [(THM_CFG, BitVec.ofNat 32 (100 + 256 * 108))]) (2 ^ 15)).1 = 0 ∧
    (failedGroups dev (withCaptured dev 0 []) 0).1 = 0 := by decide +kernel

/-! ### The fabric -/

/-- A device of a fabric. -/
def peerInfo : DevInfo := { serial := 77, strap := false, root := false, busy := false, job := false, group := 0xFF, nbrs := [] }

/-- The root of a fabric, with address 3; and a device whose root is behind port 1. -/
def rootDev : State := put dev [(FAB_STS, 0x103)]
def leafDev : State := put dev [(FAB_ROOT_SERIAL_LO, 55)]

theorem witness_AddressesAssigned :
    Clocked rootDev ∧ flag (got rootDev 1) FAB_STS 8 = true ∧
    (flag (got leafDev 1) FAB_STS 8 = false ∧
      rootPort { got leafDev 1 with fab := { leafDev.fab with reqPorts := mset leafDev.fab.reqPorts 77 1 } } = some 1) ∧
    0 = dev.fuses.serial ∧
    (let s := { dev with fab := { dev.fab with reqPorts := [(77, 2)] } }
     77 ≠ s.fuses.serial ∧ s.fab.reqPorts.find? (fun e => e.1 == 77) = some (77, 2)) := by decide +kernel

/-- Ports at the limit of go-backs, DOWN, TRAINING, and UP with a sound and a failed spare lane. -/
theorem witness_PortsFailAndRetrain :
    let late (ws : List (Nat × Nat)) := put dev (ws ++ [(FTM_TIME_LO, 2000000000)])
    let worn := { dev with fab := { dev.fab with ports := [(1, { FabPort.reset with goBacks := 8 })] } }
    let fresh := { dev with fab := { dev.fab with ports := [(1, { FabPort.reset with heard := 1000000 })] } }
    let down := late [(FAB_P_STS 1, 5)]
    let training := late [(FAB_P_STS 1, 1), (FAB_P_CFG 1, 0x00)]
    let isolated := put dev [(FAB_P_STS 1, 3)]
    let wait (s : State) := fld s FAB_LINK_CFG 31 24 * fld s FAB_LINK_CFG 23 16 * 1000
    (Clocked worn ∧ 1 < 4 ∧ reached down ((fport down 1).heard + wait down) = true ∧ reached fresh ((fport fresh 1).heard + wait fresh) = false) ∧
    fld worn FAB_LINK_CFG 7 0 ≤ (fport worn 1).goBacks ∧ (portSt down 1 = pDown ∧ reached down ((fport down 1).since + 10000000) = true) ∧
    (portSt training 1 = pTraining ∧ fld training (FAB_P_CFG 1) 7 6 ≠ 1 ∧ fld training (FAB_P_CFG 1) 7 6 ≠ 2 ∧
      reached training ((fport training 1).since + 5000000) = true) ∧
    (portSt dev 1 = pUp ∧ laneFailed dev 1 (1 - activeLane dev 1) = false) ∧ portSt isolated 1 = pIsolated := by decide +kernel

theorem witness_LaneSwaps :
    let noisy := put dev [(FAB_ERR_CFG, 0x10000)]
    let spareBad := put noisy [(FAB_P_STS 1, 2 + 2 ^ 17)]
    let swapping := put dev [(FAB_P_STS 1, 4 + 2 ^ 16)]
    let failed (s : State) := setFlag (errEvents s 1 0 1) (FAB_P_STS 1) 16 true
    let fails (s : State) : Prop := laneFailed (errEvents s 1 0 1) 1 0 = false ∧ fld s FAB_ERR_CFG 15 0 < errCount (errEvents s 1 0 1) 1 0
    (Clocked noisy ∧ 1 < 4 ∧ ¬ fails dev) ∧
    (fails noisy ∧ laneFailed (failed noisy) 1 1 = false ∧ 0 = activeLane (failed noisy) 1 ∧ portUp (failed noisy) 1 = true) ∧
    (fails spareBad ∧ laneFailed (failed spareBad) 1 1 = true) ∧ portUp (got dev 1) 1 = true ∧
    (portSt (got swapping 1) 1 = pSwapping ∧ laneFailed (got swapping 1) 1 (activeLane (got swapping 1) 1) = true) := by decide +kernel

theorem witness_HelloFrames :
    let there : State := { dev with pins := { dev.pins with fabRefclk := true } }
    let training := put there [(FAB_P_STS 1, 1)]
    let isolated := put there [(FAB_P_STS 1, 3)]
    let heard (s : State) := updPort (got s 1) 1 (fun q => { q with heard := now (got s 1) })
    Clocked training ∧ periodDue dev (fport dev 1).helloAt (fld dev FAB_LINK_CFG 31 24 * 1000) = true ∧
    ({ dev with pins := { dev.pins with fabRefclk := false } }).pins.fabRefclk = false ∧ there.pins.fabRefclk = true ∧
    (portSt (heard training) 1 = pTraining ∧ ({ peerInfo with serial := 0 }).serial = training.fuses.serial) ∧
    peerInfo.serial ≠ training.fuses.serial ∧ portSt (heard isolated) 1 = pIsolated ∧ portSt (heard there) 1 = pUp := by decide +kernel

/-- A frame of CONTROL class for device 9. -/
def frame9 : Frame := ⟨clControl, 0x22, 9, 3, 31, some 0, [0, 7, 1, 0, 0]⟩

theorem witness_LinkAcknowledgements :
    let s := { dev with fab := { dev.fab with ports := [(1, { FabPort.reset with ackDue := true, retry := [(0, frame9)], retryAt := [0] })] } }
    let owes := { dev with fab := { dev.fab with ports := [(1, { FabPort.reset with owed := [(0, 1)] })] } }
    Clocked s ∧ portUp s 1 = true ∧ 1 < 4 ∧ (fport s 1).ackDue = true ∧ (fport owes 1).owed ≠ [] ∧ (fport s 1).retryAt = 0 :: [] ∧
    reached s (0 + fld s FAB_LINK_CFG 15 8 * 1000) = true := by decide +kernel

theorem witness_FramesInTransit :
    Clocked dev ∧ portUp dev 1 = true ∧ 9 ≠ ownAddr dev ∧ 0x22 ≠ tyPosition ∧ clControl ≠ clLink ∧ 0 < 31 ∧ (fport dev 1).nakSent = false := by
  decide +kernel

theorem witness_RoutingUpdates :
    (Clocked dev ∧ periodDue dev dev.fab.routeAt (fld dev FAB_ROUTE_CFG 15 8 * 1000) = true) ∧
    (portUp (got dev 1) 1 = true ∧
      (List.range 32).all (fun d => !(flag (got dev 1) (FAB_ROUTE d) 31 && fld (got dev 1) (FAB_ROUTE d) 27 26 == 1 &&
        decide (32 ≤ ([] : List Nat).getD d 32) && decide (advOf (got dev 1) 1 d < 32))) = true) ∧
    (9 ≠ ownAddr dev ∧ metric dev 9 = 32 ∧ reached dev (dev.fab.linkEvent + 200000) = true) ∧ 3 = ownAddr dev ∧
    metric (put dev [(FAB_ROUTE 9, 0x84000001)]) 9 ≠ 32 := by decide +kernel

theorem witness_EndToEndDelivery :
    let s := { dev with fab := { dev.fab with e2eTx := [(e2eKey 9 clControl, (1, [frame9]))], e2eAt := [(e2eKey 9 clControl, [0])] } }
    Clocked s ∧ portUp s 1 = true ∧
    (let b := frameIn s 1 9 (tyE2eAck clControl) [1]
     let e := e2eTx b 9 clControl
     (e.1 + 65536 - 1) % 65536 ≤ e.2.length) ∧
    (mget [] s.fab.e2eAt (e2eKey 9 clControl) = 0 :: [] ∧ reached s (0 + fld s FAB_ROUTE_CFG 31 24 * 1000) = true) := by decide +kernel

theorem witness_ForwardedCommands :
    let full := { dev with fab := { dev.fab with fwd := List.replicate 64 ⟨9, 0, zeros 64, [], false⟩ } }
    let waits := { put dev [(FTM_TIME_LO, 2000000)] with running := [⟨tyCmdFwd, ⟨0, 7, none⟩, 9, false, [0x0001], 0⟩] }
    let unacked := { waits with fab := { waits.fab with e2eTx := [(e2eKey 9 clControl, (1, [{ frame9 with body := fwdBody 0 (packetOf 1 (.nop cmd)) [] }]))] } }
    Clocked dev ∧ portUp dev 1 = true ∧ (frameIn dev 1 9 tyCmdFwd (fwdBody 0 (zeros 64) [])).fab.fwd.length < 64 ∧
    64 ≤ (frameIn full 1 9 tyCmdFwd (fwdBody 0 (zeros 64) [])).fab.fwd.length ∧
    ((takeFirst (isForward 9 0 7) (frameIn waits 1 9 tyCmdDone [0, 7, 1, 0, 0, 0, 0, 0, 0]).running).map (fun r => r.1.dropped)) = some false ∧
    (fwdUnacked unacked 9 0 7 = true ∧ unacked.running.any (fun r => isForward 9 0 7 r && decide (r.since + 1000000 < now unacked)) = true) := by
  decide +kernel

theorem witness_BulkCollection :
    flag (frameIn dev 1 9 0x30 [0, 4]) FAB_BULK_CFG 30 = false ∧
    flag (frameIn (put dev [(FAB_BULK_CFG, 2 ^ 30 + 20)]) 1 9 0x30 [0, 4]) FAB_BULK_CFG 30 = true := by decide +kernel

theorem witness_FabricSettings :
    let a := accept dev cmd
    let ring (g : Nat) := natSet (groupOf a g) (ownAddr a)
    allSpelled [(dev, 0x0801, .fabricPortSet cmd 1 0 0 0), (dev, 0x0801, .fabricPortSet cmd 1 2 13 15), (dev, 0x0801, .fabricPortSet cmd 3 1 12 0),
      (dev, 0x0802, .fabricDiscover cmd 0 32), (dev, 0x0802, .fabricDiscover cmd 0 0), (dev, 0x0802, .fabricDiscover cmd 1 0),
      (dev, 0x0803, .fabricRouteRead cmd 31 0), (dev, 0x0803, .fabricRouteRead cmd 0xFF 4), (dev, 0x0804, .plateGroupSet cmd 0xFF),
      (dev, 0x0804, .plateGroupSet cmd 3)] = true ∧
    domOn a 13 = true ∧ (portIdle a 1 = true ∧ portIdle a 3 = true) ∧ (isRunning a 0x0801 1 = false ∧ isRunning a 0x0801 3 = false) ∧ dieGrants a 2 = true ∧
    hostAddrOk cmd 32 32 = true ∧ hostAddrOk cmd 0 32 = true ∧ hostAddrOk cmd 4 4 = true ∧ a.seq.job = none ∧
    (bitList (ring 3) 32).length ≤ 8 ∧ (natBits 13 2 1 ≤ 2 ∧ natBits 12 2 1 ≤ 2 ∧ (12).testBit 0 = false) := by decide +kernel

theorem witness_PortSetTimesOut :
    let s := { put dev [(FTM_TIME_LO, 20000000)] with running := [⟨0x0801, ⟨0, 7, none⟩, 1, false, [], 0⟩] }
    Clocked s ∧ (findRun s 0x0801 1).map (Running.aged s 10000000) = some true := by decide +kernel

/-! ### Fabric time and triggers -/

theorem witness_GrandmasterSelection :
    let s := { put dev [(FTM_TIME_LO, 4000000000)] with
      ftm := { dev.ftm with slave := some 1, ports := [(1, { FtmPort.reset with ann := some ⟨1, 2, 3, 0⟩ })], holdDown := [(55, 7)] } }
    Clocked dev ∧ (1 < 4 ∧ timeDue dev 1 mAnnounce (annNs dev) = true) ∧ timeOk dev 1 (fld dev FTM_CFG 23 16) = true ∧
    timeOk dev 1 (fld dev FTM_CFG 23 16 + 1) = false ∧
    (s.ftm.slave = some 1 ∧ (tport s 1).ann = some ⟨1, 2, 3, 0⟩ ∧ reached s (0 + ann3 s) = true ∧ reached s (s.ftm.syncAt + 4 * syncNs s) = true) ∧
    (s.ftm.holdDown = [(55, 7)] ∧ reached s 7 = true) := by decide +kernel

theorem witness_PathDelay :
    let s := { put dev [(FTM_TIME_LO, 2000000)] with ftm := { dev.ftm with ports := [(1, { FtmPort.reset with req := some 5 })] } }
    let d := fld dev FTM_CFG 23 16
    Clocked s ∧ portUp s 1 = true ∧ timeDue s 1 mPdelayReq (pdelayNs s) = true ∧ timeOk s 1 d = true ∧
    ((tport (timeIn s 1 2) 1).req = some 5 ∧ 5 + 65536000000 ≤ 5 + 65536000000 ∧ (tport (timeIn s 1 2) 1).valid < 7) ∧
    ((tport s 1).req = some 5 ∧ reached s (5 / 65536 + 1000000) = true) := by decide +kernel

theorem witness_SyncAndLock :
    let slave := { dev with ftm := { dev.ftm with slave := some 1 } }
    let master := put dev [(FTM_P_STS 1, 1)]
    let close := { put dev [(FTM_STS, tAcquiring)] with ftm := { dev.ftm with run := 255 } }
    let d := fld dev FTM_CFG 23 16
    (timeOk slave 1 d = true ∧ (timeIn slave 1 1).ftm.slave = some 1) ∧ (timeOk dev 1 d = true ∧ (timeIn dev 1 1).ftm.slave ≠ some 1) ∧
    (fld master (FTM_P_STS 1) 1 0 = 1 ∧ timeDue master 1 mSync (syncNs master) = true) ∧ (ftmSt close = tAcquiring ∧ fld close FTM_LOCK 15 8 ≤ close.ftm.run) := by decide +kernel

theorem witness_TimeAndTriggers :
    let armed := put dev [(FTM_TRIG_STS 2, 2 ^ 31)]
    let later := put armed [(FTM_TRIG_START_LO 2, 3000000000)]
    let high := { dev with ftm := { dev.ftm with pulse := 4 } }
    let last (pulse : Nat) := { armed with ftm := { armed.ftm with finite := 4, pulse := pulse } }
    (allSpelled [(dev, 0x0806, .timeConfig cmd 1 2 10 10 10 3 4 5 6 7 8 9 10 15), (dev, 0x0807, .triggerSet cmd 3 0 0 0 0 0),
        (dev, 0x0807, .triggerSet cmd 3 1 1010000 8 4 2), (dev, 0x0807, .triggerSet cmd 0 1 1010000 0 1000000000 0)] = true ∧
      domOn (accept dev cmd) 13 = true ∧ dev.pwr.safe = false ∧ now (accept dev cmd) + 10000 ≤ 1010000 ∧ 4 + 4 ≤ 8) ∧
    (Clocked armed ∧ flag armed (FTM_TRIG_STS 2) 31 = true ∧ armed.ftm.pulse.testBit 2 = false ∧ armed.ftm.finite.testBit 2 = false ∧
      reached armed (trigNext armed 2) = true) ∧
    ((last 0).ftm.finite.testBit 2 = true ∧ rdN (last 0) (FTM_TRIG_COUNT 2) = 0) ∧ reached later (trigNext later 2) = false ∧
    (high.ftm.pulse.testBit 2 = true ∧ reached high (mget 0 high.ftm.pulseEnd 2) = true ∧ high.ftm.finite.testBit 2 = false) ∧
    ((last 4).ftm.pulse.testBit 2 = true ∧ reached (last 4) (mget 0 (last 4).ftm.pulseEnd 2) = true ∧ (last 4).ftm.finite.testBit 2 = true ∧
      rdN (last 4) (FTM_TRIG_COUNT 2) = 0) := by decide +kernel

/-! ### Mailboxes, the service port and the panel -/

/-- Channel 2 bound from the host to conductor 0x10; with GO set; and from device 9 to the host. -/
def bound : State := put dev [(MBX_CH_BIND 2, 0x80001000)]
def posted : State := put bound [(MBX_CH_GO 2, 2 ^ 31 + 8)]
def fromNine : State := put dev [(MBX_CH_BIND 2, 0x80890000)]
def toNine : State := put dev [(MBX_CH_BIND 2, 0x80008905), (MBX_CH_GO 2, 2 ^ 31 + 8)]

theorem witness_MailboxMessageWrite :
    Clocked bound ∧ mbxBound bound 2 = true ∧ 0 = mbxSender bound 2 ∧ mbxGo bound 2 = false ∧ mbxGo posted 2 = true ∧ 0x10 ≠ mbxSender bound 2 := by
  decide +kernel

/-- Lengths of 7, 8, 16 and 17 registers, and the last and another register of a message of 8. -/
theorem witness_MailboxPostAndRead :
    (mbxGo bound 2 = false ∧ (2 ^ 31 + 8).testBit 31 = true ∧ 8 ≤ natBits (2 ^ 31 + 8) 4 0 ∧ natBits (2 ^ 31 + 16) 4 0 ≤ 16) ∧
    natBits (2 ^ 31 + 7) 4 0 < 8 ∧ 16 < natBits (2 ^ 31 + 17) 4 0 ∧
    (mbxGo posted 2 = true ∧ 7 + 1 = fld posted (MBX_CH_GO 2) 4 0 ∧ mbxSender posted 2 / 32 ≠ 4) ∧ 6 + 1 ≠ fld posted (MBX_CH_GO 2) 4 0 := by
  decide +kernel

theorem witness_MailboxTimeout :
    let due (t : Nat) : State := { posted with mbxDue := [(2, t)] }
    Clocked posted ∧ (mbxForwards bound 2 = false ∧ 2 < 16 ∧ 31 < 32) ∧
    ((due 1000000).mbxDue.find? (fun p => p.1 == 2) = some (2, 1000000) ∧ mbxGo (due 1000000) 2 = true ∧ reached (due 1000000) 1000000 = true) ∧
    mbxGo bound 2 = false ∧ posted.mbxDue.find? (fun p => p.1 == 2) = none ∧
    ((due 2000000).mbxDue.find? (fun p => p.1 == 2) = some (2, 2000000) ∧ reached (due 2000000) 2000000 = false) := by decide +kernel

theorem witness_MailboxOverFabric :
    (let b := frameIn fromNine 1 9 tyMbxPost (2 :: 8 :: List.replicate 8 0)
     mbxBound b 2 = true ∧ mbxSender b 2 = 0x80 + 9 ∧ mbxGo b 2 = false) ∧
    (let b := frameIn toNine 1 9 tyMbxGoClear [5, 0]
     (List.range 16).find? (fun c => mbxForwards b c && mbxReceiver b c == 0x80 + 9 && mbxPeer b c == 5 && mbxGo b c) = some 2) ∧
    (let s := put fromNine [(MBX_CH_GO 2, 2 ^ 31 + 8)]
     let b := frameIn s 1 9 tyMbxGoClear [2, 1]
     Clocked s ∧ portUp s 1 = true ∧ mbxGo b 2 = true ∧ mbxBound b 2 = true ∧ mbxSender b 2 = 0x80 + 9) := by decide +kernel

theorem witness_MailboxCommands :
    let a := accept dev cmd
    let locked := put dev [(MBX_CH_BIND 2, 2 ^ 30)]
    allSpelled [(dev, 0x0A01, .mbxBind cmd 2 0 0 0x10 15 10), (dev, 0x0A01, .mbxBind cmd 15 0 0x89 0x10 0 1000000), (dev, 0x0A01, .mbxBind cmd 2 1 0 0 0 0),
      (locked, 0x0A01, .mbxBind cmd 2 1 0 0 0 0), (dev, 0x0A02, .mbxLock cmd 65535)] = true ∧
    (identOk 0 = true ∧ identOk 0x10 = true ∧ identOk 0x89 = true ∧ 0 ≠ 0x80 + ownAddr a ∧ 0x10 ≠ 0x80 + ownAddr a ∧ 0x89 ≠ 0x80 + ownAddr a ∧
      flag a (MBX_CH_BIND 2) 30 = false ∧ mbxGo a 2 = false ∧ flag a (MBX_CH_BIND 15) 30 = false ∧ mbxGo a 15 = false) ∧
    flag (accept locked cmd) (MBX_CH_BIND 2) 30 = true := by decide +kernel

/-- The last byte of the pool and one beyond it; a full ring 15. -/
theorem witness_ServicePort :
    let plugged := put dev [(SVC_STS, 8)]
    let full := { plugged with svc := { dev.svc with sq := List.replicate 64 [] } }
    Clocked dev ∧ vbus dev = false ∧ vbus plugged = true ∧ poolRange 30719 64 = true ∧ poolRange 30719 65 = false ∧
    poolRange 0 (List.replicate 64 (0 : Byte)).length = true ∧ bootSt plugged = 5 ∧
    plugged.svc.sq.length + 64 / 64 ≤ 64 ∧ 64 < full.svc.sq.length + 64 / 64 := by decide +kernel

theorem witness_ConductorWatchdogFires :
    let e (s : State) : State := event (mbxReset s (0x10 + 3)) (srcMaster (0x10 + 3)) 0x1A02 (leBytes 1 3)
    let b (s : State) : State := { e s with evr := { (e s).evr with wdLast := mset (e s).evr.wdLast 3 (now (e s)) } }
    let again := { dev with evr := { dev.evr with wdLast := [(3, 5)] } }
    let busy := { dev with running := [⟨0x0601, ⟨0, 7, none⟩, 0, false, [], 0⟩] }
    Clocked dev ∧ 3 < 4 ∧ (e dev).evr.wdLast.find? (fun p => p.1 == 3) = none ∧
    (List.range 4).any (fun c => (dutyOf 0x0601).all (· == c)) = true ∧ isRunning (b busy) 0x0601 0 = true ∧
    ((e again).evr.wdLast.find? (fun p => p.1 == 3) = some (3, 5) ∧ now (e again) < 5 + 1000000000) := by decide +kernel

theorem witness_PanelCommands :
    allSpelled [(dev, 0x0A03, .panelSet cmd 0 0 5 1 65535 7), (dev, 0x0A03, .panelSet cmd 1 0 1 32767 0 0), (dev, 0x0A03, .panelSet cmd 2 31 0x80000000 65535 0 0),
      (dev, 0x0A04, .ledPatternLoad cmd 3 1 1 0 [0, 0, 0, 0, 0, 0, 0, 0] 9 8 1 1 0 []), (dev, 0x0A05, .ledColourTarget cmd 0 0 0 0 0 0 0 [0, 0, 0, 0, 0, 0, 0, 0, 0] 0), (dev, 0x0A06, .ledDiag cmd 1 5 0)] = true ∧
    natBits 0x0001 15 8 = 0 ∧ natBits 0x0001 15 4 = 0 ∧ natBits 0x80000000 25 8 = 0 := by decide +kernel

theorem witness_PanelEvents :
    let early : State := { dev with panel := { dev.panel with times := [(PnlWork.sample.key, 1000000)] } }
    let loop := put dev [(PNL_STS, 4)]
    Clocked dev ∧ panelDue early .sample = false ∧ panelDue dev .pattern = true ∧ appliedDuty dev 0 = 0 ∧ panelDue dev .round = true ∧
    flag dev PNL_STS 2 = false ∧ (flag loop PNL_STS 2 = true ∧ flag loop PNL_STS 0 = false ∧ panelDue loop .colour = true) := by decide +kernel

/-! ### Axes, burn map and loops -/

/-- Axis 3 IDLE with POS_VALID and limits of 1,000 steps/s. -/
def axDev : State := put dev [(AX_STS 3, 0x10800000), (AX_VMAX 3, 1000), (AX_ACCEL 3, 1000), (AX_DECEL 3, 1000), (AX_VSTART 3, 10), (AX_VSTOP 3, 10)]

/-- A plan of axis 3 that has run. -/
def ranPlan : AxisPlan :=
  { from16 := 0, target := 50, neg := false, scurve := false, prof := ⟨0, 0, []⟩, legs := [], own := 10, dur := 10, t := 10, begun := true, reverses := false }

/-- `axDev` with axis 3 in a state and a part of its own. -/
def axAt (st : Nat) (x : Axis) : State := { put axDev [(AX_STS 3, st * 2 ^ 28 + 2 ^ 23)] with axes := [(3, x)] }

theorem witness_AxisCommands :
    let vals := [1000, 10, 10, 1000, 1000, 0, 0]
    let moving := axAt axMoving { Axis.reset with plan := some ranPlan }
    let resumable := put dev [(AX_STS 0, 0x10A00000), (AX_REMAIN 0, 5)]
    let armed := axAt axArmed { Axis.reset with armed := some ranPlan }
    let sw := put axDev [(AX_SW_CFG 3, 2 ^ 5)]
    allSpelled [(axDev, 0x0701, .axisConfig cmd 3 1 vals), (axDev, 0x0702, .axisMove cmd 3 0 100 500), (axDev, 0x0702, .axisMove cmd 3 2 (-100) 0),
      (sw, 0x0703, .axisHome cmd 3 0 0), (axDev, 0x0703, .axisHome cmd 3 1 (-7)), (moving, 0x0704, .axisStop cmd 8),
      (resumable, 0x0705, .axisResume cmd 1 0 0), (armed, 0x0706, .axisGroupStart cmd 8 2 1050000), (armed, 0x0706, .axisGroupStart cmd 8 0 0),
      (moving, 0x0707, .axisRetarget cmd 3 2 100 500 0 0)] = true ∧
    ((vals.drop (axSection 3 1).length).all (· == 0) = true ∧
      (List.range (axSection 3 1).length).all (fun i => vals.getD i 0 &&& fieldBits ((axSection 3 1).getD i 0) == vals.getD i 0) = true) ∧
    (500 ≤ rdN axDev (AX_VMAX 3) ∧ softOk axDev 3 100 = true ∧ softOk axDev 3 (-100) = true ∧ axState axDev 3 = axIdle ∧ flag axDev (AX_STS 3) 23 = true ∧
      axBlocked axDev 3 (decide (rdI axDev (AX_POS 3) < 100)) = false ∧ axBlocked axDev 3 (decide (rdI axDev (AX_POS 3) < -100)) = false ∧
      axLocked axDev 3 = false ∧ isRunning axDev 0x0702 3 = false ∧ isRunning axDev 0x0703 3 = false ∧ axDev.pwr.safe = false) ∧
    (swEn sw 3 (homeRef sw 3) = true ∧ axState sw 3 = axIdle ∧ sw.pwr.safe = false) ∧
    (axState resumable 0 = axIdle ∧ axLocked resumable 0 = false ∧ flag resumable (AX_STS 0) 21 = true ∧
      axBlocked resumable 0 (decide (0 < rdI resumable (AX_REMAIN 0))) = false ∧ resumable.resumeStart = none ∧ resumable.pwr.safe = false) ∧
    (axState armed 3 = axArmed ∧ axLocked armed 3 = false ∧ now armed + 50000 ≤ 1050000 ∧ armed.groupStart = none ∧ armed.pwr.safe = false) ∧
    (axState moving 3 = axMoving ∧ isRunning moving 0x0707 3 = false ∧ softOk moving 3 100 = true ∧ axLocked moving 3 = false ∧ flag moving (AX_STS 3) 23 = true ∧
      axBlocked moving 3 (decide (rdI moving (AX_POS 3) < 100)) = false ∧
      (∀ j, j < 8 → (2 ^ 3).testBit j = true → axState moving j ≠ axDisabled)) := by decide +kernel

theorem witness_AxisMotionEnds :
    let at_ (st homing : Nat) := axAt st { Axis.reset with plan := some ranPlan, homing := homing }
    let far := { put (at_ axHoming 2) [(AX_POS 3, 100), (AX_HOME_TRAVEL 3, 100)] with axes := [(3, { Axis.reset with plan := some ranPlan, homing := 2, homeFrom := 0 })] }
    let resume := { put dev [(AX_STS 0, 0x10A00000), (AX_REMAIN 0, 5)] with
      resumeStart := some ⟨1, false, false, 0⟩, axes := [(3, { Axis.reset with plan := some ranPlan })] }
    let group := { axAt axArmed { Axis.reset with armed := some ranPlan, plan := some ranPlan } with groupStart := some ⟨8, false, false, 0⟩ }
    (Clocked (at_ axMoving 0) ∧ (axis (at_ axMoving 0) 3).plan = some ranPlan ∧ ranPlan.dur ≤ ranPlan.t ∧ axState (at_ axMoving 0) 3 = axMoving) ∧
    axState (at_ axStopping 0) 3 = axStopping ∧ (axState (at_ axHoming 8) 3 = axHoming ∧ (axis (at_ axHoming 8) 3).homing = 8) ∧
    ((homeLimit far 3).map (fun l => decide (l ≤ (rdI far (AX_POS 3) - (axis far 3).homeFrom).natAbs))) = some true ∧
    (axState resume 0 = axIdle ∧ flag resume (AX_STS 0) 21 = true ∧ startDue resume 0x0705 ⟨1, false, false, 0⟩ = true ∧ resume.pwr.safe = false) ∧
    (startDue group 0x0706 ⟨8, false, false, 0⟩ = true ∧ axState group 3 = axArmed ∧ (axis group 3).armed.isSome = true) ∧
    startDue { resume with running := [⟨0x0705, ⟨0, 6, none⟩, 0, false, [], 1000000⟩] } 0x0705 ⟨1, false, false, 0⟩ = false ∧ startDue group 0x0706 ⟨8, false, true, 1000001⟩ = false := by
  decide +kernel

theorem witness_AxisInputs :
    let en := put axDev [(AX_SW_CFG 3, 0x0A020A38), (AX_SW_STS 3, 0x20)]
    let lim := put axDev [(AX_STS 3, 0x30800000), (AX_SW_CFG 3, 0x8), (AX_SW_STS 3, 0x8), (AX_VEL 3, 7)]
    let noisy := { en with axes := [(3, { Axis.reset with edges := [(2, List.replicate 3 ⟨0, 0, 0⟩)] })] }
    let enc := { put axDev [(AX_CFG 3, 0x50), (AX_DEV 3, 0x10000), (FTM_TIME_LO, 20000000)] with axes := [(3, { Axis.reset with devSince := some 0 })] }
    let ssi := put axDev [(AX_CFG 3, 0x20), (AX_SSI_CFG 3, 0x18000000)]
    let homing := axAt axHoming { Axis.reset with homing := 7 }
    (Clocked en ∧ swEn en 3 2 = true ∧ swOn en 3 2 ≠ swRaw en 3 2 ∧ swHeld en 3 2 = true ∧ axState en 3 ≠ axHoming) ∧
    swHeld { en with axes := [(3, { Axis.reset with edges := [(2, [⟨1000000, 0, 0⟩])] })] } 3 2 = false ∧
    (swEn lim 3 0 = true ∧ swOn lim 3 0 ≠ swRaw lim 3 0 ∧ axState lim 3 = axMoving ∧ swRaw lim 3 0 = true ∧ 0 < rdI lim (AX_VEL 3)) ∧
    (fld noisy (AX_SW_CFG 3) 23 16 ≠ 0 ∧ fld noisy (AX_SW_CFG 3) 23 16 <
        ((mget [] (axis noisy 3).edges 2).filter (fun e => decide (now noisy < e.time + fld noisy (AX_SW_CFG 3) 31 24 * 1000000))).length ∧ axState noisy 3 ≠ axDisabled) ∧
    (flag enc (AX_CFG 3) 6 = true ∧ hasEncoder enc 3 = true ∧ axState enc 3 ≠ axDisabled ∧ fld enc (AX_DEV_WIN 3) 15 0 < (rdI enc (AX_DEV 3)).natAbs ∧
      stallDue enc 3 = true) ∧
    (hasEncoder (put axDev [(AX_CFG 3, 0x10)]) 3 = true ∧ flag (put axDev [(AX_CFG 3, 0x10)]) (AX_CFG 3) 6 = false) ∧
    (fld ssi (AX_CFG 3) 5 4 = 2 ∧ flag ssi (AX_SSI_CFG 3) 31 = false) ∧ (axState homing 3 = axHoming ∧ (axis homing 3).homing = 7) := by decide +kernel

theorem witness_AxisFaultHalts :
    let s := put (axAt axMoving { Axis.reset with plan := some ranPlan }) [(AX_STS 0, 0x30800000)]
    (2 ≤ 3 ∧ axMovingNow s 3 = true) ∧ (0 < 2 ∧ hasEncoder s 0 = false ∧ axState s 0 = axMoving) := by decide +kernel

/-- A job open in the top of channel 0, with a burn map of one cell. -/
def jobDev : State :=
  { put dev [(BURN_CFG, 2 ^ 31), (BURN_GRID, 0x10001), (BURN_WIN1, 0x10001)] with
    seq := { Seq.reset with job := some 1, hostBase := 0, hostLen := 2 ^ 24, devBase := 2 ^ 24, devLen := 2 ^ 25 } }

theorem witness_BurnCommands :
    allSpelled [(dev, 0x0601, .burnConfig cmd 1 256 16 1 (-5) 5 2000 2048 1 2047 0 1 2048), (jobDev, 0x0602, .burnMapLoad cmd 1 1 0),
      (jobDev, 0x0603, .burnMapSave cmd 0 64), (jobDev, 0x0604, .burnFreeze cmd 1 0), (jobDev, 0x0604, .burnFreeze cmd 0 1)] = true ∧
    burnCmdState jobDev = true ∧ burnBusy jobDev = false ∧ dramOk jobDev (bBase jobDev) (bLen jobDev) = true ∧ 64 % 64 = 0 ∧ cmd.ring ≠ 15 := by
  decide +kernel

theorem witness_BurnWork :
    let filling := { jobDev with burn := { jobDev.burn with fill := true } }
    let shared := { jobDev with burn := { jobDev.burn with ended := some (4, false), peers := [(9, ⟨true, 0, 0, 2000, 1, 1, 0, 0, 1, 1⟩)] } }
    Clocked filling ∧ filling.burn.fill = true ∧ portUp jobDev 1 = true ∧
    (shared.burn.ended ≠ none ∧ reached (put shared [(FTM_TIME_LO, 50000000)]) (shared.burn.endedAt + 50000000) = true ∧ borderWhole shared 9 = false ∧ shared.burn.missing.contains 9 = false ∧ (sharers shared).contains 9 = true) ∧
    ({ jobDev with burn := { jobDev.burn with ended := some (4, true) } }).burn.ended = some (4, true) ∧
    (let done := { shared with burn := { shared.burn with missing := [9] } }
     done.burn.ended = some (4, false) ∧ (sharers done).all (fun p => borderWhole done p || done.burn.missing.contains p) = true) := by
  decide +kernel

theorem witness_LoopCommands :
    let held := { put dev [(LOOP_CFG 5, 0x10000), (LOOP_STS 5, lpHold)] with lanes := [(5, { Lane.reset with loops := [(0, { Loop.reset with holdNs := 1000001 })] })] }
    allSpelled [(dev, 0x0501, .loopConfig cmd 0x20 0 1 256 1023 9 0 0 0 0), (dev, 0x0502, .loopCoefWrite cmd 0x20 0 15 1 (-1) 2 3 4), (dev, 0x0503, .loopMode cmd 0x20 0 2 1023 0),
      (dev, 0x0504, .loopSetpoint cmd 0x20 0 0 (-4)), (dev, 0x0505, .loopRead cmd 23 3)] = true ∧
    loopParams 0x20 0 = true ∧ quadsOn dev 0x20 = true ∧ domOn dev (2 + quadOf 23) = true ∧
    dev.running.any (fun r => r.op == 0x0502 && r.aux.getD 0 4 == 0 && r.aux.getD 1 0 &&& 0x20 != 0) = false ∧
    (fld held (LOOP_CFG 5) 31 16 ≠ 0 ∧ loopState held 5 0 = lpHold ∧ fld held (LOOP_CFG 5) 31 16 * 1000000 < (loop held 5 0).holdNs ∧ (loop held 5 0).said = false) := by
  decide +kernel

/-! ### Scanners, lasers and the ledger -/

theorem witness_ScannerCommands :
    let rest (x : Lane) : State := { put dev [(SCN_STS 5, 0x400)] with lanes := [(5, x)] }
    let mapped := rest { Lane.reset with held := none }
    let jogging := rest { Lane.reset with jog := some ⟨false, 0, 0, 0⟩ }
    allSpelled [(dev, 0x0201, .laneConfig cmd 23 1 1000 40000000 100 4000000 10000000 100 1 65535 1 1023 255 1), (dev, 0x0203, .scannerLinkSet cmd 23 1 3),
      (dev, 0x0203, .scannerLinkSet cmd 23 3 0), (dev, 0x0205, .laneJog cmd 23 1 (-8) 8 0 65535), (mapped, 0x0205, .laneJog cmd 5 0 0 0 0 0),
      (jogging, 0x0205, .laneJog cmd 5 1 1 2 3 1), (dev, 0x0207, .driftTermsSet cmd 23 1 255 [1, -2, 3, -4, 5, -6, 7, -8])] = true ∧
    (domOn dev (2 + quadOf 23) = true ∧ (lane dev 23).jog = none ∧ laneInLayer dev 23 = false ∧ (lane dev 23).drift = none ∧ dev.pwr.safe = false) ∧
    (mapValid mapped 5 = true ∧ inField mapped 5 0 0 = true ∧ (lane mapped 5).held = none ∧ (lane mapped 5).raw = none ∧
      (lane mapped 5).motion.rates (lane mapped 5).motion.t = ((0, 0, 0), (0, 0, 0)) ∧ laneInLayer mapped 5 = false ∧ (lane mapped 5).jog = none) ∧
    ((lane jogging 5).jog.isSome = true ∧ laneInLayer jogging 5 = false) := by decide +kernel

/-- A BSL3 frame of zero counts with the CRC of its first 80 bits. -/
def frame3 : Nat := crc12 (msbBits 80 0)

/-- The line of that frame: its delimiter and 23 code groups. -/
def line3 : Nat := codeBits 23 frame3 0

theorem witness_ScannerLinks :
    let bsl3 := put dev [(SCN_LINK_CFG 5, 3), (SCN_STS 5, 2)]
    let lost := { bsl3 with lanes := [(5, { Lane.reset with errRun := 255 })] }
    let off := { put dev [(SCN_DEV_CFG 5, 2 ^ 31 + 2)] with lanes := [(5, { Lane.reset with devRun := 3, jog := some ⟨true, 0, 0, 0⟩ })] }
    let staged := { put dev [(FTM_TIME_LO, 1000000000)] with lanes := [(5, { Lane.reset with drift := some ⟨1, 3, [1, 2]⟩ })], running := [⟨0x0207, ⟨0, 6, none⟩, 5, false, [], 0⟩] }
    let jogged := { dev with lanes := [(5, { Lane.reset with jog := some ⟨false, 0, 0, 0⟩ })] }
    let turned := { dev with lanes := [(5, { Lane.reset with phase := .jump, retarget := some ⟨false, false, 65536, 0, 0, 1000⟩ })] }
    let rejog := { jogged with lanes := [(5, { Lane.reset with jog := some ⟨false, 0, 0, 0⟩, retarget := some ⟨true, true, 4, 5, 6, 7⟩ })] }
    (Clocked bsl3 ∧ linkGen bsl3 5 = 3 ∧ flag bsl3 (SCN_LINK_CFG 5) 3 = false ∧ ungroup 23 0 = none ∧ ungroup 23 line3 = some frame3 ∧
      ungroup 23 (codeBits 23 (frame3 + 2 ^ 16) 0) = some (frame3 + 2 ^ 16) ∧
      (crc12 (msbBits 80 ((frame3 + 2 ^ 16) / 4096)) == (frame3 + 2 ^ 16) % 4096) = false ∧
      (crc12 (msbBits 80 (frame3 / 4096)) == frame3 % 4096 && natBits frame3 19 16 == (lane bsl3 5).expFrame % 16) = true ∧ frame3.testBit 12 = false) ∧
    2 ≤ linkGen bsl3 5 ∧ (linkState lost 5 = 2 ∧ 2 ≤ linkGen lost 5 ∧ fld lost (SCN_DEV_CFG 5) 15 8 ≤ (lane lost 5).errRun) ∧
    (flag off (SCN_DEV_CFG 5) 31 = true ∧ fld off (SCN_DEV_CFG 5) 7 0 < (lane off 5).devRun ∧ (lane off 5).devRaised = false ∧ (lane off 5).jog.isSome = true) ∧
    ((lane staged 5).drift = some ⟨1, 3, [1, 2]⟩ ∧ marking staged 5 = false ∧ (findRun staged 0x0207 5).isSome = true ∧
      (findRun staged 0x0207 5).all (Running.aged staged 1000000000) = true) ∧
    (jogDone jogged 5 = true ∧ jogDone rejog 5 = false) ∧
    ((lane turned 5).retarget = some ⟨false, false, 65536, 0, 0, 1000⟩ ∧ (lane turned 5).phase = .jump) ∧ (lane jogged 5).retarget = none ∧
    (lane rejog 5).retarget = some ⟨true, true, 4, 5, 6, 7⟩ := by decide +kernel

theorem witness_LaserCommands :
    allSpelled [(dev, 0x0204, .laserPortSet cmd 23 0 3 1 65535 4294967295 65535), (dev, 0x0204, .laserPortSet cmd 23 2 0 255 1 0 0),
      (dev, 0x0301, .ledgerSet cmd 10000 1000000 1)] = true ∧
    domOn dev (2 + quadOf 23) = true ∧ laneInLayer dev 23 = false := by decide +kernel

theorem witness_ShutterPath : Clocked dev ∧ dev.pins.interlockN = true ∧ ({ dev with pins := { dev.pins with interlockN := false } }).pins.interlockN = false := by
  decide

theorem witness_ForcedOffIsDark : 23 < 24 ∧ forcedOff { dev with pwr := { dev.pwr with safe := true } } 23 = true := by decide +kernel

/-- A budget of 10 W with 4 W granted; requests of 6 W and of 7 W. -/
def ledgerDev (mw : Nat) : State :=
  { put dev [(SEQ_STS, 4), (LEDG_BUDGET, 10000), (LEDG_DPDT, 0)] with
    ledger := { waiting := [⟨7, 0, mw, 1, 5⟩], grants := [⟨3, 0, 4000, 1, 4⟩, ⟨2, 3, 5000, 1, 2⟩], still := none } }

theorem witness_LaserPinsAndGrants :
    let fits := ledgerDev 6000
    let waits := ledgerDev 7000
    flag dev (LAS_STS 7) 2 = false ∧ emitOf dev 7 = false ∧ emitOf (put dev [(LAS_STS 7, 0x20)]) 7 = true ∧
    (layerSt dev ≠ stExposing ∧ layerSt dev ≠ stStopBath) ∧ layerSt fits = stExposing ∧
    ({ fits with ledger := { fits.ledger with waiting := [] } }).ledger.waiting = [] ∧
    (rdN fits LEDG_DPDT = 0 ∧ 6000 ≤ rdN fits LEDG_BUDGET ∧
      sumN ((fits.ledger.grants.filter (fun g => g.slot != 3)).map (·.mw)) + 6000 ≤ rdN fits LEDG_BUDGET ∧ (lane fits 7).phase ≠ .waitGrant ∧
      fits.ledger.waiting.all (fun q => q.slot != 1) = true) ∧
    rdN waits LEDG_BUDGET < sumN ((waits.ledger.grants.filter (fun g => g.slot != 3)).map (·.mw)) + 7000 := by decide +kernel

/-! ### Jobs and layers -/

theorem witness_TickOrder : Clocked dev := by decide

/-- Channel 0 with a job's areas, a good recipe 5 at 1,024 and lane set candidates of lane 3 of this device. -/
def tableDev : State :=
  putDram jobDev 1024 (leBytes 2 5 ++ leBytes 2 0 ++ leBytes 4 1000 ++ leBytes 4 1000 ++ leBytes 4 1000 ++ zeros 48)

theorem witness_JobsAndTables :
    let s := tableDev
    let own := 0x8000 + 256 * ownAddr s + 3
    let inl := [own % 256, own / 256, 0, 0, 0, 0, 0, 0] ++ List.replicate 24 0
    let none_ := List.replicate 32 0
    allSpelled [(dev, 0x0101, .jobOpen cmd 1 0 (2 ^ 20) (2 ^ 20) (2 ^ 24)), (s, 0x0102, .jobClose cmd 1), (s, 0x0103, .recipeLoad cmd 5 1 1 1024 []),
      (s, 0x0103, .recipeLoad cmd 5 1 1 2048 []), (s, 0x0104, .lanesetLoad cmd 1 1 2 0 inl []), (s, 0x0104, .lanesetLoad cmd 255 1 2 0 none_ [])] = true ∧
    (dev.seq.job = none ∧ areaOk dev 0 (2 ^ 20) = true ∧ areaOk dev (2 ^ 20) (2 ^ 24) = true) ∧
    (s.seq.job = some 1 ∧ layerSt s = stIdle ∧ inHostArea s 1024 64 = true ∧ inHostArea s 2048 64 = true ∧ tablesOpen s = true ∧ dramOk s 1024 64 = true ∧ dramOk s 2048 64 = true ∧
      (List.range 1).find? (fun i => !recipeOk (slice (dramBytes s 1024 64) i 64) (5 + i)) = none ∧
      (List.range 1).find? (fun i => !recipeOk (slice (dramBytes s 2048 64) i 64) (5 + i)) = some 0) ∧
    (List.range 1).find? (fun i => !laneSetOk (ownAddr s) ((List.range 4).map (fun c => leAt (inl.map (BitVec.ofNat 8)) (8 * i + 2 * c) 2))) = none ∧
    (List.range 1).find? (fun i => !laneSetOk (ownAddr s) ((List.range 4).map (fun c => leAt (none_.map (BitVec.ofNat 8)) (8 * i + 2 * c) 2))) = some 0 := by
  decide +kernel

/-- A layer with lane 5, which has 100 records at `2^20`, in layer state `st`. -/
def layerDev (st : Nat) : State :=
  let s := put { dev with seq := jobDev.seq } [(SEQ_STS, st), (SEQ_LAYER, 4), (LN_CFG 5, 1), (SCN_STS 5, 0x400), (LAS_CFG 5, 0x101), (LAS_STS 5, 8)]
  { s with seq := { s.seq with held := some ⟨4, 2 ^ 5, 0, 0, [(5, ⟨2 ^ 20, 6400, 100, 1, 100⟩)], [], 100⟩, lastDev := some (2 ^ 24) } }

theorem witness_LoadingAndRefill :
    let loading := { put jobDev [(SEQ_STS, 1)] with
      seq := { jobDev.seq with loading := some 4096 }, running := [⟨0x0105, ⟨0, 7, none⟩, 0, false, [4], 0⟩] }
    let refill := layerDev stExposing
    (allSpelled [(jobDev, 0x0105, .layerLoad cmd 4096 4)] = true ∧ jobDev.seq.job.isSome = true ∧ quietLayer jobDev = true) ∧
    (Clocked loading ∧ loading.seq.loading = some 4096 ∧ (findRun loading 0x0105 0).isSome = true ∧ layerSt loading = stLoading ∧ loading.seq.loadBad = false) ∧
    (inLayer refill = true ∧ refillLane refill 1 = some 5 ∧ (streamOf refill 5).isSome = true ∧ refill.seq.held.isSome = true) ∧
    refillLane refill 0 = none := by decide +kernel

theorem witness_LayerCommands :
    let arm := layerDev stLoaded
    let go := layerDev stArmed
    let again := layerDev stPaused
    let grouped (s : State) : State := { put s [(FAB_STS, 0x40003), (FAB_GROUP 0, 2 ^ 9)] with seq := { s.seq with peerStart := [(9, 4, 1050001)] } }
    allSpelled [(arm, 0x0106, .layerArm cmd 4 []), (arm, 0x0106, .layerArm cmd 5 []), (go, 0x0107, .layerExpose cmd 4 1050000), (grouped go, 0x0107, .layerExpose cmd 4 1050000),
      (again, 0x0109, .resume cmd 4 1050000), (layerDev stExposing, 0x0108, .stopBath cmd 0), (again, 0x0108, .stopBath cmd 0), (go, 0x010A, .layerAbort cmd 0)] = true ∧
    (armFails arm 4 [] = none ∧ armFails arm 5 [] = some (1, .badParam, 0xFF)) ∧
    (layerSt go = stArmed ∧ layerMatch go 4 = true ∧ now go + 50000 ≤ 1050000 ∧ startFaulted go = false ∧
      go.thm.paused = false ∧ go.seq.start = none ∧ startDiffers go 1050000 = false) ∧ startDiffers (grouped go) 1050000 = true ∧
    (layerSt again = stPaused ∧ layerMatch again 4 = true ∧ startFaulted again = false ∧ again.seq.start = none ∧ startDiffers again 1050000 = false) ∧
    (layerSt (layerDev stExposing) = stExposing ∧ stLoading ≤ layerSt go ∧ layerSt go ≤ stPaused ∧ go.seq.abortReq = none) := by decide +kernel

/-- A contact sheet whose CRC does not fit: of two that differ only in the CRC's own bytes, one does not. -/
theorem witness_LayerCommands_sheet : ∃ s : State,
    allSpelled [(s, 0x010B, .contactSheetRead cmd 0 64)] = true ∧ s.seq.lastDev = some (2 ^ 24) ∧ hostAddrOk cmd 64 64 = true ∧ dramOk s (sheetSlot (2 ^ 24) 0) 6656 = true ∧
    (let b := dramBytes s (sheetSlot (2 ^ 24) 0) 6656
     leAt b 8 4 = 0 ∧ crc32c (b.take 508) ≠ leAt b 508 4) := by
  let s1 := layerDev stIdle
  let s2 := putDram s1 (sheetSlot (2 ^ 24) 0 + 508) [1]
  have e1 : (dramBytes s1 (sheetSlot (2 ^ 24) 0) 6656).take 508 = zeros 508 := by decide +kernel
  have e2 : (dramBytes s2 (sheetSlot (2 ^ 24) 0) 6656).take 508 = zeros 508 := by decide +kernel
  by_cases h : crc32c (zeros 508) = 0
  · refine ⟨s2, by decide +kernel, by decide +kernel, by decide, by decide +kernel, by decide +kernel, ?_⟩
    rw [e2, h]; decide +kernel
  · refine ⟨s1, by decide +kernel, by decide +kernel, by decide, by decide +kernel, by decide +kernel, ?_⟩
    rw [e1, show leAt (dramBytes s1 (sheetSlot (2 ^ 24) 0) 6656) 508 4 = 0 by decide +kernel]; exact h

theorem witness_LayerBoundaries :
    let at_ (st : Nat) (f : Seq → Seq) : State := { layerDev st with seq := f (layerDev st).seq }
    let start := at_ stArmed (fun q => { q with start := some (1000000, false) })
    let again := at_ stPaused (fun q => { q with start := some (1000000, true) })
    let stop := at_ stExposing (fun q => { q with stopReq := true })
    let bath := put (layerDev stStopBath) [(FTM_TIME_LO, 100000000)]
    (Clocked start ∧ start.seq.start = some (1000000, false) ∧ layerSt start = stArmed ∧ 1000000 ≤ now start) ∧
    (again.seq.start = some (1000000, true) ∧ layerSt again = stPaused ∧ 1000000 ≤ now again) ∧
    (layerSt stop = stExposing ∧ stop.seq.stopReq = true ∧ stop.seq.abortReq = none ∧ resolved stop = false) ∧
    (layerSt bath = stStopBath ∧ reached bath (bath.seq.stopAt + fld bath SEQ_STOP_CFG 19 16 * 1000000) = true) ∧
    reached (at_ stStopBath (fun q => { q with stopAt := 1000000 })) (1000000 + fld bath SEQ_STOP_CFG 19 16 * 1000000) = false ∧
    (layerSt (layerDev stStopBath) = stStopBath ∧ allParked (layerDev stStopBath) = true) := by decide +kernel

theorem witness_LayerEnds :
    let abort := { layerDev stArmed with seq := { (layerDev stArmed).seq with abortReq := some ⟨1, 0⟩ } }
    let done := { layerDev stExposing with lanes := [(5, { Lane.reset with phase := .ended, atEnd := true, written := 100, head := 100 })] }
    let under := put (layerDev stExposing) [(LN_UNDERRUNS 5, 256)]
    let again := { layerDev stExposing with lanes := [(5, { Lane.reset with phase := .underrun, written := 64 })] }
    (Clocked abort ∧ abort.seq.abortReq = some ⟨1, 0⟩ ∧ stArmed ≤ layerSt abort ∧ layerSt abort ≤ stPaused ∧ layerSt abort ≠ stExposing) ∧
    (layerSt done = stExposing ∧ resolved done = true ∧ done.seq.abortReq = none) ∧
    (inLayer under = true ∧ fld under SEQ_CFG 15 8 < rdN under (LN_UNDERRUNS 5) ∧ (lane under 5).phase ≠ .halted) ∧
    ((lane again 5).phase = .underrun ∧ (lane again 5).motion.dur ≤ (lane again 5).motion.t ∧ refilled again 5 = true) := by decide +kernel

/-! ### A calibration map

A calibration map for the enlargers: 24-bit, pitch 4 mm, all offsets zero, its CRC appended (R213, R214). -/

/-- The 64 bytes before the points. -/
def mapHead : List Byte :=
  leBytes 4 0x504D4E45 ++ leBytes 4 1 ++ leBytes 4 24 ++ zeros 8 ++ leBytes 4 4000000 ++ zeros 4 ++ leBytes 4 9 ++ zeros 32

/-- The image with its CRC. -/
def mapImage : List Byte :=
  (mapHead ++ zeros 50700) ++ leBytes 4 (crc32c (mapHead ++ zeros 50700))

theorem crcReflStep_lt {p : Nat} (hp : p < 2 ^ 32) : ∀ (k c : Nat), c < 2 ^ 32 → crcReflStep p k c < 2 ^ 32
  | 0, _, hc => hc
  | k + 1, c, hc => by
    unfold crcReflStep
    refine crcReflStep_lt hp k _ ?_
    split
    · exact Nat.xor_lt_two_pow (by omega) hp
    · omega

theorem crc32c_lt (bs : List Byte) : crc32c bs < 2 ^ 32 := by
  have step : ∀ (l : List Byte) (c : Nat), c < 2 ^ 32 → crcRefl 0x82F63B78 l c < 2 ^ 32 := by
    intro l
    induction l with
    | nil => exact fun _ h => h
    | cons b l ih => exact fun c h => ih _ (crcReflStep_lt (by decide) 8 _ (Nat.xor_lt_two_pow h (by have := b.isLt; omega)))
  exact Nat.xor_lt_two_pow (step bs _ (by decide)) (by decide)

theorem mapHead_length : mapHead.length = 64 := by decide

theorem mapImage_length : mapImage.length = 50768 := by simp [mapImage, mapHead_length]

theorem leNat_zeros (k : Nat) : leNat (zeros k) = 0 := by
  induction k with
  | zero => rfl
  | succ k ih => exact (Nat.add_eq_zero_iff).2 ⟨rfl, by rw [show leNat (List.replicate k (0 : Byte)) = 0 from ih]⟩

/-- A field of the header. -/
theorem mapImage_head {o k : Nat} (h : o + k ≤ 64) : (mapImage.drop o).take k = (mapHead.drop o).take k := by
  have l := mapHead_length
  rw [mapImage, List.append_assoc, List.drop_append_of_le_length (by omega), List.take_append_of_le_length (by simp; omega)]

/-- A point's offset. -/
theorem mapImage_point {i : Nat} (h : i < 12675) : leAt mapImage (64 + 4 * i) 4 = 0 := by
  have l := mapHead_length
  have e : (mapImage.drop (64 + 4 * i)).take 4 = zeros 4 := by
    rw [mapImage, List.drop_append_of_le_length (by simp; omega), List.take_append_of_le_length (by simp; omega), List.drop_append, l,
      List.drop_eq_nil_of_le (by omega)]
    simp only [zeros, List.drop_replicate, List.take_replicate, List.nil_append]
    congr 1; omega
  rw [leAt, e]; rfl

theorem mapImage_passes : mapCheck mapImage 24 = none := by
  have head : ∀ o k, o + k ≤ 64 → leAt mapImage o k = leAt mapHead o k := fun o k h => by rw [leAt, leAt, mapImage_head h]
  have crc : leAt mapImage 50764 4 = crc32c (mapImage.take 50764) := by
    have tail : ∀ body : List Byte, leAt (body ++ leBytes 4 (crc32c body)) body.length 4 = crc32c ((body ++ leBytes 4 (crc32c body)).take body.length) := by
      intro body
      rw [leAt, List.drop_left, List.take_left, List.take_of_length_le (by simp), Laws.leNat_leBytes]
      exact Nat.mod_eq_of_lt (crc32c_lt _)
    have l : (mapHead ++ zeros 50700).length = 50764 := by simp [mapHead_length]
    rw [mapImage, ← l]
    exact tail _
  have points : (List.range (3 * 65 * 65)).any (fun i => decide ((2 ^ (24 - 1) - 1) * 256 < (sgn 32 (leAt mapImage (64 + 4 * i) 4)).natAbs)) = false := by
    rw [List.any_eq_false]
    intro i hi
    rw [mapImage_point (by simpa using hi)]
    decide
  have bits : leAt mapImage 8 1 = 24 := by rw [head _ _ (by decide)]; decide
  unfold mapCheck
  simp only [bits, points]
  rw [head 0 4 (by decide), head 4 4 (by decide), head 20 4 (by decide), head 12 4 (by decide), head 16 4 (by decide),
    mapImage_head (o := 9) (k := 3) (by decide), mapImage_head (o := 32) (k := 32) (by decide), crc]
  rw [if_neg (by decide), if_neg (by simp), if_neg (by decide)]

theorem witness_EnlargerMap :
    let s := putDram (put dev [(SCN_LINK_CFG 5, 3)]) 4096 mapImage
    allSpelled [(s, 0x0202, .enlargerMapLoad cmd 5 1 4096 [])] = true ∧ domOn s (2 + quadOf 5) = true ∧ (lane s 5).jog = none ∧ laneInLayer s 5 = false ∧
    4096 % 64 = 0 ∧ dramOk s 4096 50768 = true ∧ mapCheck (padTo 50768 (dramBytes s 4096 50768)) (linkWidth (linkGen s 5)) = none := by
  have pad : padTo 50768 mapImage = mapImage := by
    rw [padTo, List.take_append_of_le_length (by rw [mapImage_length]), List.take_of_length_le (by rw [mapImage_length])]
  intro s
  refine ⟨by decide +kernel, by decide +kernel, by decide +kernel, by decide +kernel, rfl, by decide +kernel, ?_⟩
  have f : linkGen s 5 = 3 := by decide +kernel
  have bytes : dramBytes s 4096 50768 = mapImage := by
    rw [← mapImage_length]
    exact Laws.dramBytes_putDram_same _ _
  rw [bytes, pad, f]
  exact mapImage_passes

/-! ### Overlap, photodiodes and cameras -/

/-- A record of zeros with its CRC, as a number. -/
def goodRec : Nat := crc32c (zeros 28) * 2 ^ 224

/-- A pool entry of lane 5 claimed by lane 216 (lane 0 of device 9). -/
def entry : PoolEntry :=
  { idx := 0, zone := 2, home := 5, state := .claimed, holder := 216, grantable := false,
    work := { rcd := recOf (recBytes32 goodRec), lo := 0, hi := 10, split := 0, seg := 0, src := 1, home := 5, zone := 2, resume := none, notBefore := 0, tr := 0,
              idx := 0, ov := 0 } }

theorem witness_HandoffTokens :
    let asks := { put dev [(SEQ_STS, 4)] with lanes := [(5, { Lane.reset with phase := .free, claimOut := some (9, 2, 1000) })] }
    let fresh := { dev with lanes := [(5, { Lane.reset with claimOut := some (9, 2, 1000000) })] }
    let pool := { dev with ovl := { dev.ovl with pool := [entry] } }
    let border := { dev with ovl := { dev.ovl with border := [(9, [⟨0, false, 0, 0, 0⟩])] } }
    (Clocked asks ∧ portUp asks 1 = true ∧ recCrcOk (recBytes32 goodRec) = true ∧ withdrawn asks = false ∧ takesClaims asks (77 % 24) = true ∧
      (lane asks (77 % 24)).claimOut = some (9, 2, 1000)) ∧ (lane dev (77 % 24)).claimOut = none ∧
    (lane asks 5).claimOut.any (fun c => reached asks (c.2.2 + 20000)) = true ∧ (lane fresh 5).claimOut.any (fun c => reached fresh (c.2.2 + 20000)) = false ∧
    estEntries [216, 1, 2, 3] = [(216, 1, 2, 3)] ∧ pool.ovl.pool.any (heldBy 216 0 0) = true ∧ pool.ovl.pool.find? (heldBy 216 0 3) = some entry ∧
    ((mget [] border.ovl.border 9).isEmpty = false ∧ border.ovl.stale.testBit 9 = false ∧ reached border (mget 0 border.ovl.heard 9 + 20000) = true) := by decide +kernel

theorem witness_OverlapCommands :
    Clocked dev ∧ (dev.ovl.excess = 0 ∧ dev.ovl.excessAt + 1000000 ≤ now dev) ∧ ({ dev with ovl := { dev.ovl with excess := 512 } }).ovl.excess ≠ 0 ∧
    now dev < ({ dev with ovl := { dev.ovl with excessAt := 1 } }).ovl.excessAt + 1000000 ∧
    allSpelled [(dev, 0x0302, .overlapSet cmd 0 65535 1 65535 255 7 8 0 0 0 0 0 0 0 0 []), (dev, 0x0302, .overlapSet cmd 1 0 0 0 0 0 0 63 1 (-5) 5 0 0 0 0 []),
      (dev, 0x0303, .plumeSet cmd 1 64 0 0 9 9 (2 ^ 24 - 1) 1), (dev, 0x0304, .stitchSet cmd 63 255 1023)] = true := by decide +kernel

/-- A calibration record of lane 5, input 1, with a ratio of 16, at DRAM address 1,024. -/
def calRec : List Byte := leBytes 1 5 ++ leBytes 1 1 ++ leBytes 1 1 ++ leBytes 1 0 ++ zeros 8 ++ leBytes 4 (16 * 65536) ++ zeros 12

theorem witness_AfeCommands :
    let s := putDram (put jobDev [(AFE_CFG 5, 2)]) 1024 (calRec ++ leBytes 4 (crc32c calRec))
    let rs := (List.range 1).map (fun j => ((dramBytes s 1024 (32 * 1)).drop (32 * j)).take 32)
    allSpelled [(s, 0x0401, .afeSet cmd 5 7 30 255 65535 16), (s, 0x0402, .afeCalibrate cmd (1 <<< 5) (1 <<< 1) 1), (s, 0x0403, .calValuesRead cmd 0 24 64),
      (s, 0x0404, .calValuesWrite cmd 1 1 1024 [])] = true ∧
    domOn s (afeDom 5) = true ∧ afeEn s 5 1 = true ∧ (afeIn s 5 1).run = none ∧ (afeIn s 5 1).pend = none ∧ hostAddrOk cmd 64 32 = true ∧
    inHostArea s 1024 (32 * 1) = true ∧ dramOk s 1024 (32 * 1) = true ∧ afePass1 rs [] 0 = none ∧ rs.all (fun r => domOn s (afeDom (leAt r 0 1))) = true := by
  decide +kernel

theorem witness_CalibrationRuns :
    let at_ (x : AfeIn) (i : Nat) : State := { dev with lanes := [(5, { Lane.reset with afe := [(i, x)] })] }
    let pend := at_ { AfeIn.reset with pend := some 0, now1 := true } 1
    let run := at_ { AfeIn.reset with run := some 0 } 0
    (Clocked pend ∧ domOn pend (afeDom 5) = true ∧ (afeIn pend 5 1).pend.isSome = true ∧ (afeIn pend 5 1).now1 = true) ∧
    (afeIn (put pend [(FTM_TIME_LO, 50000000)]) 5 1).pend.any (fun t => decide (t + 50000000 ≤ now (put pend [(FTM_TIME_LO, 50000000)]))) = true ∧
    ((afeIn run 5 0).run = some 0 ∧ reached run 64000 = true ∧ (afeIn run 5 0).result = none ∧ (afeIn run 5 1).run = none) := by decide +kernel

/-- A camera of 16 x 8 pixels of data type 0x2B on port 0, channel 0, with an aperture of 4 x 4 and a buffer of 1 KiB. -/
def camRegs (c : Nat) : List (Nat × Nat) :=
  [(ISP_CTX_CFG c, 2 ^ 31 + 0x2B00), (ISP_CTX_GEOM c, 8 * 65536 + 16), (ISP_CTX_APER0 c, 0), (ISP_CTX_APER1 c, 4 * 65536 + 4),
   (ISP_CTX_ZONES c, 0x11000000), (ISP_CTX_TIMING c, 1000), (ISP_CTX_BUF c, 1)]

def camDev : State := put dev (camRegs 3)

/-- A frame of context 3 with 8 lines received. -/
def camFrame : CamFrame :=
  { frame := 7, gen := 0, senGen := 0, trans := false, late := false, unsure := false, csi := 0, fsTime := 0, feTime := none, cause := 0, lines := 8, pipe := 0
    set := ctxLive camDev 3, buf := [], rows := [] }

/-- A record of context 3 that awaits delivery to nobody. -/
def camRec : CamRec :=
  { status := 1, lane := 5, routes := 0, metric := 9, frame := 7, area := 0, ratio := 0, gen := 0, x := 0, y := 0, past := none, ready := 0 }

theorem witness_CameraCommands :
    let s := { camDev with shadow := (camRegs 4).map (fun (r : Nat × Nat) => (r.1, if r.1 = ISP_CTX_CFG 4 then BitVec.ofNat 32 (2 ^ 31 + 0x82B00) else BitVec.ofNat 32 r.2)) }
    let b := { s with shadow := mset s.shadow (ISP_CTX_ROUTE 4) (BitVec.ofNat 32 (5 * 256 + 2 * 64 + 1)) }
    let bad := put dev [(ISP_CTX_CFG 4, 7 * 2 ^ 23)]
    let zero := List.replicate 7 0
    allSpelled [(dev, 0x0405, .csiPortSet cmd 5 4 2500 0 1000), (s, 0x0406, .contextSet cmd 4 0 0 zero []), (bad, 0x0406, .contextSet cmd 4 0 0 zero []),
      (s, 0x0407, .statsRoute cmd 4 5 1 2)] = true ∧
    zero.all (· == 0) = true ∧ (domOn dev (2 + 5) = true ∧ camIdle dev 5 = true) ∧
    ((ctx s 4).commit = none ∧ (ctxChecks s 4 (ctxShadow s 4)).all (·.2) = true ∧ (ctxChecks b 4 (ctxShadow b 4)).all (·.2) = true) ∧
    ((ctx bad 4).commit = none ∧ ((ctxChecks bad 4 (ctxShadow bad 4)).find? (fun k => !k.2)).isSome = true) := by decide +kernel

theorem witness_CameraFrames :
    let open_ := { camDev with cams := [(3, { Ctx.reset with frames := [camFrame] })] }
    (Clocked dev ∧ domOn dev (2 + 0) = true ∧ framesVc dev 0 0 = []) ∧
    (framesVc camDev 0 0 = [3] ∧ boundVc camDev 0 0 = [3] ∧ (ctx camDev 3).commit = none ∧ openFrame camDev 3 = none) ∧
    (openVc open_ 0 0 = [3] ∧ framesVc open_ 0 0 = [3] ∧ openFrame open_ 3 = some camFrame ∧ csDt camFrame.set = 0x2B ∧ camFrame.lines = csHeight camFrame.set ∧
      csPort camFrame.set = 0) := by decide +kernel

theorem witness_CameraRecords :
    let with_ (x : Ctx) : State := { camDev with cams := [(3, x)] }
    let line := with_ { Ctx.reset with frames := [{ camFrame with buf := [[(1, 1)]] }] }
    let full := { line with pipes := [(0, { Pipe.reset with busyTo := nowFs line + tickFs line })] }
    let ready := with_ { Ctx.reset with frames := [{ camFrame with feTime := some 5 }] }
    let outs := with_ { Ctx.reset with out := [camRec] }
    let toLane := with_ { Ctx.reset with out := [{ camRec with routes := 1 }] }
    let batch (items : List (List Nat)) : SensorBatch := ⟨2, items, false, some 6, none⟩
    let writes (items : List (List Nat)) := with_ { Ctx.reset with writes := [batch items] }
    let late := put (with_ { Ctx.reset with writes := [batch []], commit := some (2, []), commitAt := 5 }) [(FTM_TIME_LO, 100000000)]
    let waits (t : Nat) := with_ { Ctx.reset with watch := some t }
    (Clocked line ∧ domOn line (8 + 0) = true ∧ ctxs.any (hasLine line 0) = true ∧ (pipe line 0).busyTo < nowFs line + tickFs line) ∧
    (ctxs.any (hasLine full 0) = true ∧ nowFs full + tickFs full ≤ (pipe full 0).busyTo) ∧
    ((ctx ready 3).frames = [{ camFrame with feTime := some 5 }] ∧ frameReady { camFrame with feTime := some 5 } = true ∧
      sampled ready { camFrame with feTime := some 5 } = true) ∧
    ((ctx outs 3).out = [camRec] ∧ camRec.ready < now outs ∧ camRec.routes = 0) ∧ ((ctx toLane 3).out = [{ camRec with routes := 1 }] ∧ ({ camRec with routes := 1 }).routes = 1) ∧
    (watchOver (waits 0) 3 = true ∧ (ctx (waits 0) 3).commit = none ∧ watchOver (waits 500) 3 = false) ∧
    ((ctx (writes []) 3).writes = [batch []] ∧ (batch []).first = none ∧ (batch []).base = some 6 ∧ (batch []).items.length ≤ 0 ∧
      domOn (writes []) (2 + fld (writes []) (ISP_CTX_CFG 3) 25 23) = true ∧ 0 < (batch [[1]]).items.length) ∧
    ((ctx late 3).commit = some (2, []) ∧ (batch []).gen = 2 ∧ reached late ((ctx late 3).commitAt + 100000000) = true) := by decide +kernel

/-! ### DMA, codecs and DRAM -/

/-- Channel 4 ACTIVE with a descriptor at DRAM address 4,096: 32 bytes from DRAM address 0 to the pool, the last one. -/
def dmaDev : State :=
  { putDram (put dev [(DMA_CH_STS 4, 0x10000000), (DMA_CH_DESC_LO 4, 4096)]) 4096
      (leBytes 8 0 ++ leBytes 8 poolBase ++ leBytes 4 32 ++ leBytes 1 9 ++ leBytes 1 1 ++ leBytes 2 0 ++ leBytes 8 0) with
    dma := [(4, { DmaCh.reset with space := 1 })] }

theorem witness_DmaCommands :
    allSpelled [(dev, 0x0903, .dmaChannelSet cmd 31 3 255), (dev, 0x0904, .dmaStart cmd 4 0 (2 ^ 64 - 32)), (dmaDev, 0x0905, .dmaStop cmd (2 ^ 4))] = true ∧
    cmd.ring ≠ 15 ∧ flag dev DMA_STS 0 = false ∧ dmaState dev 4 = 0 ∧ (dmaState dmaDev 4 = 1 ∧ (2 ^ 4).testBit 4 = true) := by decide +kernel

theorem witness_DmaWork :
    let d : DmaDesc := ⟨0, poolBase, 32, 1, 2, true, 0⟩
    let moves := put { dmaDev with dma := [(4, { DmaCh.reset with space := 1, cur := some d })] } [(DMA_CH_REMAIN 4, 32)]
    let later := { moves with dmaNext := 2000000 }
    let b : DmaBurst := ⟨1, 2, poolBase, [1, 2]⟩
    let toHost : DmaBurst := ⟨1, 0, 64, [1, 2]⟩
    let flies (b : DmaBurst) := { put dmaDev [(DMA_CH_REMAIN 4, 0)] with dma := [(4, { DmaCh.reset with space := 1, cur := some d, flight := [b] })] }
    let off := { flies toHost with hif := { dev.hif with bme := false } }
    (Clocked dmaDev ∧ (dmaCh dmaDev 4).cur = none ∧ (dmaCh dmaDev 4).pre = none ∧ dmaState dmaDev 4 = 1 ∧ (dmaCh dmaDev 4).space ≠ 0 ∧
      (spaceRead dmaDev (dmaCh dmaDev 4).space (rd64 dmaDev (DMA_CH_DESC_LO 4) (DMA_CH_DESC_HI 4)) 32).bind dmaDesc = some d ∧
      dmaDescOk dmaDev (dmaCh dmaDev 4).ring15 d = true ∧ d.len < 2 ^ 32) ∧
    (spaceRead dmaDev 1 4096 32).isSome = true ∧ dmaDesc (leBytes 20 0 ++ [16] ++ leBytes 11 0) = none ∧ dmaSlot dev = none ∧
    (dmaSlot moves = some 1000000 ∧ reached moves 1000000 = true ∧ dmaPick moves 1000000 = some 4) ∧
    (dmaSlot later = some 2000000 ∧ reached later 2000000 = false) ∧
    ((dmaCh (flies b) 4).flight = [b] ∧ (dmaCh (flies b) 4).cur = some d ∧ dmaSlot (flies b) = none) ∧
    ((dmaCh off 4).flight = [toHost] ∧ (dmaCh off 4).cur = some d ∧ canRequest off = false ∧ dmaSlot off = none) := by decide +kernel

/-- A compress job of 3 bytes from DRAM to DRAM, of 1 KiB of output. -/
def job : Job := ⟨true, 0, 0, 0, 1, 1, 0, 4096, 3, 1024, 0, 0, [], [], 0⟩

/-- Codec 1 in a state, with a job. -/
def codecDev (st : Nat) (j : Job) : State := { put dev [(CMP_STS, st * 2 ^ 4)] with jobs := [(1, j)] }

theorem witness_CodecCommands :
    let stream := { put dev [(CMP_STS, 4 * 2 ^ 4)] with recording := { Rec.reset with on := true, stream := true } }
    let busy := codecDev 1 job
    let idle := codecDev 3 job
    allSpelled [(dev, 0x0906, .compressJob cmd 1 0 0 0 1 1 0 4096 3 1024), (dev, 0x0907, .decompressJob cmd 1 0 0 1 1 0 4096 3 1024 0 7), (stream, 0x0908, .codecFlush cmd 1 0),
      (busy, 0x0908, .codecFlush cmd 1 3), (idle, 0x0909, .codecResume cmd 1 1 0 0 0 0), (idle, 0x0909, .codecResume cmd 1 0 1 1 8192 1)] = true ∧
    (domOn dev 10 = true ∧ jobParams cmd job = true ∧ jobParams cmd { job with comp := false, cap := 7 } = true ∧ dieGrants dev 3 = true ∧ codecSt dev 1 = 0 ∧
      dramOk dev 0 3 = true ∧ dramOk dev 4096 1024 = true) ∧
    (domOn stream 10 = true ∧ codecSt stream 1 = 4 ∧ stream.recording.stream = true) ∧
    (codecSt busy 1 = 1 ∧ jobOf busy 1 = some job ∧ (jobInput busy job).isSome = true ∧ 3 ≤ job.inLen) ∧
    (codecSt idle 1 = 3 ∧ jobOf idle 1 = some job ∧ dramOk idle 8192 1 = true) := by decide +kernel

/-- Up to 1 KiB at 4,096 lies in channel 0, which is READY. -/
theorem room_ok (n : Nat) (hn : n ≤ 1024) : dramOk (codecDev 1 job) 4096 n = true := by
  have e : dramSize (codecDev 1 job) = 2 ^ 30 ∧ flag (codecDev 1 job) DDR_STS 0 = false ∧ chCap (codecDev 1 job) 0 = 2 ^ 30 ∧
      chReady (codecDev 1 job) 0 = true := by decide +kernel
  obtain ⟨e1, e2, e3, e4⟩ := e
  have c : ∀ x, x < 2 ^ 30 → chanOf (codecDev 1 job) x = 0 := fun x hx => by unfold chanOf; rw [e2, e3]; simp; omega
  unfold dramOk
  rw [e1, e2, c 4096 (by norm_num), c (4096 + n - 1) (by omega), e4]
  simp; omega

/-- What DEFLATE makes of the three bytes is a free value: where it takes at most 1 KiB, a flush and the job's end have room. -/
theorem witness_Codecs_room (used : Nat) (data : List Byte)
    (h : (frameHead 0 0 ++ Config.deflated 0 (data.take used) [] false).length ≤ 1024) (g : (compAll job data).length ≤ 1024) :
    (job.flushes = [] ∧ job.written = 0 ∧ job.outSpace = 1 ∧
      (frameHead job.format job.level ++ (job.segs ++ Config.deflated job.level (data.take used) [] false)).length ≤ job.outLen ∧
      dramOk (codecDev 1 job) job.outAddr
        (frameHead job.format job.level ++ (job.segs ++ Config.deflated job.level (data.take used) [] false)).length = true) ∧
    (job.inSpace = 1 ∧ job.comp = true ∧ (compAll job data).length ≤ job.outLen ∧
      dramOk (codecDev 1 job) job.outAddr (compAll job data).length = true) :=
  ⟨⟨rfl, rfl, rfl, h, room_ok _ h⟩, rfl, rfl, g, room_ok _ g⟩

theorem witness_CodecWork :
    let rec_ := { put dev [(CMP_REC_CFG, 0xC0000000), (FTM_TIME_LO, 100000000)] with recording := { Rec.reset with on := true, stream := true } }
    let just := { rec_ with recording := { rec_.recording with flushAt := 100000000 } }
    let off := put dev [(PWR_STS, 0xFFBFF)]
    let unread := codecDev 1 { job with inAddr := 2 ^ 40 }
    (Clocked (codecDev 1 job) ∧ jobOf (codecDev 1 job) 1 = some job ∧ codecSt (codecDev 1 job) 1 = 1 ∧ (jobInput (codecDev 1 job) job).isSome = true) ∧
    (codecRuns unread 1 = true ∧ jobInput unread { job with inAddr := 2 ^ 40 } = none) ∧
    (recDeflate rec_ = true ∧ rec_.recording.stream = true ∧ reached rec_ (rec_.recording.flushAt + fld rec_ CMP_REC_FLUSH 15 0 * 1000) = true) ∧
    reached just (just.recording.flushAt + fld just CMP_REC_FLUSH 15 0 * 1000) = false ∧ domOn dev 10 = true ∧ domOn off 10 = false := by decide +kernel

theorem witness_DramCommands :
    let s := put dev [(DDR_STS, 0x1000), (DDR_CH_CFG 0, 0x12C00000)]
    let t := put dev [(DDR_STS, 0x2000)]
    allSpelled [(s, 0x0901, .ddrTrain cmd 0), (dev, 0x0902, .ddrConfig cmd 1 2 4800 2 1 16 16 0 0 0 0 0 0), (dev, 0x0902, .ddrConfig cmd 0xFF 0 0 0 0 0 0 1 255 250 65535 1 60000)] = true ∧
    (domOn s 11 = true ∧ chState s 0 ≠ chUnconfigured ∧ chState s 0 ≠ chSelfRefresh ∧ chState s 0 ≠ chTraining ∧ s.seq.job = none ∧
      dieGrants s 0 = true) ∧ ((ratesOf 1 ++ ratesOf 2).contains 4800 = true ∧ (densitiesOf 1 ++ densitiesOf 2).contains 16 = true) ∧
    (Clocked t ∧ chState t 0 = chTraining) := by decide +kernel

theorem witness_DramWork :
    let late := put dev [(FTM_TIME_LO, 32000000)]
    Clocked dev ∧ chReady dev 1 = false ∧ chReady dev 0 = true ∧ (dramCh dev 0).reqs = [] ∧ chanOf dev 64 = 0 ∧ fld dev (DDR_CH_CFG 0) 8 8 = 0 ∧
    flag dev DDR_STS 0 = false ∧ portOf .image true = some 1 ∧ portOf .bar2 true = some 4 ∧
    reached dev ((dramCh dev 0).winAt + 32000000) = false ∧ reached late ((dramCh late 0).winAt + 32000000) = true := by decide +kernel

/-! ### Faults, the recorder and repair -/

theorem witness_EventsAreNumbered :
    rdN dev EVR_SEQ < 2 ^ 32 - 1 ∧ dev.evr.fifo.length < 128 ∧
    128 ≤ ({ dev with evr := { dev.evr with fifo := List.replicate 128 ⟨0, 0, 0, 0, []⟩ } }).evr.fifo.length ∧ rdN dev EVR_LOST < 2 ^ 32 - 1 := by
  decide +kernel

/-- The fault table with entry 3 in a state, for lane 5's fault 0x0107; and a full table. -/
def fltDev (st : Nat) : State := put dev [(FLT_ENTRY_W0 3, st * 2 ^ 30 + clsLane * 2 ^ 27 + 0x0107), (FLT_ENTRY_W1 3, srcLane 5)]

theorem witness_FaultEntries :
    let full := put dev ((List.range 64).map (fun i => (FLT_ENTRY_W0 i, 2 ^ 30 + clsFatal * 2 ^ 27 + 0x0402)))
    fltFree dev 1 = some 0 ∧ fltFree full 1 = none ∧ fltFind (fltDev 1) 0x0107 (srcLane 5) 1 = some 3 := by decide +kernel

theorem witness_FaultCommands :
    let s := fltDev 2
    let frozen := put dev [(EVR_STS, 1), (EVR_LOST, 2)]
    allSpelled [(s, 0x0B01, .faultRead cmd 16), (s, 0x0B02, .faultClear cmd 0 0 0 (1 <<< 3)), (s, 0x0B03, .recorderFreeze cmd), (frozen, 0x0B04, .recorderThaw cmd),
      (s, 0x0B07, .blackboxRead cmd 3 0 0 32)] = true ∧
    hostAddrOk cmd 16 16 = true ∧ hostAddrOk cmd 32 32 = true ∧ entrySt s 3 = 2 ∧ fld s (FLT_ENTRY_W0 3) 29 27 ≠ clsFatal ∧
    s.pwr.safe = false ∧ (ringFrozen frozen = true ∧ rdN frozen EVR_LOST ≠ 0) := by decide +kernel

/-- A recovery of a class with one timer of source 1. -/
def recovering (cls due : Nat) : State :=
  settle { put (fltDev 1) [(LAS_STS 5, 0x20), (SEQ_STS, 4)] with evr := { dev.evr with recov := [⟨cls, 32, [⟨cls, 32, 1, due⟩]⟩] } }

/-- Nothing is left to settle, and the timer has run out or not. -/
def settled (s : State) : Bool := decide (settle s = s)
def ranOut (s : State) (cls : Nat) : Bool := s.evr.recov.any (fun r => r.timers.any (fun t => t.cls == cls && t.source == 1 && reached s t.due))

theorem witness_RecorderWork_timers :
    [clsLane, clsLayer, clsDevice].all (fun c => settled (recovering c 5) && ranOut (recovering c 5) c) = true ∧
    settled (recovering clsLane 2000000) = true ∧ ranOut (recovering clsLane 2000000) clsLane = false := by decide +kernel

theorem witness_RecorderWork :
    let one := { dev with evr := { dev.evr with fifo := [⟨5, 0, 0x1301, 9, []⟩] } }
    let frozen := { put dev [(EVR_STS, 1)] with evr := one.evr }
    let auto := put dev [(EVR_CURSOR, 2 ^ 31 + 65535)]
    (dev.evr.thawLost = false ∧ dev.evr.fifo = []) ∧
    (Clocked one ∧ one.evr.fifo = [⟨5, 0, 0x1301, 9, []⟩] ∧ ringFrozen one = false ∧ rdN one EVR_LOST = 0 ∧ one.evr.bad = []) ∧ ringFrozen frozen = true ∧
    flag auto EVR_CURSOR 31 = true ∧ conditionHolds dev 0x010A (srcLane 5) = false ∧ conditionHolds (put dev [(LAS_STS 5, 4)]) 0x010A (srcLane 5) = true := by
  decide +kernel

theorem witness_RepairCommands :
    let cool := put dev ((List.range 16).map (fun t => (THM_TEMP t, 400)))
    let quiet := put dev [(TOP_ENGINE_CFG, 2 ^ 31), (SRAM_MACRO 2, 2 ^ 30)]
    let retry := { dev with pwr := { dev.pwr with dieRetry := [⟨1, 2, 15⟩] } }
    allSpelled [(dev, 0x0206, .laneEngineMap cmd 0 5 25 0), (dev, 0x0B05, .repairScan cmd 1 0 [] 0 none),
      (dev, 0x0B05, .repairScan cmd (1 <<< (503 / 16)) 0 [(503, false, 9)] 0 none), (dev, 0x0B06, .repairFix cmd 1 none), (cool, 0x0B06, .repairFix cmd 0 none)] = true ∧
    (inLayer dev = false ∧ laneOn dev 25 = none ∧ engineFailed dev 25 = false ∧ flag dev (SCN_STS 5) 10 = false ∧ dieGrants dev 1 = true ∧
      fld dev (SRAM_MACRO 503) 25 23 < 4) ∧ (inLayer cool = false ∧ inWindow cool = true ∧ dieGrants cool 4 = true) ∧
    (Clocked quiet ∧ flag quiet TOP_ENGINE_CFG 31 = true ∧ quietLayer quiet = true ∧ flag quiet (SRAM_MACRO 2) 30 = true ∧ dieGrants quiet 1 = true) ∧
    fld dev (SRAM_MACRO (0x10000 / 0x10000)) 7 0 + 1 < fld dev SRAM_CFG 23 16 ∧ (quietLayer retry = true ∧ retry.pwr.dieRetry = [⟨1, 2, 15⟩]) := by decide +kernel

/-! ### Other devices, domains and resets -/

theorem witness_RemoteAccess :
    let there := put dev [(FAB_ROUTE 9, 0x84000001)]
    let inner : List Byte := leBytes 2 1 ++ zeros 62
    let long := { cmd with flags := 4, ptrLen := 112, ptr := 4096 }
    let fans := { putHost dev 4096 (leBytes 1 2 ++ zeros 47 ++ inner) with
      hif := { dev.hif with fetched := [⟨0, 7, 0x0805, leBytes 2 0x0805 ++ leBytes 2 4 ++ leBytes 4 7 ++ zeros 8 ++ leBytes 8 4096 ++ leBytes 4 112 ++ zeros 36, false⟩] } }
    (Clocked dev ∧ portUp dev 1 = true ∧ layerSt (layerDev stExposing) = stExposing ∧ portUp (layerDev stExposing) 1 = true ∧
      (layerDev stExposing).seq.abortReq = none) ∧
    allSpelled [(dev, 0x0805, .remoteCommand cmd 0 (ownAddr dev) 1 0x40 [] []), (dev, 0x0805, .remoteCommand cmd 1 (ownAddr dev) 1 0x40 [7] []),
      (dev, 0x0805, .remoteCommand cmd 0 9 1 0x40 [] []), (there, 0x0805, .remoteCommand cmd 0 9 1 0x40 [] [])] = true ∧
    (Issue.remote cmd = false ∧ 9 ≠ ownAddr dev ∧ domOn dev 13 = true ∧ reachable dev 9 = false) ∧ reachable there 9 = true ∧
    (starts fans long 48 = true ∧ packetSays fans long 0x0805 (.remoteCommand long 2 0 0 0 [] inner) = true ∧ Issue.remote long = false ∧
      112 ≤ (if Issue.paramPtr long then long.ptrLen else 48) ∧ innerOk inner = true ∧ domOn (accept fans long) 13 = true ∧ groupPeers (accept fans long) = []) := by decide +kernel

theorem witness_PowerDomains :
    let off := put dev [(PWR_STS, 0xFFBFF)]
    let on := { off with pwr := { off.pwr with switching := [(10, true)] } }
    let held := { off with pwr := { off.pwr with inReset := 2 ^ 10 } }
    let armed := layerDev stArmed
    allSpelled [(dev, 0x0008, .powerDomain cmd 10 1 1), (off, 0x0008, .powerDomain cmd 10 1 0), (dev, 0x0008, .powerDomain cmd 10 0 0), (armed, 0x0008, .powerDomain cmd 2 0 0),
      (dev, 0x0003, .resetDomain cmd 10), (off, 0x0003, .resetDomain cmd 10)] = true ∧
    (switching dev 10 = false ∧ domOn dev 10 = (1 == 1) ∧ offCond dev 10 = true ∧ inUse dev 10 = false ∧ codecSt dev 1 ≠ 4 ∧ dev.jobs = []) ∧
    (switching off 10 = false ∧ domOn off 10 = false) ∧ (domOn armed 2 = true ∧ offCond armed 2 = false) ∧
    (Clocked on ∧ takeFirst (fun p : Nat × Bool => p.1 == 10) on.pwr.switching = some ((10, true), [])) ∧ held.pwr.inReset.testBit 10 = true := by decide +kernel

/-- 118 °C on sensor 15, and the last reading below it. -/
theorem witness_ThermalShutdown :
    let t (v : Int) := List.replicate 15 (400 : Int) ++ [v]
    let after (v : Int) := thmLevels dev (thmFailures dev (thmShow (thmFast (thmValues dev (t v)))))
    dev.pwr.thermLatch = false ∧ shutdownBy (after 1888) (t 1888) = some (15, 1888) ∧ shutdownBy (after 1887) (t 1887) = none ∧
    thmFailed (after 1888) 15 = false := by decide +kernel

theorem witness_ResetsAreSafe : 15 < 16 ∧ flag dev PWR_SEQ_STS 31 = false ∧ flag (put dev [(PWR_SEQ_STS, 2 ^ 31)]) PWR_SEQ_STS 31 = true := by
  decide +kernel

theorem witness_BootStarts :
    let boot (st src : Nat) := put { State.reset with pwr := { Pwr.reset with held := 0 } } [(PWR_BOOT_STS, st), (TOP_STRAP_STS, src)]
    let pcie := { boot 2 0 with pwr := { Pwr.reset with held := 0, imageFrom := 1 } }
    clocksOff hotDev = true ∧ (Clocked (boot 1 0) ∧ bootSt (boot 1 0) = 1) ∧
    (Clocked { boot 1 0 with pins := { Pins.reset with bootSel := 1 } } ∧ strapSource { boot 1 0 with pins := { Pins.reset with bootSel := 1 } } ≠ 0) ∧ bootSt dev ≠ 2 ∧
    (Clocked (boot 2 0) ∧ bootSt (boot 2 0) = 2 ∧ (boot 2 0).pwr.imageFrom = 0 ∧ 2 ^ 21 % 2 ^ 21 = 0 ∧ 256 + 3145728 ≥ (boot 2 0).pwr.image.length + 1048575) ∧
    (Clocked pcie ∧ bootSt pcie = 2 ∧ pcie.pwr.imageFrom = 1 ∧ 1048575 < 1048576 ∧ 256 + 3145728 ≥ pcie.pwr.image.length + 1048575) := by decide +kernel

theorem witness_RegisterAccess :
    let held := { dev with pwr := { dev.pwr with held := 2 } }
    let live := { dev with live := [(LEDG_SHUTTER, 0xFF, 0x55)] }
    let f := fRW .s 3 0 0
    2 % 4 ≠ 0 ∧ 4 % 4 = 0 ∧ 0x2000000 ≤ 0x2000000 ∧ (held.pwr.thermLatch = false ∧ held.pwr.held ≠ 0 ∧ held.pwr.held = 2) ∧ (domOn dev (domainOf FTM_TIME_LO) = true ∧ Clocked dev) ∧
    (live.live = [(LEDG_SHUTTER, 0xFF, 0x55)] ∧ hifReg LEDG_SHUTTER = false ∧ LEDG_SHUTTER ≠ TOP_SRAM_APERTURE ∧ live.running = [] ∧ loopTakes live = live) ∧ f.acc = .rw ∧ f.cls = .s := by
  decide +kernel

theorem witness_Bar2Words :
    Clocked dev ∧ 64 % 4 = 0 ∧ dramOk dev 64 4 = true ∧ dramSize dev < 2 ^ 30 + 4 ∧ dramOk dev (2 ^ 30) 4 = false ∧
    chReady (put dev [(DDR_STS, 0x3000)]) 0 = false ∧ rdN dev (DDR_CH_ECC_UNCORR 0) < 2 ^ 32 - 1 ∧ flag dev (DDR_CH_UE_ADDR_HI 0) 31 = false := by
  decide +kernel

theorem witness_OffDomain :
    let off := put dev [(PWR_STS, 0xFFBFF)]
    Clocked off ∧ CMP_STS < 0x1000000 ∧ domOn off (domainOf CMP_STS) = false ∧ 23 < 24 ∧ 0x17FF < 0x4000 := by decide +kernel

/-- The first and last bytes of the pool, with the window at 16 MiB. -/
theorem witness_ApertureWritesPoolOnly :
    Clocked dev ∧ apertureBase dev = 2 ^ 24 ∧ poolBase ≤ apertureBase dev + (0x1B00000 - 0x1000000) ∧
    apertureBase dev + (0x1CDFFFF - 0x1000000) + 1 ≤ 0x1CE0000 + 2 ^ 24 ∧ 0x1FFFFFC % 4 = 0 := by decide +kernel

theorem witness_MemoryWrites : Clocked dev ∧ MemForm dev ∧ portUp dev 1 = true := ⟨by decide, ⟨by decide, by decide, by decide⟩, by decide +kernel⟩

/-! ### Figures of the spec -/

/-- The nine ASCII digits "123456789". -/
def digits : List Byte := [0x31, 0x32, 0x33, 0x34, 0x35, 0x36, 0x37, 0x38, 0x39]

/-- The check values of R155 and of R363. -/
theorem test_crc_check_values : crc32c digits = 0xE3069283 ∧ crc16 digits = 0x29B1 := by decide +kernel

/-- The example of R8, and of the power word's steps (R245): 372.5 W and 700 W of 1,000 W. -/
theorem test_power_words : powerWord (372500 * 256) 1000 = 24412 ∧ powerWord (700000 * 256) 1000 = 45875 := by decide +kernel

/-- The grant of recipe 21 of the ledger example: 600 W with HEADROOM 64 is 750 W (R253). -/
theorem test_grant_of_recipe : grantOf { Recipe.none with power := 600000, headroom := 64 } = 750000 := by decide +kernel

/-- "Three layers of one cell": each layer's sums, the factor after it, and FLAGS bit 0 after the first (R370). -/
theorem test_burn_cell_three_layers :
    let one := cellUpdate { BurnCell.unit with sums := ⟨71827 * 1800, 1800, 72352 * 90, 90⟩ } 64 128 64 1
    let two := cellUpdate { one.1 with sums := ⟨70386 * 1750, 1750, 70975 * 88, 88⟩ } 64 128 64 2
    let three := cellUpdate { two.1 with sums := ⟨68944 * 1820, 1820, 72000 * 40, 40⟩ } 64 128 64 3
    one.1.factor = 64226 ∧ one.1.flags = 1 ∧ two.1.factor = 62940 ∧ two.1.flags = 0 ∧ three.1.factor = 62088 := by decide +kernel

/-- The example of R368: 21,000 PDU against 20,000 PDU at 390 W of 400 W. -/
theorem test_burn_sample : burnSample (21000 * 256) (20000 * 256) 400000 390000 = 70577 := by decide +kernel

/-- The run-up of "Marking a skywritten hatch": 2 m/s in 141.42 µs over 1,131.4 PLU (R206; 8,000 PLU a mm). -/
theorem test_runup : changeTime 16000000 320000000000 3200000000000000 / 10000000 = 14142 ∧
    changeDist16 0 16000000 320000000000 3200000000000000 * 10 / 65536 = 11313 := by decide +kernel

/-- The weights at t = 0.25 and t = 0.75 of the same example (R216). -/
theorem test_map_weights :
    mapWeights 16384 = [-301989888, 3724541952, 973078528, -100663296] ∧ mapWeights 49152 = [-100663296, 973078528, 3724541952, -301989888] := by
  decide +kernel

/-- The map of the example around its start point: the nodes of the linear map at columns 5 to 8 and rows 2 to 5, MX of node (6, 3)
raised, and the drift of the lane. -/
def hatchMap : State :=
  let node (c : Nat) (v : Int) (i j : Nat) (s : State) : State := putSram s (mapBase dev 3 + 64 + 12 * (65 * j + i) + 4 * c) (leBytes 4 (unsgn 32 v))
  let at1 (s : State) (i j : Nat) : State :=
    node 0 (512 * (64000 * (i : Int) - 2048000) + (if i = 6 ∧ j = 3 then 10240 else 0)) i j (node 1 (512 * (64000 * (j : Int) - 2048000)) i j s)
  let s := put dev [(SCN_DRIFT_GAIN_X 3, 429497), (SCN_DRIFT_OFF_X 3, 512)]
  let s := putSram s (mapBase dev 3 + 20) (leBytes 4 64000 ++ leBytes 4 655360)
  [5, 6, 7, 8].foldl (fun s i => [2, 3, 4, 5].foldl (fun s j => at1 s i j) s) s

theorem test_hatch_start_counts : plateCounts hatchMap 3 (400000 * 65536) (240000 * 65536) (-30 * 65536) = (-3296320, -3616000, -300) := by
  decide +kernel

/-- The return of "A dosing drive given a gentler deceleration" (R385): 840 steps under 400,000 and 200,000 steps/s² peak at 15,100 (15,099.7)
steps/s after 280 steps, and 560 steps slow down again. -/
theorem test_axis_return : (trapFresh 2000 2000 40000 400000 200000 (840 * 65536)).map (·.v) = [2000, 15099, 15099] ∧ rampDist 2000 40000 400000 / 65536 = 1995 := by
  decide +kernel

/-- A lane whose PD0 run ends: the dark means and the sums of "A run inside a hatch jump". -/
def hatchRun : State :=
  { put dev [(AFE_PD_DARK_COUNT 13 0, 3112), (AFE_PD_OFF_H 13 0, 308096), (AFE_PD_OFF_L 13 0, 303936), (AFE_PD_RATIO 13 0, 1052672), (AFE_CFG 13, 1)] with
    lanes := [(13, { Lane.reset with afe := [(0, { AfeIn.reset with darkH := 308672 * 3112, darkL := 304000 * 3112, run := some 5, offValid := true })] })] }

theorem test_calibration_run :
    let m : AfeSums := ⟨1180 * 512, 1186 * 512, 49332 * 512, 4186 * 512, 49340⟩
    sumsRatio m = some 1051896 ∧ (afeIn (afeCompute hatchRun 13 0 m) 13 0).result = some ⟨308672, 304000, 1051896, true, false⟩ := by
  decide +kernel

/-- The value on the next line: the high path saturates and the low mean is 4,185.0 codes (R299). -/
theorem test_low_range_value :
    pdValue (put dev [(AFE_LIMITS 13, 65000), (AFE_PD_OFF_L 13 0, 304000), (AFE_PD_RATIO 13 0, 1051896)]) 13 0
      ⟨13, 0, List.replicate 8 65535, List.replicate 8 4185⟩ = (12316634, true) := by
  decide +kernel

/-- The loops of "Back-reflection taking over" at tick 1, with the sensors' values of that tick. -/
def reflection : State :=
  put { dev with lanes := [(2, { Lane.reset with window := true, afe := [(0, { AfeIn.reset with fresh := false }), (1, { AfeIn.reset with fresh := false })] })] }
    [(AFE_CFG 2, 3), (AFE_PD_VALUE 2 0, 19360 * 256), (AFE_PD_VALUE 2 1, 2400 * 256), (LOOP_STS 2, 0x303), (AFE_STS 2, 0),
     (LOOPK_CFG 2 0, 1), (LOOPK_CFG 2 2, 1), (LOOP_SETPT 2 0, 5120000), (LOOP_SETPT 2 2, 768000), (LOOP_KP 2 0, 1048576), (LOOP_KI 2 0, 262144),
     (LOOP_KP 2 2, 4194304), (LOOP_KI 2 2, 1048576), (LOOP_LIM 2 0, 0x1400080), (LOOP_LIM 2 2, 0x2000000)]

/-- Outputs of 410 W and 437.5 W, L0 decides, and the integrators go to 2.5 W and 10 W (R340 to R343; 1 W is 2^18). -/
theorem test_loops_tick_one :
    let pb : Int := 400 * 262144
    let s := loopsStep reflection 2 pb true true 5
    let parts := loopParts reflection 2 true 5
    let t := loopsSettle s 2 pb (410 * 262144) (loopSel s 2 parts (410 * 262144)) false
    rdI s (LOOP_OUT 2 0) = 410 * 262144 ∧ rdI s (LOOP_OUT 2 2) = 875 * 131072 ∧ loopsMin s 2 parts = some (410 * 262144) ∧
    loopSel s 2 parts (410 * 262144) = some 0 ∧ rdI t (LOOP_INTEG 2 0) = 5 * 131072 ∧ rdI t (LOOP_INTEG 2 2) = 10 * 262144 := by
  decide +kernel

/-- The requests of the ledger example, in the order of their age. -/
def ledgerStart : State :=
  { put dev [(LEDG_BUDGET, 1500000), (LEDG_DPDT, 4000), (LEDG_STEP_MAX, 800000), (SEQ_STS, 4)] with
    ledger := { waiting := [⟨0, 0, 450000, 0, 1⟩, ⟨1, 0, 750000, 0, 2⟩, ⟨2, 0, 450000, 0, 3⟩], grants := [], still := none } }

/-- At a ceiling of 449 W none is granted, at 450 W lane 0, and at 1,200 W lane 1 too but not lane 2 (R254). -/
theorem test_ledger_pass :
    let granted (c : Nat) := (grantPass c ledgerStart.ledger.waiting ledgerStart).ledger.grants.map (·.lane)
    granted 449000 = [] ∧ granted 450000 = [0] ∧ granted 1200000 = [0, 1] := by
  decide +kernel

/-- Device 5 of "One Sync on a slave port": port 1 is its slave port, the mean path delay is 309.25 ns, its integrator 41,144. -/
def syncing : State :=
  let s := put dev [(FTM_P_DELAY 1, 20267008), (FTM_STS, 1)]
  { s with ftm := { s.ftm with integ := 41144, slave := some 1 } }

/-- The Sync of the example: offset 753,664, i 41,328, INCR 8,589,890,320 and E 21 (R462, R463). -/
theorem test_one_sync :
    let t := next (exec (.syncMsg 1 0 false 1003000000 24576 5 (1003000321 * 65536 + 8192)) syncing)
    rdI t FTM_OFFSET = 753664 ∧ t.ftm.integ = 41328 ∧ rd64 t FTM_INCR_LO FTM_INCR_HI = 8589890320 ∧ rdN t FTM_ERR = 21 := by
  decide +kernel

/-- "Completions out of order across a ring wrap": the doorbell makes three entries pending, and two completions at tail 14 of
phase 1 leave tail 0 and phase 0 (R124, R127). The packets of TAGs 0x102 and 7 have been fetched. -/
def wrapping : State :=
  let packet (tag : Nat) : Fetched := ⟨2, tag, 2, leBytes 2 2 ++ leBytes 2 0 ++ leBytes 4 tag ++ zeros 56, false⟩
  { put dev [(HIF_SQ_CFG 2, 0x8004), (HIF_SQ_STS 2, 1), (HIF_CQ_CFG 2, 4), (HIF_SQ_HEAD 2, 14), (HIF_CQ_TAIL 2, 0x100E)] with
    hif := { dev.hif with sqTail := [(2, 14)], cqHead := [(2, 14)], fetched := [packet 0x102, packet 7] } }

theorem test_ring_wrap :
    let rung := next (exec (.hifSqTail 2 1) wrapping)
    let done := next (exec (.identify { cmd with ring := 2 }) (next (exec (.identify { cmd with ring := 2, tag := 0x102 }) wrapping)))
    sqTail wrapping 2 = 14 ∧ sqTail rung 2 = 1 ∧ flag rung (HIF_SQ_STS 2) 1 = false ∧ rdN done (HIF_CQ_TAIL 2) = 0 := by
  decide +kernel

/-- A raw DEFLATE stream of one stored block, as the stream of "Encoding a small island" is: BFINAL 1, BTYPE 00, LEN, its complement and
the bytes (R170). -/
theorem test_stored_block :
    let e := expand 0 64 4096 true [0x01, 0x03, 0x00, 0xFC, 0xFF, 7, 8, 9]
    e.out = [7, 8, 9] ∧ e.err = 0 ∧ e.used = 8 := by
  decide +kernel

/-- RESET_CAUSE, boot state and safe pin right after reset (R90, R94, R107). -/
theorem test_reset : State.reset.pwr.safe = true ∧ State.reset.pins.safeN = false ∧ State.reset.pending = [] := by decide

/-- No row of the table has bits, so no word spells a command. -/
theorem test_no_word_spells_a_command : decodeTableWord 32 0 = none ∧ (dev.withFetchWord 32 0) = dev := by decide +kernel

/-- An empty queue idles, and a queue gives its front (assumption 11). -/
theorem test_queue : next (step dev) = dev ∧ (next (step { dev with pending := [.porNLow, .vddCoreRemoval] })).pending = [.vddCoreRemoval] := by
  decide +kernel

/-! ### Every form completes -/

/-- The calibration record in DRAM, with both inputs of lane 5 enabled; and context 4 with good settings in its shadows. -/
def calDev : State := putDram (put jobDev [(AFE_CFG 5, 3)]) 1024 (calRec ++ leBytes 4 (crc32c calRec))
def ctxDev : State :=
  { camDev with shadow := (camRegs 4).map (fun (r : Nat × Nat) => (r.1, if r.1 = ISP_CTX_CFG 4 then BitVec.ofNat 32 (2 ^ 31 + 0x82B00) else BitVec.ofNat 32 r.2)) }

theorem witness_LaneCommandsComplete :
    let t := tableDev
    let set := 0x8000 + 256 * ownAddr t + 3
    let inl := [set % 256, set / 256] ++ List.replicate 30 0
    let zero := List.replicate 7 0
    let routed := { ctxDev with shadow := mset ctxDev.shadow (ISP_CTX_ROUTE 4) (BitVec.ofNat 32 (5 * 256)) }
    allSpelled [(dev, 0x0101, .jobOpen cmd 1 0 (2 ^ 20) (2 ^ 20) (2 ^ 24)), (t, 0x0102, .jobClose cmd 1), (t, 0x0103, .recipeLoad cmd 5 1 1 1024 []),
      (t, 0x0104, .lanesetLoad cmd 1 1 2 0 inl []), (t, 0x0105, .layerLoad cmd 4096 4), (dev, 0x0302, .overlapSet cmd 1 0 0 0 0 0 0 63 1 0 0 0 0 0 0 []),
      (dev, 0x0303, .plumeSet cmd 1 64 0 0 9 9 0 0), (dev, 0x0304, .stitchSet cmd 63 255 1023),
      (dev, 0x0201, .laneConfig cmd 23 0 1000 1000 100 1 1000 100 1 1 1 0 1 1), (dev, 0x0203, .scannerLinkSet cmd 23 1 0),
      (dev, 0x0205, .laneJog cmd 23 1 (-1) 2 3 1), (dev, 0x0204, .laserPortSet cmd 23 2 0 1 1 0 0),
      (dev, 0x0207, .driftTermsSet cmd 23 0 255 [1, -2, 3, -4, 5, -6, 7, -8]), (dev, 0x0301, .ledgerSet cmd 9 0 0),
      (calDev, 0x0401, .afeSet cmd 5 0 30 0 32768 16), (calDev, 0x0402, .afeCalibrate cmd (1 <<< 5) 1 0), (calDev, 0x0403, .calValuesRead cmd 0 1 64),
      (calDev, 0x0404, .calValuesWrite cmd 1 1 1024 []), (dev, 0x0405, .csiPortSet cmd 5 1 2500 0 100), (ctxDev, 0x0406, .contextSet cmd 4 0 0 zero []),
      (ctxDev, 0x0407, .statsRoute cmd 4 5 0 0)] = true ∧
    (dev.seq.job = none ∧ areaOk dev 0 (2 ^ 20) = true ∧ areaOk dev (2 ^ 20) (2 ^ 24) = true) ∧
    (t.seq.job = some 1 ∧ layerSt t = stIdle ∧ quietLayer t = true ∧ inHostArea t 1024 64 = true ∧ tablesOpen t = true ∧ dramOk t 1024 64 = true ∧
      recipeOk (dramBytes t 1024 64) 5 = true ∧ laneSetOk (ownAddr t) ((List.range 4).map (fun c => leAt (inl.map (BitVec.ofNat 8)) (2 * c) 2)) = true) ∧
    (domOn dev (2 + quadOf 23) = true ∧ (lane dev 23).jog = none ∧ laneInLayer dev 23 = false ∧ dev.pwr.safe = false ∧ (lane dev 23).drift = none) ∧
    (domOn calDev (afeDom 5) = true ∧ afeEn calDev 5 0 = true ∧ (afeIn calDev 5 0).run = none ∧ (afeIn calDev 5 0).pend = none ∧ hostAddrOk cmd 64 32 = true ∧
      inHostArea calDev 1024 32 = true ∧ dramOk calDev 1024 32 = true ∧ afePass1 [dramBytes calDev 1024 32] [] 0 = none ∧
      domOn calDev (afeDom (leAt (dramBytes calDev 1024 32) 0 1)) = true) ∧
    (domOn dev (2 + 5) = true ∧ camIdle dev 5 = true) ∧
    ((ctx ctxDev 4).commit = none ∧ zero.all (· == 0) = true ∧ (ctxChecks ctxDev 4 (ctxShadow ctxDev 4)).all (·.2) = true ∧
      (ctxChecks routed 4 (ctxShadow routed 4)).all (·.2) = true) := by decide +kernel

theorem witness_UnitCommandsComplete :
    let train := put dev [(DDR_STS, 0x1000), (DDR_CH_CFG 0, 0x12C00000)]
    let stream := { put dev [(CMP_STS, 4 * 2 ^ 4)] with recording := { Rec.reset with on := true, stream := true } }
    let flt := fltDev 2
    allSpelled [(dev, 0x0601, .burnConfig cmd 0 0 0 1 0 0 2000 1 1 0 0 1 1), (jobDev, 0x0602, .burnMapLoad cmd 1 0 0), (jobDev, 0x0603, .burnMapSave cmd 0 64),
      (jobDev, 0x0604, .burnFreeze cmd 1 0), (train, 0x0901, .ddrTrain cmd 0), (dev, 0x0902, .ddrConfig cmd 0xFF 0 0 0 0 0 0 0 255 250 512 1 100),
      (dev, 0x0903, .dmaChannelSet cmd 31 0 255), (dev, 0x0904, .dmaStart cmd 4 1 4096), (dmaDev, 0x0905, .dmaStop cmd (1 <<< 4)),
      (dev, 0x0906, .compressJob cmd 1 0 0 1 1 1 0 4096 3 1024), (dev, 0x0907, .decompressJob cmd 1 0 1 1 1 0 4096 3 1024 0 7), (stream, 0x0908, .codecFlush cmd 1 0),
      (codecDev 3 job, 0x0909, .codecResume cmd 1 1 0 0 0 0), (flt, 0x0B01, .faultRead cmd 16), (flt, 0x0B02, .faultClear cmd 0 0 0 (1 <<< 3)),
      (flt, 0x0B03, .recorderFreeze cmd), (flt, 0x0B04, .recorderThaw cmd), (dev, 0x0B07, .blackboxRead cmd 2 0 0 0)] = true ∧
    (burnCmdState jobDev = true ∧ burnBusy jobDev = false ∧ dramOk jobDev (bBase jobDev) (bLen jobDev) = true ∧ cmd.ring ≠ 15) ∧
    (domOn train 11 = true ∧ chState train 0 ≠ chUnconfigured ∧ chState train 0 ≠ chSelfRefresh ∧ chState train 0 ≠ chTraining ∧ train.seq.job = none ∧
      dieGrants train 0 = true) ∧
    (flag dev DMA_STS 0 = false ∧ dmaState dev 4 = 0 ∧ dmaState dmaDev 4 = 1 ∧ (dmaCh dmaDev 4).flight = []) ∧
    (domOn dev 10 = true ∧ codecSt dev 1 = 0 ∧ jobParams cmd { job with rate := 1 } = true ∧ jobParams cmd { job with comp := false, rate := 1, cap := 7 } = true ∧
      dramOk dev 0 3 = true ∧ dramOk dev 4096 1024 = true) ∧
    (domOn stream 10 = true ∧ codecSt stream 1 = 4 ∧ stream.recording.stream = true) ∧ (codecSt (codecDev 3 job) 1 = 3 ∧ jobOf (codecDev 3 job) 1 = some job) ∧
    (hostAddrOk cmd 16 16 = true ∧ entrySt flt 3 = 2 ∧ fld flt (FLT_ENTRY_W0 3) 29 27 ≠ clsFatal ∧ faultAtLeast dev clsDevice = false ∧ hostAddrOk cmd 0 32 = true) := by
  decide +kernel

/-- Layer states and handoffs in which each event's conditions hold. -/
theorem witness_LaneEventsComplete :
    let loading := { put jobDev [(SEQ_STS, 1)] with seq := { jobDev.seq with loading := some 4096 }, running := [⟨0x0105, ⟨0, 7, none⟩, 0, false, [4], 0⟩] }
    let in_ (st : Nat) (f : Seq → Seq) : State := { layerDev st with seq := f (layerDev st).seq }
    let start := in_ stArmed (fun q => { q with start := some (1000000, false) })
    let again := in_ stPaused (fun q => { q with start := some (1000000, true) })
    let stop := in_ stExposing (fun q => { q with stopReq := true })
    let bath := put (layerDev stStopBath) [(FTM_TIME_LO, 100000000)]
    let abort := in_ stArmed (fun q => { q with abortReq := some ⟨2, 0⟩ })
    let done := { layerDev stExposing with lanes := [(5, { Lane.reset with phase := .ended, atEnd := true, written := 100, head := 100 })] }
    let under := put (layerDev stExposing) [(LN_UNDERRUNS 5, 256)]
    let remark := { layerDev stExposing with lanes := [(5, { Lane.reset with phase := .underrun, written := 64 })] }
    let asks := { put dev [(SEQ_STS, 4)] with lanes := [(5, { Lane.reset with phase := .free, claimOut := some (9, 2, 1000) })] }
    let pool := { dev with ovl := { dev.ovl with pool := [entry] } }
    let border := { dev with ovl := { dev.ovl with border := [(9, [⟨0, false, 0, 0, 0⟩])] } }
    Clocked loading ∧ (loading.seq.loading = some 4096 ∧ (findRun loading 0x0105 0).isSome = true ∧ layerSt loading = stLoading ∧ loading.seq.loadBad = false) ∧
    (inLayer under = true ∧ refillLane under 0 = none) ∧
    (start.seq.start = some (1000000, false) ∧ layerSt start = stArmed ∧ 1000000 ≤ now start) ∧
    (again.seq.start = some (1000000, true) ∧ layerSt again = stPaused ∧ 1000000 ≤ now again) ∧
    (layerSt stop = stExposing ∧ stop.seq.stopReq = true ∧ stop.seq.abortReq = none ∧ resolved stop = false) ∧
    (layerSt bath = stStopBath ∧ allParked bath = true ∧ reached bath (bath.seq.stopAt + fld bath SEQ_STOP_CFG 19 16 * 1000000) = true) ∧
    (abort.seq.abortReq = some ⟨2, 0⟩ ∧ stLoading ≤ layerSt abort ∧ layerSt abort ≤ stPaused) ∧
    (layerSt done = stExposing ∧ resolved done = true ∧ done.seq.abortReq = none ∧ done.ledger.waiting = []) ∧
    (fld under SEQ_CFG 15 8 < rdN under (LN_UNDERRUNS 5) ∧ (lane under 5).phase ≠ .halted) ∧
    (layerSt remark = stExposing ∧ (lane remark 5).phase = .underrun ∧ (lane remark 5).motion.dur ≤ (lane remark 5).motion.t ∧ refilled remark 5 = true) ∧
    (portUp asks 1 = true ∧ recCrcOk (recBytes32 goodRec) = true ∧ withdrawn asks = false ∧ takesClaims asks (5 % 24) = true ∧
      (lane asks (5 % 24)).claimOut = some (9, 2, 1000) ∧ (lane asks 5).claimOut.any (fun c => reached asks (c.2.2 + 20000)) = true) ∧
    (pool.ovl.pool.any (heldBy 216 0 0) = true ∧ pool.ovl.pool.find? (heldBy 216 0 0) = some entry) ∧
    ((mget [] border.ovl.border 9).isEmpty = false ∧ border.ovl.stale.testBit 9 = false ∧ reached border (mget 0 border.ovl.heard 9 + 20000) = true) ∧
    (dev.ovl.excess = 0 ∧ dev.ovl.excessAt + 1000000 ≤ now dev) := by decide +kernel

/-- Lanes, inputs and burn map in which each event's conditions hold. -/
theorem witness_LaneEventsComplete_lanes :
    let on (x : Lane) : State := { put dev [(FTM_TIME_LO, 1000000000)] with lanes := [(5, x)] }
    let linking := { dev with running := [⟨0x0203, ⟨0, 6, none⟩, 5, false, [], 0⟩] }
    let jogged := on { Lane.reset with jog := some ⟨false, 0, 0, 0⟩ }
    let turned := on { Lane.reset with phase := .jump, retarget := some ⟨false, false, 65536, 0, 0, 1000⟩ }
    let drift (k : Nat) : State := { on { Lane.reset with drift := some ⟨k, 3, [1, 2]⟩ } with running := [⟨0x0207, ⟨0, 6, none⟩, 5, false, [], 0⟩] }
    let bsl3 := put dev [(SCN_LINK_CFG 5, 3), (SCN_STS 5, 2)]
    let lost := { bsl3 with lanes := [(5, { Lane.reset with errRun := 255 })] }
    let off := { put (layerDev stExposing) [(SCN_DEV_CFG 5, 2 ^ 31 + 2)] with lanes := [(5, { Lane.reset with devRun := 3 })] }
    let afe (x : AfeIn) : State := { put dev [(FTM_TIME_LO, 50000000)] with lanes := [(5, { Lane.reset with afe := [(0, x)] })] }
    let pend := afe { AfeIn.reset with pend := some 0, now1 := true }
    let run := afe { AfeIn.reset with run := some 0 }
    let burn (ab : Bool) : State := put { jobDev with burn := { jobDev.burn with ended := some (4, ab), peers := [(9, ⟨true, 0, 0, 2000, 1, 1, 0, 0, 1, 1⟩)] } } [(FTM_TIME_LO, 50000000)]
    (findRun (put linking [(FTM_TIME_LO, 10000000)]) 0x0203 5).any (Running.aged (put linking [(FTM_TIME_LO, 10000000)]) 10000000) = true ∧
    Clocked jogged ∧ jogDone jogged 5 = true ∧
    ((lane turned 5).retarget = some ⟨false, false, 65536, 0, 0, 1000⟩ ∧ (lane turned 5).phase = .jump) ∧
    ((lane (drift 0) 5).drift = some ⟨0, 3, [1, 2]⟩ ∧ (lane (drift 1) 5).drift = some ⟨1, 3, [1, 2]⟩ ∧
      (findRun (drift 1) 0x0207 5).all (Running.aged (drift 1) 1000000000) = true) ∧
    (linkGen bsl3 5 = 3 ∧ flag bsl3 (SCN_LINK_CFG 5) 3 = false ∧ ungroup 23 0 = none) ∧
    (linkState lost 5 = 2 ∧ 2 ≤ linkGen lost 5 ∧ fld lost (SCN_DEV_CFG 5) 15 8 ≤ (lane lost 5).errRun ∧ laneInLayer lost 5 = false) ∧
    (flag off (SCN_DEV_CFG 5) 31 = true ∧ fld off (SCN_DEV_CFG 5) 7 0 < (lane off 5).devRun ∧ (lane off 5).devRaised = false ∧ laneInLayer off 5 = true) ∧
    emitOf dev 5 = false ∧ domOn pend (afeDom 5) = true ∧
    ((afeIn pend 5 0).pend.isSome = true ∧ (afeIn pend 5 0).now1 = true ∧ (afeIn pend 5 0).pend.any (fun t => decide (t + 50000000 ≤ now pend)) = true) ∧
    ((afeIn run 5 0).run = some 0 ∧ reached run (0 + 64000) = true ∧ (afeIn run 5 0).result = none ∧ (afeIn run 5 1).run = none) ∧
    (burn true).burn.ended = some (4, true) ∧ ((burn false).burn.ended ≠ none ∧ reached (burn false) ((burn false).burn.endedAt + 50000000) = true ∧
      borderWhole (burn false) 9 = false ∧ (sharers (burn false)).contains 9 = true) := by decide +kernel

/-- Cameras in which each event's conditions hold. -/
theorem witness_UnitEventsComplete :
    let with_ (x : Ctx) : State := { camDev with cams := [(3, x)] }
    let line := with_ { Ctx.reset with frames := [{ camFrame with buf := [[(1, 1)]] }] }
    let ready := with_ { Ctx.reset with frames := [{ camFrame with feTime := some 5 }] }
    let outs := with_ { Ctx.reset with out := [camRec], watch := some 0 }
    let batch (items : List (List Nat)) : SensorBatch := ⟨2, items, false, some 6, none⟩
    let writes := with_ { Ctx.reset with writes := [batch [[1]]] }
    let late := put (with_ { Ctx.reset with writes := [batch []], commit := some (2, []), commitAt := 5 }) [(FTM_TIME_LO, 100000000)]
    Clocked dev ∧ ({ dev with live := [(LEDG_SHUTTER, 0xFF, 0x55)] }).live ≠ [] ∧ (domOn dev (2 + 0) = true ∧ framesVc dev 0 0 = []) ∧
    (domOn line (8 + 0) = true ∧ ctxs.any (hasLine line 0) = true ∧ (pipe line 0).busyTo < nowFs line + tickFs line) ∧
    (watchOver outs 3 = true ∧ (ctx outs 3).commit = none ∧ (ctx outs 3).out = [camRec] ∧ camRec.ready < now outs ∧ camRec.routes = 0) ∧
    ((ctx ready 3).frames = [{ camFrame with feTime := some 5 }] ∧ frameReady { camFrame with feTime := some 5 } = true ∧
      sampled ready { camFrame with feTime := some 5 } = true) ∧
    ((ctx writes 3).writes = [batch [[1]]] ∧ (batch [[1]]).first = none ∧ (batch [[1]]).base = some 6 ∧ 0 < (batch [[1]]).items.length ∧
      domOn writes (2 + fld writes (ISP_CTX_CFG 3) 25 23) = true) ∧
    ((ctx late 3).commit = some (2, []) ∧ (batch []).gen = 2 ∧ reached late ((ctx late 3).commitAt + 100000000) = true) := by decide +kernel

/-- Axes in which each event's conditions hold. -/
theorem witness_UnitEventsComplete_axes :
    let ax (st homing : Nat) : State := axAt st { Axis.reset with plan := some ranPlan, homing := homing }
    let far := { put (ax axHoming 2) [(AX_POS 3, 100), (AX_HOME_TRAVEL 3, 100)] with axes := [(3, { Axis.reset with plan := some ranPlan, homing := 2, homeFrom := 0 })] }
    let sw := put axDev [(AX_SW_CFG 3, 0x0A020A38), (AX_SW_STS 3, 0x4)]
    let noisy := { sw with axes := [(3, { Axis.reset with edges := [(2, List.replicate 3 ⟨0, 0, 0⟩)] })] }
    let enc := { put axDev [(AX_CFG 3, 0x50), (AX_DEV 3, 0x10000), (FTM_TIME_LO, 20000000)] with axes := [(3, { Axis.reset with devSince := some 0 })] }
    let ssi := put axDev [(AX_CFG 3, 0x20), (AX_SSI_CFG 3, 0x18000000)]
    let resume := { put dev [(AX_STS 0, 0x10A00000), (AX_REMAIN 0, 5)] with
      resumeStart := some ⟨1, false, false, 0⟩, axes := [(3, { Axis.reset with plan := some ranPlan })] }
    let group := { axAt axArmed { Axis.reset with armed := some ranPlan, plan := some ranPlan } with groupStart := some ⟨8, false, false, 0⟩ }
    ((axis (ax axMoving 0) 3).plan = some ranPlan ∧ ranPlan.dur ≤ ranPlan.t ∧ axState (ax axMoving 0) 3 = axMoving ∧ axState (ax axStopping 0) 3 = axStopping ∧
      axState (ax axHoming 8) 3 = axHoming ∧ (axis (ax axHoming 8) 3).homing = 8 ∧ axState (ax axHoming 7) 3 = axHoming ∧ (axis (ax axHoming 7) 3).homing = 7) ∧
    (axState far 3 = axHoming ∧ (homeLimit far 3).map (fun l => decide (l ≤ (rdI far (AX_POS 3) - (axis far 3).homeFrom).natAbs)) = some true) ∧
    (swEn sw 3 2 = true ∧ swOn sw 3 2 = true ∧ swRaw sw 3 2 = false ∧ swHeld sw 3 2 = true ∧ axState sw 3 ≠ axHoming) ∧
    (fld noisy (AX_SW_CFG 3) 23 16 ≠ 0 ∧ axState noisy 3 ≠ axDisabled ∧ fld noisy (AX_SW_CFG 3) 23 16 <
      ((mget [] (axis noisy 3).edges 2).filter (fun e => decide (now noisy < e.time + fld noisy (AX_SW_CFG 3) 31 24 * 1000000))).length) ∧
    (flag enc (AX_CFG 3) 6 = true ∧ hasEncoder enc 3 = true ∧ axState enc 3 ≠ axDisabled ∧ fld enc (AX_DEV_WIN 3) 15 0 < (rdI enc (AX_DEV 3)).natAbs ∧ stallDue enc 3 = true) ∧
    (hasEncoder (put axDev [(AX_CFG 3, 0x10)]) 3 = true ∧ flag (put axDev [(AX_CFG 3, 0x10)]) (AX_CFG 3) 6 = false) ∧
    (fld ssi (AX_CFG 3) 5 4 = 2 ∧ flag ssi (AX_SSI_CFG 3) 31 = false) ∧
    (startDue group 0x0706 ⟨8, false, false, 0⟩ = true ∧ axState group 3 = axArmed ∧ (axis group 3).armed.isSome = true) ∧
    (startDue resume 0x0705 ⟨1, false, false, 0⟩ = true ∧ resume.pwr.safe = false ∧ axState resume 0 = axIdle ∧ flag resume (AX_STS 0) 21 = true) := by decide +kernel

/-- Memory, engines and the recorder in which each event's conditions hold. -/
theorem witness_UnitEventsComplete_units :
    let train := put dev [(DDR_STS, 0x2000)]
    let late := put dev [(FTM_TIME_LO, 32000000)]
    let bad := { putDram dmaDev 4096 (leBytes 20 0 ++ [16] ++ leBytes 11 0) with dma := dmaDev.dma }
    let moves := put { dmaDev with dma := [(4, { DmaCh.reset with space := 1, cur := some ⟨0, poolBase, 32, 1, 2, true, 0⟩ })] } [(DMA_CH_REMAIN 4, 32)]
    let rec_ := { put dev [(CMP_REC_CFG, 0xC0000000), (FTM_TIME_LO, 100000000)] with recording := { Rec.reset with on := true, stream := true } }
    let frozen := { put dev [(EVR_STS, 1)] with evr := { dev.evr with fifo := [⟨5, 0, 0x1301, 9, []⟩] } }
    Clocked train ∧ chState train 0 = chTraining ∧
    (chReady dev 0 = true ∧ (dramCh dev 0).reqs = [] ∧ chanOf dev 64 = 0 ∧ portOf .image true = some 1 ∧ fld dev (DDR_CH_CFG 0) 8 8 = 0) ∧
    reached late ((dramCh late 0).winAt + 32000000) = true ∧
    ((dmaCh bad 4).cur = none ∧ (dmaCh bad 4).pre = none ∧ dmaState bad 4 = 1 ∧ (dmaCh bad 4).space = 1 ∧
      (spaceRead bad 1 (rd64 bad (DMA_CH_DESC_LO 4) (DMA_CH_DESC_HI 4)) 32).map dmaDesc = some none) ∧
    (dmaSlot moves = some 1000000 ∧ reached moves 1000000 = true ∧ dmaPick moves 1000000 = some 4) ∧
    (jobOf (codecDev 1 job) 1 = some job ∧ codecSt (codecDev 1 job) 1 = 1 ∧ (jobInput (codecDev 1 job) job).isSome = true) ∧
    (recDeflate rec_ = true ∧ rec_.recording.stream = true ∧ reached rec_ (rec_.recording.flushAt + fld rec_ CMP_REC_FLUSH 15 0 * 1000) = true) ∧ domOn dev 10 = true ∧
    conditionHolds dev 0x010A (srcLane 5) = false ∧ (settled (recovering clsDevice 5) = true ∧ ranOut (recovering clsDevice 5) clsDevice = true) ∧
    (frozen.evr.thawLost = false ∧ frozen.evr.fifo = [⟨5, 0, 0x1301, 9, []⟩] ∧ ringFrozen frozen = true) := by decide +kernel
end Sys2Proof.Tests
end

/-! PROOFS. Accesses of a domain that is off (R89): register reads and writes, and the command that stands for both. -/

namespace Sys2Proof.Proofs

open Sys2Proof.Machine Sys2Proof.Laws

/-- Where the clocked logic runs, neither R114's latch nor a held reset takes an access before the rule of R89. -/
theorem clocked_iff (s : State) : Clocked s ↔ s.pwr.thermLatch = false ∧ s.pwr.held = 0 := by
  simp [Clocked, clocksOff]

section OffBlock

variable {s : State} {off : Nat}

theorem regRead_of_domain_off (id : Nat) (hlatch : s.pwr.thermLatch = false) (hoff : off < 0x1000000)
    (hdom : domOn s (domainOf off) = false) : regRead s id off = (setFlag s PWR_STS 31 true, 0xFFFFFFFF) := by
  have hbar : ¬ 0x2000000 ≤ off := by omega
  have hmap : ¬ 0x1000000 ≤ off := by omega
  simp [regRead, hbar, hlatch, hmap, hdom]

theorem regWrite_of_domain_off (id v : Nat) (hclk : Clocked s) (hoff : off < 0x1000000)
    (hdom : domOn s (domainOf off) = false) : regWrite s id off v = setFlag s PWR_STS 31 true := by
  obtain ⟨hlatch, hheld⟩ := (clocked_iff s).mp hclk
  have hbar : ¬ 0x2000000 ≤ off := by omega
  have hmap : ¬ 0x1000000 ≤ off := by omega
  simp [regWrite, hbar, hlatch, hheld, hmap, hdom]

theorem exec_offDomainAccess_of_domain_off (write : Bool) (hclk : Clocked s) (hoff : off < 0x1000000)
    (hdom : domOn s (domainOf off) = false) :
    exec (.offDomainAccess off write) s = .next (holding s
      (if write then setFlag s PWR_STS 31 true else { setFlag s PWR_STS 31 true with readData := 0xFFFFFFFF })) := by
  have hmap : ¬ 0x1000000 ≤ off := by omega
  calc exec (.offDomainAccess off write) s = execOffDomainAccess off write s := rfl
    _ = _ := by rw [execOffDomainAccess, whileClocked_running _ hclk]; simp [hdom, hmap]

end OffBlock

/-- The lane and the place in its block are what the offset's quotient and remainder by the block's size give. -/
theorem domainOf_laneBlock {n o : Nat} (hn : n < 24) (ho : o < 0x4000) :
    domainOf (0x100000 + n * 0x4000 + o) = (if 0x1000 ≤ o ∧ o < 0x1800 then 14 else 2) + n / 4 := by
  have hbelow : ∀ b ≤ 0x100000, ¬ 0x100000 + n * 0x4000 + o < b := by omega
  have hlanes : 0x100000 + n * 0x4000 + o < 0x160000 := by omega
  have hlane : (0x100000 + n * 0x4000 + o - 0x100000) / 0x4000 = n := by omega
  have hplace : (0x100000 + n * 0x4000 + o - 0x100000) % 0x4000 = o := by omega
  rw [domainOf, if_neg (hbelow _ (by decide)), if_neg (hbelow _ (by decide)), if_neg (hbelow _ (by decide)), if_pos hlanes]
  simp only [hlane, hplace, Bool.and_eq_true, decide_eq_true_eq]
  split <;> rfl

/-- Settles O26: the off domain is met before any register in both accesses, and a lane's offset names its domain. -/
theorem offDomain : Obligations.OffDomain := by
  refine ⟨fun s off hclk hoff hdom => ⟨?read, ?write, fun id => ?regRead, fun id v => ?regWrite⟩, fun n o => domainOf_laneBlock⟩
  case read => exact exec_offDomainAccess_of_domain_off false hclk hoff hdom
  case write => exact exec_offDomainAccess_of_domain_off true hclk hoff hdom
  case regRead => exact regRead_of_domain_off id ((clocked_iff s).mp hclk).1 hoff hdom
  case regWrite => exact regWrite_of_domain_off id v hclk hoff hdom

end Sys2Proof.Proofs

/-! PROOFS. The doorbells of a host ring (R124, R126, R128): the two registers of a ring that the host writes as doorbells. -/

namespace Sys2Proof.Proofs

open Sys2Proof.Machine Sys2Proof.Laws

section Doorbell

variable {s : State} {n a : Nat}

/-- The rings' registers belong to CORE, which cannot be switched off, so a write of a host ring's register goes to the ring. -/
theorem regWrite_of_hifReg (id v : Nat) (hclk : Clocked s) (hreg : hifReg a = true) (hring : ringOf a ≠ 15) :
    regWrite s id a v =
      if a = HIF_SQ_TAIL (ringOf a) then sqDoorbell s (ringOf a) v
      else if a = HIF_CQ_HEAD (ringOf a) then cqDoorbell s (ringOf a) v
      else ringWritten s (plainWrite s a v) a := by
  obtain ⟨hlatch, hheld⟩ := (clocked_iff s).mp hclk
  have hrange : 0x30100 ≤ a ∧ a < 0x30500 := by
    simp only [hifReg, Bool.and_eq_true, decide_eq_true_eq] at hreg
    exact hreg.1
  have hdom : domOn s (domainOf a) = true := by
    have hcore : domainOf a = 1 := by
      rw [domainOf, if_neg (by omega), if_neg (by omega), if_pos (by omega)]
    simp [domOn, hcore]
  have hbar : ¬ 0x2000000 ≤ a := by omega
  have hmap : ¬ 0x1000000 ≤ a := by omega
  have hmbx : ¬ 0x260000 ≤ a := by omega
  have hplain : a ≠ PWR_BOOT_CHUNK ∧ a ≠ LEDG_SHUTTER ∧ a ≠ CMP_REC_READ_HI ∧ a ≠ TOP_SRAM_APERTURE := by
    simp only [PWR_BOOT_CHUNK, LEDG_SHUTTER, CMP_REC_READ_HI, TOP_SRAM_APERTURE]; omega
  simp [regWrite, hbar, hlatch, hheld, hmap, hdom, hmbx, hplain, hreg, hring]

theorem hifReg_sqTail : ∀ n < 15, hifReg (HIF_SQ_TAIL n) = true := by decide +kernel
theorem hifReg_cqHead : ∀ n < 15, hifReg (HIF_CQ_HEAD n) = true := by decide +kernel

@[simp] theorem ringOf_sqTail (n : Nat) : ringOf (HIF_SQ_TAIL n) = n := by simp only [ringOf, HIF_SQ_TAIL]; omega
@[simp] theorem ringOf_cqHead (n : Nat) : ringOf (HIF_CQ_HEAD n) = n := by simp only [ringOf, HIF_CQ_HEAD]; omega

theorem exec_hifSqTail (v : Nat) (hclk : Clocked s) (hn : n < 15) :
    exec (.hifSqTail n v) s = .next (holding s (sqDoorbell s n v)) := by
  have hring : n ≠ 15 := by omega
  calc exec (.hifSqTail n v) s = execHifSqTail n v s := rfl
    _ = .next (holding s (regWrite s 0 (HIF_SQ_TAIL n) v)) := whileClocked_running _ hclk
    _ = _ := by rw [regWrite_of_hifReg 0 v hclk (hifReg_sqTail n hn) (by simpa using hring)]; simp

theorem exec_hifCqHead (v : Nat) (hclk : Clocked s) (hn : n < 15) :
    exec (.hifCqHead n v) s = .next (holding s (cqDoorbell s n v)) := by
  have hring : n ≠ 15 := by omega
  have htail : HIF_CQ_HEAD n ≠ HIF_SQ_TAIL n := by simp only [HIF_CQ_HEAD, HIF_SQ_TAIL]; omega
  calc exec (.hifCqHead n v) s = execHifCqHead n v s := rfl
    _ = .next (holding s (regWrite s 0 (HIF_CQ_HEAD n) v)) := whileClocked_running _ hclk
    _ = _ := by rw [regWrite_of_hifReg 0 v hclk (hifReg_cqHead n hn) (by simpa using hring)]; simp [htail]

/-- The rule of R128 for the tail of a host ring. -/
theorem sqDoorbell_host (v : Nat) (hn : n < 15) :
    sqDoorbell s n v =
      if sqSize s n ≤ v % 4096 then setFlag s (HIF_SQ_STS n) 1 true
      else { s with hif := { s.hif with sqTail := mset s.hif.sqTail n (v % 4096) } } := by
  rw [sqDoorbell, if_neg (by omega)]

/-- The rule of R128 for the head of a host ring's completions: a value is out of the ring, or ahead of what stands written. -/
theorem cqDoorbell_host (v : Nat) (hn : n < 15) :
    cqDoorbell s n v =
      if cqSize s n ≤ v % 4096 ∨ cqFilled s n < (v % 4096 + cqSize s n - cqHead s n) % cqSize s n then
        setFlag s (HIF_SQ_STS n) 1 true
      else { s with hif := { s.hif with cqHead := mset s.hif.cqHead n (v % 4096) } } := by
  have hring : n ≠ 15 := by omega
  simp [cqDoorbell, hring]

end Doorbell

theorem submissionDoorbell : Claim.SubmissionDoorbell := by
  intro s n v hclk hn
  rw [exec_hifSqTail v hclk hn, sqDoorbell_host v hn]
  constructor
  · intro hin
    rw [if_neg (by omega)]
  · intro hout
    rw [if_pos hout]

theorem completionDoorbell : Claim.CompletionDoorbell := by
  intro s n v hclk hn size ahead filled
  rw [exec_hifCqHead v hclk hn, cqDoorbell_host v hn]
  constructor
  · rintro ⟨hin, hwritten⟩
    exact congrArg _ (congrArg _ (if_neg (not_or.mpr ⟨hin.not_ge, hwritten.not_gt⟩)))
  · intro hbad
    exact congrArg _ (congrArg _ (if_pos hbad))

/-- Settles O30: each doorbell's row is a write of the ring's register, which the rule of R128 answers. -/
theorem doorbells : Obligations.Doorbells := ⟨submissionDoorbell, completionDoorbell⟩

end Sys2Proof.Proofs

/-! PROOFS. BAR2 accesses (R120): which words a channel serves, what a read and a write of words do, and the record of an
uncorrectable word (R483, R486). -/

namespace Sys2Proof.Proofs

open Sys2Proof.Machine Sys2Proof.Laws

section Bar2

variable {s : State} {addr : Nat}

/-- An aligned word lies in one 4 KiB block, so the channels of its first and last byte decide. -/
theorem dramOk_word (halign : addr % 4 = 0) :
    dramOk s addr 4 = (decide (addr + 4 ≤ dramSize s) && (chReady s (chanOf s addr) && chReady s (chanOf s (addr + 3)))) := by
  have hblock : ¬ 2 < (addr + 3) / 4096 - addr / 4096 + 1 := by omega
  simp [dramOk, hblock]

/-- A word that no populated, serving channel holds. -/
theorem dramOk_word_eq_false (halign : addr % 4 = 0) (h : dramSize s < addr + 4 ∨ chReady s (chanOf s addr) = false) :
    dramOk s addr 4 = false := by
  rw [dramOk_word halign]
  rcases h with hbeyond | hchannel
  · simp [hbeyond]
  · simp [hchannel]

theorem bar2Words_succ (k : Nat) : bar2Words s addr (k + 1) =
    (if dramOk s addr 4 then dramBytes s addr 4 else leBytes 4 0xFFFFFFFF) ++ bar2Words s (addr + 4) k := rfl

theorem bar2Words_one : bar2Words s addr 1 = if dramOk s addr 4 then dramBytes s addr 4 else leBytes 4 0xFFFFFFFF :=
  List.append_nil _

theorem bar2Put_one (data : List Byte) :
    bar2Put s addr 1 data = if dramOk s addr 4 then putDram s addr (data.take 4) else s := rfl

theorem exec_bar2Read (len ecc : Nat) (hclk : Clocked s) (halign : addr % 4 = 0) :
    exec (.bar2Access addr false len [] ecc) s = .next (holding s
      { (if dramOk s addr 4 then eccCheck s (chanOf s addr) addr ecc .bar2 else s) with
        readData := leNat (bar2Words s addr len) }) := by
  obtain ⟨hlatch, -⟩ := (clocked_iff s).mp hclk
  calc exec (.bar2Access addr false len [] ecc) s = execBar2Access addr false len [] ecc s := rfl
    _ = _ := by simp [execBar2Access, always, hlatch, halign]

theorem exec_bar2Write (len : Nat) (data : List Byte) (ecc : Nat) (hclk : Clocked s) (halign : addr % 4 = 0) :
    exec (.bar2Access addr true len data ecc) s =
      .next (holding s (bar2Put s addr len (data.take (4 * len)))) := by
  obtain ⟨hlatch, -⟩ := (clocked_iff s).mp hclk
  calc exec (.bar2Access addr true len data ecc) s = execBar2Access addr true len data ecc s := rfl
    _ = _ := by simp [execBar2Access, always, hlatch, halign]

/-- A good read of words changes nothing but the data read. -/
theorem exec_bar2Read_good (len : Nat) (hclk : Clocked s) (halign : addr % 4 = 0) :
    exec (.bar2Access addr false len [] 0) s = .next (holding s { s with readData := leNat (bar2Words s addr len) }) := by
  rw [exec_bar2Read len 0 hclk halign]
  simp [eccCheck]

end Bar2

/-! ### The record of an uncorrectable word -/

/-- The first uncorrectable address of a channel, kept until VALID clears (R486). -/
def recordUe (s : State) (c a : Nat) : State :=
  if flag s (DDR_CH_UE_ADDR_HI c) 31 then s
  else setFlag (setFld (wrN s (DDR_CH_UE_ADDR_LO c) a) (DDR_CH_UE_ADDR_HI c) 3 0 (a / 2 ^ 32)) (DDR_CH_UE_ADDR_HI c) 31 true

section Record

variable {s : State} {c a : Nat}

/-- What an uncorrectable word read through BAR2 does: it is counted, its address recorded and the event offered. -/
theorem eccCheck_bar2_uncorrectable (s : State) (c a : Nat) :
    eccCheck s c a 2 .bar2 = event (recordUe (satInc s (DDR_CH_ECC_UNCORR c)) c a) (srcDdr c) 0x1803 [] := rfl

theorem recordUe_same (s : State) (c a : Nat) : Same [.regs] s (recordUe s c a) := by
  unfold recordUe
  split
  · exact Same.refl _ _
  · exact ((wrN_same _ _ _).trans (setFld_same _ _ _ _ _)).trans (setFlag_same _ _ _ _)

theorem rd_recordUe_uncorr (s : State) (c a : Nat) : rd (recordUe s c a) (DDR_CH_ECC_UNCORR c) = rd s (DDR_CH_ECC_UNCORR c) := by
  have hlo : DDR_CH_ECC_UNCORR c ≠ DDR_CH_UE_ADDR_LO c := by simp only [DDR_CH_ECC_UNCORR, DDR_CH_UE_ADDR_LO]; omega
  have hhi : DDR_CH_ECC_UNCORR c ≠ DDR_CH_UE_ADDR_HI c := by simp only [DDR_CH_ECC_UNCORR, DDR_CH_UE_ADDR_HI]; omega
  unfold recordUe
  split
  · rfl
  · rw [rd_setFlag_other _ _ hhi, rd_setFld_other _ _ _ hhi, rd_wrN_other _ hlo]

theorem recordUe_first (hfirst : flag s (DDR_CH_UE_ADDR_HI c) 31 = false) :
    rd (recordUe s c a) (DDR_CH_UE_ADDR_LO c) = BitVec.ofNat 32 a ∧ flag (recordUe s c a) (DDR_CH_UE_ADDR_HI c) 31 = true := by
  have hpair : DDR_CH_UE_ADDR_LO c ≠ DDR_CH_UE_ADDR_HI c := by simp only [DDR_CH_UE_ADDR_LO, DDR_CH_UE_ADDR_HI]; omega
  rw [recordUe, if_neg (by simp [hfirst])]
  constructor
  · rw [rd_setFlag_other _ _ hpair, rd_setFld_other _ _ _ hpair, rd_wrN_same]
  · exact flag_setFlag_same _ _ _ (by decide)

/-- The registers of the record are not the recorder's, which alone the event writes. -/
theorem ueRegs_not_evrReg : ∀ c < 2, evrReg (DDR_CH_ECC_UNCORR c) = false ∧ evrReg (DDR_CH_UE_ADDR_LO c) = false ∧
    evrReg (DDR_CH_UE_ADDR_HI c) = false := by decide

/-- An uncorrectable word below the counter's end is counted. -/
theorem rdN_eccCheck_uncorr (hc : c < 2) (hroom : rdN s (DDR_CH_ECC_UNCORR c) < 2 ^ 32 - 1) :
    rdN (eccCheck s c a 2 .bar2) (DDR_CH_ECC_UNCORR c) = rdN s (DDR_CH_ECC_UNCORR c) + 1 := by
  obtain ⟨hcount, -, -⟩ := ueRegs_not_evrReg c hc
  rw [eccCheck_bar2_uncorrectable, rdN_congr (event_regs _ _ _ _ _ hcount), rdN_congr (rd_recordUe_uncorr _ _ _), rdN_satInc hroom]

/-- The first uncorrectable word of a channel leaves its address. -/
theorem eccCheck_records_first (hc : c < 2) (hfirst : flag s (DDR_CH_UE_ADDR_HI c) 31 = false) :
    rd (eccCheck s c a 2 .bar2) (DDR_CH_UE_ADDR_LO c) = BitVec.ofNat 32 a ∧
      flag (eccCheck s c a 2 .bar2) (DDR_CH_UE_ADDR_HI c) 31 = true := by
  obtain ⟨-, hlo, hhi⟩ := ueRegs_not_evrReg c hc
  have hcounter : DDR_CH_UE_ADDR_HI c ≠ DDR_CH_ECC_UNCORR c := by simp only [DDR_CH_UE_ADDR_HI, DDR_CH_ECC_UNCORR]; omega
  rw [eccCheck_bar2_uncorrectable, event_regs _ _ _ _ _ hlo, flag_congr (event_regs _ _ _ _ _ hhi)]
  exact recordUe_first ((flag_congr (rd_satInc_other hcounter) 31).trans hfirst)

theorem eccCheck_bar2_dram (s : State) (c a : Nat) : (eccCheck s c a 2 .bar2).dram = s.dram := by
  rw [eccCheck_bar2_uncorrectable, (event_same _ _ _ _).dram, (recordUe_same _ _ _).dram, (satInc_same _ _).dram]

end Record

/-- Settles O25: each word is served or not by `dramOk`, and an uncorrectable one is counted and recorded before the event. -/
theorem bar2Words : Obligations.Bar2Words := by
  intro s addr hclk halign
  refine ⟨dramOk_word_eq_false halign, fun hbad => ⟨fun ecc => ?readUnserved, fun data ecc => ?writeUnserved⟩,
    fun hok => ?readUncorrectable, fun c hc => ⟨rdN_eccCheck_uncorr hc, eccCheck_records_first hc, eccCheck_bar2_dram s c addr⟩,
    fun data hok => ?writeServed, fun len => ?readGood, fun k => bar2Words_succ k⟩
  case readUnserved => rw [exec_bar2Read 1 ecc hclk halign, bar2Words_one, hbad]; rfl
  case writeUnserved => rw [exec_bar2Write 1 data ecc hclk halign, bar2Put_one, hbad]; rfl
  case readUncorrectable => rw [exec_bar2Read 1 2 hclk halign, bar2Words_one, hok]; rfl
  case writeServed => rw [exec_bar2Write 1 data 0 hclk halign, bar2Put_one, hok]; simp [List.take_take]
  case readGood => exact ⟨_, exec_bar2Read_good len hclk halign, rfl, rfl, rfl, rfl, rfl, rfl, rfl⟩

end Sys2Proof.Proofs

/-! PROOFS. The timer of a mailbox channel (R525): what starts it, and what the channel holds when it has run out. -/

namespace Sys2Proof.Proofs

open Sys2Proof.Machine Sys2Proof.Laws

/-- A keyed list yields the entry last put into it, in whatever order it stands. -/
theorem find?_mset_same {α : Type} (m : List (Nat × α)) (k : Nat) (v : α) :
    (mset m k v).find? (fun p => p.1 == k) = some (k, v) := by
  induction m with
  | nil => simp [mset]
  | cons e m ih =>
    obtain ⟨i, w⟩ := e
    unfold mset
    split_ifs with hbefore hhere
    · simp
    · simp
    · simpa [Ne.symm hhere] using ih

/-- The registers of channel `n` that show GO, with the length and the flags beside it (R530). -/
def mbxGoReg (n a : Nat) : Bool := a == MBX_CH_GO n || a == MBX_CH_STS n

section Channel

variable {s t : State} {n : Nat}

/-! ### The registers of a channel -/

theorem mbxGoReg_go : mbxGoReg n (MBX_CH_GO n) = true := by simp [mbxGoReg]

theorem mbxGoReg_sts : mbxGoReg n (MBX_CH_STS n) = true := by simp [mbxGoReg]

/-- The binding and the timeout stand in words of their own. -/
theorem mbxGoReg_setup : mbxGoReg n (MBX_CH_BIND n) = false ∧ mbxGoReg n (MBX_CH_TIMEOUT n) = false := by
  simp [mbxGoReg, MBX_CH_BIND, MBX_CH_TIMEOUT, MBX_CH_GO, MBX_CH_STS]

theorem mbxGoReg_time : mbxGoReg n FTM_TIME_LO = false ∧ mbxGoReg n FTM_TIME_HI = false := by
  simp only [mbxGoReg, FTM_TIME_LO, FTM_TIME_HI, MBX_CH_GO, MBX_CH_STS, Bool.or_eq_false_iff, beq_eq_false_iff_ne]
  omega

theorem evrReg_mbx (hn : n < 16) : evrReg (MBX_CH_GO n) = false ∧ evrReg (MBX_CH_STS n) = false ∧
    ∀ r < 16, evrReg (MBX_CH_MSG n r) = false := by
  simp only [evrReg, EVR_SEQ, EVR_STS, EVR_LOST, MBX_CH_GO, MBX_CH_STS, MBX_CH_MSG, Bool.or_eq_false_iff, beq_eq_false_iff_ne]
  exact ⟨by omega, by omega, fun r _ => by omega⟩

/-! ### The timer starts -/

theorem now_of_mbxGoReg (h : RegsKept (mbxGoReg n) s t) : now t = now s := by
  obtain ⟨hlo, hhi⟩ := mbxGoReg_time (n := n)
  rw [now, now, rd64, rd64, rdN_congr (h _ hlo), rdN_congr (h _ hhi)]

theorem mbxForwards_of_mbxGoReg (h : RegsKept (mbxGoReg n) s t) : mbxForwards t n = mbxForwards s n := by
  have hbind := h _ mbxGoReg_setup.1
  rw [mbxForwards, mbxForwards, mbxBound, mbxBound, mbxReceiver, mbxReceiver, flag_congr hbind, fld_congr hbind]

theorem setGo_regs (s : State) (n : Nat) (b : Bool) : RegsKept (mbxGoReg n) s (setGo s n b) :=
  (RegsKept.wr s _ mbxGoReg_go).trans (RegsKept.wr _ _ mbxGoReg_sts)

/-- Where GO sets, the timer of the channel ends TIMEOUT µs from now. -/
theorem setGo_starts_timer (s : State) (n : Nat) :
    (setGo s n true).mbxDue.find? (fun p => p.1 == n) = some (n, now s + rdN s (MBX_CH_TIMEOUT n) * 1000) := by
  have hkept : RegsKept (mbxGoReg n) s (setFlag (setFlag s (MBX_CH_GO n) 31 true) (MBX_CH_STS n) 0 true) := setGo_regs s n true
  rw [← now_of_mbxGoReg hkept, ← rdN_congr (hkept _ mbxGoReg_setup.2)]
  exact find?_mset_same _ _ _

/-- A message that starts on its way: length and flags are entered before GO sets. -/
def mbxEntered (s : State) (n len : Nat) : State := setFld (setFld s (MBX_CH_STS n) 4 1 0) (MBX_CH_GO n) 4 0 len

theorem mbxEntered_regs (s : State) (n len : Nat) : RegsKept (mbxGoReg n) s (mbxEntered s n len) :=
  (RegsKept.wr s _ mbxGoReg_sts).trans (RegsKept.wr _ _ mbxGoReg_go)

/-- On a channel within the device a post is the message entered and its GO set. -/
theorem mbxPost_local (len : Nat) (hlocal : mbxForwards s n = false) : mbxPost s n len = setGo (mbxEntered s n len) n true := by
  have hkept := (mbxEntered_regs s n len).trans (setGo_regs _ n true)
  exact if_neg (by rw [← mbxEntered, mbxForwards_of_mbxGoReg hkept, hlocal]; decide)

theorem mbxPost_starts_timer (len : Nat) (hlocal : mbxForwards s n = false) :
    (mbxPost s n len).mbxDue.find? (fun p => p.1 == n) = some (n, now s + rdN s (MBX_CH_TIMEOUT n) * 1000) := by
  have hkept := mbxEntered_regs s n len
  rw [mbxPost_local len hlocal, setGo_starts_timer, now_of_mbxGoReg hkept, rdN_congr (hkept _ mbxGoReg_setup.2)]

/-! ### The timer runs out -/

/-- The message flagged and offered as an event, the timer of the channel gone (R525; the payload's byte places are assumption 33). -/
def mbxExpired (s : State) (n : Nat) : State :=
  event (mbxFlag { s with mbxDue := mdel s.mbxDue n } n 1) (srcMbx n) 0x1901
    (leBytes 1 n ++ leBytes 1 (mbxSender s n) ++ leBytes 1 (mbxReceiver s n))

theorem exec_mbxTimeout_due {due : Nat} (hclk : Clocked s) (hdue : s.mbxDue.find? (fun p => p.1 == n) = some (n, due))
    (hgo : mbxGo s n = true) (hreached : reached s due = true) :
    exec (.mbxTimeout n) s = .next (holding s (mbxExpired s n)) := by
  calc exec (.mbxTimeout n) s = execMbxTimeout n s := rfl
    _ = _ := by rw [execMbxTimeout, whileClocked_running _ hclk]; simp [hdue, hgo, hreached, mbxExpired]

/-- Without GO, without a timer or before its end the row has no effect (assumption 30). -/
theorem exec_mbxTimeout_idle (hclk : Clocked s) (hidle : mbxGo s n = false ∨ s.mbxDue.find? (fun p => p.1 == n) = none ∨
      ∃ due, s.mbxDue.find? (fun p => p.1 == n) = some (n, due) ∧ reached s due = false) :
    exec (.mbxTimeout n) s = .next (holding s s) := by
  calc exec (.mbxTimeout n) s = execMbxTimeout n s := rfl
    _ = _ := by
      rw [execMbxTimeout, whileClocked_running _ hclk]
      rcases hidle with hgo | hnone | ⟨due, hdue, hearly⟩
      · cases s.mbxDue.find? (fun p => p.1 == n) <;> simp [hgo]
      · simp [hnone]
      · simp [hdue, hearly]

/-- Of the channel's message registers, its GO and its flags, only the word of the flags is written. -/
theorem rd_mbxExpired_other {a : Nat} (hevr : evrReg a = false) (hsts : a ≠ MBX_CH_STS n) : rd (mbxExpired s n) a = rd s a :=
  (event_regs _ _ _ _ a hevr).trans (rd_setFlag_other _ _ hsts)

theorem mbxGo_mbxExpired (hn : n < 16) : mbxGo (mbxExpired s n) n = mbxGo s n := by
  have hapart : MBX_CH_GO n ≠ MBX_CH_STS n := by simp only [MBX_CH_GO, MBX_CH_STS]; omega
  exact flag_congr (rd_mbxExpired_other (evrReg_mbx hn).1 hapart) 31

theorem mbxExpired_flagged (hn : n < 16) : flag (mbxExpired s n) (MBX_CH_STS n) 1 = true := by
  obtain ⟨-, hsts, -⟩ := evrReg_mbx hn
  rw [mbxExpired, flag_congr (event_regs _ _ _ _ _ hsts)]
  exact flag_setFlag_same _ _ _ (by decide)

theorem mbxExpired_keeps_message {r : Nat} (hn : n < 16) (hr : r < 16) : rd (mbxExpired s n) (MBX_CH_MSG n r) = rd s (MBX_CH_MSG n r) := by
  have hapart : MBX_CH_MSG n r ≠ MBX_CH_STS n := by simp only [MBX_CH_MSG, MBX_CH_STS]; omega
  exact rd_mbxExpired_other ((evrReg_mbx hn).2.2 r hr) hapart

end Channel

/-- Settles O10: GO starts the timer from the time and the TIMEOUT that a post leaves alone, and the expiry writes no register of the
channel but its flags. -/
theorem mailboxTimeout : Obligations.MailboxTimeout := by
  refine fun s n hclk => ⟨fun len hlocal _ _ => mbxPost_starts_timer len hlocal,
    fun due hdue hgo hreached => ⟨exec_mbxTimeout_due hclk hdue hgo hreached, fun hn u hu => ?stays⟩, exec_mbxTimeout_idle hclk⟩
  case stays =>
    rw [exec_mbxTimeout_due hclk hdue hgo hreached] at hu
    obtain rfl := Host.Outcome.next.inj hu
    have hregs : ∀ a, rd (holding s (mbxExpired s n)) a = rd (mbxExpired s n) a := rd_holding s _
    exact ⟨(flag_congr (hregs _) 31).trans ((mbxGo_mbxExpired hn).trans hgo), (flag_congr (hregs _) 1).trans (mbxExpired_flagged hn),
      fun r hr => (hregs _).trans (mbxExpired_keeps_message hn hr)⟩

end Sys2Proof.Proofs

/-! PROOFS. Steps, the queue and the thermal latch (R82, R97, R114, R115): what every command holds, and what a latched device keeps. -/

namespace Sys2Proof.Proofs

-- One theorem after the other: elaborated at once, their threads outgrow the memory that a check may take.
set_option Elab.async false

open Sys2Proof.Machine Sys2Proof.Laws

/-! ### The three shapes of a command's meaning -/

theorem exec_shape (c : Instr) (s : State) :
    (∃ f, exec c s = whileClocked s f) ∨ (∃ f, exec c s = always s f) ∨ c = .vddAonFirstRise ∨ c = .vddCoreRemoval ∨ ∃ l, c = .thmSample l := by
  cases hc : unclocked c
  · exact .inl (exec_clocked c s hc)
  · by_cases hrise : c = .vddAonFirstRise
    · exact .inr (.inr (.inl hrise))
    · by_cases hcore : c = .vddCoreRemoval
      · exact .inr (.inr (.inr (.inl hcore)))
      · by_cases hthm : ∃ l, c = .thmSample l
        · exact .inr (.inr (.inr (.inr hthm)))
        · exact .inr (.inl (exec_always c s hc hrise hcore fun l hl => hthm ⟨l, hl⟩))

/-- What a supply that clears the latch leaves: the queue and the identity fuses are held, and the latch is off with THERM_TRIP_N high. -/
structure Unlatched (s t : State) : Prop where
  queue : t.pending = s.pending
  latch : t.pwr.thermLatch = false
  trip : t.pins.thermTripN = true
  serial : t.fuses.serial = s.fuses.serial
  key : t.fuses.keyHash = s.fuses.keyHash

theorem unlatched_of_unlatch (s t : State) : Unlatched s (unlatch (holding s t)) := ⟨rfl, rfl, rfl, rfl, rfl⟩

theorem exec_vddAonFirstRise_unlatched {s t : State} (h : exec .vddAonFirstRise s = .next t) : Unlatched s t := by
  obtain rfl := Host.Outcome.next.inj h
  exact unlatched_of_unlatch _ _

theorem exec_vddCoreRemoval_unlatched {s t : State} (h : exec .vddCoreRemoval s = .next t) : Unlatched s t := by
  obtain rfl := Host.Outcome.next.inj h
  exact unlatched_of_unlatch _ _

/-- What a sample of the sensors does in all cases: it latches a device that is not yet latched, or holds the latch. -/
theorem exec_thmSample_latch_or_hold {s t : State} {l : List Int} (h : exec (.thmSample l) s = .next t) :
    (∃ u, s.pwr.thermLatch = false ∧ t = latch (holding s u)) ∨ (∃ u, s.pwr.thermLatch = false ∧ t = holding s u) ∨
      (s.pwr.thermLatch = true ∧ t = holding s (thmShow (thmFast (thmValues s l)))) := by
  have h : execThmSample l s = .next t := h
  unfold execThmSample at h
  obtain rfl := Host.Outcome.next.inj h
  by_cases hlatch : s.pwr.thermLatch = true
  · exact .inr (.inr ⟨hlatch, if_pos hlatch⟩)
  · have hoff := Bool.eq_false_iff.mpr hlatch
    rw [if_neg hlatch]
    cases hby : shutdownBy (thmLevels s (thmFailures s (thmShow (thmFast (thmValues s l))))) l with
    | none => exact .inr (.inl ⟨_, hoff, by dsimp only; rw [hby]⟩)
    | some e => exact .inl ⟨_, hoff, by dsimp only; rw [hby]⟩

theorem exec_thmSample_held {s t : State} {l : List Int} (h : exec (.thmSample l) s = .next t) :
    t.pending = s.pending ∧ t.fuses.serial = s.fuses.serial ∧ t.fuses.keyHash = s.fuses.keyHash := by
  obtain ⟨u, -, rfl⟩ | ⟨u, -, rfl⟩ | ⟨-, rfl⟩ := exec_thmSample_latch_or_hold h <;> exact ⟨rfl, rfl, rfl⟩

/-- No command changes the queue or the identity fuses. -/
theorem exec_holds_queue_and_fuses {s t : State} {c : Instr} (h : exec c s = .next t) :
    t.pending = s.pending ∧ t.fuses.serial = s.fuses.serial ∧ t.fuses.keyHash = s.fuses.keyHash := by
  obtain ⟨f, hf⟩ | ⟨f, hf⟩ | rfl | rfl | ⟨l, rfl⟩ := exec_shape c s
  · have hheld := held_clocked (hf.symm.trans h)
    exact ⟨hheld.queue, hheld.serial, hheld.key⟩
  · have hheld := held_always (hf.symm.trans h)
    exact ⟨hheld.queue, hheld.serial, hheld.key⟩
  · have hoff := exec_vddAonFirstRise_unlatched h
    exact ⟨hoff.queue, hoff.serial, hoff.key⟩
  · have hoff := exec_vddCoreRemoval_unlatched h
    exact ⟨hoff.queue, hoff.serial, hoff.key⟩
  · exact exec_thmSample_held h

theorem exec_next (c : Instr) (s : State) : ∃ t, exec c s = .next t := by
  obtain ⟨f, hf⟩ | ⟨f, hf⟩ | rfl | rfl | ⟨l, rfl⟩ := exec_shape c s
  · exact ⟨_, hf⟩
  · exact ⟨_, hf⟩
  all_goals exact ⟨_, rfl⟩

theorem step_idle {s : State} (h : s.pending = []) : step s = .next s := by rw [step, h]

theorem step_front {s : State} {c : Instr} {rest : List Instr} (h : s.pending = c :: rest) :
    step s = exec c { s with pending := rest } := by rw [step, h]

/-- Settles O1. -/
theorem stepRunsFront : Obligations.StepRunsFront := ⟨fun _ _ _ => step_front, fun _ => step_idle⟩

/-- Settles O2: every command's meaning answers a next state, whatever its shape. -/
theorem stepNeverStops : Obligations.StepNeverStops := by
  intro s
  cases h : s.pending with
  | nil => exact ⟨s, step_idle h⟩
  | cons c rest =>
    rw [step_front h]
    exact exec_next c _

/-- Settles O3: the command runs on the queue's rest, which every command holds. -/
theorem stepKeepsQueueOrder : Obligations.StepKeepsQueueOrder := by
  intro s t hstep
  cases h : s.pending with
  | nil =>
    rw [step_idle h] at hstep
    obtain rfl := Host.Outcome.next.inj hstep
    exact h
  | cons c rest =>
    rw [step_front h] at hstep
    exact (exec_holds_queue_and_fuses hstep).1

/-- Settles O4. -/
theorem resetThermallySafe : Obligations.ResetThermallySafe := ⟨rfl, fun h => Bool.noConfusion h⟩

/-- Settles O7. -/
theorem identityFusesHold : Obligations.IdentityFusesHold := fun _ _ _ h => (exec_holds_queue_and_fuses h).2

/-- Settles O6: of the three commands that can change the latch, THM_SAMPLE only sets it. -/
theorem latchClearsOnlyWithSupply : Obligations.LatchClearsOnlyWithSupply := by
  intro s t c hlatch hcore hrise h
  obtain ⟨f, hf⟩ | ⟨f, hf⟩ | rfl | rfl | ⟨l, rfl⟩ := exec_shape c s
  · have hheld := held_clocked (hf.symm.trans h)
    exact ⟨hheld.latch.trans hlatch, hheld.trip⟩
  · have hheld := held_always (hf.symm.trans h)
    exact ⟨hheld.latch.trans hlatch, hheld.trip⟩
  · exact absurd rfl hrise
  · exact absurd rfl hcore
  · obtain ⟨u, hoff, -⟩ | ⟨u, hoff, -⟩ | ⟨-, rfl⟩ := exec_thmSample_latch_or_hold h
    · exact absurd (hlatch.symm.trans hoff) (by decide)
    · exact absurd (hlatch.symm.trans hoff) (by decide)
    · exact ⟨hlatch, rfl⟩

theorem unclocked_eq_outsideClocks (c : Instr) : unclocked c = outsideClocks c := by cases c <;> rfl

/-- Settles O8: where the latch or a held reset stops the clocks, a clocked command answers its own state. -/
theorem latchedDeviceStands : Obligations.LatchedDeviceStands := by
  intro s c hstopped hc
  obtain ⟨f, hf⟩ := exec_clocked c s ((unclocked_eq_outsideClocks c).trans hc)
  rw [hf, whileClocked_stopped f]
  rcases hstopped with hlatch | hheld
  · simp [clocksOff, hlatch]
  · simp [clocksOff, hheld]

/-! ### A latched device stays in the safe state -/

/-- The safe state as the device keeps it after a shutdown (R106, R114). -/
def InSafe (s : State) : Prop := s.pwr.safe = true ∧ s.pins.safeN = false

theorem InSafe.of_same {ps : List Part} {s t : State} (h : InSafe s) (hs : Same ps s t)
    (hp : Part.pwr ∉ ps ∧ Part.pins ∉ ps := by decide) : InSafe t := by
  unfold InSafe
  rw [hs.pwr hp.1, hs.pins hp.2]
  exact h

theorem clocksOff_of_latch {s : State} (h : s.pwr.thermLatch = true) : clocksOff s = true := by simp [clocksOff, h]

theorem bootUp_latched {s : State} (h : s.pwr.thermLatch = true) (fails : List (Nat × Bool × Nat)) (flash : Option (List Byte × List Byte)) :
    bootUp s fails flash = s := by rw [bootUp, clocksOff_of_latch h, if_pos rfl]

theorem linkAdapt_latched {s : State} (h : s.pwr.thermLatch = true) : linkAdapt s = s := by simp [linkAdapt, h]

/-- What PERST_N clears in the host interface (R90, R92): the rings' registers and indices, the configuration space, the mirror setting. -/
def hostSideCleared (s : State) : State :=
  { s with
    regs := s.regs.filter (fun e => !hostRingReg e.1)
    live := s.live.filter (fun e => !hostRingReg e.1)
    hif := { s.hif with bme := false, d3hot := false, intxDis := false, intLine := 0, bar0 := 0, bar2 := 0, perst := true, linkUp := false
                        sqTail := s.hif.sqTail.filter (fun e => e.1 == 15), cqHead := s.hif.cqHead.filter (fun e => e.1 == 15)
                        mirrorAddr := 0, mirrorPeriod := 0 } }

theorem hostSideCleared_same (s : State) : Same [.regs, .live, .hif] s (hostSideCleared s) := by
  intro p hp
  cases p <;> first | rfl | exact absurd (by decide) hp

/-- PERST_N resets master 0x00, and the commands of the host's rings lose their rings (R92). -/
def hostRingsVoided (s : State) : State := (List.range 15).foldl voidRing (mbxReset s 0)

/-- The device once PERST_N has reset its host side, before the cause is recorded. -/
def perstReset (s : State) : State := finishAll (hostSideCleared (hostRingsVoided s)) 0x0006 0 .wrongState 0 0 0 0

theorem exec_perstN (s : State) : exec .perstN s = .next (holding s (resetCause (perstReset s) 4)) := rfl

/-- Parts of the state that PERST_N changes. -/
abbrev perstParts : List Part := .live :: .mbxDue :: .running :: endParts

theorem perstReset_same (s : State) : Same perstParts s (perstReset s) := by
  have hmbx : Same perstParts s (mbxReset s 0) := (mbxReset_same s 0).mono (by decide)
  have hvoid : Same perstParts (mbxReset s 0) (hostRingsVoided s) :=
    Same.foldl voidRing (fun t n => (voidRing_same t n).mono (by decide)) _ _
  refine (hmbx.trans hvoid).trans (((hostSideCleared_same _).mono (by decide)).trans ((finishAll_same _ _ _ _ _ _ _ _).mono (by decide)))

/-- The configuration space as a write of the host leaves it (R118, R119). -/
def configWritten (s : State) (bme d3hot intxDis : Bool) (line bar0 bar2 : Nat) : State :=
  { s with hif := { s.hif with bme := bme, d3hot := d3hot, intxDis := intxDis, intLine := line % 256
                               bar0 := bar0 / 2 ^ 26 * 2 ^ 26 % 2 ^ 32, bar2 := bar2 / 2 ^ 36 * 2 ^ 36 % 2 ^ 64 } }

/-- What was held back goes out in order. -/
def heldSent (s : State) : State := s.hif.held.foldl doHostOp { s with hif := { s.hif with held := [] } }

theorem heldSent_same (s : State) : Same [.regs, .host, .svc, .hif] s (heldSent s) := by
  have hheld : Same [.regs, .host, .svc, .hif] s { s with hif := { s.hif with held := [] } } := by
    intro p hp
    cases p <;> first | rfl | exact absurd (by decide) hp
  exact hheld.trans (Same.foldl doHostOp (fun t o => (doHostOp_same t o).mono (by decide)) _ _)

theorem exec_busMasterEnable (s : State) (bme d3hot intxDis : Bool) (line bar0 bar2 : Nat) :
    exec (.busMasterEnable bme d3hot intxDis line bar0 bar2) s = .next (holding s (
      if s.hif.perst then s
      else if canRequest (configWritten s bme d3hot intxDis line bar0 bar2) then heldSent (configWritten s bme d3hot intxDis line bar0 bar2)
      else configWritten s bme d3hot intxDis line bar0 bar2)) := rfl

section Latched

variable {s : State}

theorem porNRise_latched (hlatch : s.pwr.thermLatch = true) (hsafe : InSafe s) (bootSel fabAddr : Nat) (refclk : Bool)
    (fails : List (Nat × Bool × Nat)) (flash : Option (List Byte × List Byte)) :
    Does (exec (.porNRise bootSel fabAddr refclk fails flash) s) s InSafe :=
  ⟨_, rfl, by dsimp only; rw [linkAdapt_latched (by exact hlatch), bootUp_latched (by exact hlatch)]; exact hsafe⟩

theorem sysRstNRelease_latched (hlatch : s.pwr.thermLatch = true) (hsafe : InSafe s) (fails : List (Nat × Bool × Nat))
    (flash : Option (List Byte × List Byte)) : Does (exec (.sysRstNRelease fails flash) s) s InSafe :=
  ⟨_, rfl, by dsimp only; rw [bootUp_latched (by exact hlatch)]; exact hsafe⟩

theorem brownout_latched (hlatch : s.pwr.thermLatch = true) (fails : List (Nat × Bool × Nat)) (flash : Option (List Byte × List Byte)) :
    Does (exec (.brownout fails flash) s) s InSafe := by
  have hkept : (resetCause (resetCore s (keptLink s)) 5).pwr.thermLatch = true := (resetCore_latch s (keptLink s)).trans hlatch
  exact ⟨_, rfl, by dsimp only; rw [bootUp_latched hkept]; exact resetCore_safe s (keptLink s)⟩

theorem railSequenceViolation_safe (hsafe : InSafe s) (group : Nat) : Does (exec (.railSequenceViolation group) s) s InSafe := by
  refine ⟨_, rfl, ?_⟩
  dsimp only
  split
  · exact hsafe
  · exact hsafe

theorem perstN_safe (hsafe : InSafe s) : Does (exec .perstN s) s InSafe :=
  ⟨_, exec_perstN s, InSafe.of_same (s := perstReset s) (hsafe.of_same (perstReset_same s)) (setFlag_same _ PWR_RESET_CAUSE 4 true)⟩

theorem perstNRelease_latched (hlatch : s.pwr.thermLatch = true) (hsafe : InSafe s) : Does (exec .perstNRelease s) s InSafe :=
  ⟨_, rfl, by dsimp only; rw [linkAdapt_latched (by exact hlatch)]; exact hsafe⟩

theorem busMasterEnable_safe (hsafe : InSafe s) (bme d3hot intxDis : Bool) (line bar0 bar2 : Nat) :
    Does (exec (.busMasterEnable bme d3hot intxDis line bar0 bar2) s) s InSafe := by
  refine ⟨_, exec_busMasterEnable s bme d3hot intxDis line bar0 bar2, ?_⟩
  have hconfig : InSafe (configWritten s bme d3hot intxDis line bar0 bar2) := hsafe
  split
  · exact hsafe
  · split
    · exact hconfig.of_same (heldSent_same _)
    · exact hconfig

theorem registerWrite_latched (hlatch : s.pwr.thermLatch = true) (hsafe : InSafe s) (off v : Nat) (full : Bool) :
    Does (exec (.registerWrite off v full) s) s InSafe := by
  refine ⟨_, rfl, ?_⟩
  dsimp only
  split
  · exact hsafe.of_same (regWrite_latched s 0 off v hlatch)
  · exact hsafe

theorem latchingRead_latched (hlatch : s.pwr.thermLatch = true) (hsafe : InSafe s) (off ecc : Nat) :
    Does (exec (.latchingRead off ecc) s) s InSafe := by
  have hread := regRead_latched s 0 (off - off % 4) hlatch
  have hstop : clocksOff (regRead s 0 (off - off % 4)).1 = true := clocksOff_of_latch (by rw [hread.pwr]; exact hlatch)
  refine ⟨_, rfl, ?_⟩
  have hin : InSafe (regRead s 0 (off - off % 4)).1 := hsafe.of_same hread
  simp only [apertureEcc, hstop, Bool.or_true, if_true]
  exact hin

theorem bar2Access_latched (hlatch : s.pwr.thermLatch = true) (hsafe : InSafe s) (addr : Nat) (write : Bool) (len : Nat)
    (data : List Byte) (ecc : Nat) : Does (exec (.bar2Access addr write len data ecc) s) s InSafe := by
  refine ⟨_, rfl, ?_⟩
  simp only [hlatch, if_true]
  split
  · exact hsafe
  · exact hsafe

theorem interlockNFall_safe (hsafe : InSafe s) : Does (exec .interlockNFall s) s InSafe := by
  refine ⟨_, rfl, ?_⟩
  have hpin : InSafe (setFlag (setFlag { s with pins := { s.pins with interlockN := false } } LEDG_SHUTTER 31 true) LEDG_SHUTTER 30 true) :=
    hsafe
  exact hpin.of_same (((satIncF_same _ LEDG_SHUTTER 15 0).mono (by decide)).trans (interlockFall_same _))

theorem interlockNRise_safe (hsafe : InSafe s) : Does (exec .interlockNRise s) s InSafe := by
  refine ⟨_, rfl, ?_⟩
  have hpin : InSafe (setFlag { s with pins := { s.pins with interlockN := true } } LEDG_SHUTTER 30 false) := hsafe
  exact hpin.of_same (shutterShow_same _)

/-- Every command that acts on a latched device under `always` leaves it in the safe state. -/
theorem exec_always_inSafe {c : Instr} (hc : unclocked c = true) (hrise : c ≠ .vddAonFirstRise) (hcore : c ≠ .vddCoreRemoval)
    (hthm : ∀ l, c ≠ .thmSample l) (hlatch : s.pwr.thermLatch = true) (hsafe : InSafe s) : Does (exec c s) s InSafe := by
  cases c
  case vddAonFirstRise => exact absurd rfl hrise
  case vddCoreRemoval => exact absurd rfl hcore
  case thmSample l => exact absurd rfl (hthm l)
  case porNLow => exact ⟨_, rfl, resetPor_safe s⟩
  case porNRise => exact porNRise_latched hlatch hsafe _ _ _ _ _
  case sysRstNLow => exact ⟨_, rfl, resetCore_safe s (keptLink s)⟩
  case sysRstNRelease => exact sysRstNRelease_latched hlatch hsafe _ _
  case brownout => exact brownout_latched hlatch _ _
  case vddAonUndervoltage => exact ⟨_, rfl, resetPor_safe s⟩
  case railSequenceViolation => exact railSequenceViolation_safe hsafe _
  case perstN => exact perstN_safe hsafe
  case perstNRelease => exact perstNRelease_latched hlatch hsafe
  case busMasterEnable => exact busMasterEnable_safe hsafe _ _ _ _ _ _
  case registerWrite => exact registerWrite_latched hlatch hsafe _ _ _
  case latchingRead => exact latchingRead_latched hlatch hsafe _ _
  case bar2Access => exact bar2Access_latched hlatch hsafe _ _ _ _ _
  case interlockNFall => exact interlockNFall_safe hsafe
  case interlockNRise => exact interlockNRise_safe hsafe
  all_goals exact Bool.noConfusion hc

end Latched

theorem thmSample_latched_inSafe {s : State} (hsafe : InSafe s) (l : List Int) : InSafe (thmShow (thmFast (thmValues s l))) := by
  have hshow : Same [.regs, .thm, .freeCtr] s (thmShow (thmFast (thmValues s l))) :=
    ((thmValues_same s l).trans ((thmFast_same _).mono (by decide))).trans ((thmShow_same _).mono (by decide))
  exact hsafe.of_same hshow

theorem exec_keeps_thermalSafe {s t : State} {c : Instr} (hs : ThermalSafe s) (h : exec c s = .next t) : ThermalSafe t := by
  obtain ⟨htrip, hsafe⟩ := hs
  by_cases hrise : c = .vddAonFirstRise
  · subst hrise
    have hoff := exec_vddAonFirstRise_unlatched h
    exact ⟨by rw [hoff.trip, hoff.latch]; rfl, fun hlatch => absurd (hoff.latch.symm.trans hlatch) (by decide)⟩
  by_cases hcore : c = .vddCoreRemoval
  · subst hcore
    have hoff := exec_vddCoreRemoval_unlatched h
    exact ⟨by rw [hoff.trip, hoff.latch]; rfl, fun hlatch => absurd (hoff.latch.symm.trans hlatch) (by decide)⟩
  by_cases hthm : ∃ l, c = .thmSample l
  · obtain ⟨l, rfl⟩ := hthm
    obtain ⟨u, -, rfl⟩ | ⟨u, hoff, rfl⟩ | ⟨hlatch, rfl⟩ := exec_thmSample_latch_or_hold h
    · exact ⟨rfl, fun _ => ⟨rfl, rfl⟩⟩
    · exact ⟨htrip, fun hlatch => absurd (hoff.symm.trans hlatch) (by decide)⟩
    · exact ⟨htrip, fun _ => thmSample_latched_inSafe (hsafe hlatch) l⟩
  cases hc : unclocked c
  · obtain ⟨f, hf⟩ := exec_clocked c s hc
    by_cases hlatch : s.pwr.thermLatch = true
    · rw [hf, whileClocked_stopped f (clocksOff_of_latch hlatch)] at h
      obtain rfl := Host.Outcome.next.inj h
      exact ⟨htrip, hsafe⟩
    · have hheld := held_clocked (hf.symm.trans h)
      exact ⟨by rw [hheld.trip, hheld.latch, htrip], fun hon => absurd (hheld.latch.symm.trans hon) hlatch⟩
  · obtain ⟨f, hf⟩ := exec_always c s hc hrise hcore fun l hl => hthm ⟨l, hl⟩
    have hheld := held_always (hf.symm.trans h)
    refine ⟨by rw [hheld.trip, hheld.latch, htrip], fun hlatch => ?_⟩
    have hwas : s.pwr.thermLatch = true := hheld.latch.symm.trans hlatch
    obtain ⟨u, hu, hin⟩ := exec_always_inSafe hc hrise hcore (fun l hl => hthm ⟨l, hl⟩) hwas (hsafe hwas)
    obtain rfl := Host.Outcome.next.inj (hu.symm.trans h)
    exact hin

/-- Settles O5: a clocked command does nothing to a latched device, and every other keeps it in the safe state. -/
theorem stepKeepsThermallySafe : Obligations.StepKeepsThermallySafe := by
  intro s t hs hstep
  cases h : s.pending with
  | nil =>
    rw [step_idle h] at hstep
    obtain rfl := Host.Outcome.next.inj hstep
    exact hs
  | cons c rest =>
    rw [step_front h] at hstep
    exact exec_keeps_thermalSafe (s := { s with pending := rest }) hs hstep

end Sys2Proof.Proofs

/-! PROOFS. The order of a packet's checks (R131, R136, R137), and where completions and writes to the host go (R121, R126, R132 to R134). -/

namespace Sys2Proof.Proofs

-- One theorem after the other: elaborated at once, their threads outgrow the memory that a check may take.
set_option Elab.async false

open Sys2Proof.Machine Sys2Proof.Laws

/-! ### The order of the checks -/

section Packet

variable {s : State} {h : Issue} {c : Instr} {op layout : Nat} {checks : State → List (Bool × Status)} {body : State → State}

theorem hostCmd_waits (hw : packetSays s h op c = false ∨ fenceHolds s h = true) : hostCmd s h c op layout checks body = s := by
  rcases hw with hother | hfence
  · exact hostCmd_other hother
  · simp [hostCmd, hfence]

theorem hostCmd_badHeader (hp : packetSays s h op c = true) (hf : fenceHolds s h = false) (hh : headerOk h = false) :
    hostCmd s h c op layout checks body = fail (accept s h) h op .badParam := by
  simp [hostCmd, hp, hf, hh]

theorem hostCmd_blockFails (hp : packetSays s h op c = true) (hf : fenceHolds s h = false) (hh : headerOk h = true)
    (hr : blockFails h = true) : hostCmd s h c op layout checks body = fail (accept s h) h op .dmaError := by
  simp [hostCmd, hp, hf, hh, hr]

theorem hostCmd_unreachable (hp : packetSays s h op c = true) (hf : fenceHolds s h = false) (hh : headerOk h = true)
    (hr : blockFails h = false) (ha : (forwards s h && op != 0x0805) = true) (hd : reachable (accept s h) h.target = false) :
    hostCmd s h c op layout checks body = fail (accept s h) h op .fabricUnreachable := by
  simp only [hostCmd, hp, hf, hh, hr, ha, hd, Bool.not_true, Bool.not_false, Bool.or_self, Bool.false_eq_true, if_false, if_true]

theorem hostBytes_accept (s : State) (h : Issue) (a k : Nat) : hostBytes (accept s h) a k = hostBytes s a k :=
  hostBytes_congr (accept_same s h).host a k

theorem hostCmd_forwarded (hp : packetSays s h op c = true) (hf : fenceHolds s h = false) (hh : headerOk h = true)
    (hr : blockFails h = false) (ha : (forwards s h && op != 0x0805) = true) (hd : reachable (accept s h) h.target = true) :
    hostCmd s h c op layout checks body =
      startRun (sendMsg (accept s h) h.target tyCmdFwd (fwdBody h.ring ((nextStart s h).getD ([], [])).1
        (if Issue.paramPtr h then hostBytes (accept s h) h.ptr h.ptrLen else []))) h tyCmdFwd h.target [op] := by
  simp only [hostCmd, hp, hf, hh, hr, ha, hd, Bool.not_true, Bool.or_self, Bool.false_eq_true, if_false, if_true, hostBytes_accept]

theorem hostCmd_badBlock (hp : packetSays s h op c = true) (hf : fenceHolds s h = false) (hh : headerOk h = true)
    (hr : blockFails h = false) (ha : (forwards s h && op != 0x0805) = false)
    (hb : (if Issue.paramPtr h then h.ptrLen else 48) < layout ∨ h.prsvd ≠ 0) :
    hostCmd s h c op layout checks body = fail (accept s h) h op .badParam := by
  simp only [hostCmd, hp, hf, hh, hr, ha, Bool.not_true, Bool.or_self, Bool.false_eq_true, if_false]
  rcases hb with hshort | hrsvd
  · rw [if_pos (decide_eq_true hshort)]
  · rw [if_pos (show (h.prsvd != 0) = true by simpa using hrsvd), ite_self]

theorem hostCmd_checked (hp : packetSays s h op c = true) (hf : fenceHolds s h = false) (hh : headerOk h = true)
    (hr : blockFails h = false) (ha : (forwards s h && op != 0x0805) = false)
    (hl : layout ≤ if Issue.paramPtr h then h.ptrLen else 48) (hz : h.prsvd = 0) :
    hostCmd s h c op layout checks body =
      match (checks (accept s h)).find? (fun c => !c.1) with
      | some c => fail (if c.2 == .noGrant then dieRefuse (accept s h) else accept s h) h op c.2
      | none => body (accept s h) := by
  have hshort : ¬ (if Issue.paramPtr h then h.ptrLen else 48) < layout := hl.not_gt
  simp only [hostCmd, hp, hf, hh, hr, ha, hz, hshort, Bool.not_true, Bool.or_self, Bool.false_eq_true, decide_false, if_false,
    bne_self_eq_false] <;> rfl

end Packet

/-- Settles O9: each order has its lemma, under the orders before it passed. -/
theorem packetCheckOrder : Obligations.PacketCheckOrder := by
  intro s h c op layout checks body run a packet block away
  refine ⟨hostCmd_waits, fun hp hf => ⟨hostCmd_badHeader hp hf, fun hh => ⟨hostCmd_blockFails hp hf hh, fun hr => ⟨?_, ?_, fun haway => ⟨?_, ?_⟩⟩⟩⟩⟩
  · exact fun ⟨haway, hd⟩ => hostCmd_unreachable hp hf hh hr haway hd
  · exact fun ⟨haway, hd⟩ => hostCmd_forwarded hp hf hh hr haway hd
  · exact hostCmd_badBlock hp hf hh hr haway
  · rintro ⟨hl, hz⟩
    have hrun := hostCmd_checked (checks := checks) (body := body) hp hf hh hr haway hl hz
    refine ⟨fun st hst => ?_, fun hall => ?_⟩
    · obtain ⟨k, hk, rfl⟩ := Option.map_eq_some_iff.mp hst
      rw [hk] at hrun
      simpa using hrun
    · have hnone : (checks a).find? (fun c => !c.1) = none := by simpa [List.find?_eq_none] using hall
      rw [hnone] at hrun
      exact hrun

/-! ### Where a completion goes -/

theorem now_congr {s t : State} (hlo : rd t FTM_TIME_LO = rd s FTM_TIME_LO) (hhi : rd t FTM_TIME_HI = rd s FTM_TIME_HI) : now t = now s := by
  rw [now, now, rd64, rd64, rdN_congr hlo, rdN_congr hhi]

theorem now_of_regs {s t : State} (h : t.regs = s.regs) : now t = now s := now_congr (rd_regs h _) (rd_regs h _)

theorem sendMsg_held (s : State) (d ty : Nat) (b : List Nat) : (sendMsg s d ty b).hif.held = s.hif.held := by rw [(sendMsg_same s d ty b).hif]

theorem completionGoesToIssuer : Claim.CompletionGoesToIssuer := by
  intro s h op st r0 r1 r2 ex
  refine ⟨fun hsrc hv => ?discarded, fun hsrc hv h0 h1 h2 hx => ?written, fun a hsrc => ?answered⟩
  case discarded => simp [complete, completeAs, Issue.issuer, hsrc, hv]
  case written =>
    have hnow : now (unvoid s h) = now s := now_of_regs rfl
    simp only [complete, completeAs, Issue.issuer, hsrc, hv, hnow, Nat.mod_eq_of_lt h0, Nat.mod_eq_of_lt h1, Nat.mod_eq_of_lt h2,
      Nat.mod_eq_of_lt hx, Bool.false_eq_true, if_false]
  case answered =>
    simp only [complete, completeAs, Issue.issuer, hsrc]
    split
    · exact ⟨(sendMsg_same _ _ _ _).host, sendMsg_held _ _ _ _⟩
    · exact ⟨(sendMsg_same _ _ _ _).host, sendMsg_held _ _ _ _⟩

/-! ### The slot of a completion -/

@[simp] theorem Completion.bytes_length (c : Completion) (phase : Nat) : (c.bytes phase).length = 32 := by simp [Completion.bytes]

theorem cqSize_bound (s : State) (n : Nat) : 16 ≤ cqSize s n ∧ cqSize s n ≤ 4096 := by
  unfold cqSize ringSize
  split
  · omega
  · split
    · rename_i hsize
      simp only [Bool.and_eq_true, decide_eq_true_eq] at hsize
      obtain ⟨hlo, hhi⟩ := hsize
      exact ⟨Nat.pow_le_pow_right (n := 2) (by decide) hlo, Nat.pow_le_pow_right (n := 2) (by decide) hhi⟩
    · omega

theorem cqSize_congr {s t : State} {n : Nat} (h : rd t (HIF_CQ_CFG n) = rd s (HIF_CQ_CFG n)) : cqSize t n = cqSize s n := by
  rw [cqSize, cqSize, fld_congr h]

/-- The registers of a ring lie apart. -/
theorem ring_regs_apart (n : Nat) : HIF_CQ_TAIL n ≠ HIF_SQ_STS n ∧ HIF_CQ_CFG n ≠ HIF_SQ_STS n ∧ HIF_CQ_BASE_LO n ≠ HIF_SQ_STS n ∧
    HIF_CQ_BASE_HI n ≠ HIF_SQ_STS n ∧ HIF_CQ_CFG n ≠ HIF_CQ_TAIL n := by
  simp only [HIF_CQ_TAIL, HIF_SQ_STS, HIF_CQ_CFG, HIF_CQ_BASE_LO, HIF_CQ_BASE_HI]
  omega

theorem lessOutstanding_rd {s : State} {n a : Nat} (h : a ≠ HIF_SQ_STS n) : rd (lessOutstanding s n) a = rd s a := by
  unfold lessOutstanding
  split
  · exact rd_setFld_other _ _ _ h
  · rfl

theorem lessOutstanding_counted {s : State} {n : Nat} (h : n < 16) :
    fld (lessOutstanding s n) (HIF_SQ_STS n) 24 16 = fld s (HIF_SQ_STS n) 24 16 - 1 := by
  have hlt := fld_lt (s := s) (HIF_SQ_STS n) 24 16
  rw [lessOutstanding, if_pos h, fld_setFld_same _ _ _ _ (by decide) (by decide), Nat.mod_eq_of_lt (by omega)]

/-- The tail of a completion ring moves on by one slot, with the phase inverted at the wrap (R126). -/
def tailAdvanced (s : State) (n size tail phase : Nat) : State :=
  if tail + 1 = size then setFld (setFld s (HIF_CQ_TAIL n) 11 0 0) (HIF_CQ_TAIL n) 12 12 (1 - phase)
  else setFld s (HIF_CQ_TAIL n) 11 0 (tail + 1)

theorem tailAdvanced_same (s : State) (n size tail phase : Nat) : Same [.regs] s (tailAdvanced s n size tail phase) := by
  unfold tailAdvanced
  split
  · exact (setFld_same _ _ _ _ _).trans (setFld_same _ _ _ _ _)
  · exact setFld_same _ _ _ _ _

theorem tailAdvanced_rd {s : State} {n size tail phase a : Nat} (h : a ≠ HIF_CQ_TAIL n) :
    rd (tailAdvanced s n size tail phase) a = rd s a := by
  unfold tailAdvanced
  split
  · rw [rd_setFld_other _ _ _ h, rd_setFld_other _ _ _ h]
  · exact rd_setFld_other _ _ _ h

theorem tailAdvanced_tail {s : State} {n size tail phase : Nat} (hsize : size ≤ 4096) (h : tail < size) :
    fld (tailAdvanced s n size tail phase) (HIF_CQ_TAIL n) 11 0 = (tail + 1) % size := by
  unfold tailAdvanced
  split
  · rename_i hwrap
    rw [fld_setFld_apart _ _ _ _ _ _ (by decide) (by decide) (by decide), fld_setFld_same _ _ _ _ (by decide) (by decide), hwrap,
      Nat.mod_self]
    rfl
  · rw [fld_setFld_same _ _ _ _ (by decide) (by decide), Nat.mod_eq_of_lt (by omega), Nat.mod_eq_of_lt (by omega)]

theorem tailAdvanced_phase {s : State} {n size tail phase : Nat} (hphase : fld s (HIF_CQ_TAIL n) 12 12 = phase) :
    fld (tailAdvanced s n size tail phase) (HIF_CQ_TAIL n) 12 12 = if tail + 1 = size then 1 - phase else phase := by
  have hlt := fld_lt (s := s) (HIF_CQ_TAIL n) 12 12
  unfold tailAdvanced
  split
  · rw [fld_setFld_same _ _ _ _ (by decide) (by decide), Nat.mod_eq_of_lt (by omega)]
  · rw [fld_setFld_apart _ _ _ _ _ _ (by decide) (by decide) (by decide), hphase]

/-- A completion of a host ring: one command less, its bytes at the tail, and the tail moved on. -/
theorem cqWrite_host {s : State} {c : Completion} (hn : c.ring < 15) :
    cqWrite s c = tailAdvanced (putHost (lessOutstanding s c.ring)
        (rdN s (HIF_CQ_BASE_LO c.ring) + 2 ^ 32 * rdN s (HIF_CQ_BASE_HI c.ring) + 32 * fld s (HIF_CQ_TAIL c.ring) 11 0)
        (c.bytes (fld s (HIF_CQ_TAIL c.ring) 12 12)))
      c.ring (cqSize s c.ring) (fld s (HIF_CQ_TAIL c.ring) 11 0) (fld s (HIF_CQ_TAIL c.ring) 12 12) := by
  obtain ⟨htail, hcfg, hlo, hhi, -⟩ := ring_regs_apart c.ring
  have hless : ∀ a, a ≠ HIF_SQ_STS c.ring → rd (lessOutstanding s c.ring) a = rd s a := fun a ha => lessOutstanding_rd ha
  have hsize : ∀ u : State, u.regs = (lessOutstanding s c.ring).regs → cqSize u c.ring = cqSize s c.ring := fun u hu =>
    cqSize_congr ((rd_regs hu _).trans (hless _ hcfg))
  have hring : c.ring ≠ 15 := by omega
  have hhost : ¬ 16 ≤ c.ring := by omega
  simp only [cqWrite, tailAdvanced, if_neg hring, if_neg hhost, fld_congr (hless _ htail), rdN_congr (hless _ hlo), rdN_congr (hless _ hhi)]
  rw [hsize _ (putHost_regs _ _ _)]

theorem completionTakesSlot : Claim.CompletionTakesSlot := by
  intro s c hn n tail phase slot t
  have hrun : t = tailAdvanced (putHost (lessOutstanding s n) slot (c.bytes phase)) n (cqSize s n) tail phase := cqWrite_host hn
  clear_value t
  subst hrun
  obtain ⟨htail, -, -, -, -⟩ := ring_regs_apart n
  have hless := lessOutstanding_same s n
  have hmove := tailAdvanced_same (putHost (lessOutstanding s n) slot (c.bytes phase)) n (cqSize s n) tail phase
  refine ⟨?bytes, fun a ha => ?other, fun hlt => ?tail, ?phase, ?count, ?_, ?_, ?_, ?_⟩
  case bytes =>
    rw [hostBytes_congr hmove.host]
    have hsame := hostBytes_putHost_same (s := lessOutstanding s n) slot (c.bytes phase)
    rwa [Completion.bytes_length] at hsame
  case other =>
    rw [hostBytes_congr hmove.host, hostBytes_putHost_other _ _ (by rw [Completion.bytes_length]; omega), hostBytes_congr hless.host]
  case tail => exact tailAdvanced_tail (cqSize_bound s n).2 hlt
  case phase => exact tailAdvanced_phase (fld_congr (lessOutstanding_rd htail) 12 12)
  case count =>
    rw [fld_congr (tailAdvanced_rd (Ne.symm htail)), fld_congr (rd_regs (putHost_regs _ _ _) _)]
    exact lessOutstanding_counted (by omega)
  · rw [hmove.sram, putHost_sram, hless.sram]
  · rw [hmove.dram, putHost_dram, hless.dram]
  · rw [hmove.lanes, putHost_lanes, hless.lanes]
  · rw [hmove.running, putHost_running, hless.running]

/-- A write to the host while the device may not request: it waits behind the others. -/
theorem hostOp_waits {s : State} {o : HostOp} (hreq : canRequest s = false) (hlink : ∀ c, o = .complete c → c.ring ≠ 15) :
    hostOp s o = { s with hif := { s.hif with held := s.hif.held ++ [o] } } := by
  cases o with
  | write a bs => simp [hostOp, hreq]
  | complete c => simp [hostOp, hreq, hlink c rfl]

/-- Settles O29. -/
theorem completionsReachTheirRing : Obligations.CompletionsReachTheirRing :=
  ⟨completionGoesToIssuer, completionTakesSlot, fun _ _ => hostOp_waits⟩

end Sys2Proof.Proofs

/-! PROOFS. The rings of the host: their registers (R17, R127, R132), the fetch of commands (R124, R125, R129, R130), and what PERST_N,
Bus Master Enable and the configuration space do (R90, R92, R95, R117 to R121, R144). -/

namespace Sys2Proof.Proofs

-- One theorem after the other: elaborated at once, their threads outgrow the memory that a check may take.
set_option Elab.async false

open Sys2Proof.Machine Sys2Proof.Laws

/-! ### Commands of the clocked logic -/

theorem does_clocked {s : State} {f : State → State} {P : State → Prop} (hclk : Clocked s) (h : P (f s)) : Does (whileClocked s f) s P :=
  ⟨f s, whileClocked_running f hclk, h⟩

/-! ### Writes of a register by its fields -/

theorem plainWrite_of_fields {s : State} {a : Nat} {fs : List Field} (h : (regAt a).map (fun r => r.1.fields) = some fs) (v : Nat) :
    plainWrite s a v = fs.foldl (fun t f => fieldWrite t a v (staticGate s a) f) s := by
  obtain ⟨⟨r, i, j⟩, hr, rfl⟩ := Option.map_eq_some_iff.mp h
  simp only [plainWrite, hr]

theorem natBits_full {v : Nat} (h : v < 2 ^ 32) : natBits v 31 0 = v := by simpa [natBits] using h

theorem rd_setFld_full (s : State) (a v : Nat) : rdN (setFld s a 31 0 v) a = v % 2 ^ 32 := by
  have h := fld_setFld_same (s := s) a 31 0 v (by decide) (by decide)
  rwa [fld, bitsOf_full] at h

theorem rdN_setFld_word (s : State) (a : Nat) {v : Nat} (h : v < 2 ^ 32) : rdN (setFld s a 31 0 (natBits v 31 0)) a = v := by
  rw [natBits_full h, rd_setFld_full, Nat.mod_eq_of_lt h]

/-- A state with its registers put back: what a write of registers alone leaves equal. -/
theorem setFlag_regs_restored (s : State) (a i : Nat) (b : Bool) : { setFlag s a i b with regs := s.regs } = s := rfl

theorem setFld_regs_restored (s : State) (a hi lo v : Nat) : { setFld s a hi lo v with regs := s.regs } = s := rfl

/-! ### The base and size registers of a ring -/

/-- The register that RING_BASE_WRITE names (R127). -/
def ringBaseReg (n : Nat) : Nat → Nat
  | 0 => HIF_SQ_BASE_LO n
  | 1 => HIF_SQ_BASE_HI n
  | 2 => HIF_SQ_CFG n
  | 3 => HIF_CQ_BASE_LO n
  | 4 => HIF_CQ_BASE_HI n
  | _ => HIF_CQ_CFG n

/-- The bits of the one class S field of a base or size register. -/
def ringBaseField : Nat → Nat × Nat
  | 0 => (31, 12)
  | 3 => (31, 12)
  | 5 => (3, 0)
  | _ => (31, 0)

theorem hifReg_ringBase : ∀ n < 15, ∀ reg < 6, hifReg (ringBaseReg n reg) = true := by decide +kernel

theorem ringOf_ringBase {n reg : Nat} : ringOf (ringBaseReg n reg) = n := by
  unfold ringOf ringBaseReg
  split <;> simp only [HIF_SQ_BASE_LO, HIF_SQ_BASE_HI, HIF_SQ_CFG, HIF_CQ_BASE_LO, HIF_CQ_BASE_HI, HIF_CQ_CFG] <;> omega

theorem ringBase_fields : ∀ n < 15, ∀ reg < 6, reg ≠ 2 → ∃ d < 5,
    (regAt (ringBaseReg n reg)).map (fun r => r.1.fields) = some [fRW .s (ringBaseField reg).1 (ringBaseField reg).2 d] := by
  decide +kernel

section Ring

variable {s : State} {n reg v : Nat}

theorem ringBase_no_doorbell : ringBaseReg n reg ≠ HIF_SQ_TAIL n ∧ ringBaseReg n reg ≠ HIF_CQ_HEAD n := by
  unfold ringBaseReg
  split <;> simp only [HIF_SQ_BASE_LO, HIF_SQ_BASE_HI, HIF_SQ_CFG, HIF_CQ_BASE_LO, HIF_CQ_BASE_HI, HIF_CQ_CFG, HIF_SQ_TAIL, HIF_CQ_HEAD] <;>
    omega

theorem exec_ringBaseWrite (hclk : Clocked s) (hn : n < 15) (hreg : reg < 6) : exec (.ringBaseWrite n reg v) s =
    .next (holding s (ringWritten s (plainWrite s (ringBaseReg n reg) v) (ringBaseReg n reg))) := by
  have hring : ringOf (ringBaseReg n reg) = n := ringOf_ringBase
  have hother : ringOf (ringBaseReg n reg) ≠ 15 := by omega
  obtain ⟨hsq, hcq⟩ := ringBase_no_doorbell (n := n) (reg := reg)
  calc exec (.ringBaseWrite n reg v) s = execRingBaseWrite n reg v s := rfl
    _ = .next (holding s (regWrite s 0 (ringBaseReg n reg) v)) := whileClocked_running _ hclk
    _ = _ := by rw [regWrite_of_hifReg 0 v hclk (hifReg_ringBase n hn reg hreg) hother, hring, if_neg hsq, if_neg hcq]

/-- A base or size register has one class S field: an idle ring takes it, another sets CFG_IGNORED (R17). -/
theorem plainWrite_ringBase (hn : n < 15) (hreg : reg < 6) (hsize : reg ≠ 2) : plainWrite s (ringBaseReg n reg) v =
    if ringIdle s n then
      setFld s (ringBaseReg n reg) (ringBaseField reg).1 (ringBaseField reg).2 (natBits v (ringBaseField reg).1 (ringBaseField reg).2)
    else setFlag s (HIF_SQ_STS n) 3 true := by
  obtain ⟨d, -, hfields⟩ := ringBase_fields n hn reg hreg hsize
  rw [plainWrite_of_fields hfields, List.foldl_cons, List.foldl_nil, staticGate, if_pos (hifReg_ringBase n hn reg hreg), ringOf_ringBase]
  rfl

theorem ringWritten_busy {t : State} (h : ringIdle s n = false) : ringWritten s t (ringBaseReg n reg) = t := by
  rw [ringWritten, ringOf_ringBase, h]
  rfl

theorem ringWritten_sqBaseHi {t : State} (h : ringIdle s n = true) : ringWritten s t (HIF_SQ_BASE_HI n) = sqRestart t n := by
  have hring : ringOf (HIF_SQ_BASE_HI n) = n := ringOf_ringBase (reg := 1)
  simp [ringWritten, hring, h]

theorem ringWritten_cqBaseHi {t : State} (h : ringIdle s n = true) : ringWritten s t (HIF_CQ_BASE_HI n) = cqRestart t n := by
  have hring : ringOf (HIF_CQ_BASE_HI n) = n := ringOf_ringBase (reg := 4)
  have hlo : HIF_CQ_BASE_HI n ≠ HIF_SQ_BASE_LO n := by simp only [HIF_CQ_BASE_HI, HIF_SQ_BASE_LO]; omega
  have hhi : HIF_CQ_BASE_HI n ≠ HIF_SQ_BASE_HI n := by simp only [HIF_CQ_BASE_HI, HIF_SQ_BASE_HI]; omega
  have hcfg : HIF_CQ_BASE_HI n ≠ HIF_SQ_CFG n := by simp only [HIF_CQ_BASE_HI, HIF_SQ_CFG]; omega
  simp [ringWritten, hring, h, hlo, hhi, hcfg]

/-- The low 13 bits of a completion ring's tail register after a restart: index 0, phase 1 (R126). -/
theorem cqTail_reset : ∀ n < 15, bitsOf (regReset (HIF_CQ_TAIL n)) 11 0 = 0 ∧ bitsOf (regReset (HIF_CQ_TAIL n)) 12 12 = 1 := by
  decide +kernel

end Ring

theorem ringBaseRestarts : Claim.RingBaseRestarts := by
  intro s n reg v hclk hn hreg hsize hv
  rw [exec_ringBaseWrite hclk hn hreg, plainWrite_ringBase hn hreg hsize]
  refine ⟨fun hidle => ⟨?sq, ?cq⟩, fun hbusy => ?busy⟩
  case sq =>
    rintro rfl
    refine ⟨_, congrArg _ (congrArg _ (ringWritten_sqBaseHi hidle)), ?_⟩
    rw [if_pos hidle]
    have hapart : HIF_SQ_BASE_HI n ≠ HIF_SQ_HEAD n := by simp only [HIF_SQ_BASE_HI, HIF_SQ_HEAD]; omega
    refine ⟨?_, mget_mset_same _ _ _ _, by simp [sqRestart], ⟨rfl, rfl, rfl, rfl, rfl⟩, rfl, fun a hbase hhead => ?_⟩
    · exact (rdN_congr (rd_wrN_other 0 hapart)).trans (rdN_setFld_word s (HIF_SQ_BASE_HI n) hv)
    · exact (rd_wrN_other 0 hhead).trans (rd_setFld_other _ _ _ hbase)
  case cq =>
    rintro rfl
    refine ⟨_, congrArg _ (congrArg _ (ringWritten_cqBaseHi hidle)), ?_⟩
    rw [if_pos hidle]
    have hapart : HIF_CQ_BASE_HI n ≠ HIF_CQ_TAIL n := by simp only [HIF_CQ_BASE_HI, HIF_CQ_TAIL]; omega
    obtain ⟨htail, hphase⟩ := cqTail_reset n hn
    refine ⟨?_, mget_mset_same _ _ _ _, ?_, ?_, ⟨rfl, rfl, rfl, rfl, rfl⟩, rfl, fun a hbase htl => ?_⟩
    · exact (rdN_congr (rd_wr_other _ hapart)).trans (rdN_setFld_word s (HIF_CQ_BASE_HI n) hv)
    · rw [fld, cqRestart, rd_wr_same, htail]
    · rw [fld, cqRestart, rd_wr_same, hphase]
    · exact (rd_wr_other _ htl).trans (rd_setFld_other _ _ _ hbase)
  case busy =>
    refine ⟨_, congrArg _ (congrArg _ (ringWritten_busy hbusy)), ?_⟩
    rw [if_neg (by simp [hbusy])]
    exact ⟨fld_setFld_same _ _ _ _ (by decide) (by decide), fun a ha => rd_setFlag_other _ _ ha, setFlag_regs_restored _ _ _ _⟩

theorem ringEnableWaits : Claim.RingEnableWaits := by
  intro s n on hclk hn
  show Does (execSqEnable n on s) s _
  refine does_clocked hclk ?_
  rw [if_neg (by omega)]
  exact ⟨List.mem_append_right _ (List.mem_singleton.mpr rfl), rfl⟩

/-- Settles O31. -/
theorem ringRegisters : Obligations.RingRegisters := ⟨ringBaseRestarts, ringEnableWaits⟩

/-! ### Fetching -/

section Fetch

variable {s : State} {n : Nat}

theorem nextRing_canFetch (h : nextRing s = some n) : canFetch s n = true ∧ n < 16 := by
  unfold nextRing at h
  dsimp only at h
  split at h
  · rename_i hturn
    simp only [Bool.and_eq_true, decide_eq_true_eq] at hturn
    obtain ⟨⟨⟨hlt, -⟩, -⟩, hcan⟩ := hturn
    obtain rfl := Option.some.inj h
    exact ⟨hcan, hlt⟩
  · obtain ⟨k, -, rfl⟩ := List.mem_map.mp (List.mem_of_find?_eq_some h)
    exact ⟨List.find?_some h, Nat.mod_lt _ (by decide)⟩

theorem canFetch_host (h : canFetch s n = true) (hn : n < 15) : flag s (HIF_SQ_STS n) 0 = true ∧ canRequest s = true ∧
    cqFilled s n + fld s (HIF_SQ_STS n) 24 16 + 1 < cqSize s n := by
  have hring : n ≠ 15 := by omega
  simp only [canFetch, cqHeld, if_neg hring, Bool.and_eq_true, decide_eq_true_eq] at h
  obtain ⟨⟨⟨hactive, hreq⟩, -⟩, hroom⟩ := h
  exact ⟨hactive, hreq, hroom⟩

theorem sqSize_bound (s : State) (n : Nat) : 16 ≤ sqSize s n ∧ sqSize s n ≤ 4096 := by
  unfold sqSize ringSize
  split
  · omega
  · split
    · rename_i hsize
      simp only [Bool.and_eq_true, decide_eq_true_eq] at hsize
      obtain ⟨hlo, hhi⟩ := hsize
      exact ⟨Nat.pow_le_pow_right (n := 2) (by decide) hlo, Nat.pow_le_pow_right (n := 2) (by decide) hhi⟩
    · omega

theorem moreOutstanding_rd {a : Nat} (h : a ≠ HIF_SQ_STS n) : rd (moreOutstanding s n) a = rd s a := by
  unfold moreOutstanding
  split
  · exact rd_setFld_other _ _ _ h
  · rfl

theorem moreOutstanding_counted (h : n < 16) (hlt : fld s (HIF_SQ_STS n) 24 16 < 256) :
    fld (moreOutstanding s n) (HIF_SQ_STS n) 24 16 = fld s (HIF_SQ_STS n) 24 16 + 1 := by
  rw [moreOutstanding, if_pos h, fld_setFld_same _ _ _ _ (by decide) (by decide), Nat.mod_eq_of_lt (by omega)]

/-- The packet at the head of a ring (R130, R532). -/
def headPacket (s : State) (n : Nat) : List Byte :=
  if n = 15 then s.svc.sq.headD []
  else hostBytes s (rdN s (HIF_SQ_BASE_LO n) + 2 ^ 32 * rdN s (HIF_SQ_BASE_HI n) + 64 * fld s (HIF_SQ_HEAD n) 11 0) 64

/-- The registers after a fetch: the head moved on and one command more outstanding. -/
def fetchRegs (s : State) (n head : Nat) : State := moreOutstanding (setFld s (HIF_SQ_HEAD n) 11 0 head) n

theorem fetchRegs_same (s : State) (n head : Nat) : Same [.regs] s (fetchRegs s n head) :=
  (setFld_same _ _ _ _ _).trans (moreOutstanding_same _ _)

theorem fetchRegs_spec {head : Nat} (hn : n < 16) (hhead : head < 4096) (hlt : fld s (HIF_SQ_STS n) 24 16 < 256) :
    fld (fetchRegs s n head) (HIF_SQ_HEAD n) 11 0 = head ∧
    fld (fetchRegs s n head) (HIF_SQ_STS n) 24 16 = fld s (HIF_SQ_STS n) 24 16 + 1 ∧
    ∀ a, a ≠ HIF_SQ_HEAD n → a ≠ HIF_SQ_STS n → rd (fetchRegs s n head) a = rd s a := by
  have hapart : HIF_SQ_HEAD n ≠ HIF_SQ_STS n := by simp only [HIF_SQ_HEAD, HIF_SQ_STS]; omega
  have hsts := fld_congr (rd_setFld_other (s := s) 11 0 head (Ne.symm hapart)) 24 16
  refine ⟨?_, ?_, fun a hne hst => ?_⟩
  · rw [fetchRegs, fld_congr (moreOutstanding_rd hapart), fld_setFld_same _ _ _ _ (by decide) (by decide)]
    exact Nat.mod_eq_of_lt hhead
  · rw [fetchRegs, moreOutstanding_counted hn (by rw [hsts]; exact hlt), hsts]
  · rw [fetchRegs, moreOutstanding_rd hst, rd_setFld_other _ _ _ hne]

/-- The service port's ring gives up its first packet. -/
def svcTaken (s : State) (n : Nat) : State := if n = 15 then { s with svc := { s.svc with sq := s.svc.sq.drop 1 } } else s

theorem svcTaken_same (s : State) (n : Nat) : Same [.svc] s (svcTaken s n) := by
  unfold svcTaken
  split
  · intro p hp
    cases p <;> first | rfl | exact absurd (by decide) hp
  · exact Same.refl _ _

theorem svcTaken_sq (s : State) (n : Nat) : (svcTaken s n).svc.sq = if n = 15 then s.svc.sq.drop 1 else s.svc.sq := by
  unfold svcTaken
  split <;> rfl

theorem sqSize_congr {t : State} (h : t.regs = s.regs) : sqSize t n = sqSize s n := by rw [sqSize, sqSize, fld_congr (rd_regs h _)]

/-- The host interface after a fetch of `n`. -/
def fetchedHif (s : State) (n : Nat) : Hif :=
  { s.hif with
    fetched := s.hif.fetched ++ [⟨n, leNat (((headPacket s n).drop 4).take 4), leNat ((headPacket s n).take 2), headPacket s n, false⟩]
    turnTaken := if n = s.hif.turnRing then s.hif.turnTaken + 1 else 1, turnRing := n }

theorem fetchOne_eq (s : State) (n : Nat) : fetchOne s n =
    { fetchRegs (svcTaken s n) n ((fld s (HIF_SQ_HEAD n) 11 0 + 1) % sqSize s n) with hif := fetchedHif s n } := by
  have hhif : (fetchRegs (svcTaken s n) n ((fld s (HIF_SQ_HEAD n) 11 0 + 1) % sqSize s n)).hif = s.hif :=
    (fetchRegs_same _ _ _).hif.trans (svcTaken_same s n).hif
  rw [fetchedHif, ← hhif, ← sqSize_congr (s := s) (svcTaken_same s n).regs]
  rfl

theorem fetchOne_spec (hn : n < 16) (hlt : fld s (HIF_SQ_STS n) 24 16 < 256) :
    let u := fetchOne s n
    u.svc.sq = (if n = 15 then s.svc.sq.drop 1 else s.svc.sq) ∧ u.hif = fetchedHif s n ∧
    fld u (HIF_SQ_HEAD n) 11 0 = (fld s (HIF_SQ_HEAD n) 11 0 + 1) % sqSize s n ∧
    fld u (HIF_SQ_STS n) 24 16 = fld s (HIF_SQ_STS n) 24 16 + 1 ∧
    (∀ a, a ≠ HIF_SQ_HEAD n → a ≠ HIF_SQ_STS n → rd u a = rd s a) ∧ SameMemory s u ∧ u.running = s.running := by
  intro u
  have hu : u = _ := fetchOne_eq s n
  clear_value u
  subst hu
  have hhead : (fld s (HIF_SQ_HEAD n) 11 0 + 1) % sqSize s n < 4096 :=
    (Nat.mod_lt _ (by have := (sqSize_bound s n).1; omega)).trans_le (sqSize_bound s n).2
  have htaken := svcTaken_same s n
  have hfetch := fetchRegs_same (svcTaken s n) n ((fld s (HIF_SQ_HEAD n) 11 0 + 1) % sqSize s n)
  have hregs : ∀ a, rd (svcTaken s n) a = rd s a := fun a => rd_regs htaken.regs a
  obtain ⟨hnew, hcount, hother⟩ := fetchRegs_spec (s := svcTaken s n) hn hhead (by rw [fld_congr (hregs _)]; exact hlt)
  refine ⟨(congrArg Svc.sq hfetch.svc).trans (svcTaken_sq s n), rfl, hnew, hcount.trans (by rw [fld_congr (hregs _)]),
    fun a h1 h2 => (hother a h1 h2).trans (hregs a), ⟨?_, ?_, ?_, ?_, ?_⟩, hfetch.running.trans htaken.running⟩
  · exact hfetch.sram.trans htaken.sram
  · exact hfetch.dram.trans htaken.dram
  · exact hfetch.host.trans htaken.host
  · exact hfetch.sramLost.trans htaken.sramLost
  · exact hfetch.dramLost.trans htaken.dramLost

end Fetch

theorem fetchTakesOne : Claim.FetchTakesOne := by
  intro s hclk hserves
  refine ⟨fun n hnext hlt => ⟨(nextRing_canFetch hnext).1, ?fetched⟩, fun hnone => ?idle⟩
  case fetched =>
    show Does (execCommandFetch s) s _
    refine does_clocked hclk ?_
    simp only [hserves, Bool.not_true, Bool.false_eq_true, if_false, hnext]
    obtain ⟨hsq, hhif, hrest⟩ := fetchOne_spec (s := { s with hif := { s.hif with
      turnTaken := if n = s.hif.turnRing && ringTurn s n ≤ s.hif.turnTaken then 0 else s.hif.turnTaken } }) (nextRing_canFetch hnext).2 hlt
    exact ⟨hsq, congrArg Hif.fetched hhif, hrest⟩
  case idle =>
    show execCommandFetch s = _
    rw [execCommandFetch, whileClocked_running _ hclk]
    simp [hserves, hnone]

theorem fetchNeedsRoom : Claim.FetchNeedsRoom := by
  intro s n hclk
  refine ⟨fun hnext hn => canFetch_host (nextRing_canFetch hnext).1 hn, fun hfull => ?_⟩
  have hstop : serves s = false := by simp [serves, hfull.not_gt]
  show execCommandFetch s = _
  rw [execCommandFetch, whileClocked_running _ hclk]
  simp [hstop]

theorem failedFetchStopsRing : Claim.FailedFetchStopsRing := by
  intro s n hclk hn hserves hcan
  show Does (execFailedEntryFetch n s) s _
  refine does_clocked hclk ?_
  simp only [hserves, hcan, Nat.ne_of_lt hn, Bool.not_true, decide_false, Bool.or_self, Bool.false_eq_true, if_false]
  refine ⟨?_, fld_setFld_same _ _ _ _ (by decide) (by decide), ?_, fun a ha => ?_, rfl⟩
  · exact (fld_setFld_apart _ _ _ _ _ _ (by decide) (by decide) (by decide)).trans (fld_setFld_same _ _ _ _ (by decide) (by decide))
  · exact (fld_setFld_apart _ _ _ _ _ _ (by decide) (by decide) (by decide)).trans
      (fld_setFld_apart _ _ _ _ _ _ (by decide) (by decide) (by decide))
  · rw [rd_setFlag_other _ _ ha, rd_setFlag_other _ _ ha]

/-- Settles O32. -/
theorem ringsFetch : Obligations.RingsFetch := ⟨fetchTakesOne, fetchNeedsRoom, failedFetchStopsRing⟩

/-! ### PERST_N -/

/-- Of the host interface, only the writes held back differ. -/
def HeldOnly (s t : State) : Prop := t.hif = { s.hif with held := t.hif.held }

theorem HeldOnly.refl (s : State) : HeldOnly s s := rfl

theorem HeldOnly.trans {s t u : State} (h1 : HeldOnly s t) (h2 : HeldOnly t u) : HeldOnly s u := by
  unfold HeldOnly at *
  rw [h2, h1]

theorem HeldOnly.of_hif {s t : State} (h : t.hif = s.hif) : HeldOnly s t := by rw [HeldOnly, h]

theorem hostOp_heldOnly (s : State) (o : HostOp) : HeldOnly s (hostOp s o) := by
  have hdone : HeldOnly s (doHostOp s o) := .of_hif (doHostOp_same s o).hif
  cases o <;> simp only [hostOp] <;> split <;> first | exact hdone | rfl

theorem completeAs_heldOnly (s : State) (f : Issuer) (d : Bool) (op : Nat) (st : Status) (r0 r1 r2 ex : Nat) :
    HeldOnly s (completeAs s f d op st r0 r1 r2 ex) := by
  unfold completeAs
  split
  · dsimp only
    split
    · exact .of_hif (sendMsg_same _ _ _ _).hif
    · exact .of_hif (sendMsg_same _ _ _ _).hif
  · split
    · exact .refl s
    · exact hostOp_heldOnly _ _

theorem finishAll_heldOnly (s : State) (op key : Nat) (st : Status) (r0 r1 r2 ex : Nat) :
    HeldOnly s (finishAll s op key st r0 r1 r2 ex) :=
  foldl_rel HeldOnly HeldOnly.refl (fun _ _ _ => HeldOnly.trans) _ (fun t _ => completeAs_heldOnly t _ _ _ _ _ _ _ _) _
    { s with running := _ }

theorem HeldOnly.fetched {s t : State} (h : HeldOnly s t) : t.hif.fetched = s.hif.fetched := by
  unfold HeldOnly at h
  rw [h]

theorem HeldOnly.canRequest {s t : State} (h : HeldOnly s t) : canRequest t = canRequest s := by
  unfold Machine.canRequest
  rw [h]

theorem cqWrite_rd {s : State} {c : Completion} {a : Nat} (hsts : a ≠ HIF_SQ_STS c.ring) (htail : a ≠ HIF_CQ_TAIL c.ring) :
    rd (cqWrite s c) a = rd s a := by
  have hput : ∀ u : State, u.regs = (lessOutstanding s c.ring).regs → rd u a = rd s a := fun u hu =>
    (rd_regs hu a).trans (lessOutstanding_rd hsts)
  unfold cqWrite
  dsimp only
  split <;> split <;> first
    | exact hput _ rfl
    | (split
       · rw [rd_setFld_other _ _ _ htail, rd_setFld_other _ _ _ htail]; exact hput _ rfl
       · rw [rd_setFld_other _ _ _ htail]; exact hput _ rfl)

theorem hostRingReg_range {a : Nat} (h : hostRingReg a = true) : 0x30100 ≤ a ∧ a < 0x304C0 := by
  simp only [hostRingReg, hifReg, ringOf, Bool.and_eq_true, decide_eq_true_eq] at h
  obtain ⟨⟨⟨hlo, hhi⟩, -⟩, hring⟩ := h
  have hlast := of_decide_eq_true hring
  omega

/-- No register of a host ring is one of ring 15 or of the fabric's ports. -/
theorem hostRingReg_apart {a : Nat} (h : hostRingReg a = true) : a ≠ HIF_SQ_STS 15 ∧ a ≠ HIF_CQ_TAIL 15 ∧ txReg a = false := by
  have hrange := hostRingReg_range h
  refine ⟨?_, ?_, ?_⟩
  · simp only [HIF_SQ_STS]; omega
  · simp only [HIF_CQ_TAIL]; omega
  · simp only [txReg, FAB_P_TX_FRAMES, Bool.or_eq_false_iff, beq_eq_false_iff_ne]; omega

/-- While the device may not request, the end of a command writes no register of a host ring. -/
theorem completeAs_hostRing {s : State} {a : Nat} (ha : hostRingReg a = true) (hreq : canRequest s = false) (f : Issuer) (d : Bool)
    (op : Nat) (st : Status) (r0 r1 r2 ex : Nat) : rd (completeAs s f d op st r0 r1 r2 ex) a = rd s a := by
  obtain ⟨hsts, htail, htx⟩ := hostRingReg_apart ha
  unfold completeAs
  split
  · dsimp only
    split
    · exact sendMsg_regs _ _ _ _ a htx
    · exact sendMsg_regs _ _ _ _ a htx
  · split
    · rfl
    · by_cases hring : f.ring = 15
      · have hlink : ∀ c : Completion, c.ring = 15 → hostOp s (.complete c) = cqWrite s c := fun c hc => by
          simp [hostOp, hc, doHostOp]
        rw [hlink _ hring]
        exact cqWrite_rd (by simpa [hring] using hsts) (by simpa [hring] using htail)
      · rw [hostOp_waits hreq (by rintro c hc; cases hc; exact hring)]
        rfl

theorem finishAll_hostRing {s : State} {a : Nat} (ha : hostRingReg a = true) (hreq : canRequest s = false) (op key : Nat) (st : Status)
    (r0 r1 r2 ex : Nat) : rd (finishAll s op key st r0 r1 r2 ex) a = rd s a := by
  unfold finishAll
  have hinv := foldl_inv (fun t => canRequest t = false ∧ rd t a = rd s a)
    (fun (t : State) (r : Running) => completeAs t r.from_ r.dropped op st r0 r1 r2 ex)
    (s.running.filter (fun r => r.op == op && r.key == key))
    (fun t r _ ht => ⟨(completeAs_heldOnly t _ _ _ _ _ _ _ _).canRequest.trans ht.1, (completeAs_hostRing ha ht.1 _ _ _ _ _ _ _ _).trans ht.2⟩)
    { s with running := s.running.filter (fun r => !(r.op == op && r.key == key)) } ⟨hreq, rfl⟩
  exact hinv.2

theorem mget_filter_dropped {α : Type} (d : α) (m : List (Nat × α)) (p : Nat → Bool) {a : Nat} (h : p a = true) :
    mget d (m.filter (fun e => !p e.1)) a = d := by
  induction m with
  | nil => rfl
  | cons e m ih =>
    obtain ⟨i, w⟩ := e
    by_cases hi : p i = true
    · simpa [hi] using ih
    · have hne : i ≠ a := fun heq => hi (heq ▸ h)
      simpa [hi, mget, hne] using ih

/-- The commands of the rings in `ns` lose their rings when these are voided one after another. -/
theorem voidRings_dropped (ns : List Nat) (s : State) (p : Nat → Prop) (hs : ∀ f ∈ s.hif.fetched, p f.ring → f.dropped = true) :
    ∀ f ∈ (ns.foldl voidRing s).hif.fetched, p f.ring ∨ f.ring ∈ ns → f.dropped = true := by
  induction ns generalizing s p with
  | nil => exact fun f hf hp => hs f hf (hp.resolve_right (by simp))
  | cons n ns ih =>
    have hstep : ∀ f ∈ (voidRing s n).hif.fetched, p f.ring ∨ f.ring = n → f.dropped = true := by
      intro f hf hp
      obtain ⟨g, hg, rfl⟩ := List.mem_map.mp hf
      by_cases hring : g.ring = n
      · simp [hring]
      · simp only [hring, beq_iff_eq, if_false, or_false] at hp ⊢
        exact hs g hg hp
    intro f hf hp
    refine ih (voidRing s n) (fun r => p r ∨ r = n) hstep f hf ?_
    rcases hp with hp | hmem
    · exact .inl (.inl hp)
    · rcases List.mem_cons.mp hmem with heq | hmem
      · exact .inl (.inr heq)
      · exact .inr hmem

theorem hostSideCleared_hostRing (s : State) {a : Nat} (ha : hostRingReg a = true) : rd (hostSideCleared s) a = regReset a :=
  mget_filter_dropped _ s.regs hostRingReg ha

theorem hostSideCleared_canRequest (s : State) : canRequest (hostSideCleared s) = false := rfl

theorem hostSideCleared_fetched (s : State) : (hostSideCleared s).hif.fetched = s.hif.fetched := rfl

theorem perstReset_heldOnly (s : State) :
    HeldOnly (hostSideCleared (hostRingsVoided s)) (perstReset s) := finishAll_heldOnly _ _ _ _ _ _ _ _

theorem perstReset_hostRing (s : State) {a : Nat} (ha : hostRingReg a = true) : rd (perstReset s) a = regReset a := by
  rw [perstReset, finishAll_hostRing ha (hostSideCleared_canRequest _), hostSideCleared_hostRing _ ha]

theorem perstReset_fetched (s : State) : ∀ f ∈ (perstReset s).hif.fetched, f.ring < 15 → f.dropped = true := by
  intro f hf hring
  rw [(perstReset_heldOnly s).fetched, hostSideCleared_fetched] at hf
  exact voidRings_dropped (List.range 15) (mbxReset s 0) (fun _ => False) (fun _ _ h => h.elim) f hf (.inr (List.mem_range.mpr hring))

/-- The link core and the mirror setting as PERST_N leaves them, whatever waits to be sent. -/
theorem HeldOnly.linkReset {s t : State} (h : HeldOnly (hostSideCleared s) t) : t.hif.perst = true ∧ t.hif.bme = false ∧
    t.hif.d3hot = false ∧ t.hif.linkUp = false ∧ t.hif.mirrorPeriod = 0 ∧ t.hif.intxDis = false ∧ t.hif.intLine = 0 ∧
    t.hif.bar0 = 0 ∧ t.hif.bar2 = 0 := by
  unfold HeldOnly at h
  rw [h]
  exact ⟨rfl, rfl, rfl, rfl, rfl, rfl, rfl, rfl, rfl⟩

theorem perstResetsHostSide : Claim.PerstResetsHostSide := by
  intro s
  have hsame := perstReset_same s
  obtain ⟨hperst, hbme, hd3, hup, hmirror, hintx, hline, hbar0, hbar2⟩ := (perstReset_heldOnly s).linkReset
  have hfetched := perstReset_fetched s
  have hrings := fun a (ha : hostRingReg a = true) => perstReset_hostRing s ha
  refine ⟨resetCause (perstReset s) 4, exec_perstN s, ?_⟩
  generalize perstReset s = t at *
  refine ⟨hperst, hbme, hd3, hup, hmirror, hintx, hline, hbar0, hbar2, fun a ha => ?_, hfetched, hsame.lanes, hsame.seq, hsame.axes,
    hsame.sram, hsame.dram, flag_setFlag_same _ _ _ (by decide)⟩
  have hrange := hostRingReg_range ha
  have hapart : a ≠ PWR_RESET_CAUSE := by simp only [PWR_RESET_CAUSE]; omega
  exact (rd_setFlag_other _ _ hapart).trans (hrings a ha)

/-! ### The PCIe function -/

theorem dieShow_rd {s : State} {a : Nat} (h : a ≠ PWR_DIE_STS) : rd (dieShow s) a = rd s a := by
  rw [dieShow, rd_setFld_other _ _ _ h, rd_setFld_other _ _ _ h]

theorem linkAdapt_same (s : State) : Same [.regs, .pwr] s (linkAdapt s) := by
  unfold linkAdapt
  split
  · intro p hp
    cases p <;> first | rfl | exact absurd (by decide) hp
  · exact Same.refl _ _

theorem linkAdapt_rd {s : State} {a : Nat} (h : a ≠ PWR_DIE_STS) : rd (linkAdapt s) a = rd s a := by
  unfold linkAdapt
  split
  · rw [dieRelease, dieShow_rd h, dieTake]
    exact dieShow_rd h
  · rfl

theorem linkAndBusMaster : Claim.LinkAndBusMaster := by
  intro s
  refine ⟨⟨_, rfl, ?_⟩, fun bme d3hot intxDis line bar0 bar2 => ?_⟩
  · have hsame := linkAdapt_same { s with hif := { s.hif with perst := false, linkUp := true } }
    exact ⟨hsame.hif, fun a ha => linkAdapt_rd ha, ⟨hsame.sram, hsame.dram, hsame.host, hsame.sramLost, hsame.dramLost⟩, hsame.lanes,
      hsame.running⟩
  · have hreq : s.hif.perst = false → canRequest (configWritten s bme d3hot intxDis line bar0 bar2) = (bme && !d3hot) := fun h => by
      simp [canRequest, configWritten, h]
    refine ⟨fun hperst => ?_, fun hperst hon => ?_, fun hperst hoff => ?_⟩
    · rw [exec_busMasterEnable, if_pos hperst]
    · rw [exec_busMasterEnable, if_neg (by simp [hperst]), if_pos ((hreq hperst).trans hon)]
      rfl
    · rw [exec_busMasterEnable, if_neg (by simp [hperst]), if_neg (by rw [hreq hperst, hoff]; decide)]
      rfl

theorem configSpace : Claim.ConfigSpace := fun _ => ⟨rfl, rfl, rfl, rfl, rfl, rfl, rfl, rfl, rfl, rfl, rfl⟩

/-- Settles O33. -/
theorem hostLink : Obligations.HostLink := ⟨perstResetsHostSide, linkAndBusMaster, configSpace⟩

end Sys2Proof.Proofs

/-! PROOFS. The system opcodes that report (R105, R137, R147), the status mirror (R142 to R144), and COMMIT (R19, R20, R146). -/

namespace Sys2Proof.Proofs

-- One theorem after the other: elaborated at once, their threads outgrow the memory that a check may take.
set_option Elab.async false

open Sys2Proof.Machine Sys2Proof.Laws

/-! ### The opcodes that report -/

theorem finishAll_running (s : State) (op key : Nat) (st : Status) (r0 r1 r2 ex : Nat) :
    (finishAll s op key st r0 r1 r2 ex).running = s.running.filter (fun r => !(r.op == op && r.key == key)) :=
  foldl_keeps State.running (fun (t : State) (r : Running) => completeAs t r.from_ r.dropped op st r0 r1 r2 ex)
    (fun t _ => (completeAs_same t _ _ _ _ _ _ _ _).running) _ _

/-- The mirror's setting outlasts what is sent or held back. -/
theorem HeldOnly.mirror {s t : State} (h : HeldOnly s t) : t.hif.mirrorPeriod = s.hif.mirrorPeriod ∧
    t.hif.mirrorAddr = s.hif.mirrorAddr ∧ t.hif.mirrorDue = s.hif.mirrorDue := by
  unfold HeldOnly at h
  rw [h]
  exact ⟨rfl, rfl, rfl⟩

/-- The mirror set to an address and a period from now on (R144, R147). -/
def mirrorSet (s : State) (addr period : Nat) : State :=
  { s with hif := { s.hif with mirrorAddr := addr, mirrorPeriod := period, mirrorDue := now s + 1000 * period } }

/-- A mirror newly set, the command that still waited for the old one completed (assumption 34). -/
def mirrorRestarted (s : State) (addr period : Nat) : State := finishAll (mirrorSet s addr period) 0x0006 0 .ok 1024 period 0 0

theorem mirrorRestarted_spec (s : State) (addr period : Nat) :
    let u := mirrorRestarted s addr period
    u.hif.mirrorPeriod = period ∧ u.hif.mirrorAddr = addr ∧ u.hif.mirrorDue = now s + 1000 * period ∧
      ∀ r ∈ u.running, r.op ≠ 0x0006 ∨ r.key ≠ 0 := by
  obtain ⟨hperiod, haddr, hdue⟩ := (finishAll_heldOnly (mirrorSet s addr period) 0x0006 0 .ok 1024 period 0 0).mirror
  refine ⟨hperiod, haddr, hdue, fun r hr => ?_⟩
  rw [mirrorRestarted, finishAll_running] at hr
  have hkept := (List.mem_filter.mp hr).2
  simp only [Bool.not_eq_true', Bool.and_eq_false_iff, beq_eq_false_iff_ne] at hkept
  exact hkept

theorem ownAddr_of_regs {s t : State} (h : t.regs = s.regs) : ownAddr t = ownAddr s := by rw [ownAddr, ownAddr, fld_congr (rd_regs h _)]

theorem systemReports : Claim.SystemReports := by
  intro s h hs a
  refine ⟨fun hp => ?nop, fun hp => ?identify, fun hp => ?fwInfo, fun hp => ?dieLedger, fun op p blk hnext hsays hop => ?badOpcode⟩
  case nop =>
    show execNop h s = _
    rw [execNop, starts_body hs hp (by simp)]
  case identify =>
    show execIdentify h s = _
    rw [execIdentify, starts_body hs hp (by simp), (accept_same s h).fuses]
    rfl
  case fwInfo =>
    show execFwInfo h s = _
    rw [execFwInfo, starts_body hs hp (by simp), (accept_same s h).pwr]
  case dieLedger =>
    show execDieLedgerQuery h s = _
    rw [execDieLedgerQuery, starts_body hs hp (by simp)]
  case badOpcode =>
    show execBadOpcode h op s = _
    rw [execBadOpcode, whileClocked_running _ hs.clocked]
    simp only [hnext, hop, hsays, hs.fence]
    rfl

theorem statusCommands : Claim.StatusCommands := by
  intro s h hs a report
  refine ⟨fun hp => ?plain, fun addr hne halign hring hp => ?snapshot, fun addr halign hp => ?off,
    fun addr period halign hlo hhi hring hp => ?on⟩
  case plain =>
    show execReadStatus h 0 s = _
    rw [execReadStatus, starts_body hs hp (by simp [hostAddrOk])]
    rfl
  case snapshot =>
    show execReadStatus h addr s = _
    rw [execReadStatus, starts_body hs hp (by simp [hostAddrOk, halign, hring])]
    simp only [if_neg hne]
    rfl
  case off =>
    show Completes (execSetStatusMirror h addr 0 s) s h 0x0006 .ok 1024 0 0 0 _
    rw [execSetStatusMirror, starts_body hs hp (by simp [halign])]
    exact ⟨mirrorRestarted a addr 0, rfl, (mirrorRestarted_spec a addr 0).1⟩
  case on =>
    have hpos : period ≠ 0 := by omega
    show RunsOn (execSetStatusMirror h addr period s) s h 0x0006 0 [] _
    rw [execSetStatusMirror, starts_body hs hp (by simp [halign, hlo, hhi, hring])]
    simp only [if_neg hpos]
    obtain ⟨hperiod, haddr, hdue, hnone⟩ := mirrorRestarted_spec a addr period
    exact ⟨mirrorRestarted a addr period, rfl, hperiod, haddr, hdue.trans (by rw [now_of_regs (accept_regs s h)]), hnone⟩

/-- Settles O34. -/
theorem systemCommands : Obligations.SystemCommands := ⟨systemReports, statusCommands⟩

/-! ### The status mirror -/

theorem hostOp_write {s : State} (hreq : canRequest s = true) (hheld : s.hif.held = []) (a : Nat) (bs : List Byte) :
    hostOp s (.write a bs) = putHost s a bs := by
  simp [hostOp, hreq, hheld, doHostOp]

/-- A snapshot shows nothing of host memory. -/
theorem mirrorBytes_putHost (s : State) (a : Nat) (bs : List Byte) (seq : Nat) : mirrorBytes (putHost s a bs) seq = mirrorBytes s seq := rfl

theorem snapshotWrites : Claim.SnapshotWrites := by
  intro s addr hreq hheld seq
  rw [snapshotTo, hostOp_write hreq hheld, hostOp_write (s := putHost s _ _) hreq hheld, hostOp_write (s := putHost (putHost s _ _) _ _) hreq hheld,
    mirrorBytes_putHost]

/-- The next multiple of a period after the due time lies beyond the present. -/
theorem lt_next_due {due t p : Nat} (hp : p ≠ 0) (h : due ≤ t) : t < due + p * ((t - due) / p + 1) := by
  have hmod := Nat.mod_lt (t - due) (Nat.pos_of_ne_zero hp)
  have hdiv := Nat.div_add_mod (t - due) p
  rw [Nat.mul_add, Nat.mul_one]
  omega

theorem mirrorSnapshot : Claim.MirrorSnapshot := by
  intro s hclk hperiod p u
  have hp : p ≠ 0 := by simp only [p]; omega
  have hrun : exec .statusMirrorSnapshot s = .next (holding s (if p = 0 || now s < s.hif.mirrorDue then s
      else if !canRequest u then { u with hif := { u.hif with mirrorSeq := (s.hif.mirrorSeq + 2) % 2 ^ 32 } }
      else finishAll (snapshotTo u s.hif.mirrorAddr) 0x0006 0 .ok 1024 s.hif.mirrorPeriod 0 0)) := by
    show execStatusMirrorSnapshot s = _
    rw [execStatusMirrorSnapshot, whileClocked_running _ hclk]
  have hreq : canRequest u = canRequest s := rfl
  refine ⟨fun hearly => ?early, fun hdue => ⟨lt_next_due hp hdue, fun hoff => ?skipped, fun hon => ?taken⟩⟩
  case early => rw [hrun, if_pos (by simp [hearly])]
  case skipped => rw [hrun, if_neg (by simp [hp, hdue]), hreq, hoff, if_pos (by decide)]
  case taken => rw [hrun, if_neg (by simp [hp, hdue]), hreq, hon, if_neg (by decide)]

/-- A field of a table of bytes reads back the number put there. -/
theorem leAt_leBytes (front back : List Byte) (k n : Nat) (h : n < 256 ^ k) :
    leAt (front ++ (leBytes k n ++ back)) front.length k = n := by
  rw [leAt, List.drop_left, List.take_left' (leBytes_length k n), leNat_leBytes, Nat.mod_eq_of_lt h]

theorem length_flatMap_leBytes {α : Type} (l : List α) (k : Nat) (f : α → Nat) :
    (l.flatMap (fun x => leBytes k (f x))).length = k * l.length := by
  induction l with
  | nil => simp
  | cons x l ih => rw [List.flatMap_cons, List.length_append, ih, leBytes_length, List.length_cons]; ring

/-- The bytes of a snapshot from the time to the rings (R143). -/
def mirrorRings (s : State) : List Byte :=
  leBytes 8 (now s) ++ leBytes 4 (rdN s PWR_BOOT_STS) ++
  leBytes 4 (rdN s THM_STS) ++ leBytes 4 (mirrorFaults s) ++ leBytes 4 (headerAt s 8 4) ++
  (List.range 16).flatMap (fun n => leBytes 2 (fld s (HIF_SQ_HEAD n) 11 0)) ++
  (List.range 16).flatMap (fun n => leBytes 2 (fld s (HIF_CQ_TAIL n) 11 0 + 2 ^ 15 * fld s (HIF_CQ_TAIL n) 12 12))

/-- The bytes of a snapshot before the number of the last layer (R143). -/
def mirrorHead (s : State) (seq : Nat) : List Byte := leBytes 4 seq ++ (leBytes 2 1 ++ (leBytes 2 1024 ++ mirrorRings s))

/-- The bytes of a snapshot after the number of the last layer, up to its unused end. -/
def mirrorTail (s : State) : List Byte :=
  leBytes 1 (layerSt s) ++
  leBytes 1 (fld s FAB_STS 17 16 + 4 * ownAddr s + 128 * b2n (flag s OVL_STS 0 || flag s FTM_STS 15)) ++ leBytes 1 (tickCode s) ++ leBytes 1 0 ++
  leBytes 8 (rd64 s SEQ_START_LO SEQ_START_HI) ++ lanes24.flatMap (fun n => leBytes 4 (mirrorLane s n)) ++
  (List.range 8).flatMap (fun k => leBytes 4 (rdN s (AX_POS k)) ++ leBytes 4 (rdN s (AX_STS k))) ++
  leBytes 4 (rdN s PNL_IN_STS) ++ leBytes 4 (rdN s PNL_EVT_COUNT) ++ leBytes 4 (rdN s DMA_ACTIVE) ++ leBytes 4 (domainsOn s)

theorem mirrorHead_length (s : State) (seq : Nat) : (mirrorHead s seq).length = 96 := by
  simp only [mirrorHead, mirrorRings, List.length_append, leBytes_length, length_flatMap_leBytes, List.length_range]

theorem mirrorTail_length (s : State) : (mirrorTail s).length = 188 := by
  have haxes : ((List.range 8).flatMap (fun k => leBytes 4 (rdN s (AX_POS k)) ++ leBytes 4 (rdN s (AX_STS k)))).length = 64 := by
    simp [List.length_flatMap]
  simp only [mirrorTail, List.length_append, leBytes_length, length_flatMap_leBytes, haxes, lanes24, List.length_range]

theorem padTo_of_le {bs : List Byte} {k : Nat} (h : bs.length ≤ k) : padTo k bs = bs ++ zeros (k - bs.length) := by
  rw [padTo, List.take_append, List.take_of_length_le h, zeros, zeros, List.take_replicate, Nat.min_eq_left (by omega)]

theorem mirrorBytes_eq (s : State) (seq : Nat) :
    mirrorBytes s seq = mirrorHead s seq ++ (leBytes 4 s.seq.lastLayer ++ (mirrorTail s ++ zeros 736)) := by
  have hlen : (mirrorHead s seq ++ (leBytes 4 s.seq.lastLayer ++ mirrorTail s)).length = 288 := by
    simp only [List.length_append, mirrorHead_length, mirrorTail_length, leBytes_length]
  have hpad : mirrorBytes s seq = padTo 1024 (mirrorHead s seq ++ (leBytes 4 s.seq.lastLayer ++ mirrorTail s)) := by
    simp only [mirrorBytes, mirrorHead, mirrorRings, mirrorTail, List.append_assoc]
  rw [hpad, padTo_of_le (by omega), hlen]
  simp only [List.append_assoc]

theorem mirrorLayout : Claim.MirrorLayout := by
  intro s seq hseq
  have hbytes := mirrorBytes_eq s seq
  have hhead := mirrorHead_length s seq
  refine ⟨?length, ?seq, ?format, ?len, fun hlast => ?lastLayer, ?unused⟩
  case length => rw [hbytes]; simp [hhead, mirrorTail_length]
  case seq =>
    rw [hbytes, mirrorHead, List.append_assoc]
    exact leAt_leBytes [] _ 4 seq hseq
  case format =>
    rw [hbytes, mirrorHead, List.append_assoc, List.append_assoc]
    exact leAt_leBytes (leBytes 4 seq) _ 2 1 (by decide)
  case len =>
    rw [hbytes, mirrorHead, List.append_assoc, List.append_assoc, List.append_assoc, ← List.append_assoc (leBytes 4 seq)]
    exact leAt_leBytes (leBytes 4 seq ++ leBytes 2 1) _ 2 1024 (by decide)
  case lastLayer =>
    rw [hbytes, ← hhead]
    exact leAt_leBytes _ _ 4 _ hlast
  case unused =>
    rw [hbytes, ← List.append_assoc, ← List.append_assoc]
    exact List.drop_left' (by simp [hhead, mirrorTail_length])

/-- Settles O35. -/
theorem statusMirror : Obligations.StatusMirror := ⟨snapshotWrites, mirrorSnapshot, mirrorLayout⟩

/-! ### COMMIT -/

/-- What a capture of a waiting COMMIT leaves (R19 step 1, R20). -/
theorem captureNext_first {s : State} {r : Running} (hfree : s.capture = none) (hfirst : s.running.find? (fun r => r.op == 0x0004) = some r) :
    captureNext s = setFlag { s with
      capture := some (r.from_, r.aux.getD 0 0 &&& s.dirty, r.aux.getD 1 0 == 1, groupShadows s (r.aux.getD 0 0 &&& s.dirty))
      dirty := if r.aux.getD 1 0 == 1 then s.dirty else s.dirty - (r.aux.getD 0 0 &&& s.dirty) } TOP_COMMIT_STS 30 true := by
  simp only [captureNext, hfree, hfirst]
  rfl

theorem captureNext_busy {s : State} (h : s.capture ≠ none) : captureNext s = s := by
  rw [captureNext, if_pos (Option.isSome_iff_ne_none.mpr h)]

theorem commitCaptures : Claim.CommitCaptures := by
  intro s h mask flags hs hflags hmask a
  have hexec : ∀ m, Spelled s h 0x0004 (.commit h m flags) → exec (.commit h m flags) s = .next (holding s
      (if m = 0 then complete a h 0x0004 .ok 0 0 0 0 else captureNext (startRun a h 0x0004 0 [m, flags]))) := by
    intro m hp
    show execCommit h m flags s = _
    rw [execCommit, starts_body hs hp (by simp [hflags])]
  refine ⟨fun hp => hexec 0 hp, fun hne hp hfree hidle => ?captured, fun hne hp hbusy => ?waits⟩
  case captured =>
    have hfirst : (startRun a h 0x0004 0 [mask, flags]).running.find? (fun r => r.op == 0x0004) =
        some ⟨0x0004, Issue.issuer h, 0, voided a h, [mask, flags], now a⟩ := by
      have hnone : a.running.find? (fun r => r.op == 0x0004) = none := by
        simpa [List.find?_eq_none, List.any_eq_false] using hidle
      simp [startRun, List.find?_append, hnone]
    have hcap := captureNext_first (s := startRun a h 0x0004 0 [mask, flags]) hfree hfirst
    rw [hexec mask hp, if_neg hne]
    refine ⟨_, rfl, ?_⟩
    have hsame := accept_same s h
    rw [hcap]
    refine ⟨⟨_, rfl⟩, ?_, rfl, flag_setFlag_same _ _ _ (by decide), fun r hr => rd_setFlag_other _ _ hr, hsame.sram, hsame.dram, hsame.host,
      hsame.sramLost, hsame.dramLost⟩
    simp only [setFlag_dirty, List.getD_cons_succ, List.getD_cons_zero, beq_iff_eq]
    rfl
  case waits =>
    exact ⟨a, (hexec mask hp).trans (by rw [if_neg hne, captureNext_busy (by exact hbusy)]), rfl⟩

/-- COMMIT_TAKE_EFFECT of a captured commit, by the outcome of its check. -/
theorem exec_commitTakeEffect {s : State} {f : Issuer} {mask : Nat} {check : Bool} {ws : List (Nat × Word)} (hclk : Clocked s)
    (hcap : s.capture = some (f, mask, check, ws)) :
    let bad := failedGroups s (withCaptured s mask ws) mask
    exec .commitTakeEffect s = .next (holding s (
      if bad.1 = 0 then
        if check || mask = 0 then commitEnd s .ok 0 0 0
        else commitEnd ((bitList mask 16).foldl (groupTake s) (dropShadows (setFld (withCaptured s mask ws) TOP_COMMIT_STS 15 0 mask)))
          .ok mask 0 (tickNo s % 2 ^ 32)
      else commitEnd (if check then s else setFlag { s with dirty := s.dirty ||| mask } TOP_COMMIT_STS 31 true)
        .badParam 0 (bad.1 + 65536 * bad.2.headD 0) 0)) := by
  intro bad
  show execCommitTakeEffect s = _
  rw [execCommitTakeEffect, whileClocked_running _ hclk]
  simp only [hcap]
  have hbad : failedGroups s (withCaptured s mask ws) mask = bad := rfl
  rw [hbad]
  obtain ⟨n, codes⟩ := bad
  cases n with
  | zero => rfl
  | succ n => rfl

theorem rejectedCommit : Claim.RejectedCommit := by
  intro s f mask check ws hclk hcap hfail bad
  refine ⟨if check then s else setFlag { s with dirty := s.dirty ||| mask } TOP_COMMIT_STS 31 true, ?_, ?_⟩
  · rw [exec_commitTakeEffect hclk hcap, if_neg hfail]
  · cases check
    · exact ⟨fun a ha => rd_setFlag_other _ _ ha, rfl, rfl, fun _ => flag_setFlag_same _ _ _ (by decide), fun h => Bool.noConfusion h⟩
    · exact ⟨fun _ _ => rfl, rfl, rfl, fun h => Bool.noConfusion h, fun _ => rfl⟩

theorem checkOnlyTakesNothing : Claim.CheckOnlyTakesNothing := by
  intro s f mask check ws hclk hcap hnothing hpass
  rw [exec_commitTakeEffect hclk hcap, if_pos hpass, if_pos (by simpa using hnothing)]

/-- A group whose fields are all that it changes. -/
theorem groupTake_fields {g : Nat} (h : g ∈ [0, 3, 5, 7, 10, 14, 15]) (old s : State) : groupTake old s g = s := by
  simp only [List.mem_cons, List.not_mem_nil, or_false] at h
  rcases h with rfl | rfl | rfl | rfl | rfl | rfl | rfl <;> rfl

theorem withCaptured_same (s : State) (mask : Nat) (ws : List (Nat × Word)) : Same [.regs] s (withCaptured s mask ws) :=
  Same.foldl _ (fun t _ => wr_same t _ _) _ _

theorem commitTakesEffect : Claim.CommitTakesEffect := by
  intro s f mask ws hclk hcap hne hgroups hpass
  have htake : ∀ t, (bitList mask 16).foldl (groupTake s) t = t := fun t =>
    foldl_inv (fun u => u = t) (groupTake s) (bitList mask 16)
      (fun u g hg hu => (groupTake_fields (hgroups g (by simpa [bitList] using (List.mem_filter.mp hg).2)) s u).trans hu) t rfl
  have hsame := withCaptured_same s mask ws
  refine ⟨dropShadows (setFld (withCaptured s mask ws) TOP_COMMIT_STS 15 0 mask), ?_, fun a ha => rd_setFld_other _ _ _ ha,
    fld_setFld_same _ _ _ _ (by decide) (by decide), hsame.dirty, ⟨hsame.sram, hsame.dram, hsame.host, hsame.sramLost, hsame.dramLost⟩,
    hsame.lanes⟩
  rw [exec_commitTakeEffect hclk hcap, if_pos hpass, if_neg (by simpa using hne), htake]

/-- Settles O36. -/
theorem commits : Obligations.Commits := ⟨commitCaptures, rejectedCommit, commitTakesEffect, checkOnlyTakesNothing⟩

end Sys2Proof.Proofs

/-! PROOFS. Accesses of BAR0 (R16 to R18, R596, R597), the SRAM aperture (R47, R48), and the canonical form of memory. -/

namespace Sys2Proof.Proofs

-- One theorem after the other: elaborated at once, their threads outgrow the memory that a check may take.
set_option Elab.async false

open Sys2Proof.Machine Sys2Proof.Laws

/-! ### Registers -/

section
variable {s : State}

theorem thermLatch_of_clocked (h : Clocked s) : s.pwr.thermLatch = false := ((clocked_iff s).mp h).1

/-- A completion of commands of which none runs changes nothing. -/
theorem finishAll_none {op key : Nat} (h : ∀ r ∈ s.running, r.op ≠ op ∨ r.key ≠ key) (st : Status) (r0 r1 r2 ex : Nat) :
    finishAll s op key st r0 r1 r2 ex = s := by
  have hmatch : s.running.filter (fun r => r.op == op && r.key == key) = [] := by
    refine List.filter_eq_nil_iff.mpr fun r hr => ?_
    rcases h r hr with h | h <;> simp [h]
  have hkeep : s.running.filter (fun r => !(r.op == op && r.key == key)) = s.running := by
    refine List.filter_eq_self.mpr fun r hr => ?_
    rcases h r hr with h | h <;> simp [h]
  rw [finishAll, hmatch, hkeep]
  rfl

theorem liveApply_plain {a : Nat} (hring : hifReg a = false) (haperture : a ≠ TOP_SRAM_APERTURE) (m w : Word) :
    liveApply s (a, m, w) = wr s a ((rd s a &&& ~~~m) ||| w) := by
  simp [liveApply, hring, haperture]

/-- With no command of a class L write running, the boundary puts the writes into force and does nothing else. -/
theorem exec_liveFieldApply (hclk : Clocked s) (hnone : ∀ r ∈ s.running, r.op ≠ 0x0503 ∧ r.op ≠ 0x0504 ∧ r.op ≠ 0x0903)
    (hloops : loopTakes s = s) :
    exec .liveFieldApply s = .next (holding s (s.live.foldl liveApply { s with live := [] })) := by
  show execLiveFieldApply s = _
  rw [execLiveFieldApply, whileClocked_running _ hclk]
  simp only [hloops]
  have hrun : (s.live.foldl liveApply { s with live := [] }).running = s.running :=
    foldl_keeps State.running liveApply (fun t e => (liveApply_same t e).running) _ _
  generalize s.live.foldl liveApply { s with live := [] } = t at *
  have hdma : ∀ l : List Nat, l.foldl (fun s c => finishAll s 0x0903 c .ok 0 0 0 0) t = t := by
    intro l
    induction l with
    | nil => rfl
    | cons c l ih =>
      rw [List.foldl_cons, finishAll_none (fun r hr => .inl (hnone r (hrun ▸ hr)).2.2)]
      exact ih
  rw [finishAll_none (fun r hr => .inl (hnone r (hrun ▸ hr)).1), finishAll_none (fun r hr => .inl (hnone r (hrun ▸ hr)).2.1), hdma]

theorem setLive_last (s : State) (a hi lo v : Nat) :
    let m := setBits 0 hi lo (2 ^ (hi - lo + 1) - 1)
    (setLive s a hi lo v).live.filter (fun e => e.1 == a && e.2.1 == m) = [(a, m, setBits 0 hi lo v)] := by
  simp [setLive, List.filter_append, List.filter_filter]

theorem latchingRead_time (hclk : Clocked s) (hon : domOn s (domainOf FTM_TIME_LO) = true) :
    regRead s 0 FTM_TIME_LO = plainRead s FTM_TIME_LO := by
  rw [regRead, if_neg (by decide), if_neg (by simp [thermLatch_of_clocked hclk]), if_neg (by decide), if_neg (by simp [hon]),
    if_neg (by decide), if_neg (by decide)]

end

/-- Settles O24: the branches of `regWrite` and `regRead`, and what a boundary does with one queued write. -/
theorem registerAccess : Obligations.RegisterAccess := by
  intro s
  refine ⟨fun off v hoff => ?unaligned, fun off v => ?part, fun off v hoff => ?whole, fun off v hlatch hheld hreset => ?reset,
    fun off v ecc hoff => ?outside, fun hclk hon => ?latch, fun hclk a m w hlive hring haperture hnone hloops => ?live,
    fun a hi lo v => ⟨setLive_last s a hi lo v, rfl⟩, fun a v f gate hacc hcls hgate => ?static⟩
  case unaligned =>
    show execRegisterWrite off v true s = _
    simp [execRegisterWrite, always, hoff]
  case part =>
    show execRegisterWrite off v false s = _
    simp [execRegisterWrite, always]
  case whole =>
    show execRegisterWrite off v true s = _
    rw [execRegisterWrite, always, if_pos (by simp [hoff])]
  case reset =>
    by_cases hin : 0x2000000 ≤ off
    · exact if_pos hin
    · have hstands : (s.pwr.held != 0 && (s.pwr.held == 2 || decide (0x1000000 ≤ off) || domainOf off != 0)) = true := by
        simpa [hheld, or_assoc] using hreset
      rw [regWrite, if_neg hin, hlatch, if_neg Bool.false_ne_true, if_pos hstands]
  case outside =>
    have hword : 0x2000000 ≤ off - off % 4 := by omega
    constructor
    · show execRegisterWrite off v true s = _
      have hwrite : regWrite s 0 off v = s := if_pos hoff
      rw [execRegisterWrite, always, hwrite, ite_self]
    · show execLatchingRead off ecc s = _
      simp [execLatchingRead, always, regRead, apertureEcc, hword]
  case latch =>
    refine ⟨_, rfl, ?_⟩
    have hlist : regListed FTM_TIME_LO = true := by decide +kernel
    have hecc : ∀ t : State, apertureEcc t FTM_TIME_LO 0 = t := fun t => if_pos rfl
    simp only [show FTM_TIME_LO - FTM_TIME_LO % 4 = FTM_TIME_LO from rfl, latchingRead_time hclk hon, hecc]
    simp only [plainRead, hlist, Bool.not_true, Bool.false_eq_true, if_false]
    refine ⟨rfl, ?_, trivial, rfl, rfl, rfl, rfl, rfl⟩
    show mget 0 (mset (mset s.latched FTM_TIME_HI (wordAt s FTM_TIME_HI)) FTM_FRAC (wordAt s FTM_FRAC)) FTM_TIME_HI = _
    rw [mget_mset_other (h := by decide), mget_mset_same]
    rfl
  case live =>
    rw [exec_liveFieldApply hclk hnone hloops, hlive]
    simp only [List.foldl_cons, List.foldl_nil, liveApply_plain hring haperture]
    exact ⟨_, rfl, rfl, rd_wr_same _ _, fun b hb => rd_wr_other _ hb, ⟨rfl, rfl, rfl, rfl, rfl⟩, rfl⟩
  case static =>
    simp [fieldWrite, hacc, hcls, hgate]

/-! ### The aperture -/

section
variable {s : State}

/-- What bytes put through the aperture leave: no byte outside the pool, and nothing but SRAM. -/
structure PoolOnly (s t : State) : Prop where
  same : Same [.sram] s t
  outside : ∀ a, a < poolBase ∨ 0x1CE0000 ≤ a → sramBytes t a 1 = sramBytes s a 1

theorem aperturePut_poolOnly (s : State) (p : Nat) (b : Byte) : PoolOnly s (aperturePut s p b) := by
  unfold aperturePut
  split
  next hp =>
    simp only [Bool.and_eq_true, decide_eq_true_eq] at hp
    exact ⟨putSram_same _ _ _, fun a ha => sramBytes_putSram_other _ _ (by simp only [List.length_singleton]; omega)⟩
  next => exact ⟨Same.refl _ _, fun _ _ => rfl⟩

/-- Bytes put through the aperture from `p`. -/
def apertureFold (s : State) (p : Nat) (data : List Byte) : State :=
  (data.foldl (fun (t : State × Nat) b => (aperturePut t.1 t.2 b, t.2 + 1)) (s, p)).1

theorem apertureFold_cons (s : State) (p : Nat) (b : Byte) (data : List Byte) :
    apertureFold s p (b :: data) = apertureFold (aperturePut s p b) (p + 1) data := rfl

theorem apertureFold_poolOnly (s : State) (p : Nat) (data : List Byte) : PoolOnly s (apertureFold s p data) := by
  induction data generalizing s p with
  | nil => exact ⟨Same.refl _ _, fun _ _ => rfl⟩
  | cons b data ih =>
    have hput := aperturePut_poolOnly s p b
    have hrest := ih (aperturePut s p b) (p + 1)
    exact ⟨hput.same.trans hrest.same, fun a ha => (hrest.outside a ha).trans (hput.outside a ha)⟩

/-- Inside the pool, bytes through the aperture are bytes to SRAM. -/
theorem apertureFold_pool {p : Nat} {data : List Byte} (hlo : poolBase ≤ p) (hhi : p + data.length ≤ 0x1CE0000) :
    apertureFold s p data = putSram s p data := by
  induction data generalizing s p with
  | nil => rfl
  | cons b data ih =>
    simp only [List.length_cons] at hhi
    have hput : aperturePut s p b = putSram s p [b] := by
      rw [aperturePut, if_pos]
      simp only [Bool.and_eq_true, decide_eq_true_eq]
      omega
    rw [apertureFold_cons, ih (by omega) (by omega), hput]
    rfl

theorem exec_apertureWrite (hclk : Clocked s) (off : Nat) (data : List Byte) : exec (.apertureWrite off data) s =
    .next (holding s (if off < 0x1000000 || 0x2000000 < off + data.length then s
      else apertureFold s (apertureBase s + (off - 0x1000000)) data)) := by
  show execApertureWrite off data s = _
  rw [execApertureWrite, whileClocked_running _ hclk]
  rfl

theorem regRead_aperture (hclk : Clocked s) {off : Nat} (hlo : 0x1000000 ≤ off) (hhi : off < 0x2000000) :
    regRead s 0 off = (s, leNat (sramBytes s (apertureBase s + (off - 0x1000000)) 4)) := by
  rw [regRead, if_neg (by omega), if_neg (by simp [thermLatch_of_clocked hclk]), if_pos hlo]

theorem apertureEcc_inside (hclk : Clocked s) {off : Nat} (hlo : 0x1000000 ≤ off) (hhi : off < 0x2000000) (ecc : Nat) :
    apertureEcc s off ecc = sramEcc s (apertureBase s + (off - 0x1000000)) ecc .aperture := by
  have hclk' : clocksOff s = false := hclk
  rw [apertureEcc, if_neg (by simp [hclk']; omega)]

/-- A register of the aperture never shows a place beyond the last MiB of SRAM (R47). -/
theorem liveApply_aperture (s : State) (m w : Word) : fld (liveApply s (TOP_SRAM_APERTURE, m, w)) TOP_SRAM_APERTURE 4 0 =
    (let v := bitsOf ((rd s TOP_SRAM_APERTURE &&& ~~~m) ||| w) 4 0; if v < 16 then v else 16) := by
  have hring : hifReg TOP_SRAM_APERTURE = false := by decide
  simp only [liveApply, hring, Bool.false_and, Bool.false_eq_true, if_false, if_true, fld, rd_wr_same]
  rw [bitsOf_setBits_same _ _ _ _ (by decide) (by decide), satN]
  split
  · exact Nat.mod_eq_of_lt (by omega)
  · rfl

/-- An uncorrectable word read through the aperture in a region without an outcome of its own is only recorded (R491). -/
theorem sramEcc_aperture {a : Nat} (hhi : a < 0x1F00000) (hlo : 0x1700000 ≤ a) (hgap : a < 0x1CE0000 ∨ 0x1E80000 ≤ a) :
    sramEcc s a 2 .aperture = event (setFlag (setFlag (setFld (satIncF s (SRAM_MACRO (a / 0x10000)) 15 8) SRAM_UE_ADDR 24 0 a) SRAM_UE_ADDR 31 true)
      SRAM_STS 0 true) (srcMacro (a / 0x10000)) 0x1805 [] := by
  have houtcome : ∀ t, sramOutcome t a .aperture = t := by
    intro t
    have hcodes : ¬ a < 0xD00000 ∧ ¬ a < 0x1100000 ∧ ¬ a < 0x1500000 ∧ ¬ a < 0x1700000 := by omega
    obtain ⟨hcode, hfield, hrecords, hmaps⟩ := hcodes
    rcases hgap with hgap | hgap
    · simp [sramOutcome, hcode, hfield, hrecords, hmaps, hgap]
    · have hpools : ¬ a < 0x1CE0000 ∧ ¬ a < 0x1E80000 := by omega
      simp [sramOutcome, hcode, hfield, hrecords, hmaps, hpools, hhi]
  rw [sramEcc, if_neg (by decide), if_pos rfl]
  exact houtcome _

end

/-- Settles O27: bytes through the aperture one by one, each kept in the pool alone. -/
theorem apertureWritesPoolOnly : Obligations.ApertureWritesPoolOnly := by
  refine ⟨liveApply_aperture, fun s off data hclk => ⟨fun hlo hhi halign => ?read, fun a hhi hlo hgap => ?ecc, ?outside, fun hlo hhi hpool hend => ?pool⟩⟩
  case read =>
    have hword : off - off % 4 = off := by omega
    have hread : ∀ ecc, exec (.latchingRead off ecc) s = .next (holding s
        { sramEcc s (apertureBase s + (off - 0x1000000)) ecc .aperture with
          readData := leNat (sramBytes s (apertureBase s + (off - 0x1000000)) 4) }) := by
      intro ecc
      show execLatchingRead off ecc s = _
      simp only [execLatchingRead, always, hword, regRead_aperture hclk hlo hhi, apertureEcc_inside hclk hlo hhi]
    exact ⟨hread 0, _, hread 2, rfl, rfl⟩
  case ecc =>
    rw [sramEcc_aperture hhi hlo hgap]
    have hregs := event_regs (setFlag (setFlag (setFld (satIncF s (SRAM_MACRO (a / 0x10000)) 15 8) SRAM_UE_ADDR 24 0 a) SRAM_UE_ADDR 31 true)
      SRAM_STS 0 true) (srcMacro (a / 0x10000)) 0x1805 []
    have hsame := event_same (setFlag (setFlag (setFld (satIncF s (SRAM_MACRO (a / 0x10000)) 15 8) SRAM_UE_ADDR 24 0 a) SRAM_UE_ADDR 31 true)
      SRAM_STS 0 true) (srcMacro (a / 0x10000)) 0x1805 []
    refine ⟨?_, ?_, ?_⟩
    · rw [fld_congr (hregs _ (by decide)), fld_congr (rd_setFlag_other _ _ (by decide)), setFlag,
        fld_setFld_apart _ _ _ _ _ _ (by decide) (by decide) (by decide), fld_setFld_same _ _ _ _ (by decide) (by decide)]
      exact Nat.mod_eq_of_lt (by omega)
    · rw [flag_congr (hregs _ (by decide)), flag_setFlag_same _ _ _ (by decide)]
    · have hmem := ((((satIncF_same s (SRAM_MACRO (a / 0x10000)) 15 8).trans (setFld_same _ SRAM_UE_ADDR 24 0 a)).trans
        (setFlag_same _ SRAM_UE_ADDR 31 true)).trans (setFlag_same _ SRAM_STS 0 true)).mono (qs := [.regs, .evr, .freeCtr]) (by decide) |>.trans hsame
      exact ⟨hmem.sram, hmem.dram, hmem.host, hmem.sramLost, hmem.dramLost⟩
  case outside =>
    rw [exec_apertureWrite hclk]
    refine ⟨_, rfl, ?_⟩
    split
    · exact ⟨fun _ _ => rfl, rfl, rfl, rfl, rfl⟩
    · have h := apertureFold_poolOnly s (apertureBase s + (off - 0x1000000)) data
      exact ⟨h.outside, h.same.dram, h.same.host, h.same.regs, h.same.lanes⟩
  case pool =>
    rw [exec_apertureWrite hclk, if_neg (by simp; omega), apertureFold_pool hpool hend]
    exact ⟨_, rfl, sramBytes_putSram_same _ _⟩

/-! ### The canonical form of memory -/

section
variable {s : State}

theorem aperturePut_memoryWf (p : Nat) (b : Byte) (h : MemoryWf s) : MemoryWf (aperturePut s p b) := by
  unfold aperturePut
  split
  · exact putSram_memoryWf _ _ h
  · exact h

theorem apertureFold_memoryWf {p : Nat} (data : List Byte) (h : MemoryWf s) : MemoryWf (apertureFold s p data) := by
  induction data generalizing s p with
  | nil => exact h
  | cons b data ih => exact ih (aperturePut_memoryWf p b h)

theorem bar2Put_memoryWf {a k : Nat} {data : List Byte} (h : MemoryWf s) : MemoryWf (bar2Put s a k data) := by
  induction k generalizing s a data with
  | zero => exact h
  | succ k ih =>
    rw [bar2Put]
    refine ih ?_
    split
    · exact putDram_memoryWf _ _ h
    · exact h

theorem eccCheck_good (s : State) (c a : Nat) (who : Requester) : eccCheck s c a 0 who = s := rfl

theorem poolWrite_memoryWf (hclk : Clocked s) (h : MemoryWf s) (off : Nat) (data : List Byte) :
    Does (exec (.poolWrite off data) s) s MemoryWf := by
  show Does (execPoolWrite off data s) s _
  refine does_clocked hclk ?_
  split
  · exact h
  · split
    · exact putSram_memoryWf _ _ h
    · exact h

theorem bulkRec_memoryWf (hclk : Clocked s) (h : MemoryWf s) (via src offset : Nat) (data : List Byte) (hup : portUp s via = true) :
    Does (exec (.bulkRec via src offset data) s) s MemoryWf := by
  show Does (execBulkRec via src offset data s) s _
  refine does_clocked hclk ?_
  have hin : MemoryWf (frameIn s via src 0x30 [offset, data.length]) := h.of_same (frameIn_same _ _ _ _ _)
  rw [delivered, if_pos hup]
  generalize frameIn s via src 0x30 [offset, data.length] = t at *
  split
  · exact hin.of_same (satInc_same _ _)
  · exact MemoryWf.of_same (s := putDram (putDram t _ _) _ _) (putDram_memoryWf _ _ (putDram_memoryWf _ _ hin))
      (ps := [.regs, .fab]) (Same.trans (fun q hq => by cases q <;> first | rfl | exact absurd (by decide) hq) ((wr64_same _ _ _ _).mono (by decide)))

theorem burnFill_memoryWf (hclk : Clocked s) (h : MemoryWf s) : Does (exec .burnFill s) s MemoryWf := by
  show Does (execBurnFill s) s _
  refine does_clocked hclk ?_
  split
  · exact fillUnit_memoryWf (s := { s with burn := { s.burn with fill := false }, burnBad := [] }) _ _ h
  · exact h

end

/-- Settles O28: each of the five writes is a run of `putSram` or `putDram`, which keep the canonical form. -/
theorem memoryWrites : Obligations.MemoryWrites := by
  refine ⟨reset_memoryWf, fun s hclk hform => ⟨fun off data => ?_, fun addr write len data => ?_, fun off data => ?_,
    fun via src offset data hup => ?_, ?_⟩⟩
  · rw [exec_apertureWrite hclk]
    refine ⟨_, rfl, ?_⟩
    split
    · exact hform
    · exact apertureFold_memoryWf data hform
  · refine ⟨_, rfl, ?_⟩
    simp only [thermLatch_of_clocked hclk, Bool.false_eq_true, if_false, eccCheck_good, ite_self]
    cases write
    · exact hform
    · exact bar2Put_memoryWf hform
  · exact poolWrite_memoryWf hclk hform off data
  · exact bulkRec_memoryWf hclk hform via src offset data hup
  · exact burnFill_memoryWf hclk hform

end Sys2Proof.Proofs

/-! PROOFS. The layer of the fabric's operations: what a frame sent, a route recomputed and the selection of the grandmaster can change. -/

namespace Sys2Proof.Proofs

-- One theorem after the other: elaborated at once, their threads outgrow the memory that a check may take.
set_option Elab.async false

open Sys2Proof.Machine Sys2Proof.Laws

/-! ### Parts and registers at once -/

/-- From `s` to `t` only the parts in `ps` change, and of the registers only those in `p`. -/
structure Only (ps : List Part) (p : Nat → Bool) (s t : State) : Prop where
  same : Same ps s t
  regs : RegsKept p s t

section
variable {ps : List Part} {p : Nat → Bool} {s t u : State}

theorem Only.refl (ps : List Part) (p : Nat → Bool) (s : State) : Only ps p s s := ⟨Same.refl _ _, RegsKept.refl _ _⟩

theorem Only.trans (h1 : Only ps p s t) (h2 : Only ps p t u) : Only ps p s u := ⟨h1.same.trans h2.same, h1.regs.trans h2.regs⟩

theorem Only.wr (a : Nat) (w : Word) (h : p a = true) (hps : ∀ q ∈ [Part.regs], q ∈ ps := by decide) : Only ps p s (Machine.wr s a w) :=
  ⟨(wr_same s a w).mono hps, RegsKept.wr s w h⟩

section
variable (h : Only ps p s t)
include h

theorem Only.setFld {a hi lo v : Nat} (ha : p a = true := by decide) (hps : ∀ q ∈ [Part.regs], q ∈ ps := by decide) :
    Only ps p s (Machine.setFld t a hi lo v) := h.trans (Only.wr _ _ ha hps)

theorem Only.setFlag {a i : Nat} {b : Bool} (ha : p a = true := by decide) (hps : ∀ q ∈ [Part.regs], q ∈ ps := by decide) :
    Only ps p s (Machine.setFlag t a i b) := h.trans (Only.wr _ _ ha hps)

theorem Only.wrN {a n : Nat} (ha : p a = true := by decide) (hps : ∀ q ∈ [Part.regs], q ∈ ps := by decide) :
    Only ps p s (Machine.wrN t a n) := h.trans (Only.wr _ _ ha hps)

theorem Only.wrI {a : Nat} {i : Int} (ha : p a = true := by decide) (hps : ∀ q ∈ [Part.regs], q ∈ ps := by decide) :
    Only ps p s (Machine.wrI t a i) := h.trans (Only.wr _ _ ha hps)

theorem Only.wr64 {a b n : Nat} (ha : p a = true := by decide) (hb : p b = true := by decide)
    (hps : ∀ q ∈ [Part.regs], q ∈ ps := by decide) : Only ps p s (Machine.wr64 t a b n) := (h.wrN ha hps).wrN hb hps

end

theorem Only.of_same {qs : List Part} (h : Same qs s t) (hps : ∀ q ∈ qs, q ∈ ps := by decide) (hregs : Part.regs ∉ qs := by decide) :
    Only ps p s t := ⟨h.mono hps, RegsKept.of_regs (h.regs hregs)⟩

theorem Only.foldl {β : Type} (f : State → β → State) (l : List β) (h : ∀ s, ∀ x ∈ l, Only ps p s (f s x)) (s : State) :
    Only ps p s (l.foldl f s) := by
  induction l generalizing s with
  | nil => exact Only.refl _ _ _
  | cons x l ih => exact (h s x List.mem_cons_self).trans (ih (fun s y hy => h s y (List.mem_cons_of_mem _ hy)) _)

theorem Only.mono {qs : List Part} {q : Nat → Bool} (h : Only ps p s t) (hps : ∀ r ∈ ps, r ∈ qs) (hq : ∀ a, p a = true → q a = true) :
    Only qs q s t := ⟨h.same.mono hps, h.regs.mono hq⟩

theorem Only.ite {c : Prop} [Decidable c] (ht : Only ps p s t) (hu : Only ps p s u) : Only ps p s (if c then t else u) := by
  split
  · exact ht
  · exact hu

end

/-! ### The fabric's own parts -/

/-- Registers that the fabric's routes, fabric time and the die ledger write of themselves: not those that tell a port's configuration and
state. -/
def netReg (a : Nat) : Bool :=
  txReg a || (a == PWR_DIE_STS || (decide (0x200000 ≤ a) && decide (a < 0x200040) ||
    (decide (0x200400 ≤ a) && decide (a < 0x200480) || decide (0x210000 ≤ a) && decide (a < 0x210200))))

/-- Only the fabric, fabric time, the handoff's excess mask and the die ledger change. -/
abbrev Net (s t : State) : Prop := Only [.regs, .fab, .ftm, .ovl, .pwr] netReg s t

theorem netReg_tx {a : Nat} (h : txReg a = true) : netReg a = true := by simp [netReg, h]

theorem netReg_route : ∀ d < 32, netReg (FAB_ROUTE d) = true := by decide

theorem netReg_group : ∀ g < 4, netReg (FAB_GROUP g) = true := by decide

theorem netReg_timePort : ∀ p < 4, netReg (FTM_P_STS p) = true := by decide

/-- A port's configuration, state, peer and counters are none of them. -/
theorem netReg_port {p o : Nat} (hp : p < 4) (ho : o < 0x2C) (htx : o ≠ 0x10) (halign : o % 4 = 0) : netReg (0x200100 + o + 0x40 * p) = false := by
  simp [netReg, txReg, PWR_DIE_STS, FAB_P_TX_FRAMES]
  omega

section
variable {s : State}

theorem pump_net (s : State) : Net s (pump s) := ⟨(pump_same s).mono (by decide), (pump_regs s).mono fun _ => netReg_tx⟩

theorem linkOut_same (s : State) (p ty : Nat) (body : List Nat) : Same [.regs, .fab] s (linkOut s p ty body) := wireOut_same _ _ _ _

theorem linkOut_regs (s : State) (p ty : Nat) (body : List Nat) : RegsKept txReg s (linkOut s p ty body) := wireOut_regs _ _ _ _

theorem linkOut_net (s : State) (p ty : Nat) (body : List Nat) : Net s (linkOut s p ty body) :=
  ⟨(linkOut_same s p ty body).mono (by decide), (linkOut_regs s p ty body).mono fun _ => netReg_tx⟩

theorem updPort_net (s : State) (p : Nat) (f : FabPort → FabPort) : Net s (updPort s p f) := Only.of_same (updPort_same s p f)

theorem sendRoute_net (s : State) (p : Nat) : Net s (sendRoute s p) := linkOut_net _ _ _ _

theorem fabShow_net (s : State) : Net s (fabShow s) := by
  have hmembers : ∀ v w, Net s (setFld (wrN s FAB_MEMBERS v) FAB_STS 25 20 w) := fun v w => Only.setFld (Only.wrN (Only.refl _ _ s))
  exact (hmembers _ _).trans (Only.foldl _ _ (fun t _ hg => Only.wrN (Only.refl _ _ t) (netReg_group _ (List.mem_range.mp hg))) _)

theorem reroute_net (s : State) : Net s (reroute s) := by
  have hroutes : Net s ((List.range 32).foldl (fun t d => wr t (FAB_ROUTE d) (routeWord s d)) s) :=
    Only.foldl _ _ (fun _ _ hd => Only.wr _ _ (netReg_route _ (List.mem_range.mp hd))) _
  have hshown := hroutes.trans (fabShow_net _)
  unfold reroute
  exact Only.ite hshown (hshown.trans ((Only.foldl _ _ (fun t p _ => sendRoute_net t p) _).trans (pump_net _)))

theorem linkEvent_net (s : State) : Net s (linkEvent s) :=
  Only.of_same (qs := [.fab]) (fun q hq => by cases q <;> first | rfl | exact absurd (by decide) hq)

theorem adoptRoot_net (s : State) : Net s (adoptRoot s) :=
  Only.setFlag (Only.wr64 (Only.refl _ _ s))

theorem updTport_same (s : State) (p : Nat) (f : FtmPort → FtmPort) : Same [.ftm] s (updTport s p f) := by
  intro q hq; cases q <;> first | rfl | exact absurd (by decide) hq

theorem updTport_net (s : State) (p : Nat) (f : FtmPort → FtmPort) : Net s (updTport s p f) := Only.of_same (updTport_same s p f)

theorem timeOut_same (s : State) (p ty credits : Nat) (body : List Nat) : Same [.regs, .fab] s (timeOut s p ty credits body) := by
  unfold timeOut
  split
  · exact (wireOut_same _ _ _ _).trans ((updPort_same _ _ _).mono (by decide))
  · exact Same.refl _ _

theorem timeOut_regs (s : State) (p ty credits : Nat) (body : List Nat) : RegsKept txReg s (timeOut s p ty credits body) := by
  unfold timeOut
  split
  · exact (wireOut_regs _ _ _ _).trans (fun _ _ => rfl)
  · exact RegsKept.refl _ _

theorem timeOut_net (s : State) (p ty credits : Nat) (body : List Nat) : Net s (timeOut s p ty credits body) :=
  ⟨(timeOut_same s p ty credits body).mono (by decide), (timeOut_regs s p ty credits body).mono fun _ => netReg_tx⟩

theorem sendAnnounce_net (s : State) (p : Nat) : Net s (sendAnnounce s p) := by
  unfold sendAnnounce
  exact Only.ite (Only.refl _ _ _) (timeOut_net _ _ _ _ _)

theorem rolesShow_net (s : State) : Net s (rolesShow s) :=
  Only.foldl _ _ (fun _ _ hp => Only.wr _ _ (netReg_timePort _ (List.mem_range.mp hp))) _

theorem setIncr_net (s : State) (i : Int) : Net s (setIncr s i) :=
  Only.setFld (Only.wrI (Only.refl _ _ s))

/-- The excess of the device's own error shown (R463). -/
def excessShown (s : State) (mask : Nat) : State := { s with ovl := { s.ovl with excess := mask } }

theorem excessShown_same (s : State) (mask : Nat) : Same [.ovl] s (excessShown s mask) := by
  intro q hq; cases q <;> first | rfl | exact absurd (by decide) hq

theorem ftmShow_net (s : State) : Net s (ftmShow s) := by
  have hshown : ∀ (t : State) (mask : Nat), Net t (excessShown t mask) := fun t mask => Only.of_same (excessShown_same t mask)
  have hregs : ∀ v b, Net s (setFlag (wrN s FTM_ERR v) FTM_STS 15 b) := fun v b => Only.setFlag (Only.wrN (Only.refl _ _ s))
  unfold ftmShow
  refine Only.ite ?_ ((hregs _ _).trans (hshown _ _))
  exact ((hregs _ _).trans (hshown _ _)).trans ⟨(sendGroup_same _ _ _).mono (by decide), (sendGroup_regs _ _ _).mono fun _ => netReg_tx⟩

theorem withFtm_same (s : State) (f : Ftm) : Same [.ftm] s { s with ftm := f } := by
  intro q hq; cases q <;> first | rfl | exact absurd (by decide) hq

theorem withFtm_net (s : State) (f : Ftm) : Net s { s with ftm := f } := Only.of_same (withFtm_same s f)

theorem announced_net {t : State} (h : Net s t) (c : Prop) [Decidable c] : Net s (ftmShow (if c then ports4.foldl sendAnnounce t else t)) :=
  (h.trans (Only.ite (Only.foldl _ _ (fun t p _ => sendAnnounce_net t p) _) (Only.refl _ _ _))).trans (ftmShow_net _)

theorem ftmSelect_net (s : State) (expired : Bool) : Net s (ftmSelect s expired) := by
  unfold ftmSelect
  refine Only.ite (Only.ite (rolesShow_net s) (announced_net ?own _)) (announced_net ?other _)
  case own =>
    refine Only.trans (Only.wr64 ?_) (rolesShow_net _)
    refine Only.trans (Only.setFlag (Only.setFld (Only.setFld ?_))) (setIncr_net _ _)
    exact withFtm_net s _
  case other =>
    refine Only.trans (Only.wr64 ?_) (rolesShow_net _)
    have hstate := withFtm_net s
    split
    · exact Only.setFld (Only.setFld (Only.setFlag (Only.trans (hstate _) (Only.ite (Only.setFld (Only.refl _ _ _)) (Only.refl _ _ _)))))
    · exact Only.setFlag (Only.trans (hstate _) (Only.ite (Only.setFld (Only.refl _ _ _)) (Only.refl _ _ _)))

theorem enterHoldover_net (s : State) : Net s (enterHoldover s) := by
  unfold enterHoldover
  refine Only.ite (Only.refl _ _ _) (Only.trans ?_ (ftmSelect_net _ _))
  exact Only.trans (Only.setFld (withFtm_net s _)) (ftmShow_net _)

theorem ftmPortDown_net (s : State) {p : Nat} (hp : p < 4) : Net s (ftmPortDown s p) := by
  have hreset : Net s (setFlag (updTport s p (fun _ => FtmPort.reset)) (FTM_P_STS p) 2 false) :=
    Only.setFlag (updTport_net s p _) (netReg_timePort p hp)
  exact (hreset.trans (Only.ite (enterHoldover_net _) (ftmSelect_net _ _))).trans (rolesShow_net _)

end

end Sys2Proof.Proofs

/-! PROOFS. How a fabric forms, its links, what its frames carry, and its commands (R412 to R450). -/

namespace Sys2Proof.Proofs

-- One theorem after the other: elaborated at once, their threads outgrow the memory that a check may take.
set_option Elab.async false

open Sys2Proof.Machine Sys2Proof.Laws

/-! ### Ports and frames -/

section
variable {s : State} {p : Nat}

theorem now_of_kept {q : Nat → Bool} {t : State} (h : RegsKept q s t) (hlo : q FTM_TIME_LO = false := by decide)
    (hhi : q FTM_TIME_HI = false := by decide) : now t = now s := now_congr (h _ hlo) (h _ hhi)

/-- A frame counted on a port is the time of no counter: the two registers of fabric time lie elsewhere. -/
theorem now_got (s : State) (p : Nat) : now (got s p) = now s :=
  now_congr (rd_satInc_other (by simp only [FTM_TIME_LO, FAB_P_RX_FRAMES]; omega)) (rd_satInc_other (by simp only [FTM_TIME_HI, FAB_P_RX_FRAMES]; omega))

theorem got_same (s : State) (p : Nat) : Same [.regs] s (got s p) := satInc_same _ _

@[simp] theorem got_fab (s : State) (p : Nat) : (got s p).fab = s.fab := (got_same s p).fab

@[simp] theorem got_fuses (s : State) (p : Nat) : (got s p).fuses = s.fuses := (got_same s p).fuses

/-- The last frame on the wire is the one that just left. -/
theorem lastSent_wireOut (s : State) (p : Nat) (n : Option Nat) (f : Frame) : lastSent (wireOut s p n f) = some (p, f.ty, f.body) := by
  have hwire : ∀ t : State, (portInc t p (FAB_P_TX_FRAMES p)).fab = t.fab := fun t => (portInc_same t p _).fab
  rw [lastSent, wireOut]
  simp only [hwire]
  rw [List.getLast?_append, List.getLast?_singleton]
  rfl

@[simp] theorem lastSent_linkOut (s : State) (p ty : Nat) (body : List Nat) : lastSent (linkOut s p ty body) = some (p, ty, body) :=
  lastSent_wireOut _ _ _ _

theorem fport_updPort_same (s : State) (p : Nat) (f : FabPort → FabPort) : fport (updPort s p f) p = f (fport s p) := mget_mset_same _ _ _ _

theorem fport_of_fab {t : State} (h : t.fab = s.fab) (p : Nat) : fport t p = fport s p := by rw [fport, fport, h]

/-- A frame of the LINK class carries the acknowledgement that was due and what was owed. -/
theorem fport_linkOut (s : State) (p ty : Nat) (body : List Nat) :
    fport (linkOut s p ty body) p = { fport s p with owed := (fport s p).owed.drop 1, ackDue := false } := by
  rw [linkOut, wireOut, fport_of_fab (portInc_same _ _ _).fab]
  exact fport_updPort_same _ _ _

/-- Of the fabric, a frame sent changes its port and the wire. -/
theorem wireOut_fab (s : State) (p : Nat) (n : Option Nat) (f : Frame) :
    (wireOut s p n f).fab.devs = s.fab.devs ∧ (wireOut s p n f).fab.reqPorts = s.fab.reqPorts := by
  rw [wireOut, (portInc_same _ _ _).fab]
  exact ⟨rfl, rfl⟩

theorem mem_mset {α : Type} (m : List (Nat × α)) (k : Nat) (v : α) : (k, v) ∈ mset m k v := by
  induction m with
  | nil => exact List.mem_singleton.mpr rfl
  | cons e m ih =>
    obtain ⟨i, w⟩ := e
    unfold mset
    split
    · exact List.mem_cons_self
    · split
      · exact List.mem_cons_self
      · exact List.mem_cons_of_mem _ ih

end

/-! ### How a fabric forms -/

theorem addressesAssigned : Claim.AddressesAssigned := by
  intro s p serial addr hclk
  refine ⟨fun hroot => ?root, fun q hroot hport => ?towards, fun hown => ?taken, fun q hother hpath => ?back⟩
  case root =>
    show Does (execAddrReq p serial addr s) s _
    refine does_clocked hclk ?_
    rw [if_pos (show flag (satInc s (FAB_P_RX_FRAMES p)) FAB_STS 8 = true from hroot)]
    refine ⟨_, ⟨serial, false, false, false, false, 0xFF, []⟩, lastSent_linkOut _ _ _ _, ?_, rfl⟩
    rw [linkOut, (wireOut_fab _ _ _ _).1]
    exact mem_mset _ _ _
  case towards =>
    show Does (execAddrReq p serial addr s) s _
    refine does_clocked hclk ?_
    rw [if_neg (show ¬ flag (satInc s (FAB_P_RX_FRAMES p)) FAB_STS 8 = true by rw [show flag (satInc s (FAB_P_RX_FRAMES p)) FAB_STS 8 = false from hroot]; simp)]
    have hfab : (satInc s (FAB_P_RX_FRAMES p)).fab = s.fab := got_fab s p
    have hport' : rootPort { satInc s (FAB_P_RX_FRAMES p) with fab := { s.fab with reqPorts := mset s.fab.reqPorts serial p } } = some q := hport
    simp only [hfab, hport']
    refine ⟨lastSent_linkOut _ _ _ _, ?_⟩
    rw [linkOut, (wireOut_fab _ _ _ _).2]
    exact mem_mset _ _ _
  case taken =>
    show execAddrAssign p serial addr s = _
    rw [execAddrAssign, whileClocked_running _ hclk]
    exact congrArg (fun t => Host.Outcome.next (holding s t)) (if_pos (hown.trans (congrArg Fuses.serial (got_fuses s p).symm)))
  case back =>
    show Does (execAddrAssign p serial addr s) s _
    refine does_clocked hclk ?_
    have hfuses : (satInc s (FAB_P_RX_FRAMES p)).fuses = s.fuses := got_fuses s p
    have hfab : (satInc s (FAB_P_RX_FRAMES p)).fab = s.fab := got_fab s p
    simp only [hfuses, hfab, if_neg hother, hpath]
    exact lastSent_linkOut _ _ _ _

theorem helloFrames : Claim.HelloFrames := by
  intro s p addr i rootSerial rootHops size dir hclk h heard run
  have hrun : ∀ u, (s.pins.fabRefclk = true → helloIn s p h = u) → s.pins.fabRefclk = true → run = .next (holding s u) := by
    intro u hu hclock
    show execHelloRx p addr i rootSerial rootHops size dir s = _
    rw [execHelloRx, whileClocked_running _ hclk, if_pos hclock, hu hclock]
  have hheard : helloIn s p h = (
      let st := portSt heard p
      if st == pTraining && i.serial == heard.fuses.serial then
        portReached (setPort (wr64 heard (FAB_P_PEER_SERIAL_LO p) (FAB_P_PEER_SERIAL_HI p) i.serial) p pLoopback) p
      else if st == pTraining || st == pIsolated then tryJoin heard p h
      else if st == pSwapping && !laneFailed heard p (activeLane heard p) then
        pump (goBack (dieRelease (setPort (learn heard p h) p pUp) 2 p) p)
      else if st == pUp then pump (learn heard p h)
      else heard) := by
    have htime : heard = updPort (satInc s (FAB_P_RX_FRAMES p)) p (fun q => { q with heard := now s }) := by
      show updPort (got s p) p (fun q => { q with heard := now (got s p) }) = _
      rw [now_got]
      rfl
    rw [htime]
    rfl
  have hserial : heard.fuses.serial = s.fuses.serial := congrArg Fuses.serial (got_fuses s p)
  refine ⟨fun hdue => ?_, fun hclock => ?_, fun hclock => ⟨fun hst hown => ?_, fun hst => ?_, fun hst => ?_⟩⟩
  · show execHelloSend p s = _
    rw [execHelloSend, whileClocked_running _ hclk, if_pos hdue]
  · show execHelloRx p addr i rootSerial rootHops size dir s = _
    rw [execHelloRx, whileClocked_running _ hclk, if_neg (by simp [hclock])]
  · exact hrun _ (fun _ => by rw [hheard]; simp [hst, hown, hserial]) hclock
  · refine hrun _ (fun _ => ?_) hclock
    rw [hheard]
    rcases hst with ⟨hst, hother⟩ | hst
    · simp [hst, hother, hserial]
    · simp [hst, pIsolated, pTraining]
  · exact hrun _ (fun _ => by rw [hheard]; simp [hst, pUp, pTraining, pIsolated, pSwapping]) hclock

theorem routingUpdates : Claim.RoutingUpdates := by
  intro s p a metrics hclk
  refine ⟨fun hdue => ?sent, fun hup hkept => ?received, fun hother hlost htime => ?expired, fun hreach => ?held⟩
  case sent =>
    show execRouteUpdate s = _
    rw [execRouteUpdate, whileClocked_running _ hclk, if_pos hdue]
  case received =>
    show execRouteUpdateRx p metrics s = _
    rw [execRouteUpdateRx, whileClocked_running _ hclk]
    have hlost : ((List.range 32).any (fun d => flag (got s p) (FAB_ROUTE d) 31 && fld (got s p) (FAB_ROUTE d) 27 26 == p &&
        decide (32 ≤ metrics.getD d 32) && decide (advOf (got s p) p d < 32))) = false := by
      rw [← Bool.not_eq_true', List.not_any_eq_all_not]
      exact hkept
    change Host.Outcome.next (holding s (if (!portUp (got s p) p) = true then _ else reroute (if _ = true then _ else _))) = _
    rw [if_neg (by simp [hup])]
    refine congrArg (fun t => Host.Outcome.next (holding s (reroute t))) (if_neg ?_)
    exact fun hany => Bool.false_ne_true (hlost.symm.trans hany)
  case expired =>
    show execRouteHoldExpiry a s = _
    rw [execRouteHoldExpiry, whileClocked_running _ hclk]
    simp [hother, hlost, htime]
  case held =>
    show execRouteHoldExpiry a s = _
    rw [execRouteHoldExpiry, whileClocked_running _ hclk]
    rcases hreach with hreach | hreach <;> simp [hreach]

/-- Settles O37, by its three parts. -/
theorem fabricForms : Obligations.FabricForms := ⟨addressesAssigned, helloFrames, routingUpdates⟩

/-! ### Links -/

section
variable {s : State} {p : Nat}

theorem dieTake_rd {op u a : Nat} (h : a ≠ PWR_DIE_STS) : rd (dieTake s op u) a = rd s a := dieShow_rd h

theorem dieTake_holds (s : State) (op u : Nat) : dieHolds (dieTake s op u) op u = true := by
  simp [dieHolds, dieTake, dieShow]

theorem portSts_ne_die (p : Nat) : FAB_P_STS p ≠ PWR_DIE_STS := by simp only [FAB_P_STS, PWR_DIE_STS]; omega

theorem portSt_setPort {v : Nat} (h : v < 16) : portSt (setPort s p v) p = v := by
  show fld (setFld s (FAB_P_STS p) 3 0 v) (FAB_P_STS p) 3 0 = v
  rw [fld_setFld_same _ _ _ _ (by decide) (by decide)]
  exact Nat.mod_eq_of_lt h

theorem portSt_dieTake (op u : Nat) : portSt (dieTake s op u) p = portSt s p := fld_congr (dieTake_rd (portSts_ne_die p)) _ _

/-- Traffic that moves to the other lane leaves the port's state. -/
theorem portSt_moveActive (s : State) (p : Nat) : portSt (moveActive s p) p = portSt s p := by
  rw [portSt, moveActive, fld_congr (rd_satIncF_other _ _ (by simp only [FAB_P_STS, FAB_P_SWAPS]; omega)),
    fld_setFld_apart _ _ _ _ _ _ (by decide) (by decide) (by decide)]
  rfl

end

theorem portsFailAndRetrain : Claim.PortsFailAndRetrain := by
  intro s p hclk hp wait
  refine ⟨fun h => ?miss, fun h => ?heard, fun h => ?down, fun hst htime => ?retrain, fun hst h1 h2 htime => ?lane0,
    fun hst hspare => ?swap, fun hst => ?lost⟩
  case miss =>
    show execHelloMiss p s = _
    rw [execHelloMiss, whileClocked_running _ hclk, if_pos h]
  case heard =>
    show execHelloMiss p s = _
    rw [execHelloMiss, whileClocked_running _ hclk, if_neg (fun hr => Bool.false_ne_true (h.symm.trans hr))]
  case down =>
    show execLinkDown p s = _
    rw [execLinkDown, whileClocked_running _ hclk, if_pos h]
  case retrain =>
    show Does (execPortRetrain p s) s _
    refine does_clocked hclk ?_
    rw [if_pos (by simp [hst, htime])]
    exact ⟨(portSt_dieTake 2 p).trans (portSt_setPort (by decide)), dieTake_holds _ _ _⟩
  case lane0 =>
    show Does (execLane0LockTimeout p s) s _
    refine does_clocked hclk ?_
    rw [if_pos (by simp [hst, h1, h2, htime])]
    exact ⟨fld_setFld_same _ _ _ _ (by decide) (by decide), fun a ha => rd_setFld_other _ _ _ ha⟩
  case swap =>
    show execBlockLockLoss p true s = _
    rw [execBlockLockLoss, whileClocked_running _ hclk]
    simp [hst, hspare, portSt_moveActive]
  case lost =>
    show execBlockLockLoss p false s = _
    rw [execBlockLockLoss, whileClocked_running _ hclk]
    rcases hst with hst | hst <;> simp [hst]

theorem laneSwaps : Claim.LaneSwaps := by
  intro s p lane errs hclk hp hlane counted failed fails
  have hlimit : fld counted FAB_ERR_CFG 15 0 = fld s FAB_ERR_CFG 15 0 := by
    refine fld_congr (t := wrN s (laneErrs p lane) _) (rd_wrN_other _ ?_) _ _
    unfold laneErrs
    split <;> simp only [FAB_ERR_CFG, FAB_P_LANE0_ERRS, FAB_P_LANE1_ERRS] <;> omega
  have hrun : exec (.laneFailed p lane errs true) s = .next (holding s (
      if laneFailed counted p lane || errCount counted p lane ≤ fld counted FAB_ERR_CFG 15 0 then counted
      else if laneFailed failed p (1 - lane) then event failed (srcPort p) 0x1702 []
      else if lane = activeLane failed p && true && portUp failed p then beginSwap (linkOut failed p tySwap []) p
      else failed)) := by
    show execLaneFailed p lane errs true s = _
    rw [execLaneFailed, whileClocked_running _ hclk]
  have hfails : fails → ¬ (laneFailed counted p lane || errCount counted p lane ≤ fld counted FAB_ERR_CFG 15 0) = true := by
    rintro ⟨hsound, hcount⟩
    simp only [hsound, hlimit, Bool.false_or, decide_eq_true_eq]
    omega
  refine ⟨?count, fun hkeep => ?keep, fun hf hspare hact hup => ?swap, fun hf hboth => ?both, fun hup => ?follow, fun hst hbad => ?moved⟩
  case count =>
    show rdN (wrN s (laneErrs p lane) _) (laneErrs p lane) = _
    rw [rdN_wrN_same, Nat.mod_eq_of_lt]
    unfold satN
    split <;> omega
  case keep =>
    rw [hrun, if_pos]
    rw [hlimit]
    by_cases hsound : laneFailed counted p lane = false
    · have hcount : ¬ fld s FAB_ERR_CFG 15 0 < errCount counted p lane := fun hc => hkeep ⟨hsound, hc⟩
      simp only [hsound, Bool.false_or, decide_eq_true_eq]
      omega
    · simp [Bool.eq_true_of_not_eq_false hsound]
  case swap =>
    rw [hrun, if_neg (hfails hf), if_neg (by simp [hspare]), if_pos (by simp [← hact, hup])]
  case both =>
    rw [hrun, if_neg (hfails hf), if_pos hboth]
  case follow =>
    show execSwapRx p s = _
    rw [execSwapRx, whileClocked_running _ hclk]
    exact congrArg (fun t => Host.Outcome.next (holding s t)) (if_pos hup)
  case moved =>
    show execSwapAckRx p s = _
    rw [execSwapAckRx, whileClocked_running _ hclk]
    refine congrArg (fun t => Host.Outcome.next (holding s t)) (if_pos ?_)
    exact Bool.and_eq_true_iff.mpr ⟨beq_iff_eq.mpr hst, hbad⟩

theorem linkAcknowledgements : Claim.LinkAcknowledgements := by
  intro s p ack cls credits hclk
  refine ⟨?ack, fun hup hdue hp => ?alone, fun hup => ?nak, fun t ts hup hretry htime => ?timeout⟩
  case ack =>
    show execAckFrame p ack cls credits s = _
    rw [execAckFrame, whileClocked_running _ hclk]
  case alone =>
    show Does (execStandaloneAck p s) s _
    refine does_clocked hclk ?_
    rw [if_pos]
    · exact ⟨lastSent_linkOut _ _ _ _, by rw [fport_linkOut]⟩
    · rcases hdue with hdue | hdue
      · simp [hup, hdue]
      · simp [hup, hdue]
  case nak =>
    show execNakFrame p ack s = _
    rw [execNakFrame, whileClocked_running _ hclk, if_pos hup]
    rfl
  case timeout =>
    show execRetryTimeout p s = _
    rw [execRetryTimeout, whileClocked_running _ hclk]
    simp [hup, hretry, htime]

/-- Settles O38, by its three parts. -/
theorem fabricLinks : Obligations.FabricLinks := ⟨portsFailAndRetrain, laneSwaps, linkAcknowledgements⟩

/-! ### What frames carry -/

theorem framesInTransit : Claim.FramesInTransit := by
  intro s p cls ty dst src hops e2e body hclk
  have hrun : portUp s p = true → dst ≠ ownAddr s → ty ≠ tyPosition → cls ≠ clLink →
      exec (.frameForward p cls ty dst src hops e2e body) s = .next (holding s (
        if hops = 0 then satInc (acceptOn s p ⟨cls, ty, dst, src, hops - 1, e2e, body⟩) FAB_HOP_DROPS
        else queueFrame (acceptOn s p ⟨cls, ty, dst, src, hops - 1, e2e, body⟩) ⟨cls, ty, dst, src, hops - 1, e2e, body⟩)) := by
    intro hup hother hty hcls
    show execFrameForward p cls ty dst src hops e2e body s = _
    rw [execFrameForward, whileClocked_running _ hclk, if_neg (by simp [hup, hother, hty, hcls])]
  refine ⟨fun hup hother hty hcls hhops => ?on, fun hup hother hty hcls => ?out, ?fcs, ?address, ?type, fun hup hnak hp => ?order⟩
  case on => rw [hrun hup hother hty hcls, if_neg (by omega)]
  case out =>
    show execFrameForward p cls ty dst src 0 e2e body s = _
    rw [execFrameForward, whileClocked_running _ hclk, if_neg (by simp [hup, hother, hty, hcls])]
    rfl
  case fcs =>
    show execFrameDiscarded p 0 cls src s = _
    rw [execFrameDiscarded, whileClocked_running _ hclk]
    rfl
  case address =>
    show execFrameDiscarded p 1 cls src s = _
    rw [execFrameDiscarded, whileClocked_running _ hclk]
    rfl
  case type =>
    show execFrameDiscarded p 2 cls src s = _
    rw [execFrameDiscarded, whileClocked_running _ hclk]
    rfl
  case order =>
    show Does (execFrameDiscarded p 4 cls src s) s _
    refine does_clocked hclk ?_
    simp only [hnak, hup, Bool.not_true, Bool.or_self, Bool.false_eq_true, if_false]
    exact ⟨lastSent_linkOut _ _ _ _, by rw [fport_updPort_same]⟩

theorem endToEndDelivery : Claim.EndToEndDelivery := by
  intro s via src cls next hclk
  refine ⟨fun hup => ?acknowledged, fun t ts hts htime => ?resent⟩
  case acknowledged =>
    intro b e left hleft
    show execE2eAck via src cls next s = _
    rw [execE2eAck, whileClocked_running _ hclk, delivered, if_pos hup]
    exact congrArg (fun t => Host.Outcome.next (holding s t)) (if_neg (Nat.not_lt.mpr hleft))
  case resent =>
    show execE2eResend src cls s = _
    rw [execE2eResend, whileClocked_running _ hclk]
    simp only [hts, List.head?_cons, Option.any_some, htime, if_true]
    rfl

theorem forwardedCommands : Claim.ForwardedCommands := by
  intro s via src ring packet block hclk hup
  refine ⟨⟨fun hroom => ?room, fun hfull => ?full⟩, fun tag op status r0 r1 r2 ex time r rest => ?done,
    fun dst tag r hun hr hfwd hage => ?late⟩
  case room =>
    show execCmdFwd via src ring packet block s = _
    rw [execCmdFwd, whileClocked_running _ hclk, delivered, if_pos hup, if_neg (by omega)]
  case full =>
    show execCmdFwd via src ring packet block s = _
    rw [execCmdFwd, whileClocked_running _ hclk, delivered, if_pos hup, if_pos hfull]
  case done =>
    intro b hfirst hkept
    show execCmdDone via src ring tag op status r0 r1 r2 ex time s = _
    rw [execCmdDone, whileClocked_running _ hclk, delivered, if_pos hup]
    simp only [show takeFirst (isForward src ring tag) (frameIn s via src tyCmdDone [ring, tag, op, status, r0, r1, r2, ex, time]).running =
      some (r, rest) from hfirst, hkept, Bool.false_eq_true, if_false]
    rfl
  case late =>
    show execCmdFwdTimeout dst ring tag s = _
    rw [execCmdFwdTimeout, whileClocked_running _ hclk, if_pos]
    have haged : Running.aged s 1000000 r = true := by
      simp only [Running.aged, reached, decide_eq_true_eq]
      omega
    rw [hun, Bool.true_and, List.any_eq_true]
    exact ⟨r, hr, by simp [hfwd, haged]⟩

theorem bulkCollection : Claim.BulkCollection := by
  intro s via src offset data hclk hup b n base
  have hin : Same [.regs, .fab] s b := frameIn_same _ _ _ _ _
  refine ⟨fun hoff => ?other, fun hon => ?collector⟩
  case other =>
    show execBulkRec via src offset data s = _
    rw [execBulkRec, whileClocked_running _ hclk, delivered, if_pos hup]
    exact congrArg (fun t => Host.Outcome.next (holding s t)) (if_pos (by rw [show flag _ FAB_BULK_CFG 30 = false from hoff]; rfl))
  case collector =>
    show Does (execBulkRec via src offset data s) s _
    refine does_clocked hclk ?_
    rw [delivered, if_pos hup, show frameIn s via src 0x30 [offset, data.length] = b from rfl]
    clear_value b
    rw [if_neg (by simp [hon])]
    exact ⟨rfl, hin.sram, hin.host, hin.lanes⟩

/-- Settles O39, by its four parts. -/
theorem fabricTransport : Obligations.FabricTransport := ⟨framesInTransit, endToEndDelivery, forwardedCommands, bulkCollection⟩

/-! ### The commands of the fabric -/

section
variable {s : State} {p : Nat}

theorem dieRelease_net (s : State) (op u : Nat) : Net s (dieRelease s op u) := by
  have hfreed : Net s { s with pwr := { s.pwr with die := s.pwr.die.filter (fun g => !(g.op == op && g.unit == u)) } } :=
    Only.of_same (qs := [.pwr]) (fun q hq => by cases q <;> first | rfl | exact absurd (by decide) hq)
  exact Only.setFld (Only.setFld hfreed)

/-- A port out of service as far as its own registers go. -/
def portLeft (s : State) (p st : Nat) : State :=
  setFlag (setPort (updPort s p (fun q => { FabPort.reset with errs := q.errs })) p st) (FAB_P_STS p) 23 false

theorem portLeft_same (s : State) (p st : Nat) : Same [.regs, .fab] s (portLeft s p st) :=
  ((((updPort_same s p _).mono (by decide)).trans ((setFld_same _ _ _ _ _).mono (by decide))).trans
    ((updPort_same _ p _).mono (by decide))).trans ((setFlag_same _ _ _ _).mono (by decide))

theorem portLeft_rd {st a : Nat} (h : a ≠ FAB_P_STS p) : rd (portLeft s p st) a = rd s a := by
  refine (rd_setFlag_other _ _ h).trans ?_
  exact rd_setFld_other (s := updPort s p (fun q => { FabPort.reset with errs := q.errs })) _ _ _ h

theorem portSt_portLeft {st : Nat} (h : st < 16) : portSt (portLeft s p st) p = st := by
  show fld (setFld _ (FAB_P_STS p) 23 23 (b2n false)) (FAB_P_STS p) 3 0 = st
  rw [fld_setFld_apart _ _ _ _ _ _ (by decide) (by decide) (by decide)]
  exact portSt_setPort h

theorem requeued_net (s : State) (fs : List Frame) : Net s { s with fab := { s.fab with out := fs } } :=
  Only.of_same (qs := [.fab]) (fun q hq => by cases q <;> first | rfl | exact absurd (by decide) hq)

/-- Beyond its own registers, a port that leaves service changes the fabric and fabric time alone. -/
theorem portOutOf_net {st : Nat} (hp : p < 4) : Net (portLeft s p st) (portOutOf s p st) := by
  have hreleased : Net (portLeft s p st) (dieRelease (portLeft s p st) 2 p) := dieRelease_net _ _ _
  unfold portOutOf
  refine Only.ite ?_ hreleased
  refine Only.trans ?_ (ftmPortDown_net _ hp)
  refine Only.trans ?_ (adoptRoot_net _)
  refine Only.trans ?_ (reroute_net _)
  refine Only.trans ?_ (linkEvent_net _)
  exact hreleased.trans (requeued_net _ _)

theorem netReg_portSts : ∀ p < 4, netReg (FAB_P_STS p) = false ∧ netReg (FAB_P_CFG p) = false := by decide

theorem portSt_portOutOf {st : Nat} (hp : p < 4) (h : st < 16) : portSt (portOutOf s p st) p = st :=
  (fld_congr ((portOutOf_net hp).regs _ (netReg_portSts p hp).1) _ _).trans (portSt_portLeft h)

theorem rd_portOutOf_cfg {st : Nat} (hp : p < 4) : rd (portOutOf s p st) (FAB_P_CFG p) = rd s (FAB_P_CFG p) :=
  ((portOutOf_net hp).regs _ (netReg_portSts p hp).2).trans (portLeft_rd (by simp only [FAB_P_CFG, FAB_P_STS]; omega))

theorem sendHello_net (s : State) (p : Nat) : Net s (sendHello s p) := by
  unfold sendHello
  exact Only.ite ((updPort_net s p _).trans (linkOut_net _ _ _ _)) (Only.refl _ _ _)

theorem hellosSent_net (s : State) : Net s (ports4.foldl sendHello s) := Only.foldl _ _ (fun t p _ => sendHello_net t p) _

/-- The device's plate group set and told (R445). -/
def groupSet (s : State) (group : Nat) (member : Bool) : State :=
  ports4.foldl sendHello (fabShow (setFlag (setFld s FAB_STS 17 16 group) FAB_STS 18 member))

theorem groupSet_net (s : State) (group : Nat) (member : Bool) : Net s (groupSet s group member) := by
  have hset : Net s (setFlag (setFld s FAB_STS 17 16 group) FAB_STS 18 member) := Only.setFlag (Only.setFld (Only.refl _ _ s))
  exact (hset.trans (fabShow_net _)).trans (hellosSent_net _)

/-- A port configured, out of service and free to train (R447). -/
def portPrepared (s : State) (port mode flags polarity : Nat) : State :=
  let a := FAB_P_CFG port
  let s := setFld (setFld s a 8 8 (b2n (flags.testBit 0))) a 7 6 (natBits flags 2 1)
  let s := setFlag (setFlag s a 2 (polarity.testBit 0)) a 3 (polarity.testBit 1)
  let s := setFlag (setFlag s a 4 (polarity.testBit 2)) a 5 (polarity.testBit 3)
  let s := setFld s a 1 0 mode
  let s := if flags.testBit 3 then setFld s (FAB_P_STS port) 17 16 0 else s
  portOutOf s port pOff

theorem portPrepared_mode {port mode flags polarity : Nat} (hport : port < 4) (hmode : mode < 4) :
    fld (portPrepared s port mode flags polarity) (FAB_P_CFG port) 1 0 = mode := by
  have hset : ∀ t, fld (setFld t (FAB_P_CFG port) 1 0 mode) (FAB_P_CFG port) 1 0 = mode := by
    intro t
    rw [fld_setFld_same _ _ _ _ (by decide) (by decide)]
    exact Nat.mod_eq_of_lt hmode
  rw [portPrepared, fld_congr (rd_portOutOf_cfg hport)]
  split
  · rw [fld_congr (rd_setFld_other _ _ _ (by simp only [FAB_P_CFG, FAB_P_STS]; omega))]
    exact hset _
  · exact hset _

/-- A port prepared begins its training with a grant of the die ledger (R104, R414). -/
theorem training_spec {port lane_ : Nat} (t : State) : let u := dieTake (setPort (setFld t (FAB_P_STS port) 8 8 lane_) port pTraining) 2 port
    portSt u port = pTraining ∧ rd u (FAB_P_CFG port) = rd t (FAB_P_CFG port) ∧ dieHolds u 2 port = true := by
  have hcfg : FAB_P_CFG port ≠ FAB_P_STS port := by simp only [FAB_P_CFG, FAB_P_STS]; omega
  refine ⟨(portSt_dieTake 2 port).trans (portSt_setPort (by decide)), ?_, dieTake_holds _ _ _⟩
  rw [dieTake_rd (by simp only [FAB_P_CFG, PWR_DIE_STS]; omega)]
  exact (rd_setFld_other (s := setFld t (FAB_P_STS port) 8 8 lane_) _ _ _ hcfg).trans (rd_setFld_other _ _ _ hcfg)

end

theorem fabricSettings : Claim.FabricSettings := by
  intro s h hs a hon
  refine ⟨fun port hport hidle hfree hp => ?release, fun port mode flags polarity hport hmode hflags hcopper hlanes hpol hidle hgrant hfree hp => ?train,
    fun addr haddr hp => ?discover, fun hp => ?rescan, fun dest hdest hp => ?route, fun addr haddr hp => ?routes, fun hjob hp => ?leave,
    fun group hgroup hjob hsize hp => ?join⟩
  case release =>
    refine ⟨portPrepared a port 0 0 0, ?_, portSt_portOutOf hport (by decide)⟩
    show execFabricPortSet h port 0 0 0 s = _
    rw [execFabricPortSet, starts_body hs hp (by simp [hport, hidle, hfree, hon, a, natBits])]
    rfl
  case train =>
    have hmode' : mode ≠ 0 ∧ mode < 4 ∧ mode ≤ 2 := by omega
    obtain ⟨hnonzero, hmode4, hmode2⟩ := hmode'
    have hspec := training_spec (port := port) (lane_ := if natBits flags 2 1 = 2 then 1 else 0) (portPrepared a port mode flags polarity)
    refine ⟨_, ?_, hspec.1, (fld_congr hspec.2.1 _ _).trans (portPrepared_mode hport hmode4), hspec.2.2⟩
    show execFabricPortSet h port mode flags polarity s = _
    have hcopper' : (!flags.testBit 0 || mode == 2) = true := by
      cases hbit : flags.testBit 0
      · rfl
      · simp [hcopper hbit]
    have hgrant' : dieGrants (accept s h) 2 = true := hgrant
    have hidle' : portIdle (accept s h) port = true := hidle
    have hfree' : isRunning (accept s h) 0x0801 port = false := hfree
    have hon' : domOn (accept s h) 13 = true := hon
    rw [execFabricPortSet, starts_body hs hp (by
      simp only [hport, hidle', hfree', hon', hgrant', hmode2, hflags, hcopper', hlanes, hpol]
      simp)]
    rw [if_neg hnonzero]
    rfl
  case discover =>
    show execFabricDiscover h 0 addr s = _
    have hon' : domOn (accept s h) 13 = true := hon
    rw [execFabricDiscover, starts_body hs hp (by simp [haddr, hon'])]
    have hregs := hostResult_regs (accept s h) addr ((List.range 32).flatMap (discEntry (accept s h)))
    simp only [if_true]
    rw [fld_congr (hregs FAB_STS (by decide)), rdN_congr (hregs FAB_MEMBERS (by decide))]
  case rescan =>
    show execFabricDiscover h 1 0 s = _
    have hon' : domOn (accept s h) 13 = true := hon
    rw [execFabricDiscover, starts_body hs hp (by simp [hostAddrOk, hon'])]
    rfl
  case route =>
    show execFabricRouteRead h dest 0 s = _
    have hon' : domOn (accept s h) 13 = true := hon
    have hall : dest ≠ 0xFF := by omega
    rw [execFabricRouteRead, starts_body hs hp (by simp [hdest, hall, hon']), if_neg hall]
  case routes =>
    show execFabricRouteRead h 0xFF addr s = _
    have hon' : domOn (accept s h) 13 = true := hon
    rw [execFabricRouteRead, starts_body hs hp (by simp [haddr, hon']), if_pos rfl]
  case leave =>
    have hnet := groupSet_net a 0 false
    refine ⟨groupSet a 0 false, ?_, hnet.same.lanes, hnet.same.seq, hnet.same.sram, hnet.same.dram, hnet.same.host, hnet.same.sramLost,
      hnet.same.dramLost⟩
    show execPlateGroupSet h 0xFF s = _
    have hon' : domOn (accept s h) 13 = true := hon
    have hjob' : (accept s h).seq.job = none := hjob
    rw [execPlateGroupSet, starts_body hs hp (by simp [hjob', hon'])]
    rfl
  case join =>
    have hnet := groupSet_net a group true
    refine ⟨groupSet a group true, ?_, hnet.same.lanes, hnet.same.seq, hnet.same.sram, hnet.same.dram, hnet.same.host, hnet.same.sramLost,
      hnet.same.dramLost⟩
    show execPlateGroupSet h group s = _
    have hon' : domOn (accept s h) 13 = true := hon
    have hjob' : (accept s h).seq.job = none := hjob
    have hsize' : (bitList (natSet (groupOf (accept s h) group) (ownAddr (accept s h))) 32).length ≤ 8 := hsize
    have hnone : group ≠ 0xFF := by omega
    rw [execPlateGroupSet, starts_body hs hp (by simp [hjob', hon', hgroup, hsize'])]
    simp only [if_neg hnone, show (group != 0xFF) = true by simpa using hnone]
    rfl

theorem portSetTimesOut : Claim.PortSetTimesOut := by
  intro s p r hclk hrun hage
  show execPortSetTimeout p s = _
  rw [execPortSetTimeout, whileClocked_running _ hclk]
  exact congrArg (fun t => Host.Outcome.next (holding s t)) (if_pos (by rw [hrun, Option.any_some, hage]))

/-- Settles O40: each command's checks pass, and a port that leaves service changes no port's configuration. -/
theorem fabricCommands : Obligations.FabricCommands := ⟨fabricSettings, portSetTimesOut⟩

end Sys2Proof.Proofs

/-! PROOFS. Fabric time and triggers (R457 to R468), mailbox channels (R519 to R529), the service port and the conductor watchdog (R526 to R559). -/

namespace Sys2Proof.Proofs

-- One theorem after the other: elaborated at once, their threads outgrow the memory that a check may take.
set_option Elab.async false

open Sys2Proof.Machine Sys2Proof.Laws

/-! ### Fabric time -/

theorem grandmasterSelection : Claim.GrandmasterSelection := by
  intro s p domain prio serial steps hclk
  refine ⟨fun hp hdue => ?send, fun hok => ?receive, fun hother => ?other, fun q hslave => ⟨fun a hann hold => ?announce, fun hold => ?sync⟩,
    fun due hheld hover => ?holdDown⟩
  case send =>
    show execAnnounceSend p s = _
    rw [execAnnounceSend, whileClocked_running _ hclk, if_pos (by simp [hp, hdue])]
  case receive =>
    show execAnnounceRx p domain prio serial steps s = _
    rw [execAnnounceRx, whileClocked_running _ hclk, if_pos hok]
  case other =>
    show execAnnounceRx p domain prio serial steps s = _
    rw [execAnnounceRx, whileClocked_running _ hclk, if_neg (by simp [hother])]
  case announce =>
    show execAnnounceTimeout s = _
    rw [execAnnounceTimeout, whileClocked_running _ hclk]
    simp only [hslave, hann, Option.all_some, hold, if_true]
  case sync =>
    show execSyncLoss s = _
    rw [execSyncLoss, whileClocked_running _ hclk, if_pos (by rw [hslave, Option.isSome_some, Bool.true_and, hold])]
  case holdDown =>
    show execHoldDownExpiry serial s = _
    rw [execHoldDownExpiry, whileClocked_running _ hclk, if_neg]
    rw [hheld, List.any_cons, List.any_nil, hover, Bool.not_true, Bool.and_false]
    exact Bool.false_ne_true

theorem tport_updTport_same (s : State) (p : Nat) (f : FtmPort → FtmPort) : tport (updTport s p f) p = f (tport s p) := mget_mset_same _ _ _ _

theorem pathDelay : Claim.PathDelay := by
  intro s p domain turn t4 t1 back hclk
  refine ⟨fun hup hdue => ?send, fun hok => ?answer, fun hok hreq htime hvalid => ?measure, fun t0 hreq hlate => ?drop⟩
  case send =>
    show Does (execPdelaySend p s) s _
    refine does_clocked hclk ?_
    rw [if_pos (by simp [hup, hdue])]
    have hsent := timeOut_same (timeSent s p mPdelayReq) p mPdelayReq 2 []
    have hsame : Same [.regs, .fab, .ftm] s (timeOut (timeSent s p mPdelayReq) p mPdelayReq 2 []) :=
      ((updTport_same s p _).mono (by decide)).trans (hsent.mono (by decide))
    generalize timeOut (timeSent s p mPdelayReq) p mPdelayReq 2 [] = t at *
    have hall := hsame.trans ((updTport_same t p (fun q => { q with req := some (counter32 s / 65536) })).mono (by decide))
    exact ⟨by rw [tport_updTport_same], hall.lanes, hall.sram, hall.dram, hall.host, hall.sramLost, hall.dramLost⟩
  case answer =>
    show execPdelayReq p domain turn s = _
    rw [execPdelayReq, whileClocked_running _ hclk, if_pos hok]
  case measure =>
    show Does (execPdelayResp p domain t4 back s) s _
    refine does_clocked hclk ?_
    rw [if_neg (by simp [hok])]
    have hcount : satN 8 ((tport (timeIn s p 2) p).valid + 1) = (tport (timeIn s p 2) p).valid + 1 := by
      rw [satN, if_pos (by omega)]
    have hprompt : ¬ t1 + 65536000000 < t4 := by omega
    have hfew : (tport (timeIn s p 2) p).valid + 1 < 8 := by omega
    simp only [hreq, hcount, if_neg hprompt, if_pos hfew, tport_updTport_same]
    exact ⟨trivial, trivial, trivial⟩
  case drop =>
    show Does (execPdelayTimeout p s) s _
    refine does_clocked hclk ?_
    rw [if_pos (by rw [hreq, Option.any_some, hlate])]
    exact ⟨by rw [tport_updTport_same], rfl⟩

theorem syncAndLock : Claim.SyncAndLock := by
  intro s p domain origin upE rx corr hclk
  refine ⟨fun hok hslave => ?slave, fun hok hother => ?other, fun hrole hdue => ?send, fun hst hrun => ?lock, ?excess⟩
  case slave =>
    show execSyncMsg p domain false origin corr upE rx s = _
    rw [execSyncMsg, whileClocked_running _ hclk, if_neg (by simp [hok])]
    simp [hslave]
  case other =>
    show execSyncMsg p domain false origin corr upE rx s = _
    rw [execSyncMsg, whileClocked_running _ hclk, if_neg (by simp [hok])]
    simp [hother]
  case send =>
    show execSyncSend p s = _
    rw [execSyncSend, whileClocked_running _ hclk, if_pos (by simp [hrole, hdue])]
  case lock =>
    show execFtmLocked s = _
    rw [execFtmLocked, whileClocked_running _ hclk, if_pos (by simp [hst, hrun])]
  case excess =>
    show execHoldoverExcess s = _
    rw [execHoldoverExcess, whileClocked_running _ hclk]

/-! ### Triggers -/

theorem shadowOf_setShadow_same (s : State) (g a hi lo v : Nat) : shadowOf (setShadow s g a hi lo v) a = setBits (shadowOf s a) hi lo v := by
  rw [shadowOf, setShadow]
  exact mget_mset_same _ _ _ _

theorem shadowOf_setShadow_other {s : State} {g a b hi lo v : Nat} (h : b ≠ a) : shadowOf (setShadow s g a hi lo v) b = shadowOf s b := by
  rw [shadowOf, setShadow, shadowOf]
  exact mget_mset_other _ _ _ _ _ h

/-- Fields of a group staged one after the other (R19): register, bits and value of each. -/
def staged (s : State) (g : Nat) (ws : List (Nat × Nat × Nat × Nat)) : State :=
  ws.foldl (fun s w => setShadow s g w.1 w.2.1 w.2.2.1 w.2.2.2) s

theorem staged_same (s : State) (g : Nat) (ws : List (Nat × Nat × Nat × Nat)) : Same [.shadow, .dirty] s (staged s g ws) :=
  Same.foldl (fun t (w : Nat × Nat × Nat × Nat) => setShadow t g w.1 w.2.1 w.2.2.1 w.2.2.2) (fun t w => setShadow_same t g w.1 w.2.1 w.2.2.1 w.2.2.2) ws s

/-- The shadow of a register holds what was staged for it, in order. -/
theorem shadowOf_staged (s : State) (g : Nat) (ws : List (Nat × Nat × Nat × Nat)) (a : Nat) :
    shadowOf (staged s g ws) a = (ws.filter (fun w => w.1 == a)).foldl (fun x w => setBits x w.2.1 w.2.2.1 w.2.2.2) (shadowOf s a) := by
  induction ws generalizing s with
  | nil => rfl
  | cons w ws ih =>
    rw [staged, List.foldl_cons, ← staged, ih]
    by_cases h : w.1 = a
    · rw [List.filter_cons_of_pos (by simpa using h), List.foldl_cons, ← h, shadowOf_setShadow_same]
    · rw [List.filter_cons_of_neg (by simpa using h), shadowOf_setShadow_other (Ne.symm h)]

theorem natSet_testBit_same (m i : Nat) : (natSet m i).testBit i = true := by simp [natSet_testBit]

/-- The group of a shadow written is pending (R19). -/
theorem setShadow_dirty (s : State) (g a hi lo v : Nat) : (setShadow s g a hi lo v).dirty.testBit g = true := natSet_testBit_same _ _

/-- A group of which a field was staged is pending. -/
theorem staged_dirty (s : State) (g : Nat) {ws : List (Nat × Nat × Nat × Nat)} (h : ws ≠ []) : (staged s g ws).dirty.testBit g = true := by
  obtain ⟨ws, w, rfl⟩ : ∃ ys y, ws = ys ++ [y] := ⟨_, _, (List.dropLast_append_getLast h).symm⟩
  rw [staged, List.foldl_append]
  exact setShadow_dirty _ _ _ _ _ _

/-- What TIME_CONFIG stages (R468). -/
def timeFields (quality domain ann sync pdelay kp ki rate step lockT lockN limit hold invert : Nat) : List (Nat × Nat × Nat × Nat) :=
  [(FTM_CFG, 31, 24, quality), (FTM_CFG, 23, 16, domain), (FTM_CFG, 11, 8, ann), (FTM_CFG, 7, 4, sync), (FTM_CFG, 3, 0, pdelay),
   (FTM_SERVO, 31, 16, kp), (FTM_SERVO, 15, 0, ki), (FTM_RATE_LIM, 31, 0, rate), (FTM_STEP_THRESH, 31, 0, step), (FTM_LOCK, 15, 8, lockN),
   (FTM_LOCK, 7, 0, lockT), (FTM_HOLD, 31, 16, limit), (FTM_HOLD, 15, 0, hold), (FTM_TRIG_CFG, 3, 0, invert)]

theorem timeAndTriggers : Claim.TimeAndTriggers := by
  constructor
  · intro s h hs a hon
    have hon' : domOn (accept s h) 13 = true := hon
    refine ⟨fun quality domain ann sync pdelay kp ki rate step lockT lockN limit hold invert hann hsync hpdelay hinvert hp => ?config,
      fun trig htrig hsafe hp => ?disarm, fun trig start period width count htrig hsafe hnotice hmin hmax hperiod hp => ?arm⟩
    case config =>
      have hsame := staged_same a 11 (timeFields quality domain ann sync pdelay kp ki rate step lockT lockN limit hold invert)
      refine ⟨staged a 11 (timeFields quality domain ann sync pdelay kp ki rate step lockT lockN limit hold invert), ?_,
        shadowOf_staged _ _ _ _, staged_dirty _ _ (List.cons_ne_nil _ _), hsame.regs, hsame.sram, hsame.dram, hsame.host, hsame.sramLost,
        hsame.dramLost⟩
      show execTimeConfig h quality domain ann sync pdelay kp ki rate step lockT lockN limit hold invert s = _
      rw [execTimeConfig, starts_body hs hp (by simp [hann, hsync, hpdelay, hinvert, hon'])]
      rfl
    case disarm =>
      show execTriggerSet h trig 0 0 0 0 0 s = _
      have hsafe' : (accept s h).pwr.safe = false := by rw [(accept_same s h).pwr]; exact hsafe
      rw [execTriggerSet, starts_body hs hp (by simp [htrig, hon', hsafe']), if_pos rfl]
    case arm =>
      show execTriggerSet h trig 1 start period width count s = _
      have hsafe' : (accept s h).pwr.safe = false := by rw [(accept_same s h).pwr]; exact hsafe
      have hnotice' : now (accept s h) + 10000 ≤ start := hnotice
      rw [execTriggerSet, starts_body hs hp (by simp [htrig, hon', hsafe', hnotice', hmin, hmax, hperiod]), if_neg (by decide)]
  · intro s t hclk start
    refine ⟨fun harmed hquiet hendless hdue => ?pulse, fun harmed hquiet hcounted hnone => ?spent, fun hearly => ?early,
      fun hpulse hdue hendless => ?ends, fun hpulse hdue hcounted hnone => ?last⟩
    case pulse =>
      show execTriggerEdge t true s = _
      rw [execTriggerEdge, whileClocked_running _ hclk]
      simp only [harmed, hquiet, hendless, hdue, Bool.not_false, Bool.true_or, Bool.and_self, if_true, Bool.false_eq_true, if_false]
      rfl
    case spent =>
      show execTriggerEdge t true s = _
      rw [execTriggerEdge, whileClocked_running _ hclk]
      simp [hcounted, hnone]
    case early =>
      show execTriggerEdge t true s = _
      rw [execTriggerEdge, whileClocked_running _ hclk]
      simp [hearly]
    case ends =>
      show execTriggerEdge t false s = _
      rw [execTriggerEdge, whileClocked_running _ hclk]
      have hcount : (trigShow { s with ftm := { s.ftm with pulse := natClr s.ftm.pulse t } }).ftm.finite.testBit t = false := by
        rw [(trigShow_same _).ftm]
        exact hendless
      simp only [hpulse, hdue, hcount, Bool.and_self, if_true, Bool.false_eq_true, if_false, Bool.false_and]
    case last =>
      show execTriggerEdge t false s = _
      rw [execTriggerEdge, whileClocked_running _ hclk]
      have hcount : (trigShow { s with ftm := { s.ftm with pulse := natClr s.ftm.pulse t } }).ftm.finite.testBit t = true := by
        rw [(trigShow_same _).ftm]
        exact hcounted
      have hzero : rdN (trigShow { s with ftm := { s.ftm with pulse := natClr s.ftm.pulse t } }) (FTM_TRIG_COUNT t) = 0 :=
        (rdN_congr (s := s) ((trigShow_same _).rd _)).trans hnone
      simp only [hpulse, hdue, hcount, hzero, Bool.and_self, if_true, Bool.false_eq_true, if_false, beq_self_eq_true]

/-- Settles O41, by its four parts. -/
theorem fabricTime : Obligations.FabricTime := ⟨grandmasterSelection, pathDelay, syncAndLock, timeAndTriggers⟩

/-! ### Mailbox channels -/

theorem mailboxMessageWrite : Claim.MailboxMessageWrite := by
  intro s id n r v hclk hbound
  have hrun : exec (.mbxMsgWrite id n r v) s = .next (holding s (mbxWriteMsg s id n r v)) :=
    (show execMbxMsgWrite id n r v s = _ from whileClocked_running _ hclk)
  rw [hrun]
  exact ⟨fun hid hgo => by simp [mbxWriteMsg, hbound, hid, hgo], fun hid hgo => by simp [mbxWriteMsg, hbound, hid, hgo],
    fun hid => by simp [mbxWriteMsg, hbound, hid]⟩

theorem mailboxPostAndRead : Claim.MailboxPostAndRead := by
  intro s n v hclk hbound
  have hwrite : exec (.mbxGoWrite (mbxSender s n) n v) s = .next (holding s (mbxWriteGo s (mbxSender s n) n v)) :=
    (show execMbxGoWrite (mbxSender s n) n v s = _ from whileClocked_running _ hclk)
  have hread : ∀ r, exec (.mbxLastRead (mbxReceiver s n) n r) s = .next (holding s
      (let x := mbxRead s (mbxReceiver s n) n r; { x.1 with readData := x.2 })) :=
    fun r => (show execMbxLastRead (mbxReceiver s n) n r s = _ from whileClocked_running _ hclk)
  refine ⟨fun hgo hset hmin hmax => ?post, fun hgo hset hlen => ?length, fun r hgo hlast hlocal => ?last, fun r hother => ?other⟩
  case post =>
    rw [hwrite, mbxWriteGo, if_neg (by simp [hbound]), if_neg (by simp), if_neg (by simp [hgo]), if_neg (by simp [hset]),
      if_neg (by simp only [Bool.or_eq_true, decide_eq_true_eq]; omega)]
  case length =>
    rw [hwrite, mbxWriteGo, if_neg (by simp [hbound]), if_neg (by simp), if_neg (by simp [hgo]), if_neg (by simp [hset]),
      if_pos (by simpa using hlen)]
  case last =>
    have hsender : mbxSender (setGo s n false) n = mbxSender s n := fld_congr (setGo_regs s n false _ mbxGoReg_setup.1) _ _
    rw [hread, mbxRead, if_neg (by simp [hbound]), if_neg (by simp), if_pos (by simp [hgo, hlast])]
    simp only [hsender, if_neg hlocal]
  case other =>
    rw [hread, mbxRead, if_neg (by simp [hbound]), if_neg (by simp), if_neg (by simp [hother])]

theorem mailboxOverFabric : Claim.MailboxOverFabric := by
  intro s via src n hclk hup
  refine ⟨fun msg => ?post, fun c => ?clear, ?withdraw⟩
  case post =>
    intro b hbound hsender hgo hmin hmax
    have hrun : exec (.mbxPost via src n msg) s = .next (holding s
        (if !(mbxBound b n && mbxSender b n == 0x80 + src) || mbxGo b n || msg.length < 8 || 16 < msg.length then mbxFlag b n 5
         else Machine.mbxPost ((msg.zip (List.range 16)).foldl (fun s p => wrN s (MBX_CH_MSG n p.2) p.1) b) n msg.length)) := by
      show execMbxPost via src n msg s = _
      rw [execMbxPost, whileClocked_running _ hclk, delivered, if_pos hup]
    rw [hrun, if_neg]
    simp [hbound, hsender, hgo]
    omega
  case clear =>
    intro b hfound
    show execMbxGoClear via src n 0 s = _
    rw [execMbxGoClear, whileClocked_running _ hclk, delivered, if_pos hup]
    simp only [if_true, show (List.range 16).find? (fun c => mbxForwards (frameIn s via src tyMbxGoClear [n, 0]) c &&
      mbxReceiver (frameIn s via src tyMbxGoClear [n, 0]) c == 0x80 + src && mbxPeer (frameIn s via src tyMbxGoClear [n, 0]) c == n &&
      mbxGo (frameIn s via src tyMbxGoClear [n, 0]) c) = some c from hfound]
    rfl
  case withdraw =>
    intro b hgo hbound hsender
    show execMbxGoClear via src n 1 s = _
    rw [execMbxGoClear, whileClocked_running _ hclk, delivered, if_pos hup, if_neg (by decide)]
    refine congrArg (fun t => Host.Outcome.next (holding s t)) (if_pos ?_)
    simpa only [Bool.and_eq_true, beq_iff_eq] using ⟨⟨hgo, hbound⟩, hsender⟩

section
variable {s : State} {n : Nat}

/-- A channel cleared for a new binding (R528). -/
def channelCleared (s : State) (n : Nat) : State :=
  wrN (wrN ((List.range 16).foldl (fun s r => wrN s (MBX_CH_MSG n r) 0) s) (MBX_CH_STS n) 0) (MBX_CH_GO n) 0

theorem channelCleared_same (s : State) (n : Nat) : Same [.regs] s (channelCleared s n) :=
  ((Same.foldl _ (fun t r => wrN_same t (MBX_CH_MSG n r) 0) (List.range 16) s).trans (wrN_same _ _ _)).trans (wrN_same _ _ _)

theorem channelCleared_sts (s : State) (n : Nat) : rdN (channelCleared s n) (MBX_CH_STS n) = 0 := by
  rw [channelCleared, rdN_congr (rd_wrN_other _ (by simp only [MBX_CH_STS, MBX_CH_GO]; omega)), rdN_wrN_same]
  rfl

theorem identOk_lt {x : Nat} (h : identOk x = true) : x < 0xA0 := by
  simp only [identOk, Bool.or_eq_true, Bool.and_eq_true, beq_iff_eq, decide_eq_true_eq] at h
  omega

/-- The locks of a mask of channels set (R529). -/
def channelsLocked (s : State) (mask : Nat) : State :=
  setFld ((bitList mask 16).foldl (fun s n => setFlag s (MBX_CH_BIND n) 30 true) s) MBX_LOCKED 15 0
    (rdN ((bitList mask 16).foldl (fun s n => setFlag s (MBX_CH_BIND n) 30 true) s) MBX_LOCKED ||| mask)

theorem mem_bitList {m i k : Nat} : i ∈ bitList m k ↔ i < k ∧ m.testBit i = true := by simp [bitList]

/-- A flag set over a list of registers of distinct places is set in each of them. -/
theorem flag_foldl_setFlag {l : List Nat} {n : Nat} (r : Nat → Nat) (i : Nat) (hi : i < 32)
    (h : n ∈ l ∨ flag s (r n) i = true) : flag (l.foldl (fun s n => setFlag s (r n) i true) s) (r n) i = true := by
  induction l generalizing s with
  | nil => exact h.resolve_left (by simp)
  | cons m l ih =>
    refine ih ?_
    by_cases hm : r n = r m
    · exact .inr (by rw [hm]; exact flag_setFlag_same _ _ _ hi)
    · rcases h with h | h
      · rcases List.mem_cons.mp h with h | h
        · exact absurd (congrArg r h) hm
        · exact .inl h
      · exact .inr ((flag_congr (rd_setFlag_other _ _ hm) i).trans h)

theorem channelsLocked_spec {mask : Nat} (hn : n < 16) (hbit : mask.testBit n = true) :
    flag (channelsLocked s mask) (MBX_CH_BIND n) 30 = true := by
  rw [channelsLocked, flag_congr (rd_setFld_other _ _ _ (by simp only [MBX_CH_BIND, MBX_LOCKED]; omega))]
  exact flag_foldl_setFlag MBX_CH_BIND 30 (by decide) (.inl (mem_bitList.mpr ⟨hn, hbit⟩))

theorem channelsLocked_same (s : State) (mask : Nat) : Same [.regs] s (channelsLocked s mask) :=
  (Same.foldl _ (fun t n => setFlag_same t (MBX_CH_BIND n) 30 true) (bitList mask 16) s).trans (setFld_same _ _ _ _ _)

end

theorem mailboxCommands : Claim.MailboxCommands := by
  intro s h hs a
  refine ⟨fun n x y peer t hn hx hy hxy hlocal hxo hyo hpeer htmin htmax hfree hidle hp => ?bind, fun n hn hfree hidle hp => ?unbind,
    fun n hn hlocked hp => ?locked, fun mask hmin hmax hp => ?lock⟩
  case bind =>
    have hfree' : flag (accept s h) (MBX_CH_BIND n) 30 = false := hfree
    have hidle' : mbxGo (accept s h) n = false := hidle
    have hxo' : x ≠ 128 + ownAddr (accept s h) := hxo
    have hyo' : y ≠ 128 + ownAddr (accept s h) := hyo
    have hsame := (channelCleared_same a n).trans ((wrN_same _ (MBX_CH_BIND n) (2 ^ 31 + x * 65536 + y * 256 + peer)).trans
      (wrN_same _ (MBX_CH_TIMEOUT n) t))
    show ∃ u r, execMbxBind h n 0 x y peer t s = _ ∧ _
    rw [execMbxBind, starts_body hs hp (by simp [hn, hx, hy, hxy, hlocal, hxo', hyo', hpeer, htmin, htmax, hfree', hidle'])]
    refine ⟨wrN (wrN (channelCleared a n) (MBX_CH_BIND n) (2 ^ 31 + x * 65536 + y * 256 + peer)) (MBX_CH_TIMEOUT n) t, _, rfl, ?_, ?_, ?_, ?_, ?_⟩
    · have hword : 2 ^ 31 + x * 65536 + y * 256 + peer < 2 ^ 32 := by
        have := identOk_lt hx
        have := identOk_lt hy
        omega
      rw [rdN_congr (rd_wrN_other _ (by simp only [MBX_CH_BIND, MBX_CH_TIMEOUT]; omega)), rdN_wrN_same, Nat.mod_eq_of_lt hword]
    · rw [rdN_wrN_same]
      exact Nat.mod_eq_of_lt (by omega)
    · rw [rdN_congr (rd_wrN_other _ (by simp only [MBX_CH_STS, MBX_CH_TIMEOUT]; omega)),
        rdN_congr (rd_wrN_other _ (by simp only [MBX_CH_STS, MBX_CH_BIND]; omega)), channelCleared_sts]
    · exact ⟨hsame.sram, hsame.dram, hsame.host, hsame.sramLost, hsame.dramLost⟩
    · exact hsame.lanes
  case unbind =>
    have hfree' : flag (accept s h) (MBX_CH_BIND n) 30 = false := hfree
    have hidle' : mbxGo (accept s h) n = false := hidle
    have hunbound : rd (wr (wrN (channelCleared a n) (MBX_CH_BIND n) 0) (MBX_CH_TIMEOUT n) (regReset (MBX_CH_TIMEOUT n))) (MBX_CH_BIND n) = 0 := by
      rw [rd_wr_other _ (by simp only [MBX_CH_BIND, MBX_CH_TIMEOUT]; omega), rd_wrN_same]
      rfl
    refine ⟨wr (wrN (channelCleared a n) (MBX_CH_BIND n) 0) (MBX_CH_TIMEOUT n) (regReset (MBX_CH_TIMEOUT n)), ?_, ?_⟩
    · show execMbxBind h n 1 0 0 0 0 s = _
      rw [execMbxBind, starts_body hs hp (by simp [hn, hfree', hidle'])]
      show Host.Outcome.next (holding s (complete _ h 0x0A01 .ok
        (rdN (wr (wrN (channelCleared a n) (MBX_CH_BIND n) 0) (MBX_CH_TIMEOUT n) (regReset (MBX_CH_TIMEOUT n))) (MBX_CH_BIND n)) 0 0 0)) = _
      rw [rdN, hunbound]
      rfl
    · show (bitsOf (rd _ (MBX_CH_BIND n)) 31 31 == 1) = false
      rw [hunbound]
      rfl
  case locked =>
    have hlocked' : flag (accept s h) (MBX_CH_BIND n) 30 = true := hlocked
    show execMbxBind h n 1 0 0 0 0 s = _
    rw [execMbxBind, starts_fails (st := .locked) (k := false) hs hp (by decide) (by simp [hn, hlocked'])]
    rfl
  case lock =>
    have hsame := channelsLocked_same a mask
    show ∃ u r, execMbxLock h mask s = _ ∧ _
    rw [execMbxLock, starts_body hs hp (by simp [hmin, hmax])]
    exact ⟨channelsLocked a mask, _, rfl, fun n hn hbit => channelsLocked_spec hn hbit,
      ⟨hsame.sram, hsame.dram, hsame.host, hsame.sramLost, hsame.dramLost⟩, hsame.lanes⟩

/-- Settles O42, by its four parts. -/
theorem mailboxes : Obligations.Mailboxes := ⟨mailboxMessageWrite, mailboxPostAndRead, mailboxOverFabric, mailboxCommands⟩

/-! ### The service port and the watchdogs -/

section
variable {s : State}

/-- What a bus reset leaves of the service port (R526, R533). -/
def svcEmptied (s : State) : State := { s with svc := { s.svc with sq := [], bulkIn := [], ctrlIn := [], stalled := false } }

theorem svcEmptied_same (s : State) : Same [.svc] s (svcEmptied s) := by
  intro q hq; cases q <;> first | rfl | exact absurd (by decide) hq

/-- The port's registers after a bus reset or a removal (R531). -/
def svcLine (s : State) (removed : Bool) (speed : Nat) : State :=
  if removed then setFld (setFlag (setFlag s SVC_STS 2 false) SVC_STS 3 false) SVC_STS 1 0 0
  else satIncF (setFld (setFlag (setFlag s SVC_STS 2 false) SVC_STS 3 true) SVC_STS 1 0 speed) SVC_STS 31 16

theorem svcLine_same (s : State) (removed : Bool) (speed : Nat) : Same [.regs] s (svcLine s removed speed) := by
  unfold svcLine
  split
  · exact ((setFlag_same _ _ _ _).trans (setFlag_same _ _ _ _)).trans (setFld_same _ _ _ _ _)
  · exact (((setFlag_same _ _ _ _).trans (setFlag_same _ _ _ _)).trans (setFld_same _ _ _ _ _)).trans (satIncF_same _ _ _ _)

/-- Ring 15 emptied (R533). -/
def ring15Emptied (s : State) : State :=
  wr (wr (setFld (voidRing s 15) (HIF_SQ_STS 15) 24 16 0) (HIF_CQ_TAIL 15) (regReset (HIF_CQ_TAIL 15))) (HIF_SQ_HEAD 15) 0

theorem ring15Emptied_same (s : State) : Same [.regs, .running, .hif] s (ring15Emptied s) :=
  ((((voidRing_same s 15).mono (by decide)).trans ((setFld_same _ _ _ _ _).mono (by decide))).trans ((wr_same _ _ _).mono (by decide))).trans
    ((wr_same _ _ _).mono (by decide))

theorem exec_usbBusReset (hclk : Clocked s) (removed : Bool) (speed : Nat) : exec (.usbBusReset removed speed) s =
    .next (holding s (mbxReset (svcEmptied (ring15Emptied (svcLine s removed speed))) 1)) := by
  show execUsbBusReset removed speed s = _
  rw [execUsbBusReset, whileClocked_running _ hclk]
  cases removed <;> rfl

/-- Packets taken from bulk OUT and counted (R532). -/
def packetsTaken (s : State) (k : Nat) (data : List Byte) (short : Bool) : State :=
  let t := wrN { setFlag s SVC_STS 2 true with svc := { s.svc with sq := s.svc.sq ++ packets64 k data } } SVC_CMDS
    (satN (2 ^ 32 - 1) (rdN (setFlag s SVC_STS 2 true) SVC_CMDS + k))
  if short then setFlag t SVC_STS 8 true else t

theorem packetsTaken_same (s : State) (k : Nat) (data : List Byte) (short : Bool) : Same [.regs, .svc] s (packetsTaken s k data short) := by
  have htaken : Same [.svc] (setFlag s SVC_STS 2 true)
      { setFlag s SVC_STS 2 true with svc := { s.svc with sq := s.svc.sq ++ packets64 k data } } := by
    intro q hq; cases q <;> first | rfl | exact absurd (by decide) hq
  have hcounted := (((setFlag_same s SVC_STS 2 true).mono (qs := [.regs, .svc]) (by decide)).trans (htaken.mono (by decide))).trans
    ((wrN_same _ SVC_CMDS (satN (2 ^ 32 - 1) (rdN (setFlag s SVC_STS 2 true) SVC_CMDS + k))).mono (by decide))
  unfold packetsTaken
  cases short
  · exact hcounted
  · exact hcounted.trans ((setFlag_same _ _ _ _).mono (by decide))

theorem packetsTaken_sq (s : State) (k : Nat) (data : List Byte) (short : Bool) :
    (packetsTaken s k data short).svc.sq = s.svc.sq ++ packets64 k data := by cases short <;> rfl

theorem exec_bulkOut_running (hclk : Clocked s) (hvbus : vbus s = true) (hboot : bootSt s = 5) (data : List Byte) :
    exec (.bulkOut data) s = .next (holding s (if 64 < s.svc.sq.length + data.length / 64 then setFlag s SVC_STS 2 true
      else packetsTaken s (data.length / 64) data (data.length % 64 != 0))) := by
  have hboot' : bootSt (setFlag s SVC_STS 2 true) = 5 := (fld_congr (rd_setFlag_other _ _ (by decide)) _ _).trans hboot
  show execBulkOut data s = _
  rw [execBulkOut, whileClocked_running _ hclk]
  simp only [hvbus, Bool.not_true, Bool.false_eq_true, if_false, hboot', if_true]
  by_cases hpart : data.length % 64 = 0
  · simp only [packetsTaken, hpart, if_true, bne_self_eq_false, Bool.false_eq_true, if_false]
    rfl
  · simp only [packetsTaken, hpart, if_false, bne_iff_ne, ne_eq, not_false_eq_true, if_true]
    rfl

end

theorem servicePort : Claim.ServicePort := by
  intro s off data hclk
  refine ⟨fun hnone => ⟨fun len => ?_, ?_, ?_⟩, fun hvbus => ⟨fun len hrange => ?read, fun len hrange => ?outside, fun hrange => ?write,
    fun hboot hroom => ?take, fun hboot hfull => ?nak⟩, fun removed speed => ?reset⟩
  · show execPoolRead off len s = _
    rw [execPoolRead, whileClocked_running _ hclk, if_pos (by simp [hnone])]
  · show execPoolWrite off data s = _
    rw [execPoolWrite, whileClocked_running _ hclk, if_pos (by simp [hnone])]
  · show execBulkOut data s = _
    rw [execBulkOut, whileClocked_running _ hclk, if_pos (by simp [hnone])]
  case read =>
    show execPoolRead off len s = _
    rw [execPoolRead, whileClocked_running _ hclk, if_neg (by simp [hvbus]), if_pos hrange]
  case outside =>
    show Does (execPoolRead off len s) s _
    refine does_clocked hclk ?_
    rw [if_neg (by simp [hvbus]), if_neg (by simp [hrange])]
    exact ⟨rfl, rfl, rfl, rfl, rfl, rfl⟩
  case write =>
    show Does (execPoolWrite off data s) s _
    refine does_clocked hclk ?_
    rw [if_neg (by simp [hvbus]), if_pos hrange]
    exact ⟨rfl, rfl, rfl, rfl⟩
  case take =>
    rw [exec_bulkOut_running hclk hvbus hboot, if_neg (by omega)]
    have hsame := packetsTaken_same s (data.length / 64) data (data.length % 64 != 0)
    exact ⟨_, rfl, packetsTaken_sq _ _ _ _, hsame.sram, hsame.dram, hsame.host, hsame.sramLost, hsame.dramLost⟩
  case nak =>
    rw [exec_bulkOut_running hclk hvbus hboot, if_pos hfull]
    exact ⟨_, rfl, rfl, rfl, rfl, rfl, rfl, rfl, rfl⟩
  case reset =>
    rw [exec_usbBusReset hclk]
    have hkept : Same [.regs, .running, .hif, .svc] s (svcEmptied (ring15Emptied (svcLine s removed speed))) :=
      (((svcLine_same s removed speed).mono (by decide)).trans ((ring15Emptied_same _).mono (by decide))).trans ((svcEmptied_same _).mono (by decide))
    have hsvc : (svcEmptied (ring15Emptied (svcLine s removed speed))).svc.sq = [] ∧
        (svcEmptied (ring15Emptied (svcLine s removed speed))).svc.bulkIn = [] ∧
        (svcEmptied (ring15Emptied (svcLine s removed speed))).svc.stalled = false := ⟨rfl, rfl, rfl⟩
    generalize svcEmptied (ring15Emptied (svcLine s removed speed)) = t at *
    have hmbx := mbxReset_same t 1
    have hall := (hkept.mono (qs := [.regs, .running, .hif, .svc, .fab, .mbxDue]) (by decide)).trans (hmbx.mono (by decide))
    obtain ⟨hsq, hbulk, hstalled⟩ := hsvc
    have hkeeps := hmbx.svc
    exact ⟨_, rfl, by rw [hkeeps, hsq], by rw [hkeeps, hbulk], by rw [hkeeps, hstalled],
      ⟨hall.sram, hall.dram, hall.host, hall.sramLost, hall.dramLost⟩, hall.lanes, hall.seq⟩

/-- A watchdog that fires: the conductor reset as a master and recorded, its commands ended, and a fault where it fired again within 1 s. -/
theorem exec_conductorWatchdog {s : State} (hclk : Clocked s) (c : Nat) (cmds : List (Nat × Nat)) {again : Bool} :
    let e := event (mbxReset s (0x10 + c)) (srcMaster (0x10 + c)) 0x1A02 (leBytes 1 c)
    let b : State := { e with evr := { e.evr with wdLast := mset e.evr.wdLast c (now e) } }
    ((match e.evr.wdLast.find? (fun p => p.1 == c) with | some p => decide (now e < p.2 + 1000000000) | none => false) = again) →
    exec (.conductorWatchdog c cmds) s = .next (holding s (
      let t := cmds.foldl (fun s k => if isRunning s k.1 k.2 && (dutyOf k.1).all (· == c) then
        event (finishRun s k.1 k.2 .internal 0 0 0 0) (srcMaster (0x10 + c)) 0x1104 [] else s) b
      if again then raiseFault t clsFatal 0x0401 (srcMaster (0x10 + c)) [] else t)) := by
  intro e b hagain
  show execConductorWatchdog c cmds s = _
  rw [execConductorWatchdog, whileClocked_running _ hclk, ← hagain] <;> rfl

theorem conductorWatchdogFires : Claim.ConductorWatchdogFires := by
  intro s c hclk hc e b
  refine ⟨fun hfirst => ⟨?alone, fun op key hrun hduty => ?duty⟩, fun t hlast hagain => ?again⟩
  case alone =>
    rw [exec_conductorWatchdog hclk c [] (again := false) (by rw [hfirst])]
    rfl
  case duty =>
    rw [exec_conductorWatchdog hclk c [(op, key)] (again := false) (by rw [hfirst])]
    have hmine : (isRunning b op key && (dutyOf op).all (· == c)) = true := by rw [hrun, hduty]; rfl
    simp only [List.foldl_cons, List.foldl_nil, Bool.false_eq_true, if_false]
    exact congrArg (fun t => Host.Outcome.next (holding s t)) (if_pos hmine)
  case again =>
    rw [exec_conductorWatchdog hclk c [] (again := true) (by rw [hlast]; exact decide_eq_true hagain)]
    rfl

/-- Settles O43, by its two parts. -/
theorem servicePortAndWatchdog : Obligations.ServicePortAndWatchdog := ⟨servicePort, conductorWatchdogFires⟩

end Sys2Proof.Proofs

/-! PROOFS. The operator panel and its lighting (R536 to R549). -/

namespace Sys2Proof.Proofs

-- One theorem after the other: elaborated at once, their threads outgrow the memory that a check may take.
set_option Elab.async false

open Sys2Proof.Machine Sys2Proof.Laws

/-! ### What a sample of the inputs can change -/

section
variable {s : State}

/-- Parts of the state that the panel's work changes. -/
abbrev pnlParts : List Part := [.regs, .panel]

theorem withPanel_same (s : State) (p : Panel) : Same pnlParts s { s with panel := p } := by
  intro q hq; cases q <;> first | rfl | exact absurd (by decide) hq

theorem setPnlIn_same (s : State) (i : Nat) (x : PnlIn) : Same pnlParts s (setPnlIn s i x) := withPanel_same s _

theorem setFlag_pnl (s : State) (a i : Nat) (b : Bool) : Same pnlParts s (setFlag s a i b) := (setFlag_same s a i b).mono (by decide)

theorem setFld_pnl (s : State) (a hi lo v : Nat) : Same pnlParts s (setFld s a hi lo v) := (setFld_same s a hi lo v).mono (by decide)

theorem pnlEvent_same (s : State) (kind num : Nat) : Same pnlParts s (pnlEvent s kind num) :=
  (((wrN_same s _ _).trans (wrN_same _ _ _)).mono (by decide)).trans (withPanel_same _ _)

theorem padSample_same (s : State) (p count : Nat) : Same pnlParts s (padSample s p count).1 :=
  ((setPnlIn_same s _ _).trans (setFld_pnl _ _ _ _ _)).trans (setFld_pnl _ _ _ _ _)

theorem debounce_same (s : State) (i : Nat) (level : Bool) : Same pnlParts s (debounce s i level).1 := by
  unfold debounce
  simp only
  split
  · exact setPnlIn_same _ _ _
  · split
    · exact setPnlIn_same _ _ _
    · exact (setPnlIn_same _ _ _).trans (setFlag_pnl _ _ _ _)

theorem keySample_same (s : State) (k : Nat) (level : Bool) : Same pnlParts s (keySample s k level) := by
  have hd := debounce_same s k level
  unfold keySample
  generalize debounce s k level = d at *
  obtain ⟨t, chg⟩ := d
  simp only at hd ⊢
  have hheld := hd.trans (setPnlIn_same t k { pnlIn t k with active := (pnlIn t k).active + 1 })
  repeat' split
  · exact hd.trans (pnlEvent_same _ _ _)
  · exact hd.trans (pnlEvent_same _ _ _)
  · exact hd
  · exact hheld
  · exact hheld.trans (pnlEvent_same _ _ _)
  · exact hheld.trans (pnlEvent_same _ _ _)
  · exact hheld

theorem touchSample_same (s : State) (p count : Nat) : Same pnlParts s (touchSample s p count) := by
  have hp := padSample_same s p count
  unfold touchSample
  generalize padSample s p count = x at *
  obtain ⟨t, touched⟩ := x
  simp only at hp ⊢
  have hd := hp.trans (debounce_same t (16 + p) touched)
  generalize debounce t (16 + p) touched = d at *
  obtain ⟨u, chg⟩ := d
  simp only at hd ⊢
  repeat' split
  · exact hd.trans (pnlEvent_same _ _ _)
  · exact hd.trans (pnlEvent_same _ _ _)
  · exact hd
  · exact ((((hd.trans (setFld_pnl _ _ _ _ _)).trans (setPnlIn_same _ _ _)).trans (setFlag_pnl _ _ _ _)).trans (pnlEvent_same _ _ _)).trans
      (pnlEvent_same _ _ _)
  · exact hd.trans (setPnlIn_same _ _ _)

theorem plugSample_same (s : State) (p : Nat) (level : Bool) : Same pnlParts s (plugSample s p level) := by
  have hd := debounce_same s (24 + p) level
  unfold plugSample
  generalize debounce s (24 + p) level = d at *
  obtain ⟨t, chg⟩ := d
  simp only at hd ⊢
  repeat' split
  · exact hd.trans (pnlEvent_same _ _ _)
  · exact hd.trans (pnlEvent_same _ _ _)
  · exact hd

theorem pnlIdle_same (s : State) (i : Nat) : Same pnlParts s (pnlIdle s i) := (setPnlIn_same s _ _).trans (setFlag_pnl _ _ _ _)

/-- The three kinds of inputs sampled (R536). -/
def inputsSampled (s : State) (keys plugs : Nat) (counts : List Nat) : State :=
  let s := { s with panel := { s.panel with sinceEvt := s.panel.sinceEvt + 1 } }
  let s := (List.range 16).foldl (fun s k =>
    if pnlEn s k then keySample s k (keys.testBit k != flag s PNL_KEY_CFG k) else pnlIdle s k) s
  let s := (List.range 8).foldl (fun s p =>
    if pnlEn s (16 + p) then touchSample s p (counts.getD p 0) else pnlIdle s (16 + p)) s
  (List.range 8).foldl (fun s p =>
    if pnlEn s (24 + p) then plugSample s p (plugs.testBit p != flag s PNL_PLUG_CFG p) else pnlIdle s (24 + p)) s

theorem inputsSampled_same (s : State) (keys plugs : Nat) (counts : List Nat) : Same pnlParts s (inputsSampled s keys plugs counts) := by
  refine Same.trans (Same.trans (Same.trans (withPanel_same s _) (Same.foldl _ (fun t k => ?_) _ _)) (Same.foldl _ (fun t k => ?_) _ _))
    (Same.foldl _ (fun t k => ?_) _ _)
  · split
    · exact keySample_same _ _ _
    · exact pnlIdle_same _ _
  · split
    · exact touchSample_same _ _ _
    · exact pnlIdle_same _ _
  · split
    · exact plugSample_same _ _ _
    · exact pnlIdle_same _ _

/-! ### Recurring work -/

theorem pnlDue_due {w : PnlWork} (h : panelDue s w = true) (f : State → State) : pnlDue s w f = f (panelDone s w) := if_pos h

theorem pnlDue_early {w : PnlWork} (h : panelDue s w = false) (f : State → State) : pnlDue s w f = s :=
  if_neg (fun hd => Bool.false_ne_true (h.symm.trans hd))

theorem panelDone_same (s : State) (w : PnlWork) : Same pnlParts s (panelDone s w) := withPanel_same s _

theorem exec_panelSample (hclk : Clocked s) (keys plugs : Nat) (counts : List Nat) : exec (.panelSample keys plugs counts) s =
    .next (holding s (pnlDue s .sample fun t => inputsSampled t keys plugs counts)) :=
  (show execPanelSample keys plugs counts s = _ from whileClocked_running _ hclk)

/-- Pattern engine `g` one tick on, with what its registers show (R542). -/
def engineTicked (s : State) (g : Nat) : State :=
  let e := (engine s g).tick
  let s := { s with panel := { s.panel with engines := mset s.panel.engines g e } }
  let a := PNL_ENG_STS g
  let pos := if e.pat.mode = 3 then chasePos e.pat e.t else if e.pat.mode = 4 then e.step else 0
  setFld (setFld (setFld s a 31 24 e.pat.mode) a 23 16 pos) a 15 0 (patLevel e.pat e.t e.step)

theorem engine_engineTicked_same (s : State) (g : Nat) : engine (engineTicked s g) g = (engine s g).tick := mget_mset_same _ _ _ _

theorem engine_engineTicked_other {g j : Nat} (h : j ≠ g) : engine (engineTicked s g) j = engine s j := mget_mset_other _ _ _ _ _ h

/-- Every engine in a list without repetitions ticks once. -/
theorem engine_foldl_ticked {l : List Nat} (hl : l.Nodup) (s : State) (g : Nat) :
    engine (l.foldl engineTicked s) g = if g ∈ l then (engine s g).tick else engine s g := by
  induction l generalizing s with
  | nil => rfl
  | cons j l ih =>
    obtain ⟨hj, hl⟩ := List.nodup_cons.mp hl
    rw [List.foldl_cons, ih hl]
    by_cases hg : g = j
    · subst hg
      rw [if_neg hj, if_pos List.mem_cons_self, engine_engineTicked_same]
    · simp only [engine_engineTicked_other hg, List.mem_cons, hg, false_or]

theorem exec_patternTick (hclk : Clocked s) : exec .patternTick s =
    .next (holding s (pnlDue s .pattern fun t => (List.range 4).foldl engineTicked t)) :=
  (show execPatternTick s = _ from whileClocked_running _ hclk)

end

theorem panelEvents : Claim.PanelEvents := by
  intro s hclk
  refine ⟨fun keys plugs counts => ?sample, fun keys plugs counts hearly => ?early, fun hdue => ?pattern, fun c mv hdark => ?dark,
    fun shorts hdue => ?round, fun m hoff => ?off, fun m hon hgood hdue => ?failed⟩
  case sample =>
    rw [exec_panelSample hclk]
    have hsame : Same pnlParts s (pnlDue s .sample fun t => inputsSampled t keys plugs counts) := by
      cases hdue : panelDue s .sample
      · rw [pnlDue_early hdue]
        exact Same.refl _ _
      · rw [pnlDue_due hdue]
        exact (panelDone_same s _).trans (inputsSampled_same _ _ _ _)
    exact ⟨_, rfl, ⟨hsame.sram, hsame.dram, hsame.host, hsame.sramLost, hsame.dramLost⟩, hsame.lanes, hsame.axes⟩
  case early => rw [exec_panelSample hclk, pnlDue_early hearly]
  case pattern =>
    rw [exec_patternTick hclk, pnlDue_due hdue]
    refine ⟨_, rfl, fun g hg => ?_⟩
    rw [engine_foldl_ticked List.nodup_range, if_pos (List.mem_range.mpr hg)]
    rfl
  case dark =>
    show execLedOnTime c mv s = _
    rw [execLedOnTime, whileClocked_running _ hclk]
    simp only [hdark]
    rfl
  case round =>
    show execNeighbourRound shorts s = _
    rw [execNeighbourRound, whileClocked_running _ hclk, pnlDue_due hdue]
  case off =>
    show execColourReading true m s = _
    rw [execColourReading, whileClocked_running _ hclk, if_pos (by simp [hoff])]
  case failed =>
    show execColourReading false m s = _
    rw [execColourReading, whileClocked_running _ hclk, if_neg (by simp [hon]), pnlDue_due hdue]
    exact congrArg (fun t => Host.Outcome.next (holding s t)) (if_neg (fun h => Bool.false_ne_true (hgood.symm.trans h)))

/-! ### The commands of the panel -/

section
variable {s : State}

/-- The scales of the colour loop at their start (R545). -/
def scalesReset (s : State) : State := (List.range 3).foldl (fun s i => setFld s (PNL_COLOUR i) 31 16 32768) s

/-- A flag outside the registers that a fold writes keeps its value. -/
theorem rd_foldl_setFld_other {l : List Nat} {a hi lo v : Nat} (r : Nat → Nat) (h : ∀ i ∈ l, a ≠ r i) :
    rd (l.foldl (fun s i => setFld s (r i) hi lo v) s) a = rd s a := by
  induction l generalizing s with
  | nil => rfl
  | cons i l ih =>
    rw [List.foldl_cons, ih (fun j hj => h j (List.mem_cons_of_mem _ hj)), rd_setFld_other _ _ _ (h i List.mem_cons_self)]

/-- A colour loop switched off (R546). -/
def colourOff (s : State) : State :=
  { scalesReset (setFlag s PNL_STS 2 false) with
    panel := { (scalesReset (setFlag s PNL_STS 2 false)).panel with chans := [], target := [], gain := 0, limited := false } }

theorem colourOff_flag (s : State) : flag (colourOff s) PNL_STS 2 = false := by
  have hother : rd (colourOff s) PNL_STS = rd (setFlag s PNL_STS 2 false) PNL_STS :=
    rd_foldl_setFld_other PNL_COLOUR (fun i _ => by simp only [PNL_STS, PNL_COLOUR]; omega)
  rw [flag_congr hother, flag_setFlag_same _ _ _ (by decide)]

/-- STRETCH of every LED channel as a mask says (R547). -/
def stretchSet (s : State) (mask : Nat) : State := (List.range 32).foldl (fun s c => setFlag s (PNL_LED_STS c) 20 (mask.testBit c)) s

theorem stretchSet_same (s : State) (mask : Nat) : Same [.regs] s (stretchSet s mask) :=
  Same.foldl _ (fun t c => setFlag_same t (PNL_LED_STS c) 20 (mask.testBit c)) _ s

theorem ledSts_inj {c d : Nat} (h : PNL_LED_STS c = PNL_LED_STS d) : c = d := by simp only [PNL_LED_STS] at h; omega

/-- A flag that a fold sets in each register of a list, by a value of its own, has it there. -/
theorem flag_foldl_setFlag_each {l : List Nat} {n i : Nat} (r : Nat → Nat) (hr : ∀ c d, r c = r d → c = d) (f : Nat → Bool) (hi : i < 32)
    (h : n ∈ l ∨ flag s (r n) i = f n) : flag (l.foldl (fun s c => setFlag s (r c) i (f c)) s) (r n) i = f n := by
  induction l generalizing s with
  | nil => exact h.resolve_left List.not_mem_nil
  | cons m l ih =>
    refine ih ?_
    by_cases hm : n = m
    · subst hm
      exact .inr (flag_setFlag_same _ _ _ hi)
    · refine h.imp (fun hmem => (List.mem_cons.mp hmem).resolve_left hm) (fun hflag => ?_)
      exact (flag_congr (rd_setFlag_other _ _ (fun he => hm (hr _ _ he))) i).trans hflag

theorem stretchSet_flag {mask c : Nat} (hc : c < 32) : flag (stretchSet s mask) (PNL_LED_STS c) 20 = mask.testBit c :=
  flag_foldl_setFlag_each PNL_LED_STS (fun _ _ => ledSts_inj) mask.testBit (by decide) (.inl (List.mem_range.mpr hc))

end

theorem panelCommands : Claim.PanelCommands := by
  intro s h hs a
  refine ⟨fun v0 v1 v2 v3 hzero hsmall hp => ⟨_, ?inputs, rfl⟩, fun v0 v1 hzero hsmall hp => ⟨_, ?lighting, rfl⟩,
    fun c v0 v1 hc hzero hsmall hp => ⟨_, ?channel, rfl⟩, fun e flags nchan list hi lo tA tB n steps he hflags htA htB hp => ?pattern,
    fun m hm hp => ?colour, fun mask shorts hp => ?stretch⟩
  case inputs =>
    show execPanelSet h 0 0 v0 v1 v2 v3 s = _
    rw [execPanelSet, starts_body hs hp (by simp [hzero, hsmall])]
    rfl
  case lighting =>
    show execPanelSet h 1 0 v0 v1 0 0 s = _
    rw [execPanelSet, starts_body hs hp (by simp [hzero, hsmall])]
    rfl
  case channel =>
    show execPanelSet h 2 c v0 v1 0 0 s = _
    rw [execPanelSet, starts_body hs hp (by simp [hc, hzero, hsmall])]
    rfl
  case pattern =>
    show Completes (execLedPatternLoad h e 1 flags nchan list hi lo tA tB n steps s) s h _ _ _ _ _ _ _
    rw [execLedPatternLoad, if_neg (by decide : ¬ (1 : Nat) = 4), starts_body hs hp (by simp [he, hflags, htA, htB])]
    refine ⟨_, rfl, ?_, rfl, rfl, rfl, rfl, rfl, rfl⟩
    exact congrArg Engine.next (mget_mset_same _ _ _ _)
  case colour =>
    refine ⟨colourOff a, ?_, rfl, rfl, colourOff_flag _⟩
    show execLedColourTarget h 0 0 0 0 0 0 0 m 0 s = _
    rw [execLedColourTarget, starts_body hs hp (by simpa using hm)]
    rfl
  case stretch =>
    have hsame := stretchSet_same a mask
    refine ⟨stretchSet a mask, ?_, fun c hc => stretchSet_flag hc, hsame.sram, hsame.dram, hsame.host, hsame.sramLost, hsame.dramLost⟩
    show execLedDiag h 1 mask shorts s = _
    rw [execLedDiag, starts_body hs hp (by simp)]
    rfl

/-- Settles O44: the panel's work stays within its registers and its own part of the state, and each command within its settings. -/
theorem panel : Obligations.Panel := ⟨panelCommands, panelEvents⟩

end Sys2Proof.Proofs

/-! PROOFS. The layer of the stepper axes (R379 to R411), and an axis fault (R396, R405). -/

namespace Sys2Proof.Proofs

-- One theorem after the other: elaborated at once, their threads outgrow the memory that a check may take.
set_option Elab.async false

open Sys2Proof.Machine Sys2Proof.Laws

/-! ### The end of a command -/

/-- From `s` to `t` commands ended: only what a completion writes changed. -/
abbrev Ended (s t : State) : Prop := Only (.running :: endParts) endReg s t

section
variable {s t : State} {k : Nat}

theorem finishRun_ended (s : State) (op key : Nat) (st : Status) (r0 r1 r2 ex : Nat) : Ended s (finishRun s op key st r0 r1 r2 ex) :=
  ⟨finishRun_same _ _ _ _ _ _ _ _, finishRun_regs _ _ _ _ _ _ _ _⟩

theorem finishMove_ended (s : State) (k : Nat) (st : Status) (ending code : Nat) : Ended s (finishMove s k st ending code) :=
  ⟨finishMove_same _ _ _ _ _, finishMove_regs _ _ _ _ _⟩

theorem finishStops_ended (s : State) : Ended s (finishStops s) := ⟨finishStops_same _, finishStops_regs _⟩

theorem Ended.axis (h : Ended s t) (k : Nat) : axis t k = axis s k := axis_congr h.same.axes k

/-- A register of an axis. -/
def axisReg (a : Nat) : Bool := decide (0x1C0000 ≤ a) && decide (a < 0x1C2010)

theorem endReg_axisReg {a : Nat} (h : axisReg a = true) : endReg a = false := by
  simp only [axisReg, Bool.and_eq_true, decide_eq_true_eq] at h
  exact endReg_ax (.inr (.inr (by omega)))

theorem axisReg_of_lt {o : Nat} (hk : k < 8) (ho : o < 0x400) : axisReg (0x1C0000 + o + 0x400 * k) = true := by
  simp only [axisReg, Bool.and_eq_true, decide_eq_true_eq]
  omega

theorem Ended.axisRd (h : Ended s t) {o : Nat} (hk : k < 8) (ho : o < 0x400 := by decide) : rd t (0x1C0000 + o + 0x400 * k) = rd s (0x1C0000 + o + 0x400 * k) :=
  h.regs _ (endReg_axisReg (axisReg_of_lt hk ho))

theorem Ended.axState (h : Ended s t) (hk : k < 8) : axState t k = axState s k := fld_congr (h.axisRd (o := 0) hk) _ _

/-! ### The state of an axis -/

theorem axSts_ne_group (hk : k < 8) : AX_STS k ≠ AX_GROUP_STS := by simp only [AX_STS, AX_GROUP_STS]; omega

theorem rd_setAxState_sts (s : State) (hk : k < 8) (v : Nat) : rd (setAxState s k v) (AX_STS k) = setBits (rd s (AX_STS k)) 31 28 v :=
  (rd_setFld_other _ _ _ (axSts_ne_group hk)).trans (rd_setFld_same _ _ _ _)

theorem axState_setAxState (s : State) (hk : k < 8) {v : Nat} (hv : v < 16) : axState (setAxState s k v) k = v := by
  rw [Machine.axState, fld, rd_setAxState_sts s hk, bitsOf_setBits_same _ _ _ _ (by decide) (by decide)]
  exact Nat.mod_eq_of_lt hv

/-- The fields below STATE keep their values. -/
theorem fld_setAxState (s : State) (hk : k < 8) (v : Nat) {hi lo : Nat} (hhi : hi < 28) (hlo : lo ≤ hi) :
    fld (setAxState s k v) (AX_STS k) hi lo = fld s (AX_STS k) hi lo := by
  rw [fld, rd_setAxState_sts s hk, bitsOf_setBits_other _ _ _ _ _ _ (by decide) hlo (.inl hhi)]
  rfl

theorem flag_setAxState (s : State) (hk : k < 8) (v : Nat) {i : Nat} (hi : i < 28) : flag (setAxState s k v) (AX_STS k) i = flag s (AX_STS k) i := by
  rw [flag, fld_setAxState s hk v hi (le_refl _)]
  rfl

theorem axis_setAxState (s : State) (k v j : Nat) : axis (setAxState s k v) j = axis s j := axis_congr (setAxState_same s k v).axes j

/-- A flag of a register set leaves its other flags. -/
theorem flag_setFlag_apart (s : State) (a i j : Nat) (b : Bool) (h : j ≠ i) : flag (setFlag s a i b) a j = flag s a j := by
  rw [flag, setFlag, fld_setFld_apart _ _ _ _ _ _ (le_refl _) (le_refl _) (by omega)]
  rfl

theorem flag_setFld_apart (s : State) (a hi lo v j : Nat) (hl : lo ≤ hi) (h : j < lo ∨ hi < j) : flag (setFld s a hi lo v) a j = flag s a j := by
  rw [flag, fld_setFld_apart _ _ _ _ _ _ hl (le_refl _) h]
  rfl

end

/-! ### An axis fault -/

section
variable {s : State} {k : Nat}

/-- What an axis that halts keeps of its position and of the move in progress (R396): axes 0 and 1 the remainder, the others nothing. -/
def haltKept (s : State) (k : Nat) : State :=
  let moving := axMovingNow s k
  let a := axis s k
  let homing := axState s k == axHoming
  let s := if homing then setFlag s (AX_STS k) 23 false else s
  let target := match a.stopping with
                | some t => t
                | none => rdI s (AX_TARGET k)
  if k < 2 then
    let s := if hasEncoder s k then wrI s (AX_POS k) (rdI s (AX_ENC_POS k)) else setFlag s (AX_STS k) 23 false
    if moving && !homing then
      setFlag (wrI s (AX_REMAIN k) (target - rdI s (AX_POS k))) (AX_STS k) 21 true
    else s
  else if moving then wrN (setFlag s (AX_STS k) 23 false) (AX_REMAIN k) 0
  else s

/-- An axis with nothing planned (R396, R405). -/
def haltedAxis (code : Nat) (a : Axis) : Axis :=
  { a with plan := none, armed := none, retarget := none, stopReq := false, stopping := none, homing := 0, setPos := none, safeOnly := code == 6 }

theorem axisHalted_eq (s : State) (k code : Nat) : axisHalted s k code =
    setAxState (setFld (wrN (updAxis (haltKept s k) k (haltedAxis code)) (AX_VEL k) 0) (AX_STS k) 27 24 code) k axFault := rfl

theorem axisHalted_state (s : State) (hk : k < 8) {code : Nat} (hcode : code < 16) :
    axState (axisHalted s k code) k = axFault ∧ fld (axisHalted s k code) (AX_STS k) 27 24 = code ∧ rdN (axisHalted s k code) (AX_VEL k) = 0 := by
  rw [axisHalted_eq]
  refine ⟨axState_setAxState _ hk (by decide), ?_, ?_⟩
  · rw [fld_setAxState _ hk _ (by decide) (by decide), fld_setFld_same _ _ _ _ (by decide) (by decide)]
    exact Nat.mod_eq_of_lt hcode
  · rw [rdN_congr (setAxState_rd _ (by simp [AX_VEL, AX_STS]) (by simp only [AX_VEL, AX_GROUP_STS]; omega)),
      rdN_congr (rd_setFld_other _ _ _ (by simp [AX_VEL, AX_STS])), rdN_wrN_same]
    rfl

/-- Flags below the fault code, and the remainder, are what the halt kept. -/
theorem axisHalted_kept (s : State) (hk : k < 8) (code : Nat) : (∀ i < 24, flag (axisHalted s k code) (AX_STS k) i = flag (haltKept s k) (AX_STS k) i) ∧
    rd (axisHalted s k code) (AX_REMAIN k) = rd (haltKept s k) (AX_REMAIN k) := by
  rw [axisHalted_eq]
  refine ⟨fun i hi => ?_, ?_⟩
  · rw [flag_setAxState _ hk _ (by omega), flag_setFld_apart _ _ _ _ _ _ (by decide) (by omega),
      flag_congr (rd_wrN_other _ (by simp [AX_VEL, AX_STS]))]
    rfl
  · rw [setAxState_rd _ (by simp [AX_REMAIN, AX_STS]) (by simp only [AX_REMAIN, AX_GROUP_STS]; omega),
      rd_setFld_other _ _ _ (by simp [AX_REMAIN, AX_STS]), rd_wrN_other _ (by simp [AX_REMAIN, AX_VEL])]
    rfl

theorem haltKept_same (s : State) (k : Nat) : Same [.regs] s (haltKept s k) := by
  have hhoming : Same [.regs] s (if axState s k == axHoming then setFlag s (AX_STS k) 23 false else s) := by
    split
    · exact setFlag_same _ _ _ _
    · exact Same.refl _ _
  unfold haltKept
  simp only
  generalize (if (axState s k == axHoming) = true then setFlag s (AX_STS k) 23 false else s) = t at *
  have hpos : Same [.regs] s (if hasEncoder t k then wrI t (AX_POS k) (rdI t (AX_ENC_POS k)) else setFlag t (AX_STS k) 23 false) := by
    split
    · exact hhoming.trans (wrI_same _ _ _)
    · exact hhoming.trans (setFlag_same _ _ _ _)
  split
  · split
    · exact (hpos.trans (wrI_same _ _ _)).trans (setFlag_same _ _ _ _)
    · exact hpos
  · split
    · exact (hhoming.trans (setFlag_same _ _ _ _)).trans (wrN_same _ _ _)
    · exact hhoming

theorem axis_axisHalted_same (s : State) (k code : Nat) : axis (axisHalted s k code) k = haltedAxis code (axis s k) := by
  rw [axisHalted_eq, axis_setAxState, axis_congr (setFld_same _ _ _ _ _).axes, axis_congr (wrN_same _ _ _).axes, axis_updAxis_same,
    axis_congr (haltKept_same s k).axes]

theorem axis_axisHalted_other {j : Nat} (s : State) (code : Nat) (h : j ≠ k) : axis (axisHalted s k code) j = axis s j := by
  rw [axisHalted_eq, axis_setAxState, axis_congr (setFld_same _ _ _ _ _).axes, axis_congr (wrN_same _ _ _).axes, axis_updAxis_other _ h,
    axis_congr (haltKept_same s k).axes]

/-- Axes 2 to 7 drop a move in progress, and with it their position (R396). -/
theorem haltKept_drops (hk : 2 ≤ k) (hmoving : axMovingNow s k = true) :
    rdN (haltKept s k) (AX_REMAIN k) = 0 ∧ flag (haltKept s k) (AX_STS k) 23 = false := by
  have hpair : ¬ k < 2 := by omega
  simp only [haltKept, hmoving, if_neg hpair, if_true]
  refine ⟨by rw [rdN_wrN_same]; rfl, ?_⟩
  rw [flag_congr (rd_wrN_other _ (by simp [AX_STS, AX_REMAIN])), flag_setFlag_same _ _ _ (by decide)]

/-- Axes 0 and 1 without an encoder lose their position (R396). -/
theorem haltKept_invalid (hk : k < 2) (henc : hasEncoder s k = false) : flag (haltKept s k) (AX_STS k) 23 = false := by
  have henc' : hasEncoder (if (axState s k == axHoming) = true then setFlag s (AX_STS k) 23 false else s) k = false := by
    split
    · have hcfg : rd (setFlag s (AX_STS k) 23 false) (AX_CFG k) = rd s (AX_CFG k) := rd_setFlag_other _ _ (by simp [AX_CFG, AX_STS])
      rw [hasEncoder, fld_congr hcfg]
      exact henc
    · exact henc
  simp only [haltKept, if_pos hk, henc', Bool.false_eq_true, if_false]
  split
  · rw [flag_setFlag_apart _ _ _ _ _ (by decide), flag_congr (rd_wrI_other _ (by simp [AX_STS, AX_REMAIN])), flag_setFlag_same _ _ _ (by decide)]
  · rw [flag_setFlag_same _ _ _ (by decide)]

/-- Axes 0 and 1 keep the remainder of a move in progress (R396). -/
theorem haltKept_resumable (hk : k < 2) (hmove : axState s k = axMoving ∨ axState s k = axStopping) : flag (haltKept s k) (AX_STS k) 21 = true := by
  have hmoving : (axMovingNow s k && !(axState s k == axHoming)) = true := by
    rcases hmove with h | h <;> simp [axMovingNow, h, axMoving, axStopping, axHoming]
  simp only [haltKept, if_pos hk, hmoving, if_true]
  exact flag_setFlag_same _ _ _ (by decide)

end

theorem axisHalt_ended (s : State) (k code : Nat) : Ended (axisHalted s k code) (axisHalt s k code) :=
  ⟨axisHalt_after s k code, axisHalt_after_regs s k code⟩

/-- Settles O12: what the halt leaves, which no completion after it changes. -/
theorem axisFaultHalts : Obligations.AxisFaultHalts := by
  intro s k code hk hcode u
  have hend : Ended (axisHalted s k code) u := axisHalt_ended s k code
  have hsame : Same axParts s u := axisHalt_same s k code
  obtain ⟨hstate, hcodeIs, hvel⟩ := axisHalted_state s hk hcode
  obtain ⟨hflags, hremain⟩ := axisHalted_kept s hk code
  have hsts : rd u (AX_STS k) = rd (axisHalted s k code) (AX_STS k) := hend.axisRd (o := 0) hk
  have hvelIs : rd u (AX_VEL k) = rd (axisHalted s k code) (AX_VEL k) := hend.axisRd (o := 0x8C) hk
  have hremainIs : rd u (AX_REMAIN k) = rd (haltKept s k) (AX_REMAIN k) := (hend.axisRd (o := 0x88) hk).trans hremain
  have haxis : axis u k = haltedAxis code (axis s k) := (hend.axis k).trans (axis_axisHalted_same s k code)
  refine ⟨(fld_congr hsts _ _).trans hstate, (fld_congr hsts _ _).trans hcodeIs, (rdN_congr hvelIs).trans hvel, by rw [haxis]; rfl,
    by rw [haxis]; rfl, by rw [haxis]; rfl, by rw [haxis]; rfl, fun hpair hmoving => ?drops, fun hpair henc => ?invalid, fun hpair hmove => ?resumable,
    fun j hj => (hend.axis j).trans (axis_axisHalted_other s code hj), hsame.lanes, hsame.sram, hsame.dram⟩
  case drops =>
    obtain ⟨hnone, hlost⟩ := haltKept_drops hpair hmoving
    exact ⟨(rdN_congr hremainIs).trans hnone, ((flag_congr hsts _).trans (hflags _ (by decide))).trans hlost⟩
  case invalid => exact ((flag_congr hsts _).trans (hflags _ (by decide))).trans (haltKept_invalid hpair henc)
  case resumable => exact ((flag_congr hsts _).trans (hflags _ (by decide))).trans (haltKept_resumable hpair hmove)

end Sys2Proof.Proofs

/-! PROOFS. The axes' commands and events (R382 to R408). -/

namespace Sys2Proof.Proofs

-- One theorem after the other: elaborated at once, their threads outgrow the memory that a check may take.
set_option Elab.async false

open Sys2Proof.Machine Sys2Proof.Laws

/-! ### An axis at rest -/

section
variable {s w u : State} {k : Nat}

/-- The parts that an axis and the end of its command change. -/
abbrev restParts : List Part := .axes :: .running :: endParts

theorem Ended.settled_state {v : Nat} (h : Ended (setAxState w k v) u) (hk : k < 8) (hv : v < 16 := by decide) : Machine.axState u k = v :=
  (Ended.axState h hk).trans (axState_setAxState w hk hv)

theorem Ended.settled_rd {v : Nat} (h : Ended (setAxState w k v) u) (hk : k < 8) {o : Nat} (h0 : o ≠ 0 := by decide) (ho : o < 0x400 := by decide) :
    rd u (0x1C0000 + o + 0x400 * k) = rd w (0x1C0000 + o + 0x400 * k) :=
  (h.axisRd hk ho).trans (setAxState_rd v (by simp only [AX_STS]; omega) (by simp only [AX_GROUP_STS]; omega))

theorem Ended.settled_flag {v i : Nat} (h : Ended (setAxState w k v) u) (hk : k < 8) (hi : i < 28 := by decide) :
    flag u (AX_STS k) i = flag w (AX_STS k) i :=
  (flag_congr (h.axisRd (o := 0) hk) i).trans (flag_setAxState w hk v hi)

theorem Ended.settled_axis {v : Nat} (h : Ended (setAxState w k v) u) (j : Nat) : Machine.axis u j = Machine.axis w j :=
  (Ended.axis h j).trans (axis_setAxState w k v j)

theorem Ended.settled_same {v : Nat} (h : Ended (setAxState w k v) u) (hw : Same restParts s w) : Same restParts s u :=
  hw.trans (((setAxState_same w k v).mono (by decide)).trans (h.same.mono (by decide)))

theorem rdI_wrI_same {a : Nat} {i : Int} (s : State) (hlo : -(2 : Int) ^ 31 ≤ i) (hhi : i < (2 : Int) ^ 31) : rdI (wrI s a i) a = i := by
  rw [rdI, wrI, rd_wr_same, BitVec.toInt_ofInt, Int.bmod_eq_of_le] <;> omega

/-- Axis `k` stands at a position (R382). -/
def stoodAt (s : State) (k : Nat) (pos : Int) : State := wrN (wrI s (AX_POS k) pos) (AX_VEL k) 0

theorem stoodAt_same (s : State) (k : Nat) (pos : Int) : Same [.regs] s (stoodAt s k pos) := (wrI_same _ _ _).trans (wrN_same _ _ _)

theorem axis_stoodAt (s : State) (k : Nat) (pos : Int) (j : Nat) : axis (stoodAt s k pos) j = axis s j := axis_congr (stoodAt_same s k pos).axes j

theorem stoodAt_vel (s : State) (k : Nat) (pos : Int) : rdN (stoodAt s k pos) (AX_VEL k) = 0 := by rw [stoodAt, rdN_wrN_same]; rfl

theorem stoodAt_pos {pos : Int} (s : State) (k : Nat) (hlo : -(2 : Int) ^ 31 ≤ pos) (hhi : pos < (2 : Int) ^ 31) :
    rdI (stoodAt s k pos) (AX_POS k) = pos := by
  rw [stoodAt, rdI_congr (rd_wrN_other _ (by simp [AX_POS, AX_VEL])), rdI_wrI_same s hlo hhi]

end

/-! ### The encoder's position -/

section
variable {s : State} {k : Nat} {pos : Int}

/-- Registers that show what the encoder of axis `k` reports. -/
def encReg (k a : Nat) : Bool := a == AX_ENC_RAW k || (a == AX_ENC_POS k || (a == AX_DEV k || (a == AX_STS k || a == AX_DEV_MAX k)))

/-- The deviation, and since when it has been excessive (R394). -/
def devMarked (s : State) (k : Nat) (d : Int) (over_ : Bool) : State :=
  let s := setFlag (wrI s (AX_DEV k) d) (AX_STS k) 16 over_
  updAxis s k (fun a => { a with devSince := if over_ then some (a.devSince.getD (now s)) else none })

theorem devMarked_only (s : State) (k : Nat) (d : Int) (b : Bool) : Only [.regs, .axes] (encReg k) s (devMarked s k d b) := by
  have hregs : Only [.regs, .axes] (encReg k) s (setFlag (wrI s (AX_DEV k) d) (AX_STS k) 16 b) :=
    Only.setFlag (Only.wrI (Only.refl _ _ s) (by simp [encReg])) (by simp [encReg])
  unfold devMarked
  exact hregs.trans (Only.of_same (updAxis_same _ _ _))

theorem devMarked_fld (s : State) (k : Nat) (d : Int) (b : Bool) {hi lo : Nat} (hl : lo ≤ hi) (h : hi < 16 ∨ 16 < lo) :
    fld (devMarked s k d b) (AX_STS k) hi lo = fld s (AX_STS k) hi lo := by
  rw [devMarked, fld_congr (rd_updAxis _ _ _ _), setFlag, fld_setFld_apart _ _ _ _ _ _ (le_refl _) hl (by omega),
    fld_congr (rd_wrI_other _ (by simp [AX_STS, AX_DEV]))]

/-- The deviation and its maximum (R394). -/
def devShown (s : State) (k : Nat) (d : Int) : State :=
  let s := devMarked s k d (decide (fld (wrI s (AX_DEV k) d) (AX_DEV_WIN k) 15 0 < d.natAbs))
  if rdN s (AX_DEV_MAX k) < d.natAbs then wrN s (AX_DEV_MAX k) (satN (2 ^ 32 - 1) d.natAbs) else s

theorem devShown_cases (s : State) (k : Nat) (d : Int) : ∃ b, devShown s k d = devMarked s k d b ∨ ∃ n, devShown s k d = wrN (devMarked s k d b) (AX_DEV_MAX k) n := by
  unfold devShown
  generalize decide (fld (wrI s (AX_DEV k) d) (AX_DEV_WIN k) 15 0 < d.natAbs) = b
  refine ⟨b, ?_⟩
  dsimp only
  split
  · exact .inr ⟨_, rfl⟩
  · exact .inl rfl

theorem devShown_only (s : State) (k : Nat) (d : Int) : Only [.regs, .axes] (encReg k) s (devShown s k d) := by
  obtain ⟨b, h | ⟨n, h⟩⟩ := devShown_cases s k d
  · exact h ▸ devMarked_only s k d b
  · exact h ▸ Only.wrN (devMarked_only s k d b) (by simp [encReg])

theorem devShown_axis (s : State) (k : Nat) (d : Int) : ∃ x : Axis → Option Nat, ∀ j, axis (devShown s k d) j = axis (updAxis s k fun a => { a with devSince := x a }) j := by
  obtain ⟨b, h | ⟨n, h⟩⟩ := devShown_cases s k d
  · exact ⟨fun a => if b then some (a.devSince.getD (now (setFlag (wrI s (AX_DEV k) d) (AX_STS k) 16 b))) else none, fun j => by rw [h]; rfl⟩
  · exact ⟨fun a => if b then some (a.devSince.getD (now (setFlag (wrI s (AX_DEV k) d) (AX_STS k) 16 b))) else none, fun j => by rw [h]; rfl⟩

theorem devShown_fld (s : State) (k : Nat) (d : Int) {hi lo : Nat} (hl : lo ≤ hi) (h : hi < 16 ∨ 16 < lo) :
    fld (devShown s k d) (AX_STS k) hi lo = fld s (AX_STS k) hi lo := by
  obtain ⟨b, hd | ⟨n, hd⟩⟩ := devShown_cases s k d
  · rw [hd, devMarked_fld s k d b hl h]
  · rw [hd, fld_congr (rd_wrN_other _ (by simp [AX_STS, AX_DEV_MAX])), devMarked_fld s k d b hl h]

theorem encShowAt_none (h : hasEncoder s k = false) : encShowAt s k pos = s := if_pos (by simp [h])

theorem encShowAt_some (h : hasEncoder s k = true) : ∃ e, encShowAt s k pos = devShown (wrI (wrI s (AX_ENC_RAW k) (axis s k).encCount) (AX_ENC_POS k) e) k (pos - e) :=
  ⟨_, if_neg (by simp [h])⟩

theorem encShowAt_only (s : State) (k : Nat) (pos : Int) : Only [.regs, .axes] (encReg k) s (encShowAt s k pos) := by
  cases henc : hasEncoder s k
  · rw [encShowAt_none henc]
    exact Only.refl _ _ _
  · obtain ⟨e, he⟩ := encShowAt_some (pos := pos) henc
    rw [he]
    exact (Only.wrI (Only.wrI (Only.refl _ _ s) (by simp [encReg])) (by simp [encReg])).trans (devShown_only _ _ _)

theorem encShowAt_axis (s : State) (k : Nat) (pos : Int) : ∃ x : Axis → Option Nat, ∀ j, axis (encShowAt s k pos) j = axis (updAxis s k fun a => { a with devSince := x a }) j := by
  cases henc : hasEncoder s k
  · rw [encShowAt_none henc]
    refine ⟨fun a => a.devSince, fun j => ?_⟩
    by_cases hj : j = k
    · subst hj
      rw [axis_updAxis_same]
    · rw [axis_updAxis_other _ hj]
  · obtain ⟨e, he⟩ := encShowAt_some (pos := pos) henc
    rw [he]
    exact devShown_axis _ _ _

theorem encShowAt_axis_other (s : State) (k : Nat) (pos : Int) {j : Nat} (h : j ≠ k) : axis (encShowAt s k pos) j = axis s j := by
  obtain ⟨x, hx⟩ := encShowAt_axis s k pos
  rw [hx, axis_updAxis_other _ h]

theorem encShowAt_fld (s : State) (k : Nat) (pos : Int) {hi lo : Nat} (hl : lo ≤ hi) (h : hi < 16 ∨ 16 < lo) :
    fld (encShowAt s k pos) (AX_STS k) hi lo = fld s (AX_STS k) hi lo := by
  cases henc : hasEncoder s k
  · rw [encShowAt_none henc]
  · obtain ⟨e, he⟩ := encShowAt_some (pos := pos) henc
    rw [he, devShown_fld _ _ _ hl h, fld_congr (rd_wrI_other _ (by simp [AX_STS, AX_ENC_POS])), fld_congr (rd_wrI_other _ (by simp [AX_STS, AX_ENC_RAW]))]

theorem encAlign_only (s : State) (k : Nat) : Only [.regs, .axes] (encReg k) s (encAlign s k) :=
  (Only.of_same (updAxis_same s k _)).trans (encShowAt_only _ _ _)

end

/-! ### Ends of motion -/

section
variable {s u : State} {k : Nat} {p : AxisPlan}

/-- A move that has run stands at its target with nothing planned (R383). -/
def targetTaken (s : State) (k : Nat) (p : AxisPlan) : State :=
  stoodAt (updAxis s k (fun a => { a with plan := none, vmax := 0, accel := 0, decel := 0 })) k p.target

theorem exec_axisTargetReached (hclk : Clocked s) (hplan : (axis s k).plan = some p) (hmove : axState s k = axMoving) (hrun : p.dur ≤ p.t) :
    exec (.axisTargetReached k) s = .next (holding s (finishMove (setAxState (targetTaken s k p) k axIdle) k .ok 0 0)) := by
  show execAxisTargetReached k s = _
  rw [execAxisTargetReached, whileClocked_running _ hclk, hplan]
  exact congrArg (fun t => Host.Outcome.next (holding s t)) (if_pos (by simp [hmove, hrun]))

/-- A stop that has come to rest keeps the remainder to its target (R396). -/
def restKept (s : State) (k : Nat) (p : AxisPlan) : State :=
  updAxis (setFlag (wrI (stoodAt s k p.target) (AX_REMAIN k) ((axis s k).stopping.getD p.target - p.target)) (AX_STS k) 21 true) k
    (fun a => { a with plan := none, stopping := none, vmax := 0, accel := 0, decel := 0 })

theorem exec_axisAtRest (hclk : Clocked s) (hplan : (axis s k).plan = some p) (hstop : axState s k = axStopping) (hrun : p.dur ≤ p.t) :
    exec (.axisAtRest k) s = .next (holding s (finishStops (finishMove (setAxState (restKept s k p) k axIdle) k .ok 1 0))) := by
  show execAxisAtRest k s = _
  rw [execAxisAtRest, whileClocked_running _ hclk]
  simp only [hplan]
  exact congrArg (fun t => Host.Outcome.next (holding s t)) ((if_neg (by simpa using hrun)).trans (if_pos hstop))

/-- Homing that has come to rest after its capture takes its position (R401, R393). -/
def homeTaken (s : State) (k : Nat) (pos : Int) : State :=
  let s := encAlign (stoodAt (updAxis s k (fun a => { a with plan := none, homing := 0 })) k pos) k
  setFld (setFld s (AX_STS k) 23 22 3) (AX_STS k) 20 19 0

theorem exec_homingComplete (hclk : Clocked s) (hplan : (axis s k).plan = some p) (hstate : axState s k = axHoming) (hphase : (axis s k).homing = 8)
    (hrun : p.dur ≤ p.t) : ∃ r0 r1, exec (.homingComplete k) s = .next (holding s (finishRun
      (setAxState (homeTaken s k (rdI s (AX_HOME_POS k) + (p.target - rdI s (AX_CAPTURE k)))) k axIdle) 0x0703 k .ok r0 r1 0 0)) := by
  refine ⟨rdN (homeTaken s k (rdI s (AX_HOME_POS k) + (p.target - rdI s (AX_CAPTURE k)))) (AX_CAPTURE k),
    rdN (homeTaken s k (rdI s (AX_HOME_POS k) + (p.target - rdI s (AX_CAPTURE k)))) (AX_CAPTURE_ENC k), ?_⟩
  show execHomingComplete k s = _
  rw [execHomingComplete, whileClocked_running _ hclk]
  simp only [hplan]
  exact congrArg (fun t => Host.Outcome.next (holding s t)) (if_pos (by simp [hstate, hphase, hrun]))

theorem encShow_axis_rd (s : State) {o : Nat} (ho : o ∉ [0, 0x90, 0x94, 0x98, 0x9C] := by decide) : rd (encAlign s k) (0x1C0000 + o + 0x400 * k) = rd s (0x1C0000 + o + 0x400 * k) := by
  refine (encAlign_only s k).regs _ ?_
  simp only [List.mem_cons, List.not_mem_nil, or_false, not_or] at ho
  simp only [encReg, AX_ENC_RAW, AX_ENC_POS, AX_DEV, AX_STS, AX_DEV_MAX, Bool.or_eq_false_iff, beq_eq_false_iff_ne]
  omega

theorem homeTaken_rd (s : State) (pos : Int) {o : Nat} (ho : o ∉ [0, 0x90, 0x94, 0x98, 0x9C] := by decide) : rd (homeTaken s k pos) (0x1C0000 + o + 0x400 * k) =
    rd (stoodAt (updAxis s k (fun a => { a with plan := none, homing := 0 })) k pos) (0x1C0000 + o + 0x400 * k) := by
  have hne : 0x1C0000 + o + 0x400 * k ≠ AX_STS k := by
    simp only [List.mem_cons, not_or] at ho
    simp only [AX_STS]
    omega
  rw [homeTaken, rd_setFld_other _ _ _ hne, rd_setFld_other _ _ _ hne, encShow_axis_rd _ ho]

theorem homeTaken_fields (s : State) (k : Nat) (pos : Int) : fld (homeTaken s k pos) (AX_STS k) 23 22 = 3 ∧ fld (homeTaken s k pos) (AX_STS k) 20 19 = 0 := by
  unfold homeTaken
  dsimp only
  refine ⟨?_, fld_setFld_same _ _ _ _ (by decide) (by decide)⟩
  rw [fld_setFld_apart _ _ _ _ _ _ (by decide) (by decide) (by decide)]
  exact fld_setFld_same _ _ _ _ (by decide) (by decide)

theorem homeTaken_flags (s : State) (k : Nat) (pos : Int) : flag (homeTaken s k pos) (AX_STS k) 23 = true ∧ flag (homeTaken s k pos) (AX_STS k) 22 = true ∧
    flag (homeTaken s k pos) (AX_STS k) 20 = false ∧ flag (homeTaken s k pos) (AX_STS k) 19 = false := by
  obtain ⟨hhigh, hlow⟩ := homeTaken_fields s k pos
  generalize homeTaken s k pos = t at *
  simp only [flag, fld, bitsOf, natBits, beq_iff_eq, beq_eq_false_iff_ne] at *
  omega

theorem homeTaken_same (s : State) (k : Nat) (pos : Int) : Same [.regs, .axes] s (homeTaken s k pos) :=
  ((((updAxis_same s k _).mono (by decide)).trans ((stoodAt_same _ _ _).mono (by decide))).trans (encAlign_only _ _).same).trans
    (((setFld_same _ _ _ _ _).trans (setFld_same _ _ _ _ _)).mono (by decide))

theorem encAlign_axis (s : State) (k : Nat) : (axis (encAlign s k) k).plan = (axis s k).plan ∧ (axis (encAlign s k) k).homing = (axis s k).homing ∧
    ∀ j, j ≠ k → axis (encAlign s k) j = axis s j := by
  unfold encAlign encShow
  obtain ⟨x, hx⟩ := encShowAt_axis (updAxis s k _) k (rdI (updAxis s k _) (AX_POS k))
  refine ⟨?_, ?_, fun j hj => ?_⟩
  · rw [hx, axis_updAxis_same, axis_updAxis_same]
  · rw [hx, axis_updAxis_same, axis_updAxis_same]
  · rw [hx, axis_updAxis_other _ hj, axis_updAxis_other _ hj]

theorem homeTaken_axis (s : State) (k : Nat) (pos : Int) : (axis (homeTaken s k pos) k).plan = none ∧ (axis (homeTaken s k pos) k).homing = 0 ∧
    ∀ j, j ≠ k → axis (homeTaken s k pos) j = axis s j := by
  obtain ⟨hplan, hhoming, hothers⟩ := encAlign_axis (stoodAt (updAxis s k (fun a => { a with plan := none, homing := 0 })) k pos) k
  have haxis : axis (stoodAt (updAxis s k (fun a => { a with plan := none, homing := 0 })) k pos) k = { axis s k with plan := none, homing := 0 } :=
    (axis_stoodAt _ _ _ _).trans (axis_updAxis_same _ _ _)
  rw [haxis] at hplan hhoming
  exact ⟨hplan, hhoming, fun j hj => (hothers j hj).trans ((axis_stoodAt _ _ _ _).trans (axis_updAxis_other _ hj))⟩

end

/-! ### Starts at a boundary -/

section
variable {s : State} {k : Nat}

theorem bitList_nodup (m n : Nat) : (bitList m n).Nodup := List.nodup_range.filter _

/-- A fold that treats each of a list of axes once: what it establishes for an axis stands, where it touches no other. -/
theorem foldl_each {l : List Nat} (hl : l.Nodup) (f : State → Nat → State) (P Q : Nat → State → Prop) (hset : ∀ t, ∀ x ∈ l, P x t → Q x (f t x))
    (hP : ∀ t, ∀ x ∈ l, ∀ y ∈ l, y ≠ x → P y t → P y (f t x)) (hQ : ∀ t, ∀ x ∈ l, ∀ y ∈ l, y ≠ x → Q y t → Q y (f t x)) (t : State) (h : ∀ x ∈ l, P x t) :
    ∀ x ∈ l, Q x (l.foldl f t) := by
  induction l generalizing t with
  | nil => exact fun x hx => absurd hx List.not_mem_nil
  | cons y l ih =>
    obtain ⟨hy, hl⟩ := List.nodup_cons.mp hl
    have hin : ∀ {x}, x ∈ l → x ∈ y :: l := List.mem_cons_of_mem _
    have hne : ∀ {x}, x ∈ l → x ≠ y := fun hx he => hy (he ▸ hx)
    intro x hx
    rcases List.mem_cons.mp hx with rfl | hx
    · have hkept : Q x (l.foldl f (f t x)) :=
        foldl_inv (Q x) f l (fun u z hz hu => hQ u z (hin hz) x List.mem_cons_self (fun he => hy (he ▸ hz)) hu) _ (hset t x List.mem_cons_self (h x List.mem_cons_self))
      exact hkept
    · exact ih hl (fun u z hz => hset u z (hin hz)) (fun u z hz v hv => hP u z (hin hz) v (hin hv))
        (fun u z hz v hv => hQ u z (hin hz) v (hin hv)) _
        (fun z hz => hP t y List.mem_cons_self z (hin hz) (hne hz) (h z (hin hz))) x hx

/-- A plan from rest takes no free value. -/
theorem planAxis_rest (s : State) (k : Nat) (from16 a target : Int) (vmax : Nat) : (planAxis s k from16 0 a target vmax).1 = s := by
  unfold planAxis
  dsimp only
  split
  · rfl
  · rfl

/-- The starts' registers. -/
def startReg (a : Nat) : Bool := a == AX_GROUP_STS || (a == AX_GROUP_TIME_LO || a == AX_GROUP_TIME_HI)

theorem startShow_only (s : State) : Only [.regs] startReg s (startShow s) := Only.wr64 (Only.setFlag (Only.refl _ _ s))

theorem startReg_axis {o : Nat} (hk : k < 8) (ho : o < 0x400) : startReg (0x1C0000 + o + 0x400 * k) = false := by
  simp only [startReg, AX_GROUP_STS, AX_GROUP_TIME_LO, AX_GROUP_TIME_HI, Bool.or_eq_false_iff, beq_eq_false_iff_ne]
  omega

theorem startShow_axisRd (s : State) (hk : k < 8) {o : Nat} (ho : o < 0x400 := by decide) : rd (startShow s) (0x1C0000 + o + 0x400 * k) = rd s (0x1C0000 + o + 0x400 * k) :=
  (startShow_only s).regs _ (startReg_axis hk ho)

theorem startShow_state (s : State) (hk : k < 8) : axState (startShow s) k = axState s k := fld_congr (startShow_axisRd (o := 0) s hk) _ _

theorem tickNo_congr {t : State} (hlo : rd t FTM_TIME_LO = rd s FTM_TIME_LO) (hhi : rd t FTM_TIME_HI = rd s FTM_TIME_HI) (hseq : rd t SEQ_CFG = rd s SEQ_CFG) :
    tickNo t = tickNo s := by
  rw [tickNo, tickNo, now_congr hlo hhi, tickNs, tickNs, fld_congr hseq]

/-- An axis that starts on a plan (R386). -/
def setOff (s : State) (k : Nat) (f : Axis → Axis) : State := setAxState (updAxis s k f) k axMoving

/-- Registers that a start of axis `k` writes. -/
def setOffReg (k a : Nat) : Bool := a == AX_STS k || (a == AX_GROUP_STS || (a == AX_REMAIN k || a == AX_TARGET k))

theorem setOff_only (s : State) (k : Nat) (f : Axis → Axis) : Only [.regs, .axes] (setOffReg k) s (setOff s k f) := by
  have hstate : Only [.regs, .axes] (setOffReg k) (updAxis s k f) (setOff s k f) :=
    Only.setFld (Only.setFld (Only.refl _ _ (updAxis s k f)) (by simp [setOffReg])) (by simp [setOffReg])
  exact (Only.of_same (updAxis_same _ _ _)).trans hstate

theorem setOff_axis (s : State) (k : Nat) (f : Axis → Axis) : axis (setOff s k f) k = f (axis s k) ∧ ∀ j, j ≠ k → axis (setOff s k f) j = axis s j :=
  ⟨(axis_setAxState _ _ _ _).trans (axis_updAxis_same _ _ _), fun _ hj => (axis_setAxState _ _ _ _).trans (axis_updAxis_other _ hj)⟩

theorem setOffReg_axisReg (hk : k < 8) {a : Nat} (h : setOffReg k a = true) : axisReg a = true := by
  simp only [setOffReg, Bool.or_eq_true, beq_iff_eq, AX_STS, AX_GROUP_STS, AX_REMAIN, AX_TARGET] at h
  simp only [axisReg, Bool.and_eq_true, decide_eq_true_eq]
  omega

theorem setOffReg_other {j : Nat} (hj : j < 8) (hne : j ≠ k) : setOffReg k (AX_STS j) = false := by
  simp only [setOffReg, Bool.or_eq_false_iff, beq_eq_false_iff_ne, AX_STS, AX_GROUP_STS, AX_REMAIN, AX_TARGET]
  omega

/-- The remainder of axis `k` becomes its target (R397). -/
def remainTaken (s : State) (k : Nat) (tgt : Int) : State :=
  wrI (dropRemain (updAxis s k (fun a => { a with vmax := 0, accel := 0, decel := 0 })) k) (AX_TARGET k) tgt

theorem remainTaken_only (s : State) (k : Nat) (tgt : Int) : Only [.regs, .axes] (setOffReg k) s (remainTaken s k tgt) := by
  have hregs : Only [.regs, .axes] (setOffReg k) (updAxis s k (fun a => { a with vmax := 0, accel := 0, decel := 0 })) (remainTaken s k tgt) :=
    Only.wrI (Only.setFlag (Only.wrN (Only.refl _ _ _) (by simp [setOffReg])) (by simp [setOffReg])) (by simp [setOffReg])
  exact (Only.of_same (updAxis_same _ _ _)).trans hregs

theorem resumeNow_setOff (s : State) (k : Nat) : ∃ tgt p, resumeNow s k = setOff (remainTaken s k tgt) k (fun a => { a with plan := some p }) := by
  unfold resumeNow
  have hstate := planAxis_rest (updAxis s k (fun a => { a with vmax := 0, accel := 0, decel := 0 })) k (rdI (updAxis s k (fun a => { a with vmax := 0, accel := 0, decel := 0 })) (AX_POS k) * 65536) 0
    (rdI s (AX_POS k) + rdI s (AX_REMAIN k)) (axVmax (updAxis s k (fun a => { a with vmax := 0, accel := 0, decel := 0 })) k)
  dsimp only
  generalize planAxis _ _ _ _ _ _ _ = q at *
  obtain ⟨t, p⟩ := q
  subst hstate
  exact ⟨_, _, rfl⟩

theorem resumeNow_only (s : State) (k : Nat) : Only [.regs, .axes] (setOffReg k) s (resumeNow s k) := by
  obtain ⟨tgt, p, h⟩ := resumeNow_setOff s k
  exact h ▸ (remainTaken_only s k tgt).trans (setOff_only _ _ _)

theorem resumeNow_axis_other {j : Nat} (h : j ≠ k) : axis (resumeNow s k) j = axis s j := by
  obtain ⟨tgt, p, hr⟩ := resumeNow_setOff s k
  rw [hr, (setOff_axis _ _ _).2 j h, axis_congr (t := remainTaken s k tgt) (s := updAxis s k (fun a => { a with vmax := 0, accel := 0, decel := 0 })) rfl,
    axis_updAxis_other _ h]

theorem resumeNow_moving (s : State) (hk : k < 8) : axState (resumeNow s k) k = axMoving ∧ flag (resumeNow s k) (AX_STS k) 21 = false := by
  obtain ⟨tgt, p, hr⟩ := resumeNow_setOff s k
  rw [hr]
  refine ⟨axState_setAxState _ hk (by decide), ?_⟩
  rw [setOff, flag_setAxState _ hk _ (by decide), flag_congr (rd_updAxis _ _ _ _), remainTaken, flag_congr (rd_wrI_other _ (by simp [AX_STS, AX_TARGET])), dropRemain,
    flag_setFlag_same _ _ _ (by decide)]

/-- Kept remainders resume on a list of axes (R397). -/
theorem foldl_resumeNow {l : List Nat} (hl : l.Nodup) (hlt : ∀ k ∈ l, k < 8) (s : State) :
    (∀ k ∈ l, axState (l.foldl resumeNow s) k = axMoving ∧ flag (l.foldl resumeNow s) (AX_STS k) 21 = false) ∧
    (∀ j, j ∉ l → axis (l.foldl resumeNow s) j = axis s j) ∧ Only [.regs, .axes] axisReg s (l.foldl resumeNow s) := by
  refine ⟨?_, fun j hj => ?_, ?_⟩
  · refine foldl_each hl resumeNow (fun _ _ => True) (fun k t => axState t k = axMoving ∧ flag t (AX_STS k) 21 = false)
      (fun t k hk _ => resumeNow_moving t (hlt k hk)) (fun _ _ _ _ _ _ _ => trivial) (fun t x _ y hy hne hmoves => ?_) s (fun _ _ => trivial)
    have hsts := (resumeNow_only t x).regs _ (setOffReg_other (hlt y hy) hne)
    exact ⟨(fld_congr hsts _ _).trans hmoves.1, (flag_congr hsts _).trans hmoves.2⟩
  · exact foldl_inv (fun t => axis t j = axis s j) resumeNow l (fun t x hx ht => (resumeNow_axis_other (fun he : j = x => hj (he ▸ hx))).trans ht) s rfl
  · exact Only.foldl _ _ (fun t k hk => (resumeNow_only t k).mono (by decide) (fun a => setOffReg_axisReg (hlt k hk))) s

/-- An armed axis starts (R386). -/
def armedStart (s : State) (k : Nat) : State :=
  match (axis s k).armed with
  | none => s
  | some p => setOff s k (fun a => { a with armed := none, plan := some { p with begun := true } })

theorem armedStart_some {p : AxisPlan} (h : (axis s k).armed = some p) :
    armedStart s k = setOff s k (fun a => { a with armed := none, plan := some { p with begun := true } }) := by simp only [armedStart, h]

theorem armedStart_only (s : State) (k : Nat) : Only [.regs, .axes] (setOffReg k) s (armedStart s k) := by
  unfold armedStart
  split
  · exact Only.refl _ _ _
  · exact setOff_only _ _ _

theorem armedStart_axis_other {j : Nat} (h : j ≠ k) : axis (armedStart s k) j = axis s j := by
  unfold armedStart
  split
  · rfl
  · exact (setOff_axis _ _ _).2 j h

/-- What an axis that stood ready has after its start. -/
def Started (s : State) (k : Nat) (t : State) : Prop := axState t k = axMoving ∧ (axis t k).armed = none ∧
  (axis t k).plan = (axis s k).armed.map (fun q => { q with begun := true })

theorem foldl_armedStart {l : List Nat} (hl : l.Nodup) (hlt : ∀ k ∈ l, k < 8) (s : State) (harmed : ∀ k ∈ l, (axis s k).armed.isSome = true) :
    (∀ k ∈ l, Started s k (l.foldl armedStart s)) ∧ (∀ j, j ∉ l → axis (l.foldl armedStart s) j = axis s j) ∧
    Only [.regs, .axes] axisReg s (l.foldl armedStart s) := by
  refine ⟨?_, fun j hj => ?_, ?_⟩
  · refine foldl_each hl armedStart (fun k t => axis t k = axis s k) (Started s) (fun t k hk hax => ?_)
      (fun t x _ y _ hne hax => (armedStart_axis_other hne).trans hax) (fun t x _ y hy hne hst => ?_) s (fun _ _ => rfl)
    · obtain ⟨p, hp⟩ := Option.isSome_iff_exists.mp (harmed k hk)
      have hhere : (axis t k).armed = some p := by rw [hax, hp]
      obtain ⟨hset, -⟩ := setOff_axis t k (fun a => { a with armed := none, plan := some { p with begun := true } })
      rw [armedStart_some hhere]
      refine ⟨axState_setAxState _ (hlt k hk) (by decide), by rw [hset], by rw [hset, hp]; rfl⟩
    · obtain ⟨hmoves, hnone, hplan⟩ := hst
      have hax := armedStart_axis_other (s := t) hne
      exact ⟨(fld_congr ((armedStart_only t x).regs _ (setOffReg_other (hlt y hy) hne)) _ _).trans hmoves, hax ▸ hnone, hax ▸ hplan⟩
  · exact foldl_inv (fun t => axis t j = axis s j) armedStart l (fun t x hx ht => (armedStart_axis_other (fun he : j = x => hj (he ▸ hx))).trans ht) s rfl
  · exact Only.foldl _ _ (fun t k hk => (armedStart_only t k).mono (by decide) (fun a => setOffReg_axisReg (hlt k hk))) s

/-- An AXIS_RESUME whose boundary has come, with every one of its axes at rest and a remainder kept (R397). -/
theorem exec_axisResumeStart {g : GroupStart} (hclk : Clocked s) (hg : s.resumeStart = some g) (hdue : startDue s 0x0705 g = true) :
    let b := startShow { s with resumeStart := none }
    b.pwr.safe = false → (∀ k ∈ bitList g.mask 8, axState b k = axIdle ∧ flag b (AX_STS k) 21 = true) →
    exec .axisResumeStart s = .next (holding s (finishRun ((bitList g.mask 8).foldl resumeNow b) 0x0705 0 .ok (tickNo b) 0 0 0)) := by
  intro b hsafe hready
  show execAxisResumeStart s = _
  rw [execAxisResumeStart, whileClocked_running _ hclk, if_pos (by simp [hg, hdue]), resumeBoundary, hg]
  have hfault : (bitList g.mask 8).any (fun k => axState b k == axFault) = false := by
    simp only [List.any_eq_false, beq_iff_eq]
    exact fun k hk => by rw [(hready k hk).1]; decide
  have hall : (bitList g.mask 8).all (fun k => axState b k == axIdle && flag b (AX_STS k) 21) = true := by
    simp only [List.all_eq_true, Bool.and_eq_true, beq_iff_eq]
    exact hready
  exact congrArg (fun t => Host.Outcome.next (holding s t)) ((if_neg (by rw [hsafe, hfault]; decide)).trans (if_pos hall))

/-- An AXIS_GROUP_START whose boundary has come, with every one of its axes armed and no synchronization (R386). -/
theorem exec_groupStartBoundary {g : GroupStart} (hclk : Clocked s) (hg : s.groupStart = some g) (hdue : startDue s 0x0706 g = true) (hsync : g.sync = false) :
    let b := startShow { s with groupStart := none }
    (∀ k ∈ bitList g.mask 8, axState b k = axArmed) →
    exec .groupStartBoundary s = .next (holding s (finishRun ((bitList g.mask 8).foldl armedStart b) 0x0706 0 .ok (tickNo ((bitList g.mask 8).foldl armedStart b)) 0 0 0)) := by
  intro b hready
  show execGroupStartBoundary s = _
  rw [execGroupStartBoundary, whileClocked_running _ hclk]
  simp only [hg]
  have hfault : (bitList g.mask 8).any (fun k => axState b k == axFault) = false := by
    simp only [List.any_eq_false, beq_iff_eq]
    exact fun k hk => by rw [hready k hk]; decide
  have hall : (bitList g.mask 8).any (fun k => axState b k != axArmed) = false := by
    simp only [List.any_eq_false, bne_iff_ne, ne_eq, not_not]
    exact hready
  refine congrArg (fun t => Host.Outcome.next (holding s t)) (((if_neg (by simp [hdue])).trans ((if_neg (fun h => Bool.false_ne_true (hfault.symm.trans h))).trans
    (if_neg (fun h => Bool.false_ne_true (hall.symm.trans h))))).trans ?_)
  obtain ⟨mask, sync, atTime, time⟩ := g
  subst hsync
  rfl

/-- An AXIS_RESUME whose boundary has come sets its axes moving (R397). -/
theorem axisResumeStart_effect {g : GroupStart} (hclk : Clocked s) (hg : s.resumeStart = some g) (hdue : startDue s 0x0705 g = true) (hsafe : s.pwr.safe = false)
    (hready : ∀ j, j < 8 → g.mask.testBit j = true → axState s j = axIdle ∧ flag s (AX_STS j) 21 = true) :
    ∃ u, exec .axisResumeStart s = .next (holding s (finishRun u 0x0705 0 .ok (tickNo u) 0 0 0)) ∧ u.resumeStart = none ∧
      (∀ j, j < 8 → g.mask.testBit j = true → axState u j = axMoving ∧ flag u (AX_STS j) 21 = false) ∧
      (∀ j, g.mask.testBit j = false → axis u j = axis s j) ∧ u.lanes = s.lanes := by
  have hshow := (startShow_only { s with resumeStart := none }).same
  have hbits : ∀ j ∈ bitList g.mask 8, j < 8 := fun j hj => (mem_bitList.mp hj).1
  have hready : ∀ j ∈ bitList g.mask 8, axState (startShow { s with resumeStart := none }) j = axIdle ∧
      flag (startShow { s with resumeStart := none }) (AX_STS j) 21 = true := fun j hj => by
    obtain ⟨hidle, hkept⟩ := hready j (hbits j hj) (mem_bitList.mp hj).2
    exact ⟨(startShow_state _ (hbits j hj)).trans hidle, (flag_congr (startShow_axisRd (o := 0) _ (hbits j hj)) _).trans hkept⟩
  rw [exec_axisResumeStart hclk hg hdue (by rw [hshow.pwr]; exact hsafe) hready]
  obtain ⟨hmoving, hothers, honly⟩ := foldl_resumeNow (bitList_nodup g.mask 8) hbits (startShow { s with resumeStart := none })
  generalize startShow { s with resumeStart := none } = b at *
  refine ⟨(bitList g.mask 8).foldl resumeNow b, ?_, honly.same.resumeStart.trans hshow.resumeStart,
    fun j hj hbit => hmoving j (mem_bitList.mpr ⟨hj, hbit⟩), fun j hbit => ?_, honly.same.lanes.trans hshow.lanes⟩
  · rw [tickNo_congr (honly.regs FTM_TIME_LO (by decide)) (honly.regs FTM_TIME_HI (by decide)) (honly.regs SEQ_CFG (by decide))]
  · exact (hothers j (fun hj => Bool.false_ne_true (hbit.symm.trans (mem_bitList.mp hj).2))).trans (axis_congr hshow.axes j)

/-- An AXIS_GROUP_START whose boundary has come sets its axes moving (R386). -/
theorem groupStartBoundary_effect {g : GroupStart} (hclk : Clocked s) (hg : s.groupStart = some g) (hdue : startDue s 0x0706 g = true) (hsync : g.sync = false)
    (hready : ∀ j, j < 8 → g.mask.testBit j = true → axState s j = axArmed ∧ (axis s j).armed.isSome = true) :
    ∃ u, exec .groupStartBoundary s = .next (holding s (finishRun u 0x0706 0 .ok (tickNo u) 0 0 0)) ∧ u.groupStart = none ∧
      (∀ j, j < 8 → g.mask.testBit j = true → axState u j = axMoving ∧ (axis u j).armed = none ∧
        (axis u j).plan = (axis s j).armed.map (fun q => { q with begun := true })) ∧
      (∀ j, g.mask.testBit j = false → axis u j = axis s j) ∧ u.lanes = s.lanes := by
  have hshow := (startShow_only { s with groupStart := none }).same
  have haxis : ∀ j, axis (startShow { s with groupStart := none }) j = axis s j := axis_congr hshow.axes
  have hbits : ∀ j ∈ bitList g.mask 8, j < 8 := fun j hj => (mem_bitList.mp hj).1
  have hready' : ∀ j ∈ bitList g.mask 8, axState s j = axArmed ∧ (axis s j).armed.isSome = true := fun j hj =>
    hready j (hbits j hj) (mem_bitList.mp hj).2
  rw [exec_groupStartBoundary hclk hg hdue hsync (fun j hj => (startShow_state _ (hbits j hj)).trans (hready' j hj).1)]
  obtain ⟨hstarted, hothers, honly⟩ := foldl_armedStart (bitList_nodup g.mask 8) hbits (startShow { s with groupStart := none })
    (fun j hj => by rw [haxis]; exact (hready' j hj).2)
  refine ⟨_, rfl, honly.same.groupStart.trans hshow.groupStart, fun j hj hbit => ?_, fun j hbit => ?_, honly.same.lanes.trans hshow.lanes⟩
  · obtain ⟨hmoving, hnone, hplan⟩ := hstarted j (mem_bitList.mpr ⟨hj, hbit⟩)
    exact ⟨hmoving, hnone, by rw [hplan, haxis]⟩
  · exact (hothers j (fun hj => Bool.false_ne_true (hbit.symm.trans (mem_bitList.mp hj).2))).trans (haxis j)

/-- Homing that has travelled its limit without its switch is fault 4 (R401). -/
theorem exec_homeFail {k lim : Nat} (hclk : Clocked s) (hstate : axState s k = axHoming) (hlim : homeLimit s k = some lim)
    (hfar : lim ≤ (rdI s (AX_POS k) - (axis s k).homeFrom).natAbs) : exec (.homeFail k) s = .next (holding s (axisFault s k 4)) := by
  show execHomeFail k s = _
  rw [execHomeFail, whileClocked_running _ hclk, hlim]
  exact congrArg (fun t => Host.Outcome.next (holding s t)) (if_pos (by simp [hstate, hfar]))

end

theorem axisMotionEnds : Claim.AxisMotionEnds := by
  intro s k p hclk hk hplan hrun ends
  refine ⟨fun hmove => ?target, fun hstop => ?rest, fun hstate hphase => ?home, fun lim hstate hlim hfar => exec_homeFail hclk hstate hlim hfar,
    fun g hg hdue hsafe hready => axisResumeStart_effect hclk hg hdue hsafe hready, fun g hg hdue hsync hready => groupStartBoundary_effect hclk hg hdue hsync hready, fun g => ⟨fun hg hearly => ?resumeEarly, fun hg hearly => ?groupEarly⟩⟩
  case target =>
    rw [exec_axisTargetReached hclk hplan hmove hrun]
    have hend : Ended (setAxState (targetTaken s k p) k axIdle) (finishMove (setAxState (targetTaken s k p) k axIdle) k .ok 0 0) := finishMove_ended _ _ _ _ _
    have hsame := hend.settled_same (((updAxis_same s k _).mono (by decide)).trans ((stoodAt_same _ _ _).mono (by decide)))
    have haxis : axis (targetTaken s k p) k = { axis s k with plan := none, vmax := 0, accel := 0, decel := 0 } :=
      (axis_stoodAt _ _ _ _).trans (axis_updAxis_same _ _ _)
    refine ⟨_, rfl, hend.settled_state hk, by rw [hend.settled_axis, haxis], by rw [hend.settled_axis, haxis],
      fun hlo hhi => (rdI_congr (hend.settled_rd (o := 0x80) hk)).trans (stoodAt_pos _ k hlo hhi),
      (rdN_congr (hend.settled_rd (o := 0x8C) hk)).trans (stoodAt_vel _ _ _), fun j hj => ?_, hsame.lanes, hsame.sram, hsame.dram⟩
    rw [hend.settled_axis, targetTaken, axis_stoodAt, axis_updAxis_other _ hj]
  case rest =>
    rw [exec_axisAtRest hclk hplan hstop hrun]
    have hend : Ended (setAxState (restKept s k p) k axIdle) (finishStops (finishMove (setAxState (restKept s k p) k axIdle) k .ok 1 0)) :=
      (finishMove_ended _ _ _ _ _).trans (finishStops_ended _)
    have hregs : Same [.regs] s (setFlag (wrI (stoodAt s k p.target) (AX_REMAIN k) ((axis s k).stopping.getD p.target - p.target)) (AX_STS k) 21 true) :=
      ((stoodAt_same _ _ _).trans (wrI_same _ _ _)).trans (setFlag_same _ _ _ _)
    have hsame := hend.settled_same ((hregs.mono (by decide)).trans ((updAxis_same _ k _).mono (by decide)))
    have haxis : axis (restKept s k p) k = { axis s k with plan := none, stopping := none, vmax := 0, accel := 0, decel := 0 } := by
      rw [restKept, axis_updAxis_same, axis_congr hregs.axes]
    refine ⟨_, rfl, ⟨hend.settled_state hk, by rw [hend.settled_axis, haxis], by rw [hend.settled_axis, haxis], fun hlo hhi => ?_, ?_, fun j hj => ?_,
      hsame.lanes, hsame.sram, hsame.dram⟩, (hend.settled_flag hk).trans (flag_setFlag_same _ _ _ (by decide)), (hend.settled_rd (o := 0x88) hk).trans ?_⟩
    · refine (rdI_congr ((hend.settled_rd (o := 0x80) hk).trans ?_)).trans (stoodAt_pos s k hlo hhi)
      exact (rd_setFlag_other _ _ (by simp [AX_STS])).trans (rd_wrI_other _ (by simp [AX_REMAIN]))
    · refine (rdN_congr ((hend.settled_rd (o := 0x8C) hk).trans ?_)).trans (stoodAt_vel s k p.target)
      exact (rd_setFlag_other _ _ (by simp [AX_STS])).trans (rd_wrI_other _ (by simp [AX_REMAIN]))
    · rw [hend.settled_axis, restKept, axis_updAxis_other _ hj, axis_congr hregs.axes]
    · exact (rd_setFlag_other _ _ (by simp [AX_STS])).trans (rd_wr_same _ _)
  case home =>
    obtain ⟨r0, r1, hexec⟩ := exec_homingComplete hclk hplan hstate hphase hrun
    rw [hexec]
    generalize hpos : rdI s (AX_HOME_POS k) + (p.target - rdI s (AX_CAPTURE k)) = pos
    have hend : Ended (setAxState (homeTaken s k pos) k axIdle) (finishRun (setAxState (homeTaken s k pos) k axIdle) 0x0703 k .ok r0 r1 0 0) :=
      finishRun_ended _ _ _ _ _ _ _ _
    have hsame := hend.settled_same ((homeTaken_same s k pos).mono (by decide))
    obtain ⟨hnone, hhoming, hothers⟩ := homeTaken_axis s k pos
    obtain ⟨hvalid, hhomed, hlockP, hlockN⟩ := homeTaken_flags s k pos
    exact ⟨_, rfl, ⟨hend.settled_state hk, by rw [hend.settled_axis, hnone], by rw [hend.settled_axis, hhoming],
      fun hlo hhi => (rdI_congr ((hend.settled_rd (o := 0x80) hk).trans (homeTaken_rd s pos))).trans (stoodAt_pos _ k hlo hhi),
      (rdN_congr ((hend.settled_rd (o := 0x8C) hk).trans (homeTaken_rd s pos))).trans (stoodAt_vel _ _ _),
      fun j hj => (hend.settled_axis j).trans (hothers j hj), hsame.lanes, hsame.sram, hsame.dram⟩,
      (hend.settled_flag hk).trans hvalid, (hend.settled_flag hk).trans hhomed, (hend.settled_flag hk).trans hlockP, (hend.settled_flag hk).trans hlockN⟩
  case resumeEarly =>
    show execAxisResumeStart s = _
    rw [execAxisResumeStart, whileClocked_running _ hclk, if_neg (by simp [hg, hearly])]
  case groupEarly =>
    show execGroupStartBoundary s = _
    rw [execGroupStartBoundary, whileClocked_running _ hclk]
    simp only [hg, hearly]
    rfl

/-! ### Switches and encoders -/

section
variable {s : State} {k i : Nat}

theorem same_memory {ps : List Part} {t : State} (h : Same ps s t) (hps : ∀ q ∈ [Part.sram, .dram, .host, .sramLost, .dramLost], q ∉ ps := by decide) :
    SameMemory s t :=
  ⟨h.sram (hps _ (by decide)), h.dram (hps _ (by decide)), h.host (hps _ (by decide)), h.sramLost (hps _ (by decide)), h.dramLost (hps _ (by decide))⟩

/-- A pin of an axis takes a level (R399). -/
def pinSet (s : State) (k i : Nat) (level : Bool) : State := updAxis s k (fun a => { a with pins := if level then natSet a.pins i else natClr a.pins i })

/-- A transition of an enabled input: the unfiltered state, and the transition kept for the count of chatter (R400). -/
def edgeKept (s : State) (k i : Nat) (level : Bool) (ns : Nat) (raw : Int) : State :=
  let s := setFlag s (AX_SW_STS k) (3 + i) (level != flag s (AX_SW_CFG k) i)
  let t := now s + ns
  let win := fld s (AX_SW_CFG k) 31 24 * 1000000
  let old := (mget [] (axis s k).edges i).filter (fun e => decide (t < e.time + win))
  let es := ⟨t, axPosAt s k ns, unsgn 32 raw⟩ :: old
  let s := updAxis s k (fun a => { a with edges := mset a.edges i es })
  if fld s (AX_SW_STS k) 23 16 < es.length then setFld s (AX_SW_STS k) 23 16 (satN 255 es.length) else s

theorem edgeKept_cases (s : State) (k i : Nat) (level : Bool) (ns : Nat) (raw : Int) : ∃ es,
    let b := updAxis (setFlag s (AX_SW_STS k) (3 + i) (level != flag s (AX_SW_CFG k) i)) k (fun a => { a with edges := mset a.edges i es })
    edgeKept s k i level ns raw = b ∨ ∃ n, edgeKept s k i level ns raw = setFld b (AX_SW_STS k) 23 16 n := by
  unfold edgeKept
  dsimp only
  generalize (⟨_, _, _⟩ :: _ : List SwEdge) = es
  refine ⟨es, ?_⟩
  split
  · exact .inr ⟨_, rfl⟩
  · exact .inl rfl

theorem exec_switchTransition (hclk : Clocked s) (hi : i < 3) (level : Bool) (ns : Nat) (raw : Int) : exec (.switchTransition k i level ns raw) s =
    .next (holding s (if swEn (pinSet s k i level) k i = true then edgeKept (pinSet s k i level) k i level ns raw else pinSet s k i level)) := by
  show execSwitchTransition k i level ns raw s = _
  rw [execSwitchTransition, whileClocked_running _ hclk, if_neg (by omega)]
  cases hen : swEn (pinSet s k i level) k i
  · exact congrArg (fun t => Host.Outcome.next (holding s t)) (if_pos (by rw [← pinSet, hen]; rfl))
  · exact congrArg (fun t => Host.Outcome.next (holding s t)) (if_neg (by rw [← pinSet, hen]; decide))

theorem pinSet_same (s : State) (k i : Nat) (level : Bool) : Same [.axes] s (pinSet s k i level) := updAxis_same _ _ _

theorem pinSet_pin (s : State) (k i : Nat) (level : Bool) : (axis (pinSet s k i level) k).pins.testBit i = level := by
  rw [pinSet, axis_updAxis_same]
  cases level <;> simp [natSet_testBit, natClr_testBit]

theorem edgeKept_only (s : State) (k i : Nat) (level : Bool) (ns : Nat) (raw : Int) : Only [.regs, .axes] (fun a => a == AX_SW_STS k) s (edgeKept s k i level ns raw) := by
  obtain ⟨es, h⟩ := edgeKept_cases s k i level ns raw
  have hflag : Only [.regs, .axes] (fun a => a == AX_SW_STS k) s (setFlag s (AX_SW_STS k) (3 + i) (level != flag s (AX_SW_CFG k) i)) :=
    Only.setFlag (Only.refl _ _ s) (by simp)
  have hedges := hflag.trans (Only.of_same (updAxis_same _ k (fun a => { a with edges := mset a.edges i es })))
  rcases h with h | ⟨n, h⟩
  · exact h ▸ hedges
  · exact h ▸ Only.setFld hedges (by simp)

theorem edgeKept_axis (s : State) (k i : Nat) (level : Bool) (ns : Nat) (raw : Int) : (axis (edgeKept s k i level ns raw) k).pins = (axis s k).pins ∧
    ∀ j, j ≠ k → axis (edgeKept s k i level ns raw) j = axis s j := by
  obtain ⟨es, h⟩ := edgeKept_cases s k i level ns raw
  have hbase : axis (edgeKept s k i level ns raw) = axis (updAxis s k (fun a => { a with edges := mset a.edges i es })) := by
    rcases h with h | ⟨n, h⟩ <;> rw [h] <;> rfl
  rw [hbase]
  exact ⟨by rw [axis_updAxis_same], fun j hj => axis_updAxis_other _ hj⟩

theorem edgeKept_raw (hi : i < 3) (s : State) (k : Nat) (level : Bool) (ns : Nat) (raw : Int) :
    swRaw (edgeKept s k i level ns raw) k i = (level != flag s (AX_SW_CFG k) i) := by
  obtain ⟨es, h⟩ := edgeKept_cases s k i level ns raw
  rcases h with h | ⟨n, h⟩
  · rw [h, swRaw, flag_congr (rd_updAxis _ _ _ _), flag_setFlag_same _ _ _ (by omega)]
  · rw [h, swRaw, flag_setFld_apart _ _ _ _ _ _ (by decide) (by omega), flag_congr (rd_updAxis _ _ _ _), flag_setFlag_same _ _ _ (by omega)]

/-- Input `i` takes its filtered state, and its limit's lock follows (R391, R399). -/
def switchShown (s : State) (k i : Nat) (on : Bool) : State :=
  let s := setSw s k i on
  if i = 2 then s else if on then setFlag s (AX_STS k) (if i = 0 then 20 else 19) true else lockClear s k

/-- Motion runs towards the limit of input `i`. -/
def towardsLimit (s : State) (k i : Nat) : Bool := if i = 0 then decide (0 < axHeading s k) else decide (axHeading s k < 0)

theorem setSw_fld (s : State) {hi lo : Nat} (on : Bool) (hi3 : i < 3) (hl : lo ≤ hi) (h : 13 < lo) : fld (setSw s k i on) (AX_STS k) hi lo = fld s (AX_STS k) hi lo := by
  rw [setSw, setFlag, fld_setFld_apart _ _ _ _ _ _ (le_refl _) hl (by omega), fld_congr (rd_setFlag_other _ _ (by simp [AX_STS, AX_SW_STS]))]

theorem setSw_rd (s : State) (on : Bool) {a : Nat} (h1 : a ≠ AX_STS k) (h2 : a ≠ AX_SW_STS k) : rd (setSw s k i on) a = rd s a := by
  rw [setSw, rd_setFlag_other _ _ h1, rd_setFlag_other _ _ h2]

theorem setSw_state (s : State) (on : Bool) (hi3 : i < 3) : axState (setSw s k i on) k = axState s k := setSw_fld s on hi3 (by decide) (by decide)

theorem setSw_heading (s : State) (on : Bool) (hi3 : i < 3) : axHeading (setSw s k i on) k = axHeading s k := by
  rw [axHeading, axHeading, axMovingNow, axMovingNow, setSw_state s on hi3, rdI_congr (setSw_rd s on (by simp [AX_VEL, AX_STS]) (by simp [AX_VEL, AX_SW_STS]))]

/-- An input of an axis that is not homing takes its raw level (R399): a limit met in its own direction is fault 2. -/
theorem exec_switchDebounce (hclk : Clocked s) (hi : i < 3) (hen : swEn s k i = true) (hchg : swOn s k i ≠ swRaw s k i) (hheld : swHeld s k i = true)
    (hhome : axState s k ≠ axHoming) : exec (.switchDebounce k i) s = .next (holding s (if i < 2 && swRaw s k i && towardsLimit s k i then
      axisFault (switchShown s k i (swRaw s k i)) k 2 else switchShown s k i (swRaw s k i))) := by
  show execSwitchDebounce k i s = _
  have hstate : (axState (setSw s k i (swRaw s k i)) k == axHoming) = false := by
    rw [setSw_state s _ hi]
    exact beq_eq_false_iff_ne.mpr hhome
  have hgo : ¬ (decide (3 ≤ i) || !swEn s k i || swOn s k i == swRaw s k i || !swHeld s k i) = true := by simp [hen, hchg, hheld]; exact hi
  rw [execSwitchDebounce, whileClocked_running _ hclk, if_neg hgo]
  simp only [hstate, Bool.false_and, if_false, Bool.false_eq_true]
  rw [setSw_heading s _ hi]
  rfl

theorem lockClear_only (s : State) (k : Nat) : Only [.regs] (fun a => a == AX_STS k) s (lockClear s k) := by
  unfold lockClear
  refine Only.trans (t := if axHeading s k < 0 && !swOn s k 0 then setFlag s (AX_STS k) 20 false else s) ?_ ?_
  · exact Only.ite (Only.setFlag (Only.refl _ _ s) (by simp)) (Only.refl _ _ s)
  · exact Only.ite (Only.setFlag (Only.refl _ _ _) (by simp)) (Only.refl _ _ _)

theorem lockClear_flag (s : State) (k : Nat) {j : Nat} (h : j < 19) : flag (lockClear s k) (AX_STS k) j = flag s (AX_STS k) j := by
  have hlow : flag (if axHeading s k < 0 && !swOn s k 0 then setFlag s (AX_STS k) 20 false else s) (AX_STS k) j = flag s (AX_STS k) j := by
    split
    · exact flag_setFlag_apart _ _ _ _ _ (by omega)
    · rfl
  unfold lockClear
  dsimp only
  generalize (if (decide (axHeading s k < 0) && !swOn s k 0) = true then setFlag s (AX_STS k) 20 false else s) = t at *
  split
  · rw [flag_setFlag_apart _ _ _ _ _ (by omega), hlow]
  · exact hlow

theorem switchShown_same (s : State) (k i : Nat) (on : Bool) : Same [.regs] s (switchShown s k i on) := by
  have hset : Same [.regs] s (setSw s k i on) := (setFlag_same _ _ _ _).trans (setFlag_same _ _ _ _)
  unfold switchShown
  dsimp only
  split
  · exact hset
  · split
    · exact hset.trans (setFlag_same _ _ _ _)
    · exact hset.trans (lockClear_only _ _).same

theorem switchShown_state (s : State) (k : Nat) (on : Bool) (hi : i < 3) : swOn (switchShown s k i on) k i = on ∧ flag (switchShown s k i on) (AX_STS k) (13 - i) = on ∧
    (on = true → i < 2 → flag (switchShown s k i on) (AX_STS k) (20 - i) = true) := by
  have hne : AX_SW_STS k ≠ AX_STS k := by simp [AX_SW_STS, AX_STS]
  have hon : swOn (setSw s k i on) k i = on := by
    rw [swOn, setSw, flag_congr (rd_setFlag_other _ _ hne), flag_setFlag_same _ _ _ (by omega)]
  have hshow : flag (setSw s k i on) (AX_STS k) (13 - i) = on := flag_setFlag_same _ _ _ (by omega)
  unfold switchShown
  dsimp only
  by_cases h2 : i = 2
  · rw [if_pos h2]
    exact ⟨hon, hshow, fun _ hlt => absurd hlt (by omega)⟩
  · rw [if_neg h2]
    cases on
    · rw [if_neg (by decide)]
      exact ⟨(flag_congr ((lockClear_only _ _).regs _ (by simpa using hne)) _).trans hon, (lockClear_flag _ _ (by omega)).trans hshow, fun h => by cases h⟩
    · rw [if_pos rfl]
      refine ⟨(flag_congr (rd_setFlag_other _ _ hne) _).trans hon, ?_, fun _ _ => ?_⟩
      · rw [flag_setFlag_apart _ _ _ _ _ (by split <;> omega), hshow]
      · have hlock : 20 - i = if i = 0 then 20 else 19 := by split <;> omega
        rw [hlock]
        exact flag_setFlag_same _ _ _ (by split <;> decide)

/-- A word of 32 bits has the same pattern whether its sign counts or not. -/
theorem ofNat_unsgn (i : Int) : BitVec.ofNat 32 (unsgn 32 i) = BitVec.ofInt 32 i := by
  apply BitVec.eq_of_toNat_eq
  rw [BitVec.toNat_ofNat, BitVec.toNat_ofInt, unsgn]
  omega

end

theorem axisInputs : Claim.AxisInputs := by
  intro s k i hclk hk hi
  refine ⟨fun level ns raw => ?transition, fun hen hchg hheld => ⟨fun hhome hpos hneg => ?follows, fun hmove hzero hraw hvel => ?limit⟩, fun hheld => ?early,
    fun hen hm hn hstate => ?chatter, fun hfault henc hstate hdev hdue => ?stall, fun henc hfault => ?counted, fun henc hfault hstate => ?encoder,
    fun frame ns hssi hbinary => ?ssi, fun ns raw hhome hphase => ?index⟩
  case transition =>
    have hpin := pinSet_pin s k i level
    have hsame := pinSet_same s k i level
    have hothers : ∀ j, j ≠ k → axis (pinSet s k i level) j = axis s j := fun j hj => axis_updAxis_other _ hj
    rw [exec_switchTransition hclk hi level ns raw]
    cases hen : swEn (pinSet s k i level) k i
    · rw [if_neg (by decide)]
      exact ⟨_, rfl, hpin, fun h => absurd (h.symm.trans hen) (by decide), fun a _ => hsame.rd a, hothers, hsame.lanes, same_memory hsame⟩
    · rw [if_pos rfl]
      have honly := edgeKept_only (pinSet s k i level) k i level ns raw
      obtain ⟨hpins, hother⟩ := edgeKept_axis (pinSet s k i level) k i level ns raw
      have hall : Same [.regs, .axes] s (edgeKept (pinSet s k i level) k i level ns raw) := (hsame.mono (by decide)).trans honly.same
      exact ⟨_, rfl, by rw [hpins, hpin], fun _ => edgeKept_raw hi _ _ _ _ _, fun a ha => (honly.regs a (by simpa using ha)).trans (hsame.rd a),
        fun j hj => (hother j hj).trans (hothers j hj), hall.lanes, same_memory hall⟩
  case follows =>
    have hclear : (decide (i < 2) && swRaw s k i && towardsLimit s k i) = false := by
      have hi012 : i = 0 ∨ i = 1 ∨ i = 2 := by omega
      rcases hi012 with rfl | rfl | rfl
      · simpa [towardsLimit] using hpos
      · simpa [towardsLimit] using hneg
      · rfl
    rw [exec_switchDebounce hclk hi hen hchg hheld hhome, if_neg (by rw [hclear]; decide)]
    obtain ⟨hon, hshow, hlock⟩ := switchShown_state s k (swRaw s k i) hi
    have hsame := switchShown_same s k i (swRaw s k i)
    exact ⟨_, rfl, hon, hshow, hlock, hsame.axes, hsame.lanes, same_memory hsame⟩
  case limit =>
    subst hzero
    have hhead : 0 < axHeading s k := by simpa [axHeading, axMovingNow, hmove] using hvel
    rw [exec_switchDebounce hclk hi hen hchg hheld (by rw [hmove]; decide), if_pos (by simp [hraw, towardsLimit, hhead]), hraw]
    rfl
  case early =>
    show execSwitchDebounce k i s = _
    rw [execSwitchDebounce, whileClocked_running _ hclk, if_pos (by simp [hheld])]
  case chatter =>
    show execSwitchChatter k i s = _
    rw [execSwitchChatter, whileClocked_running _ hclk]
    exact congrArg (fun t => Host.Outcome.next (holding s t)) (if_pos (by simp [hi, hen, hm, hn, hstate]))
  case stall =>
    show execStall k s = _
    rw [execStall, whileClocked_running _ hclk, if_pos (by simp [hfault, henc, hstate, hdev, hdue])]
  case counted =>
    show execEncErr k s = _
    have hflag : flag (satInc s (AX_ENC_ERRS k)) (AX_CFG k) 6 = false := (flag_congr (rd_satInc_other (by simp [AX_CFG, AX_ENC_ERRS])) _).trans hfault
    rw [execEncErr, whileClocked_running _ hclk, if_neg (by simp [henc])]
    exact congrArg (fun t => Host.Outcome.next (holding s t)) (if_neg (by simp [hflag]))
  case encoder =>
    show execEncErr k s = _
    have hflag : flag (satInc s (AX_ENC_ERRS k)) (AX_CFG k) 6 = true := (flag_congr (rd_satInc_other (by simp [AX_CFG, AX_ENC_ERRS])) _).trans hfault
    have hst : axState (satInc s (AX_ENC_ERRS k)) k ≠ axDisabled := by
      rw [axState, fld_congr (rd_satInc_other (by simp [AX_STS, AX_ENC_ERRS]))]
      exact hstate
    rw [execEncErr, whileClocked_running _ hclk, if_neg (by simp [henc])]
    exact congrArg (fun t => Host.Outcome.next (holding s t)) (if_pos (by simp [hflag, hst]))
  case ssi =>
    show Does (execSsiFrame k frame ns s) s _
    rw [execSsiFrame, whileClocked_running _ hclk, if_neg (not_not.mpr hssi)]
    simp only [hbinary, Bool.false_eq_true, if_false]
    generalize hv : frame % 2 ^ fld s (AX_SSI_CFG k) 29 24 = v
    generalize axPosAt s k ns = pos
    have honly := encShowAt_only (updAxis s k (fun a => { a with encCount := v })) k pos
    obtain ⟨x, hx⟩ := encShowAt_axis (updAxis s k (fun a => { a with encCount := v })) k pos
    have hall : Same [.regs, .axes] s _ := ((updAxis_same s k (fun a => { a with encCount := v })).mono (by decide)).trans honly.same
    refine ⟨_, rfl, by rw [hx, axis_updAxis_same, axis_updAxis_same, ← hv]; push_cast; rfl, rdI_congr (honly.regs _ (by simp [encReg, AX_POS, AX_ENC_RAW, AX_ENC_POS, AX_DEV, AX_STS, AX_DEV_MAX])),
      fun j hj => ?_, hall.lanes, same_memory hall⟩
    rw [encShowAt_axis_other _ _ _ hj, axis_updAxis_other _ hj]
  case index =>
    show Does (execEnczIndex k ns raw s) s _
    rw [execEnczIndex, whileClocked_running _ hclk, if_pos (by simp [hhome, hphase])]
    refine ⟨_, rfl, ?_, ?_, ?_, fun j hj => ?_⟩
    · exact (rd_wrN_other _ (by simp [AX_CAPTURE, AX_CAPTURE_ENC])).trans (rd_wr_same _ _)
    · exact (rd_wr_same _ _).trans (ofNat_unsgn raw)
    · rw [homeDecel, axis_updAxis_same]
    · rw [homeDecel, axis_updAxis_other _ hj]
      rfl

/-- Settles O45: the ends of motion through the state an axis at rest is left in, the inputs through what an input's level shows. -/
theorem axisEvents : Obligations.AxisEvents := ⟨axisMotionEnds, axisInputs⟩

end Sys2Proof.Proofs

/-! PROOFS. The commands of the axes (R385 to R408). -/

namespace Sys2Proof.Proofs

-- One theorem after the other: elaborated at once, their threads outgrow the memory that a check may take.
set_option Elab.async false

open Sys2Proof.Machine Sys2Proof.Laws

/-! ### AXIS_CONFIG -/

section
variable {s : State} {k sect : Nat}

theorem axSection_length (k sect : Nat) : (axSection k sect).length ≤ 7 := by
  unfold axSection
  split <;> simp

theorem axSection_nodup (k sect : Nat) : (axSection k sect).Nodup := by
  unfold axSection
  split
  · simp [AX_CFG, AX_STEP_TIMING, AX_ENC_RATIO]
  · simp [AX_VMAX, AX_VSTART, AX_VSTOP, AX_ACCEL, AX_DECEL, AX_JERK]
  · simp [AX_SOFT_MIN, AX_SOFT_MAX, AX_DEV_WIN, AX_SW_CFG, AX_SSI_CFG]
  · simp [AX_HOME_CFG, AX_HOME_FAST, AX_HOME_SLOW, AX_HOME_BACKOFF, AX_HOME_TRAVEL, AX_HOME_POS]

/-- The registers of a section with their values (R406). -/
def sectionPairs (k sect : Nat) (vals : List Nat) : List (Nat × Nat) := (axSection k sect).zip ((List.range 7).map (fun i => vals.getD i 0))

theorem mem_sectionPairs {vals : List Nat} {p : Nat × Nat} :
    p ∈ sectionPairs k sect vals ↔ ∃ i, i < (axSection k sect).length ∧ p = ((axSection k sect).getD i 0, vals.getD i 0) := by
  have hlen := axSection_length k sect
  rw [sectionPairs, List.mem_iff_getElem]
  constructor
  · rintro ⟨i, hi, rfl⟩
    have hlt : i < (axSection k sect).length := by simp only [List.length_zip] at hi; omega
    refine ⟨i, hlt, ?_⟩
    simp [List.getElem_zip, hlt]
  · rintro ⟨i, hi, rfl⟩
    refine ⟨i, by simp; omega, ?_⟩
    simp [List.getElem_zip, hi]

/-- The values of a section that apply to its axis go to the shadows (R409). -/
def sectionStaged (s : State) (k : Nat) (pairs : List (Nat × Nat)) : State :=
  pairs.foldl (fun s p => if axApplies k p.1 then setShadow s 9 p.1 31 0 p.2 else s) s

theorem sectionStaged_same (s : State) (k : Nat) (pairs : List (Nat × Nat)) : Same [.shadow, .dirty] s (sectionStaged s k pairs) := by
  refine Same.foldl _ (fun t p => ?_) _ _
  split
  · exact setShadow_same _ _ _ _ _ _
  · exact Same.refl _ _

theorem setBits_word (w : Word) (v : Nat) : setBits w 31 0 v = BitVec.ofNat 32 v := by
  apply BitVec.eq_of_getLsbD_eq
  intro i hi
  rw [setBits_getLsbD, BitVec.getLsbD_ofNat]
  simp [hi]

theorem shadowOf_sectionStaged {pairs : List (Nat × Nat)} (hnodup : (pairs.map Prod.fst).Nodup) {p : Nat × Nat} (hp : p ∈ pairs) (happ : axApplies k p.1 = true)
    (s : State) : shadowOf (sectionStaged s k pairs) p.1 = BitVec.ofNat 32 p.2 := by
  induction pairs generalizing s with
  | nil => exact absurd hp List.not_mem_nil
  | cons q l ih =>
    obtain ⟨hq, hl⟩ := List.nodup_cons.mp (List.map_cons ▸ hnodup)
    rcases List.mem_cons.mp hp with rfl | hp
    · refine foldl_inv (fun t => shadowOf t p.1 = BitVec.ofNat 32 p.2) _ l (fun t x hx ht => ?_) _ ?_
      · have hne : p.1 ≠ x.1 := fun he => hq (he ▸ List.mem_map_of_mem hx)
        split
        · exact (shadowOf_setShadow_other hne).trans ht
        · exact ht
      · show shadowOf (if axApplies k p.1 = true then setShadow s 9 p.1 31 0 p.2 else s) p.1 = _
        rw [if_pos happ, shadowOf_setShadow_same, setBits_word]
    · exact ih hl hp _

theorem sectionPairs_nodup (k sect : Nat) (vals : List Nat) : ((sectionPairs k sect vals).map Prod.fst).Nodup := by
  have hlen := axSection_length k sect
  rw [sectionPairs, List.map_fst_zip (by simpa using hlen)]
  exact axSection_nodup k sect

end

/-! ### AXIS_STOP -/

section
variable {s : State} {k : Nat}

/-- The moving axes of a mask are marked (R396). -/
def stopsMarked (s : State) (mask : Nat) : State := (bitList mask 8).foldl (fun s k =>
  if axState s k == axArmed || axState s k == axMoving || axState s k == axHoming then updAxis s k (fun a => { a with stopReq := true }) else s) s

theorem stopsMarked_same (s : State) (mask : Nat) : Same [.axes] s (stopsMarked s mask) := by
  refine Same.foldl _ (fun t k => ?_) _ _
  split
  · exact updAxis_same _ _ _
  · exact Same.refl _ _

theorem stopsMarked_other {mask j : Nat} (hj : mask.testBit j = false) : axis (stopsMarked s mask) j = axis s j := by
  refine foldl_inv (fun t => axis t j = axis s j) _ _ (fun t x hx ht => ?_) s rfl
  have hne : j ≠ x := fun he => Bool.false_ne_true (hj.symm.trans (he ▸ (mem_bitList.mp hx).2))
  split
  · exact (axis_updAxis_other _ hne).trans ht
  · exact ht

theorem stopsMarked_marked {mask j : Nat} (hlt : j < 8) (hj : mask.testBit j = true)
    (hmoves : axState s j = axArmed ∨ axState s j = axMoving ∨ axState s j = axHoming) : (axis (stopsMarked s mask) j).stopReq = true := by
  refine foldl_each (bitList_nodup mask 8) _ (fun k t => axState t k = axState s k)
    (fun k t => axState s k = axArmed ∨ axState s k = axMoving ∨ axState s k = axHoming → (axis t k).stopReq = true)
    (fun t k _ hst hmoves => ?_) (fun t x _ y _ _ hst => ?_) (fun t x _ y _ hne hmark hmoves => ?_) s (fun _ _ => rfl) j (mem_bitList.mpr ⟨hlt, hj⟩) hmoves
  · rw [if_pos (by simpa [hst, or_assoc] using hmoves), axis_updAxis_same]
  · rw [← hst]
    split <;> rfl
  · split
    · rw [axis_updAxis_other _ hne]
      exact hmark hmoves
    · exact hmark hmoves

end

/-! ### AXIS_MOVE -/

section
variable {s : State} {k : Nat}

/-- The target of a move taken, and its speed limit (R386). -/
def moveTaken (s : State) (k : Nat) (target : Int) (vmax : Nat) : State :=
  updAxis (wrI (dropRemain s k) (AX_TARGET k) target) k (fun a => { a with vmax := vmax, accel := 0, decel := 0 })

theorem moveTaken_only (s : State) (k : Nat) (target : Int) (vmax : Nat) : Only [.regs, .axes] (setOffReg k) s (moveTaken s k target vmax) := by
  have hregs : Only [.regs, .axes] (setOffReg k) s (wrI (dropRemain s k) (AX_TARGET k) target) :=
    Only.wrI (Only.setFlag (Only.wrN (Only.refl _ _ _) (by simp [setOffReg])) (by simp [setOffReg])) (by simp [setOffReg])
  exact hregs.trans (Only.of_same (updAxis_same _ _ _))

/-- A move planned (R385), on axis `k` in state `st`. -/
def movePlanned (s : State) (k : Nat) (target : Int) (vmax st : Nat) (f : Axis → Axis) : State := setAxState (updAxis (moveTaken s k target vmax) k f) k st

theorem movePlanned_same (s : State) (k : Nat) (target : Int) (vmax st : Nat) (f : Axis → Axis) : Same [.regs, .axes] s (movePlanned s k target vmax st f) :=
  ((moveTaken_only _ _ _ _).same.trans ((updAxis_same _ _ _).mono (by decide))).trans ((setAxState_same _ _ _).mono (by decide))

theorem movePlanned_rd {o : Nat} (hk : k < 8) (s : State) (target : Int) (vmax st : Nat) (f : Axis → Axis) (h0 : o ≠ 0 := by decide) (ho : o < 0x400 := by decide) :
    rd (movePlanned s k target vmax st f) (0x1C0000 + o + 0x400 * k) = rd (moveTaken s k target vmax) (0x1C0000 + o + 0x400 * k) :=
  setAxState_rd _ (by simp only [AX_STS]; omega) (by simp only [AX_GROUP_STS]; omega)

theorem movePlanned_facts {st : Nat} {target : Int} (hk : k < 8) (hst : st < 16) (hlo : -(2 : Int) ^ 31 ≤ target) (hhi : target < (2 : Int) ^ 31) (s : State)
    (vmax : Nat) (f : Axis → Axis) :
    let u := movePlanned s k target vmax st f
    rdI u (AX_TARGET k) = target ∧ rdI u (AX_POS k) = rdI s (AX_POS k) ∧ rdN u (AX_REMAIN k) = 0 ∧ flag u (AX_STS k) 21 = false ∧ axState u k = st ∧
    axis u k = f { axis s k with vmax := vmax, accel := 0, decel := 0 } ∧ (∀ j, j ≠ k → axis u j = axis s j) ∧ u.lanes = s.lanes ∧ SameMemory s u := by
  intro u
  have hsame := movePlanned_same s k target vmax st f
  refine ⟨(rdI_congr (movePlanned_rd (o := 0x84) hk ..)).trans (rdI_wrI_same _ hlo hhi), ?_, ?_, ?_, axState_setAxState _ hk hst, ?_, fun j hj => ?_,
    hsame.lanes, same_memory hsame⟩
  · exact rdI_congr ((movePlanned_rd (o := 0x80) hk ..).trans ((moveTaken_only _ _ _ _).regs _ (by simp [setOffReg, AX_STS, AX_GROUP_STS, AX_REMAIN, AX_TARGET]; omega)))
  · refine (rdN_congr ((movePlanned_rd (o := 0x88) hk ..).trans ?_)).trans (rdN_wrN_same (AX_REMAIN k) 0 (s := s))
    exact (rd_wrI_other _ (by simp [AX_TARGET])).trans (rd_setFlag_other _ _ (by simp [AX_STS]))
  · refine (flag_setAxState _ hk _ (by decide)).trans ?_
    exact (flag_congr (rd_wrI_other _ (by simp [AX_STS, AX_TARGET])) _).trans (flag_setFlag_same _ _ _ (by decide))
  · refine (axis_setAxState _ _ _ _).trans ?_
    rw [axis_updAxis_same, moveTaken, axis_updAxis_same]
    rfl
  · refine (axis_setAxState _ _ _ _).trans ?_
    rw [axis_updAxis_other _ hj, moveTaken, axis_updAxis_other _ hj]
    rfl

end

section
variable {s : State} {h : Issue} {k flags vmax : Nat} {target : Int}

/-- The way to a target is free when its direction is not blocked (R391). -/
theorem wayFree (hfree : target ≠ rdI s (AX_POS k) → axBlocked s k (decide (rdI s (AX_POS k) < target)) = false) :
    (target - rdI s (AX_POS k) == 0 || !axBlocked s k (decide (0 < target - rdI s (AX_POS k)))) = true := by
  by_cases heq : target = rdI s (AX_POS k)
  · simp [heq]
  · have hsign : decide (0 < target - rdI s (AX_POS k)) = decide (rdI s (AX_POS k) < target) := by simp
    rw [hsign, hfree heq]
    simp

/-- A move from IDLE that keeps within the soft limits and its way is planned from rest (R386, R407). -/
theorem exec_axisMove (hs : Starts s h 48) (hk : k < 8) (hflags : flags = 0 ∨ flags = 2) (hp : Spelled s h 0x0702 (.axisMove h k flags target vmax)) :
    let a := accept s h
    vmax ≤ rdN a (AX_VMAX k) → softOk a k target = true → axState a k = axIdle → flag a (AX_STS k) 23 = true →
    (target ≠ rdI a (AX_POS k) → axBlocked a k (decide (rdI a (AX_POS k) < target)) = false) → axLocked a k = false →
    isRunning a 0x0702 k = false → isRunning a 0x0703 k = false → a.pwr.safe = false →
    ∃ pl, exec (.axisMove h k flags target vmax) s = .next (holding s (startRun (if flags = 0 then
      movePlanned a k target vmax axMoving (fun x => { x with plan := some pl }) else
      movePlanned a k target vmax axArmed (fun x => { x with armed := some pl })) h 0x0702 k [])) := by
  intro a hvmax hsoft hidle hvalid hfree hlocked hmoves hhomes hsafe
  have hf : flags < 4 := by omega
  have hbit : flags.testBit 0 = false := by rcases hflags with rfl | rfl <;> rfl
  obtain ⟨pl, hplan⟩ : ∃ pl, planAxis (moveTaken a k target vmax) k (rdI (moveTaken a k target vmax) (AX_POS k) * 65536) 0 0 target
      (axVmax (moveTaken a k target vmax) k) = (moveTaken a k target vmax, pl) := ⟨_, Prod.ext (planAxis_rest _ _ _ _ _ _) rfl⟩
  refine ⟨{ pl with begun := false }, ?_⟩
  show execAxisMove h k flags target vmax s = _
  rw [execAxisMove]
  simp only [hbit, Bool.false_eq_true, if_false]
  rw [starts_body hs hp (by
    simp only [List.mem_cons, List.not_mem_nil, or_false, forall_eq_or_imp, forall_eq]
    refine ⟨by simp [hk, hf], by simp [a, hvmax, hsoft], by simp [a, hsafe, hidle, axIdle, axFault], ?_, ?_⟩
    · simp only [Bool.and_eq_true]
      exact ⟨⟨⟨by rw [hidle]; decide, by rw [hvalid]; rfl⟩, wayFree hfree⟩, by rw [hlocked]; rfl⟩
    · simp [axBusy, axMovingNow, hidle, hmoves, hhomes, a, axIdle, axArmed, axMoving, axStopping, axHoming])]
  refine (congrArg (fun q : State × AxisPlan => Host.Outcome.next (holding s (startRun
    (if flags.testBit 1 then setAxState (updAxis q.1 k (fun x => { x with armed := some { q.2 with begun := false } })) k axArmed
      else setAxState (updAxis q.1 k (fun x => { x with plan := some { q.2 with begun := false } })) k axMoving) h 0x0702 k []))) hplan).trans ?_
  rcases hflags with rfl | rfl
  · rfl
  · rfl

end

/-- Settles O11: each command's work within its axis, its section or its pending start. -/
theorem axisCommands : Obligations.AxisCommands := by
  intro s h k hs hk a
  refine ⟨fun sect vals hsect hlen hzero hbits hp => ?config, fun flags target vmax hflags hlo hhi hvmax hsoft hidle hvalid hfree hlocked hmoves hhomes hsafe hp => ?move,
    fun hidle hlocked hhomes => ⟨fun hen hsafe hp => ?home, fun value hp => ?setPos⟩, fun mask hpos hlt hon hp => ?stop,
    fun mask hpos hlt hresume hgroup hsafe hp hready => ?resume, fun mask flags time hpos hlt hflags hnow hlater hresume hgroup hsafe hp hready => ?group,
    fun target vmax accel decel hvmax hsoft hmoving hlocked hvalid hfree hpath hp => ?retarget⟩
  case config =>
    show Completes (execAxisConfig h k sect vals s) s h _ _ _ _ _ _ _
    have hpairs : (sectionPairs k sect vals).all (fun p => p.2 &&& fieldBits p.1 == p.2) = true := by
      rw [List.all_eq_true]
      intro p hp
      obtain ⟨i, hi, rfl⟩ := mem_sectionPairs.mp hp
      exact beq_iff_eq.mpr (hbits i hi)
    rw [execAxisConfig]
    simp only
    rw [starts_body hs hp (by
      simp only [List.mem_singleton, forall_eq, Bool.and_eq_true, decide_eq_true_eq]
      exact ⟨⟨⟨⟨hk, hsect⟩, hlen⟩, hzero⟩, hpairs⟩)]
    have hsame := sectionStaged_same a k (sectionPairs k sect vals)
    refine ⟨wrN (sectionStaged a k (sectionPairs k sect vals)) (AX_DEV_MAX k) 0, rfl, fun i hi happ => ?_, by rw [rdN_wrN_same]; rfl, fun r hr => ?_, hsame.axes,
      hsame.sram, hsame.dram, hsame.host, hsame.sramLost, hsame.dramLost⟩
    · have hapart : (axSection k sect).getD i 0 ≠ AX_DEV_MAX k := fun he => by
        have hmem : AX_DEV_MAX k ∈ axSection k sect := by
          rw [← he, List.getD_eq_getElem _ _ hi]
          exact List.getElem_mem hi
        revert hmem
        unfold axSection
        split <;> simp [AX_DEV_MAX, AX_CFG, AX_STEP_TIMING, AX_ENC_RATIO, AX_VMAX, AX_VSTART, AX_VSTOP, AX_ACCEL, AX_DECEL, AX_JERK, AX_SOFT_MIN, AX_SOFT_MAX,
          AX_DEV_WIN, AX_SW_CFG, AX_SSI_CFG, AX_HOME_CFG, AX_HOME_FAST, AX_HOME_SLOW, AX_HOME_BACKOFF, AX_HOME_TRAVEL, AX_HOME_POS]
      have hshadow := shadowOf_sectionStaged (sectionPairs_nodup k sect vals) (mem_sectionPairs.mpr ⟨i, hi, rfl⟩) happ a
      have hkept : shadowOf (wrN (sectionStaged a k (sectionPairs k sect vals)) (AX_DEV_MAX k) 0) ((axSection k sect).getD i 0) =
          shadowOf (sectionStaged a k (sectionPairs k sect vals)) ((axSection k sect).getD i 0) := by
        rw [shadowOf, shadowOf, wrN_shadow, rd_wrN_other _ hapart]
      exact hkept.trans hshadow
    · exact (rd_wrN_other _ hr).trans (hsame.rd r)
  case move =>
    obtain ⟨pl, hexec⟩ := exec_axisMove hs hk hflags hp hvmax hsoft hidle hvalid hfree hlocked hmoves hhomes hsafe
    rw [hexec]
    refine ⟨_, rfl, ?_⟩
    rcases hflags with rfl | rfl
    · obtain ⟨htarget, hpos, hremain, hkept, hstate, haxis, hothers, hlanes, hmem⟩ :=
        movePlanned_facts hk (by decide : axMoving < 16) hlo hhi a vmax (fun x => { x with plan := some pl })
      exact ⟨htarget, hpos, hremain, hkept, hstate, congrArg (fun x : Axis => x.plan.isSome) haxis, hothers, hlanes, hmem⟩
    · obtain ⟨htarget, hpos, hremain, hkept, hstate, haxis, hothers, hlanes, hmem⟩ :=
        movePlanned_facts hk (by decide : axArmed < 16) hlo hhi a vmax (fun x => { x with armed := some pl })
      exact ⟨htarget, hpos, hremain, hkept, hstate, congrArg (fun x : Axis => x.armed.isSome) haxis, hothers, hlanes, hmem⟩
  case home =>
    have hidle' : axState (accept s h) k = axIdle := hidle
    have hen' : swEn (accept s h) k (homeRef (accept s h) k) = true := hen
    have hsafe' : (accept s h).pwr.safe = false := hsafe
    have hlocked' : axLocked (accept s h) k = false := hlocked
    have hhomes' : isRunning (accept s h) 0x0703 k = false := hhomes
    show RunsOn (execAxisHome h k 0 0 s) s h _ _ _ _
    rw [execAxisHome, starts_body hs hp (by
      simp [hk, hidle', hen', hsafe', hlocked', hhomes', axBusy, axMovingNow, axIdle, axFault, axDisabled, axArmed, axMoving, axStopping, axHoming])]
    have hdrop : Same [.regs] a (dropRemain a k) := (wrN_same _ _ _).trans (setFlag_same _ _ _ _)
    have hsame : Same [.regs, .axes] a (setAxState (updAxis (dropRemain a k) k (fun x => { x with homing := 1, plan := none, vmax := 0, accel := 0, decel := 0 })) k axHoming) :=
      ((hdrop.mono (by decide)).trans ((updAxis_same _ _ _).mono (by decide))).trans ((setAxState_same _ _ _).mono (by decide))
    refine ⟨_, rfl, axState_setAxState _ hk (by decide), ?_, fun j hj => ?_, hsame.lanes, same_memory hsame⟩
    · exact congrArg Axis.homing ((axis_setAxState _ _ _ _).trans (axis_updAxis_same _ _ _))
    · exact (axis_setAxState _ _ _ _).trans ((axis_updAxis_other _ hj).trans (axis_congr hdrop.axes j))
  case setPos =>
    have hidle' : axState (accept s h) k = axIdle := hidle
    have hlocked' : axLocked (accept s h) k = false := hlocked
    have hhomes' : isRunning (accept s h) 0x0703 k = false := hhomes
    show RunsOn (execAxisHome h k 1 value s) s h _ _ _ _
    rw [execAxisHome, starts_body hs hp (by
      simp [hk, hidle', hlocked', hhomes', axBusy, axMovingNow, axIdle, axFault, axDisabled, axArmed, axMoving, axStopping, axHoming])]
    have hdrop : Only [.regs] (setOffReg k) a (dropRemain a k) := Only.setFlag (Only.wrN (Only.refl _ _ _) (by simp [setOffReg])) (by simp [setOffReg])
    have hsame : Same [.regs, .axes] a (updAxis (dropRemain a k) k (fun x => { x with setPos := some (1, value) })) :=
      (hdrop.same.mono (by decide)).trans ((updAxis_same _ _ _).mono (by decide))
    have hstate : axState (dropRemain a k) k = axState a k :=
      (fld_setFld_apart _ _ _ _ _ _ (by decide) (by decide) (by decide)).trans (fld_congr (rd_wrN_other _ (by simp [AX_STS, AX_REMAIN])) _ _)
    refine ⟨updAxis (dropRemain a k) k (fun x => { x with setPos := some (1, value) }), rfl, congrArg Axis.setPos (axis_updAxis_same _ _ _), hstate.trans hidle, hdrop.regs _ (by simp [setOffReg, AX_POS, AX_STS, AX_GROUP_STS, AX_REMAIN, AX_TARGET]; omega),
      fun j hj => (axis_updAxis_other _ hj).trans (axis_congr hdrop.same.axes j), same_memory hsame⟩
  case stop =>
    show Does (execAxisStop h mask s) s _
    rw [execAxisStop, starts_body hs hp (by
      simp only [List.mem_cons, List.not_mem_nil, or_false, forall_eq_or_imp, forall_eq, List.all_eq_true, bne_iff_ne, Bool.and_eq_true, decide_eq_true_eq]
      exact ⟨⟨hpos, hlt⟩, fun j hj => hon j (mem_bitList.mp hj).1 (mem_bitList.mp hj).2⟩)]
    have hmark := stopsMarked_same a mask
    generalize hvalid : ((bitList mask 8).filter (fun k => flag a (AX_STS k) 23)).foldl natSet 0 = valid
    have hend : Same (.running :: endParts) (stopsMarked a mask) (finishStops (startRun (stopsMarked a mask) h 0x0704 mask [mask, valid])) :=
      ((startRun_same _ _ _ _ _).mono (by decide)).trans (finishStops_same _)
    refine ⟨finishStops (startRun (stopsMarked a mask) h 0x0704 mask [mask, valid]), ?_, fun j hj hbit hmoves => ?_, fun j hbit => ?_, hend.lanes.trans hmark.lanes,
      hend.seq.trans hmark.seq⟩
    · rw [← hvalid]
      rfl
    · rw [axis_congr hend.axes]
      exact stopsMarked_marked hj hbit hmoves
    · rw [axis_congr hend.axes, stopsMarked_other hbit]
  case resume =>
    have hsafe' : (accept s h).pwr.safe = false := hsafe
    have hresume' : (accept s h).resumeStart = none := hresume
    have hgroup' : (accept s h).groupStart = none := hgroup
    have hone : ∀ j ∈ bitList mask 8, axState (accept s h) j = axIdle ∧ axLocked (accept s h) j = false ∧ flag (accept s h) (AX_STS j) 21 = true ∧
        (rdI (accept s h) (AX_REMAIN j) ≠ 0 → axBlocked (accept s h) j (decide (0 < rdI (accept s h) (AX_REMAIN j))) = false) :=
      fun j hj => hready j (mem_bitList.mp hj).1 (mem_bitList.mp hj).2
    show RunsOn (execAxisResume h mask 0 0 s) s h _ _ _ _
    rw [execAxisResume]
    simp only
    rw [starts_body hs hp (by
      simp only [List.mem_cons, List.not_mem_nil, or_false, forall_eq_or_imp, forall_eq, Bool.and_eq_true, List.all_eq_true]
      refine ⟨by simp [hpos, hlt], ⟨by rw [hsafe']; rfl, fun j hj => ?_⟩, fun j hj => ?_, ⟨⟨fun j hj => ?_, by rw [hresume']; rfl⟩, by rw [hgroup']; rfl⟩⟩
      · rw [(hone j hj).1]
        rfl
      · obtain ⟨hidle, hlocked, hkept, hway⟩ := hone j hj
        refine ⟨⟨⟨by rw [hidle]; rfl, by rw [hlocked]; rfl⟩, by rw [hkept, Bool.or_true]⟩, ?_⟩
        by_cases hzero : rdI (accept s h) (AX_REMAIN j) = 0
        · simp [hzero]
        · rw [hway hzero, Bool.not_false, Bool.or_true]
      · simp [axBusy, axMovingNow, (hone j hj).1, axIdle, axArmed, axMoving, axStopping, axHoming])]
    have hshow := (startShow_only { a with resumeStart := some ⟨mask, false, false, 0⟩ }).same
    exact ⟨_, rfl, hshow.resumeStart, hshow.axes, hshow.lanes, hshow.sram, hshow.dram, hshow.host, hshow.sramLost, hshow.dramLost⟩
  case group =>
    have hsafe' : (accept s h).pwr.safe = false := hsafe
    have hresume' : (accept s h).resumeStart = none := hresume
    have hgroup' : (accept s h).groupStart = none := hgroup
    have hone : ∀ j ∈ bitList mask 8, axState (accept s h) j = axArmed ∧ axLocked (accept s h) j = false :=
      fun j hj => hready j (mem_bitList.mp hj).1 (mem_bitList.mp hj).2
    have htime : (if flags.testBit 1 then decide (now (accept s h) + 50000 ≤ time) else time == 0) = true := by
      cases hbit : flags.testBit 1
      · simpa using hnow hbit
      · simpa using hlater hbit
    show RunsOn (execAxisGroupStart h mask flags time s) s h _ _ _ _
    rw [execAxisGroupStart]
    simp only
    rw [starts_body hs hp (by
      simp only [List.mem_cons, List.not_mem_nil, or_false, forall_eq_or_imp, forall_eq, Bool.and_eq_true, List.all_eq_true]
      refine ⟨⟨⟨⟨by simpa using hpos, by simpa using hlt⟩, by simpa using hflags⟩, htime⟩, ⟨by rw [hsafe']; rfl, fun j hj => ?_⟩, fun j hj => ?_,
        by rw [hresume']; rfl, by rw [hgroup']; rfl⟩
      · rw [(hone j hj).1]
        rfl
      · obtain ⟨harmed, hlocked⟩ := hone j hj
        exact ⟨by rw [harmed]; rfl, by rw [hlocked]; rfl⟩)]
    have hshow := (startShow_only { a with groupStart := some ⟨mask, flags.testBit 0, flags.testBit 1, time⟩ }).same
    refine ⟨_, rfl, hshow.groupStart, ?_, hshow.axes, hshow.lanes, hshow.sram, hshow.dram, hshow.host, hshow.sramLost, hshow.dramLost⟩
    exact (flag_congr (rd_wr64_other _ (by decide) (by decide)) _).trans (flag_setFlag_same _ _ _ (by decide))
  case retarget =>
    have hvmax' : vmax ≤ rdN (accept s h) (AX_VMAX k) := hvmax
    have hsoft' : softOk (accept s h) k target = true := hsoft
    have hmoving' : axState (accept s h) k = axMoving := hmoving
    have hlocked' : axLocked (accept s h) k = false := hlocked
    have hvalid' : flag (accept s h) (AX_STS k) 23 = true := hvalid
    have hfree' : isRunning (accept s h) 0x0707 k = false := hfree
    show RunsOn (execAxisRetarget h k 2 target vmax accel decel s) s h _ _ _ _
    rw [execAxisRetarget]
    simp only [show Nat.testBit 2 0 = false from rfl, Bool.false_eq_true, if_false]
    rw [starts_body hs hp (by
      simp only [List.mem_cons, List.not_mem_nil, or_false, forall_eq_or_imp, forall_eq, Bool.and_eq_true]
      exact ⟨⟨⟨by simpa using hk, by decide⟩, rfl⟩, ⟨by simpa using hvmax', hsoft'⟩, by rw [hmoving']; rfl,
        ⟨⟨⟨by rw [hmoving']; rfl, by rw [hlocked']; rfl⟩, by rw [hvalid']; rfl⟩, wayFree hpath⟩, by rw [hfree']; rfl⟩)]
    have hsame := updAxis_same a k (fun x => { x with retarget := some (target, vmax, accel, decel) })
    exact ⟨_, rfl, congrArg Axis.retarget (axis_updAxis_same _ _ _), hsame.regs, fun j hj => axis_updAxis_other _ hj, hsame.lanes, same_memory hsame⟩

end Sys2Proof.Proofs

/-! PROOFS. The tick boundary (R31, R40), events (R561, R565) and the safe state (R106, R107, R467). -/

namespace Sys2Proof.Proofs

-- One theorem after the other: elaborated at once, their threads outgrow the memory that a check may take.
set_option Elab.async false

open Sys2Proof.Machine Sys2Proof.Laws

/-- Settles O16: a device whose clocks run does the work of the boundary in this order. -/
theorem tickOrder : Obligations.TickOrder := by
  intro s pds encs late overrun rdy asks hclk b moved powered faulted
  show execTickBoundary pds encs late overrun rdy asks s = _
  rw [execTickBoundary, whileClocked_running _ hclk]

/-! ### Events -/

section
variable {s : State} {source code : Nat} {payload : List Byte}

theorem event_kept (h : s.evr.fifo.length < 128) : event s source code payload =
    let t := bump s EVR_SEQ
    let e : EvRec := ⟨now s, source, code, rdN s EVR_SEQ, padTo 14 payload⟩
    setFld { t with evr := { t.evr with fifo := t.evr.fifo ++ [e] } } EVR_STS 23 16 (t.evr.fifo.length + 1) := by
  have hevr : (bump s EVR_SEQ).evr = s.evr := (bump_same s EVR_SEQ).evr
  exact if_pos (by rw [hevr]; exact h)

theorem event_lost (h : 128 ≤ s.evr.fifo.length) : event s source code payload = bump (bump s EVR_SEQ) EVR_LOST := by
  have hevr : (bump s EVR_SEQ).evr = s.evr := (bump_same s EVR_SEQ).evr
  exact if_neg (by rw [hevr]; omega)

theorem bump_shape (s : State) (a : Nat) : ∃ w c, bump s a = { wr s a w with freeCtr := c } := by
  unfold bump bumpBy
  split
  · exact ⟨_, s.freeCtr, rfl⟩
  · exact ⟨_, _, rfl⟩

theorem event_rest (s : State) (source code : Nat) (payload : List Byte) :
    { event s source code payload with regs := s.regs, evr := s.evr, freeCtr := s.freeCtr } = s := by
  obtain ⟨w, c, hseq⟩ := bump_shape s EVR_SEQ
  by_cases hroom : s.evr.fifo.length < 128
  · rw [event_kept hroom, hseq]
    rfl
  · obtain ⟨v, d, hlost⟩ := bump_shape (bump s EVR_SEQ) EVR_LOST
    rw [event_lost (by omega), hlost, hseq]
    rfl

theorem event_only (s : State) (source code : Nat) (payload : List Byte) : Only [.regs, .evr, .freeCtr] evrReg s (event s source code payload) :=
  ⟨event_same _ _ _ _, event_regs _ _ _ _⟩

end

/-- Settles O18: by the room of the intake. -/
theorem eventsAreNumbered : Obligations.EventsAreNumbered := by
  intro s source code payload t
  have hsame := event_same s source code payload
  have hsts : EVR_SEQ ≠ EVR_STS := by decide
  have hlost : EVR_SEQ ≠ EVR_LOST := by decide
  have hevr : (bump s EVR_SEQ).evr = s.evr := (bump_same s EVR_SEQ).evr
  have hseq : rd t EVR_SEQ = rd (bump s EVR_SEQ) EVR_SEQ := by
    by_cases hroom : s.evr.fifo.length < 128
    · rw [show t = _ from event_kept hroom, rd_setFld_other _ _ _ hsts]
      rfl
    · rw [show t = _ from event_lost (by omega), rd_bump_other hlost]
  refine ⟨fun hlt => ?_, fun hroom => ⟨?_, ?_, ?_⟩, fun hfull => ⟨?_, fun hlt => ?_⟩, fun a h1 h2 h3 => ?_, ?_⟩
  · rw [rdN_congr hseq]
    exact rdN_bumpBy (by omega)
  · rw [show t = _ from event_kept hroom]
    simp only [hevr, setFld_evr]
  · rw [show t = _ from event_kept hroom, fld_setFld_same _ _ _ _ (by decide) (by decide), hevr]
    omega
  · rw [show t = _ from event_kept hroom, rd_setFld_other _ _ _ (by decide)]
    exact rd_bump_other (by decide)
  · rw [show t = _ from event_lost hfull, (bump_same _ _).evr, hevr]
  · have hbefore : rdN (bump s EVR_SEQ) EVR_LOST = rdN s EVR_LOST := rdN_congr (rd_bump_other (by decide))
    rw [show t = _ from event_lost hfull, ← hbefore]
    exact rdN_bumpBy (by omega)
  · exact event_regs s source code payload a (by simp [evrReg, h1, h2, h3])
  · exact event_rest s source code payload

/-! ### The safe state -/

section
variable {s : State}

/-- What stands on the laser port of a lane that was made safe (R106). -/
def LaneDark (n : Nat) (t : State) : Prop := gateOf t n = false ∧ emitOf t n = false ∧ fld t (LAS_WORD n) 15 0 = 0

theorem LaneDark.of_rd {n : Nat} {t u : State} (h : LaneDark n t) (hsts : rd u (LAS_STS n) = rd t (LAS_STS n)) (hword : rd u (LAS_WORD n) = rd t (LAS_WORD n)) :
    LaneDark n u :=
  ⟨(flag_congr hsts _).trans h.1, (flag_congr hsts _).trans h.2.1, (fld_congr hword _ _).trans h.2.2⟩

theorem laneSafe_dark (s : State) {n : Nat} (hn : n < 24) : LaneDark n (laneSafe s n) := by
  obtain ⟨hgate, hemit⟩ := darken_dark (holdSent s n) n
  have hne : LAS_STS n ≠ LAS_WORD n := by simp [LAS_STS, LAS_WORD]
  have hset : LaneDark n (setFld (darken (holdSent s n) n) (LAS_WORD n) 15 0 0) :=
    ⟨(flag_congr (rd_setFld_other _ _ _ hne) _).trans hgate, (flag_congr (rd_setFld_other _ _ _ hne) _).trans hemit, fld_setFld_same _ _ _ _ (by decide) (by decide)⟩
  unfold laneSafe
  dsimp only
  split
  · refine hset.of_rd (endJog_rd _ _ ?_ (endReg_ax ?_)) (endJog_rd _ _ ?_ (endReg_ax ?_)) <;> simp only [LAS_STS, LAS_WORD, SCN_STS] <;> omega
  · exact hset

theorem laneSafe_other {n m : Nat} (h : m ≠ n) (hm : m < 24) : rd (laneSafe s n) (LAS_STS m) = rd s (LAS_STS m) ∧ rd (laneSafe s n) (LAS_WORD m) = rd s (LAS_WORD m) := by
  refine ⟨laneSafe_rd ?_ ?_ ?_ (endReg_ax ?_), laneSafe_rd ?_ ?_ ?_ (endReg_ax ?_)⟩ <;> simp only [LAS_STS, LAS_WORD, SCN_STS] <;> omega

theorem lanesSafe_dark (s : State) : ∀ n < 24, LaneDark n (lanes24.foldl laneSafe s) := by
  have hall := foldl_each (l := lanes24) List.nodup_range laneSafe (fun _ _ => True) LaneDark
    (fun t n hn _ => laneSafe_dark t (List.mem_range.mp hn)) (fun _ _ _ _ _ _ _ => trivial)
    (fun t n _ m hm hne hdark => hdark.of_rd (laneSafe_other hne (List.mem_range.mp hm)).1 (laneSafe_other hne (List.mem_range.mp hm)).2) s
    (fun _ _ => trivial)
  exact fun n hn => hall n (List.mem_range.mpr hn)

/-- An axis enters the safe state (R106). -/
def axisSafe (s : State) (k : Nat) : State := setFlag (if axState s k == axArmed || axMovingNow s k then axisHalt s k 6 else s) (AX_STS k) 15 false

/-- What stands on an axis that was made safe. -/
def AxisStill (k : Nat) (t : State) : Prop := flag t (AX_STS k) 15 = false ∧ axMovingNow t k = false

/-- Registers that the safe state of the axes writes. -/
def axisSafeReg (a : Nat) : Bool := axisReg a || endReg a

theorem axisSafe_regs {k : Nat} (s : State) : RegsKept (fun a => axReg k a || endReg a) s (axisSafe s k) := by
  intro a ha
  have hsts : a ≠ AX_STS k := by
    rintro rfl
    simp [axReg] at ha
  rw [axisSafe, rd_setFlag_other _ _ hsts]
  split
  · exact axisHalt_regs s k 6 a ha
  · rfl

theorem axisSafe_same (s : State) (k : Nat) : Same axParts s (axisSafe s k) := by
  unfold axisSafe
  refine Same.trans ?_ ((setFlag_same _ _ _ _).mono (by decide))
  split
  · exact axisHalt_same _ _ _
  · exact Same.refl _ _

theorem axisSafe_still (s : State) {k : Nat} (hk : k < 8) : AxisStill k (axisSafe s k) := by
  have hstate : ∀ t, axState (setFlag t (AX_STS k) 15 false) k = axState t k := fun t => fld_setFld_apart _ _ _ _ _ _ (by decide) (by decide) (by decide)
  refine ⟨flag_setFlag_same _ _ _ (by decide), ?_⟩
  rw [axisSafe, axMovingNow, hstate]
  split
  · have hfault : axState (axisHalt s k 6) k = axFault := ((axisHalt_ended s k 6).axState hk).trans (axisHalted_state s hk (by decide)).1
    rw [hfault]
    rfl
  · rename_i hstill
    rw [← axMovingNow]
    simp only [Bool.or_eq_true, not_or] at hstill
    simpa using hstill.2

theorem AxisStill.of_rd {k : Nat} {t u : State} (h : AxisStill k t) (hsts : rd u (AX_STS k) = rd t (AX_STS k)) : AxisStill k u := by
  refine ⟨(flag_congr hsts _).trans h.1, ?_⟩
  rw [axMovingNow, axState, fld_congr hsts]
  exact h.2

theorem axesSafe_still (s : State) : ∀ k < 8, AxisStill k ((List.range 8).foldl axisSafe s) := by
  have hall := foldl_each (l := List.range 8) List.nodup_range axisSafe (fun _ _ => True) AxisStill
    (fun t k hk _ => axisSafe_still t (List.mem_range.mp hk)) (fun _ _ _ _ _ _ _ => trivial)
    (fun t k hk j hj hne hstill => hstill.of_rd (axisSafe_regs t _ ?_)) s (fun _ _ => trivial)
  · exact fun k hk => hall k (List.mem_range.mpr hk)
  · have hk := List.mem_range.mp hk
    have hj := List.mem_range.mp hj
    rw [Bool.or_eq_false_iff]
    refine ⟨axReg_iff.mpr ?_, endReg_ax (by simp only [AX_STS]; omega)⟩
    simp only [AX_STS, AX_POS, AX_REMAIN, AX_VEL, AX_GROUP_STS]
    omega

/-- The device on its way into the safe state (R106, R107): SAFE_N low, then its lanes, then its axes. -/
def safeEntered (s : State) : State := { s with pwr := { s.pwr with safe := true }, pins := { s.pins with safeN := false } }

theorem enterSafe_eq (s : State) : enterSafe s = trigSafe ((List.range 8).foldl axisSafe (lanes24.foldl laneSafe (safeEntered s))) := rfl

/-- Registers that disarming the triggers writes. -/
def trigReg (a : Nat) : Bool := (List.range 4).any (fun g => a == FTM_TRIG_STS g) || evrReg a

/-- The triggers disarmed, before their event. -/
def disarmed (s : State) : State := (List.range 4).foldl (fun s t => setFlag s (FTM_TRIG_STS t) 31 false) s

theorem trigSafe_regs (s : State) : RegsKept trigReg s (trigSafe s) := by
  have hfold : Only [.regs] trigReg s (disarmed s) := Only.foldl _ _ (fun t g hg => Only.setFlag (Only.refl _ _ _) (by
    simp only [trigReg, Bool.or_eq_true, List.any_eq_true]
    exact .inl ⟨g, hg, beq_self_eq_true _⟩)) s
  intro a ha
  refine Eq.trans ?_ (hfold.regs a ha)
  have hevr : evrReg a = false := (Bool.or_eq_false_iff.mp ha).2
  unfold trigSafe
  dsimp only
  split
  · exact (event_regs _ _ _ _ a hevr).trans (rd_trigShow _ _)
  · exact rd_trigShow _ _

theorem disarmed_flag (s : State) {g : Nat} (hg : g < 4) : flag (disarmed s) (FTM_TRIG_STS g) 31 = false :=
  flag_foldl_setFlag_each FTM_TRIG_STS (fun c d h => by simp only [FTM_TRIG_STS] at h; omega) (fun _ => false) (by decide) (.inl (List.mem_range.mpr hg))

theorem trigSafe_disarmed (s : State) {g : Nat} (hg : g < 4) : flag (trigSafe s) (FTM_TRIG_STS g) 31 = false := by
  refine Eq.trans (flag_congr ?_ _) (disarmed_flag s hg)
  unfold trigSafe
  dsimp only
  split
  · refine (event_regs _ _ _ _ _ ?_).trans (rd_trigShow _ _)
    revert hg
    revert g
    decide
  · exact rd_trigShow _ _

theorem trigSafe_pins (s : State) (h : s.pwr.safe = true) : (trigSafe s).pins = { s.pins with trig := 0 } := by
  have hsame : Same [.regs] s (disarmed s) := Same.foldl _ (fun t g => setFlag_same _ _ _ _) _ _
  have hshown : (trigShow { disarmed s with ftm := { (disarmed s).ftm with pulse := 0 } }).pins = { s.pins with trig := 0 } := by
    have hsafe : (disarmed s).pwr.safe = true := by rw [hsame.pwr]; exact h
    simp only [trigShow, hsafe, Bool.true_or, if_true, hsame.pins]
  unfold trigSafe
  dsimp only
  split
  · exact (event_same _ _ _ _).pins.trans hshown
  · exact hshown

theorem trigReg_las : ∀ n < 24, trigReg (LAS_STS n) = false ∧ trigReg (LAS_WORD n) = false := by decide

theorem trigReg_axis : ∀ k < 8, trigReg (AX_STS k) = false := by decide

theorem axReg_las {k n : Nat} (hn : n < 24) : (axReg k (LAS_STS n) || endReg (LAS_STS n)) = false ∧ (axReg k (LAS_WORD n) || endReg (LAS_WORD n)) = false := by
  simp only [Bool.or_eq_false_iff, axReg_iff]
  refine ⟨⟨?_, endReg_ax (by simp only [LAS_STS]; omega)⟩, ?_, endReg_ax (by simp only [LAS_WORD]; omega)⟩ <;>
    simp only [LAS_STS, LAS_WORD, AX_STS, AX_POS, AX_REMAIN, AX_VEL, AX_GROUP_STS] <;> omega

/-- Every lane is dark in the safe state. -/
theorem enterSafe_dark (s : State) {n : Nat} (hn : n < 24) : LaneDark n (enterSafe s) := by
  rw [enterSafe_eq]
  have haxes : LaneDark n ((List.range 8).foldl axisSafe (lanes24.foldl laneSafe (safeEntered s))) :=
    foldl_inv (LaneDark n) axisSafe _ (fun t k _ h => h.of_rd (axisSafe_regs t _ (axReg_las hn).1) (axisSafe_regs t _ (axReg_las hn).2)) _ (lanesSafe_dark _ n hn)
  exact haxes.of_rd (trigSafe_regs _ _ (trigReg_las n hn).1) (trigSafe_regs _ _ (trigReg_las n hn).2)

theorem enterSafe_before (s : State) : Same (.lanes :: axParts) (safeEntered s) ((List.range 8).foldl axisSafe (lanes24.foldl laneSafe (safeEntered s))) :=
  (Same.foldl _ (fun t n => (laneSafe_same t n).mono (by decide)) _ _).trans (Same.foldl _ (fun t k => (axisSafe_same t k).mono (by decide)) _ _)

theorem enterSafe_pwr (s : State) : (enterSafe s).pwr = { s.pwr with safe := true } := by
  rw [enterSafe_eq, (trigSafe_same _).pwr, (enterSafe_before s).pwr]
  rfl

theorem enterSafe_pins (s : State) : (enterSafe s).pins = { s.pins with safeN := false, trig := 0 } := by
  have hbefore := enterSafe_before s
  rw [enterSafe_eq, trigSafe_pins _ (by rw [hbefore.pwr]; rfl), hbefore.pins]
  rfl

end

/-- Settles O19: lane by lane, axis by axis and trigger by trigger. -/
theorem safeStateIsSafe : Obligations.SafeStateIsSafe := by
  intro s t
  have hsame : Same safeParts s t := enterSafe_same s
  have hpwr : t.pwr = { s.pwr with safe := true } := enterSafe_pwr s
  have hpins : t.pins = { s.pins with safeN := false, trig := 0 } := enterSafe_pins s
  refine ⟨by rw [hpwr], by rw [hpins], by rw [hpins], fun n hn => enterSafe_dark s hn, fun k hk => ?_, fun g hg => trigSafe_disarmed _ hg, hsame.sram, hsame.dram, by rw [hpwr]⟩
  exact (axesSafe_still (lanes24.foldl laneSafe (safeEntered s)) k hk).of_rd (trigSafe_regs _ _ (trigReg_axis k hk))

end Sys2Proof.Proofs

/-! PROOFS. Laser ports, the shutter path and the power ledger (R239 to R264). -/

namespace Sys2Proof.Proofs

-- One theorem after the other: elaborated at once, their threads outgrow the memory that a check may take.
set_option Elab.async false

open Sys2Proof.Machine Sys2Proof.Laws

/-! ### Fields staged in the shadows -/

section
variable {s : State} {g : Nat}

/-- A staged entry leaves the bits `hi..lo` of the register at `a`. -/
def apartFrom (a hi lo : Nat) (w : Nat × Nat × Nat × Nat) : Prop := w.1 ≠ a ∨ (w.2.2.1 ≤ w.2.1 ∧ (w.2.1 < lo ∨ hi < w.2.2.1))

theorem staged_keeps {ws : List (Nat × Nat × Nat × Nat)} {a hi lo : Nat} (hlo : lo ≤ hi) (h : ∀ w ∈ ws, apartFrom a hi lo w) (s : State) :
    bitsOf (shadowOf (staged s g ws) a) hi lo = bitsOf (shadowOf s a) hi lo := by
  refine foldl_inv (fun t => bitsOf (shadowOf t a) hi lo = bitsOf (shadowOf s a) hi lo) _ ws (fun t w hw ht => ?_) s rfl
  rcases h w hw with hne | ⟨hle, hapart⟩
  · rw [shadowOf_setShadow_other (Ne.symm hne), ht]
  · by_cases he : w.1 = a
    · rw [← he, shadowOf_setShadow_same, bitsOf_setBits_other _ _ _ _ _ _ hle hlo (by omega), he, ht]
    · rw [shadowOf_setShadow_other (Ne.symm he), ht]

/-- The `i`-th entry staged stands in its field when no later one touches it. -/
theorem staged_field {ws : List (Nat × Nat × Nat × Nat)} {a hi lo v : Nat} (s : State) (g i : Nat) (hi32 : hi < 32) (hlo : lo ≤ hi)
    (hat : ws[i]? = some (a, hi, lo, v)) (h : ∀ w ∈ ws.drop (i + 1), apartFrom a hi lo w) :
    bitsOf (shadowOf (staged s g ws) a) hi lo = v % 2 ^ (hi - lo + 1) := by
  have hlt : i < ws.length := by
    by_contra hge
    rw [List.getElem?_eq_none (by omega)] at hat
    cases hat
  have hsplit : ws = ws.take i ++ (a, hi, lo, v) :: ws.drop (i + 1) := by
    rw [List.getElem?_eq_getElem hlt, Option.some.injEq] at hat
    rw [← hat, ← List.drop_eq_getElem_cons hlt, List.take_append_drop]
  have hcons : staged s g ws = staged (setShadow (staged s g (ws.take i)) g a hi lo v) g (ws.drop (i + 1)) :=
    (congrArg (staged s g) hsplit).trans (by rw [staged, List.foldl_append, List.foldl_cons]; rfl)
  rw [hcons, staged_keeps hlo h, shadowOf_setShadow_same, bitsOf_setBits_same _ _ _ _ hi32 hlo]

theorem word_of_bits {w : Word} {v : Nat} (h : bitsOf w 31 0 = v % 2 ^ 32) : w = BitVec.ofNat 32 v := by
  apply BitVec.eq_of_toNat_eq
  rw [BitVec.toNat_ofNat, ← h, bitsOf, natBits, Nat.shiftRight_zero, Nat.mod_eq_of_lt w.isLt]

end

/-! ### Lanes -/

section
variable {s : State} {n : Nat}

theorem lane_congr {t : State} (h : t.lanes = s.lanes) (j : Nat) : lane t j = lane s j := congrArg (fun l => mget Lane.reset l j) h

theorem setGate_lane_other {j : Nat} (b : Bool) (t : Nat) (h : j ≠ n) : lane (setGate s n b t) j = lane s j := by
  unfold setGate
  split
  · rfl
  · exact (lane_congr (setFlag_same _ _ _ _).lanes j).trans (lane_updLane_other _ _ h)

theorem darken_lane_other {j : Nat} (h : j ≠ n) : lane (darken s n) j = lane s j := by
  unfold darken gateLow
  dsimp only
  split
  · exact (setGate_lane_other _ _ h).trans (lane_updLane_other _ _ h)
  · exact (setGate_lane_other _ _ h).trans (lane_updLane_other _ _ h)

/-- LASER_PORT_SET: what it stages (R260). -/
def laserFields (n mode flags filter pfs pmax lead : Nat) : List (Nat × Nat × Nat × Nat) :=
  [(LAS_CFG n, 31, 24, filter), (LAS_CFG n, 8, 8, b2n (flags.testBit 0)), (LAS_CFG n, 1, 0, mode), (LAS_CFG n, 4, 4, b2n (flags.testBit 1)),
   (LAS_PFS n, 15, 0, pfs), (LAS_PMAX n, 31, 0, pmax), (LAS_EMIT_LEAD n, 15, 0, lead)]

/-- What it takes at once: MODE and the polarity; an OFF port is dark (R242). -/
def portTaken (s : State) (n mode flags : Nat) : State :=
  let s := setFlag (setFld s (LAS_CFG n) 1 0 mode) (LAS_CFG n) 4 (flags.testBit 1)
  if mode = 0 then darken s n else s

end

theorem laserCommands : Claim.LaserCommands := by
  intro s h hs a
  refine ⟨fun n mode flags filter pfs pmax lead hn hon hfree hmode hflags hf1 hf2 hp1 hp2 hpmax hlead hp => ?port, fun budget dpdt stepMax hd hp => ?ledger⟩
  case port =>
    have hon' : domOn (accept s h) (2 + quadOf n) = true := hon
    have hfree' : laneInLayer (accept s h) n = false := hfree
    show Completes (execLaserPortSet h n mode flags filter pfs pmax lead s) s h _ _ _ _ _ _ _
    rw [execLaserPortSet, starts_body hs hp (by simp [hn, hmode, hflags, hf1, hp1, hon', hfree'])]
    have hsame : Same [.regs, .lanes] a (portTaken a n mode flags) := by
      have hset : Same [.regs] a (setFlag (setFld a (LAS_CFG n) 1 0 mode) (LAS_CFG n) 4 (flags.testBit 1)) := (setFld_same _ _ _ _ _).trans (setFlag_same _ _ _ _)
      unfold portTaken
      dsimp only
      split
      · exact (hset.mono (by decide)).trans (darken_same _ _)
      · exact hset.mono (by decide)
    have hst := staged_same (portTaken a n mode flags) 3 (laserFields n mode flags filter pfs pmax lead)
    have hall : Same [.regs, .lanes, .shadow, .dirty] a (staged (portTaken a n mode flags) 3 (laserFields n mode flags filter pfs pmax lead)) :=
      (hsame.mono (by decide)).trans (hst.mono (by decide))
    have hcfg : rd (portTaken a n mode flags) (LAS_CFG n) = rd (setFlag (setFld a (LAS_CFG n) 1 0 mode) (LAS_CFG n) 4 (flags.testBit 1)) (LAS_CFG n) := by
      unfold portTaken
      dsimp only
      split
      · exact darken_rd (by simp [LAS_CFG, LAS_STS])
      · rfl
    refine ⟨staged (portTaken a n mode flags) 3 (laserFields n mode flags filter pfs pmax lead), rfl, ?_, ?_, fun hoff => ?_, ?_, ?_, ?_, ?_,
      staged_dirty _ _ (List.cons_ne_nil _ _), fun j hj => ?_, same_memory hall⟩
    · rw [fld_congr ((hst.rd _).trans hcfg), setFlag, fld_setFld_apart _ _ _ _ _ _ (by decide) (by decide) (by decide), fld_setFld_same _ _ _ _ (by decide) (by decide)]
      omega
    · rw [flag_congr ((hst.rd _).trans hcfg), flag_setFlag_same _ _ _ (by decide)]
    · have hdark := darken_dark (setFlag (setFld a (LAS_CFG n) 1 0 mode) (LAS_CFG n) 4 (flags.testBit 1)) n
      have htaken : portTaken a n mode flags = darken (setFlag (setFld a (LAS_CFG n) 1 0 mode) (LAS_CFG n) 4 (flags.testBit 1)) n := if_pos hoff
      rw [← htaken] at hdark
      exact ⟨(flag_congr (hst.rd _) _).trans hdark.1, (flag_congr (hst.rd _) _).trans hdark.2⟩
    · rw [staged_field _ _ 0 (by decide) (by decide) rfl (by simp [laserFields, apartFrom, LAS_CFG, LAS_PFS, LAS_PMAX, LAS_EMIT_LEAD])]
      exact Nat.mod_eq_of_lt hf2
    · rw [staged_field _ _ 1 (by decide) (by decide) rfl (by simp [laserFields, apartFrom, LAS_CFG, LAS_PFS, LAS_PMAX, LAS_EMIT_LEAD])]
      cases flags.testBit 0 <;> rfl
    · rw [staged_field _ _ 4 (by decide) (by decide) rfl (by simp [laserFields, apartFrom, LAS_PFS, LAS_PMAX, LAS_EMIT_LEAD])]
      exact Nat.mod_eq_of_lt hp2
    · exact word_of_bits (staged_field _ _ 5 (by decide) (by decide) rfl (by simp [laserFields, apartFrom, LAS_PMAX, LAS_EMIT_LEAD]))
    · have hlanes : lane (portTaken a n mode flags) j = lane a j := by
        unfold portTaken
        dsimp only
        split
        · exact darken_lane_other hj
        · rfl
      exact (lane_congr hst.lanes j).trans hlanes
  case ledger =>
    show Completes (execLedgerSet h budget dpdt stepMax s) s h _ _ _ _ _ _ _
    rw [execLedgerSet, starts_body hs hp (by simp [hd])]
    have hst := staged_same a 4 [(LEDG_BUDGET, 31, 0, budget), (LEDG_DPDT, 31, 0, dpdt), (LEDG_STEP_MAX, 31, 0, stepMax)]
    exact ⟨staged a 4 [(LEDG_BUDGET, 31, 0, budget), (LEDG_DPDT, 31, 0, dpdt), (LEDG_STEP_MAX, 31, 0, stepMax)], rfl,
      word_of_bits (staged_field _ _ 0 (by decide) (by decide) rfl (by simp [apartFrom, LEDG_BUDGET, LEDG_DPDT, LEDG_STEP_MAX])),
      word_of_bits (staged_field _ _ 1 (by decide) (by decide) rfl (by simp [apartFrom, LEDG_DPDT, LEDG_STEP_MAX])),
      word_of_bits (staged_field _ _ 2 (by decide) (by decide) rfl (by simp)), staged_dirty _ _ (List.cons_ne_nil _ _), hst.regs, hst.ledger, same_memory hst⟩

/-! ### The ledger's boundary work -/

section
variable {s : State}

/-- Registers that tell the ledger. -/
def ledgReg (a : Nat) : Bool := a == LEDG_GRANTED || (a == LEDG_STS || (a == LEDG_PEAK || a == LEDG_CEILING))

theorem ledgerShow_only (s : State) : Only [.regs] ledgReg s (ledgerShow s) := by
  have hshow : Only [.regs] ledgReg s (setFlag (setFld (wrN s LEDG_GRANTED (ledgerG s)) LEDG_STS 31 16 s.ledger.waiting.length) LEDG_STS 1
      (decide (rdN (setFld (wrN s LEDG_GRANTED (ledgerG s)) LEDG_STS 31 16 s.ledger.waiting.length) LEDG_BUDGET < ledgerG s))) :=
    Only.setFlag (Only.setFld (Only.wrN (Only.refl _ _ s)))
  unfold ledgerShow
  dsimp only
  split
  · exact Only.wrN hshow
  · exact hshow

/-- Grants whose release has come leave the ledger (R254, R257). -/
def releasesTaken (s : State) : State := ledgerShow { s with ledger := { s.ledger with grants := s.ledger.grants.filter (fun g => g.slot != 3) } }

/-- The ceiling of the boundary is taken, and shown (R256). -/
def ceilingTaken (s : State) : State :=
  setFlag (wrN s LEDG_CEILING (ceilingOf s)) LEDG_STS 0 (rdN s LEDG_DPDT != 0 && decide (ceilingOf s < rdN s LEDG_BUDGET))

theorem ceilingTaken_only (s : State) : Only [.regs] ledgReg s (ceilingTaken s) := Only.setFlag (Only.wrN (Only.refl _ _ s))

/-- Requests that can never be granted end (R258). -/
def impossibleEnded (s : State) : State :=
  (s.ledger.waiting.filter (impossible s)).foldl (fun s q => raiseOnce (grantShow (ledgerShow s) q.lane) clsLane 0x010C (srcLane q.lane) (leBytes 4 q.vid ++ leBytes 4 q.mw))
    { s with ledger := { s.ledger with waiting := s.ledger.waiting.filter (fun q => !impossible s q) } }

theorem impossibleEnded_none (h : ∀ q ∈ s.ledger.waiting, impossible s q = false) : impossibleEnded s = s := by
  have hbad : s.ledger.waiting.filter (impossible s) = [] := List.filter_eq_nil_iff.mpr (fun q hq => by rw [h q hq]; exact Bool.false_ne_true)
  have hkept : s.ledger.waiting.filter (fun q => !impossible s q) = s.ledger.waiting := List.filter_eq_self.mpr (fun q hq => by rw [h q hq]; rfl)
  rw [impossibleEnded, hbad, hkept]
  rfl

theorem exec_ledgerGrant (hclk : Clocked s) (hlayer : layerSt s = stExposing ∨ layerSt s = stStopBath) :
    let t := releasesTaken s
    let u := impossibleEnded (ceilingTaken t)
    exec .ledgerGrant s = .next (holding s (grantPass (ceilingOf t) (sortBy (fun q : GrantReq => q.tick * 32 + q.lane) u.ledger.waiting) u)) := by
  intro t u
  have hacts : ¬ (layerSt s ≠ stExposing && layerSt s ≠ stStopBath) = true := by
    rcases hlayer with h | h <;> rw [h] <;> decide
  show execLedgerGrant s = _
  rw [execLedgerGrant, whileClocked_running _ hclk, if_neg hacts]
  rfl

/-- The ledger after the releases and the ceiling of a boundary at which no request is impossible. -/
structure CeilingReady (s u : State) : Prop where
  same : Same [.regs, .ledger] s u
  regs : RegsKept ledgReg s u
  ledger : u.ledger = { s.ledger with grants := s.ledger.grants.filter (fun g => g.slot != 3) }

theorem ceilingReady (s : State) : CeilingReady s (ceilingTaken (releasesTaken s)) := by
  have hrel := ledgerShow_only { s with ledger := { s.ledger with grants := s.ledger.grants.filter (fun g => g.slot != 3) } }
  have hceil := ceilingTaken_only (releasesTaken s)
  have hledger : Same [.ledger] s { s with ledger := { s.ledger with grants := s.ledger.grants.filter (fun g => g.slot != 3) } } := by
    intro q hq; cases q <;> first | rfl | exact absurd (by decide) hq
  exact ⟨(hledger.mono (by decide)).trans ((hrel.same.mono (by decide)).trans (hceil.same.mono (by decide))), hrel.regs.trans hceil.regs,
    hceil.same.ledger.trans hrel.same.ledger⟩

/-- Nothing but lane `n` changes. -/
def OnlyLane (n : Nat) (s t : State) : Prop := Same [.lanes] s t ∧ ∀ j, j ≠ n → lane t j = lane s j

theorem OnlyLane.refl (n : Nat) (s : State) : OnlyLane n s s := ⟨Same.refl _ _, fun _ _ => rfl⟩

theorem OnlyLane.upd {n : Nat} {t : State} (h : OnlyLane n s t) (f : Lane → Lane) : OnlyLane n s (updLane t n f) :=
  ⟨h.1.trans (updLane_same _ _ _), fun j hj => (lane_updLane_other _ _ hj).trans (h.2 j hj)⟩

theorem OnlyLane.ite {n : Nat} {t u : State} {c : Prop} [Decidable c] (ht : OnlyLane n s t) (hu : OnlyLane n s u) : OnlyLane n s (if c then t else u) := by
  split
  · exact ht
  · exact hu

theorem openWindow_only (s : State) (n b : Nat) : OnlyLane n s (openWindow s n b) := by
  unfold openWindow
  dsimp only
  split
  · exact OnlyLane.refl _ _
  · exact (OnlyLane.refl _ _).upd _

theorem fixStart_only (s : State) (n : Nat) : OnlyLane n s (fixStart s n) := by
  unfold fixStart
  dsimp only
  split
  · exact OnlyLane.ite (OnlyLane.refl _ _) (OnlyLane.ite (OnlyLane.refl _ _) ((openWindow_only _ _ _).upd _))
  · exact OnlyLane.refl _ _

/-- A request taken out of those that wait, its grant kept with the tick of the grant (R254). -/
def grantTaken (s : State) (q : GrantReq) : State :=
  grantShow (ledgerShow { s with ledger := { s.ledger with
    waiting := s.ledger.waiting.filter (fun x => !(x.lane == q.lane && x.slot == q.slot))
    grants := s.ledger.grants ++ [{ q with tick := tickNo s }] } }) q.lane

theorem grantTaken_same (s : State) (q : GrantReq) : Same [.regs, .ledger] s (grantTaken s q) := by
  have hledger : ∀ l, Same [.regs, .ledger] s { s with ledger := l } := fun l p hp => by cases p <;> first | rfl | exact absurd (by decide) hp
  exact (hledger _).trans (((ledgerShow_same _).trans (grantShow_same _ _)).mono (by decide))

theorem grantTaken_ledger (s : State) (q : GrantReq) : (grantTaken s q).ledger = { s.ledger with
    waiting := s.ledger.waiting.filter (fun x => !(x.lane == q.lane && x.slot == q.slot))
    grants := s.ledger.grants ++ [{ q with tick := tickNo s }] } :=
  (grantShow_same _ _).ledger.trans (ledgerShow_same _).ledger

theorem giveGrant_fix {q : GrantReq} (hslot : q.slot ≠ 1) (hphase : (lane s q.lane).phase ≠ .waitGrant) : giveGrant s q = fixStart (grantTaken s q) q.lane := by
  have hkept : lane (grantTaken s q) q.lane = lane s q.lane := lane_congr (grantTaken_same s q).lanes _
  have hwaits : ¬ ((lane (grantTaken s q) q.lane).phase == Phase.waitGrant) = true := by
    rw [hkept]
    simpa using hphase
  exact (if_neg hslot).trans (if_neg hwaits)

end

theorem laserPinsAndGrants : Claim.LaserPinsAndGrants := by
  intro s n hclk hn
  refine ⟨fun hwas => ?alarm, ?clear, fun hemit => ?fault, fun hdark => ?dark, fun hexp hbath => ?still, fun hlayer => ?grants⟩
  case alarm =>
    intro u
    show execAlmNChange n true s = _
    rw [execAlmNChange, whileClocked_running _ hclk]
    exact congrArg (fun t => Host.Outcome.next (holding s t)) (if_neg (by rw [hwas]; decide))
  case clear =>
    show execAlmNChange n false s = _
    rw [execAlmNChange, whileClocked_running _ hclk]
    rfl
  case fault =>
    have hstill : emitOf (setFlag s (LAS_STS n) 3 false) n = true := (flag_setFlag_apart _ _ _ _ _ (by decide)).trans hemit
    show execRdyFall n s = _
    rw [execRdyFall, whileClocked_running _ hclk]
    exact congrArg (fun t => Host.Outcome.next (holding s t)) (if_pos hstill)
  case dark =>
    have hstill : emitOf (setFlag s (LAS_STS n) 3 false) n = false := (flag_setFlag_apart _ _ _ _ _ (by decide)).trans hdark
    show execRdyFall n s = _
    rw [execRdyFall, whileClocked_running _ hclk]
    exact congrArg (fun t => Host.Outcome.next (holding s t)) (if_neg (by rw [hstill]; decide))
  case still =>
    show execLedgerGrant s = _
    rw [execLedgerGrant, whileClocked_running _ hclk, if_pos (by simp [hexp, hbath])]
  case grants =>
    intro kept b
    have hready := ceilingReady s
    obtain ⟨hsame, hregs, hledger⟩ := hready
    have hbudget : rdN (ceilingTaken (releasesTaken s)) LEDG_BUDGET = rdN s LEDG_BUDGET := rdN_congr (hregs _ (by decide))
    have hdpdt : rdN (ceilingTaken (releasesTaken s)) LEDG_DPDT = rdN s LEDG_DPDT := rdN_congr (hregs _ (by decide))
    rw [exec_ledgerGrant hclk hlayer]
    have hceil : rd (ceilingTaken (releasesTaken s)) LEDG_CEILING = BitVec.ofNat 32 (ceilingOf b) := (rd_setFlag_other _ _ (by decide)).trans (rd_wr_same _ _)
    have hflat : rdN s LEDG_DPDT = 0 → ceilingOf (releasesTaken s) = rdN s LEDG_BUDGET := fun h0 => by
      have hb : rdN (releasesTaken s) LEDG_BUDGET = rdN s LEDG_BUDGET := rdN_congr ((ledgerShow_only _).regs _ (by decide))
      have hd : rdN (releasesTaken s) LEDG_DPDT = 0 := (rdN_congr ((ledgerShow_only _).regs _ (by decide))).trans h0
      rw [← hb]
      exact if_pos hd
    have hpossible : ∀ q, s.ledger.waiting = [q] → rdN s LEDG_DPDT = 0 → q.mw ≤ rdN s LEDG_BUDGET → impossibleEnded (ceilingTaken (releasesTaken s)) = ceilingTaken (releasesTaken s) :=
      fun q hone h0 hfits => impossibleEnded_none (fun x hx => by
        rw [hledger] at hx
        obtain rfl : x = q := List.mem_singleton.mp (hone ▸ hx)
        simp [impossible, hbudget, hdpdt, h0, hfits])
    have hgrants : ledgerG (ceilingTaken (releasesTaken s)) = sumN (kept.map (·.mw)) := by rw [ledgerG, hledger]
    refine ⟨fun hnone => ?none, fun q hone h0 hfits hroom hslot hphase => ?given, fun q hone h0 hfits hfull => ?full⟩
    case none =>
      rw [impossibleEnded_none (fun q hq => by rw [hledger] at hq; exact absurd (hnone ▸ hq) List.not_mem_nil), hledger, hnone]
      exact ⟨ceilingTaken (releasesTaken s), rfl, by rw [hledger], hceil, hsame.lanes, same_memory hsame⟩
    case given =>
      rw [hpossible q hone h0 hfits, hledger, hone, hflat h0]
      have hfit : ledgerG (ceilingTaken (releasesTaken s)) + q.mw ≤ rdN s LEDG_BUDGET := hgrants ▸ hroom
      have hphase' : (lane (ceilingTaken (releasesTaken s)) q.lane).phase ≠ .waitGrant := by rw [lane_congr hsame.lanes]; exact hphase
      have hpass : grantPass (rdN s LEDG_BUDGET) [q] (ceilingTaken (releasesTaken s)) = giveGrant (ceilingTaken (releasesTaken s)) q := if_pos hfit
      have htick : tickNo (ceilingTaken (releasesTaken s)) = tickNo s := tickNo_congr (hregs _ (by decide)) (hregs _ (by decide)) (hregs _ (by decide))
      obtain ⟨hfix, hothers⟩ := fixStart_only (grantTaken (ceilingTaken (releasesTaken s)) q) q.lane
      have htaken := grantTaken_same (ceilingTaken (releasesTaken s)) q
      have hall : Same [.regs, .ledger, .lanes] s (fixStart (grantTaken (ceilingTaken (releasesTaken s)) q) q.lane) :=
        (hsame.mono (by decide)).trans ((htaken.mono (by decide)).trans (hfix.mono (by decide)))
      have hl : (fixStart (grantTaken (ceilingTaken (releasesTaken s)) q) q.lane).ledger = _ := hfix.ledger.trans (grantTaken_ledger _ _)
      rw [show sortBy (fun q : GrantReq => q.tick * 32 + q.lane) [q] = [q] from rfl, hpass, giveGrant_fix hslot hphase']
      refine ⟨_, rfl, by rw [hl, hledger, htick], ?_, fun j hj => ?_, same_memory hall⟩
      · rw [hl, hledger, hone]
        simp
      · rw [hothers j hj, lane_congr htaken.lanes, lane_congr hsame.lanes]
    case full =>
      rw [hpossible q hone h0 hfits, hledger, hone, hflat h0]
      have hpass : grantPass (rdN s LEDG_BUDGET) [q] (ceilingTaken (releasesTaken s)) = ceilingTaken (releasesTaken s) := if_neg (by rw [hgrants]; omega)
      rw [show sortBy (fun q : GrantReq => q.tick * 32 + q.lane) [q] = [q] from rfl, hpass]
      exact ⟨_, rfl, by rw [hledger], by rw [hledger, hone], hsame.lanes, same_memory hsame⟩

/-- Settles O48: the commands by what they stage, the pins by their levels, the ledger's boundary by the requests that wait. -/
theorem laserPorts : Obligations.LaserPorts := ⟨laserCommands, laserPinsAndGrants⟩

/-! ### A lane forced off -/

section
variable {s : State} {n : Nat}

/-- GATE of lane `n` stands as it was. -/
def GateKept (n : Nat) (s t : State) : Prop := gateOf t n = gateOf s n

theorem GateKept.trans {t u : State} (h1 : GateKept n s t) (h2 : GateKept n t u) : GateKept n s u := Eq.trans h2 h1

theorem gateKept_of_regs {p : Nat → Bool} {t : State} (h : RegsKept p s t) (hp : p (LAS_STS n) = false) : GateKept n s t := flag_congr (h _ hp) _

theorem grantShow_gate (s : State) (n m : Nat) (hm : m < 24) : GateKept n s (grantShow s m) := by
  by_cases h : n = m
  · subst h
    refine (flag_setFlag_apart _ _ _ _ _ (by decide)).trans ((flag_setFlag_apart _ _ _ _ _ (by decide)).trans ?_)
    exact flag_congr (rd_wrN_other _ (by simp [LAS_STS, LAS_GRANT])) _
  · have hne : LAS_STS n ≠ LAS_STS m := by simp only [LAS_STS]; omega
    refine flag_congr ((rd_setFlag_other _ _ hne).trans ((rd_setFlag_other _ _ hne).trans (rd_wrN_other _ ?_))) _
    simp only [LAS_STS, LAS_GRANT]
    omega

/-- Registers that show the pools (R267). -/
def poolReg (a : Nat) : Bool := a == OVL_STS || (List.range 64).any (fun z => a == ZONE_STS z)

theorem poolReg_zone {z : Nat} (h : z ∈ List.range 64) : poolReg (ZONE_STS z) = true := by
  simp only [poolReg, Bool.or_eq_true, List.any_eq_true]
  exact .inr ⟨z, h, beq_self_eq_true _⟩

theorem poolShow_only (s : State) : Only [.regs] poolReg s (poolShow s) := by
  have hcount : Only [.regs] poolReg s (setFld s OVL_STS 31 16 s.ovl.pool.length) := Only.setFld (Only.refl _ _ s)
  refine hcount.trans (Only.foldl _ _ (fun t z hz => ?_) _)
  exact Only.ite (Only.refl _ _ _) (Only.setFld (Only.setFld (Only.refl _ _ _) (poolReg_zone hz)) (poolReg_zone hz))

theorem poolReg_las : ∀ n < 24, poolReg (LAS_STS n) = false := by decide

theorem txReg_las : ∀ n < 24, txReg (LAS_STS n) = false := by decide

theorem startEntry_gate (s : State) (w : Work) (hn : n < 24) : GateKept n s (startEntry s w) := by
  unfold startEntry
  split
  · exact flag_congr ((poolShow_only _).regs _ (poolReg_las n hn)) _
  · rfl

theorem doneWork_gate (s : State) (m : Nat) (w : Work) (t : Nat) (hn : n < 24) : GateKept n s (doneWork s m w t) := by
  unfold doneWork
  split
  · exact gateKept_of_regs (sendMsg_regs _ _ _ _) (txReg_las n hn)
  · split
    · rfl
    · refine flag_congr (((poolShow_only _).regs _ (poolReg_las n hn)).trans ?_) _
      split
      · exact (count_same s w.home 12 1).rd _
      · rfl

theorem gateTo_low (s : State) (n t : Nat) : gateOf (gateTo s n false t) n = false := by
  unfold gateTo
  dsimp only
  split
  · rw [gateOf_setEmit, gateOf_setGate]
  · exact gateOf_setGate _ _ _ _

theorem gateLevels_off (b e : Nat) (h : forcedOff s n = true) : gateOf (gateLevels s n b e) n = false := by
  rw [gateLevels, if_pos h]
  split
  · exact gateTo_low _ _ _
  · rename_i hlow
    simpa using hlow

theorem gateStarts_gate (s : State) (m e : Nat) (hn : n < 24) : GateKept n s (gateStarts s m e) := by
  unfold gateStarts
  dsimp only
  split
  · rfl
  · refine foldl_inv (GateKept n s) _ _ (fun t g _ ht => ?_) s rfl
    exact ht.trans (startEntry_gate t g.work hn)

theorem ledgReg_las : ∀ n < 24, ledgReg (LAS_STS n) = false := by decide

theorem ledgerSet_gate (s : State) (l : Ledger) (m : Nat) (hm : m < 24) (hn : n < 24) : GateKept n s (grantShow (ledgerShow { s with ledger := l }) m) := by
  have hshow : GateKept n s (ledgerShow { s with ledger := l }) := flag_congr ((ledgerShow_only _).regs _ (ledgReg_las n hn)) _
  exact hshow.trans (grantShow_gate _ n m hm)

theorem gateReleases_gate (s : State) (m e : Nat) (hm : m < 24) (hn : n < 24) : GateKept n s (gateReleases s m e) := by
  unfold gateReleases
  dsimp only
  split
  · exact ledgerSet_gate s _ m hm hn
  · rfl

theorem gateSettle_gate (s : State) (m e : Nat) (hn : n < 24) : GateKept n s (gateSettle s m e) := by
  unfold gateSettle
  dsimp only
  refine Eq.trans (flag_congr ((updLane_same _ _ _).rd _) _) ?_
  refine foldl_inv (GateKept n s) _ _ (fun t g _ ht => ?_) s rfl
  exact ht.trans (doneWork_gate t m g.work _ hn)

/-- No power gives the word 0 (R8). -/
theorem powerWord_zero (pfs : Nat) : powerWord 0 pfs = 0 := by
  have hdiv : (2 * (0 * 65535) + ((pfs * 256000 : Nat) : Int)) / (2 * ((pfs * 256000 : Nat) : Int)) = 0 := by
    rcases Nat.eq_zero_or_pos pfs with rfl | hpos
    · rfl
    · exact Int.ediv_eq_zero_of_lt (by omega) (by omega)
  have hround : rdiv (0 * 65535) (pfs * 256000) = 0 := (if_pos (by decide)).trans hdiv
  rw [powerWord, hround]
  rfl

theorem lpSend_same (s : State) (n word : Nat) : Same [.lanes] s (lpSend s n word) := by
  unfold lpSend
  dsimp only
  split <;> exact updLane_same _ _ _

theorem powerOut_zero (s : State) (n : Nat) : fld (powerOut s n 0 0) (LAS_WORD n) 15 0 = 0 ∧ rdN (powerOut s n 0 0) (LAS_APPLIED n) = 0 := by
  unfold powerOut
  dsimp only
  rw [powerWord_zero, fld_congr ((lpSend_same _ _ _).rd _), rdN_congr ((lpSend_same _ _ _).rd _)]
  refine ⟨?_, ?_⟩
  · rw [fld_setFld_apart _ _ _ _ _ _ (by decide) (by decide) (by decide), fld_setFld_same _ _ _ _ (by decide) (by decide)]
    rfl
  · have hne : LAS_APPLIED n ≠ LAS_WORD n := by simp [LAS_APPLIED, LAS_WORD]
    rw [rdN_congr (rd_setFld_other _ _ _ hne), rdN_congr (rd_setFld_other _ _ _ hne), rdN_wrN_same]
    rfl

end

/-- Settles O15: GATE falls with the tick's levels and nothing after raises it; the chain's power is 0 whether or not a mark owns the tick. -/
theorem forcedOffIsDark : Obligations.ForcedOffIsDark := by
  intro s n b e win hn hoff
  refine ⟨?_, ?_⟩
  · have hlow := gateLevels_off b e hoff
    have hstarts := gateStarts_gate (gateLevels s n b e) n e hn
    have hreleases := gateReleases_gate (gateStarts (gateLevels s n b e) n e) n e hn hn
    have hsettle := gateSettle_gate (gateReleases (gateStarts (gateLevels s n b e) n e) n e) n e hn
    exact Eq.trans ((hstarts.trans hreleases).trans hsettle) hlow
  · unfold powerStep
    split
    · rw [if_neg (by simp [hoff])]
      exact ⟨(powerOut_zero _ _).1, (powerOut_zero _ _).2, rfl⟩
    · exact ⟨(powerOut_zero _ _).1, (powerOut_zero _ _).2, rfl⟩

/-! ### The shutter path -/

section
variable {s : State} {n : Nat}

/-- A counter field that saturates at all ones. -/
theorem fld_satIncF (s : State) (a : Nat) {hi lo : Nat} (h : hi < 32) (hl : lo ≤ hi) :
    fld (satIncF s a hi lo) a hi lo = satN (2 ^ (hi - lo + 1) - 1) (fld s a hi lo + 1) := by
  have hlt : fld s a hi lo < 2 ^ (hi - lo + 1) := fld_lt _ _ _
  unfold satIncF
  dsimp only
  split
  · rename_i hfull
    rw [hfull, satN, if_neg (by omega)]
  · rename_i hroom
    rw [fld_setFld_same _ _ _ _ h hl, Nat.mod_eq_of_lt (by omega), satN]
    split <;> omega

theorem flag_satIncF_apart (s : State) (a : Nat) {hi lo j : Nat} (hl : lo ≤ hi) (h : j < lo ∨ hi < j) : flag (satIncF s a hi lo) a j = flag s a j := by
  unfold satIncF
  dsimp only
  split
  · rfl
  · exact flag_setFld_apart _ _ _ _ _ _ hl h

theorem shutterShow_eq (s : State) : shutterShow s =
    lanes24.foldl (fun t n => if flag t (LAS_STS n) 8 == shutterHolds s then t else setFlag t (LAS_STS n) 8 (shutterHolds s)) s := rfl

/-- `LAS_STS.SHUTTER` of a lane follows. -/
theorem shutterShow_flag (s : State) {n j : Nat} (hj : j ≠ 8) : flag (shutterShow s) (LAS_STS n) j = flag s (LAS_STS n) j := by
  rw [shutterShow_eq]
  refine foldl_inv (fun t => flag t (LAS_STS n) j = flag s (LAS_STS n) j) _ lanes24 (fun t m _ ht => ?_) s rfl
  split
  · exact ht
  · by_cases h : LAS_STS n = LAS_STS m
    · rw [h] at ht ⊢
      rw [flag_setFlag_apart _ _ _ _ _ hj, ht]
    · rw [flag_congr (rd_setFlag_other _ _ h), ht]

theorem shutterShow_rd (s : State) {a : Nat} (h : ∀ n < 24, a ≠ LAS_STS n) : rd (shutterShow s) a = rd s a := by
  rw [shutterShow_eq]
  refine foldl_inv (fun t => rd t a = rd s a) _ lanes24 (fun t m hm ht => ?_) s rfl
  split
  · exact ht
  · exact (rd_setFlag_other _ _ (h m (List.mem_range.mp hm))).trans ht

/-- GATE and EMIT of a lane at the fall of INTERLOCK_N (R249). -/
def laneShut (s : State) (n : Nat) : State :=
  updLane (setFlag (setGate s n false (nowFs s)) (LAS_STS n) 5 false) n (fun l => { l with shut := true })

theorem laneShut_same (s : State) (n : Nat) : Same [.regs, .lanes] s (laneShut s n) :=
  ((setGate_same _ _ _ _).trans ((setFlag_same _ _ _ _).mono (by decide))).trans ((updLane_same _ _ _).mono (by decide))

theorem laneShut_rd (s : State) {a : Nat} (h : a ≠ LAS_STS n) : rd (laneShut s n) a = rd s a := by
  refine ((updLane_same _ n _).rd a).trans ?_
  rw [rd_setFlag_other _ _ h, setGate_rd _ _ h]

theorem laneShut_dark (s : State) (n : Nat) : gateOf (laneShut s n) n = false ∧ emitOf (laneShut s n) n = false := by
  have hrd : rd (laneShut s n) (LAS_STS n) = rd (setFlag (setGate s n false (nowFs s)) (LAS_STS n) 5 false) (LAS_STS n) := (updLane_same _ n _).rd _
  refine ⟨(flag_congr hrd _).trans ?_, (flag_congr hrd _).trans (flag_setFlag_same _ _ _ (by decide))⟩
  exact (gateOf_setEmit _ _ _).trans (gateOf_setGate _ _ _ _)

theorem las_ne {m : Nat} (h : n ≠ m) : LAS_STS n ≠ LAS_STS m := by simp only [LAS_STS]; omega

theorem lanesShut_dark (s : State) : ∀ n < 24, gateOf (lanes24.foldl laneShut s) n = false ∧ emitOf (lanes24.foldl laneShut s) n = false := by
  have hall := foldl_each (l := lanes24) List.nodup_range laneShut (fun _ _ => True) (fun n t => gateOf t n = false ∧ emitOf t n = false)
    (fun t n _ _ => laneShut_dark t n) (fun _ _ _ _ _ _ _ => trivial) (fun t m _ n _ hne hdark => ?_) s (fun _ _ => trivial)
  · exact fun n hn => hall n (List.mem_range.mpr hn)
  · have hrd := laneShut_rd (n := m) t (las_ne hne)
    exact ⟨(flag_congr hrd _).trans hdark.1, (flag_congr hrd _).trans hdark.2⟩

theorem lanesShut_rd (s : State) {a : Nat} (h : ∀ n < 24, a ≠ LAS_STS n) : rd (lanes24.foldl laneShut s) a = rd s a :=
  foldl_inv (fun t => rd t a = rd s a) laneShut lanes24 (fun t m hm ht => (laneShut_rd t (h m (List.mem_range.mp hm))).trans ht) s rfl

theorem shutter_ne : ∀ n < 24, LEDG_SHUTTER ≠ LAS_STS n := by decide

/-- The latch and the count at the fall of INTERLOCK_N (R249). -/
def latchSet (s : State) : State :=
  satIncF (setFlag (setFlag { s with pins := { s.pins with interlockN := false } } LEDG_SHUTTER 31 true) LEDG_SHUTTER 30 true) LEDG_SHUTTER 15 0

theorem latchSet_same (s : State) : Same [.regs, .pins] s (latchSet s) := by
  have hpins : Same [.pins] s { s with pins := { s.pins with interlockN := false } } := by
    intro q hq; cases q <;> first | rfl | exact absurd (by decide) hq
  exact (hpins.mono (by decide)).trans ((((setFlag_same _ _ _ _).trans (setFlag_same _ _ _ _)).trans (satIncF_same _ _ _ _)).mono (by decide))

theorem latchSet_flags (s : State) : flag (latchSet s) LEDG_SHUTTER 31 = true ∧ flag (latchSet s) LEDG_SHUTTER 30 = true ∧
    fld (latchSet s) LEDG_SHUTTER 15 0 = satN 65535 (fld s LEDG_SHUTTER 15 0 + 1) := by
  refine ⟨?_, ?_, ?_⟩
  · rw [latchSet, flag_satIncF_apart _ _ (by decide) (by decide), flag_setFlag_apart _ _ _ _ _ (by decide), flag_setFlag_same _ _ _ (by decide)]
  · rw [latchSet, flag_satIncF_apart _ _ (by decide) (by decide), flag_setFlag_same _ _ _ (by decide)]
  · rw [latchSet, fld_satIncF _ _ (by decide) (by decide), setFlag, fld_setFld_apart _ _ _ _ _ _ (by decide) (by decide) (by decide), setFlag,
      fld_setFld_apart _ _ _ _ _ _ (by decide) (by decide) (by decide)]
    rfl

theorem latchSet_pins (s : State) : (latchSet s).pins.interlockN = false := by
  rw [latchSet, (satIncF_same _ _ _ _).pins, (setFlag_same _ _ _ _).pins, (setFlag_same _ _ _ _).pins]

/-- EMIT rises on the lanes of the layer that are not halted (R246). -/
def emitsRisen (s : State) : State := lanes24.foldl (fun s n => if laneInLayer s n && (lane s n).phase != .halted then emitRise s n else s) s

theorem emitRise_rd (s : State) {a : Nat} (h : a ≠ LAS_STS n) : rd (emitRise s n) a = rd s a := by
  unfold emitRise
  split
  · rfl
  · exact (rd_setFlag_other _ _ h).trans ((updLane_same s n _).rd a)

theorem emitRise_gate (s : State) (m : Nat) : GateKept n s (emitRise s m) := by
  by_cases h : n = m
  · subst h
    unfold emitRise
    split
    · rfl
    · exact (gateOf_setEmit _ _ _).trans (flag_congr ((updLane_same s n _).rd _) _)
  · exact flag_congr (emitRise_rd s (las_ne h)) _

theorem emitsRisen_rd (s : State) {a : Nat} (h : ∀ n < 24, a ≠ LAS_STS n) : rd (emitsRisen s) a = rd s a := by
  refine foldl_inv (fun t => rd t a = rd s a) _ lanes24 (fun t m hm ht => ?_) s rfl
  split
  · exact (emitRise_rd t (h m (List.mem_range.mp hm))).trans ht
  · exact ht

theorem emitsRisen_same (s : State) : Same [.regs, .lanes] s (emitsRisen s) := by
  refine Same.foldl _ (fun t m => ?_) _ _
  split
  · exact emitRise_same _ _
  · exact Same.refl _ _

theorem emitsRisen_gate (s : State) (n : Nat) : GateKept n s (emitsRisen s) := by
  refine foldl_inv (GateKept n s) _ lanes24 (fun t m _ ht => ?_) s rfl
  split
  · exact ht.trans (emitRise_gate t m)
  · exact ht

theorem laneInLayer_congr {t : State} (hsts : rd t SEQ_STS = rd s SEQ_STS) (hcfg : rd t (LN_CFG n) = rd s (LN_CFG n)) : laneInLayer t n = laneInLayer s n := by
  rw [laneInLayer, laneInLayer, inLayer, inLayer, layerSt, layerSt, fld_congr hsts, flag_congr hcfg]

/-- EMIT of a lane outside the layer stands. -/
theorem emitsRisen_emit (hout : laneInLayer s n = false) : emitOf (emitsRisen s) n = emitOf s n := by
  have hinv : laneInLayer (emitsRisen s) n = false ∧ emitOf (emitsRisen s) n = emitOf s n := by
    refine foldl_inv (fun t => laneInLayer t n = false ∧ emitOf t n = emitOf s n) _ lanes24 (fun t m _ ht => ?_) s ⟨hout, rfl⟩
    split
    · rename_i hrise
      have hne : n ≠ m := by
        rintro rfl
        simp [ht.1] at hrise
      have hsts : rd (emitRise t m) SEQ_STS = rd t SEQ_STS := emitRise_rd t (by simp only [SEQ_STS, LAS_STS]; omega)
      have hcfg : rd (emitRise t m) (LN_CFG n) = rd t (LN_CFG n) := emitRise_rd t (by simp only [LN_CFG, LAS_STS]; omega)
      exact ⟨(laneInLayer_congr hsts hcfg).trans ht.1, (flag_congr (emitRise_rd t (las_ne hne)) _).trans ht.2⟩
    · exact ht
  exact hinv.2

end

/-- Settles O14: every lane by the fold that darkens it, the latch and the count by their register. -/
theorem shutterPath : Obligations.ShutterPath := by
  intro s
  refine ⟨⟨shutterShow (lanes24.foldl laneShut (latchSet s)), rfl, ?fall⟩,
    ⟨shutterShow (setFlag { s with pins := { s.pins with interlockN := true } } LEDG_SHUTTER 30 false), rfl, ?rise⟩, fun hclk hlow => ?ignored, fun hclk hhigh => ?clear⟩
  case fall =>
    have hshow := shutterShow_same (lanes24.foldl laneShut (latchSet s))
    have hlanes : Same [.regs, .lanes] (latchSet s) (lanes24.foldl laneShut (latchSet s)) := Same.foldl _ laneShut_same _ _
    have hall : Same [.regs, .pins, .lanes] s (shutterShow (lanes24.foldl laneShut (latchSet s))) :=
      ((latchSet_same s).mono (by decide)).trans ((hlanes.mono (by decide)).trans (hshow.mono (by decide)))
    have hrd : rd (shutterShow (lanes24.foldl laneShut (latchSet s))) LEDG_SHUTTER = rd (latchSet s) LEDG_SHUTTER :=
      (shutterShow_rd _ shutter_ne).trans (lanesShut_rd _ shutter_ne)
    have hpin : (shutterShow (lanes24.foldl laneShut (latchSet s))).pins.interlockN = false := by rw [hshow.pins, hlanes.pins, latchSet_pins]
    obtain ⟨hlatched, hinput, hcount⟩ := latchSet_flags s
    refine ⟨fun n hn => ?_, hpin, by rw [shutterHolds, hpin]; rfl, (flag_congr hrd _).trans hlatched, (flag_congr hrd _).trans hinput, (fld_congr hrd _ _).trans hcount,
      same_memory hall, hall.axes, hall.seq⟩
    obtain ⟨hgate, hemit⟩ := lanesShut_dark (latchSet s) n hn
    exact ⟨(shutterShow_flag _ (by decide)).trans hgate, (shutterShow_flag _ (by decide)).trans hemit⟩
  case rise =>
    have hshow := shutterShow_same (setFlag { s with pins := { s.pins with interlockN := true } } LEDG_SHUTTER 30 false)
    have hrd := shutterShow_rd (setFlag { s with pins := { s.pins with interlockN := true } } LEDG_SHUTTER 30 false) shutter_ne
    have hlas : ∀ n < 24, rd (setFlag { s with pins := { s.pins with interlockN := true } } LEDG_SHUTTER 30 false) (LAS_STS n) = rd s (LAS_STS n) :=
      fun n hn => rd_setFlag_other _ _ (Ne.symm (shutter_ne n hn))
    have hpins : Same [.pins] s { s with pins := { s.pins with interlockN := true } } := by
      intro q hq; cases q <;> first | rfl | exact absurd (by decide) hq
    have hall : Same [.regs, .pins] s (shutterShow (setFlag { s with pins := { s.pins with interlockN := true } } LEDG_SHUTTER 30 false)) :=
      (hpins.mono (by decide)).trans (((setFlag_same _ _ _ _).trans hshow).mono (by decide))
    refine ⟨by rw [hshow.pins]; rfl, (flag_congr hrd _).trans (flag_setFlag_same _ _ _ (by decide)), (flag_congr hrd _).trans (flag_setFlag_apart _ _ _ _ _ (by decide)),
      fun n hn => ⟨(shutterShow_flag _ (by decide)).trans (flag_congr (hlas n hn) _), (shutterShow_flag _ (by decide)).trans (flag_congr (hlas n hn) _)⟩,
      hall.lanes, same_memory hall⟩
  case ignored =>
    show execShutterLatchClear s = _
    rw [execShutterLatchClear, whileClocked_running _ hclk, shutterClear, if_pos (by rw [hlow]; rfl)]
  case clear =>
    show Does (execShutterLatchClear s) s _
    rw [execShutterLatchClear, whileClocked_running _ hclk, shutterClear, if_neg (by rw [hhigh]; decide)]
    have hset : Same [.regs] s (shutterShow (setFlag s LEDG_SHUTTER 31 false)) := (setFlag_same _ _ _ _).trans (shutterShow_same _)
    have hemits := emitsRisen_same (shutterShow (setFlag s LEDG_SHUTTER 31 false))
    have hall : Same [.regs, .lanes] s (emitsRisen (shutterShow (setFlag s LEDG_SHUTTER 31 false))) := (hset.mono (by decide)).trans hemits
    have hlas : ∀ n < 24, ∀ j, j ≠ 8 → flag (shutterShow (setFlag s LEDG_SHUTTER 31 false)) (LAS_STS n) j = flag s (LAS_STS n) j :=
      fun n hn j hj => (shutterShow_flag _ hj).trans (flag_congr (rd_setFlag_other _ _ (Ne.symm (shutter_ne n hn))) _)
    refine ⟨emitsRisen (shutterShow (setFlag s LEDG_SHUTTER 31 false)), rfl, ?_, fun n hn => Eq.trans (emitsRisen_gate _ n) (hlas n hn 4 (by decide)),
      fun n hn hout => (emitsRisen_emit ?_).trans (hlas n hn 5 (by decide)), same_memory hall, hall.axes, hall.seq⟩
    · rw [flag_congr ((emitsRisen_rd _ shutter_ne).trans (shutterShow_rd _ shutter_ne)), flag_setFlag_same _ _ _ (by decide)]
    · refine (laneInLayer_congr ((shutterShow_rd _ ?_).trans (rd_setFlag_other _ _ (by decide))) ((shutterShow_rd _ ?_).trans (rd_setFlag_other _ _ ?_))).trans hout
      · decide
      · intro m hm
        simp only [LN_CFG, LAS_STS]
        omega
      · simp only [LN_CFG, LEDG_SHUTTER]
        omega

end Sys2Proof.Proofs

/-! PROOFS. The power loops (R345 to R358). -/

namespace Sys2Proof.Proofs

-- One theorem after the other: elaborated at once, their threads outgrow the memory that a check may take.
set_option Elab.async false

open Sys2Proof.Machine Sys2Proof.Laws

section
variable {s : State} {lanes lp n : Nat}

theorem lanesOf_lt (h : n ∈ lanesOf lanes) : n < 24 := (mem_bitList.mp h).1

/-- A mask of lanes within range names one. -/
theorem lanesOf_nonempty (hpos : 0 < lanes) (hlt : lanes < 2 ^ 24) : lanesOf lanes ≠ [] := by
  obtain ⟨i, hi⟩ := Nat.exists_testBit_of_ne_zero (Nat.pos_iff_ne_zero.mp hpos)
  have hi24 : i < 24 := by
    by_contra hge
    have hle : 2 ^ i ≤ lanes := Nat.ge_two_pow_of_testBit hi
    have hpow : 2 ^ 24 ≤ 2 ^ i := Nat.pow_le_pow_right (by decide) (by omega)
    omega
  exact List.ne_nil_of_mem (mem_bitList.mpr ⟨hi24, hi⟩)

theorem loopParams_iff : loopParams lanes lp = true ↔ 0 < lanes ∧ lanes < 2 ^ 24 ∧ lp < 4 := by
  simp [loopParams, and_assoc]

/-! ### LOOP_CONFIG -/

/-- The limits that LOOP_CONFIG stages for a lane (R353). -/
def limFields (lp limLo limHi slew n : Nat) : List (Nat × Nat × Nat × Nat) :=
  [(LOOP_LIM n lp, 8, 0, limLo), (LOOP_LIM n lp, 25, 16, limHi), (LOOP_SLEW n lp, 31, 0, slew)]

/-- LOOP_CONFIG with the limits alone. -/
def limitsStaged (s : State) (lanes lp limLo limHi slew : Nat) : State := (lanesOf lanes).foldl (fun t n => staged t 7 (limFields lp limLo limHi slew n)) s

theorem limitsStaged_same (s : State) (lanes lp limLo limHi slew : Nat) : Same [.shadow, .dirty] s (limitsStaged s lanes lp limLo limHi slew) :=
  Same.foldl _ (fun t _ => staged_same t 7 _) _ _

theorem limitsStaged_dirty (s : State) (lanes lp limLo limHi slew : Nat) (h : lanesOf lanes ≠ []) : (limitsStaged s lanes lp limLo limHi slew).dirty.testBit 7 = true := by
  obtain ⟨l, n, hl⟩ : ∃ l n, lanesOf lanes = l ++ [n] := ⟨_, _, (List.dropLast_append_getLast h).symm⟩
  rw [limitsStaged, hl, List.foldl_append]
  exact staged_dirty _ _ (List.cons_ne_nil _ _)

theorem limFields_apart {m : Nat} (hne : n ≠ m) (limLo limHi slew : Nat) {a hi lo : Nat} (ha : a = LOOP_LIM n lp ∨ a = LOOP_SLEW n lp) :
    ∀ w ∈ limFields lp limLo limHi slew m, apartFrom a hi lo w := by
  simp only [limFields, List.mem_cons, List.not_mem_nil, or_false, forall_eq_or_imp, forall_eq, apartFrom]
  simp only [LOOP_LIM, LOOP_SLEW] at ha ⊢
  omega

theorem limitsStaged_shadows (s : State) {limLo limHi slew : Nat} (hn : n ∈ lanesOf lanes) :
    let u := limitsStaged s lanes lp limLo limHi slew
    bitsOf (shadowOf u (LOOP_LIM n lp)) 8 0 = limLo % 2 ^ 9 ∧ bitsOf (shadowOf u (LOOP_LIM n lp)) 25 16 = limHi % 2 ^ 10 ∧
    shadowOf u (LOOP_SLEW n lp) = BitVec.ofNat 32 slew := by
  have hall := foldl_each (bitList_nodup lanes 24) (fun t n => staged t 7 (limFields lp limLo limHi slew n)) (fun _ _ => True)
    (fun n t => bitsOf (shadowOf t (LOOP_LIM n lp)) 8 0 = limLo % 2 ^ 9 ∧ bitsOf (shadowOf t (LOOP_LIM n lp)) 25 16 = limHi % 2 ^ 10 ∧
      bitsOf (shadowOf t (LOOP_SLEW n lp)) 31 0 = slew % 2 ^ 32)
    (fun t n _ _ => ⟨staged_field _ _ 0 (by decide) (by decide) rfl (by simp [limFields, apartFrom, LOOP_LIM, LOOP_SLEW]),
      staged_field _ _ 1 (by decide) (by decide) rfl (by simp [limFields, apartFrom, LOOP_LIM, LOOP_SLEW]),
      staged_field _ _ 2 (by decide) (by decide) rfl (by simp [limFields])⟩)
    (fun _ _ _ _ _ _ _ => trivial)
    (fun t m _ n _ hne h => ⟨(staged_keeps (by decide) (limFields_apart hne _ _ _ (.inl rfl)) t).trans h.1,
      (staged_keeps (by decide) (limFields_apart hne _ _ _ (.inl rfl)) t).trans h.2.1,
      (staged_keeps (by decide) (limFields_apart hne _ _ _ (.inr rfl)) t).trans h.2.2⟩) s (fun _ _ => trivial)
  obtain ⟨hlo, hhi, hslew⟩ := hall n hn
  exact ⟨hlo, hhi, word_of_bits hslew⟩

/-- The coefficients of LOOP_COEF_WRITE in the order in which each lane applies them (R349). -/
def coefsKept (s : State) (lanes lp order : Nat) (new : List (Nat × Nat)) : State :=
  (lanesOf lanes).foldl (fun s n => updLoop s n lp (fun l => { l with coefs := coefOrder s n lp order new })) s

theorem coefsKept_same (s : State) (lanes lp order : Nat) (new : List (Nat × Nat)) : Same [.lanes] s (coefsKept s lanes lp order new) :=
  Same.foldl _ (fun t n => updLane_same t n _) _ _

/-! ### Writes that wait for the boundary -/

/-- A class L write that waits (R18). -/
def waits (a hi lo v : Nat) : Nat × Word × Word := (a, setBits 0 hi lo (2 ^ (hi - lo + 1) - 1), setBits 0 hi lo v)

theorem setLive_waits (s : State) (a hi lo v : Nat) : waits a hi lo v ∈ (setLive s a hi lo v).live := List.mem_append_right _ List.mem_cons_self

theorem setLive_keeps {e : Nat × Word × Word} {a hi lo v : Nat} (h : e ∈ s.live) (hne : e.1 ≠ a) : e ∈ (setLive s a hi lo v).live :=
  List.mem_append_left _ (List.mem_filter.mpr ⟨h, by simp [hne]⟩)

/-- LOOP_MODE for one lane, without TAKE (R345). -/
def modeQueued (lp mode man : Nat) (s : State) (n : Nat) : State :=
  let s := setLive s (LOOPK_CFG n lp) 1 0 mode
  if mode = 2 then setLive s (LOOP_MAN n lp) 9 0 man else s

theorem modeQueued_same (lp mode man : Nat) (s : State) (n : Nat) : Same [.live] s (modeQueued lp mode man s n) := by
  unfold modeQueued
  dsimp only
  split
  · exact (setLive_same _ _ _ _ _).trans (setLive_same _ _ _ _ _)
  · exact setLive_same _ _ _ _ _

theorem modeQueued_waits (lp mode man : Nat) (s : State) (n : Nat) : waits (LOOPK_CFG n lp) 1 0 mode ∈ (modeQueued lp mode man s n).live := by
  unfold modeQueued
  dsimp only
  split
  · exact setLive_keeps (setLive_waits _ _ _ _ _) (by simp [waits, LOOPK_CFG, LOOP_MAN])
  · exact setLive_waits _ _ _ _ _

theorem modeQueued_keeps {e : Nat × Word × Word} {mode man : Nat} (h : e ∈ s.live) (h1 : e.1 ≠ LOOPK_CFG n lp) (h2 : e.1 ≠ LOOP_MAN n lp) :
    e ∈ (modeQueued lp mode man s n).live := by
  unfold modeQueued
  dsimp only
  split
  · exact setLive_keeps (setLive_keeps h h1) h2
  · exact setLive_keeps h h1

/-- LOOP_SETPOINT OP 0 for one lane (R347). -/
def setpointQueued (lp : Nat) (value : Int) (s : State) (n : Nat) : State := setLive (setLive s (LOOP_SP_OVR n lp) 31 0 (unsgn 32 value)) (LOOP_SP_CTL n lp) 0 0 1

theorem setpointQueued_same (lp : Nat) (value : Int) (s : State) (n : Nat) : Same [.live] s (setpointQueued lp value s n) :=
  (setLive_same _ _ _ _ _).trans (setLive_same _ _ _ _ _)

/-- A write that each lane of a list queues waits after all have queued theirs. -/
theorem foldl_waits {l : List Nat} (hl : l.Nodup) (f : State → Nat → State) (e : Nat → Nat × Word × Word) (hset : ∀ t n, e n ∈ (f t n).live)
    (hkeep : ∀ t m n, n ≠ m → e n ∈ t.live → e n ∈ (f t m).live) (s : State) : ∀ n ∈ l, e n ∈ (l.foldl f s).live :=
  foldl_each hl f (fun _ _ => True) (fun n t => e n ∈ t.live) (fun t n _ _ => hset t n) (fun _ _ _ _ _ _ _ => trivial) (fun t m _ n _ hne h => hkeep t m n hne h) s
    (fun _ _ => trivial)

end

/-- Settles O13: each command's work lane by lane over its mask. -/
theorem loopCommands : Obligations.LoopCommands := by
  intro s h hs a
  refine ⟨fun lanes lp hparams hon => ⟨fun limLo limHi slew hlo hhi hmax hp => ?config, fun mask order kp ki kd kf hm0 hm1 horder hfree hp => ?coef,
    fun mode man hmode hman hp => ?mode, fun value hp => ?setpoint⟩, fun n k hn hk hon hp => ?read, ?apply, fun n k hlim hst hlong hsaid => ?hold⟩
  case config =>
    obtain ⟨hpos, hlt, -⟩ := loopParams_iff.mp hparams
    have hon' : quadsOn (accept s h) lanes = true := hon
    show Completes (execLoopConfig h lanes lp 1 limLo limHi slew 0 0 0 0 s) s h _ _ _ _ _ _ _
    rw [execLoopConfig]
    simp only
    rw [starts_body hs hp (by simp [hparams, hlo, hhi, hmax, hon', Nat.testBit])]
    have hsame := limitsStaged_same a lanes lp limLo limHi slew
    refine ⟨limitsStaged a lanes lp limLo limHi slew, rfl, fun n hn => ?_, hsame.regs, limitsStaged_dirty _ _ _ _ _ _ (lanesOf_nonempty hpos hlt), same_memory hsame, hsame.lanes⟩
    obtain ⟨hl, hh, hslew⟩ := limitsStaged_shadows a (limLo := limLo) (limHi := limHi) (slew := slew) hn
    exact ⟨hl.trans (Nat.mod_eq_of_lt (by omega)), hh.trans (Nat.mod_eq_of_lt (by omega)), hslew⟩
  case coef =>
    have hon' : quadsOn (accept s h) lanes = true := hon
    have hfree' : (accept s h).running.any (fun r => r.op == 0x0502 && r.aux.getD 0 4 == lp && r.aux.getD 1 0 &&& lanes != 0) = false := hfree
    show RunsOn (execLoopCoefWrite h lanes lp mask order kp ki kd kf s) s h _ _ _ _
    rw [execLoopCoefWrite]
    simp only
    rw [starts_body hs hp (by
      simp only [List.mem_cons, List.not_mem_nil, or_false, forall_eq_or_imp, forall_eq, hfree', hparams, hon']
      simp [hm0, hm1, horder])]
    generalize hnew : ([(0, unsgn 32 kp), (1, unsgn 32 ki), (2, unsgn 32 kd), (3, kf)] : List (Nat × Nat)).filter (fun e => mask.testBit e.1) = new
    have hsame := coefsKept_same a lanes lp order new
    have hnow : now (coefsKept a lanes lp order new) = now a := now_of_regs hsame.regs
    refine ⟨coefsKept a lanes lp order new, ?_, hsame.regs, same_memory hsame⟩
    rw [← hnow, ← hnew]
    rfl
  case mode =>
    have hon' : quadsOn (accept s h) lanes = true := hon
    show RunsOn (execLoopMode h lanes lp mode man 0 s) s h _ _ _ _
    rw [execLoopMode, starts_body hs hp (by simp [hparams, hmode, hman, hon'])]
    have hsame : Same [.live] a ((lanesOf lanes).foldl (modeQueued lp mode man) a) := Same.foldl _ (fun t n => modeQueued_same _ _ _ t n) _ _
    refine ⟨(lanesOf lanes).foldl (modeQueued lp mode man) a, rfl, hsame.regs, hsame.lanes, ?_⟩
    refine foldl_waits (bitList_nodup lanes 24) _ (fun n => waits (LOOPK_CFG n lp) 1 0 mode) (modeQueued_waits lp mode man) (fun t m n hne hin => ?_) a
    refine modeQueued_keeps hin ?_ ?_ <;> simp only [waits, LOOPK_CFG, LOOP_MAN] <;> omega
  case setpoint =>
    have hon' : quadsOn (accept s h) lanes = true := hon
    show RunsOn (execLoopSetpoint h lanes lp 0 value s) s h _ _ _ _
    rw [execLoopSetpoint, starts_body hs hp (by simp [hparams, hon'])]
    have hsame : Same [.live] a ((lanesOf lanes).foldl (setpointQueued lp value) a) := Same.foldl _ (fun t n => setpointQueued_same _ _ t n) _ _
    refine ⟨(lanesOf lanes).foldl (setpointQueued lp value) a, rfl, hsame.regs, hsame.lanes, ?_⟩
    refine foldl_waits (bitList_nodup lanes 24) _ (fun n => waits (LOOP_SP_CTL n lp) 0 0 1) (fun t n => setLive_waits _ _ _ _ _) (fun t m n hne hin => ?_) a
    refine setLive_keeps (setLive_keeps hin ?_) ?_ <;> simp only [waits, LOOP_SP_OVR, LOOP_SP_CTL] <;> omega
  case read =>
    have hon' : domOn (accept s h) (2 + quadOf n) = true := hon
    refine ⟨?_, ?_, ?_⟩
    rotate_left 2
    · show execLoopRead h n k s = _
      rw [execLoopRead, starts_body hs hp (by simp [hn, hk, hon'])]
  case apply =>
    show execLoopCoefApply s = _
    rw [execLoopCoefApply, whileClocked_running _ hs.clocked]
  case hold =>
    show execLoopHoldLong n k s = _
    rw [execLoopHoldLong, whileClocked_running _ hs.clocked]
    exact congrArg (fun t => Host.Outcome.next (holding s t)) (if_pos (by simp [hlim, hst, hlong, hsaid]))

end Sys2Proof.Proofs

/-! PROOFS. Photodiode inputs and their calibration (R297 to R311). -/

namespace Sys2Proof.Proofs

-- One theorem after the other: elaborated at once, their threads outgrow the memory that a check may take.
set_option Elab.async false

open Sys2Proof.Machine Sys2Proof.Laws

section
variable {s : State} {n i : Nat}

/-! ### An input and its status -/

theorem afeIn_congr {t : State} (h : t.lanes = s.lanes) (n i : Nat) : afeIn t n i = afeIn s n i := by rw [afeIn, afeIn, lane_congr h]

theorem updAfe_same (s : State) (n i : Nat) (f : AfeIn → AfeIn) : Same [.lanes] s (updAfe s n i f) := updLane_same _ _ _

theorem afeIn_updAfe_same (s : State) (n i : Nat) (f : AfeIn → AfeIn) : afeIn (updAfe s n i f) n i = f (afeIn s n i) := by
  rw [afeIn, updAfe, lane_updLane_same]
  exact mget_mset_same _ _ _ _

theorem afeIn_updAfe_other {j : Nat} (s : State) (n : Nat) (f : AfeIn → AfeIn) (h : j ≠ i) : afeIn (updAfe s n i f) n j = afeIn s n j := by
  rw [afeIn, updAfe, lane_updLane_same]
  exact mget_mset_other _ _ _ _ _ h

theorem lane_updAfe_other {m : Nat} (f : AfeIn → AfeIn) (h : m ≠ n) : lane (updAfe s n i f) m = lane s m := lane_updLane_other _ _ h

theorem afeShow_only (s : State) (n i : Nat) : Only [.regs] (fun a => a == AFE_STS n) s (afeShow s n i) :=
  Only.setFlag (Only.setFlag (Only.setFlag (Only.refl _ _ s) (by simp)) (by simp)) (by simp)

/-- PENDING and RUNNING follow the input. -/
theorem afeShow_bits (s : State) (n : Nat) (hi : i < 2) : afeBit (afeShow s n i) n i 2 = (afeIn s n i).pend.isSome ∧ afeBit (afeShow s n i) n i 3 = (afeIn s n i).run.isSome := by
  unfold afeShow
  dsimp only
  refine ⟨?_, ?_⟩
  · rw [afeBit, setAfeBit, flag_setFlag_apart _ _ _ _ _ (by omega), setAfeBit, flag_setFlag_apart _ _ _ _ _ (by omega), setAfeBit, flag_setFlag_same _ _ _ (by omega)]
  · rw [afeBit, setAfeBit, flag_setFlag_apart _ _ _ _ _ (by omega), setAfeBit, flag_setFlag_same _ _ _ (by omega)]

/-- The bits of the other input stand. -/
theorem afeShow_other {j : Nat} (s : State) (n : Nat) (h : j ≠ i) {b : Nat} (hb : b < 8) : afeBit (afeShow s n i) n j b = afeBit s n j b := by
  unfold afeShow
  dsimp only
  rw [afeBit, setAfeBit, flag_setFlag_apart _ _ _ _ _ (by omega), setAfeBit, flag_setFlag_apart _ _ _ _ _ (by omega), setAfeBit, flag_setFlag_apart _ _ _ _ _ (by omega)]
  rfl

/-! ### The start of a run -/

/-- A pending run of input `i` starts (R302). -/
def runStarted (s : State) (n i : Nat) : State :=
  let s := setFld s (AFE_PD_CAL_TEMP n i) 15 0 (unsgn 16 (thmTemp s (quadOf n)))
  afeShow (updAfe s n i (fun a => { a with pend := none, power := false, now1 := false, run := some (now s), staleTo := now s + 64624 })) n i

theorem runStarted_same (s : State) (n i : Nat) : Same [.regs, .lanes] s (runStarted s n i) :=
  (((setFld_same _ _ _ _ _).mono (by decide)).trans ((updAfe_same _ _ _ _).mono (by decide))).trans ((afeShow_only _ _ _).same.mono (by decide))

/-- Registers that the start of a run writes. -/
def runReg (n a : Nat) : Bool := a == AFE_STS n || (a == AFE_PD_CAL_TEMP n 0 || a == AFE_PD_CAL_TEMP n 1)

theorem runStarted_regs (s : State) (n : Nat) (hi : i < 2) : RegsKept (runReg n) s (runStarted s n i) := by
  intro a ha
  simp only [runReg, Bool.or_eq_false_iff, beq_eq_false_iff_ne] at ha
  have htemp : a ≠ AFE_PD_CAL_TEMP n i := by
    have hi01 : i = 0 ∨ i = 1 := by omega
    rcases hi01 with rfl | rfl
    · exact ha.2.1
    · exact ha.2.2
  exact ((afeShow_only _ n i).regs a (by simpa using ha.1)).trans (((updAfe_same _ n i _).rd a).trans (rd_setFld_other _ _ _ htemp))

/-- What an input shows once its run has started at `t` ns. -/
def RunGoing (t n i : Nat) (u : State) : Prop := (afeIn u n i).run = some t ∧ (afeIn u n i).pend = none ∧ afeBit u n i 2 = false ∧ afeBit u n i 3 = true

theorem runStarted_now (s : State) (n : Nat) (hi : i < 2) : now (runStarted s n i) = now s :=
  now_congr (runStarted_regs s n hi _ (by simp [runReg, AFE_STS, AFE_PD_CAL_TEMP, FTM_TIME_LO]; omega)) (runStarted_regs s n hi _ (by simp [runReg, AFE_STS, AFE_PD_CAL_TEMP, FTM_TIME_HI]; omega))

theorem runStarted_going (s : State) (n : Nat) (hi : i < 2) : RunGoing (now s) n i (runStarted s n i) := by
  have hnow : now (setFld s (AFE_PD_CAL_TEMP n i) 15 0 (unsgn 16 (thmTemp s (quadOf n)))) = now s :=
    now_congr (rd_setFld_other _ _ _ (by simp only [AFE_PD_CAL_TEMP, FTM_TIME_LO]; omega)) (rd_setFld_other _ _ _ (by simp only [AFE_PD_CAL_TEMP, FTM_TIME_HI]; omega))
  unfold runStarted
  dsimp only
  rw [hnow]
  generalize setFld s (AFE_PD_CAL_TEMP n i) 15 0 (unsgn 16 (thmTemp s (quadOf n))) = b
  have hin := afeIn_updAfe_same b n i (fun a => { a with pend := none, power := false, now1 := false, run := some (now s), staleTo := now s + 64624 })
  obtain ⟨hpend, hrun⟩ := afeShow_bits (updAfe b n i (fun a => { a with pend := none, power := false, now1 := false, run := some (now s), staleTo := now s + 64624 })) n hi
  rw [hin] at hpend hrun
  refine ⟨?_, ?_, hpend, hrun⟩
  · rw [afeIn_congr (afeShow_only _ n i).same.lanes, hin]
  · rw [afeIn_congr (afeShow_only _ n i).same.lanes, hin]

theorem RunGoing.other {j t : Nat} {u : State} (h : RunGoing t n i u) (hne : i ≠ j) : RunGoing t n i (runStarted u n j) := by
  obtain ⟨hrun, hpend, hbit2, hbit3⟩ := h
  have hin : afeIn (runStarted u n j) n i = afeIn u n i :=
    (afeIn_congr (afeShow_only _ n j).same.lanes n i).trans ((afeIn_updAfe_other _ n _ hne).trans (afeIn_congr (setFld_same _ _ _ _ _).lanes n i))
  have hbit : ∀ b < 8, afeBit (runStarted u n j) n i b = afeBit u n i b := fun b hb =>
    (afeShow_other _ n hne hb).trans (flag_congr (((updAfe_same _ n j _).rd _).trans (rd_setFld_other _ _ _ (by simp only [AFE_STS, AFE_PD_CAL_TEMP]; omega))) _)
  exact ⟨by rw [hin, hrun], by rw [hin, hpend], (hbit 2 (by decide)).trans hbit2, (hbit 3 (by decide)).trans hbit3⟩

theorem runStarted_lane {m : Nat} (s : State) (i : Nat) (h : m ≠ n) : lane (runStarted s n i) m = lane s m :=
  (lane_congr (afeShow_only _ n i).same.lanes m).trans ((lane_updAfe_other _ h).trans (lane_congr (setFld_same _ _ _ _ _).lanes m))

theorem afeStart_eq (s : State) (n : Nat) (forced : Bool) : afeStart s n forced =
    let u := (afePending s n).foldl (fun t i => runStarted t n i) s
    if forced && marking s n then satIncF u (AFE_CAL_RUNS n) 31 16 else u := rfl

theorem mem_afePending : i ∈ afePending s n ↔ i < 2 ∧ (afeIn s n i).pend.isSome = true := by
  simp only [afePending, List.mem_filter, List.mem_cons, List.not_mem_nil, or_false]
  have hi01 : i = 0 ∨ i = 1 ↔ i < 2 := by omega
  rw [hi01]

theorem afePending_nodup (s : State) (n : Nat) : (afePending s n).Nodup := by
  unfold afePending
  exact List.Nodup.filter _ (by decide)

theorem foldl_runStarted {l : List Nat} (hl : l.Nodup) (hlt : ∀ i ∈ l, i < 2) (s : State) (n : Nat) :
    (∀ i ∈ l, RunGoing (now s) n i (l.foldl (fun t i => runStarted t n i) s)) ∧
    (∀ m, m ≠ n → lane (l.foldl (fun t i => runStarted t n i) s) m = lane s m) ∧ Same [.regs, .lanes] s (l.foldl (fun t i => runStarted t n i) s) := by
  refine ⟨?_, fun m hm => ?_, Same.foldl _ (fun t i => runStarted_same t n i) _ _⟩
  · refine foldl_each hl _ (fun _ t => now t = now s) (RunGoing (now s) n) (fun t i hi hnow => ?_) (fun t i hi j _ _ hnow => (runStarted_now t n (hlt i hi)).trans hnow)
      (fun t j _ i _ hne hgo => hgo.other hne) s (fun _ _ => rfl)
    rw [← hnow]
    exact runStarted_going t n (hlt i hi)
  · exact foldl_inv (fun t => lane t m = lane s m) _ l (fun t i _ ht => (runStarted_lane t i hm).trans ht) s rfl

/-- The run of a pending input is under way once its lane's runs have started, and no other lane changes. -/
theorem afeStart_going (forced : Bool) (hi : i < 2) (hpend : (afeIn s n i).pend.isSome = true) : RunGoing (now s) n i (afeStart s n forced) ∧
    (∀ m, m ≠ n → lane (afeStart s n forced) m = lane s m) ∧ SameMemory s (afeStart s n forced) := by
  obtain ⟨hgoing, hothers, hsame⟩ := foldl_runStarted (afePending_nodup s n) (fun i hi => (mem_afePending.mp hi).1) s n
  obtain ⟨hrun, hpending, hbit2, hbit3⟩ := hgoing i (mem_afePending.mpr ⟨hi, hpend⟩)
  rw [afeStart_eq]
  dsimp only
  generalize (afePending s n).foldl (fun t i => runStarted t n i) s = u at *
  split
  · have hcount := satIncF_same u (AFE_CAL_RUNS n) 31 16
    have hbit : ∀ b, afeBit (satIncF u (AFE_CAL_RUNS n) 31 16) n i b = afeBit u n i b := fun b =>
      flag_congr (rd_satIncF_other _ _ (by simp only [AFE_STS, AFE_CAL_RUNS]; omega)) _
    have hall : Same [.regs, .lanes] s (satIncF u (AFE_CAL_RUNS n) 31 16) := hsame.trans (hcount.mono (by decide))
    exact ⟨⟨by rw [afeIn_congr hcount.lanes, hrun], by rw [afeIn_congr hcount.lanes, hpending], (hbit 2).trans hbit2, (hbit 3).trans hbit3⟩,
      fun m hm => (lane_congr hcount.lanes m).trans (hothers m hm), same_memory hall⟩
  · exact ⟨⟨hrun, hpending, hbit2, hbit3⟩, hothers, same_memory hsame⟩

end

theorem calibrationRuns : Claim.CalibrationRuns := by
  intro s n i hclk hn hi hon started
  refine ⟨fun hpend hnow => ?atOnce, fun hdue => ?deadline, fun r hrun hended hres hother pd0 pd1 => ?ended⟩
  case atOnce =>
    have hmem : i ∈ afePending s n := mem_afePending.mpr ⟨hi, hpend⟩
    have hsome : (afePending s n).isEmpty = false := List.isEmpty_eq_false_iff.mpr (List.ne_nil_of_mem hmem)
    have hany : (afePending s n).any (fun i => (afeIn s n i).now1) = true := List.any_eq_true.mpr ⟨i, hmem, hnow⟩
    obtain ⟨⟨hrun, hpending, hbit2, hbit3⟩, hothers, hmemory⟩ := afeStart_going (!afeSlot s n) hi hpend
    show Does (execCalibrationRunStart n s) s _
    rw [execCalibrationRunStart, whileClocked_running _ hclk]
    simp only [hsome, hon, hany, Bool.not_true, Bool.or_false, Bool.false_eq_true, if_false, if_true]
    exact ⟨_, rfl, hrun, hpending, hbit2, hbit3, hothers, hmemory⟩
  case deadline =>
    have hpend : (afeIn s n i).pend.isSome = true := by
      cases h : (afeIn s n i).pend
      · rw [h] at hdue
        cases hdue
      · rfl
    obtain ⟨⟨hrun, hpending, hbit2, hbit3⟩, hothers, hmemory⟩ := afeStart_going true hi hpend
    show Does (execCalDeadline n i s) s _
    rw [execCalDeadline, whileClocked_running _ hclk, if_pos (by rw [hdue, hon]; rfl)]
    exact ⟨_, rfl, hrun, hpending, hbit2, hbit3, hothers, hmemory⟩
  case ended =>
    show execCalibrationRunEnd n pd0 pd1 s = _
    rw [execCalibrationRunEnd, whileClocked_running _ hclk]
    have hgoing : [0, 1].filter (fun i => (afeIn s n i).run.isSome && (afeIn s n i).result.isNone) = [0] := by simp [hrun, hres, hother]
    simp only [hgoing, List.filterMap_cons, hrun, List.filterMap_nil, List.filter_cons, List.all_cons, List.all_nil, le_refl, decide_true, hended, Bool.and_self, if_true,
      List.filter_nil, List.foldl_cons, List.foldl_nil]

/-! ### Commands -/

section
variable {s : State} {n i : Nat}

/-- What AFE_SET stages (R309). -/
def afeFields (n flags calDelta offSettle satCode darkMin : Nat) : List (Nat × Nat × Nat × Nat) :=
  [(AFE_CFG n, 31, 24, calDelta), (AFE_CFG n, 23, 16, offSettle), (AFE_CFG n, 2, 0, (flags / 4 % 2) * 4 + (flags / 2 % 2) * 2 + flags % 2),
   (AFE_LIMITS n, 15, 0, satCode), (AFE_LIMITS n, 31, 16, darkMin)]

/-- A mask of one bit names that one. -/
theorem bitList_one {j k : Nat} (h : j < k) : bitList (1 <<< j) k = [j] := by
  have hfilter : ∀ m, (List.range m).filter (fun i => decide (i = j)) = if j < m then [j] else [] := fun m => by
    induction m with
    | zero => rfl
    | succ m ih =>
      rw [List.range_succ, List.filter_append, ih]
      by_cases hm : m = j
      · subst hm
        simp
      · have hlt : j < m + 1 ↔ j < m := by omega
        simp [hm, hlt]
  have hbits : ∀ i, (1 <<< j).testBit i = decide (i = j) := fun i => by
    rw [Nat.one_shiftLeft, Nat.testBit_two_pow]
    exact decide_eq_decide.mpr eq_comm
  rw [bitList, List.filter_congr (fun i _ => hbits i), hfilter, if_pos h]

theorem afeNamed_one (hn : n < 24) (hi : i < 2) : afeNamed (1 <<< n) (1 <<< i) = [(n, i)] := by
  rw [afeNamed, bitList_one hn, bitList_one hi]
  rfl

theorem afePend_new {power now1 : Bool} (hrun : (afeIn s n i).run = none) (hpend : (afeIn s n i).pend = none) :
    afePend s n i power now1 = afeShow (updAfe s n i (fun a => { a with pend := some (now s), power := power, now1 := now1 })) n i := by
  simp only [afePend, hrun, hpend, Option.isSome_none, Bool.false_eq_true, if_false]

end

theorem afeCommands : Claim.AfeCommands := by
  intro s h hs a
  refine ⟨fun n flags calDelta offSettle satCode darkMin hn hon hflags hc1 hc2 ho hs1 hs2 hd1 hd2 hp => ?set,
    fun n i mode hn hi hmode hon hen hrun hpend hp => ?calibrate, fun first cnt addr hfirst hcnt hlast haddr hp => ?read,
    fun cnt addr hc1 hc2 halign harea hdram => ?write⟩
  case set =>
    have hon' : domOn (accept s h) (afeDom n) = true := hon
    have hst := staged_same a 6 (afeFields n flags calDelta offSettle satCode darkMin)
    show Completes (execAfeSet h n flags calDelta offSettle satCode darkMin s) s h _ _ _ _ _ _ _
    rw [execAfeSet, starts_body hs hp (by simp [hn, hflags, hc1, hc2, hs1, hd1, hon'])]
    refine ⟨staged a 6 (afeFields n flags calDelta offSettle satCode darkMin), rfl, ?_, ?_, ?_, ?_, ?_, staged_dirty _ _ (List.cons_ne_nil _ _), hst.regs, same_memory hst⟩
    · rw [staged_field _ _ 0 (by decide) (by decide) rfl (by simp [afeFields, apartFrom, AFE_CFG, AFE_LIMITS])]
      exact Nat.mod_eq_of_lt (by omega)
    · rw [staged_field _ _ 1 (by decide) (by decide) rfl (by simp [afeFields, apartFrom, AFE_CFG, AFE_LIMITS])]
      exact Nat.mod_eq_of_lt ho
    · rw [staged_field _ _ 2 (by decide) (by decide) rfl (by simp [afeFields, apartFrom, AFE_CFG, AFE_LIMITS])]
      omega
    · rw [staged_field _ _ 3 (by decide) (by decide) rfl (by simp [afeFields, apartFrom])]
      exact Nat.mod_eq_of_lt hs2
    · rw [staged_field _ _ 4 (by decide) (by decide) rfl (by simp [afeFields])]
      exact Nat.mod_eq_of_lt hd2
  case calibrate =>
    have hon' : domOn (accept s h) (afeDom n) = true := hon
    have hen' : afeEn (accept s h) n i = true := hen
    have hlanes : 0 < 1 <<< n ∧ 1 <<< n < 2 ^ 24 := ⟨by rw [Nat.one_shiftLeft]; positivity, by rw [Nat.one_shiftLeft]; exact Nat.pow_lt_pow_right (by decide) hn⟩
    have hinputs : 0 < 1 <<< i ∧ 1 <<< i < 4 := ⟨by rw [Nat.one_shiftLeft]; positivity, by rw [Nat.one_shiftLeft]; exact Nat.pow_lt_pow_right (by decide) hi⟩
    show ∃ u aux, execAfeCalibrate h (1 <<< n) (1 <<< i) mode s = _ ∧ _
    rw [execAfeCalibrate, starts_body hs hp (by
      simp only [List.mem_cons, List.not_mem_nil, or_false, forall_eq_or_imp, forall_eq, bitList_one hn, afeNamed_one hn hi, List.all_cons, List.all_nil, hon', hen',
        Bool.and_eq_true, decide_eq_true_eq]
      exact ⟨hlanes, hinputs, hmode, ⟨trivial, trivial⟩, trivial, trivial⟩)]
    simp only [afeNamed_one hn hi, List.foldl_cons, List.foldl_nil, List.map_cons, List.map_nil]
    refine ⟨afePend a n i false (mode == 1), _, rfl, ?_⟩
    rw [afePend_new hrun hpend]
    have hin := afeIn_updAfe_same a n i (fun x => { x with pend := some (now a), power := false, now1 := mode == 1 })
    have hshow := (afeShow_only (updAfe a n i (fun x => { x with pend := some (now a), power := false, now1 := mode == 1 })) n i).same
    have hall : Same [.regs, .lanes] a (afeShow (updAfe a n i (fun x => { x with pend := some (now a), power := false, now1 := mode == 1 })) n i) :=
      ((updAfe_same _ _ _ _).mono (by decide)).trans (hshow.mono (by decide))
    refine ⟨by rw [afeIn_congr hshow.lanes, hin], by rw [afeIn_congr hshow.lanes, hin], ?_, same_memory hall⟩
    rw [(afeShow_bits _ n hi).1, hin]
    rfl
  case read =>
    show execCalValuesRead h first cnt addr s = _
    rw [execCalValuesRead, starts_body hs hp (by simp [hfirst, hcnt, hlast, haddr])]
  case write =>
    intro rs hpass hdoms hp
    have harea' : inHostArea (accept s h) addr (32 * cnt) = true := harea
    have hdram' : dramOk (accept s h) addr (32 * cnt) = true := hdram
    have hfind : (List.range cnt).find? (fun j => !domOn a (afeDom (leAt (rs.getD j []) 0 1))) = none := by
      rw [List.find?_eq_none]
      intro j hj
      have hlt : j < rs.length := by simpa [rs] using hj
      rw [List.getD_eq_getElem _ _ hlt, hdoms _ (List.getElem_mem hlt)]
      exact Bool.false_ne_true
    show RunsOn (execCalValuesWrite h cnt 1 addr [] s) s h _ _ _ _
    rw [execCalValuesWrite]
    simp only [Nat.one_ne_zero, if_false]
    rw [starts_body hs hp (by simp [hc1, hc2, halign, harea', hdram'])]
    refine ⟨a, ?_, rfl⟩
    rw [show afePass1 ((List.range cnt).map fun j => ((dramBytes (accept s h) addr (32 * cnt)).drop (32 * j)).take 32) [] 0 = none from hpass]
    simp only
    rw [show (List.range cnt).find? (fun j => !domOn (accept s h) (afeDom (leAt (((List.range cnt).map fun j => ((dramBytes (accept s h) addr (32 * cnt)).drop (32 * j)).take 32).getD j []) 0 1))) = none from hfind]

/-- Settles O50: the commands by what they stage and start, the runs by what their inputs show. -/
theorem photodiodeInputs : Obligations.PhotodiodeInputs := ⟨afeCommands, calibrationRuns⟩

end Sys2Proof.Proofs

/-! PROOFS. What refutes a statement about a command: a packet that starts, and the states that take it up. -/

namespace Sys2Proof.Proofs

-- One theorem after the other: elaborated at once, their threads outgrow the memory that a check may take.
set_option Elab.async false

open Sys2Proof.Machine Sys2Proof.Laws

/-! ### A packet on ring 0 -/

/-- The header of a packet on ring 0 with TAG 0 and no flags. -/
def plainIssue : Issue := ⟨0, 0, 0, 0, 0, 0, 0, 0, 0, true, none⟩

/-- The 64 bytes of the packet of opcode `op` that spells `c` under `plainIssue` (R133, R135). -/
def packetBytes (op : Nat) (c : Instr) : List Byte :=
  (paramsOf c).foldl (fun bs p => bs.take p.1 ++ p.2.2 ++ bs.drop (p.1 + p.2.2.length)) (leBytes 2 op ++ zeros 62)

/-- `s` with that packet alone fetched. -/
def withPacket (s : State) (op : Nat) (c : Instr) : State := { s with hif := { s.hif with fetched := [⟨0, 0, op, packetBytes op c, false⟩] } }

/-- The packet of `c` starts in `s` and spells it. -/
def packetMeets (s : State) (op layout : Nat) (c : Instr) : Bool :=
  !clocksOff s && !forwards s plainIssue && decide (layout ≤ 48) && packetSays (withPacket s op c) plainIssue op c

theorem packet_starts {s : State} {op layout : Nat} {c : Instr} (h : packetMeets s op layout c = true) :
    Starts (withPacket s op c) plainIssue layout ∧ Spelled (withPacket s op c) plainIssue op c := by
  simp only [packetMeets, Bool.and_eq_true, Bool.not_eq_true', decide_eq_true_eq] at h
  obtain ⟨⟨⟨hclk, hlocal⟩, hlen⟩, hsays⟩ := h
  exact ⟨⟨hclk, rfl, rfl, rfl, hlocal, hlen, rfl⟩, hsays⟩

/-! ### LANE_JOG of a lane with two of them at work -/

/-- The first of the running commands of an opcode on an object leaves the list. -/
theorem finishRun_running {s : State} {op key : Nat} {r : Running} {rest : List Running} (h : takeFirst (fun r : Running => r.op == op && r.key == key) s.running = some (r, rest))
    (st : Status) (r0 r1 r2 ex : Nat) : (finishRun s op key st r0 r1 r2 ex).running = rest := by
  rw [finishRun, h]
  exact (completeAs_same { s with running := rest } r.from_ r.dropped op st r0 r1 r2 ex).running

/-- Lane 0 jogs and two LANE_JOG commands run on it. -/
def twiceJogging : State :=
  { State.reset with
    pwr := { Pwr.reset with safe := false }
    lanes := [(0, { Lane.reset with jog := some ⟨true, 0, 0, 0⟩ })]
    running := [⟨0x0205, ⟨0, 1, none⟩, 0, false, [], 0⟩, ⟨0x0205, ⟨0, 2, none⟩, 0, false, [], 0⟩] }

/-- The packet of a raw LANE_JOG of lane 0. -/
abbrev rawJog : Instr := .laneJog plainIssue 0 1 0 0 0 1

theorem jog_leaves_one {u : State} (hs : Starts (withPacket twiceJogging 0x0205 rawJog) plainIssue 48) (hp : Spelled (withPacket twiceJogging 0x0205 rawJog) plainIssue 0x0205 rawJog)
    (heq : exec rawJog (withPacket twiceJogging 0x0205 rawJog) = .next (holding (withPacket twiceJogging 0x0205 rawJog) (startRun u plainIssue 0x0205 0 []))) :
    u.running = [⟨0x0205, ⟨0, 2, none⟩, 0, false, [], 0⟩] := by
  have hrun : ∃ v, exec rawJog (withPacket twiceJogging 0x0205 rawJog) = .next (holding (withPacket twiceJogging 0x0205 rawJog) (startRun v plainIssue 0x0205 0 [])) ∧
      v.running = [⟨0x0205, ⟨0, 2, none⟩, 0, false, [], 0⟩] := by
    show ∃ v, execLaneJog plainIssue 0 1 0 0 0 1 _ = _ ∧ _
    rw [execLaneJog]
    simp only
    rw [starts_body hs hp (by decide +kernel)]
    refine ⟨_, congrArg (fun t => Host.Outcome.next (holding _ t)) (if_pos (by decide +kernel)), ?_⟩
    exact finishRun_running (r := ⟨0x0205, ⟨0, 1, none⟩, 0, false, [], 0⟩) rfl _ _ _ _ _
  obtain ⟨v, hv, hleft⟩ := hrun
  have hlists : (startRun v plainIssue 0x0205 0 []).running = (startRun u plainIssue 0x0205 0 []).running := by
    have := (hv.symm.trans heq)
    injection this with h
    simpa using congrArg State.running h
  have : v.running = u.running := by
    simpa [startRun] using (List.append_inj_left' hlists rfl)
  rw [← this, hleft]

/-- Refutes O47: a retargeted LANE_JOG ends one earlier LANE_JOG of its lane, so where two run one of them is left. -/
theorem not_scanners : ¬ Obligations.Scanners := by
  rintro ⟨commands, -⟩
  obtain ⟨hstarts, hsays⟩ := packet_starts (s := twiceJogging) (op := 0x0205) (layout := 48) (c := .laneJog plainIssue 0 1 0 0 0 1) (by decide +kernel)
  have hdom : domOn (accept (withPacket twiceJogging 0x0205 (.laneJog plainIssue 0 1 0 0 0 1)) plainIssue) (2 + quadOf 0) = true := by decide +kernel
  obtain ⟨-, -, retarget, -⟩ := commands _ plainIssue 0 hstarts (by decide) hdom
  obtain ⟨u, heq, hnone, -⟩ := retarget (by decide +kernel) (by decide +kernel) (by decide +kernel) 0 0 0 1 (by decide) (by decide) hsays
  have hrun : u.running = [⟨0x0205, ⟨0, 2, none⟩, 0, false, [], 0⟩] := jog_leaves_one hstarts hsays heq
  rw [isRunning, findRun, hrun] at hnone
  exact absurd hnone (by decide)

end Sys2Proof.Proofs

/-! PROOFS. Spare engines, spare rows and columns, and the scrub of SRAM (R103, R489 to R491, R573 to R578). -/

namespace Sys2Proof.Proofs

-- One theorem after the other: elaborated at once, their threads outgrow the memory that a check may take.
set_option Elab.async false

open Sys2Proof.Machine Sys2Proof.Laws

section
variable {s : State}

/-- A field takes a value that fits it. -/
theorem fld_setFld_fits {a hi lo v : Nat} (hv : v < 2 ^ (hi - lo + 1)) (h : hi < 32 := by decide) (hl : lo ≤ hi := by decide) :
    fld (setFld s a hi lo v) a hi lo = v := by rw [fld_setFld_same _ _ _ _ h hl, Nat.mod_eq_of_lt hv]

theorem satN_of_lt {hi n : Nat} (h : n < hi) : satN hi n = n := if_pos h

theorem satN_eq_min (hi n : Nat) : satN hi n = min n hi := by
  unfold satN
  split <;> omega

theorem evr_changed (f : State → Evr) : Same [.evr] s { s with evr := f s } := fun q hq => by
  cases q <;> first | rfl | exact absurd (by decide) hq

/-- An event enters the intake and leaves the rest of the recorder. -/
theorem event_recorder (s : State) (source code : Nat) (payload : List Byte) :
    { (event s source code payload).evr with fifo := s.evr.fifo } = s.evr := by
  have hevr := (bump_same s EVR_SEQ).evr
  by_cases hroom : s.evr.fifo.length < 128
  · rw [event_kept hroom]
    dsimp only [setFld_evr]
    rw [hevr]
  · rw [event_lost (by omega), (bump_same _ EVR_LOST).evr, hevr]

theorem event_soft (s : State) (source code : Nat) (payload : List Byte) : (event s source code payload).evr.soft = s.evr.soft := by
  have hsoft := congrArg Evr.soft (event_recorder s source code payload)
  exact hsoft

/-! ### Lane engines -/

theorem laneOn_none {e n : Nat} (h : laneOn s e = none) (hn : n < 24) : engineOf s n ≠ e := by
  have hfree := List.find?_eq_none.mp h n (List.mem_range.mpr hn)
  simpa using hfree

/-- A lane whose map is not valid takes its engine, its image buffer and its status along, and leaves the memories. -/
theorem moveLane_moved {n e : Nat} (hn : n < 24) (he : e < 26) (hmap : flag s (SCN_STS n) 10 = false) :
    engineOf (moveLane s n e) n = e ∧ fld (moveLane s n e) (LN_STS n) 31 27 = e ∧
      (∀ j, j < 24 → j ≠ n → engineOf (moveLane s n e) j = engineOf s j) ∧ (lane (moveLane s n e) n).written = 0 ∧ (lane (moveLane s n e) n).head = 0 ∧
      SameMemory s (moveLane s n e) := by
  have heq : moveLane s n e =
      setFld (setFld (updLane s n (fun l => { l with written := 0, head := 0 })) (TOP_ENGINE_MAP n) 4 0 e) (LN_STS n) 31 27 e := by
    rw [moveLane, hmap]
    rfl
  have hlane := lane_updLane_same (s := s) n (fun l => { l with written := 0, head := 0 })
  rw [heq]
  refine ⟨?_, fld_setFld_fits (by omega), fun j hj hne => ?_, congrArg Lane.written hlane, congrArg Lane.head hlane, ⟨rfl, rfl, rfl, rfl, rfl⟩⟩
  · rw [engineOf, fld_congr (rd_setFld_other _ _ _ (by simp only [TOP_ENGINE_MAP, LN_STS]; omega)), fld_setFld_fits (by omega)]
  · exact fld_congr ((rd_setFld_other _ _ _ (by simp only [TOP_ENGINE_MAP, LN_STS]; omega)).trans
      (rd_setFld_other _ _ _ (by simp only [TOP_ENGINE_MAP]; omega))) _ _

theorem moveLane_rd {n e a : Nat} (hmap : flag s (SCN_STS n) 10 = false) (hengine : a ≠ TOP_ENGINE_MAP n) (hsts : a ≠ LN_STS n) :
    rd (moveLane s n e) a = rd s a := by
  rw [moveLane, hmap]
  exact (rd_setFld_other _ _ _ hsts).trans (rd_setFld_other _ _ _ hengine)

/-! ### Spare rows -/

theorem macro_ne_sts (m : Nat) : SRAM_MACRO m ≠ SRAM_STS := by simp only [SRAM_MACRO, SRAM_STS]; omega

/-- A failing row with a spare row left takes it (R577). -/
theorem assignSpare_row {m x : Nat} (h : fld s (SRAM_MACRO m) 25 23 < 4) :
    let t := assignSpare s (m, false, x)
    fld t (SRAM_MACRO m) 25 23 = fld s (SRAM_MACRO m) 25 23 + 1 ∧ t.evr.soft = s.evr.soft ++ [fuseWord m 0 (fld s (SRAM_MACRO m) 25 23) x] ∧
      Only [.regs, .evr] (fun a => a == SRAM_MACRO m || a == SRAM_STS) s t := by
  intro t
  have ht : t = (let u := setFld s (SRAM_MACRO m) 25 23 (fld s (SRAM_MACRO m) 25 23 + 1)
      let u := { u with evr := { u.evr with soft := u.evr.soft ++ [fuseWord m 0 (fld s (SRAM_MACRO m) 25 23) x] } }
      if fld s (SRAM_MACRO m) 25 23 = 3 then setFld u SRAM_STS 31 16 (fld u SRAM_STS 31 16 + 1) else u) := by
    show assignSpare s (m, false, x) = _
    unfold assignSpare
    simp only [Bool.false_eq_true, if_false, if_pos h, Bool.not_false, Bool.true_and, decide_eq_true_eq, b2n]
  rw [ht]
  dsimp only
  have hmacro : fld (setFld s (SRAM_MACRO m) 25 23 (fld s (SRAM_MACRO m) 25 23 + 1)) (SRAM_MACRO m) 25 23 = fld s (SRAM_MACRO m) 25 23 + 1 :=
    fld_setFld_fits (by omega)
  have hmarked : Only [.regs, .evr] (fun a => a == SRAM_MACRO m || a == SRAM_STS) s (setFld s (SRAM_MACRO m) 25 23 (fld s (SRAM_MACRO m) 25 23 + 1)) :=
    Only.setFld (Only.refl _ _ s) (by simp)
  have hevr : (setFld s (SRAM_MACRO m) 25 23 (fld s (SRAM_MACRO m) 25 23 + 1)).evr = s.evr := rfl
  generalize setFld s (SRAM_MACRO m) 25 23 (fld s (SRAM_MACRO m) 25 23 + 1) = u at hmacro hmarked hevr
  have hkept := hmarked.trans (Only.of_same (evr_changed (s := u) (fun u => { u.evr with soft := u.evr.soft ++ [fuseWord m 0 (fld s (SRAM_MACRO m) 25 23) x] })))
  by_cases hlast : fld s (SRAM_MACRO m) 25 23 = 3
  · rw [if_pos hlast]
    exact ⟨(fld_congr (rd_setFld_other _ _ _ (macro_ne_sts m)) _ _).trans hmacro, congrArg (·.soft ++ _) hevr, Only.setFld hkept (by simp)⟩
  · rw [if_neg hlast]
    exact ⟨hmacro, congrArg (·.soft ++ _) hevr, hkept⟩

/-! ### A correctable word -/

/-- A correctable error that leaves its macro below the threshold is counted, and its address kept (R490). -/
theorem sramEcc_correctable {a : Nat} (who : Requester) (ha : a < 0x2000000)
    (hlow : fld s (SRAM_MACRO (a / 0x10000)) 7 0 + 1 < fld s SRAM_CFG 23 16) :
    let t := sramEcc s a 1 who
    fld t SRAM_CE_ADDR 24 0 = a ∧ fld t (SRAM_MACRO (a / 0x10000)) 7 0 = fld s (SRAM_MACRO (a / 0x10000)) 7 0 + 1 ∧ Same [.regs] s t := by
  intro t
  have hfit : fld s SRAM_CFG 23 16 < 2 ^ 8 := fld_lt _ _ _
  have hce : SRAM_MACRO (a / 0x10000) ≠ SRAM_CE_ADDR := by simp only [SRAM_MACRO, SRAM_CE_ADDR]; omega
  have hcfg : SRAM_CFG ≠ SRAM_MACRO (a / 0x10000) := by simp only [SRAM_MACRO, SRAM_CFG]; omega
  have hmacro : fld (setFld s SRAM_CE_ADDR 24 0 a) (SRAM_MACRO (a / 0x10000)) 7 0 = fld s (SRAM_MACRO (a / 0x10000)) 7 0 :=
    fld_congr (rd_setFld_other _ _ _ hce) _ _
  have hcount := fld_satIncF (setFld s SRAM_CE_ADDR 24 0 a) (SRAM_MACRO (a / 0x10000)) (hi := 7) (lo := 0)
    (by decide) (by decide)
  rw [hmacro, satN_of_lt (by omega)] at hcount
  have hthresh : fld (satIncF (setFld s SRAM_CE_ADDR 24 0 a) (SRAM_MACRO (a / 0x10000)) 7 0) SRAM_CFG 23 16 = fld s SRAM_CFG 23 16 :=
    fld_congr ((rd_satIncF_other _ _ hcfg).trans (rd_setFld_other _ _ _ (by decide))) _ _
  have ht : t = satIncF (setFld s SRAM_CE_ADDR 24 0 a) (SRAM_MACRO (a / 0x10000)) 7 0 := by
    show sramEcc s a 1 who = _
    unfold sramEcc
    dsimp only
    rw [if_pos rfl, hthresh, hcount, if_neg (by omega)]
  rw [ht]
  exact ⟨(fld_congr (rd_satIncF_other _ _ hce.symm) _ _).trans (fld_setFld_fits ha), hcount, (setFld_same _ _ _ _ _).trans (satIncF_same _ _ _ _)⟩

/-! ### The march of a bank group (R578) -/

/-- One bank group's march: the failing rows and columns found there take spares. -/
def marchBank (fails : List (Nat × Bool × Nat)) (stop : Option Nat) (banks : Nat) (acc : State × Nat × Nat × Bool) (b : Nat) :
    State × Nat × Nat × Bool :=
  let (s, given, short, ended) := acc
  if ended || (stop == some b && banks % 2 ^ b != 0) then (s, given, short, true)
  else
    (fails.filter (fun f => f.1 / 16 == b)).foldl (fun (acc : State × Nat × Nat × Bool) f =>
      let (s, given, short, e) := acc
      if spareShort s f then (assignSpare s f, given, natSet short b, e) else (assignSpare s f, natSet given b, short, e)) (s, given, short, false)

/-- The end of REPAIR_SCAN after its march. -/
def scanEnd (h : Issue) (engines tests : Nat) (acc : State × Nat × Nat × Bool) : State :=
  let (s, given, short, ended) := acc
  let s := if ended then dieRefuse s
           else (bitList engines 26).foldl (fun s e => if tests.testBit e then event (failEngine s e) (srcEngine e) 0x1A04 [] else s) s
  complete s h 0x0B05 (if ended then .noGrant else .ok) given short (rdN s TOP_ENGINE_STS) 0

theorem execRepairScan_eq (h : Issue) (banks engines : Nat) (fails : List (Nat × Bool × Nat)) (tests : Nat) (stop : Option Nat) (s : State) :
    execRepairScan h banks engines fails tests stop s = whileClocked s fun s =>
      hostCmd s h (.repairScan h banks engines fails tests stop) 0x0B05 48
        (fun s => [(decide (engines < 2 ^ 26), .badParam), (!inLayer s, .wrongState), (banks == 0 || dieGrants s 1, .noGrant)])
        (fun s => scanEnd h engines tests ((bitList banks 32).foldl (marchBank fails stop banks) (s, 0, 0, false))) := rfl

theorem march_nothing (s : State) (banks : Nat) : (bitList banks 32).foldl (marchBank [] none banks) (s, 0, 0, false) = (s, 0, 0, false) :=
  foldl_inv (fun acc => acc = (s, 0, 0, false)) _ _ (fun acc b _ hacc => by rw [hacc]; rfl) _ rfl

theorem march_row {m x : Nat} (hm : m / 16 < 32) (h : fld s (SRAM_MACRO m) 25 23 < 4) :
    (bitList (1 <<< (m / 16)) 32).foldl (marchBank [(m, false, x)] none (1 <<< (m / 16))) (s, 0, 0, false) =
      (assignSpare s (m, false, x), 1 <<< (m / 16), 0, false) := by
  have hshort : spareShort s (m, false, x) = false := by simp [spareShort]; omega
  rw [bitList_one hm, List.foldl_cons, List.foldl_nil]
  unfold marchBank
  simp [hshort, natSet]

/-- The state of REPAIR_FIX once `k` words are programmed (R578). -/
def programmed (s : State) (k : Nat) : State :=
  { s with fuses := { s.fuses with entries := s.fuses.entries ++ s.evr.soft.take k }, evr := { s.evr with soft := s.evr.soft.drop k } }

/-- The programmed words reported (R578). -/
def fixed (s : State) (k room : Nat) : State :=
  event (programmed s k) (srcMaster 0x12) 0x1A06 (leBytes 4 k ++ leBytes 4 (s.evr.soft.drop k).length ++ leBytes 4 (room - k))

/-- REPAIR_FIX with the temperature in the write window to the end (R578). -/
def fixAll (h : Issue) (s : State) : State :=
  let room := 256 - s.fuses.entries.length
  let want := satN room s.evr.soft.length
  let k := satN want want
  let left := s.evr.soft.drop k
  let s := fixed s k room
  let st := if k < want then Status.tempForbidden else if left.isEmpty then .ok else .cfgRejected
  complete s h 0x0B06 st k left.length (room - k) 0

theorem fixAll_eq (s : State) (h : Issue) :
    let room := 256 - s.fuses.entries.length
    let k := satN room s.evr.soft.length
    fixAll h s = complete (fixed s k room) h 0x0B06 (if (s.evr.soft.drop k).isEmpty = true then .ok else .cfgRejected) k (s.evr.soft.drop k).length
      (room - k) 0 := by
  intro room k
  have hall : satN k k = k := if_neg (Nat.lt_irrefl k)
  unfold fixAll
  dsimp only
  rw [hall, if_neg (Nat.lt_irrefl k)]

theorem fixed_effect (s : State) (k room : Nat) : (fixed s k room).fuses.entries = s.fuses.entries ++ s.evr.soft.take k ∧
    (fixed s k room).evr.soft = s.evr.soft.drop k ∧ (fixed s k room).lanes = s.lanes ∧ SameMemory s (fixed s k room) := by
  have hrest := event_same (programmed s k) (srcMaster 0x12) 0x1A06 (leBytes 4 k ++ leBytes 4 (s.evr.soft.drop k).length ++ leBytes 4 (room - k))
  exact ⟨congrArg Fuses.entries hrest.fuses, event_soft _ _ _ _, hrest.lanes, hrest.sram, hrest.dram, hrest.host, hrest.sramLost, hrest.dramLost⟩

end

/-- Settles O20: engines, spare rows and the scrub by the cases of their commands. -/
theorem repairCommands : Obligations.RepairCommands := by
  refine ⟨?commands, fun s hclk => ?work⟩
  case commands =>
    intro s h hs a
    refine ⟨fun n e hn he hlayer hfree hsound hmap hp => ?engine, fun banks hlayer hgrant hp => ?nothing, fun m x hm hlayer hgrant hspare hp => ?row,
      fun hlayer hp => ?count, fun hlayer hwindow hgrant hp => ?fix⟩
    case engine =>
      obtain ⟨hmoved, hsts, hothers, hwritten, hhead, hmemory⟩ := moveLane_moved (s := a) hn he hmap
      refine ⟨moveLane a n e, ?_, hmoved, hsts, hothers, hwritten, hhead, hmemory⟩
      show execLaneEngineMap h 0 n e 0 s = _
      rw [execLaneEngineMap, starts_body hs hp (by simp only [List.mem_cons, List.not_mem_nil, or_false, forall_eq_or_imp, forall_eq]; exact
        ⟨by simp [hn, he], by rw [show inLayer (accept s h) = false from hlayer]; rfl, by rw [show laneOn (accept s h) e = none from hfree]; rfl,
          by rw [show engineFailed (accept s h) e = false from hsound]; rfl, rfl⟩)]
      have hfailed : rdN (moveLane a n e) TOP_ENGINE_STS = rdN a TOP_ENGINE_STS :=
        rdN_congr (moveLane_rd hmap (by simp only [TOP_ENGINE_STS, TOP_ENGINE_MAP]; omega) (by simp only [TOP_ENGINE_STS, LN_STS]; omega))
      have hcfg : rdN (moveLane a n e) TOP_ENGINE_CFG = rdN a TOP_ENGINE_CFG :=
        rdN_congr (moveLane_rd hmap (by simp only [TOP_ENGINE_CFG, TOP_ENGINE_MAP]; omega) (by simp only [TOP_ENGINE_CFG, LN_STS]; omega))
      rw [← hfailed, ← hcfg]
      dsimp only
      rw [if_pos rfl, if_neg (laneOn_none hfree hn)]
    case nothing =>
      show execRepairScan h banks 0 [] 0 none s = _
      have hgrant' : ((banks == 0 || dieGrants (accept s h) 1) : Bool) = true := by
        rcases hgrant with rfl | hg
        · rfl
        · rw [show dieGrants (accept s h) 1 = true from hg, Bool.or_true]
      rw [execRepairScan_eq, starts_body hs hp (by simp only [List.mem_cons, List.not_mem_nil, or_false, forall_eq_or_imp, forall_eq]; exact
        ⟨rfl, by rw [show inLayer (accept s h) = false from hlayer]; rfl, hgrant'⟩), march_nothing]
      rfl
    case row =>
      obtain ⟨hused, hsoft, honly⟩ := assignSpare_row (s := a) (x := x) hspare
      have hfailed : rdN (assignSpare a (m, false, x)) TOP_ENGINE_STS = rdN a TOP_ENGINE_STS :=
        rdN_congr (honly.regs _ (by simp [TOP_ENGINE_STS, SRAM_MACRO, SRAM_STS]; omega))
      refine ⟨assignSpare a (m, false, x), ?_, hused, hsoft, same_memory honly.same, honly.same.lanes⟩
      show execRepairScan h (1 <<< (m / 16)) 0 [(m, false, x)] 0 none s = _
      rw [execRepairScan_eq, starts_body hs hp (by simp only [List.mem_cons, List.not_mem_nil, or_false, forall_eq_or_imp, forall_eq]; exact
        ⟨rfl, by rw [show inLayer (accept s h) = false from hlayer]; rfl, by rw [show dieGrants (accept s h) 1 = true from hgrant, Bool.or_true]⟩),
        march_row (by omega) hspare, ← hfailed]
      rfl
    case count =>
      show execRepairFix h 1 none s = _
      rw [execRepairFix, starts_body hs hp (by simp [show inLayer (accept s h) = false from hlayer])]
      rfl
    case fix =>
      intro room k
      have hk : k = min a.evr.soft.length room := satN_eq_min _ _
      have hroom : a.evr.soft.length - k = (a.evr.soft.drop k).length := by rw [List.length_drop]
      have hdone : a.evr.soft.length = k ↔ (a.evr.soft.drop k).isEmpty = true := by rw [List.isEmpty_iff, List.drop_eq_nil_iff]; omega
      obtain ⟨hentries, hsoft, hlanes, hmemory⟩ := fixed_effect a k room
      refine ⟨fixed a k room, ?_, hentries, hsoft, hlanes, hmemory⟩
      show execRepairFix h 0 none s = _
      rw [execRepairFix, starts_body hs hp (by simp [show inLayer (accept s h) = false from hlayer, show inWindow (accept s h) = true from hwindow,
        show dieGrants (accept s h) 4 = true from hgrant]), hroom]
      simp only [hdone]
      exact congrArg (fun t => Host.Outcome.next (holding s t)) (fixAll_eq a h)
  case work =>
    refine ⟨fun hauto hquiet => ?remap, fun a hlow ha => ?scrub, fun m hm hquiet hpending hgrant => ?repair, fun hquiet g hretry => ?retry⟩
    case remap =>
      show execEngineRemap s = _
      rw [execEngineRemap, whileClocked_running _ hclk, hauto, hquiet]
      rfl
    case scrub =>
      obtain ⟨haddr, hcount, hsame⟩ := sramEcc_correctable .scrub ha hlow
      refine ⟨sramEcc s a 1 .scrub, ?_, haddr, hcount, same_memory hsame, hsame.lanes⟩
      show execSramScrub a 1 [] .scrub s = _
      rw [execSramScrub, whileClocked_running _ hclk, if_neg (by decide)]
    case repair =>
      refine ⟨repairMacro m [] s, ?_, ?_, ?_, ?_, ?_⟩
      · show execSramRepair m [] s = _
        rw [execSramRepair, whileClocked_running _ hclk, hquiet, hpending]
        rfl
      all_goals rw [repairMacro, hgrant]
      · exact (fld_setFld_apart _ _ _ _ _ _ (by decide) (by decide) (by decide)).trans (fld_setFld_fits (by decide))
      · exact flag_setFlag_same _ _ _ (by decide)
      · exact ⟨rfl, rfl, rfl, rfl, rfl⟩
      · rfl
    case retry =>
      show execDieLedgerRetry [] s = _
      rw [execDieLedgerRetry, whileClocked_running _ hclk, hquiet, hretry]
      rfl

end Sys2Proof.Proofs

/-! PROOFS. Register transactions and notices over the fabric (R436 to R438, R447). -/

namespace Sys2Proof.Proofs

-- One theorem after the other: elaborated at once, their threads outgrow the memory that a check may take.
set_option Elab.async false

open Sys2Proof.Machine Sys2Proof.Laws

section
variable {s t : State}

theorem layerSt_congr (h : rd t SEQ_STS = rd s SEQ_STS) : layerSt t = layerSt s := fld_congr h _ _

theorem frameIn_layerSt (s : State) (via src ty : Nat) (body : List Nat) : layerSt (frameIn s via src ty body) = layerSt s :=
  layerSt_congr (frameIn_regs s via src ty body _ (by decide))

/-- What a frame of a peer does once it is taken in. -/
theorem delivered_up {via src ty : Nat} {body : List Nat} {f : State → State} (h : portUp s via = true) :
    delivered s via src ty body f = f (frameIn s via src ty body) := if_pos h

/-- Work on a frame that leaves lanes and memories leaves those of the state that the frame met. -/
theorem frameIn_keeps {ps : List Part} (via src ty : Nat) (body : List Nat) (h : Same ps (frameIn s via src ty body) t)
    (hps : ∀ q ∈ [Part.lanes, .sram, .dram, .host, .sramLost, .dramLost], q ∉ ps := by decide) : t.lanes = s.lanes ∧ SameMemory s t := by
  have hin := frameIn_same s via src ty body
  have hmemory := same_memory h (fun q hq => hps q (List.mem_cons_of_mem _ hq))
  obtain ⟨hsram, hdram, hhost, hslost, hdlost⟩ := hmemory
  exact ⟨(h.lanes (hps _ (by decide))).trans hin.lanes, hsram.trans hin.sram, hdram.trans hin.dram, hhost.trans hin.host, hslost.trans hin.sramLost, hdlost.trans hin.dramLost⟩

end

theorem peersFrames : ∀ (s : State) (via src : Nat), Clocked s → portUp s via = true →
    (∀ off count,
      let r := regReads (frameIn s via src tyRegRead [off, count]) (0x80 + src) off count
      exec (.regRead via src off count) s = .next (holding s (sendMsg r.1 src tyRegData r.2))) ∧
    (∀ off vals, exec (.regWrite via src off vals) s =
      .next (holding s (sendMsg (regWrites (frameIn s via src tyRegWrite (off :: vals)) (0x80 + src) off vals) src tyRegAck []))) ∧
    (∀ vals, exec (.regData via src vals) s = .next (holding s (regDone (frameIn s via src tyRegData vals) src
      (fun r => r.aux.getD 0 0 == 0) .ok (vals.getD 0 0) (vals.getD 1 0) (vals.getD 2 0) (vals.getD 3 0)))) ∧
    exec (.regAck via src) s =
      .next (holding s (regDone (frameIn s via src tyRegAck []) src (fun r => r.aux.getD 0 0 == 1) .ok 0 0 0 0)) ∧
    exec (.regTimeout src) s = .next (holding s (regDone s src (Running.aged s 100000) .timeout 0 0 0 0)) ∧
    (∀ layer time arg,
      (layerSt s = stExposing → Does (exec (.noticeRx via src 1 layer time arg) s) s (fun u => u.seq.stopReq = true ∧ u.lanes = s.lanes ∧ SameMemory s u)) ∧
      (stLoading ≤ layerSt s → layerSt s ≤ stPaused → s.seq.abortReq = none →
        Does (exec (.noticeRx via src 2 layer time arg) s) s (fun u => u.seq.abortReq = some ⟨1, 0⟩ ∧ u.lanes = s.lanes ∧ SameMemory s u)) ∧
      Does (exec (.noticeRx via src 4 layer time arg) s) s (fun u => u.ovl.excess.testBit src = true ∧ u.lanes = s.lanes ∧ SameMemory s u)) := by
  intro s via src hclk hup
  refine ⟨fun off count => ?read, fun off vals => ?write, fun vals => ?data, ?ack, ?timeout,
    fun layer time arg => ⟨fun hexposing => ?stop, fun hloading hpaused hnone => ?abort, ?excess⟩⟩
  case read =>
    show execRegRead via src off count s = _
    rw [execRegRead, whileClocked_running _ hclk, delivered_up hup]
  case write =>
    show execRegWrite via src off vals s = _
    rw [execRegWrite, whileClocked_running _ hclk, delivered_up hup]
  case data =>
    show execRegData via src vals s = _
    rw [execRegData, whileClocked_running _ hclk, delivered_up hup]
  case ack =>
    show execRegAck via src s = _
    rw [execRegAck, whileClocked_running _ hclk, delivered_up hup]
  case timeout =>
    show execRegTimeout src s = _
    rw [execRegTimeout, whileClocked_running _ hclk]
  case stop =>
    have hstop : requestStop (frameIn s via src tyNotice [1, layer, time, arg]) .wrongState =
        { frameIn s via src tyNotice [1, layer, time, arg] with seq := { (frameIn s via src tyNotice [1, layer, time, arg]).seq with stopReq := true } } :=
      if_pos ((frameIn_layerSt _ _ _ _ _).trans hexposing)
    refine ⟨requestStop (frameIn s via src tyNotice [1, layer, time, arg]) .wrongState, ?_, ?_, ?_⟩
    · show execNoticeRx via src 1 layer time arg s = _
      rw [execNoticeRx, whileClocked_running _ hclk, delivered_up hup]
      rfl
    · rw [hstop]
    · have hin := frameIn_same s via src tyNotice [1, layer, time, arg]
      rw [hstop]
      exact ⟨hin.lanes, hin.sram, hin.dram, hin.host, hin.sramLost, hin.dramLost⟩
  case abort =>
    have hin := frameIn_same s via src tyNotice [2, layer, time, arg]
    have hst := frameIn_layerSt s via src tyNotice [2, layer, time, arg]
    refine ⟨requestAbort (frameIn s via src tyNotice [2, layer, time, arg]) ⟨1, 0⟩, ?_, ?_, ?_⟩
    · show execNoticeRx via src 2 layer time arg s = _
      rw [execNoticeRx, whileClocked_running _ hclk, delivered_up hup]
      refine congrArg (fun t => Host.Outcome.next (holding s t)) (if_pos ?_)
      rw [hst]
      simp [hloading, hpaused]
    · rw [requestAbort, hin.seq, hnone]
    · exact frameIn_keeps via src tyNotice [2, layer, time, arg] (requestAbort_same _ _)
  case excess =>
    let b := frameIn s via src tyNotice [4, layer, time, arg]
    refine ⟨{ b with ovl := { b.ovl with excess := natSet b.ovl.excess src } }, ?_, natSet_testBit_same _ _, ?_⟩
    · show execNoticeRx via src 4 layer time arg s = _
      rw [execNoticeRx, whileClocked_running _ hclk, delivered_up hup]
      rfl
    · have hin := frameIn_same s via src tyNotice [4, layer, time, arg]
      exact ⟨hin.lanes, hin.sram, hin.dram, hin.host, hin.sramLost, hin.dramLost⟩

theorem remoteCommands : ∀ (s : State) (h : Issue), Starts s h 48 → Issue.remote h = false →
    let a := accept s h
    (∀ off, off % 4 = 0 → off < 0x1000000 →
      (Spelled s h 0x0805 (.remoteCommand h 0 (ownAddr a) 1 off [] []) →
       let r := regRead a (localId h) off
       exec (.remoteCommand h 0 (ownAddr a) 1 off [] []) s = .next (holding s (complete r.1 h 0x0805 .ok r.2 0 0 0))) ∧
      (∀ v, Spelled s h 0x0805 (.remoteCommand h 1 (ownAddr a) 1 off [v] []) →
        exec (.remoteCommand h 1 (ownAddr a) 1 off [v] []) s =
          .next (holding s (complete (regWrite a (localId h) off v) h 0x0805 .ok 0 0 0 0))) ∧
      (∀ target, target < 32 → target ≠ ownAddr a → domOn a 13 = true → Spelled s h 0x0805 (.remoteCommand h 0 target 1 off [] []) →
        (reachable a target = false → exec (.remoteCommand h 0 target 1 off [] []) s =
          .next (holding s (fail a h 0x0805 .fabricUnreachable))) ∧
        (reachable a target = true → exec (.remoteCommand h 0 target 1 off [] []) s =
          .next (holding s (sendMsg (startRun a h 0x0805 target [0]) target tyRegRead [off, 1]))))) ∧
    (∀ inner, 112 ≤ (if Issue.paramPtr h then h.ptrLen else 48) → innerOk inner = true → domOn a 13 = true →
      Spelled s h 0x0805 (.remoteCommand h 2 0 0 0 [] inner) →
      exec (.remoteCommand h 2 0 0 0 [] inner) s = .next (holding s (fanOut a h inner)) ∧
      (groupPeers a = [] → fanOut a h inner = complete a h 0x0805 .ok 0 0 0 0)) := by
  intro s h hs hlocal a
  have howned : ownAddr a < 32 := Nat.lt_of_lt_of_le (fld_lt _ _ _) (by decide)
  refine ⟨fun off halign hoff => ⟨fun hp => ?read, fun v hp => ?write, fun target htarget haway hon hp => ?away⟩, fun inner hlen hok hon hp => ⟨?fan, fun hpeers => ?alone⟩⟩
  case read =>
    intro r
    show execRemoteCommand h 0 (ownAddr a) 1 off [] [] s = _
    rw [execRemoteCommand, starts_body (layout := if (0 : Nat) = 2 then 112 else 48) hs hp (by simp [hlocal, halign, hoff, show ownAddr (accept s h) < 32 from howned, a])]
    dsimp only
    rw [if_neg (by decide), if_pos rfl, if_pos rfl]
    unfold regReads
    rw [if_pos hoff]
    rfl
  case write =>
    show execRemoteCommand h 1 (ownAddr a) 1 off [v] [] s = _
    rw [execRemoteCommand, starts_body (layout := if (1 : Nat) = 2 then 112 else 48) hs hp (by simp [hlocal, halign, hoff, show ownAddr (accept s h) < 32 from howned, a])]
    dsimp only
    rw [if_neg (by decide), if_pos rfl, if_neg (by decide)]
    unfold regWrites regWrites
    rw [if_pos hoff]
  case away =>
    have hchecks : exec (.remoteCommand h 0 target 1 off [] []) s = .next (holding s
        (if !reachable a target then fail a h 0x0805 .fabricUnreachable else sendMsg (startRun a h 0x0805 target [0]) target tyRegRead [off, 1])) := by
      show execRemoteCommand h 0 target 1 off [] [] s = _
      rw [execRemoteCommand, starts_body (layout := if (0 : Nat) = 2 then 112 else 48) hs hp (by simp [hlocal, halign, hoff, htarget, show domOn (accept s h) 13 = true from hon])]
      dsimp only
      rw [if_neg (by decide), if_neg haway, if_pos rfl]
    refine ⟨fun hno => ?_, fun hyes => ?_⟩
    · rw [hchecks, hno]
      rfl
    · rw [hchecks, hyes]
      rfl
  case fan =>
    show execRemoteCommand h 2 0 0 0 [] inner s = _
    rw [execRemoteCommand, starts_body (layout := if (2 : Nat) = 2 then 112 else 48) { hs with length := hlen } hp (by simp [hlocal, hok, show domOn (accept s h) 13 = true from hon])]
    rfl
  case alone =>
    unfold fanOut
    rw [hpeers]
    rfl

/-- Settles O21: the frames of a peer after their arrival, and REMOTE_COMMAND by where its register lies. -/
theorem remoteAccess : Obligations.RemoteAccess := ⟨peersFrames, remoteCommands⟩

end Sys2Proof.Proofs

/-! PROOFS. Power domains (R86, R87, R93). -/

namespace Sys2Proof.Proofs

-- One theorem after the other: elaborated at once, their threads outgrow the memory that a check may take.
set_option Elab.async false

open Sys2Proof.Machine Sys2Proof.Laws

section
variable {s : State}

/-! ### A domain on or off -/

theorem domOn_setDomain (s : State) {d : Nat} (on : Bool) (hlo : 2 ≤ d) (hd : d < 20) : domOn (setDomain s d on) d = on := by
  have hbit : (fld (setDomain s d on) PWR_STS 19 0).testBit d = on := by
    rw [setDomain, setFlag, setFld, fld, rd_wr_same, bitsOf, natBits_testBit, ← BitVec.getLsbD, setBits_getLsbD]
    cases on
    · simp
    · simp
      omega
  rw [domOn, hbit, decide_eq_false (by omega), Bool.false_or]

theorem natClr_testBit_same (m i : Nat) : (natClr m i).testBit i = false := by simp [natClr_testBit]

/-! ### Domain 10 in reset -/

theorem ite_ne_of {c : Prop} [Decidable c] {x y z : Nat} (hx : c → x ≠ z) (hy : ¬ c → y ≠ z) : (if c then x else y) ≠ z := by
  by_cases h : c
  · rw [if_pos h]
    exact hx h
  · rw [if_neg h]
    exact hy h

/-- The registers of the codecs lie in their block. -/
theorem domainOf_codec {a : Nat} (h : domainOf a = 10) : 0x250000 ≤ a ∧ a < 0x260000 := by
  by_contra hout
  refine absurd h ?_
  unfold domainOf
  repeat' refine @ite_ne_of _ _ _ _ _ (fun _ => ?_) (fun _ => ?_)
  all_goals omega

theorem findRow_mem {rs : List RegRow} {a : Nat} {r : RegRow} {i j : Nat} (h : findRow rs a = some (r, i, j)) : r ∈ rs := by
  induction rs with
  | nil => exact absurd h (by simp [findRow])
  | cons x rs ih =>
    unfold findRow at h
    split at h
    · obtain ⟨rfl, -⟩ := Prod.mk.inj (Option.some.inj h)
      exact List.mem_cons_self
    · exact List.mem_cons_of_mem _ (ih h)

theorem stickyBits_codec {a : Nat} (h : domainOf a = 10) : stickyBits a = 0 := by
  obtain ⟨hlo, hhi⟩ := domainOf_codec h
  have hrows : blockRows a = cmpRows := by
    unfold blockRows
    repeat rw [if_neg (by omega)]
    rw [if_pos (by omega)]
  have hbase : ∀ r ∈ cmpRows, r.base ≠ LAS_STS 0 ∧ r.base ≠ FAB_P_STS 0 := by decide
  unfold stickyBits
  split
  · rfl
  · rename_i r i j hat
    have hmem : r ∈ cmpRows := hrows ▸ findRow_mem hat
    rw [if_neg (hbase r hmem).1, if_neg (hbase r hmem).2]

/-- A keyed list whose values are mapped at some keys reads the same at the others. -/
theorem mget_map_kept {g : Nat → Bool} (f : Nat → Word → Word) (d : Word) {k : Nat} (hk : g k = false) (m : List (Nat × Word)) :
    mget d (m.map (fun e => if g e.1 then (e.1, f e.1 e.2) else e)) k = mget d m k := by
  induction m with
  | nil => rfl
  | cons e m ih =>
    obtain ⟨i, w⟩ := e
    rw [List.map_cons]
    by_cases hi : i = k
    · subst hi
      simp [mget, hk]
    · by_cases hg : g i = true
      · simp [mget, hg, hi, ih]
      · simp [mget, hg, hi, ih]

/-- A keyed list whose values become the default at a key reads the default there. -/
theorem mget_map_default {g : Nat → Bool} (f : Nat → Word → Word) (d : Word) {k : Nat} (hk : g k = true) (hf : ∀ w, f k w = d) (m : List (Nat × Word)) :
    mget d (m.map (fun e => if g e.1 then (e.1, f e.1 e.2) else e)) k = d := by
  induction m with
  | nil => rfl
  | cons e m ih =>
    obtain ⟨i, w⟩ := e
    rw [List.map_cons]
    by_cases hi : i = k
    · subst hi
      simp [mget, hk, hf]
    · by_cases hg : g i = true
      · simp [mget, hg, hi, ih]
      · simp [mget, hg, hi, ih]

/-- The registers of a domain in reset before the shutters show again. -/
def wiped (s : State) (d : Nat) : State :=
  let gone (a : Nat) : Bool := domainOf a == d && !(decide (FTM_TIME_LO ≤ a) && decide (a ≤ FTM_INCR_HI)) && a != DDR_STS
  let regs := s.regs.map (fun e => if gone e.1 then (e.1, (e.2 &&& stickyBits e.1) ||| (regReset e.1 &&& ~~~stickyBits e.1)) else e)
  { s with regs := regs, shadow := s.shadow.filter (fun e => !gone e.1), live := s.live.filter (fun e => !gone e.1) }

theorem resetRegs_codec (s : State) : resetRegs s 10 = shutterShow (wiped s 10) := rfl

theorem wiped_reset {a : Nat} (h : domainOf a = 10) : rd (wiped s 10) a = regReset a := by
  have hrange := domainOf_codec h
  refine mget_map_default (g := fun a => domainOf a == 10 && !(decide (FTM_TIME_LO ≤ a) && decide (a ≤ FTM_INCR_HI)) && a != DDR_STS)
    (fun a w => (w &&& stickyBits a) ||| (regReset a &&& ~~~stickyBits a)) (regReset a) (k := a) ?_ (fun w => ?_) s.regs
  · have htime : ¬ a ≤ FTM_INCR_HI := by simp only [FTM_INCR_HI]; omega
    have hsts : a ≠ DDR_STS := by simp only [DDR_STS]; omega
    simp [h, htime, hsts]
  · simp only [stickyBits_codec h]
    exact (congrArg (· ||| (regReset a &&& ~~~(0 : Word))) BitVec.and_zero).trans (BitVec.zero_or.trans BitVec.and_allOnes)

theorem wiped_kept {a : Nat} (h : domainOf a ≠ 10) : rd (wiped s 10) a = rd s a :=
  mget_map_kept (g := fun a => domainOf a == 10 && !(decide (FTM_TIME_LO ≤ a) && decide (a ≤ FTM_INCR_HI)) && a != DDR_STS)
    (fun a w => (w &&& stickyBits a) ||| (regReset a &&& ~~~stickyBits a)) (regReset a) (k := a) (by simp [h]) s.regs

theorem codecReset_rd {a : Nat} (s : State) (h : domainOf a = 10) : rd (resetRegs s 10) a = regReset a := by
  have hrange := domainOf_codec h
  rw [resetRegs_codec, shutterShow_rd _ (fun n hn => by simp only [LAS_STS]; omega), wiped_reset h]

theorem codecReset_other {a : Nat} (s : State) (h : domainOf a ≠ 10) (hsts : ∀ n < 24, a ≠ LAS_STS n) : rd (resetRegs s 10) a = rd s a := by
  rw [resetRegs_codec, shutterShow_rd _ hsts, wiped_kept h]

theorem codecReset_same (s : State) : Same [.regs, .shadow, .live] s (resetRegs s 10) := by
  have hwiped : Same [.regs, .shadow, .live] s (wiped s 10) := fun q hq => by cases q <;> first | rfl | exact absurd (by decide) hq
  rw [resetRegs_codec]
  exact hwiped.trans ((shutterShow_same _).mono (by decide))

/-- The address map of device DRAM stays. -/
theorem codecReset_map (s : State) : followMap s (resetRegs s 10) = resetRegs s 10 := by
  have hsts : rd (resetRegs s 10) DDR_STS = rd s DDR_STS := codecReset_other s (by decide) (by decide)
  have hcap : chCap (resetRegs s 10) 0 = chCap s 0 := congrArg (· * 2 ^ 20) (rdN_congr (codecReset_other s (by decide) (by decide)))
  rw [followMap, moveDram, fld_congr hsts, hcap, if_pos (by simp)]

/-- Codecs without a job lose nothing. -/
theorem codecOff_idle (hjobs : s.jobs = []) (hrec : codecSt s 1 ≠ 4) : codecOff s = s := by
  have hnone : ∀ g, jobBreak s g .domainOff = s := fun g => by rw [jobBreak, jobOf, hjobs]; rfl
  have hfold : (List.range 2).foldl (fun s g => jobBreak s g .domainOff) s = s :=
    foldl_inv (fun t => t = s) _ _ (fun t g _ ht => by rw [ht, hnone]) s rfl
  unfold codecOff
  dsimp only
  rw [hfold, if_neg hrec]

/-- Domain 10 held in reset (R93). -/
def codecHeld (s : State) : State :=
  let s := setDomain (resetRegs s 10) 10 false
  { s with pwr := { s.pwr with inReset := natSet s.pwr.inReset 10 } }

theorem codecHeld_effect (s : State) : domOn (codecHeld s) 10 = false ∧ (codecHeld s).pwr.inReset.testBit 10 = true ∧
    (∀ r, domainOf r = 10 → rd (codecHeld s) r = regReset r) ∧ (codecHeld s).lanes = s.lanes ∧ SameMemory s (codecHeld s) := by
  have hsame := codecReset_same s
  refine ⟨domOn_setDomain (resetRegs s 10) false (by decide) (by decide), natSet_testBit_same _ _, fun r hr => ?_, hsame.lanes,
    hsame.sram, hsame.dram, hsame.host, hsame.sramLost, hsame.dramLost⟩
  exact (rd_setFlag_other _ _ (by rintro rfl; exact absurd hr (by decide))).trans (codecReset_rd s hr)

end

/-- Settles O22: a domain whose switching is refused, standing, begun or ended, by the cases of its commands. -/
theorem powerDomains : Obligations.PowerDomains := by
  refine ⟨?commands, fun s d hclk hlo hhi => ?ends⟩
  case commands =>
    intro s h d hs hlo hhi a
    refine ⟨fun st flags hst hflags hbusy hsame hp => ?standing, fun flags hflags hbusy hoff hp => ?on, fun hbusy hon hcond hfree h11 h12 hp => ?off,
      fun hon hcond hp => ?refused, fun hon hcond hbusy hfree hd hrec hjobs hp => ?reset, fun hoff hp => ?resetOff⟩
    case standing =>
      show execPowerDomain h d st flags s = _
      have hsame' : domOn (accept s h) d = (st == 1) := hsame
      have hbusy' : switching (accept s h) d = false := hbusy
      rw [execPowerDomain, starts_body hs hp (by simp [hsame', hbusy', hlo, hhi]; omega)]
      exact congrArg (fun t => Host.Outcome.next (holding s t)) (if_pos hsame)
    case on =>
      show execPowerDomain h d 1 flags s = _
      have hoff' : domOn (accept s h) d = false := hoff
      have hbusy' : switching (accept s h) d = false := hbusy
      rw [execPowerDomain, starts_body hs hp (by simp [hoff', hbusy', hlo, hhi]; omega)]
      exact congrArg (fun t => Host.Outcome.next (holding s t)) (if_neg (by rw [hoff]; decide))
    case off =>
      show execPowerDomain h d 0 0 s = _
      have hon' : domOn (accept s h) d = true := hon
      have hbusy' : switching (accept s h) d = false := hbusy
      have hcond' : offCond (accept s h) d = true := hcond
      have hfree' : inUse (accept s h) d = false := hfree
      rw [execPowerDomain, starts_body hs hp (by simp [hon', hbusy', hcond', hfree', hlo, hhi]; omega)]
      exact congrArg (fun t => Host.Outcome.next (holding s t)) (if_neg (by rw [hon]; decide))
    case refused =>
      show execPowerDomain h d 0 0 s = _
      have hon' : domOn (accept s h) d = true := hon
      have hcond' : offCond (accept s h) d = false := hcond
      rw [execPowerDomain, starts_fails (st := .wrongState) (k := false) hs hp (by decide) (by simp [hon', hcond', hlo, hhi])]
    case reset =>
      subst hd
      obtain ⟨hdom, hreset, hregs, hlanes, hmemory⟩ := codecHeld_effect a
      refine ⟨codecHeld a, ?_, hdom, hreset, hregs, hlanes, hmemory⟩
      show execResetDomain h 10 s = _
      have hon' : domOn (accept s h) 10 = true := hon
      have hbusy' : switching (accept s h) 10 = false := hbusy
      have hcond' : offCond (accept s h) 10 = true := hcond
      have hfree' : inUse (accept s h) 10 = false := hfree
      have hdrop : domainDrop a 10 = a := codecOff_idle hjobs hrec
      rw [execResetDomain, starts_body hs hp (by simp [hon', hbusy', hcond', hfree'])]
      dsimp only
      rw [show domainDrop (accept s h) 10 = accept s h from hdrop, if_neg (by decide), codecReset_map]
      rfl
    case resetOff =>
      have hoff' : domOn (accept s h) d = false := hoff
      show execResetDomain h d s = _
      rw [execResetDomain, starts_fails (st := .domainOff) (k := false) hs hp (by decide) (by simp [hoff', hlo, hhi])]
  case ends =>
    have hup : ∀ t, domainUp t d = t := fun t => by rw [domainUp, if_neg (by omega), if_pos (by omega)]
    refine ⟨fun rest hfirst => ?switched, fun hreset => ?released⟩
    case switched =>
      refine ⟨setDomain { s with pwr := { s.pwr with switching := rest } } d true, ?_, domOn_setDomain _ true (by omega) (by omega), rfl,
        fun r hr => rd_setFlag_other _ _ hr, rfl, rfl, rfl, rfl, rfl, rfl⟩
      show execDomainSwitchDone d s = _
      rw [execDomainSwitchDone, whileClocked_running _ hclk, hfirst]
      dsimp only
      rw [if_pos rfl, hup]
    case released =>
      refine ⟨setDomain { s with pwr := { s.pwr with inReset := natClr s.pwr.inReset d } } d true, ?_, domOn_setDomain _ true (by omega) (by omega),
        natClr_testBit_same _ _, fun r hr => rd_setFlag_other _ _ hr, rfl, rfl, rfl, rfl, rfl, rfl⟩
      show execDomainResetRelease d s = _
      rw [execDomainResetRelease, whileClocked_running _ hclk, hreset]
      dsimp only
      rw [if_neg (by decide), hup]

end Sys2Proof.Proofs

/-! PROOFS. The shutdown of an overheated device (R84, R114, R115). -/

namespace Sys2Proof.Proofs

-- One theorem after the other: elaborated at once, their threads outgrow the memory that a check may take.
set_option Elab.async false

open Sys2Proof.Machine Sys2Proof.Laws

section
variable {s : State}

theorem putRet_same (s : State) (a : Nat) (bs : List Byte) : Same [.evr, .sram] s (putRet s a bs) := by
  unfold putRet
  exact Same.trans (ps := [.evr, .sram]) ((evr_changed (fun s => { s.evr with bad := _ })).mono (by decide)) ((putSram_same _ _ _).mono (by decide))

theorem putHeader_same (s : State) (off : Nat) (bs : List Byte) : Same [.evr, .sram] s (putHeader s off bs) :=
  (putRet_same _ _ _).trans (putRet_same _ _ _)

theorem putBlackBox_same (s : State) (seq : Nat) (bs : List Byte) : Same [.evr, .sram] s (putBlackBox s seq bs) :=
  (putRet_same _ _ _).trans ((putHeader_same _ _ _).trans (putHeader_same _ _ _))

/-- Registers that the record of a shutdown writes. -/
def shutdownReg (a : Nat) : Bool := a == THM_SHUTDOWN_CAUSE || (a == THM_SHUTDOWN_TIME_LO || (a == THM_SHUTDOWN_TIME_HI || a == EVR_SEQ))

/-- A shutdown is the safe state and its record. -/
theorem shutdown_rd (s : State) (t : Nat) (v : Int) {a : Nat} (h : shutdownReg a = false) : rd (shutdown s t v) a = rd (enterSafe s) a := by
  simp only [shutdownReg, Bool.or_eq_false_iff, beq_eq_false_iff_ne] at h
  obtain ⟨hcause, hlo, hhi, hseq⟩ := h
  unfold shutdown
  dsimp only
  rw [(putBlackBox_same _ _ _).rd, rd_bump_other hseq, (putHeader_same _ _ _).rd, rd_wr64_other _ hlo hhi, rd_setFld_other _ _ _ hcause,
    rd_setFld_other _ _ _ hcause]

theorem shutdown_dark (s : State) (t : Nat) (v : Int) {n : Nat} (hn : n < 24) : LaneDark n (shutdown s t v) := by
  refine (enterSafe_dark s hn).of_rd (shutdown_rd s t v ?_) (shutdown_rd s t v ?_)
  · simp [shutdownReg, LAS_STS, THM_SHUTDOWN_CAUSE, THM_SHUTDOWN_TIME_LO, THM_SHUTDOWN_TIME_HI, EVR_SEQ]
    omega
  · simp [shutdownReg, LAS_WORD, THM_SHUTDOWN_CAUSE, THM_SHUTDOWN_TIME_LO, THM_SHUTDOWN_TIME_HI, EVR_SEQ]
    omega

/-- The reading that shuts down, as far as sensor `t` has been looked at. -/
def hotter (s : State) (temps : List Int) (b : Option (Nat × Int)) (t : Nat) : Option (Nat × Int) :=
  let v := temps.getD t 0
  if thmFailed s t || decide (v < 118 * 16) then b
  else
    match b with
    | none => some (t, v)
    | some (_, w) => if w < v then some (t, v) else b

theorem shutdownBy_eq (s : State) (temps : List Int) : shutdownBy s temps = sensors.foldl (hotter s temps) none := rfl

theorem hotter_isSome {temps : List Int} {b : Option (Nat × Int)} {t : Nat} (h : b.isSome = true) : (hotter s temps b t).isSome = true := by
  unfold hotter
  dsimp only
  split
  · exact h
  · split
    · rfl
    · split
      · rfl
      · exact h

theorem hotter_reading {temps : List Int} {b : Option (Nat × Int)} {t : Nat} (hsound : thmFailed s t = false) (hhot : 118 * 16 ≤ temps.getD t 0) :
    (hotter s temps b t).isSome = true := by
  unfold hotter
  dsimp only
  rw [hsound, if_neg (by simp; exact hhot)]
  cases b with
  | none => rfl
  | some e =>
    dsimp only
    split <;> rfl

/-- A reading over the limit is found, whatever was found before it. -/
theorem foldl_hotter_isSome {temps : List Int} {t : Nat} (hsound : thmFailed s t = false) (hhot : 118 * 16 ≤ temps.getD t 0) (l : List Nat)
    (b : Option (Nat × Int)) (h : t ∈ l ∨ b.isSome = true) : (l.foldl (hotter s temps) b).isSome = true := by
  induction l generalizing b with
  | nil => exact h.resolve_left List.not_mem_nil
  | cons x l ih =>
    refine ih _ ?_
    rcases h with hmem | hsome
    · rcases List.mem_cons.mp hmem with rfl | hrest
      · exact .inr (hotter_reading hsound hhot)
      · exact .inl hrest
    · exact .inr (hotter_isSome hsome)

end

/-- Settles O23: a sample latches exactly where a healthy sensor reads over the limit. -/
theorem thermalShutdown : Obligations.ThermalShutdown := by
  intro s temps hoff t
  have hexec : exec (.thmSample temps) s = .next (match shutdownBy t temps with
      | some (k, v) => latch (holding s (shutdown t k v))
      | none => holding s (lanes24.foldl afeTempTrigger (layerTemp t))) := by
    show execThmSample temps s = _
    unfold execThmSample
    dsimp only
    rw [hoff, if_neg (by decide)] <;> rfl
  clear_value t
  refine ⟨fun k v hby => ?latched, fun hnone => ?cool, fun i v hi hv hhot hsound => ?found, fun hclk rail => ?supply⟩
  case latched =>
    rw [hby] at hexec
    dsimp only at hexec
    have hdark := fun n (hn : n < 24) => shutdown_dark t k v hn
    generalize shutdown t k v = u at hexec hdark
    refine ⟨_, hexec, rfl, rfl, rfl, rfl, fun n hn => ?_, rfl⟩
    obtain ⟨hgate, hemit, -⟩ := hdark n hn
    exact ⟨hgate, hemit⟩
  case cool =>
    rw [hnone] at hexec
    dsimp only at hexec
    generalize lanes24.foldl afeTempTrigger (layerTemp t) = u at hexec
    exact ⟨_, hexec, hoff, rfl, rfl⟩
  case found =>
    subst hv
    rw [shutdownBy_eq]
    exact foldl_hotter_isSome hsound hhot _ _ (.inl (List.mem_range.mpr hi))
  case supply =>
    show execSupplyUv rail s = _
    rw [execSupplyUv, whileClocked_running _ hclk]

end Sys2Proof.Proofs

/-! PROOFS. The fault table and the event recorder (R552 to R572, R579). -/

namespace Sys2Proof.Proofs

-- One theorem after the other: elaborated at once, their threads outgrow the memory that a check may take.
set_option Elab.async false

open Sys2Proof.Machine Sys2Proof.Laws

section
variable {s t : State}

/-! ### Entries of the fault table -/

theorem fltFree_spec {cls i : Nat} (h : fltFree s cls = some i) : i < 64 ∧ (cls < 3 → i < 60) := by
  have hmem := List.mem_range.mp (List.mem_of_find?_eq_some h)
  have hfree := List.find?_some h
  simp only [Bool.and_eq_true, Bool.or_eq_true, decide_eq_true_eq, beq_iff_eq] at hfree
  obtain ⟨-, hplace⟩ := hfree
  exact ⟨hmem, fun hcls => by omega⟩

/-- The first word of a new entry. -/
def entryOpened (s : State) (cls code i : Nat) : State :=
  setFld (setFld (setFld s (FLT_ENTRY_W0 i) 31 30 1) (FLT_ENTRY_W0 i) 29 27 cls) (FLT_ENTRY_W0 i) 15 0 code

theorem entryOpened_fields {cls code : Nat} (s : State) (i : Nat) (hcls : cls < 5) (hcode : code < 2 ^ 16) :
    fld (entryOpened s cls code i) (FLT_ENTRY_W0 i) 31 30 = 1 ∧ fld (entryOpened s cls code i) (FLT_ENTRY_W0 i) 29 27 = cls ∧
      fld (entryOpened s cls code i) (FLT_ENTRY_W0 i) 15 0 = code := by
  unfold entryOpened
  refine ⟨?_, ?_, fld_setFld_fits (by omega)⟩
  · rw [fld_setFld_apart _ _ _ _ _ _ (by decide) (by decide) (by decide), fld_setFld_apart _ _ _ _ _ _ (by decide) (by decide) (by decide),
      fld_setFld_fits (by decide)]
  · rw [fld_setFld_apart _ _ _ _ _ _ (by decide) (by decide) (by decide), fld_setFld_fits (by omega)]

theorem fltEnter_free {cls i : Nat} (code source : Nat) (h : fltFree s cls = some i) : fltEnter s cls code source =
    (wr64 (wrN (entryOpened s cls code i) (FLT_ENTRY_W1 i) source) (FLT_ENTRY_TIME_LO i) (FLT_ENTRY_TIME_HI i)
      (now (entryOpened s cls code i)), some i) := by
  rw [fltEnter, h]
  rfl

theorem fltEnter_full {cls : Nat} (code source : Nat) (h : fltFree s cls = none) : fltEnter s cls code source =
    (setFlag { s with evr := { s.evr with loose := s.evr.loose ++ [⟨code, source, cls, false⟩] } } FLT_STS 5 true, none) := by rw [fltEnter, h]

theorem entryOpened_rd {cls code i a : Nat} (h : a ≠ FLT_ENTRY_W0 i) : rd (entryOpened s cls code i) a = rd s a := by
  rw [entryOpened, rd_setFld_other _ _ _ h, rd_setFld_other _ _ _ h, rd_setFld_other _ _ _ h]

theorem wr64_low (s : State) {lo hi n : Nat} (h : lo ≠ hi) : rd (wr64 s lo hi n) lo = BitVec.ofNat 32 n := by
  rw [wr64, rd_wrN_other _ h]
  exact rd_wr_same _ _

theorem fltFind_spec {code source st i : Nat} (h : fltFind s code source st = some i) :
    i < 64 ∧ fld s (FLT_ENTRY_W0 i) 31 30 = st ∧ fld s (FLT_ENTRY_W0 i) 15 0 = code ∧ fld s (FLT_ENTRY_W1 i) 15 0 = source := by
  have hmem := List.mem_range.mp (List.mem_of_find?_eq_some h)
  have hmatch := List.find?_some h
  simp only [Bool.and_eq_true, beq_iff_eq] at hmatch
  obtain ⟨⟨hst, hcode⟩, hsource⟩ := hmatch
  exact ⟨hmem, hst, hcode, hsource⟩

/-- A fault whose condition goes leaves its entry GONE. -/
theorem faultGone_entry {code source i : Nat} (h : fltFind s code source 1 = some i) : fld (faultGone s code source) (FLT_ENTRY_W0 i) 31 30 = 2 := by
  have hgone : fld (setFld s (FLT_ENTRY_W0 i) 31 30 2) (FLT_ENTRY_W0 i) 31 30 = 2 := fld_setFld_fits (by decide)
  rw [faultGone, h]
  exact hgone

end

theorem faultEntries : Claim.FaultEntries := by
  intro s cls code source hcls hcode hsource
  refine ⟨fun i hfree => ?enter, fun hnone => ?full, fun i payload hfind => ?repeated, fun i hfind => faultGone_entry hfind⟩
  case enter =>
    intro t
    obtain ⟨hi, hplace⟩ := fltFree_spec hfree
    obtain ⟨hst, hclass, hcoded⟩ := entryOpened_fields s i hcls hcode
    have ht : t = wr64 (wrN (entryOpened s cls code i) (FLT_ENTRY_W1 i) source) (FLT_ENTRY_TIME_LO i) (FLT_ENTRY_TIME_HI i)
        (now (entryOpened s cls code i)) := congrArg Prod.fst (fltEnter_free code source hfree)
    have hword : ∀ j, rd t (FLT_ENTRY_W0 j) = rd (entryOpened s cls code i) (FLT_ENTRY_W0 j) := fun j => by
      rw [ht, rd_wr64_other _ (by simp only [FLT_ENTRY_W0, FLT_ENTRY_TIME_LO]; omega) (by simp only [FLT_ENTRY_W0, FLT_ENTRY_TIME_HI]; omega),
        rd_wrN_other _ (by simp only [FLT_ENTRY_W0, FLT_ENTRY_W1]; omega)]
    have hnow : now (entryOpened s cls code i) = now s :=
      now_congr (entryOpened_rd (by simp only [FLT_ENTRY_W0, FTM_TIME_LO]; omega)) (entryOpened_rd (by simp only [FLT_ENTRY_W0, FTM_TIME_HI]; omega))
    refine ⟨hi, (fld_congr (hword i) _ _).trans hst, (fld_congr (hword i) _ _).trans hclass, (fld_congr (hword i) _ _).trans hcoded, ?_, ?_, hplace,
      fun j hj hne => (hword j).trans (entryOpened_rd (by simp only [FLT_ENTRY_W0]; omega)), ?_⟩
    · rw [ht, fld_congr (rd_wr64_other _ (by simp only [FLT_ENTRY_W1, FLT_ENTRY_TIME_LO]; omega) (by simp only [FLT_ENTRY_W1, FLT_ENTRY_TIME_HI]; omega))]
      have hwritten : rdN (wrN (entryOpened s cls code i) (FLT_ENTRY_W1 i) source) (FLT_ENTRY_W1 i) = source :=
        (rdN_wrN_same _ _).trans (Nat.mod_eq_of_lt (by omega))
      show natBits (rdN _ _) 15 0 = source
      rw [hwritten]
      simp only [natBits, Nat.shiftRight_zero]
      omega
    · rw [ht, wr64_low _ (by simp only [FLT_ENTRY_TIME_LO, FLT_ENTRY_TIME_HI]; omega), hnow]
    · rw [ht]
      rfl
  case full =>
    rw [fltEnter_full code source hnone]
    exact ⟨flag_setFlag_same _ _ _ (by decide), rfl⟩
  case repeated => rw [raiseFault, hfind]

section
variable {s t : State}

/-! ### FAULT_CLEAR -/

/-- Leaving the safe state writes the axes' status alone. -/
theorem leaveSafe_regs (s : State) : RegsKept (fun a => decide (0x1C0000 ≤ a) && decide (a < 0x200000)) s (leaveSafe s) := by
  have haxes : ∀ k < 8, (decide (0x1C0000 ≤ AX_STS k) && decide (AX_STS k < 0x200000)) = true := by decide
  have hgroup : (decide (0x1C0000 ≤ AX_GROUP_STS) && decide (AX_GROUP_STS < 0x200000)) = true := by decide
  unfold leaveSafe
  split
  · refine RegsKept.trans (t := trigShow { s with pwr := { s.pwr with safe := false }, pins := { s.pins with safeN := true } }) (RegsKept.of_regs rfl) ?_
    refine foldl_inv (RegsKept _ _) _ _ (fun u k hk hu => hu.trans ?_) _ (RegsKept.refl _ _)
    intro a ha
    have hsts : a ≠ AX_STS k := by
      rintro rfl
      exact absurd ((haxes k (List.mem_range.mp hk)).symm.trans ha) (by decide)
    have hshow : a ≠ AX_GROUP_STS := by
      rintro rfl
      exact absurd (hgroup.symm.trans ha) (by decide)
    dsimp only
    split
    · rw [setAxState, armedShow, rd_setFld_other _ _ _ hshow, rd_setFld_other _ _ _ hsts, rd_setFld_other _ _ _ hsts]
      exact rd_setFlag_other _ _ hsts
    · exact rd_setFlag_other _ _ hsts
  · exact RegsKept.refl _ _

theorem leaveSafe_out (h : s.pwr.safe = false) : leaveSafe s = s := by rw [leaveSafe, h]; rfl

theorem freeEntry_only (s : State) (i : Nat) :
    Only [.regs, .evr, .freeCtr] (fun a => evrReg a || (a == FLT_ENTRY_W0 i || (a == FLT_ENTRY_W1 i || (a == FLT_ENTRY_TIME_LO i || a == FLT_ENTRY_TIME_HI i)))) s
      (freeEntry s i) := by
  unfold freeEntry
  dsimp only
  exact (Only.wr64 (Only.wrN (Only.wrN (Only.refl _ _ s) (by simp)) (by simp)) (by simp) (by simp)).trans
    ((event_only _ _ _ _).mono (fun q hq => hq) (fun a ha => by simp [ha]))

theorem freeEntry_freed (s : State) {i : Nat} (hi : i < 64) : rdN (freeEntry s i) (FLT_ENTRY_W0 i) = 0 ∧ rdN (freeEntry s i) (FLT_ENTRY_W1 i) = 0 := by
  have hevent : ∀ (u : State) (src code : Nat) (bs : List Byte), rd (event u src code bs) (FLT_ENTRY_W0 i) = rd u (FLT_ENTRY_W0 i) ∧
      rd (event u src code bs) (FLT_ENTRY_W1 i) = rd u (FLT_ENTRY_W1 i) := fun u src code bs =>
    ⟨event_regs _ _ _ _ _ (by simp [evrReg, EVR_SEQ, EVR_STS, EVR_LOST, FLT_ENTRY_W0]; omega), event_regs _ _ _ _ _ (by simp [evrReg, EVR_SEQ, EVR_STS, EVR_LOST, FLT_ENTRY_W1]; omega)⟩
  have htime : ∀ (u : State) (n : Nat), rd (wr64 u (FLT_ENTRY_TIME_LO i) (FLT_ENTRY_TIME_HI i) n) (FLT_ENTRY_W0 i) = rd u (FLT_ENTRY_W0 i) ∧
      rd (wr64 u (FLT_ENTRY_TIME_LO i) (FLT_ENTRY_TIME_HI i) n) (FLT_ENTRY_W1 i) = rd u (FLT_ENTRY_W1 i) := fun u n =>
    ⟨rd_wr64_other _ (by simp [FLT_ENTRY_W0, FLT_ENTRY_TIME_LO]) (by simp [FLT_ENTRY_W0, FLT_ENTRY_TIME_HI]),
      rd_wr64_other _ (by simp [FLT_ENTRY_W1, FLT_ENTRY_TIME_LO]) (by simp [FLT_ENTRY_W1, FLT_ENTRY_TIME_HI])⟩
  unfold freeEntry
  dsimp only
  refine ⟨?_, ?_⟩
  · rw [rdN_congr ((hevent _ _ _ _).1.trans ((htime _ _).1.trans (rd_wrN_other _ (by simp [FLT_ENTRY_W0, FLT_ENTRY_W1]))))]
    exact rdN_wrN_same _ _
  · rw [rdN_congr ((hevent _ _ _ _).2.trans (htime _ _).2)]
    exact rdN_wrN_same _ _

/-- Entry `i` freed and the table shown. -/
def entryCleared (s : State) (i : Nat) : State := leaveSafe (fltShow (freeEntry s i))

/-- FAULT_CLEAR of OP 0 (R560). -/
def clearNamed (h : Issue) (mask : Nat) (s : State) : State :=
  let named := fltIx.filter (fun i => entrySt s i != 0 && mask.testBit i)
  let fatal (i : Nat) : Bool := fld s (FLT_ENTRY_W0 i) 29 27 == clsFatal
  let gone := named.filter (fun i => entrySt s i == 2 && !fatal i)
  let kept := named.filter (fun i => !(entrySt s i == 2 && !fatal i))
  let st := if kept.any fatal then Status.faultActive else if kept.isEmpty then .ok else .wrongState
  let s := leaveSafe (fltShow (gone.foldl freeEntry s))
  let m := kept.foldl natSet 0
  complete s h 0x0B02 st gone.length (m % 2 ^ 32) (m / 2 ^ 32) 0

theorem clearNamed_one {h : Issue} {i : Nat} (hi : i < 64) (hgone : entrySt s i = 2) (hfatal : fld s (FLT_ENTRY_W0 i) 29 27 ≠ clsFatal) :
    clearNamed h (1 <<< i) s = complete (entryCleared s i) h 0x0B02 .ok 1 0 0 0 := by
  have hbit : ∀ j, (1 <<< i).testBit j = decide (j = i) := fun j => by
    rw [Nat.one_shiftLeft, Nat.testBit_two_pow]
    exact decide_eq_decide.mpr eq_comm
  have hnamed : fltIx.filter (fun j => entrySt s j != 0 && (1 <<< i).testBit j) = [i] := by
    rw [← bitList_one hi, bitList]
    refine List.filter_congr (fun j _ => ?_)
    by_cases hj : j = i
    · subst hj
      simp [hgone]
    · simp [hbit, hj]
  unfold clearNamed
  dsimp only
  rw [hnamed]
  simp [hgone, hfatal]
  rfl

end

theorem faultCommands : Claim.FaultCommands := by
  intro s h hs a
  refine ⟨fun addr haddr hp => ?read, fun i hi hgone hfatal hsafe hp => ?clear, fun hp => ?freeze, fun hp => ?thaw, fun addr haddr hp => ?header⟩
  case read =>
    show execFaultRead h addr s = _
    rw [execFaultRead, starts_body hs hp (by simp [haddr])]
  case clear =>
    have hfreed := freeEntry_freed a hi
    have honly := freeEntry_only a i
    have hout : entryCleared a i = fltShow (freeEntry a i) :=
      leaveSafe_out (by rw [(fltShow_same _).pwr, honly.same.pwr]; exact hsafe)
    have hshown : ∀ r, r ≠ FLT_STS → rd (entryCleared a i) r = rd (freeEntry a i) r := fun r hr => by rw [hout, fltShow_rd hr]
    have hsame : Same [.regs, .evr, .freeCtr] a (entryCleared a i) := by
      rw [hout]
      exact honly.same.trans ((fltShow_same _).mono (by decide))
    refine ⟨entryCleared a i, ?_, ?_, ?_, fun j hj hne => ?_, hsame.lanes, hsame.axes, same_memory hsame⟩
    · show execFaultClear h 0 0 0 (1 <<< i) s = _
      rw [execFaultClear, starts_body hs hp (by simp)]
      exact congrArg (fun t => Host.Outcome.next (holding s t)) (clearNamed_one hi hgone hfatal)
    · rw [rdN_congr (hshown _ (by simp only [FLT_ENTRY_W0, FLT_STS]; omega)), hfreed.1]
    · rw [rdN_congr (hshown _ (by simp only [FLT_ENTRY_W1, FLT_STS]; omega)), hfreed.2]
    · rw [hshown _ (by simp only [FLT_ENTRY_W0, FLT_STS]; omega)]
      refine honly.regs _ ?_
      simp [evrReg, EVR_SEQ, EVR_STS, EVR_LOST, FLT_ENTRY_W0, FLT_ENTRY_W1, FLT_ENTRY_TIME_LO, FLT_ENTRY_TIME_HI]
      omega
  case freeze =>
    show execRecorderFreeze h s = _
    rw [execRecorderFreeze, starts_body hs hp (by simp)]
  case thaw =>
    have hnext : fld (setFlag a EVR_STS 0 false) EVR_NEXT 15 0 = fld a EVR_NEXT 15 0 := fld_congr (rd_setFlag_other _ _ (by decide)) _ _
    refine ⟨{ setFlag a EVR_STS 0 false with evr := { a.evr with thawLost := a.evr.thawLost || (ringFrozen a && rdN a EVR_LOST != 0) } }, ?_,
      flag_setFlag_same _ _ _ (by decide), fun r hr => rd_setFlag_other _ _ hr, fun hfrozen hlost => ?_, rfl, rfl, rfl, rfl, rfl⟩
    · show execRecorderThaw h s = _
      rw [execRecorderThaw, starts_body hs hp (by simp), ← hnext]
      rfl
    · simp [hfrozen, hlost]
  case header =>
    intro ok
    show execBlackboxRead h 3 0 0 addr s = _
    rw [execBlackboxRead, starts_body hs hp (by simp [haddr])]
    rfl

section
variable {s : State}

/-! ### The drain of the intake -/

theorem padTo_length (k : Nat) (bs : List Byte) : (padTo k bs).length = k := by simp [padTo, zeros]

theorem evRec_bytes_length (e : EvRec) : e.bytes.length = 32 := by simp [EvRec.bytes, padTo_length]

theorem putRet_low (s : State) {a x k : Nat} (bs : List Byte) (h : x + k ≤ a) : sramBytes (putRet s a bs) x k = sramBytes s x k := by
  unfold putRet
  rw [sramBytes_putSram_other _ _ (.inl h)]
  exact sramBytes_congr rfl rfl _ _

theorem putHeader_low (s : State) (off : Nat) (bs : List Byte) {x k : Nat} (h : x + k ≤ retHeader) : sramBytes (putHeader s off bs) x k = sramBytes s x k := by
  unfold putHeader
  dsimp only
  rw [putRet_low _ _ (by omega), putRet_low _ _ (by omega)]

/-- A record written to the black box stands in its slot. -/
theorem putBlackBox_slot (s : State) (seq : Nat) {bs : List Byte} (hlen : bs.length = 32) : sramBytes (putBlackBox s seq bs) (blackBox + seq % 8192 * 32) 32 = bs := by
  have hslot : blackBox + seq % 8192 * 32 + 32 ≤ retHeader := by simp only [blackBox, retHeader]; omega
  unfold putBlackBox
  dsimp only
  rw [putHeader_low _ _ _ hslot, putHeader_low _ _ _ hslot, ← hlen]
  exact sramBytes_putSram_same _ _

/-- The oldest event leaves the intake for the black box. -/
def drained (s : State) (e : EvRec) (rest : List EvRec) : State :=
  putBlackBox (setFld { s with evr := { s.evr with fifo := rest } } EVR_STS 23 16 rest.length) e.seq e.bytes

theorem drained_same (s : State) (e : EvRec) (rest : List EvRec) : Same [.regs, .evr, .sram] s (drained s e rest) :=
  Same.trans (ps := [.regs, .evr, .sram]) ((evr_changed (fun s => { s.evr with fifo := rest })).mono (by decide))
    (((setFld_same _ _ _ _ _).mono (by decide)).trans ((putBlackBox_same _ _ _).mono (by decide)))

theorem drained_rd (s : State) (e : EvRec) (rest : List EvRec) {a : Nat} (h : a ≠ EVR_STS) : rd (drained s e rest) a = rd s a := by
  rw [drained, (putBlackBox_same _ _ _).rd, rd_setFld_other _ _ _ h]
  rfl

theorem drained_frozen (s : State) (e : EvRec) (rest : List EvRec) : ringFrozen (drained s e rest) = ringFrozen s := by
  have hregs : rd (drained s e rest) EVR_STS = rd (setFld { s with evr := { s.evr with fifo := rest } } EVR_STS 23 16 rest.length) EVR_STS :=
    (putBlackBox_same _ _ _).rd _
  exact (flag_congr hregs 0).trans (flag_setFld_apart _ _ _ _ _ _ (by decide) (by decide))

theorem drained_fifo (s : State) (e : EvRec) (rest : List EvRec) : (drained s e rest).evr.fifo = rest := rfl

/-- What EVENT_DRAIN does once no EVENTS_LOST record comes first. -/
theorem exec_eventDrain (hclk : Clocked s) (hthaw : s.evr.thawLost = false) {e : EvRec} {rest : List EvRec} (hfifo : s.evr.fifo = e :: rest) :
    exec .eventDrain s = .next (holding s (
      if ringFrozen (drained s e rest) then bump (drained s e rest) EVR_LOST
      else
        let s := putRing (drained s e rest) e.bytes
        if rdN s EVR_LOST = 0 then s
        else
          let (s, l) := lostRecord s
          setFld { s with evr := { s.evr with fifo := s.evr.fifo ++ [l] } } EVR_STS 23 16 (s.evr.fifo.length + 1))) := by
  show execEventDrain s = _
  rw [execEventDrain, whileClocked_running _ hclk, hthaw, hfifo]
  rfl

theorem putRing_bytes (s : State) (bs : List Byte) (x k : Nat) :
    sramBytes (putRing s bs) x k = sramBytes (putSram s (mainRing + fld s EVR_NEXT 15 0 * 32) bs) x k := sramBytes_congr rfl rfl _ _

theorem putRing_slot (s : State) {bs : List Byte} (hlen : bs.length = 32) : sramBytes (putRing s bs) (mainRing + fld s EVR_NEXT 15 0 * 32) 32 = bs := by
  have hsame := sramBytes_putSram_same (s := s) (mainRing + fld s EVR_NEXT 15 0 * 32) bs
  rw [hlen] at hsame
  rw [putRing_bytes, hsame]

theorem putRing_other (s : State) (bs : List Byte) {x k : Nat} (h : mainRing + fld s EVR_NEXT 15 0 * 32 + bs.length ≤ x) :
    sramBytes (putRing s bs) x k = sramBytes s x k := by rw [putRing_bytes, sramBytes_putSram_other _ _ (.inr h)]

theorem putRing_next (s : State) (bs : List Byte) : fld (putRing s bs) EVR_NEXT 15 0 = (fld s EVR_NEXT 15 0 + 1) % 65536 :=
  fld_setFld_fits (by omega)

theorem putRing_same (s : State) (bs : List Byte) : Same [.regs, .sram] s (putRing s bs) :=
  ((putSram_same _ _ _).mono (by decide)).trans ((setFld_same _ _ _ _ _).mono (by decide))

end

theorem recorderWork : Claim.RecorderWork := by
  intro s hclk
  refine ⟨fun hthaw hfifo => ?empty, fun e rest hthaw hfifo hfrozen hlost hbad => ?drain, fun e rest hthaw hfifo hfrozen => ?frozen, fun w hw => ?window,
    fun code source hcode hgone => ?gone, fun code source hcode hholds => ?holds, fun cls source hsettle hdue => ?timer, fun cls source hsettle hearly => ?early⟩
  case empty =>
    show execEventDrain s = _
    rw [execEventDrain, whileClocked_running _ hclk, hthaw, hfifo]
    rfl
  case drain =>
    have hnext : fld (drained s e rest) EVR_NEXT 15 0 = fld s EVR_NEXT 15 0 := fld_congr (drained_rd s e rest (by decide)) _ _
    have hringed : fld s EVR_NEXT 15 0 < 2 ^ 16 := fld_lt _ _ _
    have hsame := (drained_same s e rest).trans ((putRing_same (drained s e rest) e.bytes).mono (by decide))
    refine ⟨putRing (drained s e rest) e.bytes, ?_, drained_fifo s e rest, ?_, ?_, ?_, hsame.dram, hsame.host, hsame.lanes⟩
    · have hnone : rdN (putRing (drained s e rest) e.bytes) EVR_LOST = 0 :=
        (rdN_congr ((rd_setFld_other _ _ _ (by decide)).trans ((putSram_same _ _ _).rd _))).trans ((rdN_congr (drained_rd s e rest (by decide))).trans hlost)
      rw [exec_eventDrain hclk hthaw hfifo, drained_frozen, hfrozen, if_neg (by decide)]
      dsimp only
      rw [if_pos hnone]
    · rw [putRing_next, hnext]
    · rw [← hnext, putRing_slot _ (evRec_bytes_length e)]
    · rw [putRing_other _ _ (by rw [hnext, evRec_bytes_length]; simp only [mainRing, blackBox]; omega)]
      exact putBlackBox_slot _ _ (evRec_bytes_length e)
  case frozen =>
    have hsame := (drained_same s e rest).mono (qs := [.regs, .evr, .sram, .freeCtr]) (by decide)
    have hall := hsame.trans ((bump_same (drained s e rest) EVR_LOST).mono (by decide))
    refine ⟨bump (drained s e rest) EVR_LOST, ?_, ?_, ?_, hall.dram, hall.lanes⟩
    · rw [exec_eventDrain hclk hthaw hfifo, drained_frozen, hfrozen, if_pos rfl]
    · rw [(bump_same _ _).evr, drained_fifo]
    · exact fld_congr ((rd_bump_other (by decide)).trans (drained_rd s e rest (by decide))) _ _
  case window =>
    refine ⟨{ (evrWinRead s w).1 with readData := (evrWinRead s w).2 }, ?_, rfl, fun hother => ?_, fun hlast hauto => ?_, ?_⟩
    · show execEvrWindowRead w s = _
      rw [execEvrWindowRead, whileClocked_running _ hclk]
    · simp [evrWinRead, hother]
    · have hcursor : (evrWinRead s w).1 = setFld s EVR_CURSOR 15 0 ((fld s EVR_CURSOR 15 0 + 64) % 65536) := by simp [evrWinRead, hlast, hauto]
      have hmoved : fld (setFld s EVR_CURSOR 15 0 ((fld s EVR_CURSOR 15 0 + 64) % 65536)) EVR_CURSOR 15 0 = (fld s EVR_CURSOR 15 0 + 64) % 65536 :=
        fld_setFld_fits (by omega)
      exact (fld_congr (rd_regs (congrArg State.regs hcursor) _) _ _).trans hmoved
    · have hwin : Same [.regs] s (evrWinRead s w).1 := by
        unfold evrWinRead
        dsimp only
        split
        · exact setFld_same _ _ _ _ _
        · exact Same.refl _ _
      exact ⟨hwin.sram, hwin.dram, hwin.host, hwin.sramLost, hwin.dramLost⟩
  case gone =>
    show execFaultConditionGone code source s = _
    rw [execFaultConditionGone, whileClocked_running _ hclk, if_neg hcode]
    exact congrArg (fun t => Host.Outcome.next (holding s t)) (if_neg (by rw [hgone]; decide))
  case holds =>
    show execFaultConditionGone code source s = _
    rw [execFaultConditionGone, whileClocked_running _ hclk, if_neg hcode]
    exact congrArg (fun t => Host.Outcome.next (holding s t)) (if_pos hholds)
  case timer =>
    intro drop b
    have hexec : exec (.recoveryTimer cls source) s = .next (holding s (
        if cls = clsLane then raiseOnce b clsLayer 0x0204 source []
        else if cls = clsLayer then raiseOnce b clsDevice 0x0304 srcDevice []
        else raiseFault b clsFatal 0x0402 srcDevice [])) := by
      show execRecoveryTimer cls source s = _
      rw [execRecoveryTimer, whileClocked_running _ hclk, hsettle]
      exact congrArg (fun t => Host.Outcome.next (holding s t)) (if_neg (by rw [hdue]; decide))
    refine ⟨fun hlane => ?_, fun hlayer => ?_, fun hdevice => ?_⟩
    · rw [hexec, if_pos hlane]
    · rw [hexec, if_neg (by rw [hlayer]; decide), if_pos hlayer]
    · rw [hexec, if_neg (by rw [hdevice]; decide), if_neg (by rw [hdevice]; decide)]
  case early =>
    show execRecoveryTimer cls source s = _
    rw [execRecoveryTimer, whileClocked_running _ hclk, hsettle]
    exact congrArg (fun t => Host.Outcome.next (holding s t)) (if_pos (by rw [hearly]; decide))

/-- Settles O57: the table's entries, its commands, and the recorder's work. -/
theorem faultTable : Obligations.FaultTable := ⟨faultEntries, faultCommands, recorderWork⟩

end Sys2Proof.Proofs

/-! PROOFS. The burn map (R362 to R376). -/

namespace Sys2Proof.Proofs

-- One theorem after the other: elaborated at once, their threads outgrow the memory that a check may take.
set_option Elab.async false

open Sys2Proof.Machine Sys2Proof.Laws

section
variable {s t : State}

/-- BURN_CONFIG: what it stages (R376). -/
def burnFields (flags gain weight nMin : Nat) (ox oy : Int) (cell gw gh x0 y0 w wh : Nat) : List (Nat × Nat × Nat × Nat) :=
  [(BURN_CFG, 31, 31, b2n (flags.testBit 0)), (BURN_CFG, 30, 30, b2n (flags.testBit 1)), (BURN_CFG, 24, 16, weight), (BURN_CFG, 8, 0, gain),
   (BURN_NMIN, 15, 0, nMin), (BURN_ORIGIN_X, 31, 0, unsgn 32 ox), (BURN_ORIGIN_Y, 31, 0, unsgn 32 oy), (BURN_CELL, 15, 0, cell),
   (BURN_GRID, 27, 16, gh), (BURN_GRID, 11, 0, gw), (BURN_WIN0, 27, 16, y0), (BURN_WIN0, 11, 0, x0), (BURN_WIN1, 27, 16, wh), (BURN_WIN1, 11, 0, w)]

theorem b2n_mod (b : Bool) : b2n b % 2 = b2n b := by cases b <;> rfl

theorem burn_changed (f : State → Burn) : Same [.burn] s { s with burn := f s } := fun q hq => by
  cases q <;> first | rfl | exact absurd (by decide) hq

theorem burnBad_changed (f : State → List (Nat × Nat)) : Same [.burnBad] s { s with burnBad := f s } := fun q hq => by
  cases q <;> first | rfl | exact absurd (by decide) hq

theorem fillWindow_same (s : State) : Same [.dram, .dramLost, .burnBad] s (fillWindow s) :=
  Same.trans (ps := [.dram, .dramLost, .burnBad]) ((burnBad_changed (fun _ => [])).mono (by decide)) ((fillUnit_same _ _ _).mono (by decide))

theorem setBurnBusy_only (s : State) (b : Bool) : Only [.regs] (fun a => a == BURN_STS || a == SEQ_STS) s (setBurnBusy s b) :=
  Only.setFlag (Only.setFlag (Only.refl _ _ s))

theorem setBurnBusy_flag (s : State) (b : Bool) : flag (setBurnBusy s b) BURN_STS 1 = b :=
  (flag_congr (rd_setFlag_other _ _ (by decide)) _).trans (flag_setFlag_same _ _ _ (by decide))

theorem bLen_congr (h : rd t BURN_WIN1 = rd s BURN_WIN1) : bLen t = bLen s := by rw [bLen, bLen, bW, bH, bW, bH, fld_congr h, fld_congr h]

/-! ### The update of a cell -/

/-- Parts that the update of the map changes of itself. -/
abbrev cellParts : List Part := [.regs, .evr, .freeCtr, .burnBad, .dram]

theorem cellEvent_only (s : State) (a b : Nat) : Only cellParts evrReg s (cellEvent s a b) := (event_only _ _ _ _).mono (by decide) (fun _ h => h)

theorem writeCell_only (s : State) (a b : Nat) (c : BurnCell) : Only cellParts evrReg s (writeCell s a b c) :=
  Only.of_same (Same.trans (ps := [.burnBad, .dram]) ((burnBad_changed (fun s => s.burnBad.filter (fun e => e.2 != b * bW s + a))).mono (by decide))
    ((putDram_same _ _ _).mono (by decide)))

theorem event_cell (s : State) (source code : Nat) (bs : List Byte) : Only cellParts evrReg s (event s source code bs) :=
  (event_only _ _ _ _).mono (by decide) (fun _ h => h)

theorem updateOne_only (layer : Nat) (clear : Bool) (st : State × BurnCounts) (ab : Nat × Nat) :
    Only cellParts evrReg st.1 (updateOne layer clear st ab).1 := by
  obtain ⟨s, n⟩ := st
  obtain ⟨a, b⟩ := ab
  unfold updateOne
  dsimp only
  have hread : Only cellParts evrReg s (if (readCell s a b).2 then cellEvent s a b else s) := Only.ite (cellEvent_only _ _ _) (Only.refl _ _ _)
  generalize (if (readCell s a b).2 then cellEvent s a b else s) = u at hread
  split
  · exact hread.trans (writeCell_only _ _ _ _)
  · split
    · refine hread.trans (Only.trans ?_ (writeCell_only _ _ _ _))
      exact Only.ite (event_cell _ _ _ _) (Only.refl _ _ _)
    · split
      · exact hread.trans (writeCell_only _ _ _ _)
      · exact hread.trans (writeCell_only _ _ _ _)

theorem updates_only (layer : Nat) (clear : Bool) (l : List (Nat × Nat)) (st : State × BurnCounts) :
    Only cellParts evrReg st.1 (l.foldl (updateOne layer clear) st).1 :=
  foldl_inv (fun x => Only cellParts evrReg st.1 x.1) _ l (fun x ab _ hx => hx.trans (updateOne_only layer clear x ab)) st (Only.refl _ _ _)

/-- The settings of the map are the same after a cell's update. -/
theorem ownWin_congr (h : Only cellParts evrReg s t) : ownWin t = ownWin s := by
  have hrd : ∀ a, evrReg a = false → rd t a = rd s a := h.regs
  rw [ownWin, ownWin, burnOn, burnOn, bCell, bCell, bGridW, bGridW, bGridH, bGridH, bX0, bX0, bY0, bY0, bW, bW, bH, bH]
  rw [flag_congr (hrd BURN_CFG (by decide)), rdI_congr (hrd BURN_ORIGIN_X (by decide)), rdI_congr (hrd BURN_ORIGIN_Y (by decide)), fld_congr (hrd BURN_CELL (by decide)),
    fld_congr (hrd BURN_GRID (by decide)), fld_congr (hrd BURN_GRID (by decide)), fld_congr (hrd BURN_WIN0 (by decide)), fld_congr (hrd BURN_WIN0 (by decide)),
    fld_congr (hrd BURN_WIN1 (by decide)), fld_congr (hrd BURN_WIN1 (by decide))]

theorem sharers_congr (h : Only cellParts evrReg s t) : sharers t = sharers s := by rw [sharers, sharers, ownWin_congr h, h.same.burn]

theorem borderWhole_congr (h : t.burn = s.burn) (p : Nat) : borderWhole t p = borderWhole s p := by rw [borderWhole, borderWhole, h]

/-- BURN_MAP_SAVE into host memory (R375). -/
def mapSaved (h : Issue) (addr : Nat) (s : State) : State :=
  let cells := dramBytes s (bBase s) (bLen s)
  let t := hostOp s (.write addr (mapHeader s ++ leBytes 4 (crc32c (mapHeader s ++ cells)) ++ cells))
  complete t h 0x0603 .ok (64 + bLen t) 0 0 0

theorem mapSaved_eq (h : Issue) (addr : Nat) (s : State) :
    let cells := dramBytes s (bBase s) (bLen s)
    mapSaved h addr s = complete (hostOp s (.write addr (mapHeader s ++ leBytes 4 (crc32c (mapHeader s ++ cells)) ++ cells))) h 0x0603 .ok (64 + bLen s) 0 0 0 := by
  intro cells
  have hlen : ∀ o, bLen (hostOp s o) = bLen s := fun o => bLen_congr (hostOp_regs s o _ (by decide))
  unfold mapSaved
  dsimp only
  rw [hlen]

end

theorem burnCommands : Claim.BurnCommands := by
  intro s h hs a
  refine ⟨fun flags gain weight nMin ox oy cell gw gh x0 y0 w wh hflags hgain hweight hn1 hn2 hc1 hc2 hgw1 hgw2 hgh1 hgh2 hx hy hw1 hw2 hwh1 hwh2 hp => ?config,
    fun content hcontent hstate hbusy hp => ?load, fun addr halign hring hstate hbusy hok hp => ?save, fun op hop hp => ?here, fun op hop hp => ?group⟩
  case config =>
    have hst := staged_same a 8 (burnFields flags gain weight nMin ox oy cell gw gh x0 y0 w wh)
    refine ⟨staged a 8 (burnFields flags gain weight nMin ox oy cell gw gh x0 y0 w wh), ?_, ?_, ?_, ?_, ?_, ?_, ?_, staged_dirty _ _ (List.cons_ne_nil _ _),
      hst.regs, same_memory hst⟩
    · show execBurnConfig h flags gain weight nMin ox oy cell gw gh x0 y0 w wh s = _
      rw [execBurnConfig]
      simp only
      rw [starts_body hs hp (by simp only [List.mem_cons, List.not_mem_nil, or_false, forall_eq, Bool.and_eq_true, decide_eq_true_eq]; omega)]
      rfl
    · rw [staged_field _ _ 0 (by decide) (by decide) rfl (by simp [burnFields, apartFrom, BURN_CFG, BURN_NMIN, BURN_ORIGIN_X, BURN_ORIGIN_Y, BURN_CELL, BURN_GRID, BURN_WIN0, BURN_WIN1])]
      exact b2n_mod _
    · rw [staged_field _ _ 1 (by decide) (by decide) rfl (by simp [burnFields, apartFrom, BURN_CFG, BURN_NMIN, BURN_ORIGIN_X, BURN_ORIGIN_Y, BURN_CELL, BURN_GRID, BURN_WIN0, BURN_WIN1])]
      exact b2n_mod _
    · rw [staged_field _ _ 3 (by decide) (by decide) rfl (by simp [burnFields, apartFrom, BURN_CFG, BURN_NMIN, BURN_ORIGIN_X, BURN_ORIGIN_Y, BURN_CELL, BURN_GRID, BURN_WIN0, BURN_WIN1])]
      exact Nat.mod_eq_of_lt (by omega)
    · rw [staged_field _ _ 7 (by decide) (by decide) rfl (by simp [burnFields, apartFrom, BURN_CELL, BURN_GRID, BURN_WIN0, BURN_WIN1])]
      exact Nat.mod_eq_of_lt (by omega)
    · rw [staged_field _ _ 13 (by decide) (by decide) rfl (by simp [burnFields])]
      exact Nat.mod_eq_of_lt (by omega)
    · rw [staged_field _ _ 12 (by decide) (by decide) rfl (by simp [burnFields, apartFrom])]
      exact Nat.mod_eq_of_lt (by omega)
  case load =>
    have hstate' : burnCmdState (accept s h) = true := hstate
    have hbusy' : burnBusy (accept s h) = false := hbusy
    show execBurnMapLoad h 1 content 0 s = _
    rw [execBurnMapLoad, starts_body hs hp (by simp [hcontent, hstate', hbusy'])]
    rfl
  case save =>
    intro cells
    have hstate' : burnCmdState (accept s h) = true := hstate
    have hbusy' : burnBusy (accept s h) = false := hbusy
    show execBurnMapSave h 0 addr s = _
    rw [execBurnMapSave]
    simp only
    rw [starts_body hs hp (by simp [halign, hring, hstate', hbusy'])]
    rw [show dramOk (accept s h) (bBase (accept s h)) (bLen (accept s h)) = true from hok]
    exact congrArg (fun t => Host.Outcome.next (holding s t)) (mapSaved_eq h addr a)
  case here =>
    show execBurnFreeze h op 0 s = _
    rw [execBurnFreeze, starts_body hs hp (by simp [hop])]
    rfl
  case group =>
    intro f gone b
    show execBurnFreeze h op 1 s = _
    rw [execBurnFreeze, starts_body hs hp (by simp [hop])]
    rfl

section
variable {s : State}

/-- The end of an update (R370): what is left of the layer that has ended. -/
def updateEnded (layer : Nat) (aborted : Bool) (st : State × BurnCounts) : State :=
  let (s, n) := st
  let old := s.burn.inbox.filter (fun i => i.layer != layer)
  let whole := s.burn.whole.filter (fun w => w.2 != layer)
  let s := { s with burn := { s.burn with ended := none, inner := none, inbox := old, whole := whole, missing := [] } }
  let s := setBurnBusy s s.burn.fill
  if aborted then s
  else
    let s := wrN (wrN (wrN s BURN_LAST_LAYER layer) BURN_UPDATED n.updated) BURN_HELD n.held
    let s := wrN (wrN s BURN_CLAMPED n.clamped) BURN_BORDER_SKIPPED n.skipped
    event s (srcMaster 0x11) 0x1503 (leBytes 4 layer ++ leBytes 4 n.updated ++ leBytes 4 n.held ++ leBytes 4 n.clamped ++
      leBytes 4 n.skipped)

/-- The cells that nobody shares, unless an earlier try has updated them. -/
def innerDone (s : State) (layer : Nat) (aborted : Bool) : State × BurnCounts :=
  match s.burn.inner with
  | some (u, h, c, k) => (s, (⟨u, h, c, k⟩ : BurnCounts))
  | none => (cellsShared s false).foldl (updateOne layer aborted) (s, ⟨0, 0, 0, 0⟩)

theorem innerDone_only (s : State) (layer : Nat) (aborted : Bool) : Only cellParts evrReg s (innerDone s layer aborted).1 := by
  unfold innerDone
  split
  · exact Only.refl _ _ _
  · exact updates_only layer aborted (cellsShared s false) (s, ⟨0, 0, 0, 0⟩)

theorem exec_burnUpdate (hclk : Clocked s) {layer : Nat} {aborted : Bool} (hended : s.burn.ended = some (layer, aborted)) :
    exec .burnUpdate s = .next (holding s (
      let b := innerDone s layer aborted
      if !aborted && (sharers b.1).any (fun p => !borderWhole b.1 p && !b.1.burn.missing.contains p) then
        { b.1 with burn := { b.1.burn with inner := some (b.2.updated, b.2.held, b.2.clamped, b.2.skipped) } }
      else updateEnded layer aborted ((cellsShared b.1 true).foldl (updateOne layer aborted) b))) := by
  show execBurnUpdate s = _
  rw [execBurnUpdate, whileClocked_running _ hclk, hended]
  rfl

/-- A sharer whose data is neither whole nor given up holds the update up. -/
def borderAwaited (s : State) : Bool := (sharers s).any (fun p => !borderWhole s p && !s.burn.missing.contains p)

theorem borderAwaited_congr {t : State} (h : Only cellParts evrReg s t) :
    (sharers t).any (fun p => !borderWhole t p && !t.burn.missing.contains p) = borderAwaited s := by
  have hburn := h.same.burn
  simp only [borderAwaited, sharers_congr h, borderWhole_congr hburn, hburn]

theorem borderAwaited_iff : borderAwaited s = true ↔ ∃ p ∈ sharers s, borderWhole s p = false ∧ s.burn.missing.contains p = false := by
  simp [borderAwaited]

/-- What the end of an update leaves (R370). -/
theorem updateEnded_effect (layer : Nat) (aborted : Bool) (st : State × BurnCounts) :
    let u := updateEnded layer aborted st
    u.burn = { st.1.burn with ended := none, inner := none, inbox := st.1.burn.inbox.filter (fun i => i.layer != layer),
                              whole := st.1.burn.whole.filter (fun w => w.2 != layer), missing := [] } ∧
      flag u BURN_STS 1 = st.1.burn.fill ∧ (aborted = false → rd u BURN_LAST_LAYER = BitVec.ofNat 32 layer) ∧ Same [.regs, .evr, .freeCtr, .burn] st.1 u := by
  obtain ⟨s, n⟩ := st
  intro u
  let b := { s with burn := { s.burn with ended := none, inner := none, inbox := s.burn.inbox.filter (fun i => i.layer != layer),
                                          whole := s.burn.whole.filter (fun w => w.2 != layer), missing := [] } }
  have hbusy := setBurnBusy_only b s.burn.fill
  have hb : Same [.regs, .evr, .freeCtr, .burn] s b := (burn_changed (s := s) (fun s => _)).mono (by decide)
  cases aborted with
  | true =>
    have hu : u = setBurnBusy b s.burn.fill := rfl
    rw [hu]
    exact ⟨hbusy.same.burn, setBurnBusy_flag _ _, fun h => absurd h (by decide), hb.trans (hbusy.same.mono (by decide))⟩
  | false =>
    let c := wrN (wrN (wrN (wrN (wrN (setBurnBusy b s.burn.fill) BURN_LAST_LAYER layer) BURN_UPDATED n.updated) BURN_HELD n.held) BURN_CLAMPED n.clamped)
      BURN_BORDER_SKIPPED n.skipped
    have hevent := event_only c (srcMaster 0x11) 0x1503 (leBytes 4 layer ++ leBytes 4 n.updated ++ leBytes 4 n.held ++ leBytes 4 n.clamped ++ leBytes 4 n.skipped)
    have hcounts : Same [.regs, .evr, .freeCtr, .burn] (setBurnBusy b s.burn.fill) c :=
      (Only.wrN (Only.wrN (Only.wrN (Only.wrN (Only.wrN (Only.refl [.regs] (fun _ => true) _) rfl) rfl) rfl) rfl) rfl).same.mono (by decide)
    have hu : u = event c (srcMaster 0x11) 0x1503 (leBytes 4 layer ++ leBytes 4 n.updated ++ leBytes 4 n.held ++ leBytes 4 n.clamped ++ leBytes 4 n.skipped) := rfl
    rw [hu]
    refine ⟨hevent.same.burn, ?_, fun _ => ?_, (hb.trans (hbusy.same.mono (by decide))).trans (hcounts.trans (hevent.same.mono (by decide)))⟩
    · rw [flag_congr (hevent.regs _ (by decide)), flag_congr (rd_wrN_other _ (by decide)), flag_congr (rd_wrN_other _ (by decide)),
        flag_congr (rd_wrN_other _ (by decide)), flag_congr (rd_wrN_other _ (by decide)), flag_congr (rd_wrN_other _ (by decide))]
      exact setBurnBusy_flag _ _
    · rw [hevent.regs _ (by decide), rd_wrN_other _ (by decide), rd_wrN_other _ (by decide), rd_wrN_other _ (by decide), rd_wrN_other _ (by decide)]
      exact rd_wr_same _ _

end

theorem burnWork : Claim.BurnWork := by
  intro s hclk
  refine ⟨fun hfill => ?fill, fun via src layer last cells hup => ?border, fun peer hended hdue hwhole hshares => ?timeout,
    fun layer aborted hended hall => ?update, fun layer hended hawaited => ?awaits⟩
  case fill =>
    let b := { s with burn := { s.burn with fill := false } }
    have hb : Same [.burn] s b := burn_changed (fun s => { s.burn with fill := false })
    have hwindow := fillWindow_same b
    have hended : (fillWindow b).burn.ended = s.burn.ended := by rw [hwindow.burn]
    have hbusy := setBurnBusy_only (fillWindow b) (fillWindow b).burn.ended.isSome
    refine ⟨setFlag (setBurnBusy (fillWindow b) (fillWindow b).burn.ended.isSome) BURN_STS 0 true, ?_, ?_, flag_setFlag_same _ _ _ (by decide), ?_, rfl, rfl, rfl⟩
    · show execBurnFill s = _
      rw [execBurnFill, whileClocked_running _ hclk, if_pos hfill]
    · rfl
    · rw [flag_setFlag_apart _ _ _ _ _ (by decide), setBurnBusy_flag, hended]
  case border =>
    let b := frameIn s via src tyBurnBorder ([layer, cells.length, b2n last] ++ cells.flatMap (fun c => [c.x, c.y, c.factor, c.state]))
    have hin : Same [.regs, .fab] s b := frameIn_same _ _ _ _ _
    refine ⟨{ b with burn := { b.burn with inbox := b.burn.inbox ++ cells.map (fun c =>
      (⟨src, layer, c.x, c.y, c.factor, ⟨c.pdSum, c.pdCount, c.camSum, c.camCount⟩, c.state⟩ : BurnIn)), whole := if last then (src, layer) :: b.burn.whole else b.burn.whole } },
      ?_, ?_, ?_, ?_, ?_⟩
    · show execBurnBorder via src layer last cells s = _
      rw [execBurnBorder, whileClocked_running _ hclk, delivered_up hup]
    · exact congrArg (fun x => x.inbox ++ _) hin.burn
    · exact congrArg (fun (x : Burn) => if last then (src, layer) :: x.whole else x.whole) hin.burn
    · exact ⟨hin.sram, hin.dram, hin.host, hin.sramLost, hin.dramLost⟩
    · exact hin.lanes
  case timeout =>
    show execBurnBorderTimeout peer s = _
    have hsome : s.burn.ended.isSome = true := Option.isSome_iff_ne_none.mpr hended
    rw [execBurnBorderTimeout, whileClocked_running _ hclk]
    exact congrArg (fun t => Host.Outcome.next (holding s t)) (if_pos (by rw [hsome, hdue, hwhole, hshares]; rfl))
  case update =>
    have hinner := innerDone_only s layer aborted
    have hnone : (!aborted && borderAwaited s) = false := by
      cases aborted with
      | true => rfl
      | false =>
        rw [Bool.not_false, Bool.true_and, Bool.eq_false_iff]
        intro hawaited
        obtain ⟨p, hp, hwhole, hmissing⟩ := borderAwaited_iff.mp hawaited
        rcases hall rfl p hp with h | h
        · exact absurd (hwhole.symm.trans h) (by decide)
        · exact absurd (hmissing.symm.trans h) (by decide)
    have hcells := hinner.trans (updates_only layer aborted (cellsShared (innerDone s layer aborted).1 true) (innerDone s layer aborted))
    obtain ⟨hburn, hflag, hlast, hsame⟩ := updateEnded_effect layer aborted ((cellsShared (innerDone s layer aborted).1 true).foldl (updateOne layer aborted) (innerDone s layer aborted))
    have hexec := exec_burnUpdate hclk hended
    dsimp only at hexec
    rw [borderAwaited_congr hinner, hnone, if_neg (by decide)] at hexec
    have hall' := (hcells.same.mono (qs := .burn :: cellParts) (by decide)).trans (hsame.mono (by decide))
    rw [hcells.same.burn] at hburn hflag
    refine ⟨_, hexec, ?_, ?_, ?_, ?_, ?_, hflag, hlast, hall'.sram, hall'.host, hall'.lanes, hall'.seq⟩
    all_goals rw [hburn]
  case awaits =>
    have hinner := innerDone_only s layer false
    have hexec := exec_burnUpdate hclk hended
    dsimp only at hexec
    rw [borderAwaited_congr hinner, borderAwaited_iff.mpr hawaited, if_pos (by decide)] at hexec
    have hburn := hinner.same.burn
    exact ⟨_, hexec, (congrArg Burn.ended hburn :), (congrArg Burn.inbox hburn :), rfl, hinner.same.sram, hinner.same.host, hinner.same.lanes, hinner.same.seq⟩

/-- Settles O46: the burn map's commands and its work after a layer. -/
theorem burnMap : Obligations.BurnMap := ⟨burnCommands, burnWork⟩

end Sys2Proof.Proofs

/-! PROOFS. Overlap, handoff tokens and the overlap settings (R271 to R294). -/

namespace Sys2Proof.Proofs

-- One theorem after the other: elaborated at once, their threads outgrow the memory that a check may take.
set_option Elab.async false

open Sys2Proof.Machine Sys2Proof.Laws

section
variable {s t : State}

theorem ownTr_shape (s : State) (n : Nat) (w : Work) : ∃ d, ownTr s n w = { w with tr := d } := by
  unfold ownTr
  split
  · exact ⟨_, rfl⟩
  · exact ⟨_, rfl⟩

theorem ovl_changed (f : State → Ovl) : Same [.ovl] s { s with ovl := f s } := fun q hq => by
  cases q <;> first | rfl | exact absurd (by decide) hq

theorem now_frameIn (s : State) (via src ty : Nat) (body : List Nat) : now (frameIn s via src ty body) = now s :=
  now_congr (frameIn_regs _ _ _ _ _ _ (by decide)) (frameIn_regs _ _ _ _ _ _ (by decide))

theorem frameIn_lane (s : State) (via src ty : Nat) (body : List Nat) (n : Nat) : lane (frameIn s via src ty body) n = lane s n :=
  lane_congr (frameIn_same s via src ty body).lanes n

theorem frameIn_withdrawn (s : State) (via src ty : Nat) (body : List Nat) : withdrawn (frameIn s via src ty body) = withdrawn s :=
  flag_congr (frameIn_regs _ _ _ _ _ _ (by decide)) _

theorem takesClaims_congr {n : Nat} (hlane : lane t n = lane s n) (hst : layerSt t = layerSt s) : takesClaims t n = takesClaims s n := by
  rw [takesClaims, takesClaims, hlane, hst]

/-! ### A GRANT and its work -/

/-- The work that a GRANT brings (R276). -/
def grantWork (s : State) (src zone seg lane_ notBefore lo hi split rec_ : Nat) : Work :=
  let b := recBytes32 rec_
  let r := recOf b
  let len := VRec.len r
  let side := if seg ≠ 3 then seg else if lo ≠ 0 then 2 else if hi < len then 1 else 0
  let ov := if seg = 1 then 2 * (hi - split) else if seg = 2 then 2 * (split - lo) else stitchOv s zone
  let d : Int := if seg ≠ 3 then split else if side = 2 then lo + ov / 2 else if side = 1 then (hi : Int) - ov / 2 else 0
  ownTr s (lane_ % 24) ⟨r, lo, hi, d, side, 3, src, zone, if seg = 3 then some (split : Int) else none, notBefore, 0, 0, ov⟩

/-- The CLAIM of a lane waits for this GRANT. -/
def grantAwaited (s : State) (src n req : Nat) : Bool :=
  match (lane s n).claimOut with
  | some (o, _, t) => o == src && t == req
  | none => false

/-- A GRANT taken in. -/
def tokenTaken (s : State) (src zone seg lane_ req notBefore lo hi split rec_ : Nat) : State :=
  let n := lane_ % 24
  let w := grantWork s src zone seg lane_ notBefore lo hi split rec_
  let waits := grantAwaited s src n req
  let s := if waits then updLane s n (fun l => { l with claimOut := none }) else s
  if !waits || !recCrcOk (recBytes32 rec_) || withdrawn s || !takesClaims s n then returnUnstarted s w lane_
  else satInc (updLane s n (fun l => { l with claimed := l.claimed ++ [w] })) OVL_TAKEN_REMOTE

theorem exec_grantToken {via src : Nat} (hclk : Clocked s) (hup : portUp s via = true) (zone seg lane_ req notBefore lo hi split rec_ : Nat) :
    exec (.grantToken via src zone seg lane_ req notBefore lo hi split rec_) s =
      .next (holding s (tokenTaken (frameIn s via src tyGrant [zone, seg, lane_, req, notBefore, lo, hi, split, rec_]) src zone seg lane_ req notBefore lo hi split rec_)) := by
  show execGrantToken via src zone seg lane_ req notBefore lo hi split rec_ s = _
  rw [execGrantToken, whileClocked_running _ hclk, delivered_up hup]
  rfl

theorem tokenTaken_late {src zone seg lane_ req notBefore lo hi split rec_ : Nat} (h : (lane s (lane_ % 24)).claimOut = none) :
    tokenTaken s src zone seg lane_ req notBefore lo hi split rec_ = returnUnstarted s (grantWork s src zone seg lane_ notBefore lo hi split rec_) lane_ := by
  have hno : grantAwaited s src (lane_ % 24) req = false := by rw [grantAwaited, h]
  unfold tokenTaken
  dsimp only
  rw [hno]
  rfl

theorem tokenTaken_waiting {src zone seg lane_ req notBefore lo hi split rec_ z : Nat} (h : (lane s (lane_ % 24)).claimOut = some (src, z, req))
    (hcrc : recCrcOk (recBytes32 rec_) = true) (hin : withdrawn s = false) (htakes : takesClaims s (lane_ % 24) = true) :
    tokenTaken s src zone seg lane_ req notBefore lo hi split rec_ =
      satInc (updLane (updLane s (lane_ % 24) (fun l => { l with claimOut := none })) (lane_ % 24)
        (fun l => { l with claimed := l.claimed ++ [grantWork s src zone seg lane_ notBefore lo hi split rec_] })) OVL_TAKEN_REMOTE := by
  have hyes : grantAwaited s src (lane_ % 24) req = true := by simp [grantAwaited, h]
  have hphase : takesClaims (updLane s (lane_ % 24) (fun l => { l with claimOut := none })) (lane_ % 24) = true := by
    rw [takesClaims, lane_updLane_same]
    exact htakes
  have hwith : withdrawn (updLane s (lane_ % 24) (fun l => { l with claimOut := none })) = false := hin
  unfold tokenTaken
  dsimp only
  rw [hyes, if_pos rfl, hphase, hwith, hcrc]
  rfl

/-- A GRANT that came in time gives its lane the work. -/
theorem tokenTaken_effect {src zone seg lane_ req notBefore lo hi split rec_ z : Nat} (h : (lane s (lane_ % 24)).claimOut = some (src, z, req))
    (hcrc : recCrcOk (recBytes32 rec_) = true) (hin : withdrawn s = false) (htakes : takesClaims s (lane_ % 24) = true) :
    let u := tokenTaken s src zone seg lane_ req notBefore lo hi split rec_
    (lane u (lane_ % 24)).claimOut = none ∧
      (∃ w, (lane u (lane_ % 24)).claimed = (lane s (lane_ % 24)).claimed ++ [w] ∧ w.rcd = recOf (recBytes32 rec_) ∧ w.lo = (lo : Int) ∧
        w.hi = (hi : Int) ∧ w.src = 3 ∧ w.home = src ∧ w.zone = zone ∧ w.notBefore = notBefore) ∧
      (∀ j, j ≠ lane_ % 24 → lane u j = lane s j) ∧ Same [.lanes, .regs] s u := by
  intro u
  let b := updLane s (lane_ % 24) (fun l => { l with claimOut := none })
  let w := grantWork s src zone seg lane_ notBefore lo hi split rec_
  let c := updLane b (lane_ % 24) (fun l => { l with claimed := l.claimed ++ [w] })
  have hu : u = satInc c OVL_TAKEN_REMOTE := tokenTaken_waiting h hcrc hin htakes
  have hcount := satInc_same c OVL_TAKEN_REMOTE
  have hsame : Same [.lanes, .regs] s u := by
    rw [hu]
    exact Same.trans (ps := [.lanes, .regs]) ((updLane_same s _ _).mono (by decide)) (((updLane_same b _ _).mono (by decide)).trans (hcount.mono (by decide)))
  have hlane : lane u (lane_ % 24) = { lane s (lane_ % 24) with claimOut := none, claimed := (lane s (lane_ % 24)).claimed ++ [w] } := by
    rw [hu, lane_congr hcount.lanes, show lane c (lane_ % 24) = _ from lane_updLane_same _ _ _, show lane b (lane_ % 24) = _ from lane_updLane_same _ _ _]
  refine ⟨by rw [hlane], ⟨w, by rw [hlane], ?_⟩, fun j hj => ?_, hsame⟩
  · obtain ⟨d, hd⟩ := ownTr_shape s (lane_ % 24) _
    rw [show w = _ from hd]
    exact ⟨rfl, rfl, rfl, rfl, rfl, rfl, rfl⟩
  · rw [hu, lane_congr hcount.lanes]
    exact (lane_updLane_other _ _ hj).trans (lane_updLane_other _ _ hj)

/-! ### Entries that come back -/

/-- A RETURN reopens what its lane holds (R278). -/
def reopened (s : State) (lane_ vid seg resumeAt : Nat) (e : PoolEntry) : PoolEntry :=
  if heldBy lane_ vid seg e then
    { e with state := .opened, holder := 0, grantable := true
             work := if resumeAt = 0 then e.work else ownTr s e.home { e.work with resume := some (resumeAt : Int) } }
  else e

theorem heldBy_reopened (s : State) (lane_ vid seg resumeAt : Nat) (e : PoolEntry) : heldBy lane_ vid seg (reopened s lane_ vid seg resumeAt e) = false := by
  unfold reopened
  by_cases h : heldBy lane_ vid seg e = true
  · rw [if_pos h]
    rfl
  · rw [if_neg h]
    exact Bool.eq_false_iff.mpr h

/-- The pool after a RETURN. -/
def poolReopened (s : State) (lane_ vid seg resumeAt : Nat) : State :=
  poolShow (satInc { s with ovl := { s.ovl with pool := s.ovl.pool.map (reopened s lane_ vid seg resumeAt) } } OVL_RETURNS)

theorem poolReopened_effect (s : State) (lane_ vid seg resumeAt : Nat) :
    (poolReopened s lane_ vid seg resumeAt).ovl.pool = s.ovl.pool.map (reopened s lane_ vid seg resumeAt) ∧ Same [.regs, .ovl] s (poolReopened s lane_ vid seg resumeAt) := by
  let b := { s with ovl := { s.ovl with pool := s.ovl.pool.map (reopened s lane_ vid seg resumeAt) } }
  have hb : Same [.ovl] s b := ovl_changed (fun s => { s.ovl with pool := s.ovl.pool.map (reopened s lane_ vid seg resumeAt) })
  have hshow : Same [.regs] b (poolReopened s lane_ vid seg resumeAt) := (satInc_same b OVL_RETURNS).trans (poolShow_same _)
  exact ⟨(congrArg Ovl.pool hshow.ovl :), (hb.mono (by decide)).trans (hshow.mono (by decide))⟩

theorem staleShow_same (s : State) (m : Nat) : Same [.regs, .ovl] s (staleShow s m) :=
  Same.trans (ps := [.regs, .ovl]) ((ovl_changed (fun s => { s.ovl with stale := m })).mono (by decide)) ((setFlag_same _ _ _ _).mono (by decide))

theorem same_via {ps : List Part} {b : State} (hin : Same [.regs, .fab] s b) (h : Same ps b t)
    (hps : ∀ q ∈ [Part.sram, .dram, .host, .sramLost, .dramLost], q ∉ ps := by decide) : SameMemory s t := by
  obtain ⟨hsram, hdram, hhost, hslost, hdlost⟩ := same_memory h hps
  exact ⟨hsram.trans hin.sram, hdram.trans hin.dram, hhost.trans hin.host, hslost.trans hin.sramLost, hdlost.trans hin.dramLost⟩

end

theorem exec_claimTimeout {s : State} {n : Nat} (hclk : Clocked s) (hold : (lane s n).claimOut.any (fun c => reached s (c.2.2 + 20000)) = true) :
    exec (.claimTimeout n) s = .next (holding s (satInc (updLane s n (fun l => { l with claimOut := none })) OVL_CLAIM_TIMEOUTS)) := by
  show execClaimTimeout n s = _
  rw [execClaimTimeout, whileClocked_running _ hclk, if_pos hold]

theorem exec_peerStale {s : State} {peer : Nat} (hclk : Clocked s) (hsome : (mget [] s.ovl.border peer).isEmpty = false) (hfresh : s.ovl.stale.testBit peer = false)
    (hdue : reached s (mget 0 s.ovl.heard peer + 20000) = true) :
    exec (.peerStale peer) s = .next (holding s (event (staleShow s (natSet s.ovl.stale peer)) srcDevice 0x1304 (leBytes 1 peer))) := by
  show execPeerStale peer s = _
  rw [execPeerStale, whileClocked_running _ hclk]
  exact congrArg (fun t => Host.Outcome.next (holding s t)) (if_neg (by rw [hsome, hfresh, hdue]; decide))

theorem handoffTokens : Claim.HandoffTokens := by
  intro s via src hclk hup
  refine ⟨fun flags entries => ?estimate, fun zone lane_ e q req => ?claim, fun zone seg lane_ req notBefore lo hi split rec_ hcrc hin htakes hwaits => ?grant,
    fun zone seg lane_ req notBefore lo hi split rec_ hnone => ?late, fun zone lane_ req z hwaits => ?deny, fun n hold => ?timeout, fun n hyoung => ?early,
    fun seg lane_ vid resumeAt hheld => ?return_, fun seg lane_ vid endTime e hheld => ?done_, fun recs => ?position, fun peer hsome hfresh hdue => ?stale⟩
  case estimate =>
    let b := frameIn s via src tyEstimate ([flags, entries.length / 4] ++ entries)
    have hin : Same [.regs, .fab] s b := frameIn_same _ _ _ _ _
    have hnow : now b = now s := now_frameIn _ _ _ _ _
    let es := (estEntries entries).foldl (fun m e => mset m e.1 ⟨e.2.1, e.2.2.1, now b, e.2.2.2.testBit 0, e.2.2.2.testBit 1, flags.testBit 1⟩) b.ovl.ests
    let x := if flags.testBit 0 then natSet b.ovl.excess src else natClr b.ovl.excess src
    let c := { b with ovl := { b.ovl with ests := es, excess := x } }
    refine ⟨estShow c, ?_, fun e he => ?_, ?_, (congrArg Ovl.pool hin.ovl :), hin.lanes, hin.sram, hin.dram, hin.host, hin.sramLost, hin.dramLost⟩
    · show execEstimateToken via src flags entries s = _
      rw [execEstimateToken, whileClocked_running _ hclk, delivered_up hup]
    · show mget _ es e.1 = _
      simp only [es, he, List.foldl_cons, List.foldl_nil, mget_mset_same, hnow]
    · show x.testBit src = _
      simp only [x]
      cases flags.testBit 0 with
      | true => exact natSet_testBit_same _ _
      | false => exact natClr_testBit_same _ _
  case claim =>
    have hin := frameIn_same s via src tyClaim [zone, 0, lane_, e, q, req]
    let b := frameIn s via src tyClaim [zone, 0, lane_, e, q, req]
    refine ⟨{ b with ovl := { b.ovl with claims := b.ovl.claims ++ [⟨src, zone, lane_, e, q, req⟩] } }, ?_, congrArg (fun (x : Ovl) => x.claims ++ _) hin.ovl,
      hin.lanes, hin.sram, hin.dram, hin.host, hin.sramLost, hin.dramLost⟩
    show execClaimToken via src zone lane_ e q req s = _
    rw [execClaimToken, whileClocked_running _ hclk, delivered_up hup]
  case grant =>
    obtain ⟨z, hz⟩ := hwaits
    let body := [zone, seg, lane_, req, notBefore, lo, hi, split, rec_]
    have hlane : ∀ j, lane (frameIn s via src tyGrant body) j = lane s j := frameIn_lane s via src tyGrant body
    have htaken := tokenTaken_effect (zone := zone) (seg := seg) (notBefore := notBefore) (lo := lo) (hi := hi) (split := split)
      ((congrArg Lane.claimOut (hlane (lane_ % 24))).trans hz) hcrc
      ((frameIn_withdrawn _ _ _ _ _).trans hin) ((takesClaims_congr (hlane _) (frameIn_layerSt _ _ _ _ _)).trans htakes)
    obtain ⟨hout, ⟨w, hclaimed, hwork⟩, hothers, hsame⟩ := htaken
    rw [hlane] at hclaimed
    exact ⟨_, exec_grantToken hclk hup zone seg lane_ req notBefore lo hi split rec_, hout, ⟨w, hclaimed, hwork⟩, fun j hj => (hothers j hj).trans (hlane j),
      same_via (frameIn_same _ _ _ _ _) hsame⟩
  case late =>
    let b := frameIn s via src tyGrant [zone, seg, lane_, req, notBefore, lo, hi, split, rec_]
    have hin : Same [.regs, .fab] s b := frameIn_same _ _ _ _ _
    have hlate := tokenTaken_late (s := b) (src := src) (zone := zone) (seg := seg) (req := req) (notBefore := notBefore) (lo := lo) (hi := hi) (split := split) (rec_ := rec_)
      ((congrArg Lane.claimOut (frameIn_lane s via src tyGrant _ _)).trans hnone)
    have hback : Same [.regs, .fab] b (tokenTaken b src zone seg lane_ req notBefore lo hi split rec_) := by
      rw [hlate]
      exact sendMsg_same _ _ _ _
    have hall := hin.trans hback
    exact ⟨_, exec_grantToken hclk hup zone seg lane_ req notBefore lo hi split rec_, hall.lanes, hall.ovl, same_memory hall⟩
  case deny =>
    let b := frameIn s via src tyDeny [zone, 0, lane_, req]
    have hin : Same [.regs, .fab] s b := frameIn_same _ _ _ _ _
    have hlane : ∀ j, lane b j = lane s j := frameIn_lane s via src tyDeny _
    let f : Lane → Lane := fun l => match l.claimOut with
      | some (o, _, t) => if o = src && t = req then { l with claimOut := none } else l
      | none => l
    refine ⟨updLane b (lane_ % 24) f, ?_, ?_, ?_, fun j hj => (lane_updLane_other _ _ hj).trans (hlane j), same_via hin (updLane_same b _ _)⟩
    · show execDenyToken via src zone lane_ req s = _
      rw [execDenyToken, whileClocked_running _ hclk, delivered_up hup] <;> rfl
    · rw [lane_updLane_same, hlane]
      simp [f, hwaits]
    · exact hin.ovl
  case timeout => exact exec_claimTimeout hclk hold
  case early =>
    show execClaimTimeout n s = _
    rw [execClaimTimeout, whileClocked_running _ hclk, if_neg (by rw [hyoung]; decide)]
  case return_ =>
    let b := frameIn s via src tyReturn [seg, 0, lane_, vid, resumeAt]
    have hin : Same [.regs, .fab] s b := frameIn_same _ _ _ _ _
    obtain ⟨hpool, hsame⟩ := poolReopened_effect b lane_ vid seg resumeAt
    refine ⟨poolReopened b lane_ vid seg resumeAt, ?_, ?_, ?_, hsame.lanes.trans hin.lanes, same_via hin hsame⟩
    · show execReturnToken via src seg lane_ vid resumeAt s = _
      rw [execReturnToken, whileClocked_running _ hclk, delivered_up hup]
      exact congrArg (fun t => Host.Outcome.next (holding s t)) (if_pos (by rw [hin.ovl]; exact hheld))
    · rw [hpool, List.any_map, List.any_eq_false]
      intro e _
      rw [Function.comp_apply, heldBy_reopened]
      decide
    · rw [hpool, List.length_map, hin.ovl]
  case done_ =>
    let b := frameIn s via src tyDone [seg, 0, lane_, vid, endTime]
    have hin : Same [.regs, .fab] s b := frameIn_same _ _ _ _ _
    let c := count b e.home 12 1
    let d := { c with ovl := { c.ovl with pool := c.ovl.pool.filter (fun e => !heldBy lane_ vid seg e) } }
    have hcount : Same [.lanes] b c := count_same _ _ _ _
    have hshow : Same [.regs] d (dropEntry c (heldBy lane_ vid seg)) := poolShow_same d
    have hd : Same [.ovl] c d := ovl_changed (fun s => { s.ovl with pool := s.ovl.pool.filter (fun e => !heldBy lane_ vid seg e) })
    have hfound : b.ovl.pool.find? (heldBy lane_ vid seg) = some e := by rw [hin.ovl]; exact hheld
    have hpool : (dropEntry c (heldBy lane_ vid seg)).ovl.pool = c.ovl.pool.filter (fun e => !heldBy lane_ vid seg e) := congrArg Ovl.pool hshow.ovl
    have hsame : Same [.regs, .ovl, .lanes] b (dropEntry c (heldBy lane_ vid seg)) :=
      (hcount.mono (by decide)).trans ((hd.mono (by decide)).trans (hshow.mono (by decide)))
    refine ⟨dropEntry c (heldBy lane_ vid seg), ?_, ?_, same_via hin hsame⟩
    · show execDoneToken via src seg lane_ vid endTime s = _
      rw [execDoneToken, whileClocked_running _ hclk, delivered_up hup, hfound]
    · rw [hpool, hcount.ovl, hin.ovl]
  case position =>
    let b := frameIn s via src tyPosition (recs.map (unsgn 32))
    have hin : Same [.regs, .fab] s b := frameIn_same _ _ _ _ _
    let c := { b with ovl := { b.ovl with border := mset b.ovl.border src (posRecords recs), heard := mset b.ovl.heard src (now b) } }
    refine ⟨staleShow c (natClr b.ovl.stale src), ?_, ?_, natClr_testBit_same _ _, hin.lanes, hin.sram, hin.dram, hin.host, hin.sramLost, hin.dramLost⟩
    · show execPositionToken via src recs s = _
      rw [execPositionToken, whileClocked_running _ hclk, delivered_up hup]
    · exact congrArg (fun (x : Ovl) => mset x.border src (posRecords recs)) hin.ovl
  case stale => exact exec_peerStale hclk hsome hfresh hdue

/-! ### Settings -/

/-- OVERLAP_SET of OP 0: what it stages (R294). -/
def overlapFields (margin horizon lookahead estP markOvh jumpOvh : Nat) : List (Nat × Nat × Nat × Nat) :=
  [(OVL_CFG, 31, 16, margin), (OVL_CFG, 15, 0, horizon), (OVL_CFG2, 31, 16, lookahead), (OVL_CFG2, 7, 0, estP), (OVL_MARK_OVH, 31, 0, markOvh),
   (OVL_JUMP_OVH, 31, 0, jumpOvh)]

/-- OVERLAP_SET of OP 1: what it stages. -/
def zoneFields (zone en : Nat) (lx ly nx ny : Int) : List (Nat × Nat × Nat × Nat) :=
  [(ZONE_CFG zone, 31, 31, en), (ZONE_LINE_X zone, 31, 0, unsgn 32 lx), (ZONE_LINE_Y zone, 31, 0, unsgn 32 ly),
   (ZONE_NORMAL zone, 31, 16, unsgn 16 ny), (ZONE_NORMAL zone, 15, 0, unsgn 16 nx)]

/-- PLUME_SET: what it stages. -/
def plumeFields (enable depth : Nat) (fx fy : Int) (length half skip border : Nat) : List (Nat × Nat × Nat × Nat) :=
  [(PLM_CFG, 31, 31, enable), (PLM_CFG, 6, 0, depth), (PLM_FLOW, 31, 16, unsgn 16 fy), (PLM_FLOW, 15, 0, unsgn 16 fx), (PLM_LENGTH, 31, 0, length),
   (PLM_HALF_WIDTH, 31, 0, half), (PLM_SKIP_MASK, 23, 0, skip), (PLM_BORDER_MASK, 23, 0, border)]

theorem overlapCommands : Claim.OverlapCommands := by
  refine ⟨fun s hclk => ⟨fun lanes => ?send, ?old, fun hnone hdue => ?ended, fun hwaits => ?waits⟩, ?settings⟩
  case send =>
    let ls := bitList lanes 24
    let body := [b2n (s.ovl.excess.testBit (ownAddr s)) + 2 * b2n (layerSt s == stExposing), ls.length] ++ ls.flatMap (fun n =>
      [globalLane s n, estE s n, estQ s n, b2n (laneOpen s n) + 2 * b2n ((lane s n).phase == .halted)])
    have hsame := sendGroup_same s tyEstimate body
    refine ⟨sendGroup s tyEstimate body, ?_, hsame.lanes, hsame.ovl, same_memory hsame⟩
    show execEstimateSend lanes s = _
    rw [execEstimateSend, whileClocked_running _ hclk]
  case old =>
    show execEstStale s = _
    rw [execEstStale, whileClocked_running _ hclk]
  case ended =>
    refine ⟨setFlag s OVL_STS 0 false, ?_, flag_setFlag_same _ _ _ (by decide), fun a ha => rd_setFlag_other _ _ ha, rfl⟩
    show execWithdrawalEnd s = _
    rw [execWithdrawalEnd, whileClocked_running _ hclk, if_pos (by simp [hnone, hdue])]
  case waits =>
    show execWithdrawalEnd s = _
    rw [execWithdrawalEnd, whileClocked_running _ hclk, if_neg (by simp only [Bool.and_eq_true, decide_eq_true_eq]; omega)]
  case settings =>
    intro s h hs a
    refine ⟨fun margin horizon lookahead estP markOvh jumpOvh hmargin hhorizon hlook hest hp => ?overlap, fun zone en lx ly hzone hen hp => ?zone,
      fun enable depth length half skip border hen hd1 hd2 hskip hborder hp => ?plume, fun zone overlap amp hzone ho1 ho2 hamp hp => ?stitch⟩
    case overlap =>
      have hst := staged_same a 5 (overlapFields margin horizon lookahead estP markOvh jumpOvh)
      refine ⟨staged a 5 (overlapFields margin horizon lookahead estP markOvh jumpOvh), ?_, ?_, ?_, ?_, ?_, ?_, ?_, staged_dirty _ _ (List.cons_ne_nil _ _),
        hst.regs, same_memory hst⟩
      · show execOverlapSet h 0 margin horizon lookahead estP markOvh jumpOvh 0 0 0 0 0 0 0 0 [] s = _
        rw [execOverlapSet]
        simp only
        rw [starts_body hs hp (by simp)]
        rfl
      · rw [staged_field _ _ 0 (by decide) (by decide) rfl (by simp [overlapFields, apartFrom, OVL_CFG, OVL_CFG2, OVL_MARK_OVH, OVL_JUMP_OVH])]
        exact Nat.mod_eq_of_lt hmargin
      · rw [staged_field _ _ 1 (by decide) (by decide) rfl (by simp [overlapFields, apartFrom, OVL_CFG, OVL_CFG2, OVL_MARK_OVH, OVL_JUMP_OVH])]
        exact Nat.mod_eq_of_lt hhorizon
      · rw [staged_field _ _ 2 (by decide) (by decide) rfl (by simp [overlapFields, apartFrom, OVL_CFG2, OVL_MARK_OVH, OVL_JUMP_OVH])]
        exact Nat.mod_eq_of_lt hlook
      · rw [staged_field _ _ 3 (by decide) (by decide) rfl (by simp [overlapFields, apartFrom, OVL_CFG2, OVL_MARK_OVH, OVL_JUMP_OVH])]
        exact Nat.mod_eq_of_lt hest
      · exact word_of_bits (staged_field _ _ 4 (by decide) (by decide) rfl (by simp [overlapFields, apartFrom, OVL_MARK_OVH, OVL_JUMP_OVH]))
      · exact word_of_bits (staged_field _ _ 5 (by decide) (by decide) rfl (by simp [overlapFields]))
    case zone =>
      have hst := staged_same a 5 (zoneFields zone en lx ly 0 0)
      refine ⟨staged a 5 (zoneFields zone en lx ly 0 0), ?_, ?_, ?_, ?_, staged_dirty _ _ (List.cons_ne_nil _ _), hst.regs, same_memory hst⟩
      · show execOverlapSet h 1 0 0 0 0 0 0 zone en lx ly 0 0 0 0 [] s = _
        rw [execOverlapSet]
        simp only
        rw [starts_body hs hp (by simp [hzone, hen])]
        rfl
      · rw [staged_field _ _ 0 (by decide) (by decide) rfl (by simp [zoneFields, apartFrom, ZONE_CFG, ZONE_LINE_X, ZONE_LINE_Y, ZONE_NORMAL])]
        exact Nat.mod_eq_of_lt (by omega)
      · rw [← ofNat_unsgn]
        exact word_of_bits (staged_field _ _ 1 (by decide) (by decide) rfl (by simp [zoneFields, apartFrom, ZONE_LINE_X, ZONE_LINE_Y, ZONE_NORMAL]))
      · rw [← ofNat_unsgn]
        exact word_of_bits (staged_field _ _ 2 (by decide) (by decide) rfl (by simp [zoneFields, apartFrom, ZONE_LINE_Y, ZONE_NORMAL]))
    case plume =>
      have hst := staged_same a 5 (plumeFields enable depth 0 0 length half skip border)
      refine ⟨staged a 5 (plumeFields enable depth 0 0 length half skip border), ?_, ?_, ?_, ?_, ?_, ?_, ?_, staged_dirty _ _ (List.cons_ne_nil _ _), hst.regs, same_memory hst⟩
      · show execPlumeSet h enable depth 0 0 length half skip border s = _
        rw [execPlumeSet, starts_body hs hp (by simp [hen, hd1, hd2]; omega)]
        rfl
      · rw [staged_field _ _ 0 (by decide) (by decide) rfl (by simp [plumeFields, apartFrom, PLM_CFG, PLM_FLOW, PLM_LENGTH, PLM_HALF_WIDTH, PLM_SKIP_MASK, PLM_BORDER_MASK])]
        exact Nat.mod_eq_of_lt (by omega)
      · rw [staged_field _ _ 1 (by decide) (by decide) rfl (by simp [plumeFields, apartFrom, PLM_CFG, PLM_FLOW, PLM_LENGTH, PLM_HALF_WIDTH, PLM_SKIP_MASK, PLM_BORDER_MASK])]
        exact Nat.mod_eq_of_lt (by omega)
      · exact word_of_bits (staged_field _ _ 4 (by decide) (by decide) rfl (by simp [plumeFields, apartFrom, PLM_LENGTH, PLM_HALF_WIDTH, PLM_SKIP_MASK, PLM_BORDER_MASK]))
      · exact word_of_bits (staged_field _ _ 5 (by decide) (by decide) rfl (by simp [plumeFields, apartFrom, PLM_HALF_WIDTH, PLM_SKIP_MASK, PLM_BORDER_MASK]))
      · rw [staged_field _ _ 6 (by decide) (by decide) rfl (by simp [plumeFields, apartFrom, PLM_SKIP_MASK, PLM_BORDER_MASK])]
        exact Nat.mod_eq_of_lt (by omega)
      · rw [staged_field _ _ 7 (by decide) (by decide) rfl (by simp [plumeFields])]
        exact Nat.mod_eq_of_lt (by omega)
    case stitch =>
      have hst := staged_same a 5 [(ZONE_CFG zone, 7, 0, overlap), (ZONE_CFG zone, 25, 16, amp)]
      refine ⟨staged a 5 [(ZONE_CFG zone, 7, 0, overlap), (ZONE_CFG zone, 25, 16, amp)], ?_, ?_, ?_, staged_dirty _ _ (List.cons_ne_nil _ _), hst.regs, same_memory hst⟩
      · show execStitchSet h zone overlap amp s = _
        rw [execStitchSet, starts_body hs hp (by simp [hzone, ho1, ho2, hamp])]
        rfl
      · rw [staged_field _ _ 0 (by decide) (by decide) rfl (by simp [apartFrom])]
        exact Nat.mod_eq_of_lt (by omega)
      · rw [staged_field _ _ 1 (by decide) (by decide) rfl (by simp)]
        exact Nat.mod_eq_of_lt (by omega)

/-- Settles O49: the tokens of a peer after their arrival, and the device's own settings. -/
theorem overlap : Obligations.Overlap := ⟨handoffTokens, overlapCommands⟩

end Sys2Proof.Proofs

/-! PROOFS. Camera commands and frames (R312 to R330, R333). -/

namespace Sys2Proof.Proofs

-- One theorem after the other: elaborated at once, their threads outgrow the memory that a check may take.
set_option Elab.async false

open Sys2Proof.Machine Sys2Proof.Laws

section
variable {s t : State} {c : Nat}

/-! ### Contexts -/

theorem ctx_congr (h : t.cams = s.cams) (c : Nat) : ctx t c = ctx s c := congrArg (fun m => mget Ctx.reset m c) h

theorem ctx_updCtx_same (s : State) (c : Nat) (f : Ctx → Ctx) : ctx (updCtx s c f) c = f (ctx s c) := mget_mset_same _ _ _ _

theorem ctx_updCtx_other {j : Nat} (s : State) (f : Ctx → Ctx) (h : j ≠ c) : ctx (updCtx s c f) j = ctx s j := mget_mset_other _ _ _ _ _ h

theorem updCtx_same (s : State) (c : Nat) (f : Ctx → Ctx) : Same [.cams] s (updCtx s c f) := fun q hq => by
  cases q <;> first | rfl | exact absurd (by decide) hq

theorem openFrame_congr (h : ctx t c = ctx s c) : openFrame t c = openFrame s c := by rw [openFrame, openFrame, h]

theorem updLast_same (s : State) (c : Nat) (f : CamFrame → CamFrame) : Same [.cams] s (updLast s c f) := updCtx_same _ _ _

theorem truncate_same (s : State) (c cause : Nat) : Same [.regs, .cams] s (truncate s c cause) := by
  unfold truncate
  split
  · exact Same.trans (ps := [.regs, .cams]) ((satIncF_same _ _ _ _).mono (by decide)) (((updLast_same _ _ _).mono (by decide)).trans ((updCtx_same _ _ _).mono (by decide)))
  · exact Same.refl _ _

theorem truncate_none {cause : Nat} (h : openFrame s c = none) : truncate s c cause = s := by rw [truncate, h]

theorem truncate_other {j cause : Nat} (h : j ≠ c) : ctx (truncate s c cause) j = ctx s j := by
  unfold truncate
  split
  · rw [ctx_updCtx_other _ _ h, updLast, ctx_updCtx_other _ _ h, ctx_congr (satIncF_same _ _ _ _).cams]
  · rfl

/-- The frames of a context with its last one changed. -/
theorem ctx_updLast {f : CamFrame} (g : CamFrame → CamFrame) (h : (ctx s c).frames.getLast? = some f) :
    ctx (updLast s c g) c = { ctx s c with frames := (ctx s c).frames.dropLast ++ [g f] } := by
  obtain ⟨ys, hys⟩ := List.getLast?_eq_some_iff.mp h
  rw [updLast, ctx_updCtx_same, hys, List.reverse_append, List.dropLast_concat]
  simp

theorem openFrame_last {f : CamFrame} (h : openFrame s c = some f) : (ctx s c).frames.getLast? = some f ∧ frameOpen f = true := by
  unfold openFrame at h
  split at h
  · rename_i g hg
    by_cases hopen : frameOpen g = true
    · rw [if_pos hopen] at h
      obtain rfl := Option.some.inj h
      exact ⟨hg, hopen⟩
    · rw [if_neg hopen] at h
      cases h
  · cases h

theorem spend_frames (x : Ctx) : x.spend.frames = x.frames := by
  unfold Ctx.spend
  split <;> rfl

/-- A truncated frame is no longer in progress. -/
theorem truncate_closes {cause : Nat} (hcause : cause ≠ 0) : openFrame (truncate s c cause) c = none := by
  unfold truncate
  cases hopen : openFrame s c with
  | none => exact hopen
  | some f =>
    have hlast : (ctx (satIncF s (ISP_CTX_COUNTS c) 11 0) c).frames.getLast? = some f := by
      rw [ctx_congr (satIncF_same _ _ _ _).cams]
      exact (openFrame_last hopen).1
    dsimp only
    rw [openFrame, ctx_updCtx_same, spend_frames, ctx_updLast _ hlast]
    simp [frameOpen, hcause]

/-! ### Packets -/

theorem phyShow_same (s : State) (port phy : Nat) : Same [.regs] s (phyShow s port phy) := (setFld_same _ _ _ _ _).trans (setFlag_same _ _ _ _)

theorem phyShow_rd (s : State) {port a : Nat} (phy : Nat) (h : a ≠ CAM_STS port) : rd (phyShow s port phy) a = rd s a := by
  rw [phyShow, rd_setFlag_other _ _ h, rd_setFld_other _ _ _ h]

/-- The work of a packet sees the contexts and settings of the state before it. -/
structure SeesAs (s t : State) : Prop where
  cams : t.cams = s.cams
  isp : ∀ a, 0x190000 ≤ a → rd t a = rd s a

theorem phyShow_sees (s : State) {port : Nat} (phy : Nat) (h : port < 6) : SeesAs s (phyShow s port phy) :=
  ⟨(phyShow_same s port phy).cams, fun a ha => phyShow_rd s phy (by simp only [CAM_STS]; omega)⟩

theorem SeesAs.satInc {a : Nat} (h : SeesAs s t) (ha : a < 0x190000) : SeesAs s (satInc t a) :=
  ⟨(satInc_same t a).cams.trans h.cams, fun b hb => (rd_satInc_other (by omega)).trans (h.isp b hb)⟩

theorem SeesAs.boundVc (h : SeesAs s t) (port vc : Nat) : boundVc t port vc = boundVc s port vc := by
  refine List.filter_congr (fun c _ => ?_)
  have hcfg := h.isp (ISP_CTX_CFG c) (by simp only [ISP_CTX_CFG]; omega)
  rw [flag_congr hcfg, fld_congr hcfg, fld_congr hcfg]

theorem SeesAs.openFrame (h : SeesAs s t) (c : Nat) : openFrame t c = openFrame s c := openFrame_congr (ctx_congr h.cams c)

theorem SeesAs.openVc (h : SeesAs s t) (port vc : Nat) : openVc t port vc = openVc s port vc := by
  refine List.filter_congr (fun c _ => ?_)
  rw [h.openFrame]

theorem SeesAs.framesVc (h : SeesAs s t) (port vc : Nat) : framesVc t port vc = framesVc s port vc := by
  rw [Machine.framesVc, Machine.framesVc, h.openVc, h.boundVc]

theorem framesVc_nil {port vc : Nat} (h : framesVc s port vc = []) : openVc s port vc = [] ∧ boundVc s port vc = [] := by
  rw [framesVc, List.append_eq_nil_iff] at h
  obtain ⟨hopen, hbound⟩ := h
  rw [hopen] at hbound
  refine ⟨hopen, ?_⟩
  simpa using hbound

theorem domOn_congr {d : Nat} (h : rd t PWR_STS = rd s PWR_STS) : domOn t d = domOn s d := by rw [domOn, domOn, fld_congr h]

theorem phyShow_domOn (s : State) (port phy d : Nat) : domOn (phyShow s port phy) d = domOn s d :=
  domOn_congr (phyShow_rd s phy (by simp only [CAM_STS, PWR_STS]; omega))

theorem phyShow_eventNs (s : State) (port phy ns : Nat) (h : port < 6) : eventNs (phyShow s port phy) ns = eventNs s ns := by
  have hnow : now (phyShow s port phy) = now s :=
    now_congr (phyShow_rd s phy (by simp only [CAM_STS, FTM_TIME_LO]; omega)) (phyShow_rd s phy (by simp only [CAM_STS, FTM_TIME_HI]; omega))
  have hseq : fld (phyShow s port phy) SEQ_CFG 1 0 = fld s SEQ_CFG 1 0 := fld_congr (phyShow_rd s phy (by simp only [CAM_STS, SEQ_CFG]; omega)) _ _
  rw [eventNs, eventNs, hnow, tickNs, tickNs, hseq]

end

/-- Frame packets on a channel that no context takes (R321). -/
theorem strayPackets : ∀ (s : State) (port vc phy : Nat), Clocked s → port < 6 → domOn s (2 + port) = true → framesVc s port vc = [] →
    (∀ csi ns, exec (.frameStart port vc csi false phy ns) s = .next (holding s (satInc (phyShow s port phy) (CAM_IGNORED port)))) ∧
    (∀ ns, exec (.frameEnd port vc false phy ns) s = .next (holding s (satInc (phyShow s port phy) (CAM_IGNORED port)))) ∧
    (∀ dt data, exec (.longPacket port vc dt 0 true data phy) s = .next (holding s (satInc (phyShow s port phy) (CAM_IGNORED port)))) := by
  intro s port vc phy hclk hport hon hnone
  have hsees := phyShow_sees s phy hport
  have hframes : framesVc (hdrCount (phyShow s port phy) port false) port vc = [] := (hsees.framesVc port vc).trans hnone
  obtain ⟨hopen, hbound⟩ := framesVc_nil hnone
  refine ⟨fun csi ns => ?_, fun ns => ?_, fun dt data => ?_⟩
  · show execFrameStart port vc csi false phy ns s = _
    rw [execFrameStart, whileClocked_running _ hclk, hon]
    dsimp only
    rw [hframes]
    rfl
  · show execFrameEnd port vc false phy ns s = _
    rw [execFrameEnd, whileClocked_running _ hclk, hon]
    dsimp only
    rw [hframes]
    rfl
  · have hopen' : openVc (hdrCount (phyShow s port phy) port (0 == 1)) port vc = [] := (hsees.openVc port vc).trans hopen
    have hbound' : boundVc (hdrCount (phyShow s port phy) port (0 == 1)) port vc = [] := (hsees.boundVc port vc).trans hbound
    show execLongPacket port vc dt 0 true data phy s = _
    rw [execLongPacket, whileClocked_running _ hclk, hon]
    dsimp only
    rw [if_pos rfl, phyShow_domOn, hon, if_neg (by decide), if_neg (by decide), if_pos rfl, hopen', hbound']
    rfl

section
variable {s : State} {c : Nat}

/-- FRAME_START of one context with no frame in progress and no commit pending. -/
theorem frameStart_one {port vc phy : Nat} (hclk : Clocked s) (hport : port < 6) (hon : domOn s (2 + port) = true) (hframes : framesVc s port vc = [c])
    (hbound : boundVc s port vc = [c]) (hcommit : (ctx s c).commit = none) (hopen : openFrame s c = none) (csi ns : Nat) :
    exec (.frameStart port vc csi false phy ns) s = .next (holding s (newFrame (phyShow s port phy) c csi (eventNs s ns))) := by
  have hsees := phyShow_sees s phy hport
  have hframes' : framesVc (hdrCount (phyShow s port phy) port false) port vc = [c] := (hsees.framesVc port vc).trans hframes
  have hbound' : boundVc (phyShow s port phy) port vc = [c] := (hsees.boundVc port vc).trans hbound
  have hopen' : openFrame (phyShow s port phy) c = none := (hsees.openFrame c).trans hopen
  have happly : ∀ n m, applyCommit (phyShow s port phy) c n m = phyShow s port phy := fun n m => by
    rw [applyCommit, ctx_congr hsees.cams, hcommit]
  show execFrameStart port vc csi false phy ns s = _
  rw [execFrameStart, whileClocked_running _ hclk, hon]
  dsimp only
  rw [hframes']
  dsimp only [List.foldl, List.isEmpty]
  rw [show hdrCount (phyShow s port phy) port false = phyShow s port phy from rfl, truncate_none hopen', hbound', happly, if_neg (by decide), if_neg (by decide),
    show ([c].contains c) = true by simp, if_pos rfl, if_pos (by rw [hbound']; simp), phyShow_eventNs _ _ _ _ hport]

/-! ### Lines -/

/-- A packet with a good header for a frame in progress (R319, R321). -/
theorem longPacket_open {port vc phy dt : Nat} {f : CamFrame} (hclk : Clocked s) (hport : port < 6) (hon : domOn s (2 + port) = true)
    (hopenVc : openVc s port vc = [c]) (hopen : openFrame s c = some f) (hdt : csDt f.set = dt) (data : List Nat) :
    exec (.longPacket port vc dt 0 true data phy) s = .next (holding s (lineIn (phyShow s port phy) c f data)) ∧
      exec (.longPacket port vc dt 0 false data phy) s = .next (holding s (truncate (satInc (phyShow s port phy) (CAM_CRC_ERR port)) c 2)) := by
  have hsees := phyShow_sees s phy hport
  have hfinds : ∀ t, SeesAs s t → (openVc t port vc).find? (fun c => (openFrame t c).any (fun f => csDt f.set == dt)) = some c ∧ openFrame t c = some f :=
    fun t ht => by
      have hframe := (ht.openFrame c).trans hopen
      refine ⟨?_, hframe⟩
      rw [ht.openVc, hopenVc, List.find?_cons_of_pos]
      simp [hframe, hdt]
  refine ⟨?_, ?_⟩
  · obtain ⟨hfind, hframe⟩ := hfinds (phyShow s port phy) hsees
    show execLongPacket port vc dt 0 true data phy s = _
    rw [execLongPacket, whileClocked_running _ hclk, hon]
    dsimp only
    rw [if_pos rfl, phyShow_domOn, hon, if_neg (by decide), if_neg (by decide), if_pos rfl, show hdrCount (phyShow s port phy) port (0 == 1) = phyShow s port phy from rfl,
      hfind]
    dsimp only
    rw [hframe]
    rfl
  · obtain ⟨hfind, hframe⟩ := hfinds (satInc (phyShow s port phy) (CAM_CRC_ERR port)) (hsees.satInc (by simp only [CAM_CRC_ERR]; omega))
    show execLongPacket port vc dt 0 false data phy s = _
    rw [execLongPacket, whileClocked_running _ hclk, hon]
    dsimp only
    rw [if_pos rfl, phyShow_domOn, hon, if_neg (by decide), if_neg (by decide), if_neg (by decide), show hdrCount (phyShow s port phy) port (0 == 1) = phyShow s port phy from rfl,
      hfind]
    dsimp only
    rw [hframe]
    rfl

/-- FRAME_END of a frame that has all its lines (R321, R323). -/
theorem frameEnd_whole {port vc phy : Nat} {f : CamFrame} (hclk : Clocked s) (hport : port < 6) (hon : domOn s (2 + port) = true)
    (hframes : framesVc s port vc = [c]) (hopen : openFrame s c = some f) (hlines : f.lines = csHeight f.set) (ns : Nat) :
    Does (exec (.frameEnd port vc false phy ns) s) s (fun u => u.regs = (phyShow s port phy).regs ∧ SameMemory s u ∧
      (ctx u c).lastEnd = rdN s (ISP_CTX_FRAME c) ∧ (ctx u c).frames.getLast?.map (·.feTime) = some (some (eventNs s ns))) := by
  have hsees := phyShow_sees s phy hport
  let b := phyShow s port phy
  let d := updLast b c (fun f => { f with feTime := some (eventNs b ns) })
  have hphy : Same [.regs] s b := phyShow_same s port phy
  have hd : Same [.cams] b d := updLast_same b c _
  have hend : Same [.cams] d (frameEnded d c) :=
    updCtx_same d c (fun x => { x with lastEnd := rdN d (ISP_CTX_FRAME c), writes := x.writes.map (fun b => { b with base := some (b.base.getD (rdN d (ISP_CTX_FRAME c))) }) })
  have hmemory : Same [.regs, .cams] s (frameEnded d c) := (hphy.mono (by decide)).trans ((hd.mono (by decide)).trans (hend.mono (by decide)))
  have hopen' : openFrame b c = some f := (hsees.openFrame c).trans hopen
  have hctx : ctx d c = { ctx b c with frames := (ctx b c).frames.dropLast ++ [{ f with feTime := some (eventNs b ns) }] } :=
    ctx_updLast _ (openFrame_last hopen').1
  have hctx' : ctx (frameEnded d c) c =
      { ctx d c with lastEnd := rdN d (ISP_CTX_FRAME c), writes := (ctx d c).writes.map (fun b => { b with base := some (b.base.getD (rdN d (ISP_CTX_FRAME c))) }) } :=
    ctx_updCtx_same _ _ _
  refine ⟨frameEnded d c, ?_, hend.regs.trans hd.regs, same_memory hmemory, ?_, ?_⟩
  · have hframes' : framesVc (hdrCount (phyShow s port phy) port false) port vc = [c] := (hsees.framesVc port vc).trans hframes
    show execFrameEnd port vc false phy ns s = _
    rw [execFrameEnd, whileClocked_running _ hclk, hon]
    dsimp only
    rw [hframes']
    dsimp only [List.foldl, List.isEmpty]
    rw [show hdrCount (phyShow s port phy) port false = b from rfl, hopen', if_neg (by decide), if_neg (by decide)]
    dsimp only
    rw [if_pos hlines]
  · rw [hctx']
    exact (rdN_congr (hd.rd _)).trans (rdN_congr (hsees.isp _ (by simp only [ISP_CTX_FRAME]; omega)))
  · rw [hctx', hctx]
    simp [b, phyShow_eventNs _ _ _ _ hport]

/-- A frame of port `port` in progress is truncated as the header of its packet is lost (R312). -/
def headerLost (port : Nat) (s : State) (c : Nat) : State :=
  match openFrame s c with
  | some f => if csPort f.set = port then truncate s c 1 else s
  | none => s

theorem headerLost_same (port : Nat) (s : State) (c : Nat) : Same [.regs, .cams] s (headerLost port s c) := by
  unfold headerLost
  split
  · split
    · exact truncate_same _ _ _
    · exact Same.refl _ _
  · exact Same.refl _ _

theorem headerLost_other {port j : Nat} (h : j ≠ c) : openFrame (headerLost port s c) j = openFrame s j := by
  unfold headerLost
  split
  · split
    · exact openFrame_congr (truncate_other h)
    · rfl
  · rfl

/-- No frame of the port is in progress in context `c`. -/
def portClosed (port c : Nat) (s : State) : Prop := ∀ f, openFrame s c = some f → csPort f.set ≠ port

theorem headerLost_closed (port : Nat) (s : State) (c : Nat) : portClosed port c (headerLost port s c) := by
  intro f hf
  unfold headerLost at hf
  cases hopen : openFrame s c with
  | none =>
    rw [hopen] at hf
    dsimp only at hf
    rw [hopen] at hf
    cases hf
  | some g =>
    rw [hopen] at hf
    dsimp only at hf
    by_cases hport : csPort g.set = port
    · rw [if_pos hport, truncate_closes (by decide)] at hf
      cases hf
    · rw [if_neg hport, hopen] at hf
      obtain rfl := Option.some.inj hf
      exact hport

/-- A context keeps its frame or has none in progress. -/
theorem headerLost_keeps {port : Nat} : openFrame (headerLost port s c) c = openFrame s c ∨ openFrame (headerLost port s c) c = none := by
  unfold headerLost
  split
  · split
    · exact .inr (truncate_closes (by decide))
    · exact .inl rfl
  · exact .inl rfl

/-- A packet with an uncorrectable header truncates every frame of its port (R312, R321). -/
theorem longPacket_lost {port vc phy : Nat} (hclk : Clocked s) (hon : domOn s (2 + port) = true) (hport : port < 6) (dt : Nat) (data : List Nat) :
    Does (exec (.longPacket port vc dt 2 true data phy) s) s (fun u =>
      (∀ c f, c < 32 → openFrame s c = some f → csPort f.set = port → openFrame u c = none) ∧ SameMemory s u ∧ u.lanes = s.lanes) := by
  let b := satInc (phyShow s port phy) (CAM_HDR_UNCORR port)
  have hsees : SeesAs s b := (phyShow_sees s phy hport).satInc (by simp only [CAM_HDR_UNCORR]; omega)
  have hb : Same [.regs] s b := (phyShow_same s port phy).trans (satInc_same _ _)
  have hfold : Same [.regs, .cams] b (ctxs.foldl (headerLost port) b) := Same.foldl _ (headerLost_same port) _ _
  have hall := (hb.mono (qs := [.regs, .cams]) (by decide)).trans hfold
  have hclosed := foldl_each (l := ctxs) List.nodup_range (headerLost port) (fun _ _ => True) (portClosed port)
    (fun t c _ _ => headerLost_closed port t c) (fun _ _ _ _ _ _ _ => trivial)
    (fun t x _ y _ hne hy f hf => hy f ((headerLost_other hne).symm.trans hf)) b (fun _ _ => trivial)
  have hkept : ∀ c, openFrame (ctxs.foldl (headerLost port) b) c = openFrame s c ∨ openFrame (ctxs.foldl (headerLost port) b) c = none := fun c => by
    refine foldl_inv (fun t => openFrame t c = openFrame s c ∨ openFrame t c = none) _ _ (fun t x _ ht => ?_) b (.inl (hsees.openFrame c))
    by_cases hx : c = x
    · subst hx
      rcases headerLost_keeps (s := t) (c := c) (port := port) with h | h
      · rw [h]
        exact ht
      · exact .inr h
    · rw [headerLost_other hx]
      exact ht
  refine ⟨ctxs.foldl (headerLost port) b, ?_, fun c f hc hf hp => ?_, same_memory hall, hall.lanes⟩
  · show execLongPacket port vc dt 2 true data phy s = _
    rw [execLongPacket, whileClocked_running _ hclk, hon]
    dsimp only
    rw [if_pos rfl, phyShow_domOn, hon, if_neg (by decide), if_pos (by decide)]
    rfl
  · rcases hkept c with h | h
    · rw [hf] at h
      exact absurd hp (hclosed c (List.mem_range.mpr hc) f h)
    · exact h

end

theorem cameraFrames : Claim.CameraFrames := by
  intro s port vc phy hclk hport hon b
  refine ⟨fun hnone => strayPackets s port vc phy hclk hport hon hnone,
    fun c hframes hbound hcommit hopen csi ns => frameStart_one hclk hport hon hframes hbound hcommit hopen csi ns,
    fun c f hopenVc hopen => ⟨fun dt data hdt => longPacket_open hclk hport hon hopenVc hopen hdt data,
      fun hframes hlines ns => frameEnd_whole hclk hport hon hframes hopen hlines ns⟩,
    fun dt data => longPacket_lost hclk hon hport dt data⟩

/-! ### Commands -/

section
variable {s : State}

/-- CSI_PORT_SET: the registers of the port (R330). -/
def portSet (s : State) (port lanes rate scl : Nat) : State :=
  let s := setFld (setFld s (CAM_CFG port) 27 16 rate) (CAM_CFG port) 1 0 (lanes - 1)
  setFld (setFlag s (CAM_BUS_CFG port) 31 false) (CAM_BUS_CFG port) 15 0 scl

theorem portSet_fields {port lanes rate scl : Nat} (s : State) (hrate : rate ≤ 2500) (hlanes : lanes ≤ 4) (hscl : scl ≤ 1000) :
    let u := portSet s port lanes rate scl
    fld u (CAM_CFG port) 27 16 = rate ∧ fld u (CAM_CFG port) 1 0 = lanes - 1 ∧ fld u (CAM_BUS_CFG port) 15 0 = scl ∧ flag u (CAM_BUS_CFG port) 31 = false ∧
      (∀ r, r ≠ CAM_CFG port → r ≠ CAM_BUS_CFG port → rd u r = rd s r) := by
  intro u
  have hne : CAM_CFG port ≠ CAM_BUS_CFG port := by simp only [CAM_CFG, CAM_BUS_CFG]; omega
  have hcfg : rd u (CAM_CFG port) = rd (setFld (setFld s (CAM_CFG port) 27 16 rate) (CAM_CFG port) 1 0 (lanes - 1)) (CAM_CFG port) :=
    (rd_setFld_other _ _ _ hne).trans (rd_setFlag_other _ _ hne)
  refine ⟨?_, ?_, fld_setFld_fits (by omega), ?_, fun r h1 h2 => ?_⟩
  · rw [fld_congr hcfg, fld_setFld_apart _ _ _ _ _ _ (by decide) (by decide) (by decide), fld_setFld_fits (by omega)]
  · rw [fld_congr hcfg, fld_setFld_fits (by omega)]
  · exact (flag_setFld_apart _ _ _ _ _ _ (by decide) (by decide)).trans (flag_setFlag_same _ _ _ (by decide))
  · exact (rd_setFld_other _ _ _ h2).trans ((rd_setFlag_other _ _ h2).trans ((rd_setFld_other _ _ _ h1).trans (rd_setFld_other _ _ _ h1)))

/-- A commit of context `c` captured without sensor writes (R324). -/
def captured (s : State) (c : Nat) : State :=
  updCtx (setFlag s (ISP_CTX_STS2 c) 3 true) c (fun x =>
    { x with commit := some ((fld s (ISP_CTX_STS c) 15 0 + 1) % 65536, ctxShadow s c), commitAt := now s,
             overdue := false, writes := x.writes ++ [] })

theorem ctxCommit_fails {h : Issue} {op c : Nat} {k : Nat × Bool} (items : List (List Nat)) (hk : (ctxChecks s c (ctxShadow s c)).find? (fun k => !k.2) = some k) :
    ctxCommit s h op c items = complete s h op .badParam 0 (k.1 * 65536) 0 0 := by
  unfold ctxCommit
  dsimp only
  rw [hk]

theorem ctxCommit_captures {h : Issue} {op c : Nat} (hok : (ctxChecks s c (ctxShadow s c)).all (·.2) = true) :
    ctxCommit s h op c [] = startRun (captured s c) h op c [0] := by
  have hnone : (ctxChecks s c (ctxShadow s c)).find? (fun k => !k.2) = none := by
    rw [List.find?_eq_none]
    intro k hk
    have hpass := List.all_eq_true.mp hok k hk
    simp [hpass]
  unfold ctxCommit
  dsimp only
  rw [hnone]
  rfl

theorem captured_effect (s : State) (c : Nat) :
    (ctx (captured s c) c).commit = some ((fld s (ISP_CTX_STS c) 15 0 + 1) % 65536, ctxShadow s c) ∧ flag (captured s c) (ISP_CTX_STS2 c) 3 = true ∧
      (∀ r, r ≠ ISP_CTX_STS2 c → rd (captured s c) r = rd s r) ∧ (∀ j, j ≠ c → ctx (captured s c) j = ctx s j) ∧ SameMemory s (captured s c) := by
  have hctx : ctx (captured s c) c = _ := ctx_updCtx_same (setFlag s (ISP_CTX_STS2 c) 3 true) c _
  exact ⟨congrArg Ctx.commit hctx, flag_setFlag_same _ _ _ (by decide), fun r hr => rd_setFlag_other _ _ hr, fun j hj => ctx_updCtx_other _ _ hj, rfl, rfl, rfl, rfl, rfl⟩

end

theorem cameraCommands : Claim.CameraCommands := by
  intro s h hs a
  refine ⟨fun port lanes rate scl hport hl1 hl2 hr1 hr2 hs1 hs2 hon hidle hp => ?port,
    fun c fields hc hzero hfree hp => ⟨fun hok => ?commit, fun k hk => ?rejected⟩, ?route⟩
  case port =>
    obtain ⟨hrate, hlanes, hscl, hbus, hothers⟩ := portSet_fields (port := port) a hr2 hl2 hs2
    refine ⟨portSet a port lanes rate scl, ?_, hrate, hlanes, hscl, hbus, hothers, rfl, rfl, rfl, rfl, rfl⟩
    have hon' : domOn (accept s h) (2 + port) = true := hon
    have hidle' : camIdle (accept s h) port = true := hidle
    show execCsiPortSet h port lanes rate 0 scl s = _
    rw [execCsiPortSet, starts_body hs hp (by simp [hport, hl1, hl2, hr1, hr2, hs1, hs2, hon', hidle'])]
    rfl
  case commit =>
    obtain ⟨hcommit, hpending, hregs, hothers, hmemory⟩ := captured_effect a c
    refine ⟨captured a c, ?_, hcommit, hpending, hregs, hothers, hmemory⟩
    have hfree' : (ctx (accept s h) c).commit = none := hfree
    show execContextSet h c 0 0 fields [] s = _
    rw [execContextSet, starts_body (layout := 48 + 8 * satN 8 0) hs hp (by
      simp only [List.mem_cons, List.not_mem_nil, or_false, forall_eq_or_imp, forall_eq]
      exact ⟨by simp [hc], by rw [hzero, Bool.or_true], rfl, by rw [hfree']; rfl⟩)]
    exact congrArg (fun t => Host.Outcome.next (holding s t)) (ctxCommit_captures hok)
  case rejected =>
    have hfree' : (ctx (accept s h) c).commit = none := hfree
    show execContextSet h c 0 0 fields [] s = _
    rw [execContextSet, starts_body (layout := 48 + 8 * satN 8 0) hs hp (by
      simp only [List.mem_cons, List.not_mem_nil, or_false, forall_eq_or_imp, forall_eq]
      exact ⟨by simp [hc], by rw [hzero, Bool.or_true], rfl, by rw [hfree']; rfl⟩)]
    exact congrArg (fun t => Host.Outcome.next (holding s t)) (ctxCommit_fails _ hk)
  case route =>
    intro c n routes metric hc hn hroutes hmetric hfree b hok hp
    obtain ⟨hcommit, -, -, -, hmemory⟩ := captured_effect b c
    refine ⟨captured b c, ?_, hcommit, hmemory⟩
    have hfree' : (ctx (accept s h) c).commit = none := hfree
    show execStatsRoute h c n routes metric s = _
    rw [execStatsRoute, starts_body hs hp (by simp [hc, hn, hroutes, hmetric, hfree'])]
    exact congrArg (fun t => Host.Outcome.next (holding s t)) (ctxCommit_captures hok)

end Sys2Proof.Proofs

/-! PROOFS. The camera pipeline and its records (R314 to R329). -/

namespace Sys2Proof.Proofs

-- One theorem after the other: elaborated at once, their threads outgrow the memory that a check may take.
set_option Elab.async false

open Sys2Proof.Machine Sys2Proof.Laws

section
variable {s : State} {c : Nat}

/-! ### A frame's record -/

theorem bytesAt_take (d : Nat → Byte) (m : List Host.Cell) (a k j : Nat) : bytesAt d m a k = (bytesAt d m a (k + j)).take k := by
  induction k generalizing a with
  | zero => simp [bytesAt]
  | succ k ih =>
    rw [show k + 1 + j = (k + j) + 1 by omega, bytesAt, bytesAt, List.take_succ_cons, ← ih]

theorem sramBytes_take (s : State) (a k j : Nat) : sramBytes s a k = (sramBytes s a (k + j)).take k := bytesAt_take _ _ _ _ _

theorem statsBytes_length (n : Nat) (f : CamFrame) : (statsBytes n f).length = 4028 := by
  unfold statsBytes
  split
  · rw [List.length_map, List.length_range]
  · exact padTo_length _ _

/-- Steps of the free choices change nothing else. -/
theorem ticks_same (s : State) (l : List Nat) : Same [.freeCtr] s (l.foldl (fun s _ => tick1 s) s) :=
  Same.foldl _ (fun t _ q hq => by cases q <;> first | rfl | exact absurd (by decide) hq) _ _

/-- The state as the record of a frame is written: a sample time before the oldest boundary held is recorded once (R327). -/
def clipSeen (s : State) (c : Nat) (clip : Bool) : State :=
  if clip && !(ctx s c).clipped then event (updCtx s c (fun x => { x with clipped := true })) (srcCtx c) 0x1403 [] else s

theorem clipSeen_same (s : State) (c : Nat) (clip : Bool) : Same [.regs, .evr, .freeCtr, .cams] s (clipSeen s c clip) := by
  unfold clipSeen
  split
  · exact ((updCtx_same _ _ _).mono (by decide)).trans ((event_same _ _ _ _).mono (by decide))
  · exact Same.refl _ _

theorem clipSeen_frames (s : State) (c : Nat) (clip : Bool) : (ctx (clipSeen s c clip) c).frames = (ctx s c).frames := by
  unfold clipSeen
  split
  · rw [ctx_congr (event_same _ _ _ _).cams, ctx_updCtx_same]
  · rfl

/-- The first byte of the slot of a frame's record (R323). -/
def recordSlot (c : Nat) (f : CamFrame) : Nat := 0x1500000 + c * 0x4000 + f.frame % 4 * 0x1000

/-- A record in its slot, and among those that await delivery when it is routed. -/
def recordPlaced (s : State) (c : Nat) (f : CamFrame) (bytes : List Byte) (r : CamRec) : State :=
  let s := putSram s (0x1500000 + c * 0x4000 + f.frame % 4 * 0x1000) bytes
  let s := (List.range 8).foldl (fun s _ => tick1 s) s
  if decide (csLane f.set < 24) && csRoutes f.set ≠ 0 then updCtx s c (fun x => { x with out := x.out ++ [r] }) else s

theorem recordPlaced_same (s : State) (c : Nat) (f : CamFrame) (bytes : List Byte) (r : CamRec) :
    Same [.freeCtr, .cams] (putSram s (recordSlot c f) bytes) (recordPlaced s c f bytes r) := by
  have hticks := ticks_same (putSram s (recordSlot c f) bytes) (List.range 8)
  unfold recordPlaced
  dsimp only
  split
  · exact (hticks.mono (by decide)).trans ((updCtx_same _ _ _).mono (by decide))
  · exact hticks.mono (by decide)

theorem recordPlaced_frames (s : State) (c : Nat) (f : CamFrame) (bytes : List Byte) (r : CamRec) :
    (ctx (recordPlaced s c f bytes r) c).frames = (ctx s c).frames := by
  have hticks : ctx ((List.range 8).foldl (fun s _ => tick1 s) (putSram s (0x1500000 + c * 0x4000 + f.frame % 4 * 0x1000) bytes)) c = ctx s c :=
    ctx_congr ((ticks_same _ _).cams.trans (putSram_same _ _ _).cams) c
  unfold recordPlaced
  dsimp only
  split
  · rw [ctx_updCtx_same, hticks]
  · rw [hticks]

/-- The 4 KiB of a record from its head after the frame number and its statistics. -/
def recordBytes (frame : Nat) (head stats : List Byte) : List Byte :=
  let b := leBytes 4 frame ++ head ++ stats
  b ++ leBytes 4 (crc32c b)

theorem recordBytes_length {frame : Nat} {head stats : List Byte} (hhead : head.length = 60) (hstats : stats.length = 4028) :
    (recordBytes frame head stats).length = 4096 := by simp [recordBytes, hhead, hstats]

theorem recordBytes_take (frame : Nat) (head stats : List Byte) : (recordBytes frame head stats).take 4 = leBytes 4 frame := by simp [recordBytes]

/-- The head of a record after the frame number (R320). -/
def recordHead (f : CamFrame) (c n st vid : Nat) (x y : Int) : List Byte :=
  leBytes 2 f.gen ++ leBytes 2 f.senGen ++ leBytes 1 st ++ leBytes 1 f.cause ++ leBytes 1 c ++ leBytes 1 n ++ leBytes 8 f.fsTime ++
    leBytes 8 (f.feTime.getD 0) ++ leBytes 4 (unsgn 32 x) ++ leBytes 4 (unsgn 32 y) ++ leBytes 4 vid ++ leBytes 2 f.rows.length ++ leBytes 2 f.csi ++ zeros 20

theorem recordHead_length (f : CamFrame) (c n st vid : Nat) (x y : Int) : (recordHead f c n st vid x y).length = 60 := by simp [recordHead, zeros]

theorem recordBytes_eq (f : CamFrame) (c n st vid : Nat) (x y : Int) (stats : List Byte) :
    recordBytes f.frame (recordHead f c n st vid x y) stats =
      (let b := leBytes 4 f.frame ++ leBytes 2 f.gen ++ leBytes 2 f.senGen ++ leBytes 1 st ++ leBytes 1 f.cause ++ leBytes 1 c ++ leBytes 1 n ++
        leBytes 8 f.fsTime ++ leBytes 8 (f.feTime.getD 0) ++ leBytes 4 (unsgn 32 x) ++ leBytes 4 (unsgn 32 y) ++ leBytes 4 vid ++
        leBytes 2 f.rows.length ++ leBytes 2 f.csi ++ zeros 20 ++ stats
      b ++ leBytes 4 (crc32c b)) := by simp only [recordBytes, recordHead, List.append_assoc]

/-- What a frame's record consists of. -/
theorem putRecord_shape (s : State) (c : Nat) (f : CamFrame) : ∃ clip head stats r, head.length = 60 ∧ stats.length = 4028 ∧
    putRecord s c f = recordPlaced (clipSeen s c clip) c f (recordBytes f.frame head stats) r := by
  unfold putRecord
  dsimp only
  generalize (if decide (csLane f.set < 24) = true then pastAt s (csLane f.set) ((f.fsTime : Int) - csPosOff f.set * 1000) else (none, false)) = pc
  obtain ⟨p, clip⟩ := pc
  refine ⟨clip, ?_⟩
  dsimp only
  rw [show (if (clip && !(ctx s c).clipped) = true then event (updCtx s c (fun x => { x with clipped := true })) (srcCtx c) 0x1403 [] else s) = clipSeen s c clip from rfl]
  generalize clipSeen s c clip = u
  have hstats := statsBytes_length u.freeCtr f
  generalize statsBytes u.freeCtr f = stats at hstats ⊢
  refine ⟨recordHead f c ?lane ?status ?vid ?x ?y, stats, ?entry, recordHead_length _ _ _ _ _ _ _, hstats, ?eq⟩
  case eq =>
    rw [recordBytes_eq]
    rfl

/-- The record of a frame: its 4 KiB stand in its slot and nothing else in SRAM changes (R323). -/
theorem putRecord_effect (s : State) (c : Nat) (f : CamFrame) :
    let u := putRecord s c f
    (∀ b, b < recordSlot c f ∨ recordSlot c f + 4096 ≤ b → sramBytes u b 1 = sramBytes s b 1) ∧ leNat (sramBytes u (recordSlot c f) 4) = f.frame % 2 ^ 32 ∧
      (ctx u c).frames = (ctx s c).frames ∧ Same [.regs, .evr, .freeCtr, .cams, .sram] s u := by
  intro u
  obtain ⟨clip, head, stats, r, hhead, hstats, hu⟩ := putRecord_shape s c f
  have hlen := recordBytes_length (frame := f.frame) hhead hstats
  have htake := recordBytes_take f.frame head stats
  generalize recordBytes f.frame head stats = bytes at hu hlen htake
  have hclip := clipSeen_same s c clip
  have hplaced := recordPlaced_same (clipSeen s c clip) c f bytes r
  have hsram : ∀ a k, sramBytes u a k = sramBytes (putSram (clipSeen s c clip) (recordSlot c f) bytes) a k := fun a k => by
    rw [show u = _ from hu]
    exact sramBytes_congr hplaced.sram hplaced.sramLost a k
  refine ⟨fun b hb => ?_, ?_, ?_, ?_⟩
  · rw [hsram, sramBytes_putSram_other _ _ (by omega)]
    exact sramBytes_congr hclip.sram hclip.sramLost _ _
  · have hwhole := sramBytes_putSram_same (s := clipSeen s c clip) (recordSlot c f) bytes
    rw [hlen] at hwhole
    rw [hsram, sramBytes_take _ _ 4 4092, hwhole, htake, leNat_leBytes]
    rfl
  · rw [show u = _ from hu, recordPlaced_frames, clipSeen_frames]
  · rw [show u = _ from hu]
    exact (hclip.mono (by decide)).trans (((putSram_same _ _ _).mono (by decide)).trans (hplaced.mono (by decide)))

/-! ### Delivery to the loops -/

theorem count_l1In (s : State) (n m off k : Nat) : (lane (count s n off k) m).l1In = (lane s m).l1In := by
  by_cases h : m = n
  · subst h
    rw [count, lane_updLane_same]
  · rw [count, lane_updLane_other _ _ h]

theorem toL1_l1In (s : State) (n : Nat) (usable : Bool) (v : Nat) : (lane (toL1 s n usable v) n).l1In = some (usable, (v : Int)) := by
  unfold toL1
  dsimp only
  split
  · rw [lane_updLane_same]
  · rw [count_l1In, lane_updLane_same]

theorem toL1_same (s : State) (n : Nat) (usable : Bool) (v : Nat) : Same [.lanes] s (toL1 s n usable v) := by
  unfold toL1
  dsimp only
  split
  · exact updLane_same _ _ _
  · exact (updLane_same _ _ _).trans (count_same _ _ _ _)

theorem applyCommit_none {base cur : Nat} (h : (ctx s c).commit = none) : applyCommit s c base cur = s := by rw [applyCommit, h]

/-! ### Sensor writes -/

/-- The items of a batch sent on the bus of a port. -/
def busSent (s : State) (port : Nat) (b : SensorBatch) (acked : Nat) : State :=
  { s with camBus := mset s.camBus port ((b.items.take (acked + 1)).map busWrite) }

theorem busSent_same (s : State) (port : Nat) (b : SensorBatch) (acked : Nat) : Same [.camBus] s (busSent s port b acked) := fun q hq => by
  cases q <;> first | rfl | exact absurd (by decide) hq

/-- A batch that takes its place among those that wait for its generation. -/
def batchPut (b : SensorBatch) (x : List SensorBatch) (g : SensorBatch → List SensorBatch) : List SensorBatch :=
  x.flatMap (fun y => if y.gen == b.gen && y.first.isNone then g y else [y])

theorem batchPut_self {b : SensorBatch} (h : b.first = none) (g : SensorBatch → List SensorBatch) : batchPut b [b] g = g b := by simp [batchPut, h]

/-- Writes of which one was not acknowledged (R325). -/
def writesLost (s : State) (c : Nat) (b : SensorBatch) : State :=
  let s := updCtx s c (fun x => { x with writes := batchPut b x.writes (fun _ => []) })
  let s := match openFrame s c with
    | some _ => updLast s c (fun f => { f with unsure := true })
    | none => s
  event (setFlag s (ISP_CTX_STS2 c) 2 true) (srcCtx c) 0x1402 []

/-- Writes that were acknowledged (R325). -/
def writesSent (s : State) (c base : Nat) (b : SensorBatch) : State :=
  let late := flag s (ISP_CTX_CFG c) 31 && decide (base < rdN s (ISP_CTX_FRAME c))
  let first := base + 1 + fld s (ISP_CTX_TIMING c) 31 30 + b2n late
  let s := updCtx s c (fun x => { x with writes := batchPut b x.writes (fun y => [{ y with first := some first }]) })
  let s := if late then satIncF s (ISP_CTX_COUNTS c) 31 24 else s
  setFlag s (ISP_CTX_STS2 c) 2 false

theorem exec_sensorWrites {b : SensorBatch} {base acked : Nat} (hclk : Clocked s) (hwrites : (ctx s c).writes = [b]) (hfirst : b.first = none)
    (hbase : b.base = some base) (hon : domOn s (2 + fld s (ISP_CTX_CFG c) 25 23) = true) :
    exec (.sensorWrites c acked) s = .next (holding s (
      if acked < b.items.length then writesLost (busSent s (fld s (ISP_CTX_CFG c) 25 23) b acked) c b
      else writesSent (busSent s (fld s (ISP_CTX_CFG c) 25 23) b acked) c base b)) := by
  have hfind : [b].find? (fun b => b.first.isNone) = some b := by simp [hfirst]
  show execSensorWrites c acked s = _
  rw [execSensorWrites, whileClocked_running _ hclk, hwrites, hfind]
  dsimp only
  rw [hbase]
  dsimp only
  rw [hon]
  rfl

theorem ctx_writes_updLast (s : State) (c : Nat) (g : CamFrame → CamFrame) : (ctx (updLast s c g) c).writes = (ctx s c).writes := by
  rw [updLast, ctx_updCtx_same]
  split <;> rfl

theorem writesLost_effect {b : SensorBatch} (hwrites : (ctx s c).writes = [b]) (hfirst : b.first = none) (hc : c < 32) :
    flag (writesLost s c b) (ISP_CTX_STS2 c) 2 = true ∧ (ctx (writesLost s c b) c).writes = [] ∧ Same [.regs, .evr, .freeCtr, .cams] s (writesLost s c b) := by
  have hsts : evrReg (ISP_CTX_STS2 c) = false := by
    simp [evrReg, ISP_CTX_STS2, EVR_SEQ, EVR_STS, EVR_LOST]
    omega
  let d := updCtx s c (fun x => { x with writes := batchPut b x.writes (fun _ => []) })
  let e := match openFrame d c with
    | some _ => updLast d c (fun f => { f with unsure := true })
    | none => d
  have he : Same [.cams] d e := by
    simp only [e]
    split
    · exact updLast_same _ _ _
    · exact Same.refl _ _
  have hgone : (ctx e c).writes = [] := by
    have hd : (ctx d c).writes = [] := by
      rw [show ctx d c = _ from ctx_updCtx_same _ _ _]
      dsimp only
      rw [hwrites, batchPut_self hfirst]
    simp only [e]
    split
    · rw [ctx_writes_updLast, hd]
    · exact hd
  have hevent := event_only (setFlag e (ISP_CTX_STS2 c) 2 true) (srcCtx c) 0x1402 []
  have hu : writesLost s c b = event (setFlag e (ISP_CTX_STS2 c) 2 true) (srcCtx c) 0x1402 [] := rfl
  rw [hu]
  refine ⟨(flag_congr (hevent.regs _ hsts) _).trans (flag_setFlag_same _ _ _ (by decide)), ?_, ?_⟩
  · rw [ctx_congr (hevent.same.cams.trans (setFlag_same _ _ _ _).cams), hgone]
  · exact ((updCtx_same _ _ _).mono (by decide)).trans ((he.mono (by decide)).trans (((setFlag_same _ _ _ _).mono (by decide)).trans (hevent.same.mono (by decide))))

theorem writesSent_effect {b : SensorBatch} (base : Nat) (hwrites : (ctx s c).writes = [b]) (hfirst : b.first = none) :
    flag (writesSent s c base b) (ISP_CTX_STS2 c) 2 = false ∧ Same [.regs, .cams] s (writesSent s c base b) ∧
      (ctx (writesSent s c base b) c).writes = [{ b with first := some (base + 1 + fld s (ISP_CTX_TIMING c) 31 30 +
        b2n (flag s (ISP_CTX_CFG c) 31 && decide (base < rdN s (ISP_CTX_FRAME c)))) }] := by
  unfold writesSent
  dsimp only
  generalize (flag s (ISP_CTX_CFG c) 31 && decide (base < rdN s (ISP_CTX_FRAME c))) = late
  generalize base + 1 + fld s (ISP_CTX_TIMING c) 31 30 + b2n late = first
  let d := updCtx s c (fun x => { x with writes := batchPut b x.writes (fun y => [{ y with first := some first }]) })
  have hcount : Same [.regs] d (if late = true then satIncF d (ISP_CTX_COUNTS c) 31 24 else d) := by
    split
    · exact satIncF_same _ _ _ _
    · exact Same.refl _ _
  refine ⟨flag_setFlag_same _ _ _ (by decide), ?_, ?_⟩
  · exact ((updCtx_same _ _ _).mono (by decide)).trans ((hcount.trans (setFlag_same _ _ _ _)).mono (by decide))
  · rw [ctx_congr ((setFlag_same _ _ _ _).cams.trans hcount.cams), show ctx d c = _ from ctx_updCtx_same _ _ _]
    dsimp only
    rw [hwrites, batchPut_self hfirst]

/-- Once its watchdog has run out, a context is LATE (R322). -/
def lateShown (s : State) (c : Nat) : State :=
  let d := fld s (ISP_CTX_TIMING c) 19 0 * 1000
  let s := updCtx s c (fun x => { x with watch := x.watch.map (· + d) })
  let n := fld s (ISP_CTX_ROUTE c) 15 8
  let s := if flag s (ISP_CTX_ROUTE c) 0 && decide (n < 24) then toL1 s n false 0 else s
  setFlag (satIncF s (ISP_CTX_COUNTS c) 23 12) (ISP_CTX_STS2 c) 0 true

theorem lateShown_effect (s : State) (c : Nat) : flag (lateShown s c) (ISP_CTX_STS2 c) 0 = true ∧ Same [.regs, .cams, .lanes] s (lateShown s c) ∧
    (ctx (lateShown s c) c).commit = (ctx s c).commit ∧
    (flag s (ISP_CTX_ROUTE c) 0 = true → fld s (ISP_CTX_ROUTE c) 15 8 < 24 → (lane (lateShown s c) (fld s (ISP_CTX_ROUTE c) 15 8)).l1In = some (false, 0)) := by
  let b := updCtx s c (fun x => { x with watch := x.watch.map (· + fld s (ISP_CTX_TIMING c) 19 0 * 1000) })
  let e := if flag s (ISP_CTX_ROUTE c) 0 && decide (fld s (ISP_CTX_ROUTE c) 15 8 < 24) then toL1 b (fld s (ISP_CTX_ROUTE c) 15 8) false 0 else b
  have he : Same [.lanes] b e := by
    simp only [e]
    split
    · exact toL1_same _ _ _ _
    · exact Same.refl _ _
  have hu : lateShown s c = setFlag (satIncF e (ISP_CTX_COUNTS c) 23 12) (ISP_CTX_STS2 c) 0 true := rfl
  have hregs : Same [.regs] e (lateShown s c) := by
    rw [hu]
    exact (satIncF_same _ _ _ _).trans (setFlag_same _ _ _ _)
  refine ⟨?_, ?_, ?_, fun hroute hlane => ?_⟩
  · rw [hu]
    exact flag_setFlag_same _ _ _ (by decide)
  · exact Same.trans (t := b) ((updCtx_same _ _ _).mono (by decide)) ((he.mono (by decide)).trans (hregs.mono (by decide)))
  · rw [ctx_congr (hregs.cams.trans he.cams), show ctx b c = _ from ctx_updCtx_same _ _ _]
  · have htold : e = toL1 b (fld s (ISP_CTX_ROUTE c) 15 8) false 0 := if_pos (by rw [hroute, decide_eq_true hlane]; rfl)
    rw [lane_congr hregs.lanes, htold]
    exact toL1_l1In _ _ _ _

end

theorem cameraRecords : Claim.CameraRecords := by
  intro s c hclk hc
  refine ⟨fun p hon hline => ⟨fun hfree => ?served, fun hbusy => ?waits⟩, fun f fs hframes hready hsampled => ?record, fun r rs hout hlater hroutes => ?unrouted,
    fun r rs hout hlater hroutes => ?routed, fun hover hcommit => ?late, fun hearly => ?early,
    fun b base acked hwrites hfirst hbase hon => ⟨fun hall => ?sent, fun hlost => ?lost⟩, fun gen ws b hcommit hwrites hgen hfirst hdue => ?overdue⟩
  case served =>
    show execPipelineLine p s = _
    rw [execPipelineLine, whileClocked_running _ hclk, if_pos (by simp [hon, hline, hfree])]
  case waits =>
    show execPipelineLine p s = _
    rw [execPipelineLine, whileClocked_running _ hclk, if_neg (by simp only [Bool.and_eq_true, decide_eq_true_eq]; omega)]
  case record =>
    let b := updCtx s c (fun x => { x with frames := fs })
    obtain ⟨hothers, hframe, hleft, hsame⟩ := putRecord_effect b c f
    have hb : Same [.cams] s b := updCtx_same s c _
    have hall := (hb.mono (by decide)).trans hsame
    refine ⟨putRecord b c f, ?_, fun a ha => (hothers a ha).trans (sramBytes_congr hb.sram hb.sramLost _ _), hframe, ?_, hall.dram, hall.host, hall.lanes⟩
    · show execStatsRecordReady c s = _
      rw [execStatsRecordReady, whileClocked_running _ hclk, hframes]
      exact congrArg (fun t => Host.Outcome.next (holding s t)) (if_pos (by rw [hready, hsampled]; rfl))
    · rw [hleft, show ctx b c = _ from ctx_updCtx_same _ _ _]
  case unrouted =>
    have hctx := ctx_updCtx_same s c (fun x => { x with out := rs })
    refine ⟨updCtx s c (fun x => { x with out := rs }), ?_, congrArg Ctx.out hctx, rfl, rfl, rfl, rfl, rfl, rfl, rfl⟩
    show execStatsDelivery c s = _
    rw [execStatsDelivery, whileClocked_running _ hclk, hout]
    dsimp only
    rw [if_neg (by omega), hroutes, if_neg (by decide), if_neg (by decide), if_neg (by decide)]
  case routed =>
    have hctx := ctx_updCtx_same s c (fun x => { x with out := rs })
    let b := updCtx s c (fun x => { x with out := rs })
    have hb : Same [.cams] s b := updCtx_same s c _
    have htold := toL1_same b r.lane (recUsable r.status && r.status.testBit 5) r.metric
    have hall := (hb.mono (qs := [.cams, .lanes]) (by decide)).trans (htold.mono (by decide))
    refine ⟨toL1 b r.lane (recUsable r.status && r.status.testBit 5) r.metric, ?_, ?_, toL1_l1In _ _ _ _, hall.regs, same_memory hall⟩
    · show execStatsDelivery c s = _
      rw [execStatsDelivery, whileClocked_running _ hclk, hout]
      dsimp only
      rw [if_neg (by omega), hroutes, if_neg (by decide), if_neg (by decide), if_pos (by decide)]
    · rw [ctx_congr htold.cams]
      exact congrArg Ctx.out hctx
  case late =>
    obtain ⟨hlate, hsame, hkept, htold⟩ := lateShown_effect s c
    refine ⟨lateShown s c, ?_, hlate, same_memory hsame, htold⟩
    show execFrameTimeout c s = _
    rw [execFrameTimeout, whileClocked_running _ hclk, hover]
    exact congrArg (fun t => Host.Outcome.next (holding s t)) (applyCommit_none (hkept.trans hcommit))
  case early =>
    show execFrameTimeout c s = _
    rw [execFrameTimeout, whileClocked_running _ hclk, hearly]
    rfl
  case sent =>
    let d := busSent s (fld s (ISP_CTX_CFG c) 25 23) b acked
    have hd : Same [.camBus] s d := busSent_same _ _ _ _
    obtain ⟨hflag, hsame, hwritten⟩ := writesSent_effect (s := d) base ((congrArg Ctx.writes (ctx_congr hd.cams c)).trans hwrites) hfirst
    have hall := (hd.mono (qs := [.camBus, .regs, .cams]) (by decide)).trans (hsame.mono (by decide))
    refine ⟨writesSent d c base b, ?_, hflag, same_memory hall, hwritten⟩
    rw [exec_sensorWrites hclk hwrites hfirst hbase hon, if_neg (by omega)]
  case lost =>
    let d := busSent s (fld s (ISP_CTX_CFG c) 25 23) b acked
    have hd : Same [.camBus] s d := busSent_same _ _ _ _
    obtain ⟨hflag, hgone, hsame⟩ := writesLost_effect (s := d) ((congrArg Ctx.writes (ctx_congr hd.cams c)).trans hwrites) hfirst hc
    have hall := (hd.mono (qs := [.camBus, .regs, .evr, .freeCtr, .cams]) (by decide)).trans (hsame.mono (by decide))
    refine ⟨writesLost d c b, ?_, hflag, hgone, same_memory hall⟩
    rw [exec_sensorWrites hclk hwrites hfirst hbase hon, if_pos hlost]
  case overdue =>
    show execContextWriteTimeout c s = _
    rw [execContextWriteTimeout, whileClocked_running _ hclk, hcommit]
    exact congrArg (fun t => Host.Outcome.next (holding s t)) (if_pos (by rw [hdue, hwrites]; simp [hgen, hfirst]))

/-- Settles O51: camera commands, frames, and their records. -/
theorem cameras : Obligations.Cameras := ⟨cameraCommands, cameraFrames, cameraRecords⟩

end Sys2Proof.Proofs

/-! PROOFS. The layer commands (R178 to R200). -/

namespace Sys2Proof.Proofs

-- One theorem after the other: elaborated at once, their threads outgrow the memory that a check may take.
set_option Elab.async false

open Sys2Proof.Machine Sys2Proof.Laws

/-- The checks of a start on a state that meets them (R183, R193). -/
theorem startChecks_pass {s : State} {layer start st : Nat} (hmatch : layerMatch s layer = true) (htime : now s + 50000 ≤ start)
    (hfault : startFaulted s = false) (hst : layerSt s = st) (hpause : s.thm.paused = false) (hnone : s.seq.start = none) :
    ∀ c ∈ startChecks s layer start st, c.1 = true := by
  simp only [startChecks, List.mem_cons, List.not_mem_nil, or_false, forall_eq_or_imp, forall_eq]
  exact ⟨hmatch, decide_eq_true htime, by rw [hfault]; rfl, by rw [hst, beq_self_eq_true], by rw [hpause]; rfl, by rw [hnone]; rfl⟩

/-- A start accepted is pending, and shows as such (R183, R184). -/
theorem startPend_effect (s : State) (start : Nat) (resume : Bool) :
    let u := startPend s start resume
    u.seq.start = some (start, resume) ∧ flag u SEQ_STS 5 = true ∧ layerSt u = layerSt s ∧ u.lanes = s.lanes ∧ SameMemory s u := by
  intro u
  let b : State := { s with seq := { s.seq with start := some (start, resume) } }
  have hb : Same [.seq] s b := fun q hq => by cases q <;> first | rfl | exact absurd (by decide) hq
  have hsent := noticeGroup_same (setFlag b SEQ_STS 5 true) 0 start 0
  have hrd : rd u SEQ_STS = rd (setFlag b SEQ_STS 5 true) SEQ_STS := sendGroup_regs _ _ _ _ rfl
  have hflag := setFlag_same b SEQ_STS 5 true
  have hall : Same [.seq, .regs, .fab] s u := (hb.mono (by decide)).trans ((hflag.mono (by decide)).trans (hsent.mono (by decide)))
  refine ⟨?_, ?_, ?_, hall.lanes, same_memory hall⟩
  · exact congrArg Seq.start (hsent.seq.trans hflag.seq)
  · exact (flag_congr hrd _).trans (flag_setFlag_same _ _ _ (by decide))
  · exact (fld_congr hrd _ _).trans (fld_setFld_apart SEQ_STS 5 5 _ 3 0 (by decide) (by decide) (by decide))

/-- Settles O17: each layer command is its row's checks and then its effect. -/
theorem layerCommands : Obligations.LayerCommands := by
  intro s h hs a
  refine ⟨fun layer peers k st n hfails hp => ?armFails, fun layer peers hpass hp => ?arm,
    fun layer start hmatch htime hfault hpause hnone => ⟨fun hdiff hst hp => ?differs, fun hsame hst hp => ?expose, fun hsame hst hp => ?resume⟩,
    fun hst hp => ?stop, fun hst hp => ?stopped, fun hlo hhi hnone hp => ?abort, fun layer addr dev hp hdev haddr hdram => ?sheet⟩
  case armFails =>
    show execLayerArm h layer peers s = _
    rw [execLayerArm, starts_body hs hp (by simp), hfails]
  case arm =>
    show execLayerArm h layer peers s = _
    rw [execLayerArm, starts_body hs hp (by simp), hpass]
  case differs =>
    show execLayerExpose h layer start s = _
    rw [execLayerExpose, starts_body hs hp (startChecks_pass hmatch htime hfault hst hpause hnone)]
    exact congrArg (fun t => Host.Outcome.next (holding s t)) (if_pos hdiff)
  case expose =>
    obtain ⟨hstart, hflag, hkept, hlanes, hmem⟩ := startPend_effect a start false
    refine ⟨startPend a start false, ?_, hstart, hflag, hkept.trans hst, hlanes, hmem⟩
    show execLayerExpose h layer start s = _
    rw [execLayerExpose, starts_body hs hp (startChecks_pass hmatch htime hfault hst hpause hnone)]
    exact congrArg (fun t => Host.Outcome.next (holding s t)) (if_neg (ne_true_of_eq_false hsame))
  case resume =>
    obtain ⟨hstart, hflag, hkept, hlanes, hmem⟩ := startPend_effect a start true
    refine ⟨startPend a start true, ?_, hstart, hflag, hkept.trans hst, hlanes, hmem⟩
    show execResume h layer start s = _
    rw [execResume, starts_body hs hp (startChecks_pass hmatch htime hfault hst hpause hnone)]
    exact congrArg (fun t => Host.Outcome.next (holding s t)) (if_neg (ne_true_of_eq_false hsame))
  case stop =>
    have hst' : layerSt (accept s h) = stExposing := hst
    show execStopBath h 0 s = _
    rw [execStopBath, starts_body hs hp (by simp [hst'])]
    dsimp only
    rw [if_neg (show ¬(0 : Nat) = 1 by decide), if_neg (by rw [hst']; decide), requestStop, if_pos hst']
  case stopped =>
    have hst' : layerSt (accept s h) = stPaused := hst
    show execStopBath h 0 s = _
    rw [execStopBath, starts_body hs hp (by simp [hst'])]
    dsimp only
    rw [if_neg (show ¬(0 : Nat) = 1 by decide), if_pos hst', if_neg (show ¬(0 : Nat) = 1 by decide)]
  case abort =>
    have hlo' : stLoading ≤ layerSt (accept s h) := hlo
    have hhi' : layerSt (accept s h) ≤ stPaused := hhi
    have hnone' : (accept s h).seq.abortReq = none := hnone
    refine ⟨_, ?_, rfl⟩
    show execLayerAbort h 0 s = _
    rw [execLayerAbort, starts_body hs hp (by simp [hlo', hhi'])]
    dsimp only
    rw [if_neg (show ¬(0 : Nat) = 1 by decide), requestAbort, hnone']
  case sheet =>
    intro b hlayer hcrc
    have hdev' : (accept s h).seq.lastDev = some dev := hdev
    have hdram' : dramOk (accept s h) (sheetSlot dev layer) 6656 = true := hdram
    have hlayer' : leAt (dramBytes (accept s h) (sheetSlot dev layer) 6656) 8 4 = layer := hlayer
    have hbad : (crc32c (b.take 508) == leAt b 508 4) = false := beq_false_of_ne hcrc
    show execContactSheetRead h layer addr s = _
    rw [execContactSheetRead, starts_body hs hp (by
      simp only [List.mem_cons, List.not_mem_nil, or_false, forall_eq_or_imp, forall_eq]
      exact ⟨haddr, by rw [hdev']; rfl⟩)]
    dsimp only
    rw [hdev']
    dsimp only [Option.getD]
    rw [if_neg (by rw [hdram']; decide), if_neg (not_not_intro hlayer')]
    exact congrArg (fun x => Host.Outcome.next (holding s (complete (hostResult a addr b) h 0x010B (if x && _ then .ok else .dataCrc) 0 0 0 0))) hbad

end Sys2Proof.Proofs

/-! PROOFS. Jobs, their tables, and loading and refill of layer images (R148 to R181). -/

namespace Sys2Proof.Proofs

-- One theorem after the other: elaborated at once, their threads outgrow the memory that a check may take.
set_option Elab.async false

open Sys2Proof.Machine Sys2Proof.Laws

section
variable {s : State}

/-! ### Jobs and tables -/

theorem seq_changed (s : State) (f : Seq) : Same [.seq] s { s with seq := f } := fun q hq => by cases q <;> first | rfl | exact absurd (by decide) hq

theorem layerSt_setLayerSt (s : State) {v : Nat} (h : v < 16) : layerSt (setLayerSt s v) = v := fld_setFld_fits h

/-- The keys from `first` on set one after the other. -/
theorem mget_foldl_mset {α : Type} (d : α) (f : Nat → α) (first n : Nat) (m : List (Nat × α)) (k : Nat) :
    mget d ((List.range n).foldl (fun m i => mset m (first + i) (f i)) m) k = if first ≤ k ∧ k < first + n then f (k - first) else mget d m k := by
  induction n with
  | zero => rw [if_neg (by omega)]; rfl
  | succ n ih =>
    rw [List.range_succ, List.foldl_append, List.foldl_cons, List.foldl_nil, mget_mset, ih]
    by_cases hk : k = first + n
    · rw [if_pos hk, if_pos (by omega), hk, Nat.add_sub_cancel_left]
    · rw [if_neg hk]
      exact if_congr (by omega) rfl rfl

theorem padTo_self (bs : List Byte) : padTo bs.length bs = bs := by simp [padTo]

/-- The fill of the burn map begun (R362). -/
theorem burnFillStart_effect (s : State) : (burnFillStart s).burn.fill = true ∧ burnBusy (burnFillStart s) = true ∧
    layerSt (burnFillStart s) = layerSt s ∧ Only [.regs, .burn] (fun a => a == BURN_STS || a == SEQ_STS) s (burnFillStart s) := by
  let b : State := { s with burn := { s.burn with fill := true } }
  have hb : Same [.burn] s b := fun q hq => by cases q <;> first | rfl | exact absurd (by decide) hq
  have hrd : rd (burnFillStart s) SEQ_STS = rd (setBurnBusy b true) SEQ_STS := rd_setFlag_other _ _ (by decide)
  have hbusy : rd (setFlag b BURN_STS 1 true) SEQ_STS = rd s SEQ_STS := rd_setFlag_other _ _ (by decide)
  refine ⟨rfl, (flag_congr hrd _).trans (flag_setFlag_same _ _ _ (by decide)), ?_, ?_⟩
  · exact (fld_congr hrd _ _).trans ((fld_setFld_apart SEQ_STS 4 4 _ 3 0 (by decide) (by decide) (by decide)).trans (fld_congr hbusy _ _))
  · exact (Only.of_same hb).trans (((setBurnBusy_only b true).mono (by decide) (fun _ h => h)).setFlag)

end

theorem jobsAndTables : Claim.JobsAndTables := by
  intro s h hs a
  refine ⟨fun id hb hl db dl hid hb1 hl1 db1 dl1 hlen dlen happart hnone hhost hdev hp => ?opened, fun id hjob hst hp => ?closed,
    fun first cnt addr hfirst hcnt hlast halign harea hopen hdram hp => ?recipes, fun first cnt inl hfirst hcnt hfour hlast hopen hp => ?sets⟩
  case opened =>
    have hnone' : (accept s h).seq.job = none := hnone
    have hhost' : areaOk (accept s h) hb hl = true := hhost
    have hdev' : areaOk (accept s h) db dl = true := hdev
    let b : State := { a with seq := { a.seq with job := some id, hostBase := hb, hostLen := hl, devBase := db, devLen := dl, lastDev := some db
                                                  recipes := [], laneSets := [] } }
    have hseq : Same [.seq] a b := seq_changed a _
    let c := setLayerSt b stIdle
    have hc : Only [.regs, .burn] (fun a => a == BURN_STS || a == SEQ_STS) b c := Only.setFld (Only.refl _ _ b)
    obtain ⟨hfill, hbusy, hidle, honly⟩ := burnFillStart_effect c
    have hkept := hc.trans honly
    have hall : Same [.seq, .regs, .burn] a (burnFillStart c) := (hseq.mono (by decide)).trans (hkept.same.mono (by decide))
    have hjob : (burnFillStart c).seq = b.seq := hkept.same.seq
    refine ⟨burnFillStart c, ?_, by rw [hjob], by rw [hjob], by rw [hjob], by rw [hjob], by rw [hjob], by rw [hjob], by rw [hjob],
      hidle.trans (layerSt_setLayerSt b (by decide)), hfill, hbusy, fun r h1 h2 => ?_, hall.lanes, same_memory hall⟩
    · show execJobOpen h id hb hl db dl s = _
      rw [execJobOpen]
      dsimp only
      rw [starts_body hs hp (by
        simp only [List.mem_cons, List.not_mem_nil, or_false, forall_eq_or_imp, forall_eq]
        exact ⟨by simp only [hid, hb1, hl1, db1, dl1, hlen, dlen, Bool.and_eq_true, Bool.or_eq_true, decide_eq_true_eq, beq_iff_eq]; exact ⟨by simp, happart⟩, by rw [hnone']; rfl, by rw [hhost', hdev']; rfl⟩)]
    · exact (hkept.regs r (by simp [h1, h2])).trans (hseq.rd r)
  case closed =>
    have hjob' : (accept s h).seq.job = some id := hjob
    have hst' : layerSt (accept s h) = stIdle ∨ layerSt (accept s h) = stDone ∨ layerSt (accept s h) = stAborted := hst
    let b : State := { a with seq := { a.seq with job := none, recipes := [], laneSets := [], held := none }, burn := { a.burn with fill := false } }
    have hb : Same [.seq, .burn] a b := fun q hq => by cases q <;> first | rfl | exact absurd (by decide) hq
    let c := setFlag (setBurnBusy b b.burn.ended.isSome) BURN_STS 0 false
    have hc : Same [.regs] b c := (setBurnBusy_only b _).same.trans (setFlag_same _ _ _ _)
    let d := wrN (setLayerSt c stIdle) SEQ_LAYER 0
    have hd : Same [.regs] c d := (setLayerSt_same (s := c) _).trans (wrN_same _ _ _)
    have hall : Same [.seq, .burn, .regs] a d := (hb.mono (by decide)).trans ((hc.trans hd).mono (by decide))
    have hseq : d.seq = b.seq := (hc.trans hd).seq
    refine ⟨d, ?_, by rw [hseq], by rw [hseq], by rw [hseq], by rw [hseq], ?_, rdN_wrN_same _ _, hall.lanes, same_memory hall⟩
    · show execJobClose h id s = _
      rw [execJobClose, starts_body hs hp (by
        simp only [List.mem_cons, List.not_mem_nil, or_false, forall_eq_or_imp, forall_eq]
        exact ⟨by rw [hjob', beq_self_eq_true], by simpa [or_assoc] using hst'⟩)]
    · exact (fld_congr (rd_wrN_other _ (by decide)) _ _).trans (layerSt_setLayerSt c (by decide))
  case recipes =>
    intro b
    have hchecked : exec (.recipeLoad h first cnt 1 addr []) s = .next (holding s (
        match (List.range cnt).find? (fun i => !recipeOk (slice b i 64) (first + i)) with
        | some i => complete a h 0x0103 .badParam 0 i 0 0
        | none =>
          let rs := (List.range cnt).foldl (fun rs i => mset rs (first + i) (recipeAt (slice b i 64))) a.seq.recipes
          complete (putSram { a with seq := { a.seq with recipes := rs } } (recipeTable + 64 * first) (padTo (64 * cnt) b)) h 0x0103 .ok rs.length 0 0 0)) := by
      show execRecipeLoad h first cnt 1 addr [] s = _
      have harea' : inHostArea (accept s h) addr (64 * cnt) = true := harea
      have hopen' : tablesOpen (accept s h) = true := hopen
      have hdram' : dramOk (accept s h) addr (64 * cnt) = true := hdram
      rw [execRecipeLoad, starts_body hs hp (by simp [hfirst, hcnt, hlast, halign, harea', hopen', hdram'])]
      rfl
    refine ⟨fun i hi => by rw [hchecked, hi], fun hgood => ⟨_, _, by rw [hchecked, hgood], ?_⟩⟩
    have hlen : b.length = 64 * cnt := dramBytes_length _ _
    have hpad : padTo (64 * cnt) b = b := by rw [← hlen, padTo_self]
    rw [hpad]
    dsimp only
    generalize hrs : (List.range cnt).foldl (fun rs i => mset rs (first + i) (recipeAt (slice b i 64))) a.seq.recipes = rs
    have hget := mget_foldl_mset Recipe.none (fun i => recipeAt (slice b i 64)) first cnt a.seq.recipes
    rw [hrs] at hget
    let d : State := { a with seq := { a.seq with recipes := rs } }
    have hput := putSram_same (s := d) (recipeTable + 64 * first) b
    have hall : Same [.seq, .sram] a (putSram d (recipeTable + 64 * first) b) := ((seq_changed a _).mono (by decide)).trans (hput.mono (by decide))
    refine ⟨fun i hi => ?_, fun k hk => ?_, ?_, fun x hx => ?_, hall.regs, hall.lanes, hall.dram, hall.host⟩
    · exact (hget (first + i)).trans ((if_pos (by omega)).trans (by rw [Nat.add_sub_cancel_left]))
    · exact (hget k).trans (if_neg (by omega))
    · rw [← hlen]
      exact sramBytes_putSram_same _ _
    · exact (sramBytes_putSram_other _ _ (by omega)).trans (sramBytes_congr rfl rfl _ _)
  case sets =>
    intro sets
    have hchecked : exec (.lanesetLoad h first cnt 2 0 inl []) s = .next (holding s (
        match (List.range cnt).find? (fun i => !laneSetOk (ownAddr a) (sets i)) with
        | some i => complete a h 0x0104 .badParam 0 i 0 0
        | none =>
          let ls := (List.range cnt).foldl (fun ls i => mset ls (first + i) (sets i)) a.seq.laneSets
          complete { a with seq := { a.seq with laneSets := ls } } h 0x0104 .ok ls.length 0 0 0)) := by
      show execLanesetLoad h first cnt 2 0 inl [] s = _
      have hopen' : tablesOpen (accept s h) = true := hopen
      rw [execLanesetLoad, starts_body hs hp (by simp [hfirst, hcnt, hfour, hlast, hopen']; omega)]
      rfl
    let ls := (List.range cnt).foldl (fun ls i => mset ls (first + i) (sets i)) a.seq.laneSets
    refine ⟨fun i hi => by rw [hchecked, hi], fun hgood => ⟨ls.length, { a with seq := { a.seq with laneSets := ls } }, ?_, fun i hi => ?_, rfl, rfl, rfl, rfl, rfl, rfl, rfl⟩⟩
    · rw [hchecked, hgood]
    · exact (mget_foldl_mset [] sets first cnt a.seq.laneSets (first + i)).trans ((if_pos (by omega)).trans (by rw [Nat.add_sub_cancel_left]))

/-! ### Loading -/

section
variable {s : State} {n q : Nat}

theorem loadShow_only (s : State) (b : Bool) : Only [.regs] (fun a => decide (0x250204 ≤ a) && decide (a ≤ 0x250254)) s (loadShow s b) := by
  refine Only.foldl _ _ (fun t x hx => Only.setFlag (Only.refl _ _ t) ?_) s
  have := List.mem_range.mp hx
  have hlo : 0x250204 ≤ CMP_Q_STS x := by simp only [CMP_Q_STS]; omega
  have hhi : CMP_Q_STS x ≤ 0x250254 := by simp only [CMP_Q_STS]; omega
  exact Bool.and_eq_true_iff.mpr ⟨decide_eq_true hlo, decide_eq_true hhi⟩

/-- The end of a pass that found `e` for the layer `l` (R172, R181). -/
def passEnded (s : State) (e : LoadEnd) (l : Layer) : State :=
  let s := { s with seq := { s.seq with loading := none, loadBad := false } }
  let s := loadShow (wrN (setFld (setFld s SEQ_LOAD_RESULT 31 16 e.code) SEQ_LOAD_RESULT 15 8 e.lane) SEQ_LOAD_RECORD e.idx) false
  if e.st == .ok then
    let s := { s with seq := { s.seq with held := some { l with sets := e.sets, total := e.total }, lastLayer := l.layer } }
    wr64 (wrN (setLayerSt s stLoaded) SEQ_LAYER l.layer) SEQ_START_LO SEQ_START_HI 0
  else setLayerSt s stIdle

theorem exec_loadPassEnd {addr : Nat} {r : Running} (badLane badIdx : Nat) (hclk : Clocked s) (hload : s.seq.loading = some addr)
    (hrun : findRun s 0x0105 0 = some r) (hst : layerSt s = stLoading) (hgood : s.seq.loadBad = false) :
    let e := loadPass s addr (r.aux.headD 0)
    exec (.loadPassEnd badLane badIdx) s =
      .next (holding s (finishRun (passEnded s e (layerOf (dramBytes s addr 1024))) 0x0105 0 e.st e.code e.lane e.idx e.total)) := by
  intro e
  show execLoadPassEnd badLane badIdx s = _
  rw [execLoadPassEnd, whileClocked_running _ hclk, hload, hrun]
  dsimp only
  rw [if_neg (not_not_intro hst), hgood]
  rfl

theorem passEnded_effect (s : State) (e : LoadEnd) (l : Layer) :
    layerSt (passEnded s e l) = (if e.st = .ok then stLoaded else stIdle) ∧ (passEnded s e l).seq.loading = none ∧
      (e.st = .ok → (passEnded s e l).seq.held = some { l with sets := e.sets, total := e.total } ∧ rd (passEnded s e l) SEQ_LAYER = BitVec.ofNat 32 l.layer) ∧
      (e.st ≠ .ok → (passEnded s e l).seq.held = s.seq.held) ∧ Same [.seq, .regs] s (passEnded s e l) := by
  let b : State := { s with seq := { s.seq with loading := none, loadBad := false } }
  let c := loadShow (wrN (setFld (setFld b SEQ_LOAD_RESULT 31 16 e.code) SEQ_LOAD_RESULT 15 8 e.lane) SEQ_LOAD_RECORD e.idx) false
  have hc : Same [.regs] b c := (setFld_same b _ _ _ _).trans ((setFld_same _ _ _ _ _).trans ((wrN_same _ _ _).trans (loadShow_only _ _).same))
  have hsc : Same [.seq, .regs] s c := ((seq_changed s _).mono (by decide)).trans (hc.mono (by decide))
  by_cases hok : e.st = .ok
  · let d : State := { c with seq := { c.seq with held := some { l with sets := e.sets, total := e.total }, lastLayer := l.layer } }
    have hu : passEnded s e l = wr64 (wrN (setLayerSt d stLoaded) SEQ_LAYER l.layer) SEQ_START_LO SEQ_START_HI 0 := if_pos (by rw [hok]; rfl)
    have hregs : Same [.regs] d (passEnded s e l) := by
      rw [hu]
      exact (setLayerSt_same d _).trans ((wrN_same _ _ _).trans (wr64_same _ _ _ _))
    have hother : ∀ x, x ≠ SEQ_START_LO → x ≠ SEQ_START_HI → rd (passEnded s e l) x = rd (wrN (setLayerSt d stLoaded) SEQ_LAYER l.layer) x := fun x h1 h2 => by
      rw [hu]
      exact rd_wr64_other _ h1 h2
    refine ⟨?_, ?_, fun _ => ⟨?_, ?_⟩, fun h => absurd hok h, hsc.trans (((seq_changed c _).mono (by decide)).trans (hregs.mono (by decide)))⟩
    · rw [if_pos hok]
      exact (fld_congr ((hother _ (by decide) (by decide)).trans (rd_wrN_other _ (by decide))) _ _).trans (layerSt_setLayerSt d (by decide))
    · rw [hregs.seq]
      exact congrArg Seq.loading hc.seq
    · rw [hregs.seq]
    · exact (hother _ (by decide) (by decide)).trans (rd_wr_same _ _)
  · have hu : passEnded s e l = setLayerSt c stIdle := if_neg (by simpa using hok)
    rw [hu]
    have hseq := (setLayerSt_same c stIdle).seq.trans hc.seq
    refine ⟨?_, by rw [hseq], fun h => absurd h hok, fun _ => by rw [hseq], hsc.trans ((setLayerSt_same c _).mono (by decide))⟩
    rw [if_neg hok]
    exact layerSt_setLayerSt c (by decide)

/-! ### Refill -/

theorem tick1_lanes (s : State) : (tick1 s).lanes = s.lanes := rfl

theorem poolZone_lanes (s : State) (n : Nat) (r : VRec) : (poolZone s n r).1.lanes = s.lanes := by
  unfold poolZone
  split
  · rfl
  · split
    · rfl
    · split
      · rfl
      · exact (event_same _ _ _ _).lanes

/-- A record put into the buffer of a lane leaves the other lanes (R173). -/
theorem lane_putRec_other (s : State) (b : List Byte) {j : Nat} (h : j ≠ n) : lane (putRec s n b) j = lane s j := by
  have hpool := poolZone_lanes (putSram s (slotOf s n (lane s n).written) b) n (recOf b)
  unfold putRec
  dsimp only
  generalize poolZone (putSram s (slotOf s n (lane s n).written) b) n (recOf b) = tz at hpool
  obtain ⟨t, z⟩ := tz
  dsimp only
  split
  · rw [lane_updLane_other _ _ h]
    exact lane_congr hpool j
  · rw [lane_updLane_other _ _ h]
    exact lane_congr hpool j

theorem lane_putRecs_other (e : StreamEntry) (x : Expanded) (bad : Option Nat) (k : Nat) (s : State) {j : Nat} (h : j ≠ n) :
    lane (putRecs n e x bad k s) j = lane s j := by
  induction k generalizing s with
  | zero => rfl
  | succ k ih =>
    unfold putRecs
    dsimp only
    split
    · exact lane_updLane_other _ _ h
    · split
      · exact (lane_congr (tick1_lanes _) j).trans (lane_updLane_other _ _ h)
      · split
        · exact lane_updLane_other _ _ h
        · exact (ih _).trans (lane_putRec_other s _ h)

/-- A chunk of records written for the lane that the quad serves (R173 to R176). -/
def chunkPut (s : State) (q n : Nat) (bad : Option Nat) (e : StreamEntry) (l : Layer) : State :=
  let w := (lane s n).written
  let hit := (lane s n).refillBad
  let s := putRecs n e (streamOut (updLane s n (fun l => { l with refillBad := false })) l.framing e) (if hit then bad else none) (satN 64 (e.count - w))
    (updLane s n (fun l => { l with refillBad := false }))
  setFld (wrN s (CMP_Q_OUT q) (rdN s (CMP_Q_OUT q) + 32 * ((lane s n).written - w))) (CMP_Q_STS q) 7 0 n

theorem lane_chunkPut_other (s : State) (q : Nat) (bad : Option Nat) (e : StreamEntry) (l : Layer) {j : Nat} (h : j ≠ n) :
    lane (chunkPut s q n bad e l) j = lane s j := by
  unfold chunkPut
  dsimp only
  exact (lane_congr ((setFld_same _ _ _ _ _).lanes.trans (wrN_same _ _ _).lanes) j).trans ((lane_putRecs_other _ _ _ _ _ h).trans (lane_updLane_other _ _ h))

end

theorem loadingAndRefill : Claim.LoadingAndRefill := by
  refine ⟨fun s h hs => ?load, fun s hclk => ⟨fun addr r badLane badIdx hload hrun hst hgood => ?passEnd,
    fun q bad n e l hin hserved hstream hheld => ?chunk, fun q bad hin hnone => ?idle⟩⟩
  case load =>
    intro a addr layer hjob hquiet hp
    have hjob' : (accept s h).seq.job.isSome = true := hjob
    have hquiet' : quietLayer (accept s h) = true := hquiet
    let b : State := { a with seq := { a.seq with held := none, loading := some addr, loadBad := false } }
    let c := wrN (setLayerSt b stLoading) SEQ_LAYER 0
    have hc : Same [.regs] b c := (setLayerSt_same b _).trans (wrN_same _ _ _)
    have hshow := loadShow_only c true
    have hall : Same [.seq, .regs] a (loadShow c true) := ((seq_changed a _).mono (by decide)).trans ((hc.trans hshow.same).mono (by decide))
    have hseq := hshow.same.seq.trans hc.seq
    refine ⟨loadShow c true, ?_, ?_, by rw [hseq], by rw [hseq], ?_, hall.lanes, same_memory hall⟩
    · show execLayerLoad h addr layer s = _
      rw [execLayerLoad, starts_body hs hp (by simp [hjob', hquiet'])]
    · exact (fld_congr ((hshow.regs _ (by decide)).trans (rd_wrN_other _ (by decide))) _ _).trans (layerSt_setLayerSt b (by decide))
    · exact (rdN_congr (hshow.regs _ (by decide))).trans (rdN_wrN_same _ _)
  case passEnd =>
    intro e
    obtain ⟨hstate, hloading, hheld, hkept, hsame⟩ := passEnded_effect s e (layerOf (dramBytes s addr 1024))
    refine ⟨_, exec_loadPassEnd badLane badIdx hclk hload hrun hst hgood, hstate, hloading, fun hok => ?_, hkept, hsame.lanes, same_memory hsame⟩
    exact ⟨_, (hheld hok).1, rfl, (hheld hok).2⟩
  case chunk =>
    refine ⟨chunkPut s q n bad e l, ?_, fun j hj => lane_chunkPut_other s q bad e l hj, fld_setFld_same _ _ _ _ (by decide) (by decide)⟩
    show execRefillChunk q bad s = _
    rw [execRefillChunk, whileClocked_running _ hclk, if_neg (by rw [hin]; decide), hserved]
    dsimp only
    rw [hstream, hheld, chunkPut]
  case idle =>
    show execRefillChunk q bad s = _
    rw [execRefillChunk, whileClocked_running _ hclk, hin, hnone]
    rfl

/-- Settles O52: jobs and their tables, and loading and refill. -/
theorem jobsAndImages : Obligations.JobsAndImages := ⟨jobsAndTables, loadingAndRefill⟩

end Sys2Proof.Proofs

/-! PROOFS. The boundaries and the ends of a layer (R178 to R195). -/

namespace Sys2Proof.Proofs

-- One theorem after the other: elaborated at once, their threads outgrow the memory that a check may take.
set_option Elab.async false

open Sys2Proof.Machine Sys2Proof.Laws

section
variable {s : State} {n : Nat}

/-! ### The recording stream and the burn map at the end of a layer -/

theorem recording_changed (s : State) (f : Rec) : Same [.recording] s { s with recording := f } := fun q hq => by
  cases q <;> first | rfl | exact absurd (by decide) hq

theorem bulkTx_same (s : State) (k : Nat) : Same [.regs, .fab, .recording] s (bulkTx s k) := by
  induction k generalizing s with
  | zero => exact Same.refl _ _
  | succ k ih =>
    unfold bulkTx
    dsimp only
    split
    · exact Same.refl _ _
    · split
      · exact Same.refl _ _
      · split
        · exact ((sendOn_same _ _ _).mono (by decide)).trans (((recording_changed _ _).mono (by decide)).trans (ih _))
        · exact Same.refl _ _

/-- Parts of the state that moving the recording's output to its ring may change (R511, R513). -/
abbrev recParts : List Part := [.regs, .fab, .recording, .dram]

theorem ringPut_same (s : State) (off : Nat) (bs : List Byte) : Same [.dram] s (ringPut s off bs) := (putDram_same _ _ _).trans (putDram_same _ _ _)

theorem recPush_same (s : State) : Same recParts s (recPush s) := by
  unfold recPush
  dsimp only
  split
  · exact ((ringPut_same _ _ _).mono (by decide)).trans (((recording_changed _ _).mono (by decide)).trans
      (((wr64_same _ _ _ _).mono (by decide)).trans ((bulkTx_same _ _).mono (by decide))))
  · exact Same.refl _ _

theorem recSegment_same (s : State) (final : Bool) : Same recParts s (recSegment s final) :=
  Same.trans (ps := recParts) ((recording_changed s _).mono (by decide)) (recPush_same _)

theorem dieRelease_same (s : State) (op u : Nat) : Same [.regs, .pwr] s (dieRelease s op u) := by
  have hfreed : Same [.pwr] s { s with pwr := { s.pwr with die := s.pwr.die.filter (fun g => !(g.op == op && g.unit == u)) } } := fun q hq => by
    cases q <;> first | rfl | exact absurd (by decide) hq
  exact (hfreed.mono (by decide)).trans (((setFld_same _ _ _ _ _).trans (setFld_same _ _ _ _ _)).mono (by decide))

theorem codecRelease_same (s : State) (g : Nat) : Same [.regs, .pwr] s (codecRelease s g) :=
  (dieRelease_same _ _ _).trans ((setFlag_same _ _ _ _).mono (by decide))

theorem recEnd_same (s : State) : Same (.pwr :: recParts) s (recEnd s) := by
  unfold recEnd
  dsimp only
  split
  · let a : State := { s with recording := { s.recording with staged := [], input := s.recording.input ++ s.recording.staged } }
    have ha : Same [.recording] s a := recording_changed s _
    have hb := recSegment_same a true
    generalize recSegment a true = b at hb
    exact (ha.mono (by decide)).trans ((hb.mono (by decide)).trans (((recording_changed b _).mono (by decide)).trans ((codecRelease_same _ _).mono (by decide))))
  · exact Same.refl _ _

theorem writeBack_only (s : State) (t : BurnTile) : Only cellParts evrReg s (writeBack s t) := by
  refine Only.foldl _ _ (fun u e _ => ?_) _
  dsimp only
  split
  · generalize readCell u (t.tx * 4 + e.1 % 4) (t.ty * 4 + e.1 / 4) = r
    obtain ⟨c, bad⟩ := r
    cases bad
    · exact writeCell_only _ _ _ _
    · exact cellEvent_only _ _ _
  · exact Only.refl _ _ _

/-- Parts of the state that the end of a layer for the burn map may change (R370 to R373). -/
abbrev burnParts : List Part := .burn :: .fab :: cellParts

theorem setTiles_same (s : State) (e : Nat) (ts : List BurnTile) : Same [.burn] s (setTiles s e ts) :=
  burn_changed (fun s => { s.burn with caches := mset s.burn.caches e ts })

theorem flushCaches_same (s : State) : Same burnParts s (flushCaches s) := by
  refine Same.foldl _ (fun t e => ?_) _ _
  split
  · exact Same.refl _ _
  · have hback : Same cellParts t ((burnTiles t e).foldl writeBack t) := Same.foldl _ (fun u b => (writeBack_only u b).same) _ _
    exact (hback.mono (by decide)).trans ((setTiles_same _ _ _).mono (by decide))

theorem burnLayerEnd_same (s : State) (aborted : Bool) : Same burnParts s (burnLayerEnd s aborted) := by
  unfold burnLayerEnd
  dsimp only
  split
  · exact Same.refl _ _
  · have hsent : ∀ t k, Same burnParts t ((sharers t).foldl (fun s p => sendBorder s p k) t) := fun t k =>
      Same.foldl _ (fun u p => Same.foldl _ (fun v i => (sendMsg_same _ _ _ _).mono (by decide)) _ _) _ _
    have hflushed := (flushCaches_same s).trans (hsent (flushCaches s) (if aborted then 2 else if flag (flushCaches s) BURN_STS 2 then 1 else 0))
    generalize (sharers (flushCaches s)).foldl _ (flushCaches s) = u at hflushed ⊢
    exact hflushed.trans (Same.trans (ps := burnParts) ((burn_changed (s := u) (fun _ => _)).mono (by decide)) ((setBurnBusy_only _ _).same.mono (by decide)))

/-! ### A layer that has ended -/

theorem endLane_same (s : State) (n : Nat) : Same [.regs, .lanes] s (endLane s n) :=
  (darken_same _ _).trans (((stopMotion_same _ _).mono (by decide)).trans (((updLane_same _ _ _).mono (by decide)).trans
    ((setPhase_same _ _ _).trans ((setFld_same _ _ _ _ _).mono (by decide)))))

/-- What a layer that has ended leaves: its state, empty pools, and nothing pending (R178, R182, R195). -/
theorem layerOver_effect (s : State) (aborted : Bool) {st : Nat} (h : st < 16) :
    layerSt (layerOver s st aborted) = st ∧ (layerOver s st aborted).ovl.pool = [] ∧ (layerOver s st aborted).ovl.claims = [] ∧
      (layerOver s st aborted).seq.start = none ∧ (layerOver s st aborted).seq.abortReq = none := by
  let en := lanes24.filter (fun n => flag s (LN_CFG n) 0)
  let a : State := { s with ovl := { s.ovl with pool := [], claims := [] } }
  let b := ledgerClear a
  let c := en.foldl endLane b
  let d := burnLayerEnd (recEnd c) aborted
  let e := setFlag (setLayerSt d st) SEQ_STS 5 false
  let f : State := { e with seq := { e.seq with start := none, stopReq := false, abortReq := none, peerStart := [] } }
  have hu : layerOver s st aborted = poolShow f := rfl
  have hshow := poolShow_only f
  have hc : Same [.regs, .lanes] b c := Same.foldl _ endLane_same _ _
  have hovl : e.ovl = a.ovl := (setFlag_same _ _ _ _).ovl.trans ((setLayerSt_same d st).ovl.trans ((burnLayerEnd_same _ _).ovl.trans
    ((recEnd_same c).ovl.trans (hc.ovl.trans (ledgerClear_same a).ovl))))
  rw [hu]
  refine ⟨?_, ?_, ?_, by rw [hshow.same.seq], by rw [hshow.same.seq]⟩
  · exact (layerSt_congr (hshow.regs _ (by decide))).trans ((fld_setFld_apart SEQ_STS 5 5 _ 3 0 (by decide) (by decide) (by decide)).trans (layerSt_setLayerSt d h))
  · rw [hshow.same.ovl]
    exact congrArg Ovl.pool hovl
  · rw [hshow.same.ovl]
    exact congrArg Ovl.claims hovl

/-- The commands that a layer's end completes, and the recoveries that settle, leave the layer as it is. -/
theorem ends_settled (s : State) (op1 op2 : Nat) (st1 st2 : Status) :
    let u := settle (finishAll (finishAll s op1 0 st1 0 0 0 0) op2 0 st2 0 0 0 0)
    layerSt u = layerSt s ∧ u.seq = s.seq ∧ u.ovl = s.ovl := by
  intro u
  have hends := (finishAll_same s op1 0 st1 0 0 0 0).trans (finishAll_same (finishAll s op1 0 st1 0 0 0 0) op2 0 st2 0 0 0 0)
  have hregs := (finishAll_regs s op1 0 st1 0 0 0 0).trans (finishAll_regs (finishAll s op1 0 st1 0 0 0 0) op2 0 st2 0 0 0 0)
  have hsettled := settle_same (finishAll (finishAll s op1 0 st1 0 0 0 0) op2 0 st2 0 0 0 0)
  exact ⟨layerSt_congr ((settle_rd (by decide)).trans (hregs _ (by decide))), hsettled.seq.trans hends.seq, hsettled.ovl.trans hends.ovl⟩

/-- What an abort that is due leaves of the device before the commands that end with it (R195). -/
def abortedLayer (s : State) (c : EndCause) : State :=
  let was := layerSt s
  let st : Status := if c.cause = 2 then .faultActive else .wrongState
  let s := finishRun s 0x0105 0 .wrongState 0 0 0 0
  let s := finishRun s 0x0106 0 st (primedCount s) 0 0 0
  let s := pausedSoFar s
  let s := if s.seq.started && decide (stExposing ≤ was) then sheetWrite s 8 c else s
  let baths := s.seq.stopBaths
  let s := finishRun s 0x0109 0 st 0 0 0 0
  let s := finishExpose s st 8 (if c.cause = 2 then c.fault else baths)
  let s := if was = stLoading then loadShow { s with seq := { s.seq with loading := none, loadBad := false } } false else s
  if stArmed ≤ was then layerOver s stAborted true
  else setLayerSt { s with seq := { s.seq with abortReq := none, peerStart := [] } } stAborted

theorem abortedLayer_effect (s : State) (c : EndCause) : layerSt (abortedLayer s c) = stAborted ∧ (abortedLayer s c).seq.abortReq = none ∧
    (stArmed ≤ layerSt s → (abortedLayer s c).ovl.pool = [] ∧ (abortedLayer s c).ovl.claims = [] ∧ (abortedLayer s c).seq.start = none) := by
  unfold abortedLayer
  dsimp only
  split
  · generalize (if layerSt s = stLoading then _ else _) = t
    obtain ⟨hst, hpool, hclaims, hstart, habort⟩ := layerOver_effect t true (st := stAborted) (by decide)
    exact ⟨hst, habort, fun _ => ⟨hpool, hclaims, hstart⟩⟩
  · rename_i hnot
    generalize (if layerSt s = stLoading then _ else _) = t
    let d : State := { t with seq := { t.seq with abortReq := none, peerStart := [] } }
    exact ⟨layerSt_setLayerSt d (by decide), congrArg Seq.abortReq (setLayerSt_same d stAborted).seq, fun h => absurd h hnot⟩

theorem exec_abortEffect {c : EndCause} (hclk : Clocked s) (hreq : s.seq.abortReq = some c) (hlo : stLoading ≤ layerSt s) (hhi : layerSt s ≤ stPaused)
    (hdue : c.cause ≠ 1 ∨ layerSt s ≠ stExposing ∨ resolved s = false) :
    exec .abortEffect s = .next (holding s (settle (finishAll (finishAll (abortedLayer s c) 0x0108 0 .wrongState 0 0 0 0) 0x010A 0 .ok 0 0 0 0))) := by
  have hnot : ¬(decide (c.cause = 1) && decide (layerSt s = stExposing) && resolved s) = true := by
    simp only [Bool.and_eq_true, decide_eq_true_eq]
    rintro ⟨⟨hc, hst⟩, hres⟩
    rcases hdue with h | h | h
    · exact h hc
    · exact h hst
    · rw [hres] at h
      exact Bool.noConfusion h
  show execAbortEffect s = _
  rw [execAbortEffect, whileClocked_running _ hclk, hreq]
  dsimp only
  rw [if_neg (by simp only [Bool.or_eq_true, decide_eq_true_eq]; omega), if_neg hnot]
  rfl

/-- What the completion of all work leaves of the device before the commands that end with it (R178, R185). -/
def doneLayer (s : State) : State :=
  let left := lanes24.filter (workLeft s)
  let halted := (lanes24.filter (fun n => laneInLayer s n && (lane s n).phase == .halted)).foldl natSet 0
  let s := sheetWrite s 7 ⟨0, 0⟩
  let s := finishExpose s (if left.isEmpty then .ok else .faultActive) 7 (if left.isEmpty then s.seq.stopBaths else halted)
  layerOver s stDone false

theorem doneLayer_effect (s : State) : layerSt (doneLayer s) = stDone ∧ (doneLayer s).ovl.pool = [] ∧ (doneLayer s).seq.start = none ∧
    (doneLayer s).seq.abortReq = none := by
  unfold doneLayer
  dsimp only
  generalize finishExpose _ _ 7 _ = t
  obtain ⟨hst, hpool, -, hstart, habort⟩ := layerOver_effect t false (st := stDone) (by decide)
  exact ⟨hst, hpool, hstart, habort⟩

theorem exec_layerDone (hclk : Clocked s) (hst : layerSt s = stExposing) (hres : resolved s = true) (hcause : ∀ c, s.seq.abortReq = some c → c.cause ≠ 2) :
    exec .layerDone s = .next (holding s (settle (finishAll (finishAll (doneLayer s) 0x0108 0 .wrongState 0 0 0 0) 0x010A 0 .wrongState 0 0 0 0))) := by
  have hdev : (match s.seq.abortReq with
      | some c => c.cause == 2
      | none => false) = false := by
    split
    · exact beq_false_of_ne (hcause _ ‹_›)
    · rfl
  show execLayerDone s = _
  rw [execLayerDone, whileClocked_running _ hclk]
  dsimp only
  rw [if_neg]
  · rfl
  · simp only [Bool.or_eq_true, decide_eq_true_eq, Bool.not_eq_true', not_or]
    exact ⟨⟨not_not_intro hst, by rw [hres]; decide⟩, ne_true_of_eq_false hdev⟩

/-! ### The boundaries of a layer -/

/-- A layer that begins or goes on at its START (R183, R193). -/
def underWay (s : State) : State := dropStart (setLayerSt s stExposing)

theorem underWay_effect (s : State) : layerSt (underWay s) = stExposing ∧ flag (underWay s) SEQ_STS 5 = false ∧ (underWay s).seq.start = none ∧
    Only [.regs, .seq] (fun a => a == SEQ_STS) s (underWay s) := by
  let b := setLayerSt s stExposing
  let c : State := { b with seq := { b.seq with start := none, peerStart := [] } }
  have hb : Only [.regs, .seq] (fun a => a == SEQ_STS) s b := Only.setFld (Only.refl _ _ s)
  have hc : Only [.regs, .seq] (fun a => a == SEQ_STS) b c := Only.of_same (seq_changed b _)
  have hrest : Only [.regs, .seq] (fun a => a == SEQ_STS) c (underWay s) := Only.setFlag (Only.refl _ _ c)
  refine ⟨?_, flag_setFlag_same _ _ _ (by decide), rfl, hb.trans (hc.trans hrest)⟩
  exact (fld_setFld_apart SEQ_STS 5 5 _ 3 0 (by decide) (by decide) (by decide)).trans (layerSt_setLayerSt s (by decide))

/-- The layer begun, with the time of its start (R183). -/
def begun (s : State) : State :=
  let s := wr64 (underWay s) SEQ_START_LO SEQ_START_HI (now (underWay s))
  { s with seq := { s.seq with started := true, startTick := tickNo s }, recording := { s.recording with syncDue := true } }

theorem begun_effect (s : State) : layerSt (begun s) = stExposing ∧ flag (begun s) SEQ_STS 5 = false ∧ (begun s).seq.start = none ∧
    (begun s).seq.started = true ∧ (begun s).seq.startTick = tickNo s ∧ rd (begun s) SEQ_START_LO = BitVec.ofNat 32 (now s) ∧
    Same [.regs, .seq, .recording] s (begun s) := by
  obtain ⟨hst, hflag, hstart, honly⟩ := underWay_effect s
  let b := wr64 (underWay s) SEQ_START_LO SEQ_START_HI (now (underWay s))
  have hother : ∀ a, a ≠ SEQ_START_LO → a ≠ SEQ_START_HI → rd b a = rd (underWay s) a := fun a h1 h2 => rd_wr64_other _ h1 h2
  have htime : ∀ a, a ≠ SEQ_START_LO → a ≠ SEQ_START_HI → a ≠ SEQ_STS → rd b a = rd s a := fun a h1 h2 h3 =>
    (hother a h1 h2).trans (honly.regs a (beq_false_of_ne h3))
  have hnow : now (underWay s) = now s := now_congr (honly.regs _ (by decide)) (honly.regs _ (by decide))
  have hb : Same [.regs] (underWay s) b := wr64_same _ _ _ _
  have hrest : Same [.seq, .recording] b (begun s) := fun q hq => by cases q <;> first | rfl | exact absurd (by decide) hq
  refine ⟨(layerSt_congr (hother _ (by decide) (by decide))).trans hst, (flag_congr (hother _ (by decide) (by decide)) _).trans hflag,
    (congrArg Seq.start hb.seq).trans hstart, rfl, ?_, ?_, ?_⟩
  · exact tickNo_congr (htime _ (by decide) (by decide) (by decide)) (htime _ (by decide) (by decide) (by decide)) (htime _ (by decide) (by decide) (by decide))
  · rw [← hnow]
    exact (rd_wrN_other (a := SEQ_START_HI) _ (by decide)).trans (rd_wr_same _ _)
  · exact (honly.same.mono (by decide)).trans ((hb.mono (by decide)).trans (hrest.mono (by decide)))

theorem foldl_fixed {β : Type} (f : State → β → State) (l : List β) (s : State) (h : ∀ x ∈ l, f s x = s) : l.foldl f s = s := by
  induction l with
  | nil => rfl
  | cons x l ih => rw [List.foldl_cons, h x List.mem_cons_self, ih fun y hy => h y (List.mem_cons_of_mem _ hy)]

/-- Where all lanes of the layer have parked, none is late (R191). -/
theorem parked_inTime (h : allParked s = true) (hn : n ∈ lanes24) :
    (laneInLayer s n && !((lane s n).phase == .parked || (lane s n).phase == .halted || (lane s n).phase == .ended || (lane s n).phase == .idle)) = false := by
  have hn := List.all_eq_true.mp h n hn
  cases hin : laneInLayer s n
  · rfl
  · rw [hin] at hn
    cases hp : (lane s n).phase <;> rw [hp] at hn <;> first | rfl | exact Bool.noConfusion hn

end

theorem layerBoundaries : Claim.LayerBoundaries := by
  intro s hclk
  refine ⟨fun t hstart hst ht => ?begin, fun t hstart hst ht => ?goOn, fun hst hreq habort hleft => ?bath, fun hst hall => ?paused,
    fun hst hall => ?inTime, fun hst hearly => ?early, fun hst hover => ?late⟩
  case begin =>
    obtain ⟨hstate, hflag, hnone, hstarted, htick, hlo, hsame⟩ := begun_effect s
    refine ⟨begun s, ?_, hstate, hflag, hnone, hstarted, htick, hlo, hsame.lanes, same_memory hsame⟩
    show execLayerStart s = _
    rw [execLayerStart, whileClocked_running _ hclk, hstart]
    exact congrArg (fun t => Host.Outcome.next (holding s t)) (if_pos (by simp [hst, ht]))
  case goOn =>
    obtain ⟨hstate, hflag, hnone, honly⟩ := underWay_effect s
    let b := underWay s
    let c : State := { b with seq := { b.seq with pausedNs := b.seq.pausedNs + (now b - b.seq.stopAt) } }
    have hc : Same [.seq] b c := seq_changed b _
    have hnow : now b = now s := now_congr (honly.regs _ (by decide)) (honly.regs _ (by decide))
    have hall := honly.same.trans (hc.mono (by decide))
    refine ⟨c, ?_, hstate, hflag, hnone, ?_, hall.lanes, same_memory hall⟩
    · show execResumeStart s = _
      rw [execResumeStart, whileClocked_running _ hclk, hstart]
      exact congrArg (fun t => Host.Outcome.next (holding s t)) (if_pos (by simp [hst, ht]))
    · show b.seq.pausedNs + (now b - b.seq.stopAt) = _
      rw [hnow]
      rfl
  case bath =>
    let b : State := { s with seq := { s.seq with stopReq := false, stopAt := now s, lastPark := now s, splitMask := 0, finishMask := 0
                                                  stopBaths := s.seq.stopBaths + 1 } }
    have hb : Same [.seq] s b := seq_changed s _
    have hset := setLayerSt_same b stStopBath
    have hall : Same [.seq, .regs] s (setLayerSt b stStopBath) := (hb.mono (by decide)).trans (hset.mono (by decide))
    refine ⟨setLayerSt b stStopBath, ?_, layerSt_setLayerSt b (by decide), by rw [hset.seq], by rw [hset.seq], by rw [hset.seq], hall.lanes, same_memory hall⟩
    show execStopBathEffect s = _
    rw [execStopBathEffect, whileClocked_running _ hclk]
    exact congrArg (fun t => Host.Outcome.next (holding s t)) (if_neg (by simp [hst, hreq, habort, hleft]))
  case paused =>
    let b : State := { s with ledger := { s.ledger with grants := s.ledger.grants.filter (fun g => g.slot != 3) } }
    have hb : Same [.ledger] s b := fun q hq => by cases q <;> first | rfl | exact absurd (by decide) hq
    let c := setLayerSt (ledgerShow b) stPaused
    have hc : Same [.regs] b c := (ledgerShow_same b).trans (setLayerSt_same _ _)
    let d := finishAll c 0x0108 0 .ok (c.seq.lastPark - c.seq.stopAt) c.seq.splitMask c.seq.finishMask 0
    have hd := finishAll_same c 0x0108 0 .ok (c.seq.lastPark - c.seq.stopAt) c.seq.splitMask c.seq.finishMask 0
    have hu := settle_same d
    have hkept : Same (.ledger :: .evr :: .running :: endParts) s (settle d) :=
      (hb.mono (by decide)).trans ((hc.mono (by decide)).trans ((hd.mono (by decide)).trans (hu.mono (by decide))))
    refine ⟨settle d, ?_, ?_, hkept.lanes, hkept.sram, hkept.dram, ?_⟩
    · show execStopBathEnd s = _
      rw [execStopBathEnd, whileClocked_running _ hclk]
      exact congrArg (fun t => Host.Outcome.next (holding s t)) (if_neg (by simp [hst, hall]))
    · exact (layerSt_congr ((settle_rd (by decide)).trans (finishAll_regs _ _ _ _ _ _ _ _ _ (by decide)))).trans (layerSt_setLayerSt _ (by decide))
    · exact congrArg Ledger.grants (hu.ledger.trans (hd.ledger.trans hc.ledger))
  case inTime =>
    show execStopTimeout s = _
    rw [execStopTimeout, whileClocked_running _ hclk]
    refine congrArg (fun t => Host.Outcome.next (holding s t)) ?_
    split
    · rfl
    · exact foldl_fixed _ _ _ fun n hn => if_neg (ne_true_of_eq_false (parked_inTime hall hn))
  case early =>
    show execStopTimeout s = _
    rw [execStopTimeout, whileClocked_running _ hclk]
    exact congrArg (fun t => Host.Outcome.next (holding s t)) (if_pos (by simp [hearly]))
  case late =>
    show execStopTimeout s = _
    rw [execStopTimeout, whileClocked_running _ hclk]
    exact congrArg (fun t => Host.Outcome.next (holding s t)) (if_neg (by simp [hst, hover]))

theorem layerEnds : Claim.LayerEnds := by
  intro s hclk
  refine ⟨fun c hreq hlo hhi hdue => ?aborted, fun hst hres hcause => ?done, fun n hin hmany hphase => ?underruns, fun n hst hphase hrest hfull => ?remark⟩
  case aborted =>
    obtain ⟨hst, hnone, hempty⟩ := abortedLayer_effect s c
    obtain ⟨hst', hseq, hovl⟩ := ends_settled (abortedLayer s c) 0x0108 0x010A .wrongState .ok
    refine ⟨_, exec_abortEffect hclk hreq hlo hhi hdue, hst'.trans hst, ?_, fun harmed => ?_⟩
    · rw [hseq, hnone]
    · rw [hseq, hovl]
      exact hempty harmed
  case done =>
    obtain ⟨hdone, hpool, hstart, habort⟩ := doneLayer_effect s
    obtain ⟨hst', hseq, hovl⟩ := ends_settled (doneLayer s) 0x0108 0x010A .wrongState .wrongState
    refine ⟨_, exec_layerDone hclk hst hres hcause, hst'.trans hdone, ?_, ?_, ?_⟩
    · rw [hovl]
      exact hpool
    · rw [hseq]
      exact hstart
    · rw [hseq]
      exact habort
  case underruns =>
    show execUnderrunRepeat n s = _
    rw [execUnderrunRepeat, whileClocked_running _ hclk, if_pos (by simp [hin, hmany, hphase])]
  case remark =>
    show execRemarkStart n s = _
    rw [execRemarkStart, whileClocked_running _ hclk]
    exact congrArg (fun t => Host.Outcome.next (holding s t)) (if_pos (by simp [hst, hphase, hrest, hfull]))

/-- Settles O53: the boundaries of a layer, and its ends. -/
theorem layerSequence : Obligations.LayerSequence := ⟨layerBoundaries, layerEnds⟩

end Sys2Proof.Proofs

/-! PROOFS. The DMA engine (R493 to R502, R514, R515). -/

namespace Sys2Proof.Proofs

-- One theorem after the other: elaborated at once, their threads outgrow the memory that a check may take.
set_option Elab.async false

open Sys2Proof.Machine Sys2Proof.Laws

section
variable {s t : State} {c j : Nat}

theorem rd64_wr64 (s : State) {lo hi n : Nat} (h : lo ≠ hi) (hn : n < 2 ^ 64) : rd64 (wr64 s lo hi n) lo hi = n := by
  have hhi : rdN (wr64 s lo hi n) hi = n / 2 ^ 32 % 2 ^ 32 := rdN_wrN_same _ _
  have hlo : rdN (wr64 s lo hi n) lo = n % 2 ^ 32 := by rw [rdN, wr64_low _ h, BitVec.toNat_ofNat]
  rw [rd64, hhi, hlo]
  omega

theorem rd64_congr {lo hi : Nat} (hlo : rd t lo = rd s lo) (hhi : rd t hi = rd s hi) : rd64 t lo hi = rd64 s lo hi := by
  rw [rd64, rd64, rdN_congr hlo, rdN_congr hhi]

/-! ### A channel's state -/

theorem dmaCh_congr (h : t.dma = s.dma) (c : Nat) : dmaCh t c = dmaCh s c := congrArg (fun m => mget DmaCh.reset m c) h

theorem dmaCh_setDma_same (s : State) (c : Nat) (d : DmaCh) : dmaCh (setDma s c d) c = d := mget_mset_same _ _ _ _

theorem dmaCh_setDma_other (s : State) (d : DmaCh) (h : j ≠ c) : dmaCh (setDma s c d) j = dmaCh s j := mget_mset_other _ _ _ _ _ h

theorem setDma_same (s : State) (c : Nat) (d : DmaCh) : Same [.dma] s (setDma s c d) := fun q hq => by
  cases q <;> first | rfl | exact absurd (by decide) hq

/-- Parts of the state that the work of a DMA channel on itself may change. -/
abbrev dmaParts : List Part := .dma :: .running :: endParts

/-- The status of a channel, the engine's summary, and what the end of a command writes. -/
def chReg (c a : Nat) : Bool := a == DMA_CH_STS c || a == DMA_ACTIVE || a == DMA_STS || endReg a

/-- From `s` to `t` channel `c` changed its state, no other did. -/
structure ChStep (c : Nat) (s t : State) : Prop where
  only : Only dmaParts (chReg c) s t
  others : ∀ j, j ≠ c → dmaCh t j = dmaCh s j

theorem chReg_other {o : Nat} (h : c ≠ j ∨ o ≠ 0x104) (ho : 0x100 ≤ o) (ho' : o < 0x140) : chReg c (0x240000 + o + 0x40 * j) = false := by
  have hend : endReg (0x240000 + o + 0x40 * j) = false := endReg_ax (.inl (by omega))
  simp only [chReg, hend, DMA_CH_STS, DMA_ACTIVE, DMA_STS, Bool.or_false, Bool.or_eq_false_iff, beq_eq_false_iff_ne]
  omega

theorem ChStep.refl (c : Nat) (s : State) : ChStep c s s := ⟨Only.refl _ _ _, fun _ _ => rfl⟩

theorem ChStep.trans {u : State} (h1 : ChStep c s t) (h2 : ChStep c t u) : ChStep c s u :=
  ⟨h1.only.trans h2.only, fun j hj => (h2.others j hj).trans (h1.others j hj)⟩

theorem ChStep.of_only (h : Only [.regs] (chReg c) s t) : ChStep c s t :=
  ⟨h.mono (by decide) (fun _ h => h), fun _ _ => dmaCh_congr h.same.dma _⟩

theorem ChStep.of_ended (h : Ended s t) : ChStep c s t :=
  ⟨h.mono (by decide) (fun a h => by simp [chReg, h]), fun _ _ => dmaCh_congr h.same.dma _⟩

theorem ChStep.state (h : ChStep c s t) (hj : j ≠ c) : dmaState t j = dmaState s j :=
  fld_congr (h.only.regs _ (chReg_other (o := 0x104) (.inl (Ne.symm hj)) (by decide) (by decide))) _ _

theorem dmaStops_ended (s : State) : Ended s (dmaStops s) := by
  refine Only.foldl _ _ (fun t r _ => ?_) s
  split
  · exact finishRun_ended _ _ _ _ _ _ _ _
  · exact Only.refl _ _ _

theorem dmaShow_only (s : State) : Only [.regs] (fun a => a == DMA_ACTIVE || a == DMA_STS) s (dmaShow s) :=
  Only.setFld (Only.wrN (Only.refl _ _ s))

theorem dmaShow_step (c : Nat) (s : State) : ChStep c s (dmaShow s) :=
  .of_only ((dmaShow_only s).mono (fun _ h => h) (fun a h => by simp only [chReg, Bool.or_eq_true] at h ⊢; tauto))

theorem dmaState_congr (h : rd t (DMA_CH_STS c) = rd s (DMA_CH_STS c)) : dmaState t c = dmaState s c := fld_congr h _ _

theorem dmaShow_state (s : State) (c : Nat) : dmaState (dmaShow s) c = dmaState s c :=
  dmaState_congr ((dmaShow_only s).regs _ (by simp only [DMA_ACTIVE, DMA_STS, DMA_CH_STS, Bool.or_eq_false_iff, beq_eq_false_iff_ne]; omega))

theorem Ended.dmaState (h : Ended s t) (c : Nat) : dmaState t c = dmaState s c :=
  dmaState_congr (h.regs _ (endReg_ax (.inl (by simp only [DMA_CH_STS]; omega))))

/-! ### The end of a channel's run -/

/-- A channel whose run has ended, before its command and the DMA_STOPs that wait for it complete (R502). -/
def chEnded (s : State) (c ending : Nat) (lastBeat : Bool) : State :=
  let s := setFlag (setFld (setFld s (DMA_CH_STS c) 31 28 0) (DMA_CH_STS c) 27 24 ending) (DMA_CH_STS c) 23 lastBeat
  setDma s c { dmaCh s c with cur := none, pre := none, flight := [] }

theorem chEnded_step (s : State) (c ending : Nat) (lastBeat : Bool) : ChStep c s (chEnded s c ending lastBeat) := by
  have hsts : chReg c (DMA_CH_STS c) = true := by simp [chReg]
  have hregs : Only [.regs] (chReg c) s (setFlag (setFld (setFld s (DMA_CH_STS c) 31 28 0) (DMA_CH_STS c) 27 24 ending) (DMA_CH_STS c) 23 lastBeat) :=
    Only.setFlag (Only.setFld (Only.setFld (Only.refl _ _ s) hsts) hsts) hsts
  refine (ChStep.of_only hregs).trans ⟨Only.of_same (setDma_same _ c _), fun j hj => dmaCh_setDma_other _ _ hj⟩

theorem chEnded_state (s : State) (c ending : Nat) (lastBeat : Bool) : dmaState (chEnded s c ending lastBeat) c = 0 := by
  show fld (setFlag (setFld (setFld s (DMA_CH_STS c) 31 28 0) (DMA_CH_STS c) 27 24 ending) (DMA_CH_STS c) 23 lastBeat) (DMA_CH_STS c) 31 28 = 0
  rw [setFlag, fld_setFld_apart _ _ _ _ _ _ (by decide) (by decide) (by decide), fld_setFld_apart _ _ _ _ _ _ (by decide) (by decide) (by decide)]
  exact fld_setFld_same _ _ _ _ (by decide) (by decide)

theorem dmaEnd_eq (s : State) (c ending : Nat) (lastBeat : Bool) (st : Status) : ∃ r0 r1 r2 ex,
    dmaEnd s c ending lastBeat st = dmaStops (dmaShow (finishRun (chEnded s c ending lastBeat) 0x0904 c st r0 r1 r2 ex)) := ⟨_, _, _, _, rfl⟩

/-- The end of a channel's run leaves it idle, and every other channel as it is. -/
theorem dmaEnd_step (s : State) (c ending : Nat) (lastBeat : Bool) (st : Status) :
    ChStep c s (dmaEnd s c ending lastBeat st) ∧ dmaState (dmaEnd s c ending lastBeat st) c = 0 := by
  obtain ⟨r0, r1, r2, ex, heq⟩ := dmaEnd_eq s c ending lastBeat st
  have hfinish := finishRun_ended (chEnded s c ending lastBeat) 0x0904 c st r0 r1 r2 ex
  rw [heq]
  refine ⟨(chEnded_step _ _ _ _).trans ((ChStep.of_ended hfinish).trans ((dmaShow_step _ _).trans (.of_ended (dmaStops_ended _)))), ?_⟩
  rw [(dmaStops_ended _).dmaState, dmaShow_state, hfinish.dmaState, chEnded_state]

/-- The error fields of the engine's status stay at the end of a channel's run. -/
theorem dmaEnd_sts (s : State) (c ending : Nat) (lastBeat : Bool) (st : Status) {hi lo : Nat} (hhi : hi < 16) (hlo : lo ≤ hi) :
    fld (dmaEnd s c ending lastBeat st) DMA_STS hi lo = fld s DMA_STS hi lo := by
  obtain ⟨r0, r1, r2, ex, heq⟩ := dmaEnd_eq s c ending lastBeat st
  have hend : ∀ {a b : State}, Ended a b → rd b DMA_STS = rd a DMA_STS := fun h => h.regs _ (endReg_ax (.inl (by decide)))
  have hne : DMA_STS ≠ DMA_CH_STS c := by simp only [DMA_STS, DMA_CH_STS]; omega
  have hch : rd (chEnded s c ending lastBeat) DMA_STS = rd s DMA_STS :=
    (rd_setFlag_other _ _ hne).trans ((rd_setFld_other _ _ _ hne).trans (rd_setFld_other _ _ _ hne))
  have hfinish := hend (finishRun_ended (chEnded s c ending lastBeat) 0x0904 c st r0 r1 r2 ex)
  rw [heq, fld_congr (hend (dmaStops_ended _))]
  refine (fld_setFld_apart DMA_STS 21 16 _ hi lo (by decide) hlo (.inl hhi)).trans ?_
  rw [fld_congr (rd_wrN_other _ (by decide)), fld_congr hfinish, fld_congr hch]

/-! ### A burst that lands -/

/-- A burst whose data stands in its place: it counts, and may finish its descriptor and the chain (R496, R502). -/
def burstLanded (s : State) (c : Nat) (d : DmaCh) (b : DmaBurst) (rest : List DmaBurst) (cur : DmaDesc) : State :=
  let done := rd64 s (DMA_CH_DONE_LO c) (DMA_CH_DONE_HI c) + b.data.length
  let s := wr64 s (DMA_CH_DONE_LO c) (DMA_CH_DONE_HI c) done
  let s := setDma s c { d with flight := rest }
  let fin := rest.isEmpty && rdN s (DMA_CH_REMAIN c) == 0
  let s := if fin then
      satIncF (setDma s c { d with flight := rest, cur := none, finished := d.finished + 1 }) (DMA_CH_STS c) 15 0
    else s
  if dmaState s c = 2 && rest.isEmpty then dmaEnd s c 1 false .ok
  else if fin && cur.last then dmaEnd s c 0 false .ok
  else if fin then
    match d.pre with
    | some (a, some nx) =>
      wrN (wr64 (setDma s c { dmaCh s c with cur := some nx, pre := none }) (DMA_CH_DESC_LO c) (DMA_CH_DESC_HI c) a)
        (DMA_CH_REMAIN c) nx.len
    | some (a, none) => dmaEnd (wr64 s (DMA_CH_DESC_LO c) (DMA_CH_DESC_HI c) a) c 6 false .badParam
    | none => wr64 s (DMA_CH_DESC_LO c) (DMA_CH_DESC_HI c) cur.next
  else s

theorem dmaLand_eq {b : DmaBurst} {rest : List DmaBurst} {cur : DmaDesc} (hflight : (dmaCh s c).flight = b :: rest) (hcur : (dmaCh s c).cur = some cur) :
    dmaLand s c = if b.space = 0 && !canRequest s then s else burstLanded (spaceWrite s b.space b.addr b.data) c (dmaCh s c) b rest cur := by
  unfold dmaLand
  dsimp only
  split
  · rename_i b' rest' cur' hf hc
    obtain ⟨rfl, rfl⟩ := List.cons.inj (hflight.symm.trans hf)
    obtain rfl := Option.some.inj (hcur.symm.trans hc)
    rfl
  · rename_i hno
    exact absurd hcur (hno _ _ _ hflight)

theorem dmaEnd_same (s : State) (c ending : Nat) (lastBeat : Bool) (st : Status) : Same dmaParts s (dmaEnd s c ending lastBeat st) :=
  (dmaEnd_step s c ending lastBeat st).1.only.same

theorem burstLanded_same (s : State) (c : Nat) (d : DmaCh) (b : DmaBurst) (rest : List DmaBurst) (cur : DmaDesc) :
    Same dmaParts s (burstLanded s c d b rest cur) := by
  unfold burstLanded
  dsimp only
  have hdone : Same dmaParts s (setDma (wr64 s (DMA_CH_DONE_LO c) (DMA_CH_DONE_HI c) (rd64 s (DMA_CH_DONE_LO c) (DMA_CH_DONE_HI c) + b.data.length)) c { d with flight := rest }) :=
    ((wr64_same _ _ _ _).mono (by decide)).trans ((setDma_same _ _ _).mono (by decide))
  generalize setDma (wr64 s _ _ _) c { d with flight := rest } = t at hdone ⊢
  generalize (rest.isEmpty && rdN t (DMA_CH_REMAIN c) == 0) = fin
  have hfin : Same dmaParts t (if fin = true then satIncF (setDma t c { d with flight := rest, cur := none, finished := d.finished + 1 }) (DMA_CH_STS c) 15 0 else t) := by
    split
    · exact ((setDma_same _ _ _).mono (by decide)).trans ((satIncF_same _ _ _ _).mono (by decide))
    · exact Same.refl _ _
  generalize (if fin = true then _ else t) = u at hfin ⊢
  refine (hdone.trans hfin).trans ?_
  split
  · exact dmaEnd_same _ _ _ _ _
  · split
    · exact dmaEnd_same _ _ _ _ _
    · split
      · split
        · exact ((setDma_same _ _ _).mono (by decide)).trans (((wr64_same _ _ _ _).mono (by decide)).trans ((wrN_same _ _ _).mono (by decide)))
        · exact ((wr64_same _ _ _ _).mono (by decide)).trans (dmaEnd_same _ _ _ _ _)
        · exact (wr64_same _ _ _ _).mono (by decide)
      · exact Same.refl _ _

/-! ### A bus error -/

/-- The error logged by a failing read (R499). -/
def errLogged (s : State) (kind space addr : Nat) : State :=
  wr64 (setFlag (setFld (setFld s DMA_STS 7 4 kind) DMA_STS 3 2 space) DMA_STS 0 true) DMA_ERR_ADDR_LO DMA_ERR_ADDR_HI addr

theorem errLogged_effect (s : State) {kind space addr : Nat} (hkind : kind < 16) (hspace : space < 4) (haddr : addr < 2 ^ 64) :
    let u := errLogged s kind space addr
    flag u DMA_STS 0 = true ∧ fld u DMA_STS 7 4 = kind ∧ fld u DMA_STS 3 2 = space ∧ rd64 u DMA_ERR_ADDR_LO DMA_ERR_ADDR_HI = addr ∧ Same [.regs] s u := by
  intro u
  have hrd : rd u DMA_STS = rd (setFlag (setFld (setFld s DMA_STS 7 4 kind) DMA_STS 3 2 space) DMA_STS 0 true) DMA_STS := rd_wr64_other _ (by decide) (by decide)
  refine ⟨(flag_congr hrd _).trans (flag_setFlag_same _ _ _ (by decide)), ?_, ?_, rd64_wr64 _ (by decide) haddr, ?_⟩
  · rw [fld_congr hrd, setFlag, fld_setFld_apart _ _ _ _ _ _ (by decide) (by decide) (by decide), fld_setFld_apart _ _ _ _ _ _ (by decide) (by decide) (by decide)]
    exact fld_setFld_fits hkind
  · rw [fld_congr hrd, setFlag, fld_setFld_apart _ _ _ _ _ _ (by decide) (by decide) (by decide)]
    exact fld_setFld_fits hspace
  · exact (setFld_same _ _ _ _ _).trans ((setFld_same _ _ _ _ _).trans ((setFlag_same _ _ _ _).trans (wr64_same _ _ _ _)))

/-- One channel stopped by a bus error. -/
def errStop (s : State) (c : Nat) : State :=
  if dmaState s c = 0 then s
  else
    let lb := match (dmaCh s c).cur with
              | some d => d.last && rdN s (DMA_CH_REMAIN c) == 0
              | none => false
    dmaEnd s c 2 lb .dmaError

theorem busErr_eq (s : State) (kind space addr : Nat) : busErr s kind space addr = (List.range 32).foldl errStop (errLogged s kind space addr) := rfl

theorem errStop_step (s : State) (c : Nat) : ChStep c s (errStop s c) ∧ dmaState (errStop s c) c = 0 := by
  unfold errStop
  split
  · exact ⟨ChStep.refl _ _, ‹_›⟩
  · exact dmaEnd_step _ _ _ _ _

theorem errStop_sts (s : State) (c : Nat) {hi lo : Nat} (hhi : hi < 16) (hlo : lo ≤ hi) : fld (errStop s c) DMA_STS hi lo = fld s DMA_STS hi lo := by
  unfold errStop
  split
  · rfl
  · exact dmaEnd_sts _ _ _ _ _ hhi hlo

theorem errStops_state (s : State) (h : j < 32) : dmaState ((List.range 32).foldl errStop s) j = 0 :=
  foldl_each List.nodup_range errStop (fun _ _ => True) (fun x t => dmaState t x = 0) (fun t x _ _ => (errStop_step t x).2) (fun _ _ _ _ _ _ _ => trivial)
    (fun t x _ _ _ hne hy => ((errStop_step t x).1.state hne).trans hy) s (fun _ _ => trivial) j (List.mem_range.mpr h)

theorem errStops_same (s : State) : Same dmaParts s ((List.range 32).foldl errStop s) := Same.foldl _ (fun t c => (errStop_step t c).1.only.same) _ _

theorem errStops_sts (s : State) {hi lo : Nat} (hhi : hi < 16) (hlo : lo ≤ hi) : fld ((List.range 32).foldl errStop s) DMA_STS hi lo = fld s DMA_STS hi lo :=
  foldl_inv (fun t => fld t DMA_STS hi lo = fld s DMA_STS hi lo) _ _ (fun t c _ h => (errStop_sts t c hhi hlo).trans h) s rfl

theorem errStops_rd (s : State) {a : Nat} (h : ∀ c < 32, chReg c a = false) : rd ((List.range 32).foldl errStop s) a = rd s a :=
  foldl_inv (fun t => rd t a = rd s a) _ _ (fun t c hc ht => ((errStop_step t c).1.only.regs a (h c (List.mem_range.mp hc))).trans ht) s rfl

/-! ### DMA_STOP -/

/-- One channel that a DMA_STOP names (R515). -/
def stopOne (s : State) (c : Nat) : State :=
  if (dmaCh s c).flight.isEmpty then dmaEnd s c 1 false .ok else setFld s (DMA_CH_STS c) 31 28 2

theorem stopOne_step (s : State) (c : Nat) : ChStep c s (stopOne s c) ∧ dmaState (stopOne s c) c = if (dmaCh s c).flight = [] then 0 else 2 := by
  unfold stopOne
  by_cases h : (dmaCh s c).flight = []
  · rw [if_pos h, if_pos (by rw [h]; rfl)]
    exact dmaEnd_step _ _ _ _ _
  · rw [if_neg h, if_neg (by simpa using h)]
    exact ⟨.of_only (Only.setFld (Only.refl _ _ s) (by simp [chReg])), fld_setFld_same _ _ _ _ (by decide) (by decide)⟩

theorem stops_same (l : List Nat) (s : State) : Same dmaParts s (l.foldl stopOne s) := Same.foldl _ (fun t c => (stopOne_step t c).1.only.same) _ _

theorem stops_named {l : List Nat} (hl : l.Nodup) (s : State) : ∀ c ∈ l, dmaState (l.foldl stopOne s) c = if (dmaCh s c).flight = [] then 0 else 2 :=
  foldl_each hl stopOne (fun c t => dmaCh t c = dmaCh s c) (fun c t => dmaState t c = if (dmaCh s c).flight = [] then 0 else 2)
    (fun t x _ hx => by rw [(stopOne_step t x).2, hx]) (fun t x _ y _ hne hy => ((stopOne_step t x).1.others y hne).trans hy)
    (fun t x _ _ _ hne hy => ((stopOne_step t x).1.state hne).trans hy) s (fun _ _ => rfl)

theorem stops_other {l : List Nat} (s : State) (h : c ∉ l) : dmaState (l.foldl stopOne s) c = dmaState s c :=
  foldl_inv (fun t => dmaState t c = dmaState s c) _ _ (fun t x hx ht => ((stopOne_step t x).1.state (j := c) (fun he => h (he.symm ▸ hx))).trans ht) s rfl

end

/-- A channel's registers lie apart from the status of every channel, and from each other. -/
theorem chRegs_apart (c j : Nat) : (DMA_CH_STS j ≠ DMA_CH_REMAIN c ∧ DMA_CH_STS j ≠ DMA_CH_DONE_LO c ∧ DMA_CH_STS j ≠ DMA_CH_DONE_HI c ∧
    DMA_CH_STS j ≠ DMA_CH_DESC_LO c ∧ DMA_CH_STS j ≠ DMA_CH_DESC_HI c) ∧ (DMA_CH_REMAIN c ≠ DMA_CH_DONE_LO c ∧ DMA_CH_REMAIN c ≠ DMA_CH_DONE_HI c ∧
    DMA_CH_REMAIN c ≠ DMA_CH_DESC_LO c ∧ DMA_CH_REMAIN c ≠ DMA_CH_DESC_HI c) ∧ DMA_CH_DESC_LO c ≠ DMA_CH_DESC_HI c := by
  simp only [DMA_CH_STS, DMA_CH_REMAIN, DMA_CH_DONE_LO, DMA_CH_DONE_HI, DMA_CH_DESC_LO, DMA_CH_DESC_HI]
  omega

theorem dmaCommands : Claim.DmaCommands := by
  intro s h hs a
  refine ⟨fun c priority rate hc hprio hrate hp => ?set, fun c space addr hc hspace halign haddr hring hgood hidle hp => ?start, fun mask hpos hlim hp => ?stop⟩
  case set =>
    let b := setLive a (DMA_CH_CFG c) 1 0 priority
    refine ⟨setLive b (DMA_CH_CFG c) 15 8 rate, ?_, rfl, ⟨rfl, rfl, rfl, rfl, rfl⟩, ?_, setLive_waits b _ 15 8 rate⟩
    · show execDmaChannelSet h c priority rate s = _
      rw [execDmaChannelSet, starts_body hs hp (by simp [hc, hprio, hrate])]
    · exact List.mem_append_left _ (List.mem_filter.mpr ⟨setLive_waits a (DMA_CH_CFG c) 1 0 priority, by
        have hmask : (setBits 0 1 0 3 == setBits 0 15 8 (2 ^ (15 - 8 + 1) - 1)) = false := by decide
        exact congrArg (fun x => !(_ && x)) hmask |>.trans (by simp)⟩)
  case start =>
    have hgood' : flag (accept s h) DMA_STS 0 = false := hgood
    have hidle' : dmaState (accept s h) c = 0 := hidle
    let b := setFld (setFld a (DMA_CH_STS c) 31 28 1) (DMA_CH_STS c) 15 0 0
    let d := wr64 (wrN b (DMA_CH_REMAIN c) 0) (DMA_CH_DONE_LO c) (DMA_CH_DONE_HI c) 0
    let e := wr64 d (DMA_CH_DESC_LO c) (DMA_CH_DESC_HI c) addr
    let f := setDma e c { dmaCh e c with space := space, ring15 := h.ring == 15, cur := none, pre := none, flight := [], finished := 0 }
    have hregs : Same [.regs] a e := (setFld_same _ _ _ _ _).trans ((setFld_same _ _ _ _ _).trans ((wrN_same _ _ _).trans ((wr64_same _ _ _ _).trans (wr64_same _ _ _ _))))
    have hall : Same [.regs, .dma] a f := (hregs.mono (by decide)).trans ((setDma_same e c _).mono (by decide))
    have hsts : ∀ j, rd f (DMA_CH_STS j) = rd b (DMA_CH_STS j) := fun j => by
      obtain ⟨⟨hrem, hdlo, hdhi, hlo, hhi⟩, -⟩ := chRegs_apart c j
      exact (rd_wr64_other (s := d) _ hlo hhi).trans ((rd_wr64_other (s := wrN b (DMA_CH_REMAIN c) 0) _ hdlo hdhi).trans (rd_wrN_other _ hrem))
    obtain ⟨-, ⟨hdlo, hdhi, hlo, hhi⟩, hdesc⟩ := chRegs_apart c c
    have hch : dmaCh f c = { dmaCh e c with space := space, ring15 := h.ring == 15, cur := none, pre := none, flight := [], finished := 0 } := dmaCh_setDma_same _ _ _
    refine ⟨f, ?_, ?_, rd64_wr64 d hdesc haddr, ?_, by rw [hch], by rw [hch], by rw [hch], fun j hj hne => ?_, same_memory hall⟩
    · show execDmaStart h c space addr s = _
      rw [execDmaStart, starts_body hs hp (by
        simp only [List.mem_cons, List.not_mem_nil, or_false, forall_eq_or_imp, forall_eq]
        exact ⟨by simpa [hc, hspace, halign, imp_iff_not_or] using hring, by rw [hgood']; rfl, by rw [hidle']; rfl⟩)]
    · rw [dmaState_congr (hsts c)]
      exact (fld_setFld_apart _ _ _ _ _ _ (by decide) (by decide) (by decide)).trans (fld_setFld_same _ _ _ _ (by decide) (by decide))
    · refine (rdN_congr ?_).trans (rdN_wrN_same (s := b) (DMA_CH_REMAIN c) 0)
      exact (rd_wr64_other (s := d) _ hlo hhi).trans (rd_wr64_other _ hdlo hdhi)
    · rw [dmaState_congr (hsts j)]
      have hch : DMA_CH_STS j ≠ DMA_CH_STS c := by simp only [DMA_CH_STS]; omega
      exact dmaState_congr ((rd_setFld_other _ _ _ hch).trans (rd_setFld_other _ _ _ hch))
  case stop =>
    let act := (bitList mask 32).filter (fun c => dmaState a c == 1)
    let b := startRun a h 0x0905 mask [mask, act.foldl natSet 0]
    have hb : Same [.hif, .running] a b := startRun_same _ _ _ _ _
    have hnodup : act.Nodup := (bitList_nodup mask 32).filter _
    have hact : ∀ c, c ∈ act ↔ (c < 32 ∧ mask.testBit c = true) ∧ dmaState a c = 1 := fun c => by simp [act, mem_bitList]
    let d := act.foldl stopOne b
    have hstate : ∀ c, dmaState (dmaStops (dmaShow d)) c = dmaState d c := fun c => ((dmaStops_ended _).dmaState c).trans (dmaShow_state _ _)
    have hall : Same (.running :: dmaParts) a (dmaStops (dmaShow d)) :=
      (hb.mono (by decide)).trans (((stops_same act b).mono (by decide)).trans (((dmaShow_only d).same.mono (by decide)).trans ((dmaStops_ended _).same.mono (by decide))))
    refine ⟨dmaStops (dmaShow d), ?_, fun c hc hbit hactive => ?_, fun c hc hnot => ?_, hall.sram, hall.dram⟩
    · show execDmaStop h mask s = _
      rw [execDmaStop, starts_body hs hp (by simpa [hpos] using hlim)]
      rfl
    · rw [hstate, stops_named hnodup b c ((hact c).mpr ⟨⟨hc, hbit⟩, hactive⟩), dmaCh_congr hb.dma]
    · have hout : c ∉ act := fun hin => by
        obtain ⟨⟨-, hbit⟩, hactive⟩ := (hact c).mp hin
        rcases hnot with h | h
        · rw [hbit] at h
          exact Bool.noConfusion h
        · exact h hactive
      rw [hstate, stops_other b hout]
      exact dmaState_congr (hb.rd _)

theorem dmaWork : Claim.DmaWork := by
  intro s c hclk hc
  refine ⟨fun bs hcur hpre hstate hreq hread => ⟨fun k hdesc hok hlen => ?good, fun hbad => ?bad⟩, fun hslot => ?wait, fun t hslot hreach hpick => ?issue,
    fun b cur hflight hcur hspace hslot => ?lands, fun b rest cur hflight hcur hspace hheld hslot => ?held, fun kind space addr hkind hspace haddr => ?err⟩
  case good =>
    let b := setDma s c { dmaCh s c with cur := some k }
    have hb := setDma_same s c { dmaCh s c with cur := some k }
    have hu := wrN_same b (DMA_CH_REMAIN c) k.len
    have hall : Same [.dma, .regs] s (wrN b (DMA_CH_REMAIN c) k.len) := (hb.mono (by decide)).trans (hu.mono (by decide))
    refine ⟨wrN b (DMA_CH_REMAIN c) k.len, ?_, ?_, ?_, fun j hj => ?_, same_memory hall, hall.lanes⟩
    · show execDescriptorFetch c s = _
      rw [execDescriptorFetch, whileClocked_running _ hclk]
      dsimp only
      rw [hcur]
      dsimp only
      rw [if_neg (by simpa [hstate, hpre] using hreq), hread]
      dsimp only
      rw [hdesc, Option.filter_some, hok]
      rfl
    · rw [dmaCh_congr hu.dma, show dmaCh b c = _ from dmaCh_setDma_same _ _ _]
    · rw [rdN_wrN_same, Nat.mod_eq_of_lt hlen]
    · rw [dmaCh_congr hu.dma, show dmaCh b j = _ from dmaCh_setDma_other _ _ hj]
  case bad =>
    show execDescriptorFetch c s = _
    rw [execDescriptorFetch, whileClocked_running _ hclk]
    dsimp only
    rw [hcur]
    dsimp only
    rw [if_neg (by simpa [hstate, hpre] using hreq), hread]
    dsimp only
    rw [hbad]
    rfl
  case wait =>
    have hnone : ∀ landed, exec (.dmaBurst landed) s = .next (holding s (landed.foldl dmaLand s)) := fun landed => by
      show execDmaBurst landed s = _
      rw [execDmaBurst, whileClocked_running _ hclk]
      rcases hslot with h | ⟨t, h, hr⟩
      · rw [h]
      · rw [h]
        dsimp only
        rw [hr]
        rfl
    exact ⟨hnone [], hnone [c]⟩
  case issue =>
    show execDmaBurst [] s = _
    rw [execDmaBurst, whileClocked_running _ hclk, hslot]
    dsimp only
    rw [hreach, hpick]
    rfl
  case lands =>
    have hrest := burstLanded_same (putSram s b.addr b.data) c (dmaCh s c) b [] cur
    have hput := putSram_same (s := s) b.addr b.data
    refine ⟨burstLanded (putSram s b.addr b.data) c (dmaCh s c) b [] cur, ?_, hrest.sram, hrest.dram.trans hput.dram, hrest.lanes.trans hput.lanes, hrest.seq.trans hput.seq⟩
    show execDmaBurst [c] s = _
    rw [execDmaBurst, whileClocked_running _ hclk, hslot, List.foldl_cons, List.foldl_nil]
    dsimp only
    rw [dmaLand_eq hflight hcur, hspace]
    rfl
  case held =>
    show execDmaBurst [c] s = _
    rw [execDmaBurst, whileClocked_running _ hclk, hslot, List.foldl_cons, List.foldl_nil]
    dsimp only
    rw [dmaLand_eq hflight hcur, hspace, hheld]
    rfl
  case err =>
    obtain ⟨hflag, hkind', hspace', haddr', hlog⟩ := errLogged_effect s hkind hspace haddr
    let b := errLogged s kind space addr
    have hstops := errStops_same b
    have hrd : ∀ a, a = DMA_ERR_ADDR_LO ∨ a = DMA_ERR_ADDR_HI → rd ((List.range 32).foldl errStop b) a = rd b a := fun a ha => by
      refine errStops_rd b fun c hc => ?_
      have hend : endReg a = false := endReg_ax (.inl (by rcases ha with rfl | rfl <;> decide))
      simp only [chReg, hend, Bool.or_false, Bool.or_eq_false_iff, beq_eq_false_iff_ne]
      rcases ha with rfl | rfl <;> (simp only [DMA_CH_STS, DMA_ERR_ADDR_LO, DMA_ERR_ADDR_HI, DMA_ACTIVE, DMA_STS]; omega)
    refine ⟨(List.range 32).foldl errStop b, ?_, fun j hj => errStops_state b hj, ?_, (errStops_sts b (by decide) (by decide)).trans hkind',
      (errStops_sts b (by decide) (by decide)).trans hspace', (rd64_congr (hrd _ (.inl rfl)) (hrd _ (.inr rfl))).trans haddr',
      hstops.sram.trans hlog.sram, hstops.dram.trans hlog.dram, hstops.lanes.trans hlog.lanes⟩
    · show execBusErr kind space addr [] s = _
      rw [execBusErr, whileClocked_running _ hclk]
      rfl
    · rw [flag, errStops_sts b (by decide) (by decide)]
      exact hflag

/-- Settles O54: the commands of the DMA engine, and its work. -/
theorem dmaEngine : Obligations.DmaEngine := ⟨dmaCommands, dmaWork⟩

end Sys2Proof.Proofs

/-! PROOFS. Codecs and the recording stream (R504 to R515). -/

namespace Sys2Proof.Proofs

-- One theorem after the other: elaborated at once, their threads outgrow the memory that a check may take.
set_option Elab.async false

open Sys2Proof.Machine Sys2Proof.Laws

section
variable {s t : State} {g : Nat} {j : Job}

/-! ### A codec and its job -/

theorem mget_map_some {α : Type} (m : List (Nat × α)) (k : Nat) (v : α) : mget none ((mset m k v).map (fun p => (p.1, some p.2))) k = some v := by
  induction m with
  | nil => simp [mset, mget]
  | cons e m ih =>
    obtain ⟨i, w⟩ := e
    unfold mset
    split
    · simp [mget]
    · split
      · simp [mget]
      · rename_i h
        rw [List.map_cons, mget, if_neg (Ne.symm h), ih]

theorem jobOf_set (s : State) (g : Nat) (j : Job) : jobOf { s with jobs := mset s.jobs g j } g = some j := mget_map_some _ _ _

theorem jobOf_congr (h : t.jobs = s.jobs) : jobOf t g = jobOf s g := by rw [jobOf, jobOf, h]

theorem codecSt_congr (h : rd t CMP_STS = rd s CMP_STS) : codecSt t g = codecSt s g := fld_congr h _ _

theorem codecSt_setCodecSt (s : State) (hg : g < 2) {v : Nat} (hv : v < 16) : codecSt (setCodecSt s g v) g = v :=
  fld_setFld_fits (by rw [show 3 + 4 * g - 4 * g + 1 = 4 by omega]; exact hv) (by omega) (by omega)

theorem dieHolds_congr (h : t.pwr = s.pwr) (op u : Nat) : dieHolds t op u = dieHolds s op u := by rw [dieHolds, dieHolds, h]

theorem jobs_changed (s : State) (m : List (Nat × Job)) : Same [.jobs] s { s with jobs := m } := fun q hq => by
  cases q <;> first | rfl | exact absurd (by decide) hq

theorem codecTake_same (s : State) (g : Nat) : Same [.regs, .pwr] s (codecTake s g) := by
  have htaken : Same [.pwr] s { s with pwr := { s.pwr with die := s.pwr.die ++ [⟨3, g, dieCost 3⟩] } } := fun q hq => by
    cases q <;> first | rfl | exact absurd (by decide) hq
  exact (htaken.mono (by decide)).trans (((setFld_same _ _ _ _ _).trans ((setFld_same _ _ _ _ _).trans (setFlag_same _ _ _ _))).mono (by decide))

theorem codecTake_holds (s : State) (g : Nat) : dieHolds (codecTake s g) 3 g = true := (dieHolds_congr (setFlag_same _ _ _ _).pwr _ _).trans (dieTake_holds _ _ _)

theorem codecRelease_free (s : State) (g : Nat) : dieHolds (codecRelease s g) 3 g = false := by
  refine (dieHolds_congr (s := dieRelease s 3 g) (setFlag_same _ _ _ _).pwr _ _).trans ?_
  have hleft : (dieRelease s 3 g).pwr.die = s.pwr.die.filter (fun e => !(e.op == 3 && e.unit == g)) := rfl
  rw [dieHolds, hleft, List.any_filter, List.any_eq_false]
  intro e _
  cases (e.op == 3 && e.unit == g) <;> decide

theorem codecShow_only (s : State) (g used made : Nat) (st : Status) (check : Nat) :
    Only [.regs] (fun a => decide (CMP_G_IN_LO g ≤ a) && decide (a ≤ CMP_G_STS g)) s (codecShow s g used made st check) := by
  have hin : ∀ a, CMP_G_IN_LO g ≤ a → a ≤ CMP_G_STS g → (decide (CMP_G_IN_LO g ≤ a) && decide (a ≤ CMP_G_STS g)) = true := fun a h1 h2 => by simp [h1, h2]
  have hsts := hin (CMP_G_STS g) (by simp only [CMP_G_IN_LO, CMP_G_STS]; omega) (le_refl _)
  exact Only.setFld (Only.setFld (Only.wr64 (Only.wr64 (Only.refl _ _ s)
    (hin _ (le_refl _) (by simp only [CMP_G_IN_LO, CMP_G_STS]; omega)) (hin _ (by simp only [CMP_G_IN_LO, CMP_G_IN_HI]; omega) (by simp only [CMP_G_IN_HI, CMP_G_STS]; omega)))
    (hin _ (by simp only [CMP_G_IN_LO, CMP_G_OUT_LO]; omega) (by simp only [CMP_G_OUT_LO, CMP_G_STS]; omega))
    (hin _ (by simp only [CMP_G_IN_LO, CMP_G_OUT_HI]; omega) (by simp only [CMP_G_OUT_HI, CMP_G_STS]; omega))) hsts) hsts

theorem codecShow_sts (s : State) (g used made : Nat) (st : Status) (check : Nat) : rd (codecShow s g used made st check) CMP_STS = rd s CMP_STS :=
  (codecShow_only s g used made st check).regs _ (Bool.and_eq_false_iff.mpr (.inl (decide_eq_false (by simp only [CMP_STS, CMP_G_IN_LO]; omega))))

/-! ### The start of a job -/

/-- A codec with the job that starts on it (R507, R515). -/
def jobStarted (s : State) (g : Nat) (j : Job) : State :=
  let s := if j.rate = 0 then codecTake s g else s
  let s := codecShow s g 0 0 .ok 0
  setCodecSt { s with jobs := mset s.jobs g j } g (if j.comp then 1 else 2)

theorem jobStarted_effect (s : State) (hg : g < 2) (j : Job) :
    let u := jobStarted s g j
    codecSt u g = (if j.comp then 1 else 2) ∧ jobOf u g = some j ∧ (j.rate = 0 → dieHolds u 3 g = true) ∧ Same [.regs, .pwr, .jobs] s u := by
  let b := if j.rate = 0 then codecTake s g else s
  let d := codecShow b g 0 0 .ok 0
  let e : State := { d with jobs := mset d.jobs g j }
  have hb : Same [.regs, .pwr] s b := by
    simp only [b]
    split
    · exact codecTake_same _ _
    · exact Same.refl _ _
  have hd : Same [.regs] b d := (codecShow_only _ _ _ _ _ _).same
  have he : Same [.jobs] d e := jobs_changed _ _
  have hu := setFld_same e CMP_STS (3 + 4 * g) (4 * g) (if j.comp then 1 else 2)
  refine ⟨codecSt_setCodecSt e hg (by split <;> decide), (jobOf_congr hu.jobs).trans (jobOf_set d g j), fun hrate => ?_, ?_⟩
  · refine (dieHolds_congr (hu.pwr.trans (he.pwr.trans hd.pwr)) 3 g).trans ?_
    rw [show b = codecTake s g from if_pos hrate]
    exact codecTake_holds _ _
  · exact (hb.mono (by decide)).trans ((hd.mono (by decide)).trans ((he.mono (by decide)).trans (hu.mono (by decide))))

/-- A job whose settings pass their checks starts on its idle codec. -/
theorem jobStart_runs {h : Issue} {c : Instr} {op : Nat} (hs : Starts s h 48) (hp : Spelled s h op c) (hg : g < 2) (hon : domOn (accept s h) 10 = true)
    (hparams : jobParams h j = true) (hgrant : j.rate = 0 → dieGrants (accept s h) 3 = true) (hidle : codecSt (accept s h) g = 0)
    (hin : j.inSpace = 1 → dramOk (accept s h) j.inAddr j.inLen = true) (hout : j.outSpace = 1 → dramOk (accept s h) j.outAddr j.outLen = true) :
    whileClocked s (fun s => jobStart h c op g j s) = .next (holding s (startRun (jobStarted (accept s h) g j) h op g [])) := by
  have hranges := hparams
  simp only [jobParams, Bool.and_eq_true, decide_eq_true_eq] at hranges
  obtain ⟨⟨⟨⟨⟨⟨⟨⟨-, -⟩, hrate⟩, hin2⟩, hout2⟩, -⟩, -⟩, -⟩, -⟩ := hranges
  have hspace : ∀ {sp : Nat} {ok : Bool}, sp < 2 → (sp = 1 → ok = true) → (sp == 0 || ok) = true := fun {sp ok} h2 h1 => by
    rcases Nat.eq_zero_or_pos sp with rfl | hpos
    · rfl
    · rw [h1 (by omega), Bool.or_true]
  have hrated : (j.rate == 1 || dieGrants (accept s h) 3) = true := by
    rcases Nat.eq_zero_or_pos j.rate with h0 | hpos
    · rw [hgrant h0, Bool.or_true]
    · rw [show j.rate = 1 by omega]; rfl
  unfold jobStart
  rw [starts_body hs hp (by
    simp only [List.mem_cons, List.not_mem_nil, or_false, forall_eq_or_imp, forall_eq]
    exact ⟨by rw [decide_eq_true hg, hparams]; rfl, hon, hrated, by rw [hidle]; rfl, by rw [hspace hin2 hin, hspace hout2 hout]; rfl⟩)]
  rfl

/-! ### The end of a job -/

theorem finishJob_ended (s : State) (g : Nat) (st : Status) (r0 r1 r2 ex : Nat) : Ended s (finishJob s g st r0 r1 r2 ex) :=
  (finishRun_ended _ _ _ _ _ _ _ _).trans ((finishRun_ended _ _ _ _ _ _ _ _).trans (finishRun_ended _ _ _ _ _ _ _ _))

/-- A job that does not fill its output leaves its codec idle and its grant released (R508). -/
theorem jobEnd_effect (s : State) (hg : g < 2) {st : Status} (hst : st ≠ .outputFull) (used made crc check : Nat) :
    let u := jobEnd s g st used made crc check
    codecSt u g = 0 ∧ dieHolds u 3 g = false ∧ Same (.pwr :: .jobs :: .running :: endParts) s u := by
  intro u
  let b := codecShow s g used made st check
  let d := setCodecSt (codecRelease b g) g 0
  let e : State := { d with jobs := mdel d.jobs g }
  have hfull : (st == Status.outputFull) = false := beq_false_of_ne hst
  have hu : u = finishJob e g st used made crc check := by
    simp only [u, jobEnd, hfull]
    rfl
  have hfin := finishJob_ended e g st used made crc check
  have hset := setFld_same (codecRelease b g) CMP_STS (3 + 4 * g) (4 * g) 0
  have he : Same [.jobs] d e := jobs_changed _ _
  rw [hu]
  refine ⟨?_, ?_, ?_⟩
  · rw [codecSt_congr (hfin.regs _ (endReg_ax (.inl (by decide)))), codecSt_congr (he.rd _)]
    exact codecSt_setCodecSt _ hg (by decide)
  · rw [dieHolds_congr (hfin.same.pwr.trans (he.pwr.trans hset.pwr))]
    exact codecRelease_free _ _
  · exact ((codecShow_only _ _ _ _ _ _).same.mono (by decide)).trans (((codecRelease_same b g).mono (by decide)).trans
      ((hset.mono (by decide)).trans ((he.mono (by decide)).trans (hfin.same.mono (by decide)))))

theorem jobOut_dram {o : List Byte} (hspace : j.outSpace = 1) (hfresh : j.written = 0) (hfits : o.length ≤ j.outLen) (hok : dramOk s j.outAddr o.length = true) :
    jobOut s j o = putDram s j.outAddr o := by
  rw [jobOut, hspace, hfresh, List.drop_zero, List.take_of_length_le hfits]
  exact if_pos hok

theorem jobRun_fits {data : List Byte} (hcomp : j.comp = true) (hspace : j.outSpace = 1) (hfresh : j.written = 0)
    (hfits : (compAll j data).length ≤ j.outLen) (hok : dramOk s j.outAddr (compAll j data).length = true) :
    jobRun s g j data = jobEnd (putDram s j.outAddr (compAll j data)) g .ok j.inLen (compAll j data).length (crc32 data) 0 := by
  unfold jobRun
  dsimp only
  rw [if_pos hcomp, jobOut_dram hspace hfresh hfits hok, if_neg (by omega)]

theorem exec_codecJobEnd (hclk : Clocked s) (hjob : jobOf s g = some j) (hruns : codecRuns s g = true)
    (hheld : j.inSpace = 0 ∨ j.outSpace = 0 → canRequest s = true) (cause used : Nat) :
    exec (.codecJobEnd g cause used) s = .next (holding s (
      match jobInput s j with
      | none => jobBreak s g .dmaError
      | some data =>
        if cause = 0 then jobRun s g j data
        else
          let d := data.take used
          let made := if j.comp then (compAll j data).take (j.written + Config.freeNat s.freeCtr % (j.outLen + 1))
                      else (expand j.format 255 65535 false d).out
          let s := jobOut (tick1 s) j made
          jobEnd s g (if cause = 1 then .dataCrc else .dmaError) d.length made.length (crc32 (if j.comp then d else made)) 0)) := by
  have hgo : ¬((decide (j.inSpace = 0) || decide (j.outSpace = 0)) && !canRequest s) = true := by
    simp only [Bool.and_eq_true, Bool.or_eq_true, decide_eq_true_eq, Bool.not_eq_true']
    rintro ⟨hspace, hno⟩
    rw [hheld hspace] at hno
    exact Bool.noConfusion hno
  show execCodecJobEnd g cause used s = _
  rw [execCodecJobEnd, whileClocked_running _ hclk, hjob]
  dsimp only
  rw [if_neg (by rw [hruns]; decide), if_neg hgo] <;> rfl

end

theorem codecCommands : Claim.CodecCommands := by
  intro s h g hs hg a hon
  refine ⟨fun format level rate inSpace outSpace inAddr outAddr inLen outLen => ?compress, fun format rate inSpace outSpace inAddr outAddr inLen outLen ratio cap => ?decompress,
    fun used hst hstream hp => ?flushRec, fun used j data hst hjob hinput hflushes hfresh hspace hused hp => ?flushJob,
    fun j hst hjob => ⟨fun hp => ?drop, fun outAddr outLen hlen hok hp => ?resume⟩⟩
  case compress =>
    intro j hparams hgrant hidle hin hout hp
    obtain ⟨hst, hjob, hholds, hsame⟩ := jobStarted_effect a hg j
    exact ⟨jobStarted a g j, jobStart_runs hs hp hg hon hparams hgrant hidle hin hout, hst, hjob, hholds, same_memory hsame, hsame.lanes⟩
  case decompress =>
    intro j hparams hgrant hidle hin hout hp
    obtain ⟨hst, hjob, hholds, hsame⟩ := jobStarted_effect a hg j
    exact ⟨jobStarted a g j, jobStart_runs hs hp hg hon hparams hgrant hidle hin hout, hst, hjob, hholds, same_memory hsame, hsame.lanes⟩
  case flushRec =>
    have hon' : domOn (accept s h) 10 = true := hon
    have hst' : codecSt (accept s h) g = 4 := hst
    have hstream' : (accept s h).recording.stream = true := hstream
    show execCodecFlush h g used s = _
    rw [execCodecFlush, starts_body hs hp (by simp [hg, hon', hst', hstream'])]
    exact congrArg (fun t => Host.Outcome.next (holding s t)) (if_pos hst')
  case flushJob =>
    intro segs hfits hok
    have hon' : domOn (accept s h) 10 = true := hon
    have hst' : codecSt (accept s h) g = 1 := hst
    let o := frameHead j.format j.level ++ segs
    let b := putDram a j.outAddr o
    let d : State := { b with jobs := mset b.jobs g { j with segs := segs, flushes := [used] } }
    let e := codecShow d g used o.length .ok 0
    have hb : Same [.dram] a b := putDram_same _ _ _
    have hd : Same [.jobs] b d := jobs_changed _ _
    have he : Same [.regs] d e := (codecShow_only _ _ _ _ _ _).same
    have hall : Same [.dram, .jobs, .regs] a e := (hb.mono (by decide)).trans ((hd.mono (by decide)).trans (he.mono (by decide)))
    have hk : (if used < 0 then 0 else satN j.inLen used) = used := by
      rw [if_neg (Nat.not_lt_zero _), satN]
      split <;> omega
    refine ⟨e, ?_, (jobOf_congr he.jobs).trans (jobOf_set b g _), ?_, he.dram, hall.sram, hall.lanes⟩
    · show execCodecFlush h g used s = _
      have hjob' : jobOf (accept s h) g = some j := hjob
      have hinput' : jobInput (accept s h) j = some data := hinput
      rw [execCodecFlush, starts_body hs hp (by simp [hg, hon', hst'])]
      rw [if_neg (by rw [hst']; decide), hjob']
      dsimp only
      rw [hinput']
      dsimp only
      rw [hflushes, List.foldl_nil, hk, List.nil_append, jobOut_dram hspace hfresh hfits hok, if_neg (by rw [hfresh, Nat.zero_add]; exact Nat.not_lt.mpr hfits)]
    · rw [codecSt_congr (codecShow_sts _ _ _ _ _ _), codecSt_congr (hd.rd _), codecSt_congr (hb.rd _)]
      exact hst
  case drop =>
    have hon' : domOn (accept s h) 10 = true := hon
    have hst' : codecSt (accept s h) g = 3 := hst
    have hjob' : jobOf (accept s h) g = some j := hjob
    let b : State := { a with jobs := mdel a.jobs g }
    let d := setCodecSt b g 0
    have hb : Same [.jobs] a b := jobs_changed _ _
    have hd : ∀ r, r ≠ CMP_STS → rd d r = rd a r := fun r hr => (rd_setFld_other _ _ _ hr).trans (hb.rd r)
    have hall : Same [.jobs, .regs] a d := (hb.mono (by decide)).trans ((setFld_same b _ _ _ _).mono (by decide))
    refine ⟨d, ?_, codecSt_setCodecSt b hg (by decide), hd, same_memory hall⟩
    show execCodecResume h g 1 0 0 0 0 s = _
    rw [execCodecResume, starts_body hs hp (by simp [hg, hon', hst']), hjob']
    dsimp only
    rw [if_pos rfl, ← rdN_congr (hd (CMP_G_IN_LO g) (by simp only [CMP_G_IN_LO, CMP_STS]; omega)), ← rdN_congr (hd (CMP_G_OUT_LO g) (by simp only [CMP_G_OUT_LO, CMP_STS]; omega))]
  case resume =>
    have hon' : domOn (accept s h) 10 = true := hon
    have hst' : codecSt (accept s h) g = 3 := hst
    have hjob' : jobOf (accept s h) g = some j := hjob
    have hok' : dramOk (accept s h) outAddr outLen = true := hok
    let b : State := { a with jobs := mset a.jobs g { j with rate := 1, outSpace := 1, outAddr := outAddr, outLen := outLen } }
    have hb : Same [.jobs] a b := jobs_changed _ _
    have hset := setFld_same b CMP_STS (3 + 4 * g) (4 * g) (if j.comp then 1 else 2)
    have hall : Same [.jobs, .regs] a (setCodecSt b g (if j.comp then 1 else 2)) := (hb.mono (by decide)).trans (hset.mono (by decide))
    refine ⟨setCodecSt b g (if j.comp then 1 else 2), ?_, codecSt_setCodecSt b hg (by split <;> decide), (jobOf_congr hset.jobs).trans (jobOf_set a g _), same_memory hall⟩
    show execCodecResume h g 0 1 1 outAddr outLen s = _
    rw [execCodecResume, starts_body hs hp (by simp [hg, hon', hst', hlen, hok']), hjob']
    rfl

theorem codecWork : Claim.CodecWork := by
  intro s g hclk hg
  refine ⟨fun j data used hjob hst hheld hinput => ?runs, fun j data hjob hst hin hout hinput hcomp hfresh hfits hok => ?fits,
    fun j cause used hjob hruns hheld hinput => ?broken, fun hdef hstream hdue => ?flush, fun hearly => ?early, fun hi hon => ?read, fun hi hoff => ?off⟩
  case runs =>
    rw [exec_codecJobEnd hclk hjob (by rcases hst with h | h <;> simp [codecRuns, h]) hheld, hinput]
    rfl
  case fits =>
    have hput := putDram_same (s := s) j.outAddr (compAll j data)
    obtain ⟨hidle, hfree, hsame⟩ := jobEnd_effect (putDram s j.outAddr (compAll j data)) hg (st := .ok) (by decide) j.inLen (compAll j data).length (crc32 data) 0
    refine ⟨_, ?_, hidle, hfree, hsame.dram, hsame.sram.trans hput.sram, hsame.lanes.trans hput.lanes, hsame.seq.trans hput.seq⟩
    rw [exec_codecJobEnd hclk hjob (by simp [codecRuns, hst]) (by omega), hinput]
    dsimp only
    rw [if_pos rfl, jobRun_fits hcomp hout hfresh hfits hok]
  case broken => rw [exec_codecJobEnd hclk hjob hruns hheld, hinput]
  case flush =>
    show execRecordingFlush s = _
    rw [execRecordingFlush, whileClocked_running _ hclk, if_pos (by rw [hdef, hstream, hdue]; rfl)]
  case early =>
    show execRecordingFlush s = _
    rw [execRecordingFlush, whileClocked_running _ hclk, if_neg (by rw [hearly, Bool.and_false]; decide)]
  case read =>
    show execCmpRecReadHi hi s = _
    rw [execCmpRecReadHi, whileClocked_running _ hclk, if_neg (by rw [hon]; decide)]
  case off =>
    show execCmpRecReadHi hi s = _
    rw [execCmpRecReadHi, whileClocked_running _ hclk, if_pos (by rw [hoff]; rfl)]

/-- Settles O55: the commands of the codecs, and their work and the recording's. -/
theorem codecs : Obligations.Codecs := ⟨codecCommands, codecWork⟩

end Sys2Proof.Proofs

/-! PROOFS. The DRAM channels (R471 to R487). -/

namespace Sys2Proof.Proofs

-- One theorem after the other: elaborated at once, their threads outgrow the memory that a check may take.
set_option Elab.async false

open Sys2Proof.Machine Sys2Proof.Laws

section
variable {s t : State} {c : Nat}

/-! ### A channel's state -/

theorem chState_congr (h : rd t DDR_STS = rd s DDR_STS) : chState t c = chState s c := fld_congr h _ _

theorem chState_setChState (s : State) (hc : c < 2) {v : Nat} (hv : v < 16) : chState (setChState s c v) c = v :=
  fld_setFld_fits (by rw [show 15 + 4 * c - (12 + 4 * c) + 1 = 4 by omega]; exact hv) (by omega) (by omega)

theorem dramCh_setDramCh (s : State) (c : Nat) (d : DramCh) : dramCh (setDramCh s c d) c = d := mget_mset_same _ _ _ _

theorem dramCh_congr (h : t.dramCh = s.dramCh) (c : Nat) : dramCh t c = dramCh s c := congrArg (fun m => mget DramCh.reset m c) h

theorem setDramCh_same (s : State) (c : Nat) (d : DramCh) : Same [.dramCh] s (setDramCh s c d) := fun q hq => by
  cases q <;> first | rfl | exact absurd (by decide) hq

theorem throttleShow_only (s : State) (c : Nat) : Only [.regs] (fun a => a == DDR_THROTTLE_ACT) s (throttleShow s c) := Only.setFld (Only.refl _ _ s)

theorem loseChannel_same (s : State) (c : Nat) : Same [.dramLost, .dram, .freeCtr] s (loseChannel s c) := by
  unfold loseChannel
  split <;> exact loseDram_same _ _ _ _

theorem dieTake_same (s : State) (op u : Nat) : Same [.regs, .pwr] s (dieTake s op u) := by
  have htaken : Same [.pwr] s { s with pwr := { s.pwr with die := s.pwr.die ++ [⟨op, u, dieCost op⟩] } } := fun q hq => by
    cases q <;> first | rfl | exact absurd (by decide) hq
  exact (htaken.mono (by decide)).trans (((setFld_same _ _ _ _ _).trans (setFld_same _ _ _ _ _)).mono (by decide))

theorem dieRelease_rd (s : State) (op u : Nat) {a : Nat} (h : a ≠ PWR_DIE_STS) : rd (dieRelease s op u) a = rd s a := dieShow_rd h

theorem dieRelease_free (s : State) (op u : Nat) : dieHolds (dieRelease s op u) op u = false := by
  have hleft : (dieRelease s op u).pwr.die = s.pwr.die.filter (fun e => !(e.op == op && e.unit == u)) := rfl
  rw [dieHolds, hleft, List.any_filter, List.any_eq_false]
  intro e _
  cases (e.op == op && e.unit == u) <;> decide

/-! ### Training -/

/-- A channel whose training has begun (R474). -/
def trainingBegun (s : State) (c : Nat) : State :=
  let s := loseChannel (dieTake s 0 c) c
  let s := setDramCh (setChState s c chTraining) c { DramCh.reset with window := s.freeCtr }
  throttleShow (setFlag s (DDR_CH_TRAIN c) 31 false) c

theorem trainingBegun_effect (s : State) (hc : c < 2) :
    let u := trainingBegun s c
    chState u c = chTraining ∧ dieHolds u 0 c = true ∧ flag u (DDR_CH_TRAIN c) 31 = false ∧ Same [.regs, .pwr, .dramLost, .dram, .freeCtr, .dramCh] s u := by
  let b := loseChannel (dieTake s 0 c) c
  let d := setChState b c chTraining
  let e := setDramCh d c { DramCh.reset with window := b.freeCtr }
  let f := setFlag e (DDR_CH_TRAIN c) 31 false
  have htrain : DDR_STS ≠ DDR_CH_TRAIN c := by simp only [DDR_STS, DDR_CH_TRAIN]; omega
  have hact : DDR_CH_TRAIN c ≠ DDR_THROTTLE_ACT := by simp only [DDR_CH_TRAIN, DDR_THROTTLE_ACT]; omega
  have hb := loseChannel_same (dieTake s 0 c) c
  have hd : Same [.regs] b d := setFld_same _ _ _ _ _
  have he : Same [.dramCh] d e := setDramCh_same _ _ _
  have hf : Same [.regs] e f := setFlag_same _ _ _ _
  have hu := throttleShow_only f c
  refine ⟨?_, ?_, ?_, ?_⟩
  · rw [show trainingBegun s c = throttleShow f c from rfl, chState_congr (hu.regs _ (by decide)), chState_congr (rd_setFlag_other _ _ htrain), chState_congr (he.rd _)]
    exact chState_setChState b hc (by decide)
  · rw [show trainingBegun s c = throttleShow f c from rfl, dieHolds_congr (hu.same.pwr.trans (hf.pwr.trans (he.pwr.trans (hd.pwr.trans hb.pwr))))]
    exact dieTake_holds _ _ _
  · exact (flag_congr (hu.regs _ (beq_false_of_ne hact)) _).trans (flag_setFlag_same _ _ _ (by decide))
  · exact ((dieTake_same s 0 c).mono (by decide)).trans ((hb.mono (by decide)).trans ((hd.mono (by decide)).trans
      ((he.mono (by decide)).trans ((hf.mono (by decide)).trans (hu.same.mono (by decide))))))

/-- A channel whose training has passed (R473). -/
def trainingPassed (s : State) (c : Nat) : State :=
  let s := setFlag (setChState (dieRelease s 0 c) c chTrained) (DDR_CH_TRAIN c) 31 true
  { s with dirty := natSet s.dirty 12 }

/-- A channel whose training has failed at a step on some byte lanes (R474). -/
def trainingFailed (s : State) (c step lanes : Nat) : State :=
  setFld (setFld (setChState (dieRelease s 0 c) c chFailed) (DDR_CH_TRAIN c) 23 16 step) (DDR_CH_TRAIN c) 8 0 lanes

theorem trainingPassed_effect (s : State) (hc : c < 2) :
    let u := trainingPassed s c
    chState u c = chTrained ∧ flag u (DDR_CH_TRAIN c) 31 = true ∧ dieHolds u 0 c = false ∧ u.dirty.testBit 12 = true ∧ Same [.regs, .pwr, .dirty] s u := by
  let b := setChState (dieRelease s 0 c) c chTrained
  let d := setFlag b (DDR_CH_TRAIN c) 31 true
  have htrain : DDR_STS ≠ DDR_CH_TRAIN c := by simp only [DDR_STS, DDR_CH_TRAIN]; omega
  have hd : Same [.regs] (dieRelease s 0 c) d := (setFld_same _ _ _ _ _).trans (setFlag_same _ _ _ _)
  have hu : Same [.dirty] d (trainingPassed s c) := fun q hq => by cases q <;> first | rfl | exact absurd (by decide) hq
  refine ⟨?_, ?_, ?_, natSet_testBit_same _ _, ?_⟩
  · rw [chState_congr (hu.rd _), chState_congr (rd_setFlag_other _ _ htrain)]
    exact chState_setChState _ hc (by decide)
  · exact (flag_congr (hu.rd _) _).trans (flag_setFlag_same _ _ _ (by decide))
  · exact (dieHolds_congr (hu.pwr.trans hd.pwr) 0 c).trans (dieRelease_free s 0 c)
  · exact ((dieRelease_same s 0 c).mono (by decide)).trans ((hd.mono (by decide)).trans (hu.mono (by decide)))

theorem trainingFailed_effect (s : State) (hc : c < 2) {step lanes : Nat} (hstep : step < 256) (hlanes : lanes < 512) :
    let u := trainingFailed s c step lanes
    chState u c = chFailed ∧ fld u (DDR_CH_TRAIN c) 23 16 = step ∧ fld u (DDR_CH_TRAIN c) 8 0 = lanes ∧ dieHolds u 0 c = false := by
  let b := setChState (dieRelease s 0 c) c chFailed
  have htrain : DDR_STS ≠ DDR_CH_TRAIN c := by simp only [DDR_STS, DDR_CH_TRAIN]; omega
  have hu : Same [.regs] (dieRelease s 0 c) (trainingFailed s c step lanes) :=
    (setFld_same _ _ _ _ _).trans ((setFld_same _ _ _ _ _).trans (setFld_same _ _ _ _ _))
  refine ⟨?_, ?_, fld_setFld_fits hlanes, (dieHolds_congr hu.pwr 0 c).trans (dieRelease_free s 0 c)⟩
  · exact (chState_congr ((rd_setFld_other _ _ _ htrain).trans (rd_setFld_other _ _ _ htrain))).trans (chState_setChState _ hc (by decide))
  · exact (fld_setFld_apart (DDR_CH_TRAIN c) 8 0 _ 23 16 (by decide) (by decide) (by decide)).trans (fld_setFld_fits hstep)

theorem exec_trainingEnd (hclk : Clocked s) (hst : chState s c = chTraining) (us step lanes : Nat) :
    exec (.trainingEnd c 0 us step lanes) s = .next (holding s (finishRun (trainingPassed s c) 0x0901 c .ok us 0 (rdN s (DDR_CH_CAP c)) 0)) ∧
    (step < 256 → lanes < 512 → exec (.trainingEnd c 1 us step lanes) s =
      .next (holding s (finishRun (trainingFailed s c step lanes) 0x0901 c .cfgRejected us (step * 65536 + lanes) (rdN s (DDR_CH_CAP c)) 0))) := by
  have hcap : rdN (dieRelease s 0 c) (DDR_CH_CAP c) = rdN s (DDR_CH_CAP c) :=
    rdN_congr (dieRelease_rd s 0 c (by simp only [DDR_CH_CAP, PWR_DIE_STS]; omega))
  refine ⟨?_, fun hstep hlanes => ?_⟩
  · show execTrainingEnd c 0 us step lanes s = _
    rw [execTrainingEnd, whileClocked_running _ hclk, if_neg (not_not_intro hst)]
    dsimp only
    rw [if_pos rfl, hcap]
    rfl
  · have hs8 : natBits step 7 0 = step := Nat.mod_eq_of_lt (by simpa using hstep)
    have hl9 : natBits lanes 8 0 = lanes := Nat.mod_eq_of_lt (by simpa using hlanes)
    show execTrainingEnd c 1 us step lanes s = _
    rw [execTrainingEnd, whileClocked_running _ hclk, if_neg (not_not_intro hst)]
    dsimp only
    rw [if_neg (by decide), if_pos rfl, if_pos rfl, hs8, hl9, hcap]
    rfl

/-! ### DDR_CONFIG -/

/-- The fields of a DDR5 channel that DDR_CONFIG stages (R475). -/
def channelFields (c rate ranks module_ width density : Nat) : List (Nat × Nat × Nat × Nat) :=
  let a := DDR_CH_CFG c
  [(a, 31, 16, rate), (a, 13, 12, 2), (a, 9, 9, module_), (a, 8, 8, ranks - 1), (a, 7, 6, if width = 4 then 0 else if width = 8 then 1 else 2), (a, 5, 0, density)]

/-- The fields of the device that DDR_CONFIG stages (R475). -/
def deviceFields (map_ scrubHours ageNs actLimit thresh scrubMs : Nat) : List (Nat × Nat × Nat × Nat) :=
  [(DDR_CFG, 31, 24, scrubHours), (DDR_CFG, 16, 16, map_), (DDR_CFG, 15, 0, ageNs), (DDR_RD_CFG, 15, 0, actLimit), (SRAM_CFG, 23, 16, thresh), (SRAM_CFG, 15, 0, scrubMs)]

theorem rates_small {rate : Nat} (h : (ratesOf 1 ++ ratesOf 2).contains rate = true) : rate < 2 ^ 16 := by
  have : ∀ r ∈ ratesOf 1 ++ ratesOf 2, r < 2 ^ 16 := by decide
  exact this rate (by simpa using h)

theorem densities_small {density : Nat} (h : (densitiesOf 1 ++ densitiesOf 2).contains density = true) : density < 2 ^ 6 := by
  have : ∀ r ∈ densitiesOf 1 ++ densitiesOf 2, r < 2 ^ 6 := by decide
  exact this density (by simpa using h)

/-! ### Requests and maintenance -/

theorem exec_dramRequest_idle (hclk : Clocked s) (hready : chReady s c = false) (q : DramAsk) (ecc : Nat) :
    exec (.dramRequest c [q] [] ecc) s = .next (holding s (if q.isWrite then s else uncorrectable s q.who q.addr)) := by
  show execDramRequest c [q] [] ecc s = _
  rw [execDramRequest, whileClocked_running _ hclk, if_pos (by rw [hready]; rfl)]
  rfl

/-- A write on its requester's port is visible at once, and waits as the one request of its channel (R478, R479). -/
theorem arrive_write {q : DramAsk} (hempty : (dramCh s c).reqs = []) (hw : q.isWrite = true) (hchan : chanOf s q.addr = c) (hport : portOf q.who true = some q.port) :
    arrive s c q = setDramCh (putDram s q.addr q.data) c { dramCh s c with reqs := [⟨q.port, true, q.addr, now s, 0, q.who⟩] } := by
  have hnow : now (putDram s q.addr q.data) = now s := now_of_regs rfl
  unfold arrive
  dsimp only
  rw [hw, hempty, if_neg (by simp [hchan, hport])]
  simp [hnow]

theorem bestReq_nil (s : State) (c : Nat) : bestReq s c [] = none := by
  have hnone : (List.range 8).find? (fun p => ([] : List DramReq).any (fun r => r.port == p)) = none := List.find?_eq_none.mpr fun _ _ => Bool.noConfusion
  rw [bestReq, hnone]
  rfl

/-- A channel with one write, which the memory's timing holds back, issues nothing. -/
theorem exec_dramRequest_held (hclk : Clocked s) (hready : chReady s c = true) {q : DramAsk} {r : DramReq} {t : State} (harrive : arrive s c q = t)
    (hreqs : (dramCh t c).reqs = [r]) : exec (.dramRequest c [q] [0] 0) s = .next (holding s (if (dramCh t c).draining then tick1 t else t)) := by
  show execDramRequest c [q] [0] 0 s = _
  rw [execDramRequest, whileClocked_running _ hclk, if_neg (by rw [hready]; decide)]
  rw [List.foldl_cons, List.foldl_nil, harrive]
  dsimp only
  rw [hreqs]
  have hnone : ([r].zip (List.range [r].length)).filter (fun p => !([0] : List Nat).contains p.2 && !heldBack t c p.1 && !behind (dramCh t c) p.2 p.1) = [] := by
    simp [List.range_succ]
  rw [hnone]
  simp only [List.map_nil, List.filter_nil, List.isEmpty_nil, Bool.not_true, Bool.and_false, Bool.false_eq_true, if_false, bestReq_nil]

/-- The rank of a channel of one rank has been read (R480). -/
def rankRead (s : State) (c hot : Nat) : State :=
  let was := fld s (DDR_CH_TEMP c) 1 0
  let is := b2n (hot.testBit 0)
  let s := setFld s (DDR_CH_TEMP c) 1 0 is
  if (was == 1) == (is == 1) then s else event s (srcDdr c) 0x1801 (leBytes 1 c ++ leBytes 1 0)

theorem rankRead_only (s : State) (c hot : Nat) : Only [.regs, .evr, .freeCtr] evrReg (setFld s (DDR_CH_TEMP c) 1 0 (b2n (hot.testBit 0))) (rankRead s c hot) :=
  Only.ite (Only.refl _ _ _) (event_only _ _ _ _)

theorem rankRead_temp (s : State) (hc : c < 2) (hot : Nat) : fld (rankRead s c hot) (DDR_CH_TEMP c) 1 0 = b2n (hot.testBit 0) := by
  have hreg : evrReg (DDR_CH_TEMP c) = false := by
    simp only [evrReg, Bool.or_eq_false_iff, beq_eq_false_iff_ne]
    simp only [DDR_CH_TEMP, EVR_SEQ, EVR_STS, EVR_LOST]
    omega
  exact (fld_congr ((rankRead_only s c hot).regs _ hreg) _ _).trans (fld_setFld_fits (by cases hot.testBit 0 <;> decide))

theorem rankRead_same (s : State) (c hot : Nat) : Same [.regs, .evr, .freeCtr] s (rankRead s c hot) :=
  ((setFld_same _ _ _ _ _).mono (by decide)).trans (rankRead_only s c hot).same

end

theorem dramCommands : Claim.DramCommands := by
  refine ⟨fun s h hs => ?_, fun s c us step lanes hclk hc hst => ⟨?passed, fun hstep hlanes => ?failed⟩⟩
  · intro a
    refine ⟨fun c hc hon hcfg hself htrain hjob hgrant hp => ?train, fun c rate ranks module_ width density hc hrate hranks hmodule hwidth hdensity hp => ?channel,
      fun map_ scrubHours ageNs actLimit thresh scrubMs hmap hsh1 hsh2 hage1 hage2 hact1 hact2 hth1 hth2 hms1 hms2 hp => ?device⟩
    case train =>
      have hon' : domOn (accept s h) (11 + c) = true := hon
      have hcfg' : chState (accept s h) c ≠ chUnconfigured := hcfg
      have hself' : chState (accept s h) c ≠ chSelfRefresh := hself
      have htrain' : chState (accept s h) c ≠ chTraining := htrain
      have hjob' : (accept s h).seq.job = none := hjob
      have hgrant' : dieGrants (accept s h) 0 = true := hgrant
      obtain ⟨hst, hholds, hflag, hsame⟩ := trainingBegun_effect a hc
      refine ⟨trainingBegun a c, ?_, hst, hholds, hflag, hsame.sram, hsame.host, hsame.lanes⟩
      show execDdrTrain h c s = _
      rw [execDdrTrain, starts_body hs hp (by simp [hc, hon', hcfg', hself', htrain', hjob', hgrant'])]
      rfl
    case channel =>
      let fields := channelFields c rate ranks module_ width density
      have hst := staged_same a 12 fields
      have hrate' := rates_small hrate
      have hdensity' := densities_small hdensity
      have hbits : ∀ {i hi lo v : Nat}, hi < 32 → lo ≤ hi → fields[i]? = some (DDR_CH_CFG c, hi, lo, v) → (∀ w ∈ fields.drop (i + 1), apartFrom (DDR_CH_CFG c) hi lo w) →
          v < 2 ^ (hi - lo + 1) → bitsOf (shadowOf (staged a 12 fields) (DDR_CH_CFG c)) hi lo = v := fun hhi hlo hat hapart hv =>
        (staged_field a 12 _ hhi hlo hat hapart).trans (Nat.mod_eq_of_lt hv)
      refine ⟨staged a 12 fields, ?_, hbits (i := 0) (by decide) (by decide) rfl (by simp [fields, channelFields, apartFrom]) hrate',
        hbits (i := 1) (by decide) (by decide) rfl (by simp [fields, channelFields, apartFrom]) (by decide),
        hbits (i := 3) (by decide) (by decide) rfl (by simp [fields, channelFields, apartFrom]) (by omega),
        hbits (i := 5) (by decide) (by decide) rfl (by simp [fields, channelFields]) hdensity', staged_dirty _ _ (List.cons_ne_nil _ _), hst.regs, same_memory hst⟩
      have hne : c ≠ 0xFF := by omega
      have hwidth' : (width == 8 || width == 16 || (width == 4 && module_ == 1)) = true := by rcases hwidth with rfl | rfl <;> rfl
      have hranks' : (ranks == 1 || ranks == 2) = true := by rcases hranks with rfl | rfl <;> rfl
      show execDdrConfig h c 2 rate ranks module_ width density 0 0 0 0 0 0 s = _
      rw [execDdrConfig]
      dsimp only
      rw [starts_body hs hp (by
        simp only [List.mem_cons, List.not_mem_nil, or_false, forall_eq]
        rw [if_neg hne, if_neg (by decide), hrate, hdensity, hwidth', hranks', decide_eq_true hc, decide_eq_true hmodule]
        rfl)]
      rw [if_neg hne, if_neg (by decide)]
      rfl
    case device =>
      let fields := deviceFields map_ scrubHours ageNs actLimit thresh scrubMs
      have hst := staged_same a 12 fields
      have hbits : ∀ {i r hi lo v : Nat}, hi < 32 → lo ≤ hi → fields[i]? = some (r, hi, lo, v) → (∀ w ∈ fields.drop (i + 1), apartFrom r hi lo w) →
          v < 2 ^ (hi - lo + 1) → bitsOf (shadowOf (staged a 12 fields) r) hi lo = v := fun hhi hlo hat hapart hv =>
        (staged_field a 12 _ hhi hlo hat hapart).trans (Nat.mod_eq_of_lt hv)
      refine ⟨staged a 12 fields, ?_,
        hbits (i := 0) (by decide) (by decide) rfl (by simp [fields, deviceFields, apartFrom, DDR_CFG, DDR_RD_CFG, SRAM_CFG]) hsh2,
        hbits (i := 1) (by decide) (by decide) rfl (by simp [fields, deviceFields, apartFrom, DDR_CFG, DDR_RD_CFG, SRAM_CFG]) hmap,
        hbits (i := 2) (by decide) (by decide) rfl (by simp [fields, deviceFields, apartFrom, DDR_CFG, DDR_RD_CFG, SRAM_CFG]) hage2,
        hbits (i := 3) (by decide) (by decide) rfl (by simp [fields, deviceFields, apartFrom, DDR_RD_CFG, SRAM_CFG]) hact2,
        hbits (i := 4) (by decide) (by decide) rfl (by simp [fields, deviceFields, apartFrom, SRAM_CFG]) hth2,
        hbits (i := 5) (by decide) (by decide) rfl (by simp [fields, deviceFields]) (by omega), hst.regs, same_memory hst⟩
      show execDdrConfig h 0xFF 0 0 0 0 0 0 map_ scrubHours ageNs actLimit thresh scrubMs s = _
      rw [execDdrConfig]
      dsimp only
      rw [starts_body hs hp (by simp [hmap, hsh1, hage1, hact1, hth1, hms1, hms2])]
      rfl
  case passed =>
    obtain ⟨hstate, hflag, hfree, hdirty, hsame⟩ := trainingPassed_effect s hc
    exact ⟨trainingPassed s c, (exec_trainingEnd hclk hst us step lanes).1, hstate, hflag, hfree, hdirty, same_memory hsame⟩
  case failed => exact ⟨trainingFailed s c step lanes, (exec_trainingEnd hclk hst us step lanes).2 hstep hlanes, trainingFailed_effect s hc hstep hlanes⟩

theorem dramWork : Claim.DramWork := by
  intro s c hclk hc
  refine ⟨fun q ecc hready hw => ?discarded, fun q ecc hready hr => ?unread, fun q hready hempty hw hchan hport => ?visible, ?expiry, fun hearly => ?windowStands,
    fun hover => ?window, fun bank hready hempty => ?refresh, fun hot hready hrank => ?temp, ?zq, fun hready => ?scrub, fun hready hmap hzero => ?corrected⟩
  case discarded => rw [exec_dramRequest_idle hclk hready, hw]; rfl
  case unread => rw [exec_dramRequest_idle hclk hready, hr]; rfl
  case visible =>
    let d : DramCh := { dramCh s c with reqs := [⟨q.port, true, q.addr, now s, 0, q.who⟩] }
    let b := setDramCh (putDram s q.addr q.data) c d
    have hb : Same [.dramCh] (putDram s q.addr q.data) b := setDramCh_same _ _ _
    have hch : dramCh b c = d := dramCh_setDramCh _ _ _
    have hu : Same [.freeCtr] b (if (dramCh b c).draining then tick1 b else b) := by
      split
      · exact tick1_same _
      · exact Same.refl _ _
    have hall := ((putDram_same (s := s) q.addr q.data).mono (qs := [.dram, .dramCh, .freeCtr]) (by decide)).trans ((hb.mono (by decide)).trans (hu.mono (by decide)))
    refine ⟨if (dramCh b c).draining then tick1 b else b, exec_dramRequest_held hclk hready (arrive_write hempty hw hchan hport) (congrArg DramCh.reqs hch),
      hu.dram.trans hb.dram, hall.sram, ?_, hall.lanes⟩
    rw [dramCh_congr hu.dramCh, hch]
  case expiry =>
    let b := setDramCh s c { dramCh s c with throttles := (dramCh s c).throttles.filter (fun t => decide (now s < t.until_)) }
    have hb : Same [.dramCh] s b := setDramCh_same _ _ _
    have hu := throttleShow_only b c
    refine ⟨throttleShow b c, ?_, ?_, fun r hr => (hu.regs r (beq_false_of_ne hr)).trans (hb.rd r), same_memory ((hb.mono (by decide)).trans (hu.same.mono (qs := [.dramCh, .regs]) (by decide)))⟩
    · show execThrottleExpiry c s = _
      rw [execThrottleExpiry, whileClocked_running _ hclk]
    · rw [dramCh_congr hu.same.dramCh, show dramCh b c = _ from dramCh_setDramCh _ _ _]
  case windowStands =>
    show execDisturbWindow c s = _
    rw [execDisturbWindow, whileClocked_running _ hclk]
    exact congrArg (fun t => Host.Outcome.next (holding s t)) (if_neg (ne_true_of_eq_false hearly))
  case window =>
    let b := setDramCh s c { dramCh s c with counts := [], throttles := [], window := s.freeCtr, winAt := now s }
    have hb : Same [.dramCh] s b := setDramCh_same _ _ _
    have hshow := throttleShow_only b c
    have htick := tick1_same (throttleShow b c)
    have hch : dramCh (tick1 (throttleShow b c)) c = dramCh b c := dramCh_congr (htick.dramCh.trans hshow.same.dramCh) c
    refine ⟨tick1 (throttleShow b c), ?_, ?_, ?_, fun r hr => ((htick.rd r).trans (hshow.regs r (beq_false_of_ne hr))).trans (hb.rd r),
      same_memory ((hb.mono (by decide)).trans ((hshow.same.mono (by decide)).trans (htick.mono (qs := [.dramCh, .regs, .freeCtr]) (by decide))))⟩
    · show execDisturbWindow c s = _
      rw [execDisturbWindow, whileClocked_running _ hclk]
      exact congrArg (fun t => Host.Outcome.next (holding s t)) (if_pos hover)
    · rw [hch, show dramCh b c = _ from dramCh_setDramCh _ _ _]
    · rw [hch, show dramCh b c = _ from dramCh_setDramCh _ _ _]
  case refresh =>
    let d : DramCh := { dramCh s c with owed := 0, openRows := if chType s c = 1 then [] else (dramCh s c).openRows.filter (fun b => b.1 % 4 != bank) }
    have hb : Same [.dramCh] s (setDramCh s c d) := setDramCh_same _ _ _
    have hch : dramCh (setDramCh s c d) c = d := dramCh_setDramCh _ _ _
    refine ⟨setDramCh s c d, ?_, by rw [hch], fun htype => by rw [hch]; exact if_pos htype, hb.regs, same_memory hb⟩
    show execRefresh c bank s = _
    rw [execRefresh, whileClocked_running _ hclk]
    dsimp only
    rw [if_neg (by rw [hready]; decide), if_neg (by simp [hempty])]
  case temp =>
    let b := rankRead s c hot
    have hb := rankRead_same s c hot
    have hset := setFlag_same b DDR_STS (8 + c) (hot.testBit 0)
    have hall := hb.trans (hset.mono (by decide))
    refine ⟨setFlag b DDR_STS (8 + c) (hot.testBit 0), ?_, flag_setFlag_same _ _ _ (by omega), ?_, same_memory hall, hall.lanes⟩
    · show execDramTempRead c hot s = _
      rw [execDramTempRead, whileClocked_running _ hclk, if_neg (by rw [hready]; decide), hrank]
      dsimp only
      rw [show List.range (0 + 1) = [0] from rfl, List.foldl_cons, List.foldl_nil, List.any_cons, List.any_nil, Bool.or_false]
      rfl
    · exact (fld_congr (rd_setFlag_other _ _ (by simp only [DDR_CH_TEMP, DDR_STS]; omega)) _ _).trans (rankRead_temp s hc hot)
  case zq =>
    show execZqCalibration c s = _
    rw [execZqCalibration, whileClocked_running _ hclk]
  case scrub =>
    let d : DramCh := { dramCh s c with scrubAt := if (dramCh s c).scrubAt + 64 < chCap s c then (dramCh s c).scrubAt + 64 else 0 }
    have hb : Same [.dramCh] s (setDramCh s c d) := setDramCh_same _ _ _
    refine ⟨setDramCh s c d, ?_, congrArg DramCh.scrubAt (dramCh_setDramCh s c d), hb.regs, same_memory hb⟩
    show execPatrolScrub c 0 s = _
    rw [execPatrolScrub, whileClocked_running _ hclk, if_neg (by rw [hready]; decide)]
    rfl
  case corrected =>
    subst hzero
    let d : DramCh := { dramCh s 0 with scrubAt := if (dramCh s 0).scrubAt + 64 < chCap s 0 then (dramCh s 0).scrubAt + 64 else 0 }
    let b := setDramCh s 0 d
    have hb : Same [.dramCh] s b := setDramCh_same _ _ _
    have hu : Same [.regs] b (wr64 (satInc b (DDR_CH_ECC_CORR 0)) (DDR_CH_CE_ADDR_LO 0) (DDR_CH_CE_ADDR_HI 0) (dramCh s 0).scrubAt) :=
      (satInc_same _ _).trans (wr64_same _ _ _ _)
    refine ⟨wr64 (satInc b (DDR_CH_ECC_CORR 0)) (DDR_CH_CE_ADDR_LO 0) (DDR_CH_CE_ADDR_HI 0) (dramCh s 0).scrubAt, ?_, wr64_low _ (by decide),
      same_memory ((hb.mono (by decide)).trans (hu.mono (qs := [.dramCh, .regs]) (by decide)))⟩
    show execPatrolScrub 0 1 s = _
    rw [execPatrolScrub, whileClocked_running _ hclk, if_neg (by rw [hready]; decide)]
    dsimp only
    rw [hmap]
    rfl

/-- Settles O56: the commands and the training of a DRAM channel, and the controller's work. -/
theorem dram : Obligations.Dram := ⟨dramCommands, dramWork⟩

end Sys2Proof.Proofs

/-! PROOFS. Resets and supplies (R73, R83, R90 to R94, R114, R115), and the boot (R95 to R101). -/

namespace Sys2Proof.Proofs

-- One theorem after the other: elaborated at once, their threads outgrow the memory that a check may take.
set_option Elab.async false

open Sys2Proof.Machine Sys2Proof.Laws

section
variable {s t u : State}

/-! ### What a reset keeps of registers and memory -/

theorem mget_filter_key {α : Type} (d : α) (m : List (Nat × α)) (p : Nat → Bool) (k : Nat) :
    mget d (m.filter (fun e => p e.1)) k = if p k then mget d m k else d := by
  induction m with
  | nil => simp [mget]
  | cons e m ih =>
    obtain ⟨i, v⟩ := e
    by_cases hk : i = k
    · subst hk
      cases hp : p i
      · rw [List.filter_cons_of_neg (by simp [hp]), ih, hp]
        rfl
      · simp [hp, mget]
    · cases hp : p i
      · rw [List.filter_cons_of_neg (by simp [hp]), ih, mget, if_neg hk]
      · rw [List.filter_cons_of_pos (by simp [hp]), mget, mget, if_neg hk, if_neg hk, ih]

theorem byteAt_filter {d d' : Nat → Byte} (p : Host.Cell → Bool) (m : List Host.Cell) {a : Nat} (hp : ∀ b, p (a, b) = true) (hd : d' a = d a) :
    byteAt d' (m.filter p) a = byteAt d m a := by
  induction m with
  | nil => exact hd
  | cons e m ih =>
    obtain ⟨i, b⟩ := e
    by_cases hi : i = a
    · subst hi
      simp [hp, byteAt]
    · cases hpi : p (i, b)
      · rw [List.filter_cons_of_neg (by simp [hpi]), ih, byteAt, if_neg hi]
      · rw [List.filter_cons_of_pos hpi, byteAt, byteAt, if_neg hi, if_neg hi, ih]

/-- A byte of SRAM outside a region that is lost keeps its value. -/
theorem sramBytes_loseSram (s : State) {lo hi a : Nat} (h : a < lo ∨ hi ≤ a) : sramBytes (loseSram s lo hi) a 1 = sramBytes s a 1 := by
  have hout : (⟨lo, hi, 2, s.freeCtr, false⟩ : Lost).covers a = false := by
    simp only [Lost.covers, Bool.and_eq_false_iff, decide_eq_false_iff_not]
    omega
  have hbyte : byteAt (unwritten (loseSram s lo hi).sramLost) (loseSram s lo hi).sram a = byteAt (unwritten s.sramLost) s.sram a := by
    refine byteAt_filter (fun c => !(⟨lo, hi, 2, s.freeCtr, false⟩ : Lost).covers c.1) s.sram (fun _ => by rw [hout]; rfl) ?_
    show unwritten (⟨lo, hi, 2, s.freeCtr, false⟩ :: s.sramLost) a = _
    rw [unwritten, if_neg (show ¬3 ≤ 2 by decide), hout]
    rfl
  exact congrArg (fun b => [b]) hbyte

/-- The registers that the straps and fuses give. -/
def strapReg (a : Nat) : Bool :=
  [TOP_SERIAL_LO, TOP_SERIAL_HI, TOP_STRAP_STS, PWR_BOOT_STS, FAB_STS, FAB_SERIAL_LO, FAB_SERIAL_HI, FAB_ROOT_SERIAL_LO, FAB_ROOT_SERIAL_HI, FAB_MEMBERS].contains a

theorem strapShow_only (s : State) : Only [.regs] strapReg s (strapShow s) := by
  unfold strapShow
  dsimp only
  refine Only.wrN ?_ (by decide)
  refine Only.wr64 ?_ (by decide)
  refine Only.wr64 ?_ (by decide)
  refine Only.setFlag ?_ (by decide)
  refine Only.setFld ?_ (by decide)
  refine Only.setFld ?_ (by decide)
  refine Only.setFld ?_ (by decide)
  refine Only.setFld ?_ (by decide)
  refine Only.setFld ?_ (by decide)
  exact Only.wr64 (Only.refl _ _ s) (by decide)

/-- The registers whose values a reset sets beyond what it keeps. -/
def resetReg (a : Nat) : Bool := strapReg a || a == SVC_STS || a == LEDG_SHUTTER

/-- The device with every register but those of `keep`, and every unit, as after reset, before its memories lose their contents. -/
def cleared (s : State) (keep : Nat → Bool) (dirty : Nat) (hif : Hif) (svc : Svc) (thm : Thm) : State :=
  { State.reset with
    regs := s.regs.filter (fun e => keep e.1), shadow := s.shadow.filter (fun e => keep e.1), dirty := dirty
    live := s.live.filter (fun e => keep e.1), latched := s.latched.filter (fun e => keep e.1), readData := s.readData
    fuses := s.fuses, pins := { s.pins with safeN := false, trig := 0 }
    pwr := { Pwr.reset with thermLatch := s.pwr.thermLatch, thermPrior := s.pwr.thermPrior, uvRails := s.pwr.uvRails
                            aonCount := s.pwr.aonCount, held := s.pwr.held }
    thm := thm, hif := hif, evr := { Evr.reset with bad := s.evr.bad }, svc := svc
    fab := { Fab.reset with wire := s.fab.wire }
    sramLost := s.sramLost, dramLost := s.dramLost, sram := s.sram, dram := s.dram, host := s.host
    freeCtr := s.freeCtr, pending := s.pending }

/-- The memories' contents are lost and the pins of the interlock and of VBUS show. -/
def clearedOut (s : State) (vbus : Bool) : State :=
  setFlag (setFlag (loseDram (loseSram s 0 blackBox) 0 (2 ^ 36) 2) LEDG_SHUTTER 30 (!s.pins.interlockN)) SVC_STS 3 vbus

theorem clearedOut_same (s : State) (vbus : Bool) : Same [.regs, .sram, .sramLost, .dram, .dramLost, .freeCtr] s (clearedOut s vbus) :=
  ((loseSram_same s 0 blackBox).mono (by decide)).trans (((loseDram_same _ 0 (2 ^ 36) 2).mono (by decide)).trans
    (((setFlag_same _ _ _ _).mono (by decide)).trans ((setFlag_same _ _ _ _).mono (by decide))))

theorem clearedOut_rd (s : State) (vbus : Bool) {a : Nat} (h1 : a ≠ SVC_STS) (h2 : a ≠ LEDG_SHUTTER) : rd (clearedOut s vbus) a = rd s a :=
  (rd_setFlag_other _ _ h1).trans ((rd_setFlag_other _ _ h2).trans (((loseDram_same _ _ _ _).rd a).trans ((loseSram_same s _ _).rd a)))

theorem clearedOut_sram (s : State) (vbus : Bool) {a : Nat} (h : blackBox ≤ a) : sramBytes (clearedOut s vbus) a 1 = sramBytes s a 1 :=
  (sramBytes_congr rfl rfl a 1).trans (sramBytes_loseSram s (.inr h))

theorem resetKeep_eq (s : State) (keep : Nat → Bool) (dirty : Nat) (hif : Hif) (svc : Svc) (thm : Thm) :
    resetKeep s keep dirty hif svc thm = shutterShow (strapShow (clearedOut (cleared s keep dirty hif svc thm) (flag s SVC_STS 3))) := rfl

/-- A reset of every register and unit but the registers of `keep`, before the shutter shows in the lanes' status. -/
theorem resetKeep_shape (s : State) (keep : Nat → Bool) (dirty : Nat) (hif : Hif) (svc : Svc) (thm : Thm) : ∃ t,
    resetKeep s keep dirty hif svc thm = shutterShow (strapShow t) ∧
    (∀ a, a ≠ SVC_STS → a ≠ LEDG_SHUTTER → rd t a = if keep a then rd s a else regReset a) ∧
    (t.pwr.safe = true ∧ t.pins.safeN = false ∧ t.lanes = [] ∧ t.axes = [] ∧ t.seq = State.reset.seq) ∧ t.host = s.host ∧ t.hif = hif ∧ t.pending = s.pending ∧
    (∀ a, blackBox ≤ a → sramBytes t a 1 = sramBytes s a 1) := by
  have hout := clearedOut_same (cleared s keep dirty hif svc thm) (flag s SVC_STS 3)
  refine ⟨_, resetKeep_eq s keep dirty hif svc thm, fun a h1 h2 => (clearedOut_rd _ _ h1 h2).trans (mget_filter_key _ _ _ _),
    ⟨by rw [hout.pwr]; rfl, by rw [hout.pins]; rfl, hout.lanes, hout.axes, hout.seq⟩, hout.host, hout.hif, hout.pending,
    fun a ha => (clearedOut_sram _ _ ha).trans (sramBytes_congr rfl rfl a 1)⟩

theorem resetKeep_rd (s : State) (keep : Nat → Bool) (dirty : Nat) (hif : Hif) (svc : Svc) (thm : Thm) {a : Nat} (h : resetReg a = false)
    (hlas : ∀ n < 24, a ≠ LAS_STS n) : rd (resetKeep s keep dirty hif svc thm) a = if keep a then rd s a else regReset a := by
  simp only [resetReg, Bool.or_eq_false_iff, beq_eq_false_iff_ne] at h
  obtain ⟨⟨hstrap, hsvc⟩, hshut⟩ := h
  obtain ⟨t, heq, hrd, -⟩ := resetKeep_shape s keep dirty hif svc thm
  rw [heq, shutterShow_rd _ hlas, (strapShow_only t).regs a hstrap, hrd a hsvc hshut]

/-! ### The device after a reset -/

/-- Where layers and lanes show: the layer's state and the status of each lane's laser. -/
def layerReg (a : Nat) : Prop := a = SEQ_STS ∨ ∃ n < 24, a = LAS_STS n

theorem layerReg_range {a : Nat} (h : layerReg a) : 0x40000 ≤ a ∧ a ≠ LEDG_SHUTTER ∧ a < 0x180000 := by
  rcases h with rfl | ⟨n, hn, rfl⟩
  · decide
  · simp only [LAS_STS, LEDG_SHUTTER]
    omega

theorem layerReg_apart {a : Nat} (h : layerReg a) : resetReg a = false := by
  obtain ⟨h1, h2, h3⟩ := layerReg_range h
  have hstrap : strapReg a = false := by
    simp only [strapReg, List.contains_eq_mem, List.mem_cons, List.not_mem_nil, or_false, decide_eq_false_iff_not, TOP_SERIAL_LO, TOP_SERIAL_HI, TOP_STRAP_STS,
      PWR_BOOT_STS, FAB_STS, FAB_SERIAL_LO, FAB_SERIAL_HI, FAB_ROOT_SERIAL_LO, FAB_ROOT_SERIAL_HI, FAB_MEMBERS]
    omega
  have hsvc : a ≠ SVC_STS := by simp only [SVC_STS]; omega
  rw [resetReg, hstrap, beq_false_of_ne hsvc, beq_false_of_ne h2]
  rfl

/-- The device as every reset leaves it (R91): in the safe state and dark, with no work in its lanes, layer and axes. -/
def ResetSafe (u : State) : Prop :=
  u.pwr.safe = true ∧ u.pins.safeN = false ∧ u.lanes = [] ∧ u.axes = [] ∧ u.seq = State.reset.seq ∧
    layerSt u = stIdle ∧ (∀ n, n < 24 → gateOf u n = false ∧ emitOf u n = false)

theorem ResetSafe.of (h : ResetSafe t) (hsafe : u.pwr.safe = t.pwr.safe) (hpin : u.pins.safeN = t.pins.safeN) (hlanes : u.lanes = t.lanes) (haxes : u.axes = t.axes)
    (hseq : u.seq = t.seq) (hregs : ∀ a, layerReg a → rd u a = rd t a) : ResetSafe u := by
  obtain ⟨h1, h2, h3, h4, h5, h6, h7⟩ := h
  refine ⟨hsafe.trans h1, hpin.trans h2, hlanes.trans h3, haxes.trans h4, hseq.trans h5, (layerSt_congr (hregs _ (.inl rfl))).trans h6, fun n hn => ?_⟩
  have hsts := hregs (LAS_STS n) (.inr ⟨n, hn, rfl⟩)
  exact ⟨(flag_congr hsts 4).trans (h7 n hn).1, (flag_congr hsts 5).trans (h7 n hn).2⟩

theorem ResetSafe.of_only {ps : List Part} {p : Nat → Bool} (h : ResetSafe t) (hu : Only ps p t u) (hp : ∀ a, layerReg a → p a = false)
    (hps : .pwr ∉ ps ∧ .pins ∉ ps ∧ .lanes ∉ ps ∧ .axes ∉ ps ∧ .seq ∉ ps := by decide) : ResetSafe u := by
  obtain ⟨h1, h2, h3, h4, h5⟩ := hps
  exact h.of (by rw [hu.same.pwr h1]) (by rw [hu.same.pins h2]) (hu.same.lanes h3) (hu.same.axes h4) (hu.same.seq h5) fun a ha => hu.regs a (hp a ha)

theorem layerRegs_reset : bitsOf (regReset SEQ_STS) 3 0 = 0 ∧ ∀ n < 24, (bitsOf (regReset (LAS_STS n)) 4 4 == 1) = false ∧ (bitsOf (regReset (LAS_STS n)) 5 5 == 1) = false := by
  decide +kernel

/-- A reset that keeps no register of the layer and the lanes leaves the device in the safe state. -/
theorem resetKeep_resetSafe (s : State) (keep : Nat → Bool) (dirty : Nat) (hif : Hif) (svc : Svc) (thm : Thm) (hkeep : ∀ a, layerReg a → keep a = false) :
    ResetSafe (resetKeep s keep dirty hif svc thm) := by
  obtain ⟨t, heq, hrd, ⟨hsafe, hpin, hlanes, haxes, hseq⟩, -⟩ := resetKeep_shape s keep dirty hif svc thm
  obtain ⟨hidle, hdark⟩ := layerRegs_reset
  have hstrap := strapShow_only t
  have hshut := shutterShow_same (strapShow t)
  have hreset : ∀ a, layerReg a → rd (strapShow t) a = regReset a := fun a ha => by
    have hapart := layerReg_apart ha
    simp only [resetReg, Bool.or_eq_false_iff, beq_eq_false_iff_ne] at hapart
    obtain ⟨⟨h1, h2⟩, h3⟩ := hapart
    rw [hstrap.regs a h1, hrd a h2 h3, hkeep a ha]
    rfl
  rw [heq]
  refine ⟨by rw [hshut.pwr, hstrap.same.pwr, hsafe], by rw [hshut.pins, hstrap.same.pins, hpin], by rw [hshut.lanes, hstrap.same.lanes, hlanes],
    by rw [hshut.axes, hstrap.same.axes, haxes], by rw [hshut.seq, hstrap.same.seq, hseq], ?_, fun n hn => ?_⟩
  · have hseqsts : rd (shutterShow (strapShow t)) SEQ_STS = regReset SEQ_STS := (shutterShow_rd _ (fun n hn => by simp only [SEQ_STS, LAS_STS]; omega)).trans (hreset _ (.inl rfl))
    rw [layerSt, fld, hseqsts, hidle]
    rfl
  · have hlas := hreset (LAS_STS n) (.inr ⟨n, hn, rfl⟩)
    constructor
    · rw [gateOf, shutterShow_flag _ (by decide), flag, fld, hlas]
      exact (hdark n hn).1
    · rw [emitOf, shutterShow_flag _ (by decide), flag, fld, hlas]
      exact (hdark n hn).2

theorem resetKeep_out (s : State) (keep : Nat → Bool) (dirty : Nat) (hif : Hif) (svc : Svc) (thm : Thm) :
    let u := resetKeep s keep dirty hif svc thm
    u.host = s.host ∧ u.hif = hif ∧ u.pending = s.pending ∧ (∀ a, blackBox ≤ a → sramBytes u a 1 = sramBytes s a 1) := by
  intro u
  obtain ⟨t, heq, -, -, hhost, hhif, hpending, hsram⟩ := resetKeep_shape s keep dirty hif svc thm
  have hshown : Same [.regs] t u := by
    rw [show u = _ from heq]
    exact (strapShow_same t).trans (shutterShow_same _)
  exact ⟨hshown.host.trans hhost, hshown.hif.trans hhif, hshown.pending.trans hpending, fun a ha => (sramBytes_congr hshown.sram hshown.sramLost a 1).trans (hsram a ha)⟩

/-! ### POR_N and SYS_RST_N -/

theorem porReg_layer {a : Nat} (h : layerReg a) : porReg a = false := by
  obtain ⟨h1, -, -⟩ := layerReg_range h
  simp only [porReg, Bool.or_eq_false_iff, beq_eq_false_iff_ne]
  simp only [PWR_SEQ_STS, THM_SHUTDOWN_CAUSE, THM_SHUTDOWN_TIME_LO, THM_SHUTDOWN_TIME_HI]
  omega

theorem cause_layer {a : Nat} (h : layerReg a) : (a == PWR_RESET_CAUSE) = false := by
  obtain ⟨h1, -, -⟩ := layerReg_range h
  exact beq_false_of_ne (by simp only [PWR_RESET_CAUSE]; omega)

/-- What POR_N leaves (R90): the record of a shutdown, the retained SRAM and its validity, and host memory. -/
theorem resetPor_effect (s : State) : ResetSafe (resetPor s) ∧ flag (resetPor s) PWR_RESET_CAUSE 0 = flag s PWR_RESET_CAUSE 0 ∧
    rd (resetPor s) THM_SHUTDOWN_CAUSE = rd s THM_SHUTDOWN_CAUSE ∧ (resetPor s).host = s.host ∧ (∀ a, blackBox ≤ a → sramBytes (resetPor s) a 1 = sramBytes s a 1) := by
  let t := resetKeep s porReg 0 { Hif.reset with perst := s.hif.perst } Svc.reset Thm.reset
  obtain ⟨hhost, -, -, hsram⟩ := resetKeep_out s porReg 0 { Hif.reset with perst := s.hif.perst } Svc.reset Thm.reset
  have hlast : Only [.regs] (fun a => a == PWR_RESET_CAUSE) t (resetPor s) := Only.setFlag (Only.refl _ _ t)
  refine ⟨(resetKeep_resetSafe s porReg _ _ _ _ fun _ => porReg_layer).of_only hlast fun _ => cause_layer, flag_setFlag_same _ _ _ (by decide), ?_,
    hlast.same.host.trans hhost, fun a ha => (sramBytes_congr hlast.same.sram hlast.same.sramLost a 1).trans (hsram a ha)⟩
  rw [hlast.regs _ (by decide)]
  exact (resetKeep_rd s porReg _ _ _ _ (by decide) (fun n hn => by simp only [THM_SHUTDOWN_CAUSE, LAS_STS]; omega)).trans (if_pos rfl)

/-- The registers that `resetCore` sets beyond those of the reset it is made of. -/
def coreReg (a : Nat) : Bool := strapReg a || a == PWR_STS || a == PWR_DIE_STS || ports4.any (fun p => a == FAB_P_STS p)

/-- What the reset of the core keeps: the registers of the AON domain, of the service port, and the shutter's. -/
def coreKept (a : Nat) : Bool := aonReg a || svcReg a || a == LEDG_SHUTTER

/-- The state as the conductors are reset as masters (R526). -/
def mastersReset (s : State) : State := [0x10, 0x11, 0x12, 0x13].foldl mbxReset s

theorem resetCore_only (s : State) (hif : Hif) : Only [.regs, .mbxDue] coreReg
    (resetKeep (mastersReset s) coreKept ((mastersReset s).dirty &&& 2 ^ 15) hif { (mastersReset s).svc with sq := [] } (mastersReset s).thm) (resetCore s hif) := by
  let r := mastersReset s
  let b := resetKeep r coreKept (r.dirty &&& 2 ^ 15) hif { r.svc with sq := [] } r.thm
  let c : State := { b with mbxDue := r.mbxDue.map (fun p => (p.1, p.2 - now r)) }
  have hc : Only [.regs, .mbxDue] coreReg b c := Only.of_same (qs := [.mbxDue]) (fun q hq => by cases q <;> first | rfl | exact absurd (by decide) hq)
  have hsts : Only [.regs, .mbxDue] coreReg b (setFld c PWR_STS 19 0 0xFFFFF) := Only.setFld hc
  have hports : Only [.regs, .mbxDue] coreReg (setFld c PWR_STS 19 0 0xFFFFF)
      (ports4.foldl (fun t p => setFld t (FAB_P_STS p) 17 16 (fld r (FAB_P_STS p) 17 16)) (setFld c PWR_STS 19 0 0xFFFFF)) :=
    Only.foldl _ _ (fun t p hp => Only.setFld (Only.refl _ _ t) (by
      simp only [coreReg, Bool.or_eq_true, List.any_eq_true]
      exact .inr ⟨p, hp, beq_self_eq_true _⟩)) _
  have hwords : ∀ t : State, Only [.regs, .mbxDue] coreReg t (wr (wr t PWR_BOOT_STS (regReset PWR_BOOT_STS)) PWR_DIE_STS (regReset PWR_DIE_STS)) := fun t =>
    (Only.wr PWR_BOOT_STS _ (by decide)).trans (Only.wr PWR_DIE_STS _ (by decide))
  exact (hsts.trans hports).trans ((hwords _).trans ((strapShow_only _).mono (by decide) (fun a ha => by simp [coreReg, ha])))

theorem ite_pos_of {c : Prop} [Decidable c] {x y : Nat} (hx : c → 0 < x) (hy : ¬c → 0 < y) : 0 < if c then x else y := by
  split
  · exact hx ‹_›
  · exact hy ‹_›

theorem domainOf_aon {a : Nat} (h : domainOf a = 0) : (0x10000 ≤ a ∧ a < 0x30000) ∨ (0x260000 ≤ a ∧ a < 0x270000) := by
  by_contra hno
  have hpos : 0 < domainOf a := by
    unfold domainOf
    dsimp only
    repeat' refine ite_pos_of (fun _ => ?_) (fun _ => ?_)
    all_goals omega
  omega

theorem layerReg_core {a : Nat} (h : layerReg a) : coreReg a = false ∧ coreKept a = false := by
  obtain ⟨h1, h2, h3⟩ := layerReg_range h
  have hapart := layerReg_apart h
  simp only [resetReg, Bool.or_eq_false_iff] at hapart
  obtain ⟨⟨hstrap, -⟩, hshut⟩ := hapart
  have haon : aonReg a = false := beq_false_of_ne fun h0 => by
    have := domainOf_aon h0
    omega
  refine ⟨?_, ?_⟩
  · have hports : ports4.any (fun p => a == FAB_P_STS p) = false := List.any_eq_false.mpr fun p _ => by
      simp only [FAB_P_STS, beq_iff_eq]
      omega
    rw [coreReg, hstrap, hports, beq_false_of_ne (show a ≠ PWR_STS by simp only [PWR_STS]; omega), beq_false_of_ne (show a ≠ PWR_DIE_STS by simp only [PWR_DIE_STS]; omega)]
    rfl
  · rw [coreKept, haon, hshut, svcReg, decide_eq_false (by simp only [SVC_STS]; omega)]
    rfl

/-- The registers of the mailboxes, and those that sending over the fabric changes. -/
def mbxReg (a : Nat) : Bool := (decide (0x260000 ≤ a) && decide (a < 0x270000)) || txReg a

theorem mbxReset_only (s : State) (id : Nat) : Only [.regs, .fab, .mbxDue] mbxReg s (mbxReset s id) := by
  refine ⟨mbxReset_same s id, ?_⟩
  unfold mbxReset
  refine foldl_inv (fun t => RegsKept mbxReg s t) _ _ (fun t n hn ht => ht.trans ?_) s (RegsKept.refl _ _)
  have hn := List.mem_range.mp hn
  have hgo : ∀ u b, RegsKept mbxReg u (setGo u n b) := fun u b a ha => by
    simp only [mbxReg, Bool.or_eq_false_iff, Bool.and_eq_false_iff, decide_eq_false_iff_not] at ha
    exact (rd_setFlag_other _ _ (by simp only [MBX_CH_STS]; omega)).trans (rd_setFlag_other _ _ (by simp only [MBX_CH_GO]; omega))
  have hflag : ∀ u i, RegsKept mbxReg u (mbxFlag u n i) := fun u i a ha => by
    simp only [mbxReg, Bool.or_eq_false_iff, Bool.and_eq_false_iff, decide_eq_false_iff_not] at ha
    exact rd_setFlag_other _ _ (by simp only [MBX_CH_STS]; omega)
  have hsend : ∀ u d ty b, RegsKept mbxReg u (sendMsg u d ty b) := fun u d ty b =>
    (sendMsg_regs u d ty b).mono fun a ha => by rw [mbxReg, ha, Bool.or_true]
  split
  · exact RegsKept.refl _ _
  · split
    · dsimp only
      split
      · exact ((hgo _ _).trans (hflag _ _)).trans (hsend _ _ _ _)
      · exact (hgo _ _).trans (hflag _ _)
    · split
      · exact (hgo _ _).trans (hflag _ _)
      · exact RegsKept.refl _ _

theorem mastersReset_only (s : State) : Only [.regs, .fab, .mbxDue] mbxReg s (mastersReset s) :=
  Only.foldl _ _ (fun t id _ => mbxReset_only t id) s

/-- What the reset of the core leaves (R90): the registers of the AON domain, the retained SRAM and host memory. -/
theorem resetCore_effect (s : State) (hif : Hif) : ResetSafe (resetCore s hif) ∧ (resetCore s hif).hif = hif ∧ (resetCore s hif).host = s.host ∧
    (resetCore s hif).pending = s.pending ∧ (∀ a, blackBox ≤ a → sramBytes (resetCore s hif) a 1 = sramBytes s a 1) ∧
    (∀ a, domainOf a = 0 → (a < 0x260000 ∨ 0x270000 ≤ a) → a ≠ PWR_STS → a ≠ PWR_BOOT_STS → a ≠ PWR_DIE_STS → rd (resetCore s hif) a = rd s a) := by
  have hmasters := mastersReset_only s
  have hcore := resetCore_only s hif
  obtain ⟨hhost, hhif, hpending, hsram⟩ := resetKeep_out (mastersReset s) coreKept ((mastersReset s).dirty &&& 2 ^ 15) hif { (mastersReset s).svc with sq := [] } (mastersReset s).thm
  refine ⟨(resetKeep_resetSafe _ coreKept _ _ _ _ fun a ha => (layerReg_core ha).2).of_only hcore fun a ha => (layerReg_core ha).1, hcore.same.hif.trans hhif,
    hcore.same.host.trans (hhost.trans hmasters.same.host), hcore.same.pending.trans (hpending.trans hmasters.same.pending), fun a ha => ?_, fun a hdom hout h1 h2 h3 => ?_⟩
  · exact (sramBytes_congr hcore.same.sram hcore.same.sramLost a 1).trans ((hsram a ha).trans (sramBytes_congr hmasters.same.sram hmasters.same.sramLost a 1))
  · have hrange : 0x10000 ≤ a ∧ a < 0x30000 := by
      rcases domainOf_aon hdom with h | h <;> omega
    have hstrap : strapReg a = false := by
      simp only [strapReg, List.contains_eq_mem, List.mem_cons, List.not_mem_nil, or_false, decide_eq_false_iff_not, TOP_SERIAL_LO, TOP_SERIAL_HI, TOP_STRAP_STS,
        FAB_STS, FAB_SERIAL_LO, FAB_SERIAL_HI, FAB_ROOT_SERIAL_LO, FAB_ROOT_SERIAL_HI, FAB_MEMBERS]
      omega
    have hports : ports4.any (fun p => a == FAB_P_STS p) = false := List.any_eq_false.mpr fun p _ => by
      simp only [FAB_P_STS, beq_iff_eq]
      omega
    have hreset : resetReg a = false := by
      rw [resetReg, hstrap, beq_false_of_ne (show a ≠ SVC_STS by simp only [SVC_STS]; omega), beq_false_of_ne (show a ≠ LEDG_SHUTTER by simp only [LEDG_SHUTTER]; omega)]
      rfl
    have hkept : coreKept a = true := by rw [coreKept, aonReg, hdom]; rfl
    have htx : txReg a = false := by
      simp only [txReg, Bool.or_eq_false_iff, beq_eq_false_iff_ne]
      simp only [FAB_P_TX_FRAMES]
      omega
    rw [hcore.regs a (by rw [coreReg, hstrap, hports, beq_false_of_ne h1, beq_false_of_ne h3]; rfl),
      resetKeep_rd _ coreKept _ _ _ _ hreset (fun n _ => by simp only [LAS_STS]; omega), if_pos hkept]
    exact hmasters.regs a (by rw [mbxReg, htx, decide_eq_false (by omega)]; rfl)

end

theorem resetsAreSafe : Claim.ResetsAreSafe := by
  intro s safe
  have hsafe : ∀ u, safe u = ResetSafe u := fun _ => rfl
  refine ⟨?por, ?sys, ?core, ?first, ?undervoltage, fun g hg hnone => ?violation, fun g hseen => ?again⟩
  case por =>
    obtain ⟨hreset, hvalid, hthm, hhost, hsram⟩ := resetPor_effect s
    have hexec : execPorNLow s = .next (holding s (holdReset (resetCause (resetPor s) 2) 2)) := rfl
    generalize resetPor s = b at *
    have hcause : Only [.regs] (fun a => a == PWR_RESET_CAUSE) b (resetCause b 2) := Only.setFlag (Only.refl _ _ b)
    exact ⟨holdReset (resetCause b 2) 2, hexec, (hreset.of_only hcause fun _ => cause_layer).of rfl rfl rfl rfl rfl (fun _ _ => rfl),
      flag_setFlag_same _ _ _ (by decide), (flag_setFlag_apart b _ _ _ _ (by decide)).trans hvalid, (hcause.regs _ (by decide)).trans hthm,
      fun a ha => (sramBytes_congr rfl rfl a 1).trans (hsram a ha), hhost⟩
  case sys =>
    obtain ⟨hreset, hhif, hhost, -, hsram, hregs⟩ := resetCore_effect s (keptLink s)
    have hexec : execSysRstNLow s = .next (holding s (holdReset (resetCause (resetCore s (keptLink s)) 3) 1)) := rfl
    generalize resetCore s (keptLink s) = b at *
    have hcause : Only [.regs] (fun a => a == PWR_RESET_CAUSE) b (resetCause b 3) := Only.setFlag (Only.refl _ _ b)
    exact ⟨holdReset (resetCause b 3) 1, hexec, (hreset.of_only hcause fun _ => cause_layer).of rfl rfl rfl rfl rfl (fun _ _ => rfl),
      flag_setFlag_same _ _ _ (by decide), fun a hdom hout h1 h2 h3 h4 => (hcause.regs a (beq_false_of_ne h4)).trans (hregs a hdom hout h1 h2 h3), (congrArg Hif.bme hhif : b.hif.bme = (keptLink s).bme),
      fun a ha => (sramBytes_congr rfl rfl a 1).trans (hsram a ha), hhost⟩
  case core =>
    let t : State := { s with pwr := { s.pwr with thermPrior := s.pwr.thermPrior || s.pwr.thermLatch } }
    obtain ⟨hreset, hhif, -, -, hsram, -⟩ := resetCore_effect t { Hif.reset with perst := s.hif.perst }
    obtain ⟨b, hb⟩ : ∃ b, b = resetCore t { Hif.reset with perst := s.hif.perst } := ⟨_, rfl⟩
    rw [← hb] at hreset hhif hsram
    exact ⟨unlatch (holding s (holdReset b 1)), by rw [hb]; rfl, hreset.of rfl rfl rfl rfl rfl (fun _ _ => rfl), rfl, rfl, congrArg Hif.bme hhif, rfl, fun a ha => (sramBytes_congr rfl rfl a 1).trans (hsram a ha)⟩
  case first =>
    let t : State := { s with pwr := { s.pwr with thermPrior := false, uvRails := 0, aonCount := (s.pwr.aonCount + 1) % 2 ^ 32 }, evr := { s.evr with bad := [] } }
    have hreset := resetKeep_resetSafe t (fun _ => false) 0 { Hif.reset with perst := s.hif.perst } Svc.reset Thm.reset fun _ _ => rfl
    have hrd : rd (resetKeep t (fun _ => false) 0 { Hif.reset with perst := s.hif.perst } Svc.reset Thm.reset) PWR_RESET_CAUSE = regReset PWR_RESET_CAUSE :=
      resetKeep_rd t _ _ _ _ _ (by decide) (fun n _ => by simp only [PWR_RESET_CAUSE, LAS_STS]; omega)
    have hexec : execVddAonFirstRise s = .next (unlatch (holding s (holdReset (resetCause (loseSram
      (resetKeep t (fun _ => false) 0 { Hif.reset with perst := s.hif.perst } Svc.reset Thm.reset) blackBox 0x2000000) 1) 2))) := rfl
    generalize resetKeep t (fun _ => false) 0 { Hif.reset with perst := s.hif.perst } Svc.reset Thm.reset = b at *
    have hc : Only [.sramLost, .sram, .freeCtr] (fun a => a == PWR_RESET_CAUSE) b (loseSram b blackBox 0x2000000) := Only.of_same (loseSram_same b _ _)
    have hcause : Only [.regs] (fun a => a == PWR_RESET_CAUSE) (loseSram b blackBox 0x2000000) (resetCause (loseSram b blackBox 0x2000000) 1) :=
      Only.setFlag (Only.refl _ _ _)
    have hclear : flag b PWR_RESET_CAUSE 0 = false := by
      have hbit : (bitsOf (regReset PWR_RESET_CAUSE) 0 0 == 1) = false := by decide +kernel
      rw [flag, fld, hrd]
      exact hbit
    exact ⟨_, hexec, ((hreset.of_only hc fun _ => cause_layer).of_only hcause fun _ => cause_layer).of rfl rfl rfl rfl rfl (fun _ _ => rfl), rfl, rfl,
      flag_setFlag_same _ _ _ (by decide), (flag_setFlag_apart (loseSram b blackBox 0x2000000) _ _ _ _ (by decide)).trans hclear, rfl⟩
  case undervoltage =>
    obtain ⟨hreset, -, -, hhost, -⟩ := resetPor_effect s
    have hexec : execVddAonUndervoltage s = .next (holding s (loseSram { holdReset (setFlag (resetPor s) PWR_RESET_CAUSE 0 false) 2 with
      evr := { (holdReset (setFlag (resetPor s) PWR_RESET_CAUSE 0 false) 2).evr with bad := [] } } blackBox 0x2000000)) := rfl
    generalize resetPor s = b at *
    have hcause : Only [.regs] (fun a => a == PWR_RESET_CAUSE) b (setFlag b PWR_RESET_CAUSE 0 false) := Only.setFlag (Only.refl _ _ b)
    exact ⟨_, hexec, (hreset.of_only hcause fun _ => cause_layer).of rfl rfl rfl rfl rfl (fun _ _ => rfl), flag_setFlag_same _ _ _ (by decide), hhost⟩
  case violation =>
    let u := setFlag (setFld s PWR_SEQ_STS 3 0 g) PWR_SEQ_STS 31 true
    refine ⟨u, ?_, flag_setFlag_same _ _ _ (by decide), ?_, fun a ha => (rd_setFlag_other _ _ ha).trans (rd_setFld_other _ _ _ ha), rfl⟩
    · show execRailSequenceViolation g s = _
      rw [execRailSequenceViolation, always, if_neg (ne_true_of_eq_false hnone)]
    · exact (fld_setFld_apart PWR_SEQ_STS 31 31 _ 3 0 (by decide) (by decide) (by decide)).trans (fld_setFld_fits hg)
  case again =>
    show execRailSequenceViolation g s = _
    rw [execRailSequenceViolation, always, if_pos hseen]

section
variable {s t : State}

/-! ### The boot -/

/-- The state of the boot ROM, and what goes out on bulk IN with it (R100). -/
theorem setBoot_only (s : State) (st : Nat) : Only [.regs, .svc] (fun a => a == PWR_BOOT_STS) s (setBoot s st) := by
  have hset : Only [.regs, .svc] (fun a => a == PWR_BOOT_STS) s (setFld s PWR_BOOT_STS 3 0 st) := Only.setFld (Only.refl _ _ s)
  unfold setBoot
  dsimp only
  split
  · exact hset.trans (Only.of_same (qs := [.svc]) (fun q hq => by cases q <;> first | rfl | exact absurd (by decide) hq))
  · exact hset

theorem setBoot_word (s : State) (st : Nat) : rd (setBoot s st) PWR_BOOT_STS = rd (setFld s PWR_BOOT_STS 3 0 st) PWR_BOOT_STS := by
  unfold setBoot
  dsimp only
  split <;> rfl

/-- The ROM waits for an image (R99). -/
theorem waitImage_effect (s : State) : bootSt (waitImage s) = 2 ∧ flag (waitImage s) PWR_BOOT_STS 11 = true ∧ (waitImage s).pwr.image = [] ∧
    fld (waitImage s) PWR_BOOT_STS 23 16 = fld s PWR_BOOT_STS 23 16 ∧ Only [.regs, .svc, .pwr] (fun a => a == PWR_BOOT_STS) s (waitImage s) := by
  let b : State := { s with pwr := { s.pwr with image := [], imageUsb := [], imageFrom := strapSource s } }
  let c := setFlag b PWR_BOOT_STS 11 true
  have hb : Only [.regs, .svc, .pwr] (fun a => a == PWR_BOOT_STS) s b := Only.of_same (qs := [.pwr]) (fun q hq => by cases q <;> first | rfl | exact absurd (by decide) hq)
  have hc : Only [.regs, .svc, .pwr] (fun a => a == PWR_BOOT_STS) b c := Only.setFlag (Only.refl _ _ b)
  have hu := setBoot_only c 2
  have hword := setBoot_word c 2
  refine ⟨(fld_congr hword _ _).trans (fld_setFld_same _ _ _ _ (by decide) (by decide)), ?_, ?_, ?_, hb.trans (hc.trans (hu.mono (by decide) (fun _ h => h)))⟩
  · exact (flag_congr hword _).trans ((flag_setFld_apart c PWR_BOOT_STS 3 0 2 11 (by decide) (by decide)).trans (flag_setFlag_same _ _ _ (by decide)))
  · rw [show waitImage s = setBoot c 2 from rfl, hu.same.pwr]
    rfl
  · exact (fld_congr hword _ _).trans ((fld_setFld_apart PWR_BOOT_STS 3 0 _ 23 16 (by decide) (by decide) (by decide)).trans
      (fld_setFld_apart PWR_BOOT_STS 11 11 _ 23 16 (by decide) (by decide) (by decide)))

theorem fabricUp_pins (s : State) : (fabricUp s).pins = s.pins := by
  unfold fabricUp
  dsimp only
  generalize hb : setFlag (wr64 _ _ _ _) FTM_STS 13 _ = b
  have hregs : b.pins = s.pins := by
    rw [← hb]
    rfl
  exact (ftmSelect_net _ _).same.pins.trans ((reroute_net _).same.pins.trans ((adoptRoot_net b).same.pins.trans hregs))

theorem hardSpare_pins (s : State) (e : Nat) : (hardSpare s e).pins = s.pins := by
  unfold hardSpare
  dsimp only
  repeat' split
  all_goals rfl

theorem assignSpare_pins (s : State) (f : Nat × Bool × Nat) : (assignSpare s f).pins = s.pins := by
  obtain ⟨m, col, x⟩ := f
  unfold assignSpare
  dsimp only
  repeat' split
  all_goals first | rfl | exact (event_same _ _ _ _).pins

theorem retainedInit_pins (s : State) : (retainedInit s).pins = s.pins := by
  let b : State := { s with sram := s.sram.filter (fun c => decide (c.1 < blackBox)), evr := { s.evr with bad := [] }
                            sramLost := s.sramLost.map (fun l => { l with hi := if blackBox < l.hi then blackBox else l.hi }) }
  exact (setFlag_same _ _ _ _).pins.trans ((putHeader_same _ _ _).pins.trans (putHeader_same b _ _).pins)

theorem afeUp_pins (s : State) (q : Nat) : (afeUp s q).pins = s.pins := by
  refine foldl_keeps State.pins _ (fun t k => foldl_keeps State.pins _ (fun u i => ?_) _ t) _ s
  split
  · unfold afeWake afePend
    dsimp only
    repeat' split
    all_goals rfl
  · rfl

/-- The state of the boot ROM as it looks for an image, with the straps as sampled (R98). -/
theorem bootUp_waits (s : State) (fails : List (Nat × Bool × Nat)) (flash : Option (List Byte × List Byte)) (hclk : clocksOff s = false) (hsource : strapSource s ≠ 0) :
    ∃ t, bootUp s fails flash = waitImage t := by
  let a := if s.pwr.thermPrior then resetCause { s with pwr := { s.pwr with thermPrior := false } } 6 else s
  let first := !flag a PWR_RESET_CAUSE 0
  let b := a.fuses.entries.foldl hardSpare (strapShow a)
  let c := (fails.filter (fun f => decide (f.1 < 504) || first)).foldl assignSpare b
  let d := if first then retainedInit c else c
  let e := (List.range 6).foldl (fun s q => if domOn s (14 + q) then afeUp s q else s) (fabricUp d)
  have ha : a.pins = s.pins := by
    simp only [a]
    split <;> rfl
  have hb : b.pins = a.pins := (foldl_keeps State.pins hardSpare hardSpare_pins _ _).trans (strapShow_same a).pins
  have hc : c.pins = b.pins := foldl_keeps State.pins assignSpare assignSpare_pins _ _
  have hd : d.pins = c.pins := by
    simp only [d]
    split
    · exact retainedInit_pins _
    · rfl
  have he : e.pins = d.pins := (foldl_keeps State.pins _ (fun t q => by
    split
    · exact afeUp_pins _ _
    · rfl) _ _).trans (fabricUp_pins d)
  have hsame : strapSource e = strapSource s := by rw [strapSource, strapSource, he, hd, hc, hb, ha]
  refine ⟨e, ?_⟩
  unfold bootUp
  rw [if_neg (ne_true_of_eq_false hclk)]
  exact if_neg (hsame ▸ hsource)

end

theorem bootStarts : Claim.BootStarts := by
  intro s fails flash
  refine ⟨fun sel addr refclk => rfl, rfl, rfl, fun hoff => ?off, fun hclk hsource => ?waits, fun hclk hst => ?timeout, fun hclk hst v => ?ignored,
    fun hclk hst hfrom v hv => ?badLength, fun hclk hst hfrom v hpos hlt hfits => ?more, fun hclk hst hfrom v hpos hlt hfits => ?claims⟩
  case off => rw [bootUp, if_pos hoff]
  case waits =>
    obtain ⟨t, ht⟩ := bootUp_waits s fails flash hclk hsource
    rw [ht]
    exact ⟨(waitImage_effect t).1, (waitImage_effect t).2.1⟩
  case timeout =>
    let b := setFld s PWR_BOOT_STS 23 16 6
    have hb : Only [.regs, .svc, .pwr] (fun a => a == PWR_BOOT_STS) s b := Only.setFld (Only.refl _ _ s)
    obtain ⟨hboot, -, -, hcode, honly⟩ := waitImage_effect b
    have hall := hb.trans honly
    refine ⟨waitImage b, ?_, hboot, hcode.trans (fld_setFld_same _ _ _ _ (by decide) (by decide)), fun a ha => hall.regs a (beq_false_of_ne ha), same_memory hall.same, hall.same.lanes⟩
    show execBootFlashTimeout s = _
    rw [execBootFlashTimeout, whileClocked_running _ hclk, if_pos hst]
  case ignored =>
    show execBootChunk v s = _
    rw [execBootChunk, whileClocked_running _ hclk, bootChunk, if_pos (by simp [hst])]
  case badLength =>
    let b := setFld s PWR_BOOT_STS 23 16 7
    have hb : Only [.regs, .svc, .pwr] (fun a => a == PWR_BOOT_STS) s b := Only.setFld (Only.refl _ _ s)
    obtain ⟨hboot, -, himage, hcode, honly⟩ := waitImage_effect b
    have hall := hb.trans honly
    have hu : Same [.pwr] (waitImage b) { waitImage b with pwr := { (waitImage b).pwr with imageUsb := if s.pwr.imageFrom = 0 then s.pwr.imageUsb else [] } } := fun q hq => by
      cases q <;> first | rfl | exact absurd (by decide) hq
    refine ⟨{ waitImage b with pwr := { (waitImage b).pwr with imageUsb := if s.pwr.imageFrom = 0 then s.pwr.imageUsb else [] } }, ?_, (fld_congr (hu.rd _) _ _).trans hboot, (fld_congr (hu.rd _) _ _).trans (hcode.trans (fld_setFld_same _ _ _ _ (by decide) (by decide))), himage,
      same_memory (hall.same.trans (hu.mono (by decide))), (hall.same.trans (hu.mono (by decide))).lanes⟩
    show execBootChunk v s = _
    rw [execBootChunk, whileClocked_running _ hclk, bootChunk, if_neg (by simp [hst, hfrom])]
    dsimp only
    rw [hv]
    rfl
  case more =>
    have hlen : v % 2 ^ 21 = v := Nat.mod_eq_of_lt (by omega)
    have hbit : v.testBit 31 = false := Nat.testBit_lt_two_pow (by omega)
    let b : State := { s with pwr := { s.pwr with image := s.pwr.image ++ sramBytes s poolBase v } }
    have hb : Same [.pwr] s b := fun q hq => by cases q <;> first | rfl | exact absurd (by decide) hq
    have hu := setFlag_same b PWR_BOOT_STS 11 true
    have hclaim : claimImage s 1 (s.pwr.image ++ sramBytes s poolBase v) = s := if_neg (by simp [hfrom])
    refine ⟨setFlag b PWR_BOOT_STS 11 true, ?_, rfl, ?_, same_memory ((hb.mono (by decide)).trans (hu.mono (qs := [.pwr, .regs]) (by decide)))⟩
    · show execBootChunk v s = _
      rw [execBootChunk, whileClocked_running _ hclk, bootChunk, if_neg (by simp [hst, hfrom])]
      dsimp only
      rw [hlen, if_neg (by simp [sramBytes_length]; omega), hbit, hclaim]
      rfl
    · exact (fld_setFld_apart PWR_BOOT_STS 11 11 _ 3 0 (by decide) (by decide) (by decide)).trans ((fld_congr (hb.rd _) _ _).trans hst)
  case claims =>
    have hlen : v % 2 ^ 21 = v := Nat.mod_eq_of_lt (by omega)
    have hbit : v.testBit 31 = false := Nat.testBit_lt_two_pow (by omega)
    let img := s.pwr.image ++ sramBytes s poolBase v
    have himg : img.length = s.pwr.image.length + v := by simp [img]
    let b := claimImage s 1 img
    let d : State := { b with pwr := { b.pwr with image := img } }
    have hclaim : b.pwr.imageFrom = (if 256 ≤ s.pwr.image.length + v then 1 else 0) ∧ (256 ≤ s.pwr.image.length + v → fld b PWR_BOOT_STS 9 8 = 1) ∧ bootSt b = 2 ∧
        Same [.pwr, .regs] s b := by
      by_cases hwhole : 256 ≤ s.pwr.image.length + v
      · let e : State := { s with pwr := { s.pwr with imageFrom := 1 } }
        have he : Same [.pwr] s e := fun q hq => by cases q <;> first | rfl | exact absurd (by decide) hq
        have hb : b = setFld e PWR_BOOT_STS 9 8 1 := if_pos (by simp [hfrom, himg, hwhole])
        rw [hb, if_pos hwhole]
        refine ⟨rfl, fun _ => fld_setFld_same _ _ _ _ (by decide) (by decide), ?_, (he.mono (by decide)).trans ((setFld_same _ _ _ _ _).mono (by decide))⟩
        exact (fld_setFld_apart PWR_BOOT_STS 9 8 _ 3 0 (by decide) (by decide) (by decide)).trans ((fld_congr (he.rd _) _ _).trans hst)
      · have hb : b = s := if_neg (by simp [himg]; omega)
        rw [hb, if_neg hwhole]
        exact ⟨hfrom, fun h => absurd h hwhole, hst, Same.refl _ _⟩
    obtain ⟨hfrom', hsource, hboot, hsame⟩ := hclaim
    have hd : Same [.pwr] b d := fun q hq => by cases q <;> first | rfl | exact absurd (by decide) hq
    have hu := setFlag_same d PWR_BOOT_STS 11 true
    refine ⟨setFlag d PWR_BOOT_STS 11 true, ?_, hfrom', fun hwhole => ?_, ?_, same_memory (hsame.trans ((hd.mono (by decide)).trans (hu.mono (by decide))))⟩
    · show execBootChunk v s = _
      rw [execBootChunk, whileClocked_running _ hclk, bootChunk, if_neg (by simp [hst, hfrom])]
      dsimp only
      rw [hlen, if_neg (by simp [sramBytes_length]; omega), hbit]
      rfl
    · exact (fld_setFld_apart PWR_BOOT_STS 11 11 _ 9 8 (by decide) (by decide) (by decide)).trans ((fld_congr (hd.rd _) _ _).trans (hsource hwhole))
    · exact (fld_setFld_apart PWR_BOOT_STS 11 11 _ 3 0 (by decide) (by decide) (by decide)).trans ((fld_congr (hd.rd _) _ _).trans hboot)

/-- Settles O60: resets and supplies, and the boot. -/
theorem resetsAndBoot : Obligations.ResetsAndBoot := ⟨resetsAreSafe, bootStarts⟩

end Sys2Proof.Proofs

/-! PROOFS. Every command of the forms of jobs, tables, overlap, scanners, laser ports, photodiode inputs and cameras completes (R135, R137). -/

namespace Sys2Proof.Proofs

-- One theorem after the other: elaborated at once, their threads outgrow the memory that a check may take.
set_option Elab.async false

open Sys2Proof.Machine Sys2Proof.Laws

section
variable {o : Host.Outcome State Fault Refusal} {s : State} {h : Issue} {op key r0 r1 r2 ex : Nat} {st : Status} {aux : List Nat} {P Q : State → Prop}

theorem does_mono (hd : Does o s P) (himp : ∀ u, P u → Q u) : Does o s Q := by
  obtain ⟨u, hu, hP⟩ := hd
  exact ⟨u, hu, himp u hP⟩

theorem completes_mono (hc : Completes o s h op st r0 r1 r2 ex P) (himp : ∀ u, P u → Q u) : Completes o s h op st r0 r1 r2 ex Q := by
  obtain ⟨u, hu, hP⟩ := hc
  exact ⟨u, hu, himp u hP⟩

theorem runsOn_mono (hr : RunsOn o s h op key aux P) (himp : ∀ u, P u → Q u) : RunsOn o s h op key aux Q := by
  obtain ⟨u, hu, hP⟩ := hr
  exact ⟨u, hu, himp u hP⟩

end

/-! ### The scanner commands -/

/-- The fields that LANE_CONFIG stages (R213). -/
def laneFields (n flags vmark vjump accel jerk zv za zj winXy winZ delay count errs : Nat) : List (Nat × Nat × Nat × Nat) :=
  [(SCN_VMAX_MARK n, 31, 0, vmark), (SCN_VMAX_JUMP n, 31, 0, vjump), (SCN_ACCEL n, 31, 0, accel), (SCN_JERK n, 31, 0, jerk), (SCN_ZVMAX n, 31, 0, zv),
   (SCN_ZACCEL n, 31, 0, za), (SCN_ZJERK n, 31, 0, zj), (SCN_DEV_WIN n, 31, 16, winZ), (SCN_DEV_WIN n, 15, 0, winXy), (SCN_DEV_CFG n, 31, 31, flags),
   (SCN_DEV_CFG n, 25, 16, delay), (SCN_DEV_CFG n, 15, 8, errs), (SCN_DEV_CFG n, 7, 0, count)]

section
variable {s : State} {h : Issue} {n : Nat}

/-- What a lane knows of its link's frames begins anew (R227). -/
def unlinked (l : Lane) : Lane := { l with frameSeq := 0, expFrame := 0, goodRun := 0, errRun := 0, devRun := 0, devRaised := false, sent := [], lastDev := 0 }

/-- A link that restarts without a return direction is up (R231). -/
theorem linkRestart_up (hgen : linkGen s n = 1) : linkGen (linkRestart s n) n = 1 ∧ linkState (linkRestart s n) n = 2 := by
  let b := updLane (setFld s (SCN_STS n) 1 0 2) n unlinked
  let c := setFld (setFlag b (SCN_STS n) 9 false) (SCN_STS n) 8 5 0
  have hb : ∀ a, rd b a = rd (setFld s (SCN_STS n) 1 0 2) a := (updLane_same _ _ _).rd
  have heq : linkRestart s n = wrN (wrN (wrN (wrN c (SCN_RPT_X n) 0) (SCN_RPT_Y n) 0) (SCN_RPT_Z n) 0) (SCN_DEV_MAX n) 0 := by
    rw [linkRestart, hgen]
    rfl
  have hkeep : ∀ a, a < SCN_RPT_X n → rd (linkRestart s n) a = rd c a := fun a ha => by
    simp only [SCN_RPT_X] at ha
    rw [heq, rd_wrN_other _ (by simp only [SCN_DEV_MAX]; omega), rd_wrN_other _ (by simp only [SCN_RPT_Z]; omega), rd_wrN_other _ (by simp only [SCN_RPT_Y]; omega),
      rd_wrN_other _ (by simp only [SCN_RPT_X]; omega)]
  constructor
  · have hother : SCN_LINK_CFG n ≠ SCN_STS n := by simp only [SCN_LINK_CFG, SCN_STS]; omega
    rw [linkGen, fld_congr ((hkeep _ (by simp only [SCN_LINK_CFG, SCN_RPT_X]; omega)).trans ((rd_setFld_other _ _ _ hother).trans
      ((rd_setFlag_other _ _ hother).trans ((hb _).trans (rd_setFld_other _ _ _ hother)))))]
    exact hgen
  · rw [linkState, fld_congr (hkeep _ (by simp only [SCN_STS, SCN_RPT_X]; omega))]
    exact (fld_setFld_apart _ _ _ _ _ _ (by decide) (by decide) (by decide)).trans ((fld_setFld_apart _ 9 9 _ _ _ (by decide) (by decide) (by decide)).trans
      ((fld_congr (hb _) _ _).trans (fld_setFld_fits (by decide))))

theorem laneConfig_completes (hs : Starts s h 48) (hn : n < 24) (hon : domOn (accept s h) (2 + quadOf n) = true) {v : Nat} (hv1 : 1000 ≤ v) (hv2 : v ≤ 10000000)
    (hp : Spelled s h 0x0201 (.laneConfig h n 0 v v 100 1 v 100 1 1 1 0 1 1)) :
    Completes (exec (.laneConfig h n 0 v v 100 1 v 100 1 1 1 0 1 1) s) s h 0x0201 .ok 0 0 0 0 fun u =>
      shadowOf u (SCN_VMAX_MARK n) = BitVec.ofNat 32 v ∧ u.dirty.testBit 2 = true := by
  show Completes (execLaneConfig h n 0 v v 100 1 v 100 1 1 1 0 1 1 s) s h _ _ _ _ _ _ _
  rw [execLaneConfig]
  dsimp only
  rw [starts_body hs hp (by
    simp [hon, hn]
    omega)]
  exact ⟨staged (accept s h) 2 (laneFields n 0 v v 100 1 v 100 1 1 1 0 1 1), rfl,
    word_of_bits (staged_field _ _ 0 (by decide) (by decide) rfl (by
      simp [laneFields, apartFrom, SCN_VMAX_MARK, SCN_VMAX_JUMP, SCN_ACCEL, SCN_JERK, SCN_ZVMAX, SCN_ZACCEL, SCN_ZJERK, SCN_DEV_WIN, SCN_DEV_CFG])),
    staged_dirty _ _ (List.cons_ne_nil _ _)⟩

/-- The drift terms wait for the boundary that applies them (R233). -/
theorem driftTermsSet_completes (hs : Starts s h 48) (hn : n < 24) (hon : domOn (accept s h) (2 + quadOf n) = true) {mask : Nat} {terms : List Int} (hmask : mask < 256)
    (hfree : (lane (accept s h) n).drift = none) (hp : Spelled s h 0x0207 (.driftTermsSet h n 0 mask terms)) :
    RunsOn (exec (.driftTermsSet h n 0 mask terms) s) s h 0x0207 n [] fun u => (lane u n).drift = some ⟨0, mask, terms⟩ := by
  show RunsOn (execDriftTermsSet h n 0 mask terms s) s h _ _ _ _
  rw [execDriftTermsSet, starts_body hs hp (by simp [hn, hon, hmask, hfree])]
  exact ⟨_, rfl, congrArg Lane.drift (lane_updLane_same _ _ _)⟩

/-- A raw jog of a lane at rest begins (R232). -/
theorem laneJog_completes (hs : Starts s h 48) (hn : n < 24) (hon : domOn (accept s h) (2 + quadOf n) = true) (hjog : (lane (accept s h) n).jog = none)
    (hfree : laneInLayer (accept s h) n = false) (hsafe : (accept s h).pwr.safe = false) {x y z : Int} (hp : Spelled s h 0x0205 (.laneJog h n 1 x y z 1)) :
    RunsOn (exec (.laneJog h n 1 x y z 1) s) s h 0x0205 n [] fun u => (lane u n).jog = some ⟨true, x, y, z⟩ := by
  show RunsOn (execLaneJog h n 1 x y z 1 s) s h _ _ _ _
  rw [execLaneJog]
  dsimp only
  rw [starts_body hs hp (by simp [hn, hon, hfree, hsafe])]
  refine ⟨rawBegin (setFlag (accept s h) (SCN_STS n) 11 true) n x y z 1, congrArg (fun t => Host.Outcome.next (holding s t)) ?_,
    congrArg Lane.jog (lane_updLane_same _ _ _)⟩
  rw [if_neg (by simp [hjog]), if_pos (by decide)]

/-- A link without a return direction is up at once (R215, R231). -/
theorem scannerLinkSet_completes (hs : Starts s h 48) (hn : n < 24) (hon : domOn (accept s h) (2 + quadOf n) = true) (hjog : (lane (accept s h) n).jog = none)
    (hfree : laneInLayer (accept s h) n = false) (hp : Spelled s h 0x0203 (.scannerLinkSet h n 1 0)) :
    Completes (exec (.scannerLinkSet h n 1 0) s) s h 0x0203 .ok 0 0 0 0 fun u => linkGen u n = 1 ∧ linkState u n = 2 := by
  let a := accept s h
  let b := setFld (setFld (if linkGen a n ≠ 1 then mapDrop a n else a) (SCN_LINK_CFG n) 1 0 1) (SCN_LINK_CFG n) 3 2 0
  have hgen : linkGen b n = 1 := (fld_setFld_apart _ _ _ _ _ _ (by decide) (by decide) (by decide)).trans (fld_setFld_fits (by decide))
  obtain ⟨hgen', hup⟩ := linkRestart_up hgen
  show Completes (execScannerLinkSet h n 1 0 s) s h _ _ _ _ _ _ _
  rw [execScannerLinkSet, starts_body hs hp (by simp [hn, hon, hjog, hfree])]
  refine ⟨wrN (linkRestart b n) (SCN_LINK_ERRS n) 0, congrArg (fun t => Host.Outcome.next (holding s t)) (if_pos (by decide)), ?_, ?_⟩
  · exact (fld_congr (rd_wrN_other _ (by simp only [SCN_LINK_CFG, SCN_LINK_ERRS]; omega)) _ _).trans hgen'
  · exact (fld_congr (rd_wrN_other _ (by simp only [SCN_STS, SCN_LINK_ERRS]; omega)) _ _).trans hup

/-- An image in the slot of its lane's engine (R214). -/
def mapLoaded (s : State) (n : Nat) (img : List Byte) : State :=
  let s := putSram s (mapBase s n) (img ++ zeros (65536 - 50768))
  let m := undrift s n (cmdCounts s n)
  updLane (wrN (setFlag s (SCN_STS n) 10 true) (SCN_MAP_ID n) (leAt img 28 4)) n (fun l => { l with held := some m })

theorem mapLoaded_valid (s : State) (n : Nat) (img : List Byte) : mapValid (mapLoaded s n img) n = true :=
  (flag_congr (((updLane_same _ _ _).rd _).trans (rd_wrN_other _ (by simp only [SCN_STS, SCN_MAP_ID]; omega))) 10).trans (flag_setFlag_same _ _ _ (by decide))

/-- An enlarger map that is good stands in the slot of the lane's engine and is valid (R214). -/
theorem enlargerMapLoad_completes (hs : Starts s h 48) (hn : n < 24) (hon : domOn (accept s h) (2 + quadOf n) = true) (hjog : (lane (accept s h) n).jog = none)
    (hfree : laneInLayer (accept s h) n = false) {addr : Nat} (halign : addr % 64 = 0) (hdram : dramOk (accept s h) addr 50768 = true)
    (hgood : mapCheck (padTo 50768 (dramBytes (accept s h) addr 50768)) (linkWidth (linkGen (accept s h) n)) = none)
    (hp : Spelled s h 0x0202 (.enlargerMapLoad h n 1 addr [])) : ∃ id e,
    Completes (exec (.enlargerMapLoad h n 1 addr []) s) s h 0x0202 .ok id e 0 0 fun u => mapValid u n = true := by
  have hexec : exec (.enlargerMapLoad h n 1 addr []) s = execEnlargerMapLoad h n 1 addr [] s := rfl
  rw [hexec, execEnlargerMapLoad, if_neg (show ¬(1 : Nat) = 0 by decide), starts_body hs hp (by simp [hn, hon, halign, hjog, hfree])]
  have hbody : (if 1 = 1 && !dramOk (accept s h) addr 50768 then fail (accept s h) h 0x0202 .cfgRejected else
      match mapCheck (padTo 50768 (dramBytes (accept s h) addr 50768)) (linkWidth (linkGen (accept s h) n)) with
      | some st => fail (accept s h) h 0x0202 st
      | none => complete (mapLoaded (accept s h) n (padTo 50768 (dramBytes (accept s h) addr 50768))) h 0x0202 .ok
          (leAt (padTo 50768 (dramBytes (accept s h) addr 50768)) 28 4) (engineOf (mapLoaded (accept s h) n (padTo 50768 (dramBytes (accept s h) addr 50768))) n) 0 0) =
      complete (mapLoaded (accept s h) n (padTo 50768 (dramBytes (accept s h) addr 50768))) h 0x0202 .ok
        (leAt (padTo 50768 (dramBytes (accept s h) addr 50768)) 28 4) (engineOf (mapLoaded (accept s h) n (padTo 50768 (dramBytes (accept s h) addr 50768))) n) 0 0 := by
    rw [if_neg (by simp [hdram]), hgood]
  exact ⟨_, _, _, congrArg (fun t => Host.Outcome.next (holding s t)) hbody, mapLoaded_valid _ _ _⟩

end

theorem laneCommandsComplete : Claim.LaneCommandsComplete := by
  intro s h hs a
  obtain ⟨jobOpen, jobClose, recipes, lanesets⟩ := jobsAndTables s h hs
  obtain ⟨-, zones, plume, stitch⟩ := overlapCommands.2 s h hs
  obtain ⟨laser, ledger⟩ := laserCommands s h hs
  obtain ⟨afe, calibrate, calRead, calWrite⟩ := afeCommands s h hs
  obtain ⟨csi, context, route⟩ := cameraCommands s h hs
  refine ⟨fun id hb hl db dl h1 h2 h3 h4 h5 h6 h7 h8 hjob hhost hdev hp => ?opened, fun id hjob hst hp => ?close,
    fun first addr hfirst halign harea htables hdram hok hp => ?recipe, fun first inl h1 h2 htables hp => ?laneset, fun addr layer hjob hquiet hp => ?layer,
    fun zone en hzone hen hp => ?zone, fun depth length half h1 h2 hp => ?plume, fun zone overlap amp h1 h2 h3 h4 hp => ?stitch, fun n hn hon => ⟨?config, fun hjog hfree =>
      ⟨?map, ?link, ?jog, ?laser⟩, ?drift⟩, fun budget hp => ?ledger, fun n hn hon => ⟨?afe, ?calibrate⟩, fun addr haddr hp => ?calRead,
    fun addr halign harea hdram hpass hon hp => ?calWrite, fun port rate hport h1 h2 hon hidle hp => ?csi, fun c hc hcommit => ⟨?context, ?route⟩⟩
  case opened => exact completes_mono (jobOpen id hb hl db dl h1 h2 h3 h4 h5 h6 h7 h8 hjob hhost hdev hp) fun u hu => hu.1
  case close => exact completes_mono (jobClose id hjob hst hp) fun u hu => hu.1
  case recipe =>
    have hslice : slice (dramBytes a addr (64 * 1)) 0 64 = dramBytes a addr 64 := List.take_of_length_le (by simp [dramBytes_length])
    have hnone : (List.range 1).find? (fun i => !recipeOk (slice (dramBytes a addr (64 * 1)) i 64) (first + i)) = none := by
      simp only [List.range_one, List.find?_singleton, hslice, Nat.add_zero]
      rw [if_neg (by simp [hok])]
    obtain ⟨r0, hload⟩ := (recipes first 1 addr hfirst (by decide) (by omega) halign harea htables hdram hp).2 hnone
    exact ⟨r0, completes_mono hload fun u hu => (hu.1 0 (by decide)).trans (congrArg recipeAt hslice)⟩
  case laneset =>
    intro set hset
    have hzero : (List.range 4).map (fun c => leAt (inl.map (BitVec.ofNat 8)) (8 * 0 + 2 * c) 2) = set :=
      List.map_congr_left fun c _ => by rw [Nat.mul_zero, Nat.zero_add]
    have hnone : (List.range 1).find? (fun i => !laneSetOk (ownAddr a) ((List.range 4).map (fun c => leAt (inl.map (BitVec.ofNat 8)) (8 * i + 2 * c) 2))) = none := by
      simp only [List.range_one, List.find?_singleton]
      rw [hzero, if_neg (by simp [hset])]
    obtain ⟨r0, hload⟩ := (lanesets first 1 inl h1 (by decide) (by decide) (by omega) htables hp).2 hnone
    exact ⟨r0, completes_mono hload fun u hu => (hu.1 0 (by decide)).trans hzero⟩
  case layer => exact runsOn_mono (loadingAndRefill.1 s h hs addr layer hjob hquiet hp) fun u hu => hu.1
  case zone => exact completes_mono (zones zone en 0 0 hzone hen hp) fun u hu => hu.1
  case plume => exact completes_mono (plume 1 depth length half 0 0 (by decide) h1 h2 (by decide) (by decide) hp) fun u hu => ⟨hu.1, hu.2.1⟩
  case stitch => exact completes_mono (stitch zone overlap amp h1 h2 h3 h4 hp) fun u hu => hu.1
  case config => exact fun v hv1 hv2 hp => laneConfig_completes hs hn hon hv1 hv2 hp
  case map => exact fun addr halign hdram hgood hp => enlargerMapLoad_completes hs hn hon hjog hfree halign hdram hgood hp
  case link => exact fun hp => scannerLinkSet_completes hs hn hon hjog hfree hp
  case jog => exact fun x y z hsafe hp => laneJog_completes hs hn hon hjog hfree hsafe hp
  case laser =>
    exact fun mode hmode hp => completes_mono (laser n mode 0 1 1 0 0 hn hon hfree hmode (by decide) (by decide) (by decide) (by decide) (by decide) (by decide) (by decide) hp)
      fun u hu => hu.1
  case drift => exact fun mask terms hmask hnone hp => driftTermsSet_completes hs hn hon hmask hnone hp
  case ledger => exact completes_mono (ledger budget 0 0 (by decide) hp) fun u hu => hu.1
  case afe =>
    exact fun d hd1 hd2 hp => completes_mono (afe n 0 d 0 32768 16 hn hon (by decide) hd1 hd2 (by decide) (by decide) (by decide) (by decide) (by decide) hp) fun u hu => hu.1
  case calibrate =>
    intro hen hrun hpend hp
    obtain ⟨u, aux, hexec, -, -, hbit, -⟩ := calibrate n 0 0 hn (by decide) (by decide) hon hen hrun hpend hp
    exact ⟨u, aux, hexec, hbit⟩
  case calRead =>
    rw [calRead 0 1 addr (by decide) (by decide) (by decide) haddr hp]
    simp only [List.range_one, List.flatMap_cons, List.flatMap_nil, List.append_nil, Nat.zero_add, Nat.mul_one] <;> rfl
  case calWrite =>
    have hrecs : (List.range 1).map (fun j => ((dramBytes a addr (32 * 1)).drop (32 * j)).take 32) = [dramBytes a addr 32] :=
      congrArg (· :: []) (List.take_of_length_le (by simp [dramBytes_length]))
    have hwrite := calWrite 1 addr (by decide) (by decide) halign harea hdram
    rw [hrecs] at hwrite
    obtain ⟨u, hu, rfl⟩ := hwrite hpass (by simpa using hon) hp
    rw [hu]
    simp only [List.flatMap_cons, List.flatMap_nil, List.append_nil] <;> rfl
  case csi => exact completes_mono (csi port 1 rate 100 hport (by decide) (by decide) h1 h2 (by decide) (by decide) hon hidle hp) fun u hu => hu.1
  case context =>
    exact fun fields hfields hok hp => runsOn_mono ((context c fields hc hfields hcommit hp).1 hok) fun u hu => by rw [hu.1]; rfl
  case route =>
    intro n hn b hok hp
    have hroute := route c n 0 0 hc hn (by decide) (by decide) hcommit
    simp only [Nat.zero_mul, Nat.add_zero] at hroute
    exact runsOn_mono (hroute hok hp) fun u hu => by rw [hu.1] <;> rfl

end Sys2Proof.Proofs

/-! PROOFS. Every command of the forms of the burn map, DRAM, DMA, codecs, faults and the recorder completes (R135, R137). -/

namespace Sys2Proof.Proofs

-- One theorem after the other: elaborated at once, their threads outgrow the memory that a check may take.
set_option Elab.async false

open Sys2Proof.Machine Sys2Proof.Laws

section
variable {s : State} {h : Issue}

/-- A GONE entry that is not FATAL is freed, whether or not the device leaves the safe state with it (R560). -/
theorem faultClear_completes (hs : Starts s h 48) {i : Nat} (hi : i < 64) (hgone : entrySt (accept s h) i = 2)
    (hfatal : fld (accept s h) (FLT_ENTRY_W0 i) 29 27 ≠ clsFatal) (hp : Spelled s h 0x0B02 (.faultClear h 0 0 0 (1 <<< i))) :
    Completes (exec (.faultClear h 0 0 0 (1 <<< i)) s) s h 0x0B02 .ok 1 0 0 0 fun u => entrySt u i = 0 := by
  refine ⟨entryCleared (accept s h) i, ?_, ?_⟩
  · show execFaultClear h 0 0 0 (1 <<< i) s = _
    rw [execFaultClear, starts_body hs hp (by simp)]
    exact congrArg (fun t => Host.Outcome.next (holding s t)) (clearNamed_one hi hgone hfatal)
  · have hrange : (decide (0x1C0000 ≤ FLT_ENTRY_W0 i) && decide (FLT_ENTRY_W0 i < 0x200000)) = false := by
      rw [decide_eq_false (show ¬FLT_ENTRY_W0 i < 0x200000 by simp only [FLT_ENTRY_W0]; omega), Bool.and_false]
    have hword : rd (entryCleared (accept s h) i) (FLT_ENTRY_W0 i) = rd (freeEntry (accept s h) i) (FLT_ENTRY_W0 i) :=
      (leaveSafe_regs _ _ hrange).trans
        (fltShow_rd (by simp only [FLT_ENTRY_W0, FLT_STS]; omega))
    show natBits (rdN _ _) 31 30 = 0
    rw [rdN_congr hword, (freeEntry_freed _ hi).1]
    rfl

/-- No freeze of the tick trace is left to come (R571). -/
def traceKept (s : State) : State := { s with evr := { s.evr with freezeNow := none } }

theorem traceKept_rd (s : State) (a : Nat) : rd (traceKept s) a = rd s a := rfl

/-- The flag of a freeze ends with the command that takes its record (R571). -/
theorem blackboxThaw_completes (hs : Starts s h 48) (hp : Spelled s h 0x0B07 (.blackboxRead h 2 0 0 0)) (hcls : faultAtLeast (accept s h) clsDevice = false) :
    Completes (exec (.blackboxRead h 2 0 0 0) s) s h 0x0B07 .ok 0 0 0 0 fun u => flag u EVR_STS 1 = false := by
  refine ⟨traceKept (putHeader (setFlag (accept s h) EVR_STS 1 false) 12 [0]), ?_, ?_⟩
  · show execBlackboxRead h 2 0 0 0 s = _
    rw [execBlackboxRead, starts_body hs hp (by simp [hostAddrOk, hcls])]
    rfl
  · have hshown : rd (traceKept (putHeader (setFlag (accept s h) EVR_STS 1 false) 12 [0])) EVR_STS = rd (setFlag (accept s h) EVR_STS 1 false) EVR_STS :=
      (traceKept_rd _ _).trans ((putHeader_same _ _ _).rd _)
    exact (flag_congr hshown 1).trans (flag_setFlag_same _ _ _ (by decide))

end

theorem unitCommandsComplete : Claim.UnitCommandsComplete := by
  intro s h hs a
  obtain ⟨burnConfig, burnLoad, burnSave, freeze, -⟩ := burnCommands s h hs
  obtain ⟨train, -, device⟩ := dramCommands.1 s h hs
  obtain ⟨channel, start, stop⟩ := dmaCommands s h hs
  obtain ⟨faultRead, -, recFreeze, recThaw, -⟩ := faultCommands s h hs
  refine ⟨fun cell h1 h2 hp => ?config, fun hst hbusy hp => burnLoad 0 (by decide) hst hbusy hp, fun addr halign hring hst hbusy hdram hp =>
      ⟨_, burnSave addr halign hring hst hbusy hdram hp⟩, fun op hop hp => freeze op hop hp, fun c hc hon h1 h2 h3 hjob hgrant hp => ?train, fun hours h1 h2 hp => ?ddr,
    fun c rate hc hrate hp => ?channel, fun c addr hc halign haddr herr hidle hp => ?start, fun c hc hactive hflight hp => ?stop, fun g hg hon hidle format outAddr inLen outLen =>
      ⟨?compress, fun cap => ?decompress⟩, fun g hg hon => ⟨fun used hst hstream hp => ?flush, fun j hst hjob hp => ?resume⟩,
    fun addr haddr hp => faultRead addr haddr hp, fun i hi hgone hfatal hp => faultClear_completes hs hi hgone hfatal hp, fun hp => ?freeze, fun hp => ?thaw,
    fun hp hcls _ => blackboxThaw_completes hs hp hcls⟩
  case config =>
    exact completes_mono (burnConfig 0 0 0 1 0 0 cell 1 1 0 0 1 1 (by decide) (by decide) (by decide) (by decide) (by decide) h1 h2 (by decide) (by decide) (by decide)
      (by decide) (by decide) (by decide) (by decide) (by decide) (by decide) (by decide) hp) fun u ⟨_, _, _, hcell, _⟩ => hcell
  case train => exact runsOn_mono (train c hc hon h1 h2 h3 hjob hgrant hp) fun u hu => hu.1
  case ddr =>
    exact completes_mono (device 0 hours 250 512 1 100 (by decide) h1 h2 (by decide) (by decide) (by decide) (by decide) (by decide) (by decide) (by decide) (by decide) hp)
      fun u hu => hu.1
  case channel => exact runsOn_mono (channel c 0 rate hc (by decide) hrate hp) fun u ⟨_, _, _, hlive⟩ => hlive
  case start =>
    obtain ⟨u, hexec, hst, -⟩ := start c 1 addr hc (by decide) halign haddr (fun h0 => absurd h0 (by decide)) herr hidle hp
    exact ⟨u, hexec, hst⟩
  case stop =>
    have hmask : 0 < 1 <<< c ∧ 1 <<< c < 2 ^ 32 := ⟨by rw [Nat.one_shiftLeft]; positivity, by rw [Nat.one_shiftLeft]; exact Nat.pow_lt_pow_right (by decide) hc⟩
    exact does_mono (stop (1 <<< c) hmask.1 hmask.2 hp) fun u hu => (hu.1 c hc (by rw [Nat.one_shiftLeft, Nat.testBit_two_pow_self]) hactive).trans (if_pos hflight)
  case compress =>
    intro j hparams hin hout hp
    obtain ⟨compress, -⟩ := codecCommands s h g hs hg hon
    exact runsOn_mono (compress format 0 1 1 1 0 outAddr inLen outLen hparams (fun h0 => absurd h0 (by decide)) hidle (fun _ => hin) (fun _ => hout) hp)
      fun u hu => ⟨hu.1, hu.2.1⟩
  case decompress =>
    intro j hparams hin hout hp
    obtain ⟨-, decompress, -⟩ := codecCommands s h g hs hg hon
    exact runsOn_mono (decompress format 1 1 1 0 outAddr inLen outLen 0 cap hparams (fun h0 => absurd h0 (by decide)) hidle (fun _ => hin) (fun _ => hout) hp)
      fun u hu => ⟨hu.1, hu.2.1⟩
  case flush =>
    obtain ⟨-, -, flush, -⟩ := codecCommands s h g hs hg hon
    exact ⟨_, _, flush used hst hstream hp⟩
  case resume =>
    obtain ⟨-, -, -, -, resume⟩ := codecCommands s h g hs hg hon
    exact ⟨_, _, completes_mono ((resume j hst hjob).1 hp) fun u hu => hu.1⟩
  case freeze => exact ⟨_, setFlag a EVR_STS 0 true, recFreeze hp, flag_setFlag_same _ _ _ (by decide)⟩
  case thaw => exact ⟨_, completes_mono (recThaw hp) fun u hu => hu.1⟩

/-- Settles O58: every command of these forms completes. -/
theorem commandsComplete : Obligations.CommandsComplete := ⟨laneCommandsComplete, unitCommandsComplete⟩

end Sys2Proof.Proofs

/-! PROOFS. Every event of the forms of the layer, the ledger, the overlap unit, the scanners, the laser pins, the photodiode inputs and the burn map takes effect. -/

namespace Sys2Proof.Proofs

-- One theorem after the other: elaborated at once, their threads outgrow the memory that a check may take.
set_option Elab.async false

open Sys2Proof.Machine Sys2Proof.Laws

section
variable {s : State} {n : Nat}

/-! ### The scanner links -/

theorem exec_scannerLinkTimeout (hclk : Clocked s) (haged : (findRun s 0x0203 n).any (Running.aged s 10000000) = true) :
    exec (.scannerLinkTimeout n) s = .next (holding s (finishAll s 0x0203 n .timeout 0 0 0 0)) := by
  show execScannerLinkTimeout n s = _
  rw [execScannerLinkTimeout, whileClocked_running _ hclk, if_pos haged]

theorem exec_jogTargetReached (hclk : Clocked s) (hdone : jogDone s n = true) : exec (.jogTargetReached n) s = .next (holding s (endJog (rawEnd s n) n .ok 0)) := by
  show execJogTargetReached n s = _
  rw [execJogTargetReached, whileClocked_running _ hclk, if_neg (by simp [hdone])]

/-- A jump takes its new target at the boundary, or stays on its path (R211). -/
theorem jumpRetarget_taken (hclk : Clocked s) {q : Retarget} (hq : (lane s n).retarget = some q) (hjog : q.jog = false) (hphase : (lane s n).phase = .jump) :
    Does (exec (.jumpRetarget n) s) s fun u => (lane u n).retarget = none := by
  let b := updLane s n (fun l => { l with retarget := none })
  let m := planTo b n ((lane s n).motion.rates (lane s n).motion.t) q.x q.y q.f q.v
  have hexec : exec (.jumpRetarget n) s = .next (holding s (if leavesField b n m then b else updLane b n (fun l => { l with motion := m }))) := by
    show execJumpRetarget n s = _
    rw [execJumpRetarget, whileClocked_running _ hclk]
    simp only [hq, hjog, hphase]
    rfl
  have hb : (lane b n).retarget = none := congrArg Lane.retarget (lane_updLane_same _ _ _)
  refine ⟨_, hexec, ?_⟩
  split
  · exact hb
  · exact (congrArg Lane.retarget (lane_updLane_same b n _)).trans hb

/-- The drift terms of a lane written to their registers (R233). -/
def driftWritten (s : State) (n : Nat) (d : DriftStage) : State :=
  (List.range 8).foldl (fun s i => if d.mask.testBit i then wrI s ((driftRegs n).getD i 0) (d.terms.getD i 0) else s) s

theorem driftApply_taken (hclk : Clocked s) {d : DriftStage} (hd : (lane s n).drift = some d) (happly : d.apply = 0) :
    Does (exec (.driftApply n) s) s fun u => (lane u n).drift = none := by
  let b := updLane (driftWritten s n d) n (fun l => { l with drift := none })
  refine ⟨finishRun b 0x0207 n .ok (tickNo b) 0 0 0, ?_, ?_⟩
  · show execDriftApply n s = _
    rw [execDriftApply, whileClocked_running _ hclk]
    simp only [hd, happly]
    rfl
  · exact (congrArg Lane.drift (lane_congr (finishRun_same _ _ _ _ _ _ _ _).lanes n)).trans (congrArg Lane.drift (lane_updLane_same _ _ _))

theorem driftTimeout_taken (hclk : Clocked s) {d : DriftStage} (hd : (lane s n).drift = some d) (happly : d.apply = 1)
    (haged : (findRun s 0x0207 n).all (Running.aged s 1000000000) = true) : Does (exec (.driftTimeout n) s) s fun u => (lane u n).drift = none := by
  let b := updLane s n (fun l => { l with drift := none })
  refine ⟨finishRun b 0x0207 n .timeout 0 0 0 0, ?_, ?_⟩
  · show execDriftTimeout n s = _
    rw [execDriftTimeout, whileClocked_running _ hclk]
    simp only [hd, happly, haged]
    rfl
  · exact (congrArg Lane.drift (lane_congr (finishRun_same _ _ _ _ _ _ _ _).lanes n)).trans (congrArg Lane.drift (lane_updLane_same _ _ _))

/-- What the pair of a BSL3 lane carries without a delimiter or with a group that is no data group is a link error (R225). -/
theorem exec_returnFrame_ungrouped (hclk : Clocked s) {line : Nat} (hgen : linkGen s n = 3) (hpol : flag s (SCN_LINK_CFG n) 3 = false) (hline : ungroup 23 line = none) :
    exec (.returnFrame n line) s = .next (holding s (linkError s n)) := by
  show execReturnFrame n line s = _
  rw [execReturnFrame, whileClocked_running _ hclk]
  simp only [hgen, hpol]
  rw [if_neg (by decide), if_neg (by decide), show frameNibbles 3 = 23 from rfl, hline]

/-- A frame that does not come is one more error in a row (R227). -/
theorem returnFrameTimeout_counts (hclk : Clocked s) (hgen : 2 ≤ linkGen s n) :
    Does (exec (.returnFrameTimeout n) s) s fun u => (lane u n).errRun = (lane s n).errRun + 1 := by
  refine ⟨linkError s n, ?_, ?_⟩
  · show execReturnFrameTimeout n s = _
    rw [execReturnFrameTimeout, whileClocked_running _ hclk, if_neg (by omega)]
  · exact (congrArg Lane.errRun (lane_updLane_same _ _ _)).trans (congrArg (fun l => l.errRun + 1) (lane_congr (satInc_same _ _).lanes n))

/-- Outside a layer a link with too many errors in a row is lost with an event (R228). -/
theorem linkLost_event (hclk : Clocked s) (hup : linkState s n = 2) (hgen : 2 ≤ linkGen s n) (herrs : fld s (SCN_DEV_CFG n) 15 8 ≤ (lane s n).errRun)
    (hfree : laneInLayer s n = false) (hn : n < 24) : Does (exec (.linkLost n) s) s fun u => linkState u n = 3 := by
  let b := setFld s (SCN_STS n) 1 0 3
  let lost := updLane b n (fun l => { l with goodRun := 0 })
  have hlost : ∀ a, a ≠ SCN_STS n → rd lost a = rd s a := fun a ha => ((updLane_same b n _).rd a).trans (rd_setFld_other _ _ _ ha)
  have hstill : laneInLayer lost n = false := by
    have hseq : layerSt lost = layerSt s := layerSt_congr (hlost _ (by simp only [SEQ_STS, SCN_STS]; omega))
    have hlane : flag lost (LN_CFG n) 0 = flag s (LN_CFG n) 0 := flag_congr (hlost _ (by simp only [LN_CFG, SCN_STS]; omega)) _
    rw [laneInLayer, inLayer, hseq, hlane]
    exact hfree
  refine ⟨laneEvent lost n 0x1201 [], ?_, ?_⟩
  · show execLinkLost n s = _
    rw [execLinkLost, whileClocked_running _ hclk, if_neg (by simp [hup, herrs]; omega)]
    exact congrArg (fun t => Host.Outcome.next (holding s t)) (if_neg (ne_true_of_eq_false hstill))
  · have hevent : rd (laneEvent lost n 0x1201 []) (SCN_STS n) = rd lost (SCN_STS n) := laneEvent_regs _ _ _ _ _ (by simp [evrReg, EVR_SEQ, EVR_STS, EVR_LOST, SCN_STS]; omega)
    exact (fld_congr (hevent.trans ((updLane_same b n _).rd _)) _ _).trans (fld_setFld_fits (by decide))

theorem exec_scanDeviation (hclk : Clocked s) (hen : flag s (SCN_DEV_CFG n) 31 = true) (hrun : fld s (SCN_DEV_CFG n) 7 0 < (lane s n).devRun)
    (hnew : (lane s n).devRaised = false) (hin : laneInLayer s n = true) :
    exec (.scanDeviation n) s = .next (holding s (raiseFault (updLane s n (fun l => { l with devRaised := true })) clsLane 0x0106 (srcLane n) [])) := by
  show execScanDeviation n s = _
  rw [execScanDeviation, whileClocked_running _ hclk]
  exact congrArg (fun t => Host.Outcome.next (holding s t)) (if_pos (by simp [hen, hrun, hnew, hin]))

/-! ### Peers -/

/-- A peer whose positions stop is stale (R277). -/
theorem staleShown_testBit (s : State) (peer code : Nat) (bs : List Byte) :
    (event (staleShow s (natSet s.ovl.stale peer)) srcDevice code bs).ovl.stale.testBit peer = true := by
  rw [(event_same _ _ _ _).ovl]
  exact natSet_testBit_same _ _

end

theorem laneEventsComplete : Claim.LaneEventsComplete := by
  intro s n hclk hn
  obtain ⟨layerStart, resumeStart, stopBath, stopEnd, -, -, stopTimeout⟩ := layerBoundaries s hclk
  obtain ⟨abort, done, underruns, remark⟩ := layerEnds s hclk
  obtain ⟨-, alm, -, rdy, -, grant⟩ := laserPinsAndGrants s n hclk hn
  obtain ⟨estimateSend, estStale, withdrawal, -⟩ := overlapCommands.1 s hclk
  obtain ⟨-, border, borderTimeout, update, -⟩ := burnWork s hclk
  refine ⟨fun addr r hload hrun hst hgood => ?passEnd, fun q bad hin hnone => (loadingAndRefill.2 s hclk).2.2 q bad hin hnone, fun t hstart hst hdue => ?layerStart,
    fun t hstart hst hdue => ?resumeStart, fun hst hreq habort hopen => ?stopBath, fun hst hparked => does_mono (stopEnd hst hparked) fun u hu => hu.1,
    fun hst hlate => stopTimeout hst hlate, fun habort hlo hhi => ?abort, fun hst hres habort => ?done, fun hin hlimit hphase => underruns n hin hlimit hphase,
    fun hst hphase hrest hfull => remark n hst hphase hrest hfull, fun hst hnone => ?grant, fun lanes => does_mono (estimateSend lanes) fun u hu => hu.2.1, estStale,
    fun via src hup => ?tokens, fun hlate => ?claim, fun peer hpos hfresh hlate => ?stale, fun hnone hquiet => does_mono (withdrawal hnone hquiet) fun u hu => hu.1,
    fun haged => exec_scannerLinkTimeout hclk haged, fun hdone => exec_jogTargetReached hclk hdone, fun q hq hjog hphase => jumpRetarget_taken hclk hq hjog hphase,
    fun d hd happly => driftApply_taken hclk hd happly, fun d hd happly haged => driftTimeout_taken hclk hd happly haged,
    fun line hgen hpol hline => exec_returnFrame_ungrouped hclk hgen hpol hline, fun hgen => returnFrameTimeout_counts hclk hgen,
    fun hup hgen herrs hfree => linkLost_event hclk hup hgen herrs hfree hn, fun hen hrun hnew hin => exec_scanDeviation hclk hen hrun hnew hin,
    ⟨_, alm, flag_setFlag_same _ _ _ (by decide)⟩, fun hdark => ⟨_, rdy hdark, flag_setFlag_same _ _ _ (by decide)⟩,
    fun hon => ⟨fun hpend hnow1 => ?calStart, fun i hi hdue => ?calDeadline, fun r pd0 pd1 hrun hdue hresult hother => ?calEnd⟩, fun layer hend => ?update,
    fun peer hend hlate hopen hshare => ⟨_, borderTimeout peer hend hlate hopen hshare, by simp⟩⟩
  case passEnd =>
    obtain ⟨u, hexec, -, hloading, -⟩ := (loadingAndRefill.2 s hclk).1 addr r 0 0 hload hrun hst hgood
    exact ⟨_, hexec, (congrArg Seq.loading (finishRun_same _ _ _ _ _ _ _ _).seq).trans hloading⟩
  case layerStart =>
    obtain ⟨u, hexec, hst', -⟩ := layerStart t hstart hst hdue
    exact ⟨u, hexec, hst'⟩
  case resumeStart =>
    obtain ⟨u, hexec, hst', -⟩ := resumeStart t hstart hst hdue
    exact ⟨u, hexec, hst'⟩
  case stopBath =>
    obtain ⟨u, hexec, hst', -⟩ := stopBath hst hreq habort hopen
    exact ⟨u, hexec, hst'⟩
  case abort => exact does_mono (abort ⟨2, 0⟩ habort hlo hhi (.inl (by decide))) fun u hu => hu.1
  case done =>
    refine does_mono (done hst hres fun c hc => ?_) fun u hu => hu.1
    rw [habort] at hc
    exact absurd hc (by simp)
  case grant => exact does_mono ((grant (.inl hst)).1 hnone) fun u hu => hu.1
  case tokens =>
    obtain ⟨estimate, claim, grantToken, -, deny, -, -, giveBack, doneToken, position, -⟩ := handoffTokens s via src hclk hup
    refine ⟨fun flags entries => does_mono (estimate flags entries) fun u hu => hu.2.1, fun zone lane_ e q req => does_mono (claim zone lane_ e q req) fun u hu => hu.1,
      fun zone seg lane_ req notBefore lo hi split rec_ hcrc hopen htakes hout => ?_, fun zone lane_ req z hout => does_mono (deny zone lane_ req z hout) fun u hu => hu.1,
      fun seg lane_ vid resumeAt hheld => does_mono (giveBack seg lane_ vid resumeAt hheld) fun u hu => hu.1, fun seg lane_ vid endTime e hfind => ?_,
      fun recs => does_mono (position recs) fun u hu => hu.2.1, fun layer last cells => does_mono (border via src layer last cells hup) fun u hu => ?_⟩
    · refine does_mono (grantToken zone seg lane_ req notBefore lo hi split rec_ hcrc hopen htakes hout) fun u hu => ?_
      obtain ⟨-, ⟨w, hclaimed, -⟩, -⟩ := hu
      rw [hclaimed, List.length_append, List.length_singleton]
    · refine does_mono (doneToken seg lane_ vid endTime e hfind) fun u hu => ?_
      rw [hu.1]
      simp [List.any_filter]
    · rw [hu.1, List.length_append, List.length_map]
  case claim =>
    exact ⟨_, exec_claimTimeout hclk hlate, (congrArg Lane.claimOut (lane_congr (satInc_same _ _).lanes n)).trans (congrArg Lane.claimOut (lane_updLane_same _ _ _))⟩
  case stale =>
    exact ⟨_, exec_peerStale hclk hpos hfresh hlate, staleShown_testBit _ _ _ _⟩
  case calStart => exact does_mono ((calibrationRuns s n 0 hclk hn (by decide) hon).1 hpend hnow1) fun u hu => hu.1
  case calDeadline => exact does_mono ((calibrationRuns s n i hclk hn hi hon).2.1 hdue) fun u hu => hu.1
  case calEnd => exact (calibrationRuns s n 0 hclk hn (by decide) hon).2.2 r hrun hdue hresult hother pd0 pd1
  case update => exact does_mono (update layer true hend fun h => absurd h (by decide)) fun u hu => hu.1

end Sys2Proof.Proofs

/-! PROOFS. Every event of the forms of registers, the cameras, the axes, DRAM, DMA, codecs, faults and the recorder takes effect. -/

namespace Sys2Proof.Proofs

-- One theorem after the other: elaborated at once, their threads outgrow the memory that a check may take.
set_option Elab.async false

open Sys2Proof.Machine Sys2Proof.Laws

section
variable {s : State}

/-- A boundary leaves no queued write (R18): what it applies and the commands that it ends queue none. -/
theorem liveFieldApply_empties (hclk : Clocked s) : Does (exec .liveFieldApply s) s fun u => u.live = [] := by
  let b := (loopTakes s).live.foldl liveApply { loopTakes s with live := [] }
  let c := finishAll (finishAll b 0x0503 0 .ok (tickNo b) 0 0 0) 0x0504 0 .ok (tickNo b) 0 0 0
  refine ⟨(List.range 32).foldl (fun s c => finishAll s 0x0903 c .ok 0 0 0 0) c, ?_, ?_⟩
  · show execLiveFieldApply s = _
    rw [execLiveFieldApply, whileClocked_running _ hclk]
  · have hb : b.live = [] := foldl_keeps State.live liveApply (fun t e => (liveApply_same t e).live) _ _
    have hc : c.live = b.live := (finishAll_same _ _ _ _ _ _ _ _).live.trans (finishAll_same _ _ _ _ _ _ _ _).live
    exact (foldl_keeps State.live _ (fun t k => (finishAll_same t _ k _ _ _ _ _).live) _ _).trans (hc.trans hb)

end

theorem unitEventsComplete : Claim.UnitEventsComplete := by
  intro s hclk
  obtain ⟨-, -, hwhole, -⟩ := registerAccess s
  obtain ⟨-, -, drainFrozen, window, gone, -, recovery, -⟩ := recorderWork s hclk
  refine ⟨hwhole, fun _ => liveFieldApply_empties hclk, fun port vc phy hport hon hnone => (cameraFrames s port vc phy hclk hport hon).1 hnone,
    fun p hon hline hroom => ?pipe, fun c hc => ?contexts, fun k hk => ⟨fun p hplan hrun => ?motion, fun lim hst hlim hfar => exec_homeFail hclk hst hlim hfar,
      fun i hi => ?switches, fun h1 h2 h3 h4 h5 => ?stall, fun h1 h2 => ?encoder, fun frame ns h1 h2 => ?ssi, fun ns raw h1 h2 => ?index⟩,
    fun g hg hdue hsync hready => ?group, fun g hg hdue hsafe hready => ?resume, fun c hc => ?dram, fun c hc => ?dma, fun kind space addr hkind hspace haddr => ?bus,
    fun g hg j data used hjob hst hin hout hdata => ?job, fun hdef hstream hdue => ?flush, fun hi hon => ?recRead, gone, fun hset source hany => ?recovery,
    fun e rest hthaw hfifo hfrozen => does_mono (drainFrozen e rest hthaw hfifo hfrozen) fun u hu => hu.1,
    fun w hw => does_mono (window w (by omega)) fun u hu => hu.1⟩
  case pipe => exact ((cameraRecords s 0 hclk (by decide)).1 p hon hline).1 hroom
  case contexts =>
    obtain ⟨-, ready, delivery, -, late, -, writes, overdue⟩ := cameraRecords s c hclk hc
    exact ⟨fun hwatch hnone => does_mono (late hwatch hnone) fun u hu => hu.1, fun f fs hframes hready hsampled => does_mono (ready f fs hframes hready hsampled) fun u hu => hu.2.2.1,
      fun r rs hout hready hroutes => does_mono (delivery r rs hout hready hroutes) fun u hu => hu.1,
      fun b base hw hfirst hbase hon acked hacked => does_mono ((writes b base acked hw hfirst hbase hon).2 hacked) fun u hu => hu.1, overdue⟩
  case motion =>
    obtain ⟨target, rest, home, -⟩ := axisMotionEnds s k p hclk hk hplan hrun
    exact ⟨fun hst => does_mono (target hst) fun u hu => hu.1, fun hst => does_mono (rest hst) fun u hu => hu.1.1, fun hst hphase => does_mono (home hst hphase) fun u hu => hu.1.1⟩
  case switches =>
    obtain ⟨transition, debounce, -, chatter, -⟩ := axisInputs s k i hclk hk hi
    refine ⟨fun level ns raw => does_mono (transition level ns raw) fun u hu => hu.1, fun hen hon hraw hheld hst => ?_, chatter⟩
    exact does_mono ((debounce hen (by rw [hon, hraw]; decide) hheld).1 hst (fun h => absurd (hraw.symm.trans h.2.1) (by decide)) (fun h => absurd (hraw.symm.trans h.2.1) (by decide)))
      fun u hu => hu.1.trans hraw
  case stall =>
    obtain ⟨-, -, -, -, stall, -⟩ := axisInputs s k 0 hclk hk (by decide)
    exact stall h1 h2 h3 h4 h5
  case encoder =>
    obtain ⟨-, -, -, -, -, encoder, -⟩ := axisInputs s k 0 hclk hk (by decide)
    exact encoder h1 h2
  case ssi =>
    obtain ⟨-, -, -, -, -, -, -, ssi, -⟩ := axisInputs s k 0 hclk hk (by decide)
    exact does_mono (ssi frame ns h1 h2) fun u hu => hu.1
  case index =>
    obtain ⟨-, -, -, -, -, -, -, -, index⟩ := axisInputs s k 0 hclk hk (by decide)
    exact does_mono (index ns raw h1 h2) fun u hu => hu.2.2.1
  case group =>
    obtain ⟨u, hexec, hnone, -⟩ := groupStartBoundary_effect hclk hg hdue hsync hready
    exact ⟨u, hexec, hnone⟩
  case resume =>
    obtain ⟨u, hexec, hnone, -⟩ := axisResumeStart_effect hclk hg hdue hsafe hready
    exact ⟨u, hexec, hnone⟩
  case dram =>
    obtain ⟨-, -, write, throttle, -, disturb, refresh, temp, zq, scrub, -⟩ := dramWork s c hclk hc
    refine ⟨fun htrain us => ?_, fun q h1 h2 h3 h4 h5 => does_mono (write q h1 h2 h3 h4 h5) fun u hu => hu.1, does_mono throttle fun u hu => hu.1,
      fun hdue => does_mono (disturb hdue) fun u hu => hu.1, fun bank h1 h2 => does_mono (refresh bank h1 h2) fun u hu => hu.1,
      fun hot h1 h2 => does_mono (temp hot h1 h2) fun u hu => hu.1, zq, fun hready => does_mono (scrub hready) fun u hu => hu.1⟩
    obtain ⟨⟨u, hexec, hst, -⟩, -⟩ := dramCommands.2 s c us 0 0 hclk hc htrain
    exact ⟨u, hexec, hst⟩
  case dma =>
    obtain ⟨fetch, -, burst, -⟩ := dmaWork s c hclk hc
    refine ⟨fun bs hcur hpre hactive hspace hread hbad => ?_, burst⟩
    exact (fetch bs hcur hpre hactive (fun h0 => absurd (hspace.symm.trans h0) (by decide)) (by rw [hspace]; exact hread)).2 hbad
  case bus =>
    obtain ⟨-, -, -, -, -, busErr⟩ := dmaWork s 0 hclk (by decide)
    exact does_mono (busErr kind space addr hkind hspace haddr) fun u hu => ⟨hu.2.1, hu.2.2.1⟩
  case job =>
    obtain ⟨run, -⟩ := codecWork s g hclk hg
    exact run j data used hjob hst (fun h0 => absurd h0 (by rw [hin, hout]; decide)) hdata
  case flush =>
    obtain ⟨-, -, -, flush, -⟩ := codecWork s 0 hclk (by decide)
    exact flush hdef hstream hdue
  case recRead =>
    obtain ⟨-, -, -, -, -, recRead, -⟩ := codecWork s 0 hclk (by decide)
    exact recRead hi hon
  case recovery => exact (recovery clsDevice source hset hany).2.2 rfl

/-- Settles O59: every event of these forms takes effect where its conditions hold. -/
theorem eventsComplete : Obligations.EventsComplete := ⟨laneEventsComplete, unitEventsComplete⟩

end Sys2Proof.Proofs
